-- ==== Sys2Proof/Word.lean ====
section
/-! DEFINITION. Word types of the block and the shape of a register field (spec/00_scope.md R5, R6, R8). -/

namespace Sys2Proof

/-- A 32-bit word (spec/00_scope.md R5). -/
abbrev Word := BitVec 32

/-- A byte (spec/00_scope.md R5). -/
abbrev Byte := BitVec 8

/-- A field of a register: its lowest bit and its width in bits. -/
structure Fld where
  lo : Nat
  w  : Nat
  deriving DecidableEq, Repr

end Sys2Proof
end

