-- ==== Sys2Proof/Syntax.lean ====
section
/-! DEFINITION. The commands of the block: one constructor of `Instr` per row of spec/opcode_table.json, with the row's
operands. What the outside world decides (a level, a measurement, an outcome of a check) is an operand. -/

namespace Sys2Proof

/-- A control island (spec/01_architecture.md R17). -/
abbrev Isl := Fin 6
/-- A Reckoner core: island cores 0-5, application cores 6-7, Chozer's core 8 (spec/00_scope.md). -/
abbrev Core := Fin 9
/-- A requester of the interconnect: cores 0-8, DMA engines 9 and 10, debug port 11 (spec/01_architecture.md R35). -/
abbrev Req := Fin 12
/-- An Abacus rod (spec/06_abacus_rods.md R211). -/
abbrev Rod := Fin 64

/-- Conditions of a Reckoner instruction (spec/12_instruction_set.md R395). -/
inductive Cond where
  | al | z | nz | n | nn | c | nc | v | nv | p | np | ge | lt | gt | le
  deriving DecidableEq, Repr

/-- Short (16-bit) or long (32-bit) form (spec/12_instruction_set.md R391). -/
inductive Form where
  | short | long
  deriving DecidableEq, Repr

/-- The count of a shift: the SO form with its field n, or SHIFT.L with its count (spec/12_instruction_set.md R397). -/
inductive ShiftCount where
  | short (n : Fin 16)
  | long (s : Fin 32)
  deriving DecidableEq, Repr

/-- The address form of a load or store: the SO form, or the long form with disp20 (spec/12_instruction_set.md R401). -/
inductive MemForm where
  | short
  | disp (d : BitVec 20)
  deriving DecidableEq, Repr

/-- The bit a bit instruction names: SB form, or BIT with any bit address (spec/12_instruction_set.md R405). -/
inductive BitRef where
  | own (b : Fin 512)
  | any (b : BitVec 16)
  deriving DecidableEq, Repr

/-- The fields of a rod microinstruction other than its opcode (spec/06_abacus_rods.md R229), with two things the
rod finds out: `res`, the residue check (0 agrees, 1 the repeat agrees, 2 the repeat mismatches too, R244, R245), and
`ue`, whether the fetch ended with UE (R235). -/
structure RodX where
  dst  : BitVec 8
  a    : BitVec 8
  b    : BitVec 8
  cidx : BitVec 10
  acc  : Bool
  cond : BitVec 3
  imm  : BitVec 16
  res  : Fin 3
  ue   : Bool
  deriving DecidableEq, Repr

/-- What a read of an array word finds (spec/15_memory_ecc_arbitration.md R491). -/
inductive Ecc where
  | clean | bits1 | bits2 | uncorrectable
  deriving DecidableEq, Repr

/-- An array access kind (spec/15_memory_ecc_arbitration.md R487). -/
inductive AccKind where
  | read | writeWord | readModifyWrite
  deriving DecidableEq, Repr

/-- One access at an arbitrated target: the array (or 16 and above for a peripheral block's target), the address of the
word, its kind, whether it pre-empts (R506), the wait of the granted access in ticks, and what its read and re-read
find (R492, R496). -/
structure ArrayAcc where
  target  : Nat
  addr    : Word
  kind    : AccKind
  preempt : Bool
  waited  : Nat
  first   : Ecc
  second  : Ecc
  deriving DecidableEq, Repr

/-- An application image as START finds it in flash (spec/20_modes_power_boot.md R633, spec/18_chozer_mailboxes.md
R585). -/
structure ImgInfo where
  image   : Fin 8
  version : Word
  flags   : Word
  load    : Word
  entry   : Word
  bytes   : List Byte
  deriving DecidableEq, Repr

/-- What START finds outside the model: which slots verify (bit i: image i), the reason of the last failed check,
the images, whether VOUT_MODE is linear (R77), and the two attempts of the capacitance test (R541): store voltages
in mV, the time in us and whether TMAX passed first. -/
structure BootInfo where
  okA     : BitVec 8
  okB     : BitVec 8
  code    : Fin 5
  images  : List ImgInfo
  linear  : Bool
  v1      : Nat
  v2      : Nat
  dt      : Nat
  timeout : Bool
  w1      : Nat
  w2      : Nat
  dt2     : Nat
  timeout2 : Bool
  deriving DecidableEq, Repr, Inhabited

/-- An external message (spec/18_chozer_mailboxes.md R577) and the link on which it came: Chain ports 0-3, CAN FD
controllers 4-9, debug port 10, with the source address it carries. -/
structure ExtMsg where
  link    : Fin 11
  src     : BitVec 48
  hdr     : Word
  sid     : Word
  ctr     : Word
  payload : List Word
  tag     : BitVec 64
  deriving DecidableEq, Repr

/-- An Ethernet frame as it arrives at a Chain port (spec/19_chain_and_can.md R592, R599): its bytes from the destination
address on without the FCS, whether the FCS is good, and whether the egress of the inline switch is idle. -/
structure NetFrame where
  bytes : List Byte
  fcsOk : Bool
  idle  : Bool
  deriving DecidableEq, Repr

/-- A CAN frame (spec/19_chain_and_can.md R610, R612). -/
structure CanFrame where
  ide  : Bool
  fdf  : Bool
  brs  : Bool
  id   : BitVec 29
  dlc  : Fin 16
  data : List Byte
  deriving DecidableEq, Repr

/-- The commands: one constructor per row of spec/opcode_table.json. -/
inductive Instr where
  /-- LAST_GASP (R544): After any commit in progress ends, the engine commits every changed last-gasp record as one clasp ending with an LG_JOURNAL slot and saves the wear bucket. -/
  | lastGasp
  /-- WAKE_EVENT (R358): An event delivered to WAKE starts the DORMANT exit, or in any other mode sets WAKE and raises source 0x0025. -/
  | wakeEvent (b : BootInfo)
  /-- DORMANT_ENTRY (R635): After the PWR_DORMANT reply and the deferred commits, cores stop, non-always-on domains power down and the governor commands FLOOR. -/
  | dormantEntry
  /-- TIMER_PERIOD_END (R104): The timer's count becomes 0 by a wrap, reset or short end, applying its shadows and raising its period-end event. -/
  | timerPeriodEnd (n : Isl) (t : Fin 16)
  /-- CHAIN_CLASS_ACTION (R112): On the tick after a chain-class match, RESET, START or RESET_START acts on the timer itself or on the other timer of its pair. -/
  | chainClassAction (n : Isl) (t : Fin 16) (k : Fin 2)
  /-- TIMER_EVENT_INPUT (R115): A Filigree START, STOP or RESET input acts on the timer at origin + DLY, or on the tick after recording. -/
  | timerEventInput (n : Isl) (t : Fin 16) (m : Fin 3)
  /-- SHORT_END (R120): When the new reload is below the count, the count becomes 0 on the next tick, a period end, and SHORT is set. -/
  | shortEnd (n : Isl) (t : Fin 16)
  /-- TLY_GO_RELEASE (R121): On the release tick the command applies to every selected timer and PENDING clears. -/
  | tlyGoRelease
  /-- PAIR_BOUNDARY (R130): The pair counter reaches a boundary, returns to 0, applies shadows and fires BOUNDARY. -/
  | pairBoundary (n : Isl) (p : Fin 16)
  /-- HOLD_EXPIRED (R147): On tick T1 + W + 1 a held group is released alone and HOLD_EXPIRED is set. -/
  | holdExpired (n : Isl) (p : Fin 16)
  /-- TRIP_RECORDED (R155): The set latch is recorded: TRIP is set, the tick written to PWM_TRIP_TS, and the TRIP event and source fired. -/
  | tripRecorded (n : Isl) (p : Fin 16)
  /-- BLANK_LONG (R158): A blanking window still open on tick S + 4,096 is cut, BLANK_LONG set and its source raised. -/
  | blankLong (n : Isl) (l : Fin 24)
  /-- GROUP_TRIGGER (R174): A delivered GTg event starts acquisition on every channel of group g at origin + DLY or on the tick after recording. -/
  | groupTrigger (n : Isl) (g : Fin 8)
  /-- CAL_CYCLE_START (R196): Every INTERVAL seconds a calibration cycle begins on every channel in OFF or ADC mode. -/
  | calCycleStart (n : Isl)
  /-- COMPARATOR_RECORDED (R195): An assertion is recorded, setting CMP and CMP_EVT, firing the CMP event and raising the CMP source. -/
  | comparatorRecorded (n : Isl) (c : Fin 16)
  /-- SINC3_RESULT (R202): A sinc3 window closes and its result is recorded in the sample bank and fires RESULT. -/
  | sinc3Result (n : Isl) (j : Fin 8)
  /-- FRAME_COMPLETION (R216): Every FRAME rod has executed END, the completion is recorded, DONE set and FRAME_DONE fired if before B. -/
  | frameCompletion (n : Isl)
  /-- ROD_NOP (R230): Rod microinstruction NOP does nothing. -/
  | rodNop (r : Rod) (x : RodX)
  /-- ROD_MOV (R230): Rod MOV copies operand a to DST. -/
  | rodMov (r : Rod) (x : RodX)
  /-- ROD_LDI (R230): Rod LDI loads IMM sign-extended into DST. -/
  | rodLdi (r : Rod) (x : RodX)
  /-- ROD_LDIU (R230): Rod LDIU loads IMM into DST[31:16], keeping DST[15:0]. -/
  | rodLdiu (r : Rod) (x : RodX)
  /-- ROD_LDC (R230): Rod LDC loads coefficient C[k] into DST. -/
  | rodLdc (r : Rod) (x : RodX)
  /-- ROD_LDL (R241): Rod LDL loads a link word as applied at the frame's start tick and sets P to its VALID. -/
  | rodLdl (r : Rod) (x : RodX)
  /-- ROD_MUL (R226): Rod MUL sets the accumulator to the rounded product of a and C[k]. -/
  | rodMul (r : Rod) (x : RodX)
  /-- ROD_MAC (R226): Rod MAC adds the rounded product of a and C[k] to the accumulator, with a residue check. -/
  | rodMac (r : Rod) (x : RodX)
  /-- ROD_MSU (R226): Rod MSU subtracts the rounded product of a and C[k] from the accumulator. -/
  | rodMsu (r : Rod) (x : RodX)
  /-- ROD_MULR (R226): Rod MULR sets the accumulator to rs(a times b, IMM). -/
  | rodMulr (r : Rod) (x : RodX)
  /-- ROD_MACR (R226): Rod MACR adds rs(a times b, IMM) to the accumulator. -/
  | rodMacr (r : Rod) (x : RodX)
  /-- ROD_MSUR (R226): Rod MSUR subtracts rs(a times b, IMM) from the accumulator. -/
  | rodMsur (r : Rod) (x : RodX)
  /-- ROD_ACCL (R230): Rod ACCL loads the accumulator with a shifted left by IMM. -/
  | rodAccl (r : Rod) (x : RodX)
  /-- ROD_ACCA (R230): Rod ACCA adds a shifted left by IMM to the accumulator. -/
  | rodAcca (r : Rod) (x : RodX)
  /-- ROD_STA (R227): Rod STA writes sat32(rs(A, IMM)) to DST, setting SAT on saturation. -/
  | rodSta (r : Rod) (x : RodX)
  /-- ROD_ADD (R230): Rod ADD writes sat32(a + b). -/
  | rodAdd (r : Rod) (x : RodX)
  /-- ROD_SUB (R230): Rod SUB writes sat32(a - b). -/
  | rodSub (r : Rod) (x : RodX)
  /-- ROD_NEG (R230): Rod NEG writes sat32(-a). -/
  | rodNeg (r : Rod) (x : RodX)
  /-- ROD_ABS (R230): Rod ABS writes sat32(abs(a)). -/
  | rodAbs (r : Rod) (x : RodX)
  /-- ROD_MIN (R230): Rod MIN writes min(a, b). -/
  | rodMin (r : Rod) (x : RodX)
  /-- ROD_MAX (R230): Rod MAX writes max(a, b). -/
  | rodMax (r : Rod) (x : RodX)
  /-- ROD_SHR (R230): Rod SHR writes rs(a, IMM). -/
  | rodShr (r : Rod) (x : RodX)
  /-- ROD_SHL (R230): Rod SHL writes sat32(a shifted left by IMM). -/
  | rodShl (r : Rod) (x : RodX)
  /-- ROD_AND (R230): Rod AND writes a AND b. -/
  | rodAnd (r : Rod) (x : RodX)
  /-- ROD_OR (R230): Rod OR writes a OR b. -/
  | rodOr (r : Rod) (x : RodX)
  /-- ROD_XOR (R230): Rod XOR writes a XOR b. -/
  | rodXor (r : Rod) (x : RodX)
  /-- ROD_CLAMP (R230): Rod CLAMP limits a to C[k]..C[k + 1] and sets P if the value changed. -/
  | rodClamp (r : Rod) (x : RodX)
  /-- ROD_SINCOS (R230): Rod SINCOS writes the sine and cosine of angle a at scale 2^30. -/
  | rodSincos (r : Rod) (x : RodX)
  /-- ROD_ATAN2 (R230): Rod ATAN2 writes the angle of (b, a) as a fraction of 2^32 per turn. -/
  | rodAtan2 (r : Rod) (x : RodX)
  /-- ROD_DIV (R230): Rod DIV writes sat32(trunc(a times 2^IMM / b)), with SAT on division by zero. -/
  | rodDiv (r : Rod) (x : RodX)
  /-- ROD_SQRT (R230): Rod SQRT writes floor of the square root of a, with SAT for negative a. -/
  | rodSqrt (r : Rod) (x : RodX)
  /-- ROD_CMP (R231): Rod CMP compares a with b under COND and sets P. -/
  | rodCmp (r : Rod) (x : RodX)
  /-- ROD_TSTB (R230): Rod TSTB sets P to bit IMM of a. -/
  | rodTstb (r : Rod) (x : RodX)
  /-- ROD_SEL (R230): Rod SEL writes a if P = 1, else b. -/
  | rodSel (r : Rod) (x : RodX)
  /-- ROD_BR (R232): Rod BR branches forward to IMM if COND holds. -/
  | rodBr (r : Rod) (x : RodX)
  /-- ROD_END (R216): Rod END marks the rod finished for this frame. -/
  | rodEnd (r : Rod) (x : RodX)
  /-- ROD_OUT (R238): Rod OUT stages a value into an enabled output slot, once per frame. -/
  | rodOut (r : Rod) (x : RodX)
  /-- ROD_PUB (R240): Rod PUB stages a value into one of the island's link words, once per frame. -/
  | rodPub (r : Rod) (x : RodX)
  /-- TRACE_TRIGGER_INPUT (R345): A TTRIG action makes a trace trigger pending when FILIGREE is selected. -/
  | traceTriggerInput (n : Isl)
  /-- SNAP (R298): A snap takes the position and computes the speed for the sample bank entries. -/
  | snap (n : Isl) (k : Fin 2)
  /-- SNAP_ENTRIES_RECORDED (R300): The position and speed entries are recorded with timestamp S and SNAP_DONE fires. -/
  | snapEntriesRecorded (n : Isl) (k : Fin 2)
  /-- SERIAL_WORD (R296): A word delivered by a Bead engine in BEAD mode sets the position and turns, or is discarded with SER_ERR. -/
  | serialWord (n : Isl) (k : Fin 2) (w : Word) (tick : Nat)
  /-- BEAD_START_EVENT (R323): A delivered START event starts a stopped engine with strobe 0 at origin + DLY. -/
  | beadStartEvent (n : Isl) (e : Fin 8)
  /-- BEAD_STOP (R324): The engine stops on the first eligible strobe, sets STOPPED and raises its source. -/
  | beadStop (n : Isl) (e : Fin 8)
  /-- WIN_EVENT (R328): A WIN event restarts the divider for a synchronised WAIT, or sets WIN_PEND and possibly WIN_OVR. -/
  | winEvent (n : Isl) (e : Fin 8)
  /-- IDLE (R312): Bead IDLE applies its PINS action and waits d + 1 strobes. -/
  | idle (n : Isl) (e : Fin 8) (pins : Fin 16) (dly : Fin 1024)
  /-- SHIFT (R314): Bead SHIFT moves n bits in, out, both or to the CRC only, with an optional clock on P1. -/
  | shift (n : Isl) (e : Fin 8) (pins : Fin 16) (dir : Fin 4) (ck : Bool) (cnt : Fin 32) (got : List Bool)
  /-- TAKE (R319): Bead TAKE loads SR from the TX queue, waiting or taking the last word with STALE if empty. -/
  | take (n : Isl) (e : Fin 8) (pins : Fin 16) (block : Bool)
  /-- GIVE (R319): Bead GIVE sends SR and the capture tick to the RX queue or to the feedback interfaces. -/
  | give (n : Isl) (e : Fin 8) (pins : Fin 16) (block : Bool)
  /-- MARK (R321): Bead MARK sets the capture tick to the tick of this strobe. -/
  | mark (n : Isl) (e : Fin 8) (pins : Fin 16)
  /-- WAIT (R312): Bead WAIT waits for P0 or P1 to reach a level, or for WIN. -/
  | wait (n : Isl) (e : Fin 8) (pins : Fin 16) (src : Fin 4) (level : Bool) (seen : Bool)
  /-- BRANCH (R312): Bead BRANCH goes to its target if its condition holds, decrementing X for DECNZ. -/
  | branch (n : Isl) (e : Fin 8) (pins : Fin 16) (cond : Fin 8) (target : Fin 64) (p0 : Bool)
  /-- LOADX (R312): Bead LOADX loads X with a 16-bit value. -/
  | loadx (n : Isl) (e : Fin 8) (pins : Fin 16) (v : BitVec 16)
  /-- SR_CLR (R312): MOVE SR_CLR sets SR to 0. -/
  | srClr (n : Isl) (e : Fin 8) (pins : Fin 16)
  /-- SR_X (R312): MOVE SR_X sets SR to X zero-extended. -/
  | srX (n : Isl) (e : Fin 8) (pins : Fin 16)
  /-- X_SR (R312): MOVE X_SR sets X to SR[15:0]. -/
  | xSr (n : Isl) (e : Fin 8) (pins : Fin 16)
  /-- SR_ERR (R312): MOVE SR_ERR sets SR[31] to 1. -/
  | srErr (n : Isl) (e : Fin 8) (pins : Fin 16)
  /-- SR_AND (R312): MOVE SR_AND masks SR with BEAD_CMP_MASK. -/
  | srAnd (n : Isl) (e : Fin 8) (pins : Fin 16)
  /-- CRC_CLR (R312): MOVE CRC_CLR loads the CRC register from BEAD_CRC_INIT. -/
  | crcClr (n : Isl) (e : Fin 8) (pins : Fin 16)
  /-- CRC_ON (R312): MOVE CRC_ON makes shifted bits enter the CRC. -/
  | crcOn (n : Isl) (e : Fin 8) (pins : Fin 16)
  /-- CRC_OFF (R312): MOVE CRC_OFF stops shifted bits entering the CRC. -/
  | crcOff (n : Isl) (e : Fin 8) (pins : Fin 16)
  /-- SR_REV (R312): MOVE SR_REV reverses the 32 bits of SR. -/
  | srRev (n : Isl) (e : Fin 8) (pins : Fin 16)
  /-- SIGNAL (R312): Bead SIGNAL fires the EVT event and raises the IRQ source as selected. -/
  | signal (n : Isl) (e : Fin 8) (pins : Fin 16) (irq evt : Bool)
  /-- STOP (R324): Bead STOP stops the engine on its own strobe with PC at the next address and sets SELF_STOP. -/
  | stop (n : Isl) (e : Fin 8) (pins : Fin 16)
  /-- CHANNEL_EVENT (R335): An event on a Filigree channel passes the gate stage and spacing check and is delivered to its consumer. -/
  | channelEvent (ch : Fin 1024) (late : Bool) (unseen : Nat)
  /-- CELL_FILTER_OUTPUT (R350): A change of Q that persists FILT ticks reaches O on tick t + FILT. -/
  | cellFilterOutput (n : Isl) (i : Fin 64)
  /-- ROUTING_CHECK (R354): The spine checks the whole routing as it would stand after a routing clasp commits, within 40 us. -/
  | routingCheck (c : Core)
  /-- CLOPEN (R367): CLOPEN opens a register clasp in the current bank and pushes its status word. -/
  | clopen (c : Core) (k : Cond)
  /-- CLCLOSE (R372): CLCLOSE pops the mode word and tick and closes the clasp for commit. -/
  | clclose (c : Core) (k : Cond)
  /-- CLABORT (R381): CLABORT discards an open or waiting clasp not yet committed. -/
  | clabort (c : Core) (k : Cond)
  /-- CLSTAT (R383): CLSTAT pushes the status word of the core's last clasp. -/
  | clstat (c : Core) (k : Cond)
  /-- CLASP_CLOSE_RECORDED (R372): When every entry has reached its block the close is recorded on tick K and the commit tick is decided. -/
  | claspCloseRecorded (c : Core)
  /-- CLASP_COMMIT (R378): On tick C every entry of the clasp is committed according to its class. -/
  | claspCommit (c : Core)
  /-- CLASP_COMMIT_INPUT (R377): An action of a core's commit input commits its clasp waiting for EVENT, or does nothing. -/
  | claspCommitInput (c : Core)
  /-- SL (R392): SL pushes a sign-extended 11-bit immediate. -/
  | sl (c : Core) (k : Cond) (imm : BitVec 11)
  /-- SJ (R415): SJ branches by a short scaled offset. -/
  | sj (c : Core) (k : Cond) (off : BitVec 10)
  /-- NOP (R396): NOP does nothing. -/
  | nop (c : Core) (k : Cond)
  /-- DUP (R396): DUP duplicates the top of the data stack. -/
  | dup (c : Core) (k : Cond)
  /-- DROP (R396): DROP pops the top of the data stack. -/
  | drop (c : Core) (k : Cond)
  /-- SWAP (R396): SWAP exchanges the two top items. -/
  | swap (c : Core) (k : Cond)
  /-- OVER (R396): OVER pushes a copy of the second item. -/
  | over (c : Core) (k : Cond)
  /-- ROT (R396): ROT rotates the three top items. -/
  | rot (c : Core) (k : Cond)
  /-- NIP (R396): NIP removes the second item. -/
  | nip (c : Core) (k : Cond)
  /-- PICK (R396): PICK pushes a copy of the item at depth n. -/
  | pick (c : Core) (k : Cond) (n : Fin 16)
  /-- TOR (R396): TOR moves the top item to the return stack. -/
  | tor (c : Core) (k : Cond)
  /-- FROMR (R396): FROMR moves the top of the return stack to the data stack. -/
  | fromr (c : Core) (k : Cond)
  /-- RFETCH (R396): RFETCH copies the top of the return stack to the data stack. -/
  | rfetch (c : Core) (k : Cond)
  /-- RDROP (R396): RDROP pops the return stack. -/
  | rdrop (c : Core) (k : Cond)
  /-- PSET (R396): PSET sets P to 1. -/
  | pset (c : Core) (k : Cond)
  /-- PCLR (R396): PCLR sets P to 0. -/
  | pclr (c : Core) (k : Cond)
  /-- PNOT (R396): PNOT inverts P. -/
  | pnot (c : Core) (k : Cond)
  /-- PGET (R396): PGET pushes P as 0 or 1. -/
  | pget (c : Core) (k : Cond)
  /-- PPUT (R396): PPUT pops x and sets P to whether x is non-zero. -/
  | pput (c : Core) (k : Cond)
  /-- FGET (R389): FGET pushes the five flags as a flags word. -/
  | fget (c : Core) (k : Cond)
  /-- FPUT (R389): FPUT loads the five flags from a popped word. -/
  | fput (c : Core) (k : Cond)
  /-- ADD (R398): ADD pushes a + b and sets Z, N, C and V, with a residue check. -/
  | add (c : Core) (k : Cond) (res : Fin 3)
  /-- SUB (R398): SUB pushes a - b and sets the flags. -/
  | sub (c : Core) (k : Cond) (res : Fin 3)
  /-- ADC (R396): ADC pushes a + b + C and sets the flags. -/
  | adc (c : Core) (k : Cond) (res : Fin 3)
  /-- SBC (R396): SBC pushes a - b - (1 - C) and sets the flags. -/
  | sbc (c : Core) (k : Cond) (res : Fin 3)
  /-- AND (R396): AND pushes a AND b. -/
  | and (c : Core) (k : Cond)
  /-- OR (R396): OR pushes a OR b. -/
  | or (c : Core) (k : Cond)
  /-- XOR (R396): XOR pushes a XOR b. -/
  | xor (c : Core) (k : Cond)
  /-- NOT (R396): NOT pushes the complement of a. -/
  | not (c : Core) (k : Cond)
  /-- NEG (R396): NEG pushes 0 - a and sets the flags. -/
  | neg (c : Core) (k : Cond) (res : Fin 3)
  /-- ABS (R396): ABS pushes sat32(abs(a)). -/
  | abs (c : Core) (k : Cond)
  /-- MIN (R396): MIN pushes the signed minimum of a and b. -/
  | min (c : Core) (k : Cond)
  /-- MAX (R396): MAX pushes the signed maximum of a and b. -/
  | max (c : Core) (k : Cond)
  /-- SHL (R397): SHL, short or long form, shifts a left and sets C to the last bit out. -/
  | shl (c : Core) (k : Cond) (cnt : ShiftCount)
  /-- SHR (R397): SHR, short or long form, shifts a right logically. -/
  | shr (c : Core) (k : Cond) (cnt : ShiftCount)
  /-- ASR (R397): ASR, short or long form, shifts a right arithmetically. -/
  | asr (c : Core) (k : Cond) (cnt : ShiftCount)
  /-- ROR (R397): ROR, short or long form, rotates a right. -/
  | ror (c : Core) (k : Cond) (cnt : ShiftCount)
  /-- MUL (R398): MUL pushes the low 32 bits of a times b, with V on overflow. -/
  | mul (c : Core) (k : Cond) (res : Fin 3)
  /-- MULH (R396): MULH pushes the high 32 bits of the signed product. -/
  | mulh (c : Core) (k : Cond) (res : Fin 3)
  /-- MULHU (R396): MULHU pushes the high 32 bits of the unsigned product. -/
  | mulhu (c : Core) (k : Cond) (res : Fin 3)
  /-- MULQ (R402): MULQ and MULQ.L push sat32(rs(a times b, shift)) and set V on saturation. -/
  | mulq (c : Core) (k : Cond) (res : Fin 3) (form : Form) (sh : Fin 32)
  /-- DIV (R399): DIV pushes the signed quotient, with fixed results for special cases. -/
  | div (c : Core) (k : Cond) (res : Fin 3)
  /-- DIVU (R399): DIVU pushes the unsigned quotient. -/
  | divu (c : Core) (k : Cond) (res : Fin 3)
  /-- REM (R399): REM pushes the signed remainder. -/
  | rem (c : Core) (k : Cond) (res : Fin 3)
  /-- REMU (R399): REMU pushes the unsigned remainder. -/
  | remu (c : Core) (k : Cond) (res : Fin 3)
  /-- CMP (R400): CMP compares a with b, sets the flags and sets P to a cc b. -/
  | cmp (c : Core) (k : Cond) (res : Fin 3) (cc : Fin 16)
  /-- CMPI (R400): CMPI compares a with a sign-extended immediate and sets the flags and P. -/
  | cmpi (c : Core) (k : Cond) (res : Fin 3) (cc : Fin 16) (imm : BitVec 16)
  /-- BTST (R396): BTST and BTST.L set P to a bit of the top item. -/
  | btst (c : Core) (k : Cond) (form : Form) (bit : Fin 32)
  /-- ADDQ (R396): ADDQ pushes a + n + 1. -/
  | addq (c : Core) (k : Cond) (res : Fin 3) (n : Fin 16)
  /-- MOVW (R404): MOVW copies a word from s to d and advances both pointers. -/
  | movw (c : Core) (k : Cond)
  /-- FILLW (R404): FILLW writes x at d and advances d. -/
  | fillw (c : Core) (k : Cond)
  /-- SUMW (R404): SUMW adds the word at a to acc and advances a. -/
  | sumw (c : Core) (k : Cond) (res : Fin 3)
  /-- LD_W (R403): LD.W, short or displaced form, pushes the word read at the address. -/
  | ldW (c : Core) (k : Cond) (disp : MemForm)
  /-- LD_H (R403): LD.H pushes a sign-extended halfword. -/
  | ldH (c : Core) (k : Cond) (disp : MemForm)
  /-- LD_HU (R403): LD.HU pushes a zero-extended halfword. -/
  | ldHu (c : Core) (k : Cond) (disp : MemForm)
  /-- LD_B (R403): LD.B pushes a sign-extended byte. -/
  | ldB (c : Core) (k : Cond) (disp : MemForm)
  /-- LD_BU (R403): LD.BU pushes a zero-extended byte. -/
  | ldBu (c : Core) (k : Cond) (disp : MemForm)
  /-- ST_W (R403): ST.W, short or displaced form, stores a word through the store buffer or into an open clasp. -/
  | stW (c : Core) (k : Cond) (disp : MemForm)
  /-- ST_H (R403): ST.H stores the low halfword of x. -/
  | stH (c : Core) (k : Cond) (disp : MemForm)
  /-- ST_B (R403): ST.B stores the low byte of x. -/
  | stB (c : Core) (k : Cond) (disp : MemForm)
  /-- LDA_W (R401): LDA.W pushes the word at a zero-extended 20-bit address. -/
  | ldaW (c : Core) (k : Cond) (addr : BitVec 20)
  /-- STA_W (R401): STA.W stores x at a zero-extended 20-bit address. -/
  | staW (c : Core) (k : Cond) (addr : BitVec 20)
  /-- LIT_L (R401): LIT.L pushes a sign-extended 20-bit immediate. -/
  | litL (c : Core) (k : Cond) (imm : BitVec 20)
  /-- EXT (R401): EXT shifts the top item left by 12 and ORs in a 12-bit immediate. -/
  | ext (c : Core) (k : Cond) (imm : BitVec 12)
  /-- ADDI (R401): ADDI adds a sign-extended 20-bit immediate and sets the flags. -/
  | addi (c : Core) (k : Cond) (res : Fin 3) (imm : BitVec 20)
  /-- ANDI (R401): ANDI ANDs a sign-extended immediate. -/
  | andi (c : Core) (k : Cond) (imm : BitVec 20)
  /-- ORI (R401): ORI ORs a zero-extended immediate. -/
  | ori (c : Core) (k : Cond) (imm : BitVec 20)
  /-- JMPI (R416): JMPI jumps to a popped address, trapping on an odd address. -/
  | jmpi (c : Core) (k : Cond)
  /-- CALLI (R416): CALLI pushes the return address and jumps to a popped address. -/
  | calli (c : Core) (k : Cond)
  /-- RET (R416): RET jumps to the address popped from the return stack. -/
  | ret (c : Core) (k : Cond)
  /-- BR (R415): BR branches by a long scaled offset. -/
  | br (c : Core) (k : Cond) (off : BitVec 20)
  /-- CALL (R415): CALL pushes its address + 4 and branches by a long offset. -/
  | call (c : Core) (k : Cond) (off : BitVec 20)
  /-- REP (R410): REP executes the following instruction n + 1 times without accepting interrupts. -/
  | rep (c : Core) (k : Cond) (n : Fin 16) (repeatable : Bool)
  /-- REPI (R410): REPI executes the following instruction up to 256 times, accepting interrupts between repetitions. -/
  | repi (c : Core) (k : Cond) (n : BitVec 8) (repeatable : Bool)
  /-- IFENCE (R440): IFENCE drains the store buffer, empties the loop buffer and invalidates the instruction cache. -/
  | ifence (c : Core) (k : Cond)
  /-- DFENCE (R419): DFENCE completes when every earlier store has been written and the buffer is empty. -/
  | dfence (c : Core) (k : Cond)
  /-- SCALL (R449): SCALL enters a system call through SENTRYn, saving SRA and SLEV. -/
  | scall (c : Core) (k : Cond) (n : Fin 4)
  /-- SRET (R450): SRET returns from a system call to SRA at level SLEV. -/
  | sret (c : Core) (k : Cond)
  /-- SWB (R455): SWB makes bank n current and continues at its BPC. -/
  | swb (c : Core) (k : Cond) (n : Fin 16)
  /-- IRET (R455): IRET makes bank PREV current and continues at its BPC. -/
  | iret (c : Core) (k : Cond)
  /-- WFI (R396): WFI waits for an interrupt. -/
  | wfi (c : Core) (k : Cond)
  /-- BRK (R460): BRK halts the core and places the device in HALT with DBG_EN, or raises the BREAK trap. -/
  | brk (c : Core) (k : Cond) (n : Fin 16)
  /-- BLD (R405): BLD sets P to a bit of the bit space. -/
  | bld (c : Core) (k : Cond) (b : BitRef)
  /-- BST (R405): BST writes bit b from x[0]. -/
  | bst (c : Core) (k : Cond) (b : BitRef)
  /-- BSET (R405): BSET writes 1 to bit b with the effect of a register write. -/
  | bset (c : Core) (k : Cond) (b : BitRef)
  /-- BCLR (R405): BCLR writes 0 to bit b. -/
  | bclr (c : Core) (k : Cond) (b : BitRef)
  /-- BTGL (R407): BTGL inverts bit b, as a read then write on a peripheral bit. -/
  | btgl (c : Core) (k : Cond) (b : BitRef)
  /-- BAND (R405): BAND sets P to P AND bit b. -/
  | band (c : Core) (k : Cond) (b : BitRef)
  /-- BOR (R405): BOR sets P to P OR bit b. -/
  | bor (c : Core) (k : Cond) (b : BitRef)
  /-- BSTP (R405): BSTP writes P to bit b. -/
  | bstp (c : Core) (k : Cond) (b : BitRef)
  /-- INTERRUPT_ENTRY (R451): With the Pendant line asserted and IEN set, the core enters its handler bank at the end of a unit. -/
  | interruptEntry (c : Core)
  /-- STORE_DRAIN (R432): A buffered store or bit write drains to its target in program order. -/
  | storeDrain (c : Core) (ue : Bool)
  /-- RECORD_APPEND (R472): A raised source's record is written to its owner's ring and becomes claimable. -/
  | recordAppend
  /-- COALESCE_TIME_EXPIRY (R482): The oldest claimable record reaches its timestamp plus 500 TIME ticks and the line asserts. -/
  | coalesceTimeExpiry (c : Core)
  /-- ARB_WINDOW_START (R503): On every tick that is a multiple of 128 every credit counter is refilled and back-offs end. -/
  | arbWindowStart
  /-- SCRUB_LATE (R500): A pass not ended INT seconds after it began sets SCRUB_LATE. -/
  | scrubLate
  /-- DMA_EVENT_TRIGGER (R517): An action of the channel's spine trigger input triggers an EVENT channel. -/
  | dmaEventTrigger (e : Fin 2) (c : Fin 16)
  /-- DMA_LINE_TRIGGER (R520): An asserted request line triggers a LINE channel for one burst. -/
  | dmaLineTrigger (e : Fin 2) (c : Fin 16)
  /-- DMA_SERVICE_START (R519): An idle engine starts the service of its lowest-numbered pending channel. -/
  | dmaServiceStart (e : Fin 2) (ue : Option (Fin 4))
  /-- DMA_BEAT (R516): A beat reads SIZE bytes at the source and writes them at the destination. -/
  | dmaBeat (e : Fin 2) (ueRead ueWrite : Bool)
  /-- DMA_DESCRIPTOR_END (R519): A descriptor's beats are done and it ends, following NEXT or setting DONE. -/
  | dmaDescriptorEnd (e : Fin 2) (ue : Option (Fin 4))
  /-- LEDGER_COMMIT_DONE (R538): The SOLO or JOURNAL slot has been written whole and the clasp is committed. -/
  | ledgerCommitDone (readBack : List Nat)
  /-- DEFERRED_CLASP_DUE (R546): A deferred clasp becomes due by MIN_INT and tokens and is committed. -/
  | deferredClaspDue (i : Nat)
  /-- HOLDUP_RETRY (R547): A deferred clasp held by HOLDUP_LOW is tried again every 10 ms. -/
  | holdupRetry
  /-- WEAR_TOKEN_GAIN (R548): The wear bucket gains RATE tokens per second up to 16,777,216. -/
  | wearTokenGain
  /-- LEDGER_WINDOW_READ (R532): A ledger window read waits for READY and returns the last committed version. -/
  | ledgerWindowRead (q : Req) (a : Nat) (ue : Bool)
  /-- PWR_DOMAIN (R631): PWR_DOMAIN powers a switched domain up or down, with TIMEOUT if power-good fails. -/
  | pwrDomain (powerGood : Bool)
  /-- LDG_READ (R572): LDG_READ returns VERSION and half of a record's committed version in one step. -/
  | ldgRead (ue : Bool)
  /-- VERIFY_COMPLETE (R587): Verification ends in VERIFIED or FAILED within 200 ms. -/
  | verifyComplete
  /-- APPLY_COMPLETE (R589): The written slot is read back and verified, ending in APPLIED or FAILED. -/
  | applyComplete (readBackOk : Bool)
  /-- TRIAL_EXPIRY (R589): A trial timer expiry sets FELL_BACK so the active slot runs from the next start. -/
  | trialExpiry (i : Fin 8)
  /-- EXTERNAL_MESSAGE (R580): An external message is authenticated by SID, CTR and TAG and taken as a request. -/
  | externalMessage (m : ExtMsg)
  /-- SESSION_IDLE_EXPIRY (R581): A session ends after 60 s without an accepted request. -/
  | sessionIdleExpiry (i : Fin 8)
  /-- WATCHDOG_EXPIRY (R644): 100 ms after the last kick every island enters SAFE, routes move to ALT_OWNER and 0x0039 is raised. -/
  | watchdogExpiry
  /-- DIAG_COUNT_COMMIT (R651): Chozer commits transient diagnostic counts at most every 600 s. -/
  | diagCountCommit
  /-- GOVERNOR_STEP_DOWN (R80): After QUIET ms without misses and with enough slack, TARGET is lowered by STEP down to FLOOR. -/
  | governorStepDown
  /-- GATE_CHANGE (R594): Train time reaches a gate control instant and the gates change. -/
  | gateChange (p : Fin 4)
  /-- ADDRESS_AGE_OUT (R598): A learned address ages out after CHN_SW_AGE seconds. -/
  | addressAgeOut (i : Nat)
  /-- SYNC_TIMEOUT (R597): No Sync for 3 s returns the servo to OFF. -/
  | syncTimeout
  /-- HELLO_SEND (R603): Every 100 ms Chozer sends a hello on each port with DISC_EN. -/
  | helloSend (p : Fin 4)
  /-- HELLO_RECEIVED (R605): A received hello updates the partner table and may detect a loop. -/
  | helloReceived (p : Fin 4) (ident : BitVec 64) (hop : Fin 256)
  /-- PARTNER_AGE_CHECK (R605): Every 10 ms each entry older than 330 ms is freed. -/
  | partnerAgeCheck
  /-- CAN_SEGMENT_TIMEOUT (R609): A management message whose next segment does not arrive within 50 ms is discarded. -/
  | canSegmentTimeout (c : Fin 6)
  /-- ZERO_SPEED_TIMEOUT (R295): When ZTO is set and ZTO times 65,536 ticks pass since the newest selected edge, the interface empties the window, sets ZERO and raises its ZERO source. -/
  | zeroSpeedTimeout (n : Isl) (k : Fin 2)
  /-- PEER_DELAY_INTERVAL (R597): Every 1 s Chozer performs an IEEE 802.1AS peer delay exchange on each port with TSYNC_EN. -/
  | peerDelayInterval (p : Fin 4)
  /-- ILLEGAL_INSTRUCTION (R394): A Reckoner instruction with a reserved major opcode, undefined n field, set unused operand bit or long condition 15 raises the illegal-instruction trap. -/
  | illegalInstruction (c : Core)
  /-- ROD_UNLISTED_OPCODE (R231): A rod fetching an opcode not listed in the opcode table, or fetching outside its law window, stops with PROG_ERR and its frame misses. -/
  | rodUnlistedOpcode (r : Rod) (x : RodX)
  /-- BEAD_UNDEFINED_OPCODE (R313): A Bead engine executing OP 0xB to 0xF stops on that strobe with PROG_ERR and ERR_PC set. -/
  | beadUndefinedOpcode (n : Isl) (e : Fin 8) (pins : Fin 16)
  /-- RESET_RELEASE (R626): Power-on reset is released 1 ms after the last supply, PORST_N and REFCLK hold condition ends, and the device enters START. -/
  | resetRelease (b : BootInfo)
  /-- PORST_LOW (R626): A low level on PORST_N during operation is a power-on reset, and the last gasp does not run. -/
  | porstLow
  /-- PLL_LOCK (R86): The PLL first locks after power-on reset and Beam A and Beam B start counting from 0. -/
  | pllLock
  /-- SUPPLY_WARNING (R625): A supply leaves its warning limits, which sets its PWR_SUP_STATUS bit and raises source 0x0001. -/
  | supplyWarning (i : Fin 12)
  /-- SUPPLY_FAULT (R625): A supply leaves its fault limits, which sets its bit, raises source 0x0002 and puts the device in SAFE where R619 allows. -/
  | supplyFault (i : Fin 12)
  /-- SUPPLY_FAULT_CLEAR (R625): A fault bit clears once its supply has been back within its warning limits for 10 ms. -/
  | supplyFaultClear (i : Fin 12)
  /-- SUPPLY_LOSS_SIGNAL (R627): A fall of PFAIL_N lasting at least 1 us puts the device in SAFE, powers down domains and leads to the last gasp and a power-on reset. -/
  | supplyLossSignal
  /-- WAKE_PIN (R636): A fall of WAKE_N lasting at least 1 us with PIN_EN set wakes the device from DORMANT into START from step 2. -/
  | wakePin (b : BootInfo)
  /-- BEAM_MISMATCH (R89): Beam A and Beam B disagree on a tick, tick units switch to Beam B, and the ring check decides on Beam B within 4 ticks. -/
  | beamMismatch (byOne stalledB : Bool)
  /-- RING_WINDOW_END (R88): A ring-reference window ends and each Beam copy is judged plausible or not from its tick count. -/
  | ringWindowEnd (ticksA ticksB : Fin 1024)
  /-- BEAM_STALL (R91): No tick of the copy in use arrives within 100 ns of its previous tick, so both copies become unusable. -/
  | beamStall (copyB : Bool)
  /-- PLL_LOCK_LOST (R91): Loss of PLL lock or of REFCLK makes both Beam copies unusable within 200 ns. -/
  | pllLockLost
  /-- BEAM_COUNT_READ (R95): A read of BEAM_COUNT_LO returns count bits [31:0] and latches bits [63:32] for the requester. -/
  | beamCountRead (q : Req)
  /-- BEAM_SWITCH_READ (R96): A read of BEAM_SWITCH_LO returns the mismatch tick [31:0] and loads the requester's count latch. -/
  | beamSwitchRead (q : Req)
  /-- TRAIN_TIME_READ (R99): A read of BEAM_TT_LO returns train time [31:0] and latches bits [63:32] for the requester. -/
  | trainTimeRead (q : Req)
  /-- TT_OFFSET_LO_WRITE (R100): A write to BEAM_TT_OFS_LO by core 8 is held until the HI write. -/
  | ttOffsetLoWrite (q : Req) (v : Word)
  /-- TT_OFFSET_HI_WRITE (R100): A write to BEAM_TT_OFS_HI by core 8 applies both offset halves on its recorded tick. -/
  | ttOffsetHiWrite (q : Req) (v : Word)
  /-- TIMER_START (R105): A write of TLY_CTL.RUN = 1 starts the timer with prescaler phase 0. -/
  | timerStart (q : Req) (n : Isl) (t : Fin 16)
  /-- TIMER_STOP (R106): A write of TLY_CTL.RUN = 0 stops the timer on that tick with no advance. -/
  | timerStop (q : Req) (n : Isl) (t : Fin 16)
  /-- TIMER_MATCH (R108): The count becomes equal to a compare value, setting its flag and sending its event. -/
  | timerMatch (n : Isl) (t : Fin 16) (k : Fin 4)
  /-- RELOAD_IMMEDIATE (R120): A TLY_RELOAD write with RELOAD_IMM = 1 discards the shadow and applies on its recorded tick. -/
  | reloadImmediate (q : Req) (n : Isl) (t : Fin 16) (v : Word)
  /-- LINKED_PAIR_READ (R117): A read of the even timer's TLY_COUNT of a linked pair copies the odd count into the requester's pair latch. -/
  | linkedPairRead (q : Req) (n : Isl) (j : Fin 8)
  /-- TLY_GO_START (R121): A TLY_GO_CMD write with CMD START captures the select words and schedules a start of the selected timers. -/
  | tlyGoStart (q : Req) (atTick : Bool)
  /-- TLY_GO_STOP (R121): A TLY_GO_CMD write with CMD STOP captures the select words and schedules a stop of the selected timers. -/
  | tlyGoStop (q : Req) (atTick : Bool)
  /-- TLY_GO_RESET_START (R121): A TLY_GO_CMD write with CMD RESET_START captures the select words and schedules a reset and start of the selected timers. -/
  | tlyGoResetStart (q : Req) (atTick : Bool)
  /-- PAIR_START (R131): A write of PWM_CTL.RUN = 1 starts the pair, making its tick the first boundary in MASTER mode. -/
  | pairStart (q : Req) (n : Isl) (p : Fin 16)
  /-- PAIR_STOP (R675): A write of PWM_CTL.RUN = 0 stops the pair and its outputs go inactive through the pin stage. -/
  | pairStop (q : Req) (n : Isl) (p : Fin 16)
  /-- REFERENCE_EDGE (R136): An edge compare is reached and the reference becomes active or inactive, starting turn-offs and dead-time intervals. -/
  | referenceEdge (n : Isl) (p : Fin 16) (e : Fin 4)
  /-- DEAD_TIME_END (R137): A dead-time interval ends and the delayed output turns on if its reference is still in the right state. -/
  | deadTimeEnd (n : Isl) (p : Fin 16) (outB : Bool)
  /-- PWM_TRIGGER (R142): The pair counter reaches a PWM_TRGn value and fires that trigger event. -/
  | pwmTrigger (n : Isl) (p : Fin 16) (k : Fin 4)
  /-- PWM_GROUP_WRITE (R147): A write to the period or duty group is held, released or paired under the split-update rules. -/
  | pwmGroupWrite (q : Req) (n : Isl) (p : Fin 16) (reg : Fin 6) (v : Word)
  /-- TRIP_LINE_ACTIVE (R152): An unblanked trip line in a pair's mask becomes active and the pair's outputs go to high impedance within 20 ns. -/
  | tripLineActive (n : Isl) (l : Fin 24)
  /-- TRIP_LINE_INACTIVE (R151): A high level passes the trip pin filter and the line's ACTIVE clears. -/
  | tripLineInactive (n : Isl) (l : Fin 24)
  /-- TRIP_CLEAR (R160): A write of 1 to a PWM_TRIP_CLR bit clears the trip, sets RESUME_PEND or drives outputs inactive, depending on state. -/
  | tripClear (q : Req) (n : Isl) (mask : BitVec 16)
  /-- TRIP_TS_READ (R97): A read of PWM_TRIP_TS_LO returns bits [31:0] and latches bits [63:32] for the requester. -/
  | tripTsRead (q : Req) (n : Isl) (p : Fin 16)
  /-- ACH_MODE_DIRECT_WRITE (R171): A direct write to ACH_MODE outside a clasp is ignored, sets MODE_DIRECT and raises its source. -/
  | achModeDirectWrite (q : Req) (n : Isl) (c : Fin 16) (v : Word)
  /-- SETTLING_END (R172): On tick C + 1,000 the settling interval ends and a COMP channel's output takes the state the pin calls for. -/
  | settlingEnd (n : Isl) (c : Fin 16) (beyond : Bool)
  /-- SOFTWARE_TRIGGER (R174): A write of 1 to an ACH_SWTRIG bit starts that group on the tick after the write is recorded. -/
  | softwareTrigger (q : Req) (n : Isl) (mask : BitVec 8)
  /-- CONVERSION_RESULT (R178): A conversion result is recorded in the sample bank and the channel's DONE event fires. -/
  | conversionResult (n : Isl) (c : Fin 16) (raw : Fin 65536)
  /-- PLAUS_RETRY (R189): After a failed check both channels acquire again, and the retried results land with PLAUS_RETRY or PLAUS_FAIL. -/
  | plausRetry (n : Isl) (m : Fin 8) (rawEven rawOdd : Fin 65536)
  /-- BANK_ENTRY_READ (R183): A read of word +0x0 of a sample bank entry copies the entry's other words into the requester's bank latch. -/
  | bankEntryRead (q : Req) (n : Isl) (e : Fin 28) (frameView : Bool)
  /-- CAL_STEP (R196): At a period end of CAL_TMR plus CAL_OFS a calibration step converts VREF_LO or VREF_HI. -/
  | calStep (n : Isl) (c : Fin 16) (raw : Fin 65536)
  /-- COMPARATOR_CROSSING (R193): The pin crosses the threshold beyond half the hysteresis and the comparator output changes, driving its trip line. -/
  | comparatorCrossing (n : Isl) (c : Fin 16) (asserted : Bool)
  /-- OVER_CURRENT_CONFIRMED (R204): The sinc1 sum is beyond a limit at CONFIRM + 1 consecutive captures, setting OC_EVT and firing OC. -/
  | overCurrentConfirmed (n : Isl) (j : Fin 8)
  /-- STUCK_DETECTED (R205): An input captures 256 equal bits in a row and sets STUCK and STUCK_EVT. -/
  | stuckDetected (n : Isl) (j : Fin 8)
  /-- STUCK_CLEAR (R205): STUCK clears on the next change of bit and the following results settle. -/
  | stuckClear (n : Isl) (j : Fin 8)
  /-- GRP_ASSIGN_WRITE (R212): A write to ABX_GRP_ASSIGN reassigns a rod group, clearing its rods' state and pending presets, unless locked. -/
  | grpAssignWrite (q : Req) (g : Fin 16) (v : Word)
  /-- ROD_PRESET_WRITE (R242): A write to ABX_ROD_PRESET sets a pending preset of Sk for the next boundary. -/
  | rodPresetWrite (q : Req) (r : Rod) (k : Fin 32) (v : Word)
  /-- OUTMAP_WRITE (R237): A write to ABX_OUTMAP names a slot's target, and is refused with OUTMAP_BAD if not permitted or duplicated. -/
  | outmapWrite (q : Req) (n : Isl) (k : Fin 64) (v : Word)
  /-- TRACE_ARM (R280): Writing ARM = 1 while ARMED is clear resets WPTR, clears TRIGGERED and WRAPPED and arms the trace. -/
  | traceArm (q : Req) (n : Isl)
  /-- TRACE_DISARM (R280): Writing ARM = 0 disarms the trace without setting DONE. -/
  | traceDisarm (q : Req) (n : Isl)
  /-- TRACE_FORCE (R277): A write of FORCE makes a trace trigger pending until the next recorded boundary. -/
  | traceForce (q : Req) (n : Isl)
  /-- ACCEPTED_EDGE (R286): A feedback input level is accepted by the filter and the edge counts, enters the speed window and may index. -/
  | acceptedEdge (n : Isl) (k : Fin 2) (levels : BitVec 6)
  /-- FBK_POS_READ (R290): A read of FBK_POS copies FBK_TURNS into the requester's turn latch. -/
  | fbkPosRead (q : Req) (n : Isl) (k : Fin 2)
  /-- IDX_ARM (R292): A write of ARM = 1 arms RESET_ONCE and clears REF. -/
  | idxArm (q : Req) (n : Isl) (k : Fin 2)
  /-- BEAD_RUN_START (R323): A write of BEAD_CTL.RUN = 1 places strobe 0 four ticks later and starts execution at PC. -/
  | beadRunStart (q : Req) (n : Isl) (e : Fin 8)
  /-- BEAD_STOP_REQUEST (R324): A write of BEAD_CTL.RUN = 0 requests a stop at the next strobe outside a CK bit. -/
  | beadStopRequest (q : Req) (n : Isl) (e : Fin 8)
  /-- RESTART (R326): A RESTART write to a stopped engine clears PC, BITCNT, X and SR, reloads the CRC and sets the pins to their INIT levels. -/
  | restart (q : Req) (n : Isl) (e : Fin 8)
  /-- TXFLUSH (R320): A TXFLUSH write empties the TX queue. -/
  | txflush (q : Req) (n : Isl) (e : Fin 8)
  /-- RXFLUSH (R320): An RXFLUSH write empties the RX queue. -/
  | rxflush (q : Req) (n : Isl) (e : Fin 8)
  /-- TXQ_WRITE (R320): A write to BEAD_TXQ appends a word, or discards it and sets TX_OVF if full. -/
  | txqWrite (q : Req) (n : Isl) (e : Fin 8) (v : Word)
  /-- RXQ_READ (R320): A read of BEAD_RXQ removes the head and loads its capture tick, or returns 0 and sets RX_UNF. -/
  | rxqRead (q : Req) (n : Isl) (e : Fin 8)
  /-- FLG_FIRE (R49): A write to FLG_FIRE fires the named channel with the recorded tick as origin. -/
  | flgFire (q : Req) (ch : Fin 1024)
  /-- ROUTE_DIRECT_WRITE (R353): A direct write to a routing field outside a clasp is ignored and sets ROUTE_DIRECT. -/
  | routeDirectWrite (q : Req) (a : Nat) (v : Word)
  /-- ROOT_FAULT (R359): An invalid code or unacknowledged transfer in the root sets ROOT_FAULT, raises 0x0020 and puts every island in SAFE. -/
  | rootFault
  /-- HALT_REQ (R461): A write of DBG_CTL.HALT_REQ halts the core for the debug port. -/
  | haltReq (c : Core)
  /-- RESUME (R461): A write of DBG_CTL.RESUME lets a halted core execute again. -/
  | resume (c : Core)
  /-- STEP (R461): A write of DBG_CTL.STEP executes one unit and halts again. -/
  | step (c : Core)
  /-- DCINV (R423): A write of 1 to CORE_CTL.DCINV invalidates the whole data cache within 2 us. -/
  | dcinv (c : Core)
  /-- ICINV (R423): A write of 1 to CORE_CTL.ICINV invalidates the whole instruction cache. -/
  | icinv (c : Core)
  /-- PND_DOORBELL (R468): A write to PND_DOORBELL raises a software source with its payload. -/
  | pndDoorbell (q : Req) (payload src : BitVec 16)
  /-- PND_CLAIM (R477): A read of PND_CLAIM claims the oldest highest-priority claimable record and pushes its PRIO. -/
  | pndClaim (c : Core) (damaged : Bool)
  /-- PND_EOI (R480): A write to PND_EOI pops the running-priority stack, or sets EOI_EMPTY. -/
  | pndEoi (c : Core)
  /-- RING_ENABLE (R475): Writing EN = 1 resets HEAD, TAIL and FILL and starts LAP at 1. -/
  | ringEnable (q : Req) (c : Core)
  /-- RING_DISABLE (R475): Writing EN = 0 discards every unclaimed record and counts later raises as drops. -/
  | ringDisable (q : Req) (c : Core)
  /-- ARRAY_ACCESS (R487): An arbiter grant gives a requester a slot of an array bank or target, with ECC checking. -/
  | arrayAccess (waiting : List (Fin 16)) (a : ArrayAcc)
  /-- ARB_CREDIT_WRITE (R507): A write to ARB_CREDIT takes effect at the next window, or is refused with BAD_SUM if the sum would exceed 64. -/
  | arbCreditWrite (q : Req) (r : Fin 16) (v : BitVec 8)
  /-- SCRUB_READ (R499): The scrubber reads the next word of arrays 0-14 and classifies any error. -/
  | scrubRead (first second : Ecc)
  /-- DMA_ARM (R518): A write of ARM = 1 loads DMA_CH_CUR from DMA_CH_DESC, unless ERR is set. -/
  | dmaArm (q : Req) (e : Fin 2) (c : Fin 16)
  /-- DMA_DISARM (R524): A write of ARM = 0 ends the service after its beat in progress and sets STOPPED. -/
  | dmaDisarm (q : Req) (e : Fin 2) (c : Fin 16)
  /-- DMA_GO (R517): A write of GO triggers the channel, making it pending or setting TRG_OVR. -/
  | dmaGo (q : Req) (e : Fin 2) (c : Fin 16)
  /-- DMA_ERR_CLEAR (R525): A write of 1 to ERR clears ERR and zeroes DMA_ERR_ADDR and DMA_ERR_DIR. -/
  | dmaErrClear (q : Req) (e : Fin 2) (c : Fin 16)
  /-- RECORD_REFRESH (R551): A live record whose AGE reaches REFRESH_DAYS is rewritten as a REFRESH slot. -/
  | recordRefresh (r : Fin 262144)
  /-- CAPACITANCE_TEST_START (R541): At START, every TEST_DAYS or on GO, once no commit is active, the engine drives HUP_TEST high and records V1. -/
  | capacitanceTestStart (v : BitVec 16)
  /-- CAPACITANCE_TEST_END (R541): When V falls by TEST_DV or TMAX passes, HUP_TEST goes low and C is computed and judged. -/
  | capacitanceTestEnd (v : BitVec 16) (dt : Nat) (timeout : Bool)
  /-- CAPACITANCE_TEST_REPEAT (R541): A failed test is repeated once 10 s later, updating C_EST or setting HUP_FAIL. -/
  | capacitanceTestRepeat (v : BitVec 16)
  /-- HUP_TEST_GO (R541): A write of SGN_HUP_TEST.GO requests a capacitance test. -/
  | hupTestGo (q : Req)
  /-- MAILBOX_POST (R558): The owner's write of the request header posts it, setting BUSY and clearing DONE. -/
  | mailboxPost (q : Req) (m : Fin 16) (hdr : Word)
  /-- SYS_CAPS (R637): SYS_CAPS returns the capability words. -/
  | sysCaps
  /-- SYS_INFO (R565): SYS_INFO returns versions, device identity and image slot states. -/
  | sysInfo
  /-- SYS_MODE (R620): SYS_MODE changes the device mode or the islands in SAFE where R619 and R621 allow. -/
  | sysMode
  /-- SYS_GRANT (R36): SYS_GRANT sets bits [10:0] of an island's write grant in SETUP. -/
  | sysGrant
  /-- SYS_MBX (R556): SYS_MBX changes a mailbox's owner and its reply source routing in SETUP. -/
  | sysMbx
  /-- SYS_CORE_RESET (R629): SYS_CORE_RESET resets a core's power domain without powering it down. -/
  | sysCoreReset
  /-- PWR_STATUS (R564): PWR_STATUS returns mode, SAFE and RUN masks, supply, governor and domain status. -/
  | pwrStatus
  /-- PWR_GOV (R75): PWR_GOV writes governor control and limits, refusing limits with FLOOR above CEIL. -/
  | pwrGov
  /-- PWR_DORMANT (R567): PWR_DORMANT replies and then leads the device into DORMANT. -/
  | pwrDormant
  /-- LDG_OPEN (R385): LDG_OPEN opens a ledger clasp, or returns BUSY if a clasp is held. -/
  | ldgOpen
  /-- LDG_TYPE (R570): LDG_TYPE gives a record its type and parameters, in the held clasp or as a one-write commit. -/
  | ldgType
  /-- LDG_WRITE (R568): LDG_WRITE carries a SET, ADD, BLOB or LOG record write into the held clasp or commits it at once. -/
  | ldgWrite
  /-- LDG_COMMIT (R571): LDG_COMMIT submits the held clasp to the ledger cache and engine. -/
  | ldgCommit
  /-- LDG_ABORT (R385): LDG_ABORT discards the held ledger clasp. -/
  | ldgAbort
  /-- LDG_LG (R543): LDG_LG adds, removes or clears members of the last-gasp set in SETUP. -/
  | ldgLg
  /-- LDG_LGUPD (R572): LDG_LGUPD changes a member's value in the last-gasp buffer only. -/
  | ldgLgupd
  /-- LDG_STAT (R564): LDG_STAT returns the ledger status registers. -/
  | ldgStat
  /-- SES_CHALLENGE (R578): SES_CHALLENGE allocates a session SID and returns a device nonce, unless locked out or full. -/
  | sesChallenge
  /-- SES_KEY (R579): SES_KEY checks the key proof and opens the session with the slot's ROLE. -/
  | sesKey
  /-- SES_PASS (R579): SES_PASS checks the password-derived proof and opens the session. -/
  | sesPass
  /-- SES_END (R581): SES_END ends the session and aborts its ledger clasp. -/
  | sesEnd
  /-- SES_PROVISION (R573): SES_PROVISION stores a key, password or update key in Chozer's records and clears the failure count. -/
  | sesProvision
  /-- CHN_PARTNERS (R574): CHN_PARTNERS returns three entries of the partner table. -/
  | chnPartners
  /-- CHN_CFG (R602): CHN_CFG sets discovery, direction and time sync of a port and keeps the setting. -/
  | chnCfg
  /-- CHN_SWITCH (R606): CHN_SWITCH enables the inline switch and FWD_SAFE and clears BLOCK1. -/
  | chnSwitch
  /-- CHN_TIME (R597): CHN_TIME returns the train-time offset and servo state. -/
  | chnTime
  /-- UPD_BEGIN (R588): UPD_BEGIN starts staging an image of given length, discarding earlier staging. -/
  | updBegin
  /-- UPD_DATA (R586): UPD_DATA stages image bytes at an offset. -/
  | updData
  /-- UPD_SIGN (R585): UPD_SIGN stages the r or s part of the signature. -/
  | updSign
  /-- UPD_VERIFY (R586): UPD_VERIFY waits for staging commits and starts VERIFYING. -/
  | updVerify
  /-- UPD_APPLY (R589): UPD_APPLY starts writing the verified image into the inactive slot. -/
  | updApply
  /-- UPD_CONFIRM (R589): UPD_CONFIRM makes the trial slot active and may raise FLOOR. -/
  | updConfirm
  /-- UPD_STATUS (R588): UPD_STATUS returns an image's update state and versions. -/
  | updStatus
  /-- UPD_ABORT (R588): UPD_ABORT abandons staging unless VERIFYING or APPLYING. -/
  | updAbort
  /-- DIAG_UNIT (R650): DIAG_UNIT returns the transient and lasting counts of a unit. -/
  | diagUnit
  /-- DIAG_RDREG (R564): DIAG_RDREG returns words of the ECC_, ARB_, SGN_ or PWR_ block. -/
  | diagRdreg
  /-- DIAG_WRREG (R575): DIAG_WRREG writes masked bits of an ECC_, ARB_ or SGN_ register as one read-modify-write. -/
  | diagWrreg
  /-- DIAG_DEBUG (R576): DIAG_DEBUG opens or closes debug-port access, DBG_EN and grant bit 11. -/
  | diagDebug
  /-- WATCHDOG_KICK (R643): A write to PWR_WDOG_KICK restarts the watchdog and clears EXPIRED. -/
  | watchdogKick (q : Req)
  /-- VOUT_SETTLE_EXPIRY (R79): 100 us after VOUT_COMMAND the governor reads READ_VOUT and judges the step. -/
  | voutSettleExpiry (acked pecOk : Bool) (reading : Nat)
  /-- TX_KICK (R592): A write to CHN_TXR_KICK starts the port's scan of a transmit ring. -/
  | txKick (q : Req) (p : Fin 4) (r : Fin 8)
  /-- FRAME_TRANSMITTED (R592): A frame is sent, its timestamp written and OWN cleared. -/
  | frameTransmitted (p : Fin 4) (r : Fin 8)
  /-- FRAME_RECEIVED (R592): An accepted frame is written into the receive ring with length and timestamp and RX fires. -/
  | frameReceived (p : Fin 4) (f : NetFrame)
  /-- GCL_APPLY (R595): A write of 1 to APPLY sets PENDING for the next list swap. -/
  | gclApply (q : Req) (p : Fin 4)
  /-- LINK_CHANGE (R616): A port's link state changes and LINK updates. -/
  | linkChange (p : Fin 4) (up : Bool)
  /-- SYNC_RECEIVED (R597): A Sync from the grandmaster updates BEAM_TT_OFS and the servo state. -/
  | syncReceived (p : Fin 4) (gm : BitVec 64) (offset : BitVec 64)
  /-- CAN_TXREQ (R612): A write to CAN_TXREQ makes transmit buffers pending for arbitration. -/
  | canTxreq (q : Req) (c : Fin 6) (mask : BitVec 16)
  /-- CAN_TXABORT (R612): A write to CAN_TXABORT withdraws a buffer not yet on the bus. -/
  | canTxabort (q : Req) (c : Fin 6) (mask : BitVec 16)
  /-- CAN_RXPOP (R612): A write to CAN_RXPOP removes the FIFO head. -/
  | canRxpop (q : Req) (c : Fin 6)
  /-- CAN_FRAME_RECEIVED (R612): A received frame passing the filters enters the FIFO with its SOF timestamp, or sets RX_OVF. -/
  | canFrameReceived (c : Fin 6) (f : CanFrame)
  /-- CAN_FRAME_TRANSMITTED (R612): A transmit buffer's frame completes on the bus and TX done fires. -/
  | canFrameTransmitted (c : Fin 6) (b : Fin 16)
  /-- CAN_BUS_ERROR (R613): Lost arbitration or a bus error updates error counters and retransmits unless ONE_SHOT. -/
  | canBusError (c : Fin 6) (lostArb : Bool) (tx : Bool) (b : Fin 16) (tec rxc : Fin 512)
  /-- BUS_OFF_RECOVERY (R613): A bus-off controller recovers after 128 occurrences of 11 recessive bits with AUTO_RECOV. -/
  | busOffRecovery (c : Fin 6)
  /-- CAN_INIT_WRITE (R613): Setting and clearing INIT takes the controller off and back onto the bus. -/
  | canInitWrite (q : Req) (c : Fin 6) (v : Bool)
  /-- REGISTER_WRITE (R13): A write to a register without a row of its own acts field by field under its access codes. -/
  | registerWrite (q : Req) (a : Nat) (size : Fin 9) (v : Word)
  /-- SIGMA_DELTA_CAPTURE (R201): An enabled sigma-delta input captures one bit SKEW ticks after each rising edge of its modulator clock, feeding the sinc3 window, the sinc1 sum and the stuck count. -/
  | sigmaDeltaCapture (n : Isl) (j : Fin 8) (bit : Bool)
  /-- FEEDBACK_INPUT_CHANGE (R284): A change of level on a feedback input pin is recorded through the synchroniser and its tick kept as the input's last change. -/
  | feedbackInputChange (n : Isl) (k : Fin 2) (pin : Fin 6) (level : Bool)
  /-- HUP_SENSE_SAMPLE (R540): HUP_SENSE is sampled every 10 us, E is recomputed, and HUP_LOW and LG_OK set or clear, with source 0x0003 when HUP_LOW sets. -/
  | hupSenseSample (v : BitVec 16)
  /-- CAN_SYNCED (R610): A CAN FD controller out of INIT integrates onto the bus after the recessive sequence of ISO 11898-1 and sets SYNCED. -/
  | canSynced (c : Fin 6)
  deriving DecidableEq, Repr

end Sys2Proof
end

