-- ==== Sys2Proof/Decode.lean ====
section
/-! DEFINITION. The command that a word spells by the opcode table's bits. No row of spec/opcode_table.json gives any
bits: commands reach the block as events and register accesses, so no word spells one (log entry 7). -/

namespace Sys2Proof

/-- The command spelled by `nbits` bits with value `w`: none, for no row of the table has bits. -/
def decodeTableWord (_nbits _w : Nat) : Option Instr := none

end Sys2Proof
end

