-- ==== Sys2Proof/Machine/Bits.lean ====
section
/-! DEFINITION. Bit fields, sign extension, saturation and rounding: the helpers every block shares. -/

namespace Sys2Proof.Machine
open Sys2Proof

/-- The value of field `f` of a register word. -/
def fget (f : Fld) (x : Word) : Nat := x.toNat / 2 ^ f.lo % 2 ^ f.w

/-- Register word `x` with field `f` set to `v` (its low bits), every other bit kept. -/
def fput (f : Fld) (x : Word) (v : Nat) : Word :=
  BitVec.ofNat 32
    (x.toNat % 2 ^ f.lo + v % 2 ^ f.w * 2 ^ f.lo + x.toNat / 2 ^ (f.lo + f.w) * 2 ^ (f.lo + f.w))

/-- Bit `i` of a natural number. -/
def nbit (x i : Nat) : Bool := x / 2 ^ i % 2 == 1

/-- 1 for true, 0 for false. -/
def b2n (b : Bool) : Nat := if b then 1 else 0

/-- Bits `[lo + w - 1 : lo]` of a natural number. -/
def nfield (x lo w : Nat) : Nat := x / 2 ^ lo % 2 ^ w

/-- The number `x` with bit `i` set to `b`. -/
def nbitSet (x i : Nat) (b : Bool) : Nat :=
  x - (x / 2 ^ i % 2) * 2 ^ i + b2n b * 2 ^ i

/-- Two's complement reading of the low `w` bits (spec/00_scope.md R6). -/
def sext (w x : Nat) : Int :=
  let y := x % 2 ^ w
  if y < 2 ^ (w - 1) then (y : Int) else (y : Int) - (2 ^ w : Nat)

/-- The signed value of a word. -/
def sval (x : Word) : Int := sext 32 x.toNat

/-- The word holding an integer modulo 2^32. -/
def wordOfInt (x : Int) : Word := BitVec.ofNat 32 (x % 4294967296).toNat

/-- The word holding a natural number modulo 2^32. -/
def wordOf (x : Nat) : Word := BitVec.ofNat 32 x

/-- An integer limited to the range of a signed number of `w` bits. -/
def satInt (w : Nat) (x : Int) : Int :=
  let hi : Int := (2 ^ (w - 1) : Nat) - 1
  let lo : Int := -((2 ^ (w - 1) : Nat) : Int)
  if x > hi then hi else if x < lo then lo else x

/-- An integer limited to `[lo, hi]`. -/
def clampInt (lo hi x : Int) : Int := if x < lo then lo else if x > hi then hi else x

/-- Integer square root by Newton's bit-by-bit method: the largest `r` with `r * r ≤ x`,
searched over `k` result bits. -/
def isqrtBits : Nat → Nat → Nat → Nat
  | 0, _, r => r
  | k + 1, x, r =>
    let r' := r + 2 ^ k
    isqrtBits k x (if r' * r' ≤ x then r' else r)

/-- Floor of the square root of a number below 2^64. -/
def isqrt (x : Nat) : Nat := isqrtBits 32 x 0

end Sys2Proof.Machine
end

