-- ==== Sys2Proof/Config.lean ====
section
/-! DEFINITION. Free values and what firmware or the fab fixes: constants without a body, so that no proof can see a
value. Each is named in notes/assumptions. -/

namespace Sys2Proof

/-- A value the spec leaves open, numbered by the counter `Dev.free` (log entry 5). -/
opaque Config.freeValue : Nat → Nat

/-- A byte of the xSPI flash at an offset of the read window; nothing in the block but Chozer's updates writes the flash
(spec/01_architecture.md R41; log entry 8). -/
opaque Config.flashByte : Nat → Byte

/-- The size in bytes that Chozer configured for xSPI port 0 and 1 (spec/01_architecture.md R41; log entry 8). -/
opaque Config.flashSize : Nat → Nat

/-- The value firmware loads into a register whose reset is `FW` and whose value the spec does not give, by the register's
address (spec/00_scope.md R9; log entry 3). -/
opaque Config.fwValue : Nat → Nat

/-- HMAC-SHA-256 of a key and a message, as bytes (FIPS 198-1 lies outside the spec; spec/18_chozer_mailboxes.md R579;
log entry 9). -/
opaque Config.hmacSha256 : List Byte → List Byte → Vector Byte 32

/-- The 32 bytes of HMAC-SHA-256 of a key and a message. -/
def Config.hmac (key msg : List Byte) : List Byte := (Config.hmacSha256 key msg).toList

/-- ECDSA P-256 verification of a digest of bytes by a key and a signature (spec/18_chozer_mailboxes.md R585, R587; log
entry 9). -/
opaque Config.ecdsaOk : List Byte → List Byte → List Byte → Bool

/-- The vendor key in the boot ROM (spec/18_chozer_mailboxes.md R587; log entry 9). -/
opaque Config.vendorKey : List Byte

/-- The device identity of SYS_INFO (spec/18_chozer_mailboxes.md SYS_INFO w3-w4; log entry 3). -/
opaque Config.identity : Nat

/-- Chozer's version, SYS_INFO w1 (spec/18_chozer_mailboxes.md; log entry 3). -/
opaque Config.chozerVersion : Word

/-- Silicon stepping and boot ROM version, CAP_STEP (spec/20_modes_power_boot.md R637; log entry 3). -/
opaque Config.capStep : Word

/-- VCORE in mV that the board supplies before the governor's first command (spec/02_timing_model.md R76; log entry 3). -/
opaque Config.vcoreStart : Nat

/-- What START finds when an event on WAKE starts it, numbered by the counter `Dev.free` (spec/20_modes_power_boot.md R636;
log entry 14). -/
opaque Config.wakeBoot : Nat → BootInfo

/-- The error of SINCOS in units of the result: sine for `false`, cosine for `true` (limited to 2 in size,
spec/06_abacus_rods.md R230; log entry 10). -/
opaque Config.sinCosErr : Bool → Word → Int

/-- The error of ATAN2 in units of the result (limited to 4,096 in size, spec/06_abacus_rods.md R230; log entry 10). -/
opaque Config.atan2Err : Word → Word → Int

/-- Bytes of Chozer's boot ROM, by offset of core 8's alias (spec/01_architecture.md R26; log entry 8). -/
opaque Config.bootRom : Nat → Byte

end Sys2Proof
end

