-- ==== Sys2Proof/Machine/RegMap.lean ====
section
/-! DEFINITION. The register map: the address of every register, its fields with their access codes (spec/00_scope.md
R13) and its reset value, one definition per register, spelled as the manual spells it. -/

namespace Sys2Proof.Machine
open Sys2Proof

/-- The access codes of spec/00_scope.md R13. -/
inductive Acc where
  | RW | RO | WO | W1C | RWS | RWL
  deriving DecidableEq, Repr

/-- A field with its access code. -/
structure FieldDesc where
  fld : Fld
  acc : Acc
  deriving DecidableEq, Repr

/-- A kind of register: the address of its first instance, the number and distance of its instances by index, its
reset value and its fields. -/
structure RegDesc where
  base   : Nat
  dims   : List (Nat × Nat)
  reset  : Nat
  fields : List FieldDesc
  deriving DecidableEq, Repr

/-- Address of PWR_GOV_CTL (spec/02_timing_model.md R75). -/
def PWR_GOV_CTL : Nat := 0x48C00800
def PWR_GOV_CTL_QUIET : Fld := ⟨24, 8⟩
def PWR_GOV_CTL_STEP : Fld := ⟨16, 8⟩
def PWR_GOV_CTL_PMB_ADDR : Fld := ⟨8, 7⟩
def PWR_GOV_CTL_SLACK_DOWN : Fld := ⟨2, 1⟩
def PWR_GOV_CTL_MISS_STEP : Fld := ⟨1, 1⟩
def PWR_GOV_CTL_EN : Fld := ⟨0, 1⟩
/-- Address of PWR_GOV_LIMITS (spec/02_timing_model.md R75). -/
def PWR_GOV_LIMITS : Nat := 0x48C00804
def PWR_GOV_LIMITS_CEIL : Fld := ⟨16, 10⟩
def PWR_GOV_LIMITS_FLOOR : Fld := ⟨0, 10⟩
/-- Address of PWR_GOV_STATUS (spec/02_timing_model.md R75). -/
def PWR_GOV_STATUS : Nat := 0x48C00808
def PWR_GOV_STATUS_STEPS_UP : Fld := ⟨16, 16⟩
def PWR_GOV_STATUS_FMT_ERR : Fld := ⟨14, 1⟩
def PWR_GOV_STATUS_BAD_LIMIT : Fld := ⟨13, 1⟩
def PWR_GOV_STATUS_AT_CEIL : Fld := ⟨12, 1⟩
def PWR_GOV_STATUS_PMB_ERR : Fld := ⟨11, 1⟩
def PWR_GOV_STATUS_BUSY : Fld := ⟨10, 1⟩
def PWR_GOV_STATUS_TARGET : Fld := ⟨0, 10⟩
/-- Address of BEAM_COUNT_LO (spec/03_beam_and_tally.md R95). -/
def BEAM_COUNT_LO : Nat := 0x48000000
def BEAM_COUNT_LO_COUNT_LO : Fld := ⟨0, 32⟩
/-- Address of BEAM_COUNT_HI (spec/03_beam_and_tally.md R95). -/
def BEAM_COUNT_HI : Nat := 0x48000004
def BEAM_COUNT_HI_COUNT_HI : Fld := ⟨0, 32⟩
/-- Address of BEAM_TT_LO (spec/03_beam_and_tally.md R99). -/
def BEAM_TT_LO : Nat := 0x48000008
def BEAM_TT_LO_TT_LO : Fld := ⟨0, 32⟩
/-- Address of BEAM_TT_HI (spec/03_beam_and_tally.md R99). -/
def BEAM_TT_HI : Nat := 0x4800000C
def BEAM_TT_HI_TT_HI : Fld := ⟨0, 32⟩
/-- Address of BEAM_TT_OFS_LO (spec/03_beam_and_tally.md R100). -/
def BEAM_TT_OFS_LO : Nat := 0x48000010
def BEAM_TT_OFS_LO_OFS_LO : Fld := ⟨0, 32⟩
/-- Address of BEAM_TT_OFS_HI (spec/03_beam_and_tally.md R100). -/
def BEAM_TT_OFS_HI : Nat := 0x48000014
def BEAM_TT_OFS_HI_OFS_HI : Fld := ⟨0, 32⟩
/-- Address of BEAM_STATUS (spec/03_beam_and_tally.md R101). -/
def BEAM_STATUS : Nat := 0x48000018
def BEAM_STATUS_TT_STEP : Fld := ⟨10, 1⟩
def BEAM_STATUS_TT_VALID : Fld := ⟨9, 1⟩
def BEAM_STATUS_PLL_LOCK : Fld := ⟨8, 1⟩
def BEAM_STATUS_CAUSE : Fld := ⟨4, 4⟩
def BEAM_STATUS_LOST : Fld := ⟨3, 1⟩
def BEAM_STATUS_SOLE_B : Fld := ⟨2, 1⟩
def BEAM_STATUS_B_OK : Fld := ⟨1, 1⟩
def BEAM_STATUS_A_OK : Fld := ⟨0, 1⟩
/-- Address of BEAM_SWITCH_LO (spec/03_beam_and_tally.md R96). -/
def BEAM_SWITCH_LO : Nat := 0x4800001C
def BEAM_SWITCH_LO_SW_LO : Fld := ⟨0, 32⟩
/-- Address of BEAM_SWITCH_HI (spec/03_beam_and_tally.md R96). -/
def BEAM_SWITCH_HI : Nat := 0x48000020
def BEAM_SWITCH_HI_SW_HI : Fld := ⟨0, 32⟩
/-- Address of BEAM_RING (spec/03_beam_and_tally.md R88). -/
def BEAM_RING : Nat := 0x48000024
def BEAM_RING_LAST_B : Fld := ⟨16, 10⟩
def BEAM_RING_LAST_A : Fld := ⟨0, 10⟩
/-- Address of BEAM_RING_LIM (spec/03_beam_and_tally.md R88). -/
def BEAM_RING_LIM : Nat := 0x48000028
def BEAM_RING_LIM_MAX : Fld := ⟨16, 10⟩
def BEAM_RING_LIM_MIN : Fld := ⟨0, 10⟩
/-- Address of TLY_CTL (spec/03_beam_and_tally.md R125). -/
def TLY_CTL (n t : Nat) : Nat := 0x40000000 + n * 0x1000000 + t * 0x40
def TLY_CTL_PIN_EN : Fld := ⟨16, 1⟩
def TLY_CTL_PRESCALE : Fld := ⟨8, 8⟩
def TLY_CTL_PIN_SAFE : Fld := ⟨4, 2⟩
def TLY_CTL_RELOAD_IMM : Fld := ⟨3, 1⟩
def TLY_CTL_LINK : Fld := ⟨2, 1⟩
def TLY_CTL_MODE : Fld := ⟨1, 1⟩
def TLY_CTL_RUN : Fld := ⟨0, 1⟩
/-- Address of TLY_STATUS (spec/03_beam_and_tally.md R125). -/
def TLY_STATUS (n t : Nat) : Nat := 0x40000004 + n * 0x1000000 + t * 0x40
def TLY_STATUS_LEVEL : Fld := ⟨9, 1⟩
def TLY_STATUS_LATE : Fld := ⟨8, 1⟩
def TLY_STATUS_ONE_DONE : Fld := ⟨7, 1⟩
def TLY_STATUS_SHORT : Fld := ⟨6, 1⟩
def TLY_STATUS_CM1F : Fld := ⟨5, 1⟩
def TLY_STATUS_CM0F : Fld := ⟨4, 1⟩
def TLY_STATUS_PM1F : Fld := ⟨3, 1⟩
def TLY_STATUS_PM0F : Fld := ⟨2, 1⟩
def TLY_STATUS_PEND : Fld := ⟨1, 1⟩
def TLY_STATUS_RUN : Fld := ⟨0, 1⟩
/-- Address of TLY_COUNT (spec/03_beam_and_tally.md R117). -/
def TLY_COUNT (n t : Nat) : Nat := 0x40000008 + n * 0x1000000 + t * 0x40
def TLY_COUNT_COUNT : Fld := ⟨0, 32⟩
/-- Address of TLY_RELOAD (spec/03_beam_and_tally.md R119). -/
def TLY_RELOAD (n t : Nat) : Nat := 0x4000000C + n * 0x1000000 + t * 0x40
def TLY_RELOAD_RELOAD : Fld := ⟨0, 32⟩
/-- Address of TLY_PM0 (spec/03_beam_and_tally.md R108). -/
def TLY_PM0 (n t : Nat) : Nat := 0x40000010 + n * 0x1000000 + t * 0x40
def TLY_PM0_VAL : Fld := ⟨0, 32⟩
/-- Address of TLY_PM1 (spec/03_beam_and_tally.md R108). -/
def TLY_PM1 (n t : Nat) : Nat := 0x40000014 + n * 0x1000000 + t * 0x40
def TLY_PM1_VAL : Fld := ⟨0, 32⟩
/-- Address of TLY_CM0 (spec/03_beam_and_tally.md R108). -/
def TLY_CM0 (n t : Nat) : Nat := 0x40000018 + n * 0x1000000 + t * 0x40
def TLY_CM0_VAL : Fld := ⟨0, 32⟩
/-- Address of TLY_CM1 (spec/03_beam_and_tally.md R108). -/
def TLY_CM1 (n t : Nat) : Nat := 0x4000001C + n * 0x1000000 + t * 0x40
def TLY_CM1_VAL : Fld := ⟨0, 32⟩
/-- Address of TLY_ACT (spec/03_beam_and_tally.md R110). -/
def TLY_ACT (n t : Nat) : Nat := 0x40000020 + n * 0x1000000 + t * 0x40
def TLY_ACT_CM1_TGT : Fld := ⟨11, 1⟩
def TLY_ACT_CM1_ACT : Fld := ⟨8, 3⟩
def TLY_ACT_CM0_TGT : Fld := ⟨7, 1⟩
def TLY_ACT_CM0_ACT : Fld := ⟨4, 3⟩
def TLY_ACT_PM1_ACT : Fld := ⟨2, 2⟩
def TLY_ACT_PM0_ACT : Fld := ⟨0, 2⟩
/-- Address of TLY_INDLY (spec/03_beam_and_tally.md R115). -/
def TLY_INDLY (n t : Nat) : Nat := 0x40000024 + n * 0x1000000 + t * 0x40
def TLY_INDLY_DLY : Fld := ⟨0, 16⟩
/-- Address of TLY_IRQ_EN (spec/03_beam_and_tally.md R128). -/
def TLY_IRQ_EN (n t : Nat) : Nat := 0x40000028 + n * 0x1000000 + t * 0x40
def TLY_IRQ_EN_EN : Fld := ⟨0, 8⟩
/-- Address of TLY_OPT (spec/03_beam_and_tally.md R125). -/
def TLY_OPT (n : Nat) : Nat := 0x40000800 + n * 0x1000000
def TLY_OPT_LOCK_BERR : Fld := ⟨0, 1⟩
/-- Address of TLY_BLK_STATUS (spec/03_beam_and_tally.md R125). -/
def TLY_BLK_STATUS (n : Nat) : Nat := 0x40000804 + n * 0x1000000
def TLY_BLK_STATUS_LOCK_TMR : Fld := ⟨8, 4⟩
def TLY_BLK_STATUS_CFG_LOCKED_WRITE : Fld := ⟨0, 1⟩
/-- Address of TLY_GO0 (spec/03_beam_and_tally.md R126). -/
def TLY_GO0 : Nat := 0x48100000
def TLY_GO0_SEL : Fld := ⟨0, 32⟩
/-- Address of TLY_GO1 (spec/03_beam_and_tally.md R126). -/
def TLY_GO1 : Nat := 0x48100004
def TLY_GO1_SEL : Fld := ⟨0, 32⟩
/-- Address of TLY_GO2 (spec/03_beam_and_tally.md R126). -/
def TLY_GO2 : Nat := 0x48100008
def TLY_GO2_SEL : Fld := ⟨0, 32⟩
/-- Address of TLY_GO_CMD (spec/03_beam_and_tally.md R126). -/
def TLY_GO_CMD : Nat := 0x4810000C
def TLY_GO_CMD_AT : Fld := ⟨4, 1⟩
def TLY_GO_CMD_CMD : Fld := ⟨0, 2⟩
/-- Address of TLY_GO_AT_LO (spec/03_beam_and_tally.md R126). -/
def TLY_GO_AT_LO : Nat := 0x48100010
def TLY_GO_AT_LO_AT_LO : Fld := ⟨0, 32⟩
/-- Address of TLY_GO_AT_HI (spec/03_beam_and_tally.md R126). -/
def TLY_GO_AT_HI : Nat := 0x48100014
def TLY_GO_AT_HI_AT_HI : Fld := ⟨0, 32⟩
/-- Address of TLY_GO_STATUS (spec/03_beam_and_tally.md R126). -/
def TLY_GO_STATUS : Nat := 0x48100018
def TLY_GO_STATUS_REFUSED : Fld := ⟨3, 1⟩
def TLY_GO_STATUS_SKIPPED : Fld := ⟨2, 1⟩
def TLY_GO_STATUS_LATE : Fld := ⟨1, 1⟩
def TLY_GO_STATUS_PENDING : Fld := ⟨0, 1⟩
/-- Address of PWM_PERIOD (spec/04_pwm.md R131). -/
def PWM_PERIOD (n p : Nat) : Nat := 0x40010000 + n * 0x1000000 + p * 0x40
def PWM_PERIOD_TICKS : Fld := ⟨0, 32⟩
/-- Address of PWM_PSYNC (spec/04_pwm.md R132). -/
def PWM_PSYNC (n p : Nat) : Nat := 0x40010004 + n * 0x1000000 + p * 0x40
def PWM_PSYNC_PHASE : Fld := ⟨8, 24⟩
def PWM_PSYNC_FINE : Fld := ⟨0, 6⟩
/-- Address of PWM_RISE_A (spec/04_pwm.md R135). -/
def PWM_RISE_A (n p : Nat) : Nat := 0x40010008 + n * 0x1000000 + p * 0x40
def PWM_RISE_A_TICK : Fld := ⟨6, 26⟩
def PWM_RISE_A_FINE : Fld := ⟨0, 6⟩
/-- Address of PWM_FALL_A (spec/04_pwm.md R135). -/
def PWM_FALL_A (n p : Nat) : Nat := 0x4001000C + n * 0x1000000 + p * 0x40
def PWM_FALL_A_TICK : Fld := ⟨6, 26⟩
def PWM_FALL_A_FINE : Fld := ⟨0, 6⟩
/-- Address of PWM_RISE_B (spec/04_pwm.md R135). -/
def PWM_RISE_B (n p : Nat) : Nat := 0x40010010 + n * 0x1000000 + p * 0x40
def PWM_RISE_B_TICK : Fld := ⟨6, 26⟩
def PWM_RISE_B_FINE : Fld := ⟨0, 6⟩
/-- Address of PWM_FALL_B (spec/04_pwm.md R135). -/
def PWM_FALL_B (n p : Nat) : Nat := 0x40010014 + n * 0x1000000 + p * 0x40
def PWM_FALL_B_TICK : Fld := ⟨6, 26⟩
def PWM_FALL_B_FINE : Fld := ⟨0, 6⟩
/-- Address of PWM_TRG (spec/04_pwm.md R142). -/
def PWM_TRG (n p k : Nat) : Nat := 0x40010018 + n * 0x1000000 + p * 0x40 + k * 0x4
def PWM_TRG_TICK : Fld := ⟨0, 32⟩
/-- Address of PWM_DT (spec/04_pwm.md R137). -/
def PWM_DT (n p : Nat) : Nat := 0x40010028 + n * 0x1000000 + p * 0x40
def PWM_DT_DT_FALL : Fld := ⟨16, 16⟩
def PWM_DT_DT_RISE : Fld := ⟨0, 16⟩
/-- Address of PWM_CTL (spec/04_pwm.md R165). -/
def PWM_CTL (n p : Nat) : Nat := 0x4001002C + n * 0x1000000 + p * 0x40
def PWM_CTL_SYNC_TMR : Fld := ⟨20, 4⟩
def PWM_CTL_EDGE_SEL : Fld := ⟨16, 4⟩
def PWM_CTL_SAFE_B : Fld := ⟨13, 2⟩
def PWM_CTL_SAFE_A : Fld := ⟨11, 2⟩
def PWM_CTL_PIN_EN_B : Fld := ⟨10, 1⟩
def PWM_CTL_PIN_EN_A : Fld := ⟨9, 1⟩
def PWM_CTL_POL_B : Fld := ⟨8, 1⟩
def PWM_CTL_POL_A : Fld := ⟨7, 1⟩
def PWM_CTL_SYNC : Fld := ⟨5, 1⟩
def PWM_CTL_MODE : Fld := ⟨4, 1⟩
def PWM_CTL_RUN : Fld := ⟨0, 1⟩
/-- Address of PWM_STATUS (spec/04_pwm.md R165). -/
def PWM_STATUS (n p : Nat) : Nat := 0x40010030 + n * 0x1000000 + p * 0x40
def PWM_STATUS_FIRST_LINE : Fld := ⟨16, 5⟩
def PWM_STATUS_OVERLAP : Fld := ⟨13, 1⟩
def PWM_STATUS_LEVEL_B : Fld := ⟨12, 1⟩
def PWM_STATUS_LEVEL_A : Fld := ⟨11, 1⟩
def PWM_STATUS_HIZ_B : Fld := ⟨10, 1⟩
def PWM_STATUS_HIZ_A : Fld := ⟨9, 1⟩
def PWM_STATUS_SAFE_FORCED : Fld := ⟨8, 1⟩
def PWM_STATUS_RESUME_PEND : Fld := ⟨7, 1⟩
def PWM_STATUS_HELD : Fld := ⟨6, 1⟩
def PWM_STATUS_SYNC_LOST : Fld := ⟨5, 1⟩
def PWM_STATUS_HOLD_EXPIRED : Fld := ⟨4, 1⟩
def PWM_STATUS_SPLIT : Fld := ⟨3, 1⟩
def PWM_STATUS_CLR_REFUSED : Fld := ⟨2, 1⟩
def PWM_STATUS_TRIP_ACTIVE : Fld := ⟨1, 1⟩
def PWM_STATUS_TRIP : Fld := ⟨0, 1⟩
/-- Address of PWM_TRIP_MASK (spec/04_pwm.md R149). -/
def PWM_TRIP_MASK (n p : Nat) : Nat := 0x40010034 + n * 0x1000000 + p * 0x40
def PWM_TRIP_MASK_MASK : Fld := ⟨0, 24⟩
/-- Address of PWM_SPLIT (spec/04_pwm.md R145). -/
def PWM_SPLIT (n p : Nat) : Nat := 0x40010038 + n * 0x1000000 + p * 0x40
def PWM_SPLIT_SPLIT_HOLD : Fld := ⟨16, 1⟩
def PWM_SPLIT_WIN : Fld := ⟨0, 16⟩
/-- Address of PWM_IRQ_EN (spec/04_pwm.md R167). -/
def PWM_IRQ_EN (n p : Nat) : Nat := 0x4001003C + n * 0x1000000 + p * 0x40
def PWM_IRQ_EN_EN : Fld := ⟨1, 5⟩
def PWM_IRQ_EN_TRIP_ALWAYS : Fld := ⟨0, 1⟩
/-- Address of PWM_TLINE (spec/04_pwm.md R149). -/
def PWM_TLINE (n l : Nat) : Nat := 0x40010800 + n * 0x1000000 + l * 0x4
def PWM_TLINE_BLANK_LONG : Fld := ⟨9, 1⟩
def PWM_TLINE_BLANK_OPEN : Fld := ⟨8, 1⟩
def PWM_TLINE_ACTIVE : Fld := ⟨7, 1⟩
def PWM_TLINE_BLANK_TMR : Fld := ⟨3, 4⟩
def PWM_TLINE_BLANK_EN : Fld := ⟨2, 1⟩
def PWM_TLINE_FLT : Fld := ⟨0, 2⟩
/-- Address of PWM_TRIP_CLR (spec/04_pwm.md R160). -/
def PWM_TRIP_CLR (n : Nat) : Nat := 0x40010880 + n * 0x1000000
def PWM_TRIP_CLR_CLR : Fld := ⟨0, 16⟩
/-- Address of PWM_OPT (spec/04_pwm.md R165). -/
def PWM_OPT (n : Nat) : Nat := 0x40010884 + n * 0x1000000
def PWM_OPT_LOCK_BERR : Fld := ⟨0, 1⟩
/-- Address of PWM_BLK_STATUS (spec/04_pwm.md R165). -/
def PWM_BLK_STATUS (n : Nat) : Nat := 0x40010888 + n * 0x1000000
def PWM_BLK_STATUS_LOCK_BLK : Fld := ⟨12, 1⟩
def PWM_BLK_STATUS_LOCK_PAIR : Fld := ⟨8, 4⟩
def PWM_BLK_STATUS_CFG_LOCKED_WRITE : Fld := ⟨0, 1⟩
/-- Address of PWM_TRIP_TS_LO (spec/04_pwm.md R155). -/
def PWM_TRIP_TS_LO (n p : Nat) : Nat := 0x40010900 + n * 0x1000000 + p * 0x8
def PWM_TRIP_TS_LO_TS_LO : Fld := ⟨0, 32⟩
/-- Address of PWM_TRIP_TS_HI (spec/04_pwm.md R155). -/
def PWM_TRIP_TS_HI (n p : Nat) : Nat := 0x40010904 + n * 0x1000000 + p * 0x8
def PWM_TRIP_TS_HI_TS_HI : Fld := ⟨0, 32⟩
/-- Address of ACH_CFG (spec/05_analog_channels.md R206). -/
def ACH_CFG (n c : Nat) : Nat := 0x40020000 + n * 0x1000000 + c * 0x40
def ACH_CFG_CMP_HYST : Fld := ⟨24, 2⟩
def ACH_CFG_CMP_POL : Fld := ⟨22, 1⟩
def ACH_CFG_DAC_SAFE : Fld := ⟨20, 2⟩
def ACH_CFG_BND_TMR : Fld := ⟨16, 4⟩
def ACH_CFG_ACQ : Fld := ⟨8, 8⟩
def ACH_CFG_GROUP : Fld := ⟨4, 4⟩
/-- Address of ACH_MODE (spec/05_analog_channels.md R171). -/
def ACH_MODE (n c : Nat) : Nat := 0x40020004 + n * 0x1000000 + c * 0x40
def ACH_MODE_SETTLING : Fld := ⟨8, 1⟩
def ACH_MODE_MODE : Fld := ⟨0, 2⟩
/-- Address of ACH_DAC (spec/05_analog_channels.md R180). -/
def ACH_DAC (n c : Nat) : Nat := 0x40020008 + n * 0x1000000 + c * 0x40
def ACH_DAC_CODE : Fld := ⟨0, 16⟩
/-- Address of ACH_ZERO (spec/05_analog_channels.md R180). -/
def ACH_ZERO (n c : Nat) : Nat := 0x4002000C + n * 0x1000000 + c * 0x40
def ACH_ZERO_ZERO : Fld := ⟨0, 16⟩
/-- Address of ACH_CAL (spec/05_analog_channels.md R198). -/
def ACH_CAL (n c : Nat) : Nat := 0x40020010 + n * 0x1000000 + c * 0x40
def ACH_CAL_GAIN : Fld := ⟨16, 16⟩
def ACH_CAL_OFS : Fld := ⟨0, 16⟩
/-- Address of ACH_PLAUS (spec/05_analog_channels.md R188). -/
def ACH_PLAUS (n c : Nat) : Nat := 0x40020014 + n * 0x1000000 + c * 0x40
def ACH_PLAUS_TOL : Fld := ⟨16, 16⟩
def ACH_PLAUS_PMODE : Fld := ⟨1, 1⟩
def ACH_PLAUS_EN : Fld := ⟨0, 1⟩
/-- Address of ACH_STATUS (spec/05_analog_channels.md R206). -/
def ACH_STATUS (n c : Nat) : Nat := 0x40020018 + n * 0x1000000 + c * 0x40
def ACH_STATUS_IGNORED : Fld := ⟨11, 1⟩
def ACH_STATUS_CLIP : Fld := ⟨10, 1⟩
def ACH_STATUS_CAL_FAIL : Fld := ⟨9, 1⟩
def ACH_STATUS_PLAUS_SKIP : Fld := ⟨8, 1⟩
def ACH_STATUS_PLAUS_FAIL : Fld := ⟨7, 1⟩
def ACH_STATUS_PLAUS_RETRY : Fld := ⟨6, 1⟩
def ACH_STATUS_LATE : Fld := ⟨5, 1⟩
def ACH_STATUS_OVERRUN : Fld := ⟨4, 1⟩
def ACH_STATUS_CMP_EVT : Fld := ⟨3, 1⟩
def ACH_STATUS_CMP : Fld := ⟨2, 1⟩
def ACH_STATUS_SETTLING : Fld := ⟨1, 1⟩
def ACH_STATUS_BUSY : Fld := ⟨0, 1⟩
/-- Address of ACH_CNT (spec/05_analog_channels.md R176). -/
def ACH_CNT (n c : Nat) : Nat := 0x4002001C + n * 0x1000000 + c * 0x40
def ACH_CNT_TRANSIENT : Fld := ⟨16, 16⟩
def ACH_CNT_LASTING : Fld := ⟨8, 8⟩
def ACH_CNT_DROP : Fld := ⟨0, 8⟩
/-- Address of ACH_IRQ_EN (spec/05_analog_channels.md R208). -/
def ACH_IRQ_EN (n c : Nat) : Nat := 0x40020020 + n * 0x1000000 + c * 0x40
def ACH_IRQ_EN_EN : Fld := ⟨0, 6⟩
/-- Address of ACH_GTDLY (spec/05_analog_channels.md R174). -/
def ACH_GTDLY (n g : Nat) : Nat := 0x40020800 + n * 0x1000000 + g * 0x4
def ACH_GTDLY_DLY : Fld := ⟨0, 16⟩
/-- Address of ACH_SWTRIG (spec/05_analog_channels.md R174). -/
def ACH_SWTRIG (n : Nat) : Nat := 0x40020820 + n * 0x1000000
def ACH_SWTRIG_GO : Fld := ⟨0, 8⟩
/-- Address of ACH_SET (spec/05_analog_channels.md R184). -/
def ACH_SET (n : Nat) : Nat := 0x40020824 + n * 0x1000000
def ACH_SET_MASK : Fld := ⟨0, 26⟩
/-- Address of ACH_SET_CTL (spec/05_analog_channels.md R184). -/
def ACH_SET_CTL (n : Nat) : Nat := 0x40020828 + n * 0x1000000
def ACH_SET_CTL_DONE_IRQ : Fld := ⟨8, 1⟩
def ACH_SET_CTL_SET_TMR : Fld := ⟨4, 4⟩
def ACH_SET_CTL_EN : Fld := ⟨0, 1⟩
/-- Address of ACH_SET_STATUS (spec/05_analog_channels.md R186). -/
def ACH_SET_STATUS (n : Nat) : Nat := 0x4002082C + n * 0x1000000
def ACH_SET_STATUS_INCOMPLETE : Fld := ⟨31, 1⟩
def ACH_SET_STATUS_DONE : Fld := ⟨30, 1⟩
def ACH_SET_STATUS_WAITING : Fld := ⟨0, 26⟩
/-- Address of ACH_CAL_CTL (spec/05_analog_channels.md R196). -/
def ACH_CAL_CTL (n : Nat) : Nat := 0x40020830 + n * 0x1000000
def ACH_CAL_CTL_INTERVAL : Fld := ⟨20, 8⟩
def ACH_CAL_CTL_CAL_OFS : Fld := ⟨8, 12⟩
def ACH_CAL_CTL_CAL_TMR : Fld := ⟨4, 4⟩
def ACH_CAL_CTL_EN : Fld := ⟨0, 1⟩
/-- Address of ACH_OPT (spec/05_analog_channels.md R206). -/
def ACH_OPT (n : Nat) : Nat := 0x40020840 + n * 0x1000000
def ACH_OPT_LOCK_BERR : Fld := ⟨0, 1⟩
/-- Address of ACH_BLK_STATUS (spec/05_analog_channels.md R206). -/
def ACH_BLK_STATUS (n : Nat) : Nat := 0x40020844 + n * 0x1000000
def ACH_BLK_STATUS_LOCK_CH : Fld := ⟨8, 4⟩
def ACH_BLK_STATUS_MODE_DIRECT : Fld := ⟨1, 1⟩
def ACH_BLK_STATUS_CFG_LOCKED_WRITE : Fld := ⟨0, 1⟩
/-- Address of SDM_CFG (spec/05_analog_channels.md R206). -/
def SDM_CFG (n j : Nat) : Nat := 0x40030000 + n * 0x1000000 + j * 0x40
def SDM_CFG_SYNC_EN : Fld := ⟨22, 1⟩
def SDM_CFG_SHIFT : Fld := ⟨17, 5⟩
def SDM_CFG_OSR : Fld := ⟨8, 9⟩
def SDM_CFG_SKEW : Fld := ⟨2, 3⟩
def SDM_CFG_CLK : Fld := ⟨1, 1⟩
def SDM_CFG_EN : Fld := ⟨0, 1⟩
/-- Address of SDM_OC (spec/05_analog_channels.md R204). -/
def SDM_OC (n j : Nat) : Nat := 0x40030004 + n * 0x1000000 + j * 0x40
def SDM_OC_OC_LO : Fld := ⟨24, 8⟩
def SDM_OC_OC_HI : Fld := ⟨16, 8⟩
def SDM_OC_OC_EN : Fld := ⟨15, 1⟩
def SDM_OC_CONFIRM : Fld := ⟨8, 3⟩
def SDM_OC_W : Fld := ⟨0, 6⟩
/-- Address of SDM_STATUS (spec/05_analog_channels.md R206). -/
def SDM_STATUS (n j : Nat) : Nat := 0x40030008 + n * 0x1000000 + j * 0x40
def SDM_STATUS_SINC1 : Fld := ⟨8, 8⟩
def SDM_STATUS_OVF : Fld := ⟨6, 1⟩
def SDM_STATUS_RESYNC : Fld := ⟨5, 1⟩
def SDM_STATUS_STUCK_EVT : Fld := ⟨4, 1⟩
def SDM_STATUS_STUCK : Fld := ⟨3, 1⟩
def SDM_STATUS_OC_EVT : Fld := ⟨2, 1⟩
def SDM_STATUS_OC : Fld := ⟨1, 1⟩
def SDM_STATUS_SETTLING : Fld := ⟨0, 1⟩
/-- Address of SDM_IRQ_EN (spec/05_analog_channels.md R209). -/
def SDM_IRQ_EN (n j : Nat) : Nat := 0x4003000C + n * 0x1000000 + j * 0x40
def SDM_IRQ_EN_EN : Fld := ⟨0, 4⟩
/-- Address of SDM_CLK (spec/05_analog_channels.md R200). -/
def SDM_CLK (n k : Nat) : Nat := 0x40030800 + n * 0x1000000 + k * 0x4
def SDM_CLK_SYNC_TMR : Fld := ⟨12, 4⟩
def SDM_CLK_SYNC_EN : Fld := ⟨9, 1⟩
def SDM_CLK_EN : Fld := ⟨8, 1⟩
def SDM_CLK_DIV : Fld := ⟨0, 8⟩
/-- Address of SDM_OPT (spec/05_analog_channels.md R206). -/
def SDM_OPT (n : Nat) : Nat := 0x40030810 + n * 0x1000000
def SDM_OPT_LOCK_BERR : Fld := ⟨0, 1⟩
/-- Address of SDM_BLK_STATUS (spec/05_analog_channels.md R206). -/
def SDM_BLK_STATUS (n : Nat) : Nat := 0x40030814 + n * 0x1000000
def SDM_BLK_STATUS_LOCK_IN : Fld := ⟨8, 4⟩
def SDM_BLK_STATUS_CFG_LOCKED_WRITE : Fld := ⟨0, 1⟩
/-- Address of ACH_BANK (spec/05_analog_channels.md R181). -/
def ACH_BANK (n w : Nat) : Nat := 0x40080000 + n * 0x1000000 + w * 0x4
def ACH_BANK_W : Fld := ⟨0, 32⟩
/-- Address of ACH_FRAMEVIEW (spec/05_analog_channels.md R181). -/
def ACH_FRAMEVIEW (n w : Nat) : Nat := 0x40080800 + n * 0x1000000 + w * 0x4
def ACH_FRAMEVIEW_W : Fld := ⟨0, 32⟩
/-- Address of ABX_GRP_ASSIGN (spec/06_abacus_rods.md R212). -/
def ABX_GRP_ASSIGN (g : Nat) : Nat := 0x48200000 + g * 0x4
def ABX_GRP_ASSIGN_ISLAND : Fld := ⟨0, 3⟩
/-- Address of ABX_ROD_CFG (spec/06_abacus_rods.md R213). -/
def ABX_ROD_CFG (r : Nat) : Nat := 0x48200100 + r * 0x4
def ABX_ROD_CFG_ROLE : Fld := ⟨16, 2⟩
def ABX_ROD_CFG_ENTRY : Fld := ⟨0, 14⟩
/-- Address of ABX_ROD_STATUS (spec/06_abacus_rods.md R236). -/
def ABX_ROD_STATUS (r : Nat) : Nat := 0x48200200 + r * 0x4
def ABX_ROD_STATUS_ERR_ADDR : Fld := ⟨18, 14⟩
def ABX_ROD_STATUS_RETIRED : Fld := ⟨7, 1⟩
def ABX_ROD_STATUS_UE : Fld := ⟨6, 1⟩
def ABX_ROD_STATUS_PROG_ERR : Fld := ⟨5, 1⟩
def ABX_ROD_STATUS_LASTING : Fld := ⟨4, 1⟩
def ABX_ROD_STATUS_TRANSIENT : Fld := ⟨3, 1⟩
def ABX_ROD_STATUS_SAT : Fld := ⟨2, 1⟩
def ABX_ROD_STATUS_ACTIVE : Fld := ⟨1, 1⟩
/-- Address of ABX_ROD_CNT (spec/06_abacus_rods.md R244). -/
def ABX_ROD_CNT (r : Nat) : Nat := 0x48200300 + r * 0x4
def ABX_ROD_CNT_TRANSIENT : Fld := ⟨16, 16⟩
def ABX_ROD_CNT_SAT_FRAMES : Fld := ⟨0, 16⟩
/-- Address of ABX_LAWWIN (spec/06_abacus_rods.md R234). -/
def ABX_LAWWIN (n : Nat) : Nat := 0x48200400 + n * 0x4
def ABX_LAWWIN_LAST : Fld := ⟨8, 8⟩
def ABX_LAWWIN_BASE : Fld := ⟨0, 8⟩
/-- Address of ABX_SPINE_OPT (spec/06_abacus_rods.md R212). -/
def ABX_SPINE_OPT : Nat := 0x48200500
def ABX_SPINE_OPT_LOCK_BERR : Fld := ⟨0, 1⟩
/-- Address of ABX_SPINE_STATUS (spec/06_abacus_rods.md R212). -/
def ABX_SPINE_STATUS : Nat := 0x48200504
def ABX_SPINE_STATUS_LOCK_OFS : Fld := ⟨12, 20⟩
def ABX_SPINE_STATUS_LOCK_ISL : Fld := ⟨8, 3⟩
def ABX_SPINE_STATUS_CFG_LOCKED_WRITE : Fld := ⟨0, 1⟩
/-- Address of ABX_LINK (spec/06_abacus_rods.md R240). -/
def ABX_LINK (i : Nat) : Nat := 0x48200800 + i * 0x4
def ABX_LINK_VALUE : Fld := ⟨0, 32⟩
/-- Address of ABX_LINK_VALID (spec/06_abacus_rods.md R240). -/
def ABX_LINK_VALID (w : Nat) : Nat := 0x48200A00 + w * 0x4
def ABX_LINK_VALID_VALID : Fld := ⟨0, 32⟩
/-- Address of ABX_ROD_S (spec/06_abacus_rods.md R222). -/
def ABX_ROD_S (r k : Nat) : Nat := 0x48210000 + r * 0x200 + k * 0x4
def ABX_ROD_S_S : Fld := ⟨0, 32⟩
/-- Address of ABX_ROD_PRESET (spec/06_abacus_rods.md R242). -/
def ABX_ROD_PRESET (r k : Nat) : Nat := 0x48210080 + r * 0x200 + k * 0x4
def ABX_ROD_PRESET_VAL : Fld := ⟨0, 32⟩
/-- Address of ABX_ROD_PEND (spec/06_abacus_rods.md R242). -/
def ABX_ROD_PEND (r : Nat) : Nat := 0x48210100 + r * 0x200
def ABX_ROD_PEND_PEND : Fld := ⟨0, 32⟩
/-- Address of ABX_LAW (spec/06_abacus_rods.md R233). -/
def ABX_LAW (i : Nat) : Nat := 0x48280000 + i * 0x4
def ABX_LAW_W : Fld := ⟨0, 32⟩
/-- Address of ABX_FRM_CTL (spec/06_abacus_rods.md R214). -/
def ABX_FRM_CTL (n : Nat) : Nat := 0x40070000 + n * 0x1000000
def ABX_FRM_CTL_DONE_IRQ : Fld := ⟨16, 1⟩
def ABX_FRM_CTL_MISS_LIMIT : Fld := ⟨8, 8⟩
def ABX_FRM_CTL_BND_TMR : Fld := ⟨4, 4⟩
def ABX_FRM_CTL_EN : Fld := ⟨0, 1⟩
/-- Address of ABX_FRM_STATUS (spec/06_abacus_rods.md R215). -/
def ABX_FRM_STATUS (n : Nat) : Nat := 0x40070004 + n * 0x1000000
def ABX_FRM_STATUS_CONSEC : Fld := ⟨8, 8⟩
def ABX_FRM_STATUS_NO_SPARE : Fld := ⟨6, 1⟩
def ABX_FRM_STATUS_LIMIT_SAFE : Fld := ⟨5, 1⟩
def ABX_FRM_STATUS_START_DROP : Fld := ⟨4, 1⟩
def ABX_FRM_STATUS_MISSED : Fld := ⟨3, 1⟩
def ABX_FRM_STATUS_LAST_OK : Fld := ⟨2, 1⟩
def ABX_FRM_STATUS_DONE : Fld := ⟨1, 1⟩
def ABX_FRM_STATUS_RUNNING : Fld := ⟨0, 1⟩
/-- Address of ABX_MISS (spec/06_abacus_rods.md R69). -/
def ABX_MISS (n : Nat) : Nat := 0x40070008 + n * 0x1000000
def ABX_MISS_MISS : Fld := ⟨0, 32⟩
/-- Address of ABX_SLACK_LAST (spec/06_abacus_rods.md R80). -/
def ABX_SLACK_LAST (n : Nat) : Nat := 0x4007000C + n * 0x1000000
def ABX_SLACK_LAST_SLACK : Fld := ⟨0, 32⟩
/-- Address of ABX_SLACK_MIN (spec/06_abacus_rods.md R80). -/
def ABX_SLACK_MIN (n : Nat) : Nat := 0x40070010 + n * 0x1000000
def ABX_SLACK_MIN_SLACK : Fld := ⟨0, 32⟩
/-- Address of ABX_IRQ_EN (spec/06_abacus_rods.md R249). -/
def ABX_IRQ_EN (n : Nat) : Nat := 0x40070014 + n * 0x1000000
def ABX_IRQ_EN_START_DROP : Fld := ⟨1, 1⟩
def ABX_IRQ_EN_ROD_TRANSIENT : Fld := ⟨0, 1⟩
/-- Address of ABX_OPT (spec/06_abacus_rods.md R247). -/
def ABX_OPT (n : Nat) : Nat := 0x40070018 + n * 0x1000000
def ABX_OPT_LOCK_BERR : Fld := ⟨0, 1⟩
/-- Address of ABX_BLK_STATUS (spec/06_abacus_rods.md R247). -/
def ABX_BLK_STATUS (n : Nat) : Nat := 0x4007001C + n * 0x1000000
def ABX_BLK_STATUS_LOCK_OFS : Fld := ⟨16, 16⟩
def ABX_BLK_STATUS_OUTMAP_BAD : Fld := ⟨1, 1⟩
def ABX_BLK_STATUS_CFG_LOCKED_WRITE : Fld := ⟨0, 1⟩
/-- Address of ABX_OUTMAP (spec/06_abacus_rods.md R237). -/
def ABX_OUTMAP (n k : Nat) : Nat := 0x40070100 + n * 0x1000000 + k * 0x4
def ABX_OUTMAP_TARGET : Fld := ⟨2, 18⟩
def ABX_OUTMAP_EN : Fld := ⟨0, 1⟩
/-- Address of ABX_COEF (spec/06_abacus_rods.md R226). -/
def ABX_COEF (n k : Nat) : Nat := 0x40071000 + n * 0x1000000 + k * 0x4
def ABX_COEF_C : Fld := ⟨0, 32⟩
/-- Address of ABX_COEF_SH (spec/06_abacus_rods.md R226). -/
def ABX_COEF_SH (n k : Nat) : Nat := 0x40072000 + n * 0x1000000 + k * 0x4
def ABX_COEF_SH_SH : Fld := ⟨0, 5⟩
/-- Address of ABX_TRC_CTL (spec/07_abacus_laws.md R281). -/
def ABX_TRC_CTL (n : Nat) : Nat := 0x40070400 + n * 0x1000000
def ABX_TRC_CTL_DECIM : Fld := ⟨24, 8⟩
def ABX_TRC_CTL_TRIG_IRQ : Fld := ⟨20, 1⟩
def ABX_TRC_CTL_CMP_EDGE : Fld := ⟨18, 2⟩
def ABX_TRC_CTL_CMP_NODE : Fld := ⟨14, 4⟩
def ABX_TRC_CTL_TSRC : Fld := ⟨10, 4⟩
def ABX_TRC_CTL_NODES : Fld := ⟨1, 4⟩
def ABX_TRC_CTL_ARM : Fld := ⟨0, 1⟩
/-- Address of ABX_TRC_LEN (spec/07_abacus_laws.md R278). -/
def ABX_TRC_LEN (n : Nat) : Nat := 0x40070404 + n * 0x1000000
def ABX_TRC_LEN_POST : Fld := ⟨16, 16⟩
def ABX_TRC_LEN_PRE : Fld := ⟨0, 16⟩
/-- Address of ABX_TRC_THR (spec/07_abacus_laws.md R277). -/
def ABX_TRC_THR (n : Nat) : Nat := 0x40070408 + n * 0x1000000
def ABX_TRC_THR_THR : Fld := ⟨0, 32⟩
/-- Address of ABX_TRC_CMD (spec/07_abacus_laws.md R277). -/
def ABX_TRC_CMD (n : Nat) : Nat := 0x4007040C + n * 0x1000000
def ABX_TRC_CMD_FORCE : Fld := ⟨0, 1⟩
/-- Address of ABX_TRC_STATUS (spec/07_abacus_laws.md R278). -/
def ABX_TRC_STATUS (n : Nat) : Nat := 0x40070410 + n * 0x1000000
def ABX_TRC_STATUS_TRIG_REC : Fld := ⟨16, 16⟩
def ABX_TRC_STATUS_EXIT_STOP : Fld := ⟨5, 1⟩
def ABX_TRC_STATUS_WRAPPED : Fld := ⟨4, 1⟩
def ABX_TRC_STATUS_PRE_SHORT : Fld := ⟨3, 1⟩
def ABX_TRC_STATUS_DONE : Fld := ⟨2, 1⟩
def ABX_TRC_STATUS_TRIGGERED : Fld := ⟨1, 1⟩
def ABX_TRC_STATUS_ARMED : Fld := ⟨0, 1⟩
/-- Address of ABX_TRC_PTR (spec/07_abacus_laws.md R275). -/
def ABX_TRC_PTR (n : Nat) : Nat := 0x40070414 + n * 0x1000000
def ABX_TRC_PTR_CAPACITY : Fld := ⟨16, 16⟩
def ABX_TRC_PTR_WPTR : Fld := ⟨0, 16⟩
/-- Address of ABX_TRC_NODE (spec/07_abacus_laws.md R274). -/
def ABX_TRC_NODE (n k : Nat) : Nat := 0x40070440 + n * 0x1000000 + k * 0x4
def ABX_TRC_NODE_KIND : Fld := ⟨30, 2⟩
def ABX_TRC_NODE_ROD : Fld := ⟨24, 6⟩
def ABX_TRC_NODE_INDEX : Fld := ⟨0, 14⟩
/-- Address of FBK_CFG (spec/08_feedback.md R303). -/
def FBK_CFG (n k : Nat) : Nat := 0x40040000 + n * 0x1000000 + k * 0x100
def FBK_CFG_HALL_REV : Fld := ⟨5, 1⟩
def FBK_CFG_DIR_INV : Fld := ⟨4, 1⟩
def FBK_CFG_SRC : Fld := ⟨1, 3⟩
def FBK_CFG_EN : Fld := ⟨0, 1⟩
/-- Address of FBK_FLT (spec/08_feedback.md R285). -/
def FBK_FLT (n k : Nat) : Nat := 0x40040004 + n * 0x1000000 + k * 0x100
def FBK_FLT_N : Fld := ⟨16, 10⟩
def FBK_FLT_SRC : Fld := ⟨0, 5⟩
/-- Address of FBK_COUNTS_PER_REV (spec/08_feedback.md R289). -/
def FBK_COUNTS_PER_REV (n k : Nat) : Nat := 0x40040008 + n * 0x1000000 + k * 0x100
def FBK_COUNTS_PER_REV_CPR : Fld := ⟨0, 32⟩
/-- Address of FBK_POS (spec/08_feedback.md R290). -/
def FBK_POS (n k : Nat) : Nat := 0x4004000C + n * 0x1000000 + k * 0x100
def FBK_POS_POS : Fld := ⟨0, 32⟩
/-- Address of FBK_TURNS (spec/08_feedback.md R290). -/
def FBK_TURNS (n k : Nat) : Nat := 0x40040010 + n * 0x1000000 + k * 0x100
def FBK_TURNS_TURNS : Fld := ⟨0, 32⟩
/-- Address of FBK_IDX_CTL (spec/08_feedback.md R291). -/
def FBK_IDX_CTL (n k : Nat) : Nat := 0x40040014 + n * 0x1000000 + k * 0x100
def FBK_IDX_CTL_IDX_TOL : Fld := ⟨16, 16⟩
def FBK_IDX_CTL_QUAL : Fld := ⟨4, 2⟩
def FBK_IDX_CTL_QUAL_EN : Fld := ⟨3, 1⟩
def FBK_IDX_CTL_ARM : Fld := ⟨2, 1⟩
def FBK_IDX_CTL_MODE : Fld := ⟨0, 2⟩
/-- Address of FBK_IDX_POS (spec/08_feedback.md R291). -/
def FBK_IDX_POS (n k : Nat) : Nat := 0x40040018 + n * 0x1000000 + k * 0x100
def FBK_IDX_POS_POS : Fld := ⟨0, 32⟩
/-- Address of FBK_IDX_LATCH (spec/08_feedback.md R291). -/
def FBK_IDX_LATCH (n k : Nat) : Nat := 0x4004001C + n * 0x1000000 + k * 0x100
def FBK_IDX_LATCH_POS : Fld := ⟨0, 32⟩
/-- Address of FBK_SPD (spec/08_feedback.md R295). -/
def FBK_SPD (n k : Nat) : Nat := 0x40040020 + n * 0x1000000 + k * 0x100
def FBK_SPD_ZTO : Fld := ⟨16, 16⟩
def FBK_SPD_SH : Fld := ⟨12, 4⟩
def FBK_SPD_SEL : Fld := ⟨8, 1⟩
def FBK_SPD_AVG : Fld := ⟨0, 4⟩
/-- Address of FBK_SPD_SCALE (spec/08_feedback.md R295). -/
def FBK_SPD_SCALE (n k : Nat) : Nat := 0x40040024 + n * 0x1000000 + k * 0x100
def FBK_SPD_SCALE_SCALE : Fld := ⟨0, 32⟩
/-- Address of FBK_SNAP (spec/08_feedback.md R298). -/
def FBK_SNAP (n k : Nat) : Nat := 0x40040028 + n * 0x1000000 + k * 0x100
def FBK_SNAP_DLY : Fld := ⟨16, 16⟩
def FBK_SNAP_TMR_EN : Fld := ⟨4, 1⟩
def FBK_SNAP_TMR : Fld := ⟨0, 4⟩
/-- Address of FBK_SER (spec/08_feedback.md R296). -/
def FBK_SER (n k : Nat) : Nat := 0x4004002C + n * 0x1000000 + k * 0x100
def FBK_SER_BITS : Fld := ⟨8, 6⟩
def FBK_SER_ENGINE : Fld := ⟨0, 3⟩
/-- Address of FBK_STATUS (spec/08_feedback.md R303). -/
def FBK_STATUS (n k : Nat) : Nat := 0x40040030 + n * 0x1000000 + k * 0x100
def FBK_STATUS_HALL : Fld := ⟨13, 3⟩
def FBK_STATUS_DIR : Fld := ⟨11, 1⟩
def FBK_STATUS_ZERO : Fld := ⟨10, 1⟩
def FBK_STATUS_SETTLING : Fld := ⟨9, 1⟩
def FBK_STATUS_REF : Fld := ⟨8, 1⟩
def FBK_STATUS_LATE : Fld := ⟨7, 1⟩
def FBK_STATUS_OVERRUN : Fld := ⟨6, 1⟩
def FBK_STATUS_SER_ERR : Fld := ⟨5, 1⟩
def FBK_STATUS_IDX_ERR : Fld := ⟨4, 1⟩
def FBK_STATUS_HALL_ERR : Fld := ⟨3, 1⟩
def FBK_STATUS_QERR : Fld := ⟨2, 1⟩
def FBK_STATUS_IDX_EVT : Fld := ⟨1, 1⟩
def FBK_STATUS_EN : Fld := ⟨0, 1⟩
/-- Address of FBK_CNT (spec/08_feedback.md R288). -/
def FBK_CNT (n k : Nat) : Nat := 0x40040034 + n * 0x1000000 + k * 0x100
def FBK_CNT_ERR : Fld := ⟨16, 16⟩
def FBK_CNT_IDX_ERR : Fld := ⟨8, 8⟩
def FBK_CNT_OVERRUN : Fld := ⟨0, 8⟩
/-- Address of FBK_IRQ_EN (spec/08_feedback.md R305). -/
def FBK_IRQ_EN (n k : Nat) : Nat := 0x40040038 + n * 0x1000000 + k * 0x100
def FBK_IRQ_EN_EN : Fld := ⟨0, 8⟩
/-- Address of FBK_OPT (spec/08_feedback.md R303). -/
def FBK_OPT (n : Nat) : Nat := 0x40040800 + n * 0x1000000
def FBK_OPT_LOCK_BERR : Fld := ⟨0, 1⟩
/-- Address of FBK_BLK_STATUS (spec/08_feedback.md R303). -/
def FBK_BLK_STATUS (n : Nat) : Nat := 0x40040804 + n * 0x1000000
def FBK_BLK_STATUS_LOCK_IF : Fld := ⟨8, 1⟩
def FBK_BLK_STATUS_CFG_LOCKED_WRITE : Fld := ⟨0, 1⟩
/-- Address of BEAD_CTL (spec/09_bead_engines.md R329). -/
def BEAD_CTL (n e : Nat) : Nat := 0x40050000 + n * 0x1000000 + e * 0x200
def BEAD_CTL_SAFE_STOP : Fld := ⟨13, 1⟩
def BEAD_CTL_WSYNC : Fld := ⟨12, 1⟩
def BEAD_CTL_RXDST : Fld := ⟨11, 1⟩
def BEAD_CTL_SHDIR : Fld := ⟨10, 1⟩
def BEAD_CTL_CPOL : Fld := ⟨9, 1⟩
def BEAD_CTL_TXCAP : Fld := ⟨4, 4⟩
def BEAD_CTL_KEEP_SHIFT : Fld := ⟨1, 1⟩
def BEAD_CTL_RUN : Fld := ⟨0, 1⟩
/-- Address of BEAD_DIV (spec/09_bead_engines.md R309). -/
def BEAD_DIV (n e : Nat) : Nat := 0x40050004 + n * 0x1000000 + e * 0x200
def BEAD_DIV_INT : Fld := ⟨10, 14⟩
def BEAD_DIV_FRAC : Fld := ⟨0, 10⟩
/-- Address of BEAD_PIN (spec/09_bead_engines.md R307). -/
def BEAD_PIN (n e : Nat) : Nat := 0x40050008 + n * 0x1000000 + e * 0x200
def BEAD_PIN_P2_SAFE : Fld := ⟨10, 2⟩
def BEAD_PIN_P1_SAFE : Fld := ⟨8, 2⟩
def BEAD_PIN_P2_INIT : Fld := ⟨7, 1⟩
def BEAD_PIN_P1_INIT : Fld := ⟨6, 1⟩
def BEAD_PIN_P2_MODE : Fld := ⟨4, 2⟩
def BEAD_PIN_P1_MODE : Fld := ⟨2, 2⟩
def BEAD_PIN_P0_INV : Fld := ⟨0, 1⟩
/-- Address of BEAD_CMP (spec/09_bead_engines.md R317). -/
def BEAD_CMP (n e : Nat) : Nat := 0x4005000C + n * 0x1000000 + e * 0x200
def BEAD_CMP_CMP : Fld := ⟨0, 32⟩
/-- Address of BEAD_CMP_MASK (spec/09_bead_engines.md R317). -/
def BEAD_CMP_MASK (n e : Nat) : Nat := 0x40050010 + n * 0x1000000 + e * 0x200
def BEAD_CMP_MASK_MASK : Fld := ⟨0, 32⟩
/-- Address of BEAD_CRC (spec/09_bead_engines.md R316). -/
def BEAD_CRC (n e : Nat) : Nat := 0x40050014 + n * 0x1000000 + e * 0x200
def BEAD_CRC_WIDTH : Fld := ⟨16, 4⟩
def BEAD_CRC_POLY : Fld := ⟨0, 16⟩
/-- Address of BEAD_CRC_INIT (spec/09_bead_engines.md R316). -/
def BEAD_CRC_INIT (n e : Nat) : Nat := 0x40050018 + n * 0x1000000 + e * 0x200
def BEAD_CRC_INIT_INIT : Fld := ⟨0, 16⟩
/-- Address of BEAD_EVDLY (spec/09_bead_engines.md R323). -/
def BEAD_EVDLY (n e : Nat) : Nat := 0x4005001C + n * 0x1000000 + e * 0x200
def BEAD_EVDLY_DLY : Fld := ⟨0, 16⟩
/-- Address of BEAD_CMD (spec/09_bead_engines.md R326). -/
def BEAD_CMD (n e : Nat) : Nat := 0x40050020 + n * 0x1000000 + e * 0x200
def BEAD_CMD_RXFLUSH : Fld := ⟨2, 1⟩
def BEAD_CMD_TXFLUSH : Fld := ⟨1, 1⟩
def BEAD_CMD_RESTART : Fld := ⟨0, 1⟩
/-- Address of BEAD_STAT (spec/09_bead_engines.md R324). -/
def BEAD_STAT (n e : Nat) : Nat := 0x40050024 + n * 0x1000000 + e * 0x200
def BEAD_STAT_EQ : Fld := ⟨13, 1⟩
def BEAD_STAT_CRC_ON : Fld := ⟨12, 1⟩
def BEAD_STAT_WIN_OVR : Fld := ⟨11, 1⟩
def BEAD_STAT_LATE : Fld := ⟨10, 1⟩
def BEAD_STAT_SELF_STOP : Fld := ⟨9, 1⟩
def BEAD_STAT_FORCED_STOP : Fld := ⟨8, 1⟩
def BEAD_STAT_PROG_ERR : Fld := ⟨7, 1⟩
def BEAD_STAT_RX_UNF : Fld := ⟨6, 1⟩
def BEAD_STAT_TX_OVF : Fld := ⟨5, 1⟩
def BEAD_STAT_LOST : Fld := ⟨4, 1⟩
def BEAD_STAT_STALE : Fld := ⟨3, 1⟩
def BEAD_STAT_WIN_PEND : Fld := ⟨2, 1⟩
def BEAD_STAT_WAITING : Fld := ⟨1, 1⟩
def BEAD_STAT_STOPPED : Fld := ⟨0, 1⟩
/-- Address of BEAD_STATE (spec/09_bead_engines.md R324). -/
def BEAD_STATE (n e : Nat) : Nat := 0x40050028 + n * 0x1000000 + e * 0x200
def BEAD_STATE_ERR_PC : Fld := ⟨24, 6⟩
def BEAD_STATE_PC : Fld := ⟨16, 6⟩
def BEAD_STATE_BITCNT : Fld := ⟨8, 6⟩
/-- Address of BEAD_SR (spec/09_bead_engines.md R314). -/
def BEAD_SR (n e : Nat) : Nat := 0x4005002C + n * 0x1000000 + e * 0x200
def BEAD_SR_SR : Fld := ⟨0, 32⟩
/-- Address of BEAD_QLVL (spec/09_bead_engines.md R332). -/
def BEAD_QLVL (n e : Nat) : Nat := 0x40050030 + n * 0x1000000 + e * 0x200
def BEAD_QLVL_RX_THR : Fld := ⟨24, 4⟩
def BEAD_QLVL_TX_THR : Fld := ⟨16, 4⟩
def BEAD_QLVL_RX_LVL : Fld := ⟨8, 4⟩
def BEAD_QLVL_TX_LVL : Fld := ⟨0, 4⟩
/-- Address of BEAD_TXQ (spec/09_bead_engines.md R320). -/
def BEAD_TXQ (n e : Nat) : Nat := 0x40050034 + n * 0x1000000 + e * 0x200
def BEAD_TXQ_W : Fld := ⟨0, 32⟩
/-- Address of BEAD_RXQ (spec/09_bead_engines.md R320). -/
def BEAD_RXQ (n e : Nat) : Nat := 0x40050038 + n * 0x1000000 + e * 0x200
def BEAD_RXQ_W : Fld := ⟨0, 32⟩
/-- Address of BEAD_RXTS_LO (spec/09_bead_engines.md R320). -/
def BEAD_RXTS_LO (n e : Nat) : Nat := 0x4005003C + n * 0x1000000 + e * 0x200
def BEAD_RXTS_LO_TS : Fld := ⟨0, 32⟩
/-- Address of BEAD_RXTS_HI (spec/09_bead_engines.md R320). -/
def BEAD_RXTS_HI (n e : Nat) : Nat := 0x40050040 + n * 0x1000000 + e * 0x200
def BEAD_RXTS_HI_TS : Fld := ⟨0, 32⟩
/-- Address of BEAD_CNT (spec/09_bead_engines.md R319). -/
def BEAD_CNT (n e : Nat) : Nat := 0x40050044 + n * 0x1000000 + e * 0x200
def BEAD_CNT_STALE : Fld := ⟨16, 16⟩
def BEAD_CNT_LOST : Fld := ⟨0, 16⟩
/-- Address of BEAD_IRQ_EN (spec/09_bead_engines.md R331). -/
def BEAD_IRQ_EN (n e : Nat) : Nat := 0x40050048 + n * 0x1000000 + e * 0x200
def BEAD_IRQ_EN_EN_HI : Fld := ⟨3, 5⟩
def BEAD_IRQ_EN_PROG_ALWAYS : Fld := ⟨2, 1⟩
def BEAD_IRQ_EN_EN_LO : Fld := ⟨0, 2⟩
/-- Address of BEAD_CRCVAL (spec/09_bead_engines.md R316). -/
def BEAD_CRCVAL (n e : Nat) : Nat := 0x4005004C + n * 0x1000000 + e * 0x200
def BEAD_CRCVAL_CRC : Fld := ⟨0, 16⟩
/-- Address of BEAD_X (spec/09_bead_engines.md R312). -/
def BEAD_X (n e : Nat) : Nat := 0x40050050 + n * 0x1000000 + e * 0x200
def BEAD_X_X : Fld := ⟨0, 16⟩
/-- Address of BEAD_PROG (spec/09_bead_engines.md R311). -/
def BEAD_PROG (n e w : Nat) : Nat := 0x40050100 + n * 0x1000000 + e * 0x200 + w * 0x4
def BEAD_PROG_I : Fld := ⟨0, 24⟩
/-- Address of BEAD_OPT (spec/09_bead_engines.md R329). -/
def BEAD_OPT (n : Nat) : Nat := 0x40051800 + n * 0x1000000
def BEAD_OPT_LOCK_BERR : Fld := ⟨0, 1⟩
/-- Address of BEAD_BLK_STATUS (spec/09_bead_engines.md R329). -/
def BEAD_BLK_STATUS (n : Nat) : Nat := 0x40051804 + n * 0x1000000
def BEAD_BLK_STATUS_LOCK_ENG : Fld := ⟨8, 3⟩
def BEAD_BLK_STATUS_CFG_LOCKED_WRITE : Fld := ⟨0, 1⟩
/-- Address of FLG_CH (spec/10_filigree.md R334). -/
def FLG_CH (n c : Nat) : Nat := 0x40060000 + n * 0x1000000 + c * 0x4
def FLG_CH_GATE : Fld := ⟨24, 6⟩
def FLG_CH_GATE_EN : Fld := ⟨23, 1⟩
def FLG_CH_GATE_INV : Fld := ⟨22, 1⟩
def FLG_CH_SRC : Fld := ⟨0, 10⟩
/-- Address of FLG_CHS (spec/10_filigree.md R337). -/
def FLG_CHS (n c : Nat) : Nat := 0x40060200 + n * 0x1000000 + c * 0x4
def FLG_CHS_DROPS : Fld := ⟨8, 8⟩
def FLG_CHS_GATED : Fld := ⟨1, 1⟩
def FLG_CHS_DROPPED : Fld := ⟨0, 1⟩
/-- Address of FLG_IN_A (spec/10_filigree.md R341). -/
def FLG_IN_A (n x : Nat) : Nat := 0x40060400 + n * 0x1000000 + x * 0x8
def FLG_IN_A_EN1 : Fld := ⟨26, 1⟩
def FLG_IN_A_CH1 : Fld := ⟨16, 10⟩
def FLG_IN_A_EN0 : Fld := ⟨10, 1⟩
def FLG_IN_A_CH0 : Fld := ⟨0, 10⟩
/-- Address of FLG_IN_B (spec/10_filigree.md R341). -/
def FLG_IN_B (n x : Nat) : Nat := 0x40060404 + n * 0x1000000 + x * 0x8
def FLG_IN_B_EN3 : Fld := ⟨26, 1⟩
def FLG_IN_B_CH3 : Fld := ⟨16, 10⟩
def FLG_IN_B_EN2 : Fld := ⟨10, 1⟩
def FLG_IN_B_CH2 : Fld := ⟨0, 10⟩
/-- Address of FLG_IN_STATUS (spec/10_filigree.md R343). -/
def FLG_IN_STATUS (n x : Nat) : Nat := 0x40060800 + n * 0x1000000 + x * 0x4
def FLG_IN_STATUS_PEND : Fld := ⟨4, 4⟩
def FLG_IN_STATUS_OVERRUN : Fld := ⟨0, 1⟩
/-- Address of FLG_CELL_INA (spec/10_filigree.md R347). -/
def FLG_CELL_INA (n i : Nat) : Nat := 0x40061000 + n * 0x1000000 + i * 0x10
def FLG_CELL_INA_I1 : Fld := ⟨16, 11⟩
def FLG_CELL_INA_I0 : Fld := ⟨0, 11⟩
/-- Address of FLG_CELL_INB (spec/10_filigree.md R347). -/
def FLG_CELL_INB (n i : Nat) : Nat := 0x40061004 + n * 0x1000000 + i * 0x10
def FLG_CELL_INB_I3 : Fld := ⟨16, 11⟩
def FLG_CELL_INB_I2 : Fld := ⟨0, 11⟩
/-- Address of FLG_CELL_CFG (spec/10_filigree.md R348). -/
def FLG_CELL_CFG (n i : Nat) : Nat := 0x40061008 + n * 0x1000000 + i * 0x10
def FLG_CELL_CFG_LUT : Fld := ⟨16, 16⟩
def FLG_CELL_CFG_FILT : Fld := ⟨8, 8⟩
def FLG_CELL_CFG_EDGE : Fld := ⟨4, 2⟩
def FLG_CELL_CFG_FF : Fld := ⟨0, 2⟩
/-- Address of FLG_CELL_CTL (spec/10_filigree.md R352). -/
def FLG_CELL_CTL (n i : Nat) : Nat := 0x4006100C + n * 0x1000000 + i * 0x10
def FLG_CELL_CTL_O : Fld := ⟨3, 1⟩
def FLG_CELL_CTL_Q : Fld := ⟨2, 1⟩
def FLG_CELL_CTL_SW : Fld := ⟨1, 1⟩
def FLG_CELL_CTL_IRQ_EN : Fld := ⟨0, 1⟩
/-- Address of FLG_CELL_O (spec/10_filigree.md R350). -/
def FLG_CELL_O (n w : Nat) : Nat := 0x40061400 + n * 0x1000000 + w * 0x4
def FLG_CELL_O_O : Fld := ⟨0, 32⟩
/-- Address of FLG_OPT (spec/10_filigree.md R337). -/
def FLG_OPT (n : Nat) : Nat := 0x40061800 + n * 0x1000000
def FLG_OPT_OVR_IRQ : Fld := ⟨2, 1⟩
def FLG_OPT_DROP_IRQ : Fld := ⟨1, 1⟩
def FLG_OPT_LOCK_BERR : Fld := ⟨0, 1⟩
/-- Address of FLG_BLK_STATUS (spec/10_filigree.md R353). -/
def FLG_BLK_STATUS (n : Nat) : Nat := 0x40061804 + n * 0x1000000
def FLG_BLK_STATUS_LOCK_OFS : Fld := ⟨16, 16⟩
def FLG_BLK_STATUS_ROUTE_DIRECT : Fld := ⟨1, 1⟩
def FLG_BLK_STATUS_CFG_LOCKED_WRITE : Fld := ⟨0, 1⟩
/-- Address of FLG_SCH (spec/10_filigree.md R334). -/
def FLG_SCH (s : Nat) : Nat := 0x48300000 + s * 0x4
def FLG_SCH_GATE : Fld := ⟨24, 6⟩
def FLG_SCH_GATE_EN : Fld := ⟨23, 1⟩
def FLG_SCH_GATE_INV : Fld := ⟨22, 1⟩
def FLG_SCH_ISL : Fld := ⟨10, 3⟩
def FLG_SCH_SRC : Fld := ⟨0, 10⟩
/-- Address of FLG_WCH (spec/10_filigree.md R338). -/
def FLG_WCH (w : Nat) : Nat := 0x48300200 + w * 0x4
def FLG_WCH_GATE : Fld := ⟨24, 6⟩
def FLG_WCH_GATE_EN : Fld := ⟨23, 1⟩
def FLG_WCH_GATE_INV : Fld := ⟨22, 1⟩
/-- Address of FLG_SCHS (spec/10_filigree.md R337). -/
def FLG_SCHS (s : Nat) : Nat := 0x48300400 + s * 0x4
def FLG_SCHS_DROPS : Fld := ⟨8, 8⟩
def FLG_SCHS_GATED : Fld := ⟨1, 1⟩
def FLG_SCHS_DROPPED : Fld := ⟨0, 1⟩
/-- Address of FLG_WCHS (spec/10_filigree.md R337). -/
def FLG_WCHS (w : Nat) : Nat := 0x48300600 + w * 0x4
def FLG_WCHS_DROPS : Fld := ⟨8, 8⟩
def FLG_WCHS_GATED : Fld := ⟨1, 1⟩
def FLG_WCHS_DROPPED : Fld := ⟨0, 1⟩
/-- Address of FLG_SIN_A (spec/10_filigree.md R341). -/
def FLG_SIN_A (x : Nat) : Nat := 0x48300800 + x * 0x8
def FLG_SIN_A_EN1 : Fld := ⟨26, 1⟩
def FLG_SIN_A_CH1 : Fld := ⟨16, 10⟩
def FLG_SIN_A_EN0 : Fld := ⟨10, 1⟩
def FLG_SIN_A_CH0 : Fld := ⟨0, 10⟩
/-- Address of FLG_SIN_B (spec/10_filigree.md R341). -/
def FLG_SIN_B (x : Nat) : Nat := 0x48300804 + x * 0x8
def FLG_SIN_B_EN3 : Fld := ⟨26, 1⟩
def FLG_SIN_B_CH3 : Fld := ⟨16, 10⟩
def FLG_SIN_B_EN2 : Fld := ⟨10, 1⟩
def FLG_SIN_B_CH2 : Fld := ⟨0, 10⟩
/-- Address of FLG_SIN_STATUS (spec/10_filigree.md R343). -/
def FLG_SIN_STATUS (x : Nat) : Nat := 0x48300C00 + x * 0x4
def FLG_SIN_STATUS_PEND : Fld := ⟨4, 4⟩
def FLG_SIN_STATUS_OVERRUN : Fld := ⟨0, 1⟩
/-- Address of FLG_FIRE (spec/10_filigree.md R49). -/
def FLG_FIRE : Nat := 0x48301000
def FLG_FIRE_CHANNEL : Fld := ⟨0, 10⟩
/-- Address of FLG_GATE_SW (spec/10_filigree.md R338). -/
def FLG_GATE_SW : Nat := 0x48301004
def FLG_GATE_SW_SW : Fld := ⟨0, 32⟩
/-- Address of FLG_ROUTE_STATUS (spec/10_filigree.md R354). -/
def FLG_ROUTE_STATUS : Nat := 0x48301008
def FLG_ROUTE_STATUS_WHERE : Fld := ⟨16, 16⟩
def FLG_ROUTE_STATUS_RESULT : Fld := ⟨4, 4⟩
def FLG_ROUTE_STATUS_BUSY : Fld := ⟨0, 1⟩
/-- Address of FLG_SPINE_OPT (spec/10_filigree.md R363). -/
def FLG_SPINE_OPT : Nat := 0x4830100C
def FLG_SPINE_OPT_OVR_IRQ : Fld := ⟨2, 1⟩
def FLG_SPINE_OPT_DROP_IRQ : Fld := ⟨1, 1⟩
def FLG_SPINE_OPT_LOCK_BERR : Fld := ⟨0, 1⟩
/-- Address of FLG_SPINE_STATUS (spec/10_filigree.md R358). -/
def FLG_SPINE_STATUS : Nat := 0x48301010
def FLG_SPINE_STATUS_LOCK_OFS : Fld := ⟨16, 16⟩
def FLG_SPINE_STATUS_WAKE : Fld := ⟨4, 1⟩
def FLG_SPINE_STATUS_ROOT_FAULT : Fld := ⟨3, 1⟩
def FLG_SPINE_STATUS_REFUSED : Fld := ⟨2, 1⟩
def FLG_SPINE_STATUS_ROUTE_DIRECT : Fld := ⟨1, 1⟩
def FLG_SPINE_STATUS_CFG_LOCKED_WRITE : Fld := ⟨0, 1⟩
/-- Address of BNK_DATA (spec/13_core_execution.md R446). -/
def BNK_DATA (c b s : Nat) : Nat := 0x1000000000 + c * 0x10000 + b * 0x100 + s * 0x4
def BNK_DATA_D : Fld := ⟨0, 32⟩
/-- Address of BNK_RET (spec/13_core_execution.md R446). -/
def BNK_RET (c b s : Nat) : Nat := 0x1000000040 + c * 0x10000 + b * 0x100 + s * 0x4
def BNK_RET_D : Fld := ⟨0, 32⟩
/-- Address of BNK_STATUS (spec/13_core_execution.md R446). -/
def BNK_STATUS (c b : Nat) : Nat := 0x1000000060 + c * 0x10000 + b * 0x100
def BNK_STATUS_IEN : Fld := ⟨31, 1⟩
def BNK_STATUS_SACT : Fld := ⟨30, 1⟩
def BNK_STATUS_SLEV : Fld := ⟨28, 2⟩
def BNK_STATUS_LEVEL : Fld := ⟨26, 2⟩
def BNK_STATUS_PREV : Fld := ⟨20, 4⟩
def BNK_STATUS_RCNT : Fld := ⟨8, 8⟩
def BNK_STATUS_FLAGS : Fld := ⟨0, 5⟩
/-- Address of BNK_BPC (spec/13_core_execution.md R446). -/
def BNK_BPC (c b : Nat) : Nat := 0x1000000064 + c * 0x10000 + b * 0x100
def BNK_BPC_PC : Fld := ⟨0, 32⟩
/-- Address of BNK_SRA (spec/13_core_execution.md R446). -/
def BNK_SRA (c b : Nat) : Nat := 0x1000000068 + c * 0x10000 + b * 0x100
def BNK_SRA_PC : Fld := ⟨0, 32⟩
/-- Address of BNK_DEPTH (spec/13_core_execution.md R446). -/
def BNK_DEPTH (c b : Nat) : Nat := 0x100000006C + c * 0x10000 + b * 0x100
def BNK_DEPTH_RDEPTH : Fld := ⟨20, 4⟩
def BNK_DEPTH_RTOS : Fld := ⟨16, 3⟩
def BNK_DEPTH_DDEPTH : Fld := ⟨4, 5⟩
def BNK_DEPTH_DTOS : Fld := ⟨0, 4⟩
/-- Address of BNK_DSP (spec/13_core_execution.md R446). -/
def BNK_DSP (c b : Nat) : Nat := 0x1000000070 + c * 0x10000 + b * 0x100
def BNK_DSP_P : Fld := ⟨2, 30⟩
/-- Address of BNK_DLIM (spec/13_core_execution.md R446). -/
def BNK_DLIM (c b : Nat) : Nat := 0x1000000074 + c * 0x10000 + b * 0x100
def BNK_DLIM_P : Fld := ⟨2, 30⟩
/-- Address of BNK_DTOP (spec/13_core_execution.md R446). -/
def BNK_DTOP (c b : Nat) : Nat := 0x1000000078 + c * 0x10000 + b * 0x100
def BNK_DTOP_P : Fld := ⟨2, 30⟩
/-- Address of BNK_RSP (spec/13_core_execution.md R446). -/
def BNK_RSP (c b : Nat) : Nat := 0x100000007C + c * 0x10000 + b * 0x100
def BNK_RSP_P : Fld := ⟨2, 30⟩
/-- Address of BNK_RLIM (spec/13_core_execution.md R446). -/
def BNK_RLIM (c b : Nat) : Nat := 0x1000000080 + c * 0x10000 + b * 0x100
def BNK_RLIM_P : Fld := ⟨2, 30⟩
/-- Address of BNK_RTOP (spec/13_core_execution.md R446). -/
def BNK_RTOP (c b : Nat) : Nat := 0x1000000084 + c * 0x10000 + b * 0x100
def BNK_RTOP_P : Fld := ⟨2, 30⟩
/-- Address of BNK_DIRTY (spec/13_core_execution.md R446). -/
def BNK_DIRTY (c b : Nat) : Nat := 0x1000000088 + c * 0x10000 + b * 0x100
def BNK_DIRTY_D : Fld := ⟨0, 6⟩
/-- Address of DBG_CTL (spec/13_core_execution.md R461). -/
def DBG_CTL (c : Nat) : Nat := 0x1E0008000 + c * 0x100000000
def DBG_CTL_STEP : Fld := ⟨2, 1⟩
def DBG_CTL_RESUME : Fld := ⟨1, 1⟩
def DBG_CTL_HALT_REQ : Fld := ⟨0, 1⟩
/-- Address of DBG_STATUS (spec/13_core_execution.md R461). -/
def DBG_STATUS (c : Nat) : Nat := 0x1E0008004 + c * 0x100000000
def DBG_STATUS_CODE : Fld := ⟨12, 4⟩
def DBG_STATUS_REASON : Fld := ⟨8, 4⟩
def DBG_STATUS_HALTED : Fld := ⟨0, 1⟩
/-- Address of CORE_CTL (spec/13_core_execution.md R428). -/
def CORE_CTL (c : Nat) : Nat := 0x1E0002000 + c * 0x100000000
def CORE_CTL_NBASE : Fld := ⟨8, 4⟩
def CORE_CTL_NC_SRAM : Fld := ⟨7, 1⟩
def CORE_CTL_DCINV : Fld := ⟨6, 1⟩
def CORE_CTL_ICINV : Fld := ⟨5, 1⟩
def CORE_CTL_FIQ : Fld := ⟨4, 1⟩
def CORE_CTL_DBG_EN : Fld := ⟨3, 1⟩
def CORE_CTL_LB_EN : Fld := ⟨1, 1⟩
def CORE_CTL_DET : Fld := ⟨0, 1⟩
/-- Address of BANKWIN (spec/13_core_execution.md R445). -/
def BANKWIN (c : Nat) : Nat := 0x1E0002004 + c * 0x100000000
def BANKWIN_CURRENT : Fld := ⟨4, 1⟩
def BANKWIN_BANK : Fld := ⟨0, 4⟩
/-- Address of SENTRY (spec/13_core_execution.md R449). -/
def SENTRY (c k : Nat) : Nat := 0x1E0002010 + c * 0x100000000 + k * 0x4
def SENTRY_ADDR : Fld := ⟨1, 31⟩
def SENTRY_LEVEL : Fld := ⟨0, 1⟩
/-- Address of ESC_SP (spec/13_core_execution.md R457). -/
def ESC_SP (c : Nat) : Nat := 0x1E0002020 + c * 0x100000000
def ESC_SP_P : Fld := ⟨2, 30⟩
/-- Address of ESC_PC (spec/13_core_execution.md R457). -/
def ESC_PC (c : Nat) : Nat := 0x1E0002024 + c * 0x100000000
def ESC_PC_P : Fld := ⟨2, 30⟩
/-- Address of TVEC (spec/13_core_execution.md R453). -/
def TVEC (c : Nat) : Nat := 0x1E0002028 + c * 0x100000000
def TVEC_P : Fld := ⟨1, 31⟩
/-- Address of IVEC (spec/13_core_execution.md R453). -/
def IVEC (c : Nat) : Nat := 0x1E000202C + c * 0x100000000
def IVEC_P : Fld := ⟨1, 31⟩
/-- Address of FVEC (spec/13_core_execution.md R453). -/
def FVEC (c : Nat) : Nat := 0x1E0002030 + c * 0x100000000
def FVEC_P : Fld := ⟨1, 31⟩
/-- Address of RESET_PC (spec/13_core_execution.md R458). -/
def RESET_PC (c : Nat) : Nat := 0x1E0002034 + c * 0x100000000
def RESET_PC_P : Fld := ⟨0, 32⟩
/-- Address of CORE_STATUS (spec/13_core_execution.md R458). -/
def CORE_STATUS (c : Nat) : Nat := 0x1E0002038 + c * 0x100000000
def CORE_STATUS_RES_TRANS : Fld := ⟨16, 16⟩
def CORE_STATUS_LOCKUP : Fld := ⟨15, 1⟩
def CORE_STATUS_CUR : Fld := ⟨8, 4⟩
def CORE_STATUS_ESCALATED : Fld := ⟨3, 1⟩
def CORE_STATUS_EXHAUSTED : Fld := ⟨2, 1⟩
def CORE_STATUS_IMPRECISE_PEND : Fld := ⟨1, 1⟩
def CORE_STATUS_HALTED : Fld := ⟨0, 1⟩
/-- Address of PND_DOORBELL (spec/14_pendant.md R468). -/
def PND_DOORBELL : Nat := 0x48400000
def PND_DOORBELL_PAYLOAD : Fld := ⟨16, 16⟩
def PND_DOORBELL_SOURCE : Fld := ⟨0, 16⟩
/-- Address of PND_RING_BASE (spec/14_pendant.md R469). -/
def PND_RING_BASE (c : Nat) : Nat := 0x48400100 + c * 0x10
def PND_RING_BASE_BASE : Fld := ⟨4, 28⟩
/-- Address of PND_RING_CFG (spec/14_pendant.md R475). -/
def PND_RING_CFG (c : Nat) : Nat := 0x48400104 + c * 0x10
def PND_RING_CFG_LOG2SIZE : Fld := ⟨8, 5⟩
def PND_RING_CFG_EN : Fld := ⟨0, 1⟩
/-- Address of PND_RING_PTR (spec/14_pendant.md R474). -/
def PND_RING_PTR (c : Nat) : Nat := 0x48400108 + c * 0x10
def PND_RING_PTR_TAIL : Fld := ⟨16, 16⟩
def PND_RING_PTR_HEAD : Fld := ⟨0, 16⟩
/-- Address of PND_RING_FILL (spec/14_pendant.md R474). -/
def PND_RING_FILL (c : Nat) : Nat := 0x4840010C + c * 0x10
def PND_RING_FILL_FILL : Fld := ⟨0, 17⟩
/-- Address of PND_DROPS (spec/14_pendant.md R474). -/
def PND_DROPS (c : Nat) : Nat := 0x48400200 + c * 0x4
def PND_DROPS_DROPS : Fld := ⟨0, 32⟩
/-- Address of PND_UNROUTED (spec/14_pendant.md R465). -/
def PND_UNROUTED : Nat := 0x48400280
def PND_UNROUTED_CNT : Fld := ⟨0, 32⟩
/-- Address of PND_OPT (spec/14_pendant.md R475). -/
def PND_OPT : Nat := 0x48400300
def PND_OPT_LOCK_BERR : Fld := ⟨0, 1⟩
/-- Address of PND_BLK_STATUS (spec/14_pendant.md R465). -/
def PND_BLK_STATUS : Nat := 0x48400304
def PND_BLK_STATUS_LAST_UNROUTED : Fld := ⟨16, 16⟩
def PND_BLK_STATUS_LOCK_RING : Fld := ⟨12, 4⟩
def PND_BLK_STATUS_BAD_BASE : Fld := ⟨2, 1⟩
def PND_BLK_STATUS_UNROUTED : Fld := ⟨1, 1⟩
def PND_BLK_STATUS_CFG_LOCKED_WRITE : Fld := ⟨0, 1⟩
/-- Address of PND_ROUTE (spec/14_pendant.md R465). -/
def PND_ROUTE (s : Nat) : Nat := 0x48440000 + s * 0x4
def PND_ROUTE_EN : Fld := ⟨8, 1⟩
def PND_ROUTE_PRIO : Fld := ⟨4, 4⟩
def PND_ROUTE_OWNER : Fld := ⟨0, 4⟩
/-- Address of PND_CLAIM (spec/14_pendant.md R477). -/
def PND_CLAIM (c : Nat) : Nat := 0x1E0000000 + c * 0x100000000
def PND_CLAIM_NONE : Fld := ⟨31, 1⟩
def PND_CLAIM_DAMAGED : Fld := ⟨30, 1⟩
def PND_CLAIM_W0 : Fld := ⟨0, 30⟩
/-- Address of PND_CLM_W1 (spec/14_pendant.md R477). -/
def PND_CLM_W1 (c : Nat) : Nat := 0x1E0000004 + c * 0x100000000
def PND_CLM_W1_W : Fld := ⟨0, 32⟩
/-- Address of PND_CLM_W2 (spec/14_pendant.md R477). -/
def PND_CLM_W2 (c : Nat) : Nat := 0x1E0000008 + c * 0x100000000
def PND_CLM_W2_W : Fld := ⟨0, 32⟩
/-- Address of PND_CLM_W3 (spec/14_pendant.md R477). -/
def PND_CLM_W3 (c : Nat) : Nat := 0x1E000000C + c * 0x100000000
def PND_CLM_W3_W : Fld := ⟨0, 32⟩
/-- Address of PND_EOI (spec/14_pendant.md R480). -/
def PND_EOI (c : Nat) : Nat := 0x1E0000010 + c * 0x100000000
def PND_EOI_V : Fld := ⟨0, 32⟩
/-- Address of PND_RPRIO (spec/14_pendant.md R480). -/
def PND_RPRIO (c : Nat) : Nat := 0x1E0000014 + c * 0x100000000
def PND_RPRIO_MASK : Fld := ⟨16, 16⟩
def PND_RPRIO_DEPTH : Fld := ⟨8, 5⟩
def PND_RPRIO_NONE : Fld := ⟨4, 1⟩
def PND_RPRIO_TOP : Fld := ⟨0, 4⟩
/-- Address of PND_COAL (spec/14_pendant.md R482). -/
def PND_COAL (c : Nat) : Nat := 0x1E0000018 + c * 0x100000000
def PND_COAL_COUNT : Fld := ⟨24, 8⟩
def PND_COAL_URG_EN : Fld := ⟨20, 1⟩
def PND_COAL_URGENT : Fld := ⟨16, 4⟩
def PND_COAL_TIME : Fld := ⟨0, 10⟩
/-- Address of PND_CPU_STATUS (spec/14_pendant.md R482). -/
def PND_CPU_STATUS (c : Nat) : Nat := 0x1E000001C + c * 0x100000000
def PND_CPU_STATUS_EOI_EMPTY : Fld := ⟨25, 1⟩
def PND_CPU_STATUS_LINE : Fld := ⟨24, 1⟩
def PND_CPU_STATUS_CLAIMABLE : Fld := ⟨0, 17⟩
/-- Address of ECC_CE_CNT (spec/15_memory_ecc_arbitration.md R492). -/
def ECC_CE_CNT (a : Nat) : Nat := 0x48600000 + a * 0x4
def ECC_CE_CNT_CE : Fld := ⟨0, 32⟩
/-- Address of ECC_CE_THR (spec/15_memory_ecc_arbitration.md R494). -/
def ECC_CE_THR (a : Nat) : Nat := 0x48600040 + a * 0x4
def ECC_CE_THR_THR : Fld := ⟨0, 16⟩
/-- Address of ECC_UE_CNT (spec/15_memory_ecc_arbitration.md R496). -/
def ECC_UE_CNT (a : Nat) : Nat := 0x48600080 + a * 0x4
def ECC_UE_CNT_LASTING : Fld := ⟨16, 16⟩
def ECC_UE_CNT_TRANSIENT : Fld := ⟨0, 16⟩
/-- Address of ECC_UE_ADDR (spec/15_memory_ecc_arbitration.md R496). -/
def ECC_UE_ADDR (a : Nat) : Nat := 0x486000C0 + a * 0x4
def ECC_UE_ADDR_ADDR : Fld := ⟨3, 29⟩
/-- Address of ECC_STATUS (spec/15_memory_ecc_arbitration.md R493). -/
def ECC_STATUS : Nat := 0x48600100
def ECC_STATUS_UE_SEEN : Fld := ⟨16, 16⟩
def ECC_STATUS_LOG_OVF : Fld := ⟨0, 16⟩
/-- Address of ECC_SCRUB_CTL (spec/15_memory_ecc_arbitration.md R499). -/
def ECC_SCRUB_CTL : Nat := 0x48600200
def ECC_SCRUB_CTL_INT : Fld := ⟨12, 20⟩
def ECC_SCRUB_CTL_EN : Fld := ⟨0, 1⟩
/-- Address of ECC_SCRUB_STATUS (spec/15_memory_ecc_arbitration.md R500). -/
def ECC_SCRUB_STATUS : Nat := 0x48600204
def ECC_SCRUB_STATUS_PASSES : Fld := ⟨16, 16⟩
def ECC_SCRUB_STATUS_SCRUB_LATE : Fld := ⟨5, 1⟩
def ECC_SCRUB_STATUS_ARRAY : Fld := ⟨0, 4⟩
/-- Address of ECC_SCRUB_POS (spec/15_memory_ecc_arbitration.md R499). -/
def ECC_SCRUB_POS : Nat := 0x48600208
def ECC_SCRUB_POS_POS : Fld := ⟨0, 32⟩
/-- Address of ECC_LOG_ADDR (spec/15_memory_ecc_arbitration.md R493). -/
def ECC_LOG_ADDR (a e : Nat) : Nat := 0x48601000 + a * 0x100 + e * 0x10
def ECC_LOG_ADDR_ADDR : Fld := ⟨3, 29⟩
def ECC_LOG_ADDR_VALID : Fld := ⟨0, 1⟩
/-- Address of ECC_LOG_INFO (spec/15_memory_ecc_arbitration.md R493). -/
def ECC_LOG_INFO (a e : Nat) : Nat := 0x48601004 + a * 0x100 + e * 0x10
def ECC_LOG_INFO_HITS : Fld := ⟨24, 8⟩
def ECC_LOG_INFO_REQ : Fld := ⟨16, 4⟩
def ECC_LOG_INFO_BITS : Fld := ⟨0, 2⟩
/-- Address of ARB_CREDIT (spec/15_memory_ecc_arbitration.md R503). -/
def ARB_CREDIT (r : Nat) : Nat := 0x48700000 + r * 0x4
def ARB_CREDIT_CREDIT : Fld := ⟨0, 8⟩
/-- Address of ARB_GRANTS (spec/15_memory_ecc_arbitration.md R503). -/
def ARB_GRANTS (r : Nat) : Nat := 0x48700040 + r * 0x4
def ARB_GRANTS_CNT : Fld := ⟨0, 32⟩
/-- Address of ARB_MAXWAIT (spec/15_memory_ecc_arbitration.md R503). -/
def ARB_MAXWAIT (r : Nat) : Nat := 0x48700080 + r * 0x4
def ARB_MAXWAIT_CNT : Fld := ⟨0, 32⟩
/-- Address of ARB_PREEMPT (spec/15_memory_ecc_arbitration.md R506). -/
def ARB_PREEMPT : Nat := 0x48700100
def ARB_PREEMPT_DEBUG : Fld := ⟨16, 16⟩
def ARB_PREEMPT_SIGNET : Fld := ⟨0, 16⟩
/-- Address of ARB_STATUS (spec/15_memory_ecc_arbitration.md R507). -/
def ARB_STATUS : Nat := 0x48700104
def ARB_STATUS_SUM : Fld := ⟨8, 8⟩
def ARB_STATUS_BAD_SUM : Fld := ⟨0, 1⟩
/-- Address of DMA_CH_DESC (spec/16_dma.md R518). -/
def DMA_CH_DESC (e c : Nat) : Nat := 0x48500000 + e * 0x10000 + c * 0x40
def DMA_CH_DESC_ADDR : Fld := ⟨4, 28⟩
/-- Address of DMA_CH_CFG (spec/16_dma.md R517). -/
def DMA_CH_CFG (e c : Nat) : Nat := 0x48500004 + e * 0x10000 + c * 0x40
def DMA_CH_CFG_LINE : Fld := ⟨8, 7⟩
def DMA_CH_CFG_TRIG : Fld := ⟨0, 2⟩
/-- Address of DMA_CH_CTL (spec/16_dma.md R518). -/
def DMA_CH_CTL (e c : Nat) : Nat := 0x48500008 + e * 0x10000 + c * 0x40
def DMA_CH_CTL_GO : Fld := ⟨1, 1⟩
def DMA_CH_CTL_ARM : Fld := ⟨0, 1⟩
/-- Address of DMA_CH_STATUS (spec/16_dma.md R525). -/
def DMA_CH_STATUS (e c : Nat) : Nat := 0x4850000C + e * 0x10000 + c * 0x40
def DMA_CH_STATUS_DONE : Fld := ⟨5, 1⟩
def DMA_CH_STATUS_ERR : Fld := ⟨4, 1⟩
def DMA_CH_STATUS_STOPPED : Fld := ⟨3, 1⟩
def DMA_CH_STATUS_TRG_OVR : Fld := ⟨2, 1⟩
def DMA_CH_STATUS_PENDING : Fld := ⟨1, 1⟩
def DMA_CH_STATUS_ACTIVE : Fld := ⟨0, 1⟩
/-- Address of DMA_CH_CUR (spec/16_dma.md R518). -/
def DMA_CH_CUR (e c : Nat) : Nat := 0x48500010 + e * 0x10000 + c * 0x40
def DMA_CH_CUR_ADDR : Fld := ⟨4, 28⟩
/-- Address of DMA_CH_REM (spec/16_dma.md R524). -/
def DMA_CH_REM (e c : Nat) : Nat := 0x48500014 + e * 0x10000 + c * 0x40
def DMA_CH_REM_REM : Fld := ⟨0, 17⟩
/-- Address of DMA_ERR_ADDR (spec/16_dma.md R523). -/
def DMA_ERR_ADDR (e c : Nat) : Nat := 0x48500018 + e * 0x10000 + c * 0x40
def DMA_ERR_ADDR_ADDR : Fld := ⟨0, 32⟩
/-- Address of DMA_ERR_DIR (spec/16_dma.md R523). -/
def DMA_ERR_DIR (e c : Nat) : Nat := 0x4850001C + e * 0x10000 + c * 0x40
def DMA_ERR_DIR_BERR : Fld := ⟨8, 4⟩
def DMA_ERR_DIR_DIR : Fld := ⟨0, 2⟩
/-- Address of DMA_ENG_STATUS (spec/16_dma.md R519). -/
def DMA_ENG_STATUS (e : Nat) : Nat := 0x48500800 + e * 0x10000
def DMA_ENG_STATUS_CH : Fld := ⟨16, 4⟩
def DMA_ENG_STATUS_BUSY : Fld := ⟨0, 1⟩
/-- Address of SGN_STATUS (spec/17_signet_ledger.md R553). -/
def SGN_STATUS : Nat := 0x48800000
def SGN_STATUS_CACHE_FULL : Fld := ⟨11, 1⟩
def SGN_STATUS_DEVICE_WORN : Fld := ⟨10, 1⟩
def SGN_STATUS_BUDGET_EMPTY : Fld := ⟨9, 1⟩
def SGN_STATUS_REFRESH_LATE : Fld := ⟨8, 1⟩
def SGN_STATUS_LG_FOUND : Fld := ⟨7, 1⟩
def SGN_STATUS_WORN_SEEN : Fld := ⟨6, 1⟩
def SGN_STATUS_HUP_FAIL : Fld := ⟨5, 1⟩
def SGN_STATUS_TESTING : Fld := ⟨4, 1⟩
def SGN_STATUS_HUP_LOW : Fld := ⟨3, 1⟩
def SGN_STATUS_LG_OK : Fld := ⟨2, 1⟩
def SGN_STATUS_BUSY : Fld := ⟨1, 1⟩
def SGN_STATUS_READY : Fld := ⟨0, 1⟩
/-- Address of SGN_HUP_V (spec/17_signet_ledger.md R553). -/
def SGN_HUP_V : Nat := 0x48800004
def SGN_HUP_V_V : Fld := ⟨0, 16⟩
/-- Address of SGN_HUP_DIV (spec/17_signet_ledger.md R553). -/
def SGN_HUP_DIV : Nat := 0x48800008
def SGN_HUP_DIV_DIV : Fld := ⟨0, 16⟩
/-- Address of SGN_HUP_VMIN (spec/17_signet_ledger.md R553). -/
def SGN_HUP_VMIN : Nat := 0x4880000C
def SGN_HUP_VMIN_VMIN : Fld := ⟨0, 16⟩
/-- Address of SGN_HUP_C (spec/17_signet_ledger.md R553). -/
def SGN_HUP_C : Nat := 0x48800010
def SGN_HUP_C_C : Fld := ⟨0, 32⟩
/-- Address of SGN_HUP_TEST (spec/17_signet_ledger.md R553). -/
def SGN_HUP_TEST : Nat := 0x48800014
def SGN_HUP_TEST_GO : Fld := ⟨31, 1⟩
def SGN_HUP_TEST_TEST_DAYS : Fld := ⟨16, 8⟩
def SGN_HUP_TEST_I_MA : Fld := ⟨0, 16⟩
/-- Address of SGN_HUP_TLIM (spec/17_signet_ledger.md R553). -/
def SGN_HUP_TLIM : Nat := 0x48800018
def SGN_HUP_TLIM_TMAX : Fld := ⟨16, 16⟩
def SGN_HUP_TLIM_TEST_DV : Fld := ⟨0, 16⟩
/-- Address of SGN_HUP_E (spec/17_signet_ledger.md R553). -/
def SGN_HUP_E : Nat := 0x4880001C
def SGN_HUP_E_E : Fld := ⟨0, 32⟩
/-- Address of SGN_EXT (spec/17_signet_ledger.md R553). -/
def SGN_EXT : Nat := 0x48800020
def SGN_EXT_EXT_MW : Fld := ⟨0, 16⟩
/-- Address of SGN_LG (spec/17_signet_ledger.md R553). -/
def SGN_LG : Nat := 0x48800024
def SGN_LG_E_LG : Fld := ⟨8, 24⟩
def SGN_LG_M : Fld := ⟨0, 8⟩
/-- Address of SGN_BUDGET (spec/17_signet_ledger.md R553). -/
def SGN_BUDGET : Nat := 0x48800028
def SGN_BUDGET_RATE : Fld := ⟨0, 16⟩
/-- Address of SGN_BUCKET (spec/17_signet_ledger.md R553). -/
def SGN_BUCKET : Nat := 0x4880002C
def SGN_BUCKET_TOKENS : Fld := ⟨0, 32⟩
/-- Address of SGN_WEAR_LIMIT (spec/17_signet_ledger.md R553). -/
def SGN_WEAR_LIMIT : Nat := 0x48800030
def SGN_WEAR_LIMIT_LIMIT : Fld := ⟨0, 32⟩
/-- Address of SGN_LEVEL_GAP (spec/17_signet_ledger.md R553). -/
def SGN_LEVEL_GAP : Nat := 0x48800034
def SGN_LEVEL_GAP_GAP : Fld := ⟨0, 32⟩
/-- Address of SGN_WEAR_MAX (spec/17_signet_ledger.md R553). -/
def SGN_WEAR_MAX : Nat := 0x48800038
def SGN_WEAR_MAX_MAX : Fld := ⟨0, 32⟩
/-- Address of SGN_FREE (spec/17_signet_ledger.md R553). -/
def SGN_FREE : Nat := 0x4880003C
def SGN_FREE_FREE : Fld := ⟨0, 19⟩
/-- Address of SGN_RETIRED (spec/17_signet_ledger.md R553). -/
def SGN_RETIRED : Nat := 0x48800040
def SGN_RETIRED_RETIRED : Fld := ⟨0, 19⟩
/-- Address of SGN_REFRESH (spec/17_signet_ledger.md R553). -/
def SGN_REFRESH : Nat := 0x48800044
def SGN_REFRESH_REFRESH_DAYS : Fld := ⟨0, 16⟩
/-- Address of SGN_CNT (spec/17_signet_ledger.md R553). -/
def SGN_CNT : Nat := 0x48800048
def SGN_CNT_VERIFY_RETRY : Fld := ⟨16, 16⟩
def SGN_CNT_HOLDUP_REFUSED : Fld := ⟨0, 16⟩
/-- Address of SGN_SEQ_LO (spec/17_signet_ledger.md R553). -/
def SGN_SEQ_LO : Nat := 0x48800050
def SGN_SEQ_LO_SEQ : Fld := ⟨0, 32⟩
/-- Address of SGN_SEQ_HI (spec/17_signet_ledger.md R553). -/
def SGN_SEQ_HI : Nat := 0x48800054
def SGN_SEQ_HI_SEQ : Fld := ⟨0, 16⟩
/-- Address of MBX_REQ (spec/18_chozer_mailboxes.md R558). -/
def MBX_REQ (m k : Nat) : Nat := 0x48900000 + m * 0x100 + k * 0x4
def MBX_REQ_W : Fld := ⟨0, 32⟩
/-- Address of MBX_RPL (spec/18_chozer_mailboxes.md R559). -/
def MBX_RPL (m k : Nat) : Nat := 0x48900040 + m * 0x100 + k * 0x4
def MBX_RPL_W : Fld := ⟨0, 32⟩
/-- Address of MBX_STATUS (spec/18_chozer_mailboxes.md R558). -/
def MBX_STATUS (m : Nat) : Nat := 0x48900080 + m * 0x100
def MBX_STATUS_OVERRUN : Fld := ⟨2, 1⟩
def MBX_STATUS_DONE : Fld := ⟨1, 1⟩
def MBX_STATUS_BUSY : Fld := ⟨0, 1⟩
/-- Address of MBX_OWNER (spec/18_chozer_mailboxes.md R556). -/
def MBX_OWNER (m : Nat) : Nat := 0x48900084 + m * 0x100
def MBX_OWNER_OWNER : Fld := ⟨0, 3⟩
/-- Address of CHN_CTL (spec/19_chain_and_can.md R614). -/
def CHN_CTL (p : Nat) : Nat := 0x48A00000 + p * 0x10000
def CHN_CTL_PROMISC : Fld := ⟨9, 1⟩
def CHN_CTL_SGMII : Fld := ⟨8, 1⟩
def CHN_CTL_SPEED : Fld := ⟨4, 2⟩
def CHN_CTL_EN : Fld := ⟨0, 1⟩
/-- Address of CHN_STATUS (spec/19_chain_and_can.md R614). -/
def CHN_STATUS (p : Nat) : Nat := 0x48A00004 + p * 0x10000
def CHN_STATUS_CFG_LOCKED_WRITE : Fld := ⟨4, 1⟩
def CHN_STATUS_GCL_ERR : Fld := ⟨3, 1⟩
def CHN_STATUS_RX_OVF : Fld := ⟨2, 1⟩
def CHN_STATUS_TX_ERR : Fld := ⟨1, 1⟩
def CHN_STATUS_LINK : Fld := ⟨0, 1⟩
/-- Address of CHN_MAC_LO (spec/19_chain_and_can.md R593). -/
def CHN_MAC_LO (p : Nat) : Nat := 0x48A00008 + p * 0x10000
def CHN_MAC_LO_MAC : Fld := ⟨0, 32⟩
/-- Address of CHN_MAC_HI (spec/19_chain_and_can.md R593). -/
def CHN_MAC_HI (p : Nat) : Nat := 0x48A0000C + p * 0x10000
def CHN_MAC_HI_MAC : Fld := ⟨0, 16⟩
/-- Address of CHN_PCPMAP (spec/19_chain_and_can.md R593). -/
def CHN_PCPMAP (p : Nat) : Nat := 0x48A00010 + p * 0x10000
def CHN_PCPMAP_Q7 : Fld := ⟨28, 3⟩
def CHN_PCPMAP_Q6 : Fld := ⟨24, 3⟩
def CHN_PCPMAP_Q5 : Fld := ⟨20, 3⟩
def CHN_PCPMAP_Q4 : Fld := ⟨16, 3⟩
def CHN_PCPMAP_Q3 : Fld := ⟨12, 3⟩
def CHN_PCPMAP_Q2 : Fld := ⟨8, 3⟩
def CHN_PCPMAP_Q1 : Fld := ⟨4, 3⟩
def CHN_PCPMAP_Q0 : Fld := ⟨0, 3⟩
/-- Address of CHN_IRQ_EN (spec/19_chain_and_can.md R616). -/
def CHN_IRQ_EN (p : Nat) : Nat := 0x48A00014 + p * 0x10000
def CHN_IRQ_EN_EN : Fld := ⟨0, 5⟩
/-- Address of CHN_RXR_BASE (spec/19_chain_and_can.md R592). -/
def CHN_RXR_BASE (p : Nat) : Nat := 0x48A00020 + p * 0x10000
def CHN_RXR_BASE_BASE : Fld := ⟨4, 28⟩
/-- Address of CHN_RXR_CFG (spec/19_chain_and_can.md R592). -/
def CHN_RXR_CFG (p : Nat) : Nat := 0x48A00024 + p * 0x10000
def CHN_RXR_CFG_LOG2 : Fld := ⟨8, 4⟩
/-- Address of CHN_RXR_PTR (spec/19_chain_and_can.md R592). -/
def CHN_RXR_PTR (p : Nat) : Nat := 0x48A00028 + p * 0x10000
def CHN_RXR_PTR_PTR : Fld := ⟨0, 10⟩
/-- Address of CHN_TXR_BASE (spec/19_chain_and_can.md R592). -/
def CHN_TXR_BASE (p q : Nat) : Nat := 0x48A00100 + p * 0x10000 + q * 0x10
def CHN_TXR_BASE_BASE : Fld := ⟨4, 28⟩
/-- Address of CHN_TXR_CFG (spec/19_chain_and_can.md R592). -/
def CHN_TXR_CFG (p q : Nat) : Nat := 0x48A00104 + p * 0x10000 + q * 0x10
def CHN_TXR_CFG_LOG2 : Fld := ⟨8, 4⟩
/-- Address of CHN_TXR_PTR (spec/19_chain_and_can.md R592). -/
def CHN_TXR_PTR (p q : Nat) : Nat := 0x48A00108 + p * 0x10000 + q * 0x10
def CHN_TXR_PTR_PTR : Fld := ⟨0, 10⟩
/-- Address of CHN_TXR_KICK (spec/19_chain_and_can.md R592). -/
def CHN_TXR_KICK (p q : Nat) : Nat := 0x48A0010C + p * 0x10000 + q * 0x10
def CHN_TXR_KICK_K : Fld := ⟨0, 32⟩
/-- Address of CHN_GCL_CTL (spec/19_chain_and_can.md R595). -/
def CHN_GCL_CTL (p : Nat) : Nat := 0x48A00200 + p * 0x10000
def CHN_GCL_CTL_PENDING : Fld := ⟨2, 1⟩
def CHN_GCL_CTL_APPLY : Fld := ⟨1, 1⟩
def CHN_GCL_CTL_GATE_EN : Fld := ⟨0, 1⟩
/-- Address of CHN_GCL_CYCLE (spec/19_chain_and_can.md R594). -/
def CHN_GCL_CYCLE (p : Nat) : Nat := 0x48A00204 + p * 0x10000
def CHN_GCL_CYCLE_CYCLE : Fld := ⟨0, 30⟩
/-- Address of CHN_GCL_BASE_LO (spec/19_chain_and_can.md R594). -/
def CHN_GCL_BASE_LO (p : Nat) : Nat := 0x48A00208 + p * 0x10000
def CHN_GCL_BASE_LO_B : Fld := ⟨0, 32⟩
/-- Address of CHN_GCL_BASE_HI (spec/19_chain_and_can.md R594). -/
def CHN_GCL_BASE_HI (p : Nat) : Nat := 0x48A0020C + p * 0x10000
def CHN_GCL_BASE_HI_B : Fld := ⟨0, 32⟩
/-- Address of CHN_GCL_LEN (spec/19_chain_and_can.md R594). -/
def CHN_GCL_LEN (p : Nat) : Nat := 0x48A00210 + p * 0x10000
def CHN_GCL_LEN_LEN : Fld := ⟨0, 7⟩
/-- Address of CHN_GCL (spec/19_chain_and_can.md R594). -/
def CHN_GCL (p i : Nat) : Nat := 0x48A00400 + p * 0x10000 + i * 0x4
def CHN_GCL_GATES : Fld := ⟨24, 8⟩
def CHN_GCL_INTERVAL : Fld := ⟨0, 24⟩
/-- Address of CHN_SW_CTL (spec/19_chain_and_can.md R600). -/
def CHN_SW_CTL : Nat := 0x48A40000
def CHN_SW_CTL_BLOCK1 : Fld := ⟨2, 1⟩
def CHN_SW_CTL_FWD_SAFE : Fld := ⟨1, 1⟩
def CHN_SW_CTL_EN : Fld := ⟨0, 1⟩
/-- Address of CHN_SW_STATUS (spec/19_chain_and_can.md R600). -/
def CHN_SW_STATUS : Nat := 0x48A40004
def CHN_SW_STATUS_LOOP : Fld := ⟨1, 1⟩
def CHN_SW_STATUS_FWD : Fld := ⟨0, 1⟩
/-- Address of CHN_SW_CUT (spec/19_chain_and_can.md R599). -/
def CHN_SW_CUT : Nat := 0x48A40008
def CHN_SW_CUT_CNT : Fld := ⟨0, 32⟩
/-- Address of CHN_SW_STOMP (spec/19_chain_and_can.md R599). -/
def CHN_SW_STOMP : Nat := 0x48A4000C
def CHN_SW_STOMP_CNT : Fld := ⟨0, 32⟩
/-- Address of CHN_ETYPE (spec/19_chain_and_can.md R603). -/
def CHN_ETYPE : Nat := 0x48A40010
def CHN_ETYPE_T : Fld := ⟨0, 16⟩
/-- Address of CHN_SW_AGE (spec/19_chain_and_can.md R598). -/
def CHN_SW_AGE : Nat := 0x48A40014
def CHN_SW_AGE_S : Fld := ⟨0, 16⟩
/-- Address of CAN_CTL (spec/19_chain_and_can.md R614). -/
def CAN_CTL (c : Nat) : Nat := 0x48B00000 + c * 0x10000
def CAN_CTL_ONE_SHOT : Fld := ⟨6, 1⟩
def CAN_CTL_TDC_EN : Fld := ⟨5, 1⟩
def CAN_CTL_LISTEN : Fld := ⟨4, 1⟩
def CAN_CTL_AUTO_RECOV : Fld := ⟨3, 1⟩
def CAN_CTL_BRS_EN : Fld := ⟨2, 1⟩
def CAN_CTL_FD_EN : Fld := ⟨1, 1⟩
def CAN_CTL_INIT : Fld := ⟨0, 1⟩
/-- Address of CAN_NBT (spec/19_chain_and_can.md R611). -/
def CAN_NBT (c : Nat) : Nat := 0x48B00004 + c * 0x10000
def CAN_NBT_TSEG1 : Fld := ⟨24, 8⟩
def CAN_NBT_TSEG2 : Fld := ⟨16, 8⟩
def CAN_NBT_SJW : Fld := ⟨8, 8⟩
/-- Address of CAN_NTQ (spec/19_chain_and_can.md R611). -/
def CAN_NTQ (c : Nat) : Nat := 0x48B00008 + c * 0x10000
def CAN_NTQ_Q : Fld := ⟨0, 24⟩
/-- Address of CAN_DBT (spec/19_chain_and_can.md R611). -/
def CAN_DBT (c : Nat) : Nat := 0x48B0000C + c * 0x10000
def CAN_DBT_TSEG1 : Fld := ⟨24, 8⟩
def CAN_DBT_TSEG2 : Fld := ⟨16, 8⟩
def CAN_DBT_SJW : Fld := ⟨8, 8⟩
/-- Address of CAN_DTQ (spec/19_chain_and_can.md R611). -/
def CAN_DTQ (c : Nat) : Nat := 0x48B00010 + c * 0x10000
def CAN_DTQ_Q : Fld := ⟨0, 24⟩
/-- Address of CAN_TDCO (spec/19_chain_and_can.md R611). -/
def CAN_TDCO (c : Nat) : Nat := 0x48B00014 + c * 0x10000
def CAN_TDCO_O : Fld := ⟨0, 8⟩
/-- Address of CAN_STATUS (spec/19_chain_and_can.md R613). -/
def CAN_STATUS (c : Nat) : Nat := 0x48B00018 + c * 0x10000
def CAN_STATUS_CFG_LOCKED_WRITE : Fld := ⟨5, 1⟩
def CAN_STATUS_RX_OVF : Fld := ⟨4, 1⟩
def CAN_STATUS_BUS_OFF : Fld := ⟨3, 1⟩
def CAN_STATUS_PASSIVE : Fld := ⟨2, 1⟩
def CAN_STATUS_WARN : Fld := ⟨1, 1⟩
def CAN_STATUS_SYNCED : Fld := ⟨0, 1⟩
/-- Address of CAN_ERRCNT (spec/19_chain_and_can.md R613). -/
def CAN_ERRCNT (c : Nat) : Nat := 0x48B0001C + c * 0x10000
def CAN_ERRCNT_TEC : Fld := ⟨16, 9⟩
def CAN_ERRCNT_REC : Fld := ⟨0, 8⟩
/-- Address of CAN_IRQ_EN (spec/19_chain_and_can.md R616). -/
def CAN_IRQ_EN (c : Nat) : Nat := 0x48B00020 + c * 0x10000
def CAN_IRQ_EN_EN : Fld := ⟨0, 5⟩
/-- Address of CAN_MGMT (spec/19_chain_and_can.md R609). -/
def CAN_MGMT (c : Nat) : Nat := 0x48B00024 + c * 0x10000
def CAN_MGMT_EN : Fld := ⟨31, 1⟩
def CAN_MGMT_ID : Fld := ⟨0, 29⟩
/-- Address of CAN_TXREQ (spec/19_chain_and_can.md R612). -/
def CAN_TXREQ (c : Nat) : Nat := 0x48B00040 + c * 0x10000
def CAN_TXREQ_B : Fld := ⟨0, 16⟩
/-- Address of CAN_TXPEND (spec/19_chain_and_can.md R612). -/
def CAN_TXPEND (c : Nat) : Nat := 0x48B00044 + c * 0x10000
def CAN_TXPEND_B : Fld := ⟨0, 16⟩
/-- Address of CAN_TXABORT (spec/19_chain_and_can.md R612). -/
def CAN_TXABORT (c : Nat) : Nat := 0x48B00048 + c * 0x10000
def CAN_TXABORT_B : Fld := ⟨0, 16⟩
/-- Address of CAN_RXPOP (spec/19_chain_and_can.md R612). -/
def CAN_RXPOP (c : Nat) : Nat := 0x48B00050 + c * 0x10000
def CAN_RXPOP_B : Fld := ⟨0, 32⟩
/-- Address of CAN_RXLVL (spec/19_chain_and_can.md R612). -/
def CAN_RXLVL (c : Nat) : Nat := 0x48B00054 + c * 0x10000
def CAN_RXLVL_L : Fld := ⟨0, 6⟩
/-- Address of CAN_FLT_ID (spec/19_chain_and_can.md R612). -/
def CAN_FLT_ID (c f : Nat) : Nat := 0x48B00100 + c * 0x10000 + f * 0x8
def CAN_FLT_ID_EN : Fld := ⟨31, 1⟩
def CAN_FLT_ID_IDE : Fld := ⟨30, 1⟩
def CAN_FLT_ID_ID : Fld := ⟨0, 29⟩
/-- Address of CAN_FLT_MASK (spec/19_chain_and_can.md R612). -/
def CAN_FLT_MASK (c f : Nat) : Nat := 0x48B00104 + c * 0x10000 + f * 0x8
def CAN_FLT_MASK_M : Fld := ⟨0, 29⟩
/-- Address of CAN_TXB (spec/19_chain_and_can.md R612). -/
def CAN_TXB (c b w : Nat) : Nat := 0x48B01000 + c * 0x10000 + b * 0x50 + w * 0x4
def CAN_TXB_W : Fld := ⟨0, 32⟩
/-- Address of CAN_RXF (spec/19_chain_and_can.md R612). -/
def CAN_RXF (c w : Nat) : Nat := 0x48B02000 + c * 0x10000 + w * 0x4
def CAN_RXF_W : Fld := ⟨0, 32⟩
/-- Address of PWR_MODE (spec/20_modes_power_boot.md R618). -/
def PWR_MODE : Nat := 0x48C00000
def PWR_MODE_TRANS : Fld := ⟨24, 1⟩
def PWR_MODE_RUN_MASK : Fld := ⟨16, 6⟩
def PWR_MODE_SAFE_MASK : Fld := ⟨8, 6⟩
def PWR_MODE_MODE : Fld := ⟨0, 3⟩
/-- Address of PWR_SAFE_CAUSE (spec/20_modes_power_boot.md R622). -/
def PWR_SAFE_CAUSE (n : Nat) : Nat := 0x48C00010 + n * 0x4
def PWR_SAFE_CAUSE_WATCHDOG : Fld := ⟨8, 1⟩
def PWR_SAFE_CAUSE_SUPPLY : Fld := ⟨7, 1⟩
def PWR_SAFE_CAUSE_ROOT : Fld := ⟨6, 1⟩
def PWR_SAFE_CAUSE_BEAM : Fld := ⟨5, 1⟩
def PWR_SAFE_CAUSE_LOCKUP : Fld := ⟨4, 1⟩
def PWR_SAFE_CAUSE_NO_SPARE : Fld := ⟨3, 1⟩
def PWR_SAFE_CAUSE_MISS_LIMIT : Fld := ⟨2, 1⟩
def PWR_SAFE_CAUSE_REQUEST : Fld := ⟨1, 1⟩
/-- Address of PWR_DOM (spec/20_modes_power_boot.md R630). -/
def PWR_DOM (w : Nat) : Nat := 0x48C00100 + w * 0x4
def PWR_DOM_D : Fld := ⟨0, 32⟩
/-- Address of PWR_SUP_STATUS (spec/20_modes_power_boot.md R625). -/
def PWR_SUP_STATUS : Nat := 0x48C00200
def PWR_SUP_STATUS_PFAIL : Fld := ⟨24, 1⟩
def PWR_SUP_STATUS_VIO_FAULT : Fld := ⟨16, 8⟩
def PWR_SUP_STATUS_FAULT : Fld := ⟨12, 4⟩
def PWR_SUP_STATUS_VIO_WARN : Fld := ⟨8, 4⟩
def PWR_SUP_STATUS_WARN : Fld := ⟨0, 4⟩
/-- Address of PWR_RST_CAUSE (spec/20_modes_power_boot.md R629). -/
def PWR_RST_CAUSE : Nat := 0x48C00300
def PWR_RST_CAUSE_WAKE : Fld := ⟨2, 1⟩
def PWR_RST_CAUSE_PIN : Fld := ⟨1, 1⟩
def PWR_RST_CAUSE_POR : Fld := ⟨0, 1⟩
/-- Address of PWR_BOOT (spec/20_modes_power_boot.md R632). -/
def PWR_BOOT : Nat := 0x48C00400
def PWR_BOOT_NOIMG : Fld := ⟨24, 8⟩
def PWR_BOOT_BOOT_FAIL : Fld := ⟨16, 1⟩
def PWR_BOOT_CODE : Fld := ⟨8, 8⟩
def PWR_BOOT_STAGE : Fld := ⟨0, 4⟩
/-- Address of PWR_WAKE (spec/20_modes_power_boot.md R636). -/
def PWR_WAKE : Nat := 0x48C00500
def PWR_WAKE_BY_EVENT : Fld := ⟨2, 1⟩
def PWR_WAKE_BY_PIN : Fld := ⟨1, 1⟩
def PWR_WAKE_PIN_EN : Fld := ⟨0, 1⟩
/-- Address of PWR_WDOG_CTL (spec/21_failure_containment.md R643). -/
def PWR_WDOG_CTL : Nat := 0x48C00600
def PWR_WDOG_CTL_ALT_OWNER : Fld := ⟨8, 3⟩
def PWR_WDOG_CTL_EN : Fld := ⟨0, 1⟩
/-- Address of PWR_WDOG_KICK (spec/21_failure_containment.md R643). -/
def PWR_WDOG_KICK : Nat := 0x48C00604
def PWR_WDOG_KICK_K : Fld := ⟨0, 32⟩
/-- Address of PWR_WDOG_STATUS (spec/21_failure_containment.md R644). -/
def PWR_WDOG_STATUS : Nat := 0x48C00608
def PWR_WDOG_STATUS_EXPIRIES : Fld := ⟨16, 16⟩
def PWR_WDOG_STATUS_PAUSED : Fld := ⟨1, 1⟩
def PWR_WDOG_STATUS_EXPIRED : Fld := ⟨0, 1⟩
/-- Address of CAP (spec/20_modes_power_boot.md R637). -/
def CAP (k : Nat) : Nat := 0x4F000000 + k * 0x4
def CAP_W : Fld := ⟨0, 32⟩

/-- The PWR registers. -/
def regsPWR : List RegDesc := [
  ⟨0x48C00800, [], 0x640A0000,
    [⟨⟨24, 8⟩, .RW⟩, ⟨⟨16, 8⟩, .RW⟩, ⟨⟨8, 7⟩, .RW⟩, ⟨⟨2, 1⟩, .RW⟩, ⟨⟨1, 1⟩, .RW⟩, ⟨⟨0, 1⟩, .RW⟩]⟩,
  ⟨0x48C00804, [], 0,
    [⟨⟨16, 10⟩, .RW⟩, ⟨⟨0, 10⟩, .RW⟩]⟩,
  ⟨0x48C00808, [], 0x0,
    [⟨⟨16, 16⟩, .RO⟩, ⟨⟨14, 1⟩, .RO⟩, ⟨⟨13, 1⟩, .W1C⟩, ⟨⟨12, 1⟩, .RO⟩, ⟨⟨11, 1⟩, .W1C⟩, ⟨⟨10, 1⟩, .RO⟩,
     ⟨⟨0, 10⟩, .RO⟩]⟩,
  ⟨0x48C00000, [], 0x1,
    [⟨⟨24, 1⟩, .RO⟩, ⟨⟨16, 6⟩, .RO⟩, ⟨⟨8, 6⟩, .RO⟩, ⟨⟨0, 3⟩, .RO⟩]⟩,
  ⟨0x48C00010, [(6, 0x4)], 0x0,
    [⟨⟨8, 1⟩, .W1C⟩, ⟨⟨7, 1⟩, .W1C⟩, ⟨⟨6, 1⟩, .W1C⟩, ⟨⟨5, 1⟩, .W1C⟩, ⟨⟨4, 1⟩, .W1C⟩, ⟨⟨3, 1⟩, .W1C⟩,
     ⟨⟨2, 1⟩, .W1C⟩, ⟨⟨1, 1⟩, .W1C⟩]⟩,
  ⟨0x48C00100, [(4, 0x4)], 0x0,
    [⟨⟨0, 32⟩, .RO⟩]⟩,
  ⟨0x48C00200, [], 0x0,
    [⟨⟨24, 1⟩, .RO⟩, ⟨⟨16, 8⟩, .RO⟩, ⟨⟨12, 4⟩, .RO⟩, ⟨⟨8, 4⟩, .W1C⟩, ⟨⟨0, 4⟩, .W1C⟩]⟩,
  ⟨0x48C00300, [], 0,
    [⟨⟨2, 1⟩, .W1C⟩, ⟨⟨1, 1⟩, .W1C⟩, ⟨⟨0, 1⟩, .W1C⟩]⟩,
  ⟨0x48C00400, [], 0x0,
    [⟨⟨24, 8⟩, .RO⟩, ⟨⟨16, 1⟩, .RO⟩, ⟨⟨8, 8⟩, .RO⟩, ⟨⟨0, 4⟩, .RO⟩]⟩,
  ⟨0x48C00500, [], 0x0,
    [⟨⟨2, 1⟩, .W1C⟩, ⟨⟨1, 1⟩, .W1C⟩, ⟨⟨0, 1⟩, .RW⟩]⟩,
  ⟨0x48C00600, [], 0x0,
    [⟨⟨8, 3⟩, .RW⟩, ⟨⟨0, 1⟩, .RW⟩]⟩,
  ⟨0x48C00604, [], 0x0,
    [⟨⟨0, 32⟩, .WO⟩]⟩,
  ⟨0x48C00608, [], 0x0,
    [⟨⟨16, 16⟩, .RO⟩, ⟨⟨1, 1⟩, .RO⟩, ⟨⟨0, 1⟩, .RO⟩]⟩]

/-- The BEAM registers. -/
def regsBEAM : List RegDesc := [
  ⟨0x48000000, [], 0x0,
    [⟨⟨0, 32⟩, .RO⟩]⟩,
  ⟨0x48000004, [], 0x0,
    [⟨⟨0, 32⟩, .RO⟩]⟩,
  ⟨0x48000008, [], 0x0,
    [⟨⟨0, 32⟩, .RO⟩]⟩,
  ⟨0x4800000C, [], 0x0,
    [⟨⟨0, 32⟩, .RO⟩]⟩,
  ⟨0x48000010, [], 0x0,
    [⟨⟨0, 32⟩, .RW⟩]⟩,
  ⟨0x48000014, [], 0x0,
    [⟨⟨0, 32⟩, .RW⟩]⟩,
  ⟨0x48000018, [], 0x0,
    [⟨⟨10, 1⟩, .W1C⟩, ⟨⟨9, 1⟩, .RO⟩, ⟨⟨8, 1⟩, .RO⟩, ⟨⟨4, 4⟩, .RO⟩, ⟨⟨3, 1⟩, .RO⟩, ⟨⟨2, 1⟩, .RO⟩,
     ⟨⟨1, 1⟩, .RO⟩, ⟨⟨0, 1⟩, .RO⟩]⟩,
  ⟨0x4800001C, [], 0x0,
    [⟨⟨0, 32⟩, .RO⟩]⟩,
  ⟨0x48000020, [], 0x0,
    [⟨⟨0, 32⟩, .RO⟩]⟩,
  ⟨0x48000024, [], 0x0,
    [⟨⟨16, 10⟩, .RO⟩, ⟨⟨0, 10⟩, .RO⟩]⟩,
  ⟨0x48000028, [], 0,
    [⟨⟨16, 10⟩, .RO⟩, ⟨⟨0, 10⟩, .RO⟩]⟩]

/-- The TLY registers. -/
def regsTLY : List RegDesc := [
  ⟨0x40000000, [(6, 0x1000000), (16, 0x40)], 0x00000020,
    [⟨⟨16, 1⟩, .RWL⟩, ⟨⟨8, 8⟩, .RWL⟩, ⟨⟨4, 2⟩, .RWL⟩, ⟨⟨3, 1⟩, .RW⟩, ⟨⟨2, 1⟩, .RWL⟩, ⟨⟨1, 1⟩, .RWL⟩,
     ⟨⟨0, 1⟩, .RW⟩]⟩,
  ⟨0x40000004, [(6, 0x1000000), (16, 0x40)], 0x0,
    [⟨⟨9, 1⟩, .RO⟩, ⟨⟨8, 1⟩, .W1C⟩, ⟨⟨7, 1⟩, .W1C⟩, ⟨⟨6, 1⟩, .W1C⟩, ⟨⟨5, 1⟩, .W1C⟩, ⟨⟨4, 1⟩, .W1C⟩,
     ⟨⟨3, 1⟩, .W1C⟩, ⟨⟨2, 1⟩, .W1C⟩, ⟨⟨1, 1⟩, .W1C⟩, ⟨⟨0, 1⟩, .RO⟩]⟩,
  ⟨0x40000008, [(6, 0x1000000), (16, 0x40)], 0x0,
    [⟨⟨0, 32⟩, .RWL⟩]⟩,
  ⟨0x4000000C, [(6, 0x1000000), (16, 0x40)], 0xFFFFFFFF,
    [⟨⟨0, 32⟩, .RWS⟩]⟩,
  ⟨0x40000010, [(6, 0x1000000), (16, 0x40)], 0xFFFFFFFF,
    [⟨⟨0, 32⟩, .RWS⟩]⟩,
  ⟨0x40000014, [(6, 0x1000000), (16, 0x40)], 0xFFFFFFFF,
    [⟨⟨0, 32⟩, .RWS⟩]⟩,
  ⟨0x40000018, [(6, 0x1000000), (16, 0x40)], 0xFFFFFFFF,
    [⟨⟨0, 32⟩, .RWS⟩]⟩,
  ⟨0x4000001C, [(6, 0x1000000), (16, 0x40)], 0xFFFFFFFF,
    [⟨⟨0, 32⟩, .RWS⟩]⟩,
  ⟨0x40000020, [(6, 0x1000000), (16, 0x40)], 0x0,
    [⟨⟨11, 1⟩, .RWS⟩, ⟨⟨8, 3⟩, .RWS⟩, ⟨⟨7, 1⟩, .RWS⟩, ⟨⟨4, 3⟩, .RWS⟩, ⟨⟨2, 2⟩, .RWS⟩, ⟨⟨0, 2⟩, .RWS⟩]⟩,
  ⟨0x40000024, [(6, 0x1000000), (16, 0x40)], 0x0,
    [⟨⟨0, 16⟩, .RW⟩]⟩,
  ⟨0x40000028, [(6, 0x1000000), (16, 0x40)], 0x0,
    [⟨⟨0, 8⟩, .RW⟩]⟩,
  ⟨0x40000800, [(6, 0x1000000)], 0x0,
    [⟨⟨0, 1⟩, .RW⟩]⟩,
  ⟨0x40000804, [(6, 0x1000000)], 0x0,
    [⟨⟨8, 4⟩, .RO⟩, ⟨⟨0, 1⟩, .W1C⟩]⟩,
  ⟨0x48100000, [], 0x0,
    [⟨⟨0, 32⟩, .RW⟩]⟩,
  ⟨0x48100004, [], 0x0,
    [⟨⟨0, 32⟩, .RW⟩]⟩,
  ⟨0x48100008, [], 0x0,
    [⟨⟨0, 32⟩, .RW⟩]⟩,
  ⟨0x4810000C, [], 0x0,
    [⟨⟨4, 1⟩, .WO⟩, ⟨⟨0, 2⟩, .WO⟩]⟩,
  ⟨0x48100010, [], 0x0,
    [⟨⟨0, 32⟩, .RW⟩]⟩,
  ⟨0x48100014, [], 0x0,
    [⟨⟨0, 32⟩, .RW⟩]⟩,
  ⟨0x48100018, [], 0x0,
    [⟨⟨3, 1⟩, .W1C⟩, ⟨⟨2, 1⟩, .W1C⟩, ⟨⟨1, 1⟩, .W1C⟩, ⟨⟨0, 1⟩, .RO⟩]⟩]

/-- The PWM registers. -/
def regsPWM : List RegDesc := [
  ⟨0x40010000, [(6, 0x1000000), (16, 0x40)], 0x0,
    [⟨⟨0, 32⟩, .RWS⟩]⟩,
  ⟨0x40010004, [(6, 0x1000000), (16, 0x40)], 0x0,
    [⟨⟨8, 24⟩, .RWL⟩, ⟨⟨0, 6⟩, .RWS⟩]⟩,
  ⟨0x40010008, [(6, 0x1000000), (16, 0x40)], 0xFFFFFFFF,
    [⟨⟨6, 26⟩, .RWS⟩, ⟨⟨0, 6⟩, .RWS⟩]⟩,
  ⟨0x4001000C, [(6, 0x1000000), (16, 0x40)], 0xFFFFFFFF,
    [⟨⟨6, 26⟩, .RWS⟩, ⟨⟨0, 6⟩, .RWS⟩]⟩,
  ⟨0x40010010, [(6, 0x1000000), (16, 0x40)], 0xFFFFFFFF,
    [⟨⟨6, 26⟩, .RWS⟩, ⟨⟨0, 6⟩, .RWS⟩]⟩,
  ⟨0x40010014, [(6, 0x1000000), (16, 0x40)], 0xFFFFFFFF,
    [⟨⟨6, 26⟩, .RWS⟩, ⟨⟨0, 6⟩, .RWS⟩]⟩,
  ⟨0x40010018, [(6, 0x1000000), (16, 0x40), (4, 0x4)], 0xFFFFFFFF,
    [⟨⟨0, 32⟩, .RWS⟩]⟩,
  ⟨0x40010028, [(6, 0x1000000), (16, 0x40)], 0x0,
    [⟨⟨16, 16⟩, .RWS⟩, ⟨⟨0, 16⟩, .RWS⟩]⟩,
  ⟨0x4001002C, [(6, 0x1000000), (16, 0x40)], 0x00005000,
    [⟨⟨20, 4⟩, .RWL⟩, ⟨⟨16, 4⟩, .RW⟩, ⟨⟨13, 2⟩, .RWL⟩, ⟨⟨11, 2⟩, .RWL⟩, ⟨⟨10, 1⟩, .RWL⟩, ⟨⟨9, 1⟩, .RWL⟩,
     ⟨⟨8, 1⟩, .RWL⟩, ⟨⟨7, 1⟩, .RWL⟩, ⟨⟨5, 1⟩, .RWL⟩, ⟨⟨4, 1⟩, .RWL⟩, ⟨⟨0, 1⟩, .RW⟩]⟩,
  ⟨0x40010030, [(6, 0x1000000), (16, 0x40)], 0x0,
    [⟨⟨16, 5⟩, .RO⟩, ⟨⟨13, 1⟩, .W1C⟩, ⟨⟨12, 1⟩, .RO⟩, ⟨⟨11, 1⟩, .RO⟩, ⟨⟨10, 1⟩, .RO⟩, ⟨⟨9, 1⟩, .RO⟩,
     ⟨⟨8, 1⟩, .RO⟩, ⟨⟨7, 1⟩, .RO⟩, ⟨⟨6, 1⟩, .RO⟩, ⟨⟨5, 1⟩, .W1C⟩, ⟨⟨4, 1⟩, .W1C⟩, ⟨⟨3, 1⟩, .W1C⟩,
     ⟨⟨2, 1⟩, .W1C⟩, ⟨⟨1, 1⟩, .RO⟩, ⟨⟨0, 1⟩, .RO⟩]⟩,
  ⟨0x40010034, [(6, 0x1000000), (16, 0x40)], 0x0,
    [⟨⟨0, 24⟩, .RWL⟩]⟩,
  ⟨0x40010038, [(6, 0x1000000), (16, 0x40)], 0x0,
    [⟨⟨16, 1⟩, .RW⟩, ⟨⟨0, 16⟩, .RW⟩]⟩,
  ⟨0x4001003C, [(6, 0x1000000), (16, 0x40)], 0x00000001,
    [⟨⟨1, 5⟩, .RW⟩, ⟨⟨0, 1⟩, .RO⟩]⟩,
  ⟨0x40010800, [(6, 0x1000000), (24, 0x4)], 0x0,
    [⟨⟨9, 1⟩, .W1C⟩, ⟨⟨8, 1⟩, .RO⟩, ⟨⟨7, 1⟩, .RO⟩, ⟨⟨3, 4⟩, .RWL⟩, ⟨⟨2, 1⟩, .RWL⟩, ⟨⟨0, 2⟩, .RWL⟩]⟩,
  ⟨0x40010880, [(6, 0x1000000)], 0x0,
    [⟨⟨0, 16⟩, .WO⟩]⟩,
  ⟨0x40010884, [(6, 0x1000000)], 0x0,
    [⟨⟨0, 1⟩, .RW⟩]⟩,
  ⟨0x40010888, [(6, 0x1000000)], 0x0,
    [⟨⟨12, 1⟩, .RO⟩, ⟨⟨8, 4⟩, .RO⟩, ⟨⟨0, 1⟩, .W1C⟩]⟩,
  ⟨0x40010900, [(6, 0x1000000), (16, 0x8)], 0x0,
    [⟨⟨0, 32⟩, .RO⟩]⟩,
  ⟨0x40010904, [(6, 0x1000000), (16, 0x8)], 0x0,
    [⟨⟨0, 32⟩, .RO⟩]⟩]

/-- The ACH registers. -/
def regsACH : List RegDesc := [
  ⟨0x40020000, [(6, 0x1000000), (16, 0x40)], 0x00200FF0,
    [⟨⟨24, 2⟩, .RWL⟩, ⟨⟨22, 1⟩, .RWL⟩, ⟨⟨20, 2⟩, .RWL⟩, ⟨⟨16, 4⟩, .RWL⟩, ⟨⟨8, 8⟩, .RWL⟩, ⟨⟨4, 4⟩, .RWL⟩]⟩,
  ⟨0x40020004, [(6, 0x1000000), (16, 0x40)], 0x0,
    [⟨⟨8, 1⟩, .RO⟩, ⟨⟨0, 2⟩, .RW⟩]⟩,
  ⟨0x40020008, [(6, 0x1000000), (16, 0x40)], 0x0,
    [⟨⟨0, 16⟩, .RWS⟩]⟩,
  ⟨0x4002000C, [(6, 0x1000000), (16, 0x40)], 0x0,
    [⟨⟨0, 16⟩, .RWS⟩]⟩,
  ⟨0x40020010, [(6, 0x1000000), (16, 0x40)], 0,
    [⟨⟨16, 16⟩, .RWL⟩, ⟨⟨0, 16⟩, .RWL⟩]⟩,
  ⟨0x40020014, [(6, 0x1000000), (16, 0x40)], 0x0,
    [⟨⟨16, 16⟩, .RWL⟩, ⟨⟨1, 1⟩, .RWL⟩, ⟨⟨0, 1⟩, .RWL⟩]⟩,
  ⟨0x40020018, [(6, 0x1000000), (16, 0x40)], 0x0,
    [⟨⟨11, 1⟩, .W1C⟩, ⟨⟨10, 1⟩, .W1C⟩, ⟨⟨9, 1⟩, .W1C⟩, ⟨⟨8, 1⟩, .W1C⟩, ⟨⟨7, 1⟩, .W1C⟩, ⟨⟨6, 1⟩, .W1C⟩,
     ⟨⟨5, 1⟩, .W1C⟩, ⟨⟨4, 1⟩, .W1C⟩, ⟨⟨3, 1⟩, .W1C⟩, ⟨⟨2, 1⟩, .RO⟩, ⟨⟨1, 1⟩, .RO⟩, ⟨⟨0, 1⟩, .RO⟩]⟩,
  ⟨0x4002001C, [(6, 0x1000000), (16, 0x40)], 0x0,
    [⟨⟨16, 16⟩, .RW⟩, ⟨⟨8, 8⟩, .RW⟩, ⟨⟨0, 8⟩, .RW⟩]⟩,
  ⟨0x40020020, [(6, 0x1000000), (16, 0x40)], 0x0,
    [⟨⟨0, 6⟩, .RW⟩]⟩,
  ⟨0x40020800, [(6, 0x1000000), (8, 0x4)], 0x0,
    [⟨⟨0, 16⟩, .RW⟩]⟩,
  ⟨0x40020820, [(6, 0x1000000)], 0x0,
    [⟨⟨0, 8⟩, .WO⟩]⟩,
  ⟨0x40020824, [(6, 0x1000000)], 0x0,
    [⟨⟨0, 26⟩, .RWL⟩]⟩,
  ⟨0x40020828, [(6, 0x1000000)], 0x0,
    [⟨⟨8, 1⟩, .RW⟩, ⟨⟨4, 4⟩, .RWL⟩, ⟨⟨0, 1⟩, .RWL⟩]⟩,
  ⟨0x4002082C, [(6, 0x1000000)], 0x0,
    [⟨⟨31, 1⟩, .W1C⟩, ⟨⟨30, 1⟩, .W1C⟩, ⟨⟨0, 26⟩, .RO⟩]⟩,
  ⟨0x40020830, [(6, 0x1000000)], 0x00A00000,
    [⟨⟨20, 8⟩, .RW⟩, ⟨⟨8, 12⟩, .RW⟩, ⟨⟨4, 4⟩, .RW⟩, ⟨⟨0, 1⟩, .RW⟩]⟩,
  ⟨0x40020840, [(6, 0x1000000)], 0x0,
    [⟨⟨0, 1⟩, .RW⟩]⟩,
  ⟨0x40020844, [(6, 0x1000000)], 0x0,
    [⟨⟨8, 4⟩, .RO⟩, ⟨⟨1, 1⟩, .W1C⟩, ⟨⟨0, 1⟩, .W1C⟩]⟩,
  ⟨0x40080000, [(6, 0x1000000), (112, 0x4)], 0x0,
    [⟨⟨0, 32⟩, .RO⟩]⟩,
  ⟨0x40080800, [(6, 0x1000000), (112, 0x4)], 0x0,
    [⟨⟨0, 32⟩, .RO⟩]⟩]

/-- The SDM registers. -/
def regsSDM : List RegDesc := [
  ⟨0x40030000, [(6, 0x1000000), (8, 0x40)], 0x00004000,
    [⟨⟨22, 1⟩, .RWL⟩, ⟨⟨17, 5⟩, .RWL⟩, ⟨⟨8, 9⟩, .RWL⟩, ⟨⟨2, 3⟩, .RWL⟩, ⟨⟨1, 1⟩, .RWL⟩, ⟨⟨0, 1⟩, .RWL⟩]⟩,
  ⟨0x40030004, [(6, 0x1000000), (8, 0x40)], 0x00000004,
    [⟨⟨24, 8⟩, .RWL⟩, ⟨⟨16, 8⟩, .RWL⟩, ⟨⟨15, 1⟩, .RWL⟩, ⟨⟨8, 3⟩, .RWL⟩, ⟨⟨0, 6⟩, .RWL⟩]⟩,
  ⟨0x40030008, [(6, 0x1000000), (8, 0x40)], 0x0,
    [⟨⟨8, 8⟩, .RO⟩, ⟨⟨6, 1⟩, .W1C⟩, ⟨⟨5, 1⟩, .W1C⟩, ⟨⟨4, 1⟩, .W1C⟩, ⟨⟨3, 1⟩, .RO⟩, ⟨⟨2, 1⟩, .W1C⟩,
     ⟨⟨1, 1⟩, .RO⟩, ⟨⟨0, 1⟩, .RO⟩]⟩,
  ⟨0x4003000C, [(6, 0x1000000), (8, 0x40)], 0x0,
    [⟨⟨0, 4⟩, .RW⟩]⟩,
  ⟨0x40030800, [(6, 0x1000000), (2, 0x4)], 0x00000014,
    [⟨⟨12, 4⟩, .RWL⟩, ⟨⟨9, 1⟩, .RWL⟩, ⟨⟨8, 1⟩, .RWL⟩, ⟨⟨0, 8⟩, .RWL⟩]⟩,
  ⟨0x40030810, [(6, 0x1000000)], 0x0,
    [⟨⟨0, 1⟩, .RW⟩]⟩,
  ⟨0x40030814, [(6, 0x1000000)], 0x0,
    [⟨⟨8, 4⟩, .RO⟩, ⟨⟨0, 1⟩, .W1C⟩]⟩]

/-- The ABX registers. -/
def regsABX0 : List RegDesc := [
  ⟨0x48200000, [(16, 0x4)], 0x7,
    [⟨⟨0, 3⟩, .RWL⟩]⟩,
  ⟨0x48200100, [(64, 0x4)], 0x0,
    [⟨⟨16, 2⟩, .RWL⟩, ⟨⟨0, 14⟩, .RWL⟩]⟩,
  ⟨0x48200200, [(64, 0x4)], 0x0,
    [⟨⟨18, 14⟩, .RO⟩, ⟨⟨7, 1⟩, .RO⟩, ⟨⟨6, 1⟩, .W1C⟩, ⟨⟨5, 1⟩, .W1C⟩, ⟨⟨4, 1⟩, .W1C⟩, ⟨⟨3, 1⟩, .W1C⟩,
     ⟨⟨2, 1⟩, .W1C⟩, ⟨⟨1, 1⟩, .RO⟩]⟩,
  ⟨0x48200300, [(64, 0x4)], 0x0,
    [⟨⟨16, 16⟩, .RW⟩, ⟨⟨0, 16⟩, .RW⟩]⟩,
  ⟨0x48200400, [(6, 0x4)], 0x0000FF00,
    [⟨⟨8, 8⟩, .RWL⟩, ⟨⟨0, 8⟩, .RWL⟩]⟩,
  ⟨0x48200500, [], 0x0,
    [⟨⟨0, 1⟩, .RW⟩]⟩,
  ⟨0x48200504, [], 0x0,
    [⟨⟨12, 20⟩, .RO⟩, ⟨⟨8, 3⟩, .RO⟩, ⟨⟨0, 1⟩, .W1C⟩]⟩,
  ⟨0x48200800, [(96, 0x4)], 0x0,
    [⟨⟨0, 32⟩, .RO⟩]⟩,
  ⟨0x48200A00, [(3, 0x4)], 0x0,
    [⟨⟨0, 32⟩, .RO⟩]⟩,
  ⟨0x48210000, [(64, 0x200), (32, 0x4)], 0x0,
    [⟨⟨0, 32⟩, .RO⟩]⟩,
  ⟨0x48210080, [(64, 0x200), (32, 0x4)], 0x0,
    [⟨⟨0, 32⟩, .WO⟩]⟩,
  ⟨0x48210100, [(64, 0x200)], 0x0,
    [⟨⟨0, 32⟩, .RO⟩]⟩,
  ⟨0x48280000, [(32768, 0x4)], 0x0,
    [⟨⟨0, 32⟩, .RWL⟩]⟩,
  ⟨0x40070000, [(6, 0x1000000)], 0x00000300,
    [⟨⟨16, 1⟩, .RW⟩, ⟨⟨8, 8⟩, .RWL⟩, ⟨⟨4, 4⟩, .RWL⟩, ⟨⟨0, 1⟩, .RWL⟩]⟩,
  ⟨0x40070004, [(6, 0x1000000)], 0x0,
    [⟨⟨8, 8⟩, .RO⟩, ⟨⟨6, 1⟩, .W1C⟩, ⟨⟨5, 1⟩, .W1C⟩, ⟨⟨4, 1⟩, .W1C⟩, ⟨⟨3, 1⟩, .W1C⟩, ⟨⟨2, 1⟩, .RO⟩,
     ⟨⟨1, 1⟩, .RO⟩, ⟨⟨0, 1⟩, .RO⟩]⟩,
  ⟨0x40070008, [(6, 0x1000000)], 0x0,
    [⟨⟨0, 32⟩, .RW⟩]⟩,
  ⟨0x4007000C, [(6, 0x1000000)], 0x0,
    [⟨⟨0, 32⟩, .RO⟩]⟩,
  ⟨0x40070010, [(6, 0x1000000)], 0xFFFFFFFF,
    [⟨⟨0, 32⟩, .RW⟩]⟩,
  ⟨0x40070014, [(6, 0x1000000)], 0x0,
    [⟨⟨1, 1⟩, .RW⟩, ⟨⟨0, 1⟩, .RW⟩]⟩,
  ⟨0x40070018, [(6, 0x1000000)], 0x0,
    [⟨⟨0, 1⟩, .RW⟩]⟩,
  ⟨0x4007001C, [(6, 0x1000000)], 0x0,
    [⟨⟨16, 16⟩, .RO⟩, ⟨⟨1, 1⟩, .W1C⟩, ⟨⟨0, 1⟩, .W1C⟩]⟩,
  ⟨0x40070100, [(6, 0x1000000), (64, 0x4)], 0x0,
    [⟨⟨2, 18⟩, .RWL⟩, ⟨⟨0, 1⟩, .RWL⟩]⟩,
  ⟨0x40071000, [(6, 0x1000000), (1024, 0x4)], 0x0,
    [⟨⟨0, 32⟩, .RWS⟩]⟩,
  ⟨0x40072000, [(6, 0x1000000), (1024, 0x4)], 0x0,
    [⟨⟨0, 5⟩, .RWS⟩]⟩]

/-- The ABX registers. -/
def regsABX1 : List RegDesc := [
  ⟨0x40070400, [(6, 0x1000000)], 0x0,
    [⟨⟨24, 8⟩, .RWL⟩, ⟨⟨20, 1⟩, .RW⟩, ⟨⟨18, 2⟩, .RWL⟩, ⟨⟨14, 4⟩, .RWL⟩, ⟨⟨10, 4⟩, .RWL⟩, ⟨⟨1, 4⟩, .RWL⟩,
     ⟨⟨0, 1⟩, .RW⟩]⟩,
  ⟨0x40070404, [(6, 0x1000000)], 0x0,
    [⟨⟨16, 16⟩, .RWL⟩, ⟨⟨0, 16⟩, .RWL⟩]⟩,
  ⟨0x40070408, [(6, 0x1000000)], 0x0,
    [⟨⟨0, 32⟩, .RWL⟩]⟩,
  ⟨0x4007040C, [(6, 0x1000000)], 0x0,
    [⟨⟨0, 1⟩, .WO⟩]⟩,
  ⟨0x40070410, [(6, 0x1000000)], 0x0,
    [⟨⟨16, 16⟩, .RO⟩, ⟨⟨5, 1⟩, .W1C⟩, ⟨⟨4, 1⟩, .RO⟩, ⟨⟨3, 1⟩, .W1C⟩, ⟨⟨2, 1⟩, .W1C⟩, ⟨⟨1, 1⟩, .RO⟩, ⟨⟨0, 1⟩, .RO⟩]⟩,
  ⟨0x40070414, [(6, 0x1000000)], 0x15550000,
    [⟨⟨16, 16⟩, .RO⟩, ⟨⟨0, 16⟩, .RO⟩]⟩,
  ⟨0x40070440, [(6, 0x1000000), (16, 0x4)], 0x0,
    [⟨⟨30, 2⟩, .RWL⟩, ⟨⟨24, 6⟩, .RWL⟩, ⟨⟨0, 14⟩, .RWL⟩]⟩]

/-- The ABX registers. -/
def regsABX : List RegDesc := regsABX0 ++ regsABX1

/-- The FBK registers. -/
def regsFBK : List RegDesc := [
  ⟨0x40040000, [(6, 0x1000000), (2, 0x100)], 0x0,
    [⟨⟨5, 1⟩, .RWL⟩, ⟨⟨4, 1⟩, .RWL⟩, ⟨⟨1, 3⟩, .RWL⟩, ⟨⟨0, 1⟩, .RWL⟩]⟩,
  ⟨0x40040004, [(6, 0x1000000), (2, 0x100)], 0x00010010,
    [⟨⟨16, 10⟩, .RWL⟩, ⟨⟨0, 5⟩, .RWL⟩]⟩,
  ⟨0x40040008, [(6, 0x1000000), (2, 0x100)], 0x0,
    [⟨⟨0, 32⟩, .RWL⟩]⟩,
  ⟨0x4004000C, [(6, 0x1000000), (2, 0x100)], 0x0,
    [⟨⟨0, 32⟩, .RW⟩]⟩,
  ⟨0x40040010, [(6, 0x1000000), (2, 0x100)], 0x0,
    [⟨⟨0, 32⟩, .RW⟩]⟩,
  ⟨0x40040014, [(6, 0x1000000), (2, 0x100)], 0x0,
    [⟨⟨16, 16⟩, .RWL⟩, ⟨⟨4, 2⟩, .RWL⟩, ⟨⟨3, 1⟩, .RWL⟩, ⟨⟨2, 1⟩, .RW⟩, ⟨⟨0, 2⟩, .RWL⟩]⟩,
  ⟨0x40040018, [(6, 0x1000000), (2, 0x100)], 0x0,
    [⟨⟨0, 32⟩, .RWL⟩]⟩,
  ⟨0x4004001C, [(6, 0x1000000), (2, 0x100)], 0x0,
    [⟨⟨0, 32⟩, .RO⟩]⟩,
  ⟨0x40040020, [(6, 0x1000000), (2, 0x100)], 0x0,
    [⟨⟨16, 16⟩, .RWL⟩, ⟨⟨12, 4⟩, .RWL⟩, ⟨⟨8, 1⟩, .RWL⟩, ⟨⟨0, 4⟩, .RWL⟩]⟩,
  ⟨0x40040024, [(6, 0x1000000), (2, 0x100)], 0x0,
    [⟨⟨0, 32⟩, .RWL⟩]⟩,
  ⟨0x40040028, [(6, 0x1000000), (2, 0x100)], 0x0,
    [⟨⟨16, 16⟩, .RW⟩, ⟨⟨4, 1⟩, .RWL⟩, ⟨⟨0, 4⟩, .RWL⟩]⟩,
  ⟨0x4004002C, [(6, 0x1000000), (2, 0x100)], 0x00001F00,
    [⟨⟨8, 6⟩, .RWL⟩, ⟨⟨0, 3⟩, .RWL⟩]⟩,
  ⟨0x40040030, [(6, 0x1000000), (2, 0x100)], 0x0,
    [⟨⟨13, 3⟩, .RO⟩, ⟨⟨11, 1⟩, .RO⟩, ⟨⟨10, 1⟩, .RO⟩, ⟨⟨9, 1⟩, .RO⟩, ⟨⟨8, 1⟩, .RO⟩, ⟨⟨7, 1⟩, .W1C⟩,
     ⟨⟨6, 1⟩, .W1C⟩, ⟨⟨5, 1⟩, .W1C⟩, ⟨⟨4, 1⟩, .W1C⟩, ⟨⟨3, 1⟩, .W1C⟩, ⟨⟨2, 1⟩, .W1C⟩, ⟨⟨1, 1⟩, .W1C⟩,
     ⟨⟨0, 1⟩, .RO⟩]⟩,
  ⟨0x40040034, [(6, 0x1000000), (2, 0x100)], 0x0,
    [⟨⟨16, 16⟩, .RW⟩, ⟨⟨8, 8⟩, .RW⟩, ⟨⟨0, 8⟩, .RW⟩]⟩,
  ⟨0x40040038, [(6, 0x1000000), (2, 0x100)], 0x0,
    [⟨⟨0, 8⟩, .RW⟩]⟩,
  ⟨0x40040800, [(6, 0x1000000)], 0x0,
    [⟨⟨0, 1⟩, .RW⟩]⟩,
  ⟨0x40040804, [(6, 0x1000000)], 0x0,
    [⟨⟨8, 1⟩, .RO⟩, ⟨⟨0, 1⟩, .W1C⟩]⟩]

/-- The BEAD registers. -/
def regsBEAD : List RegDesc := [
  ⟨0x40050000, [(6, 0x1000000), (8, 0x200)], 0x00002060,
    [⟨⟨13, 1⟩, .RWL⟩, ⟨⟨12, 1⟩, .RWL⟩, ⟨⟨11, 1⟩, .RWL⟩, ⟨⟨10, 1⟩, .RWL⟩, ⟨⟨9, 1⟩, .RWL⟩, ⟨⟨4, 4⟩, .RWL⟩,
     ⟨⟨1, 1⟩, .RW⟩, ⟨⟨0, 1⟩, .RW⟩]⟩,
  ⟨0x40050004, [(6, 0x1000000), (8, 0x200)], 0x00001000,
    [⟨⟨10, 14⟩, .RWL⟩, ⟨⟨0, 10⟩, .RWL⟩]⟩,
  ⟨0x40050008, [(6, 0x1000000), (8, 0x200)], 0x00000A00,
    [⟨⟨10, 2⟩, .RWL⟩, ⟨⟨8, 2⟩, .RWL⟩, ⟨⟨7, 1⟩, .RWL⟩, ⟨⟨6, 1⟩, .RWL⟩, ⟨⟨4, 2⟩, .RWL⟩, ⟨⟨2, 2⟩, .RWL⟩,
     ⟨⟨0, 1⟩, .RWL⟩]⟩,
  ⟨0x4005000C, [(6, 0x1000000), (8, 0x200)], 0x0,
    [⟨⟨0, 32⟩, .RW⟩]⟩,
  ⟨0x40050010, [(6, 0x1000000), (8, 0x200)], 0x0,
    [⟨⟨0, 32⟩, .RW⟩]⟩,
  ⟨0x40050014, [(6, 0x1000000), (8, 0x200)], 0x0,
    [⟨⟨16, 4⟩, .RWL⟩, ⟨⟨0, 16⟩, .RWL⟩]⟩,
  ⟨0x40050018, [(6, 0x1000000), (8, 0x200)], 0x0,
    [⟨⟨0, 16⟩, .RWL⟩]⟩,
  ⟨0x4005001C, [(6, 0x1000000), (8, 0x200)], 0x0,
    [⟨⟨0, 16⟩, .RW⟩]⟩,
  ⟨0x40050020, [(6, 0x1000000), (8, 0x200)], 0x0,
    [⟨⟨2, 1⟩, .WO⟩, ⟨⟨1, 1⟩, .WO⟩, ⟨⟨0, 1⟩, .WO⟩]⟩,
  ⟨0x40050024, [(6, 0x1000000), (8, 0x200)], 0x1,
    [⟨⟨13, 1⟩, .RO⟩, ⟨⟨12, 1⟩, .RO⟩, ⟨⟨11, 1⟩, .W1C⟩, ⟨⟨10, 1⟩, .W1C⟩, ⟨⟨9, 1⟩, .W1C⟩, ⟨⟨8, 1⟩, .W1C⟩,
     ⟨⟨7, 1⟩, .W1C⟩, ⟨⟨6, 1⟩, .W1C⟩, ⟨⟨5, 1⟩, .W1C⟩, ⟨⟨4, 1⟩, .W1C⟩, ⟨⟨3, 1⟩, .W1C⟩, ⟨⟨2, 1⟩, .RO⟩,
     ⟨⟨1, 1⟩, .RO⟩, ⟨⟨0, 1⟩, .RO⟩]⟩,
  ⟨0x40050028, [(6, 0x1000000), (8, 0x200)], 0x0,
    [⟨⟨24, 6⟩, .RO⟩, ⟨⟨16, 6⟩, .RO⟩, ⟨⟨8, 6⟩, .RO⟩]⟩,
  ⟨0x4005002C, [(6, 0x1000000), (8, 0x200)], 0x0,
    [⟨⟨0, 32⟩, .RWL⟩]⟩,
  ⟨0x40050030, [(6, 0x1000000), (8, 0x200)], 0x01010000,
    [⟨⟨24, 4⟩, .RW⟩, ⟨⟨16, 4⟩, .RW⟩, ⟨⟨8, 4⟩, .RO⟩, ⟨⟨0, 4⟩, .RO⟩]⟩,
  ⟨0x40050034, [(6, 0x1000000), (8, 0x200)], 0x0,
    [⟨⟨0, 32⟩, .WO⟩]⟩,
  ⟨0x40050038, [(6, 0x1000000), (8, 0x200)], 0x0,
    [⟨⟨0, 32⟩, .RO⟩]⟩,
  ⟨0x4005003C, [(6, 0x1000000), (8, 0x200)], 0x0,
    [⟨⟨0, 32⟩, .RO⟩]⟩,
  ⟨0x40050040, [(6, 0x1000000), (8, 0x200)], 0x0,
    [⟨⟨0, 32⟩, .RO⟩]⟩,
  ⟨0x40050044, [(6, 0x1000000), (8, 0x200)], 0x0,
    [⟨⟨16, 16⟩, .RW⟩, ⟨⟨0, 16⟩, .RW⟩]⟩,
  ⟨0x40050048, [(6, 0x1000000), (8, 0x200)], 0x00000004,
    [⟨⟨3, 5⟩, .RW⟩, ⟨⟨2, 1⟩, .RO⟩, ⟨⟨0, 2⟩, .RW⟩]⟩,
  ⟨0x4005004C, [(6, 0x1000000), (8, 0x200)], 0x0,
    [⟨⟨0, 16⟩, .RO⟩]⟩,
  ⟨0x40050050, [(6, 0x1000000), (8, 0x200)], 0x0,
    [⟨⟨0, 16⟩, .RO⟩]⟩,
  ⟨0x40050100, [(6, 0x1000000), (8, 0x200), (64, 0x4)], 0x0,
    [⟨⟨0, 24⟩, .RWL⟩]⟩,
  ⟨0x40051800, [(6, 0x1000000)], 0x0,
    [⟨⟨0, 1⟩, .RW⟩]⟩,
  ⟨0x40051804, [(6, 0x1000000)], 0x0,
    [⟨⟨8, 3⟩, .RO⟩, ⟨⟨0, 1⟩, .W1C⟩]⟩]

/-- The FLG registers. -/
def regsFLG : List RegDesc := [
  ⟨0x40060000, [(6, 0x1000000), (128, 0x4)], 0x0,
    [⟨⟨24, 6⟩, .RWL⟩, ⟨⟨23, 1⟩, .RWL⟩, ⟨⟨22, 1⟩, .RWL⟩, ⟨⟨0, 10⟩, .RWL⟩]⟩,
  ⟨0x40060200, [(6, 0x1000000), (128, 0x4)], 0x0,
    [⟨⟨8, 8⟩, .RW⟩, ⟨⟨1, 1⟩, .W1C⟩, ⟨⟨0, 1⟩, .W1C⟩]⟩,
  ⟨0x40060400, [(6, 0x1000000), (105, 0x8)], 0x0,
    [⟨⟨26, 1⟩, .RWL⟩, ⟨⟨16, 10⟩, .RWL⟩, ⟨⟨10, 1⟩, .RWL⟩, ⟨⟨0, 10⟩, .RWL⟩]⟩,
  ⟨0x40060404, [(6, 0x1000000), (105, 0x8)], 0x0,
    [⟨⟨26, 1⟩, .RWL⟩, ⟨⟨16, 10⟩, .RWL⟩, ⟨⟨10, 1⟩, .RWL⟩, ⟨⟨0, 10⟩, .RWL⟩]⟩,
  ⟨0x40060800, [(6, 0x1000000), (105, 0x4)], 0x0,
    [⟨⟨4, 4⟩, .RO⟩, ⟨⟨0, 1⟩, .W1C⟩]⟩,
  ⟨0x40061000, [(6, 0x1000000), (64, 0x10)], 0x00F000F0,
    [⟨⟨16, 11⟩, .RWL⟩, ⟨⟨0, 11⟩, .RWL⟩]⟩,
  ⟨0x40061004, [(6, 0x1000000), (64, 0x10)], 0x00F000F0,
    [⟨⟨16, 11⟩, .RWL⟩, ⟨⟨0, 11⟩, .RWL⟩]⟩,
  ⟨0x40061008, [(6, 0x1000000), (64, 0x10)], 0x0,
    [⟨⟨16, 16⟩, .RWL⟩, ⟨⟨8, 8⟩, .RWL⟩, ⟨⟨4, 2⟩, .RWL⟩, ⟨⟨0, 2⟩, .RWL⟩]⟩,
  ⟨0x4006100C, [(6, 0x1000000), (64, 0x10)], 0x0,
    [⟨⟨3, 1⟩, .RO⟩, ⟨⟨2, 1⟩, .RO⟩, ⟨⟨1, 1⟩, .RW⟩, ⟨⟨0, 1⟩, .RW⟩]⟩,
  ⟨0x40061400, [(6, 0x1000000), (2, 0x4)], 0x0,
    [⟨⟨0, 32⟩, .RO⟩]⟩,
  ⟨0x40061800, [(6, 0x1000000)], 0x0,
    [⟨⟨2, 1⟩, .RW⟩, ⟨⟨1, 1⟩, .RW⟩, ⟨⟨0, 1⟩, .RW⟩]⟩,
  ⟨0x40061804, [(6, 0x1000000)], 0x0,
    [⟨⟨16, 16⟩, .RO⟩, ⟨⟨1, 1⟩, .W1C⟩, ⟨⟨0, 1⟩, .W1C⟩]⟩,
  ⟨0x48300000, [(128, 0x4)], 0x00001800,
    [⟨⟨24, 6⟩, .RWL⟩, ⟨⟨23, 1⟩, .RWL⟩, ⟨⟨22, 1⟩, .RWL⟩, ⟨⟨10, 3⟩, .RWL⟩, ⟨⟨0, 10⟩, .RWL⟩]⟩,
  ⟨0x48300200, [(128, 0x4)], 0x0,
    [⟨⟨24, 6⟩, .RWL⟩, ⟨⟨23, 1⟩, .RWL⟩, ⟨⟨22, 1⟩, .RWL⟩]⟩,
  ⟨0x48300400, [(128, 0x4)], 0x0,
    [⟨⟨8, 8⟩, .RW⟩, ⟨⟨1, 1⟩, .W1C⟩, ⟨⟨0, 1⟩, .W1C⟩]⟩,
  ⟨0x48300600, [(128, 0x4)], 0x0,
    [⟨⟨8, 8⟩, .RW⟩, ⟨⟨1, 1⟩, .W1C⟩, ⟨⟨0, 1⟩, .W1C⟩]⟩,
  ⟨0x48300800, [(64, 0x8)], 0x0,
    [⟨⟨26, 1⟩, .RWL⟩, ⟨⟨16, 10⟩, .RWL⟩, ⟨⟨10, 1⟩, .RWL⟩, ⟨⟨0, 10⟩, .RWL⟩]⟩,
  ⟨0x48300804, [(64, 0x8)], 0x0,
    [⟨⟨26, 1⟩, .RWL⟩, ⟨⟨16, 10⟩, .RWL⟩, ⟨⟨10, 1⟩, .RWL⟩, ⟨⟨0, 10⟩, .RWL⟩]⟩,
  ⟨0x48300C00, [(64, 0x4)], 0x0,
    [⟨⟨4, 4⟩, .RO⟩, ⟨⟨0, 1⟩, .W1C⟩]⟩,
  ⟨0x48301000, [], 0x0,
    [⟨⟨0, 10⟩, .WO⟩]⟩,
  ⟨0x48301004, [], 0x0,
    [⟨⟨0, 32⟩, .RW⟩]⟩,
  ⟨0x48301008, [], 0x0,
    [⟨⟨16, 16⟩, .RO⟩, ⟨⟨4, 4⟩, .RO⟩, ⟨⟨0, 1⟩, .RO⟩]⟩,
  ⟨0x4830100C, [], 0x0,
    [⟨⟨2, 1⟩, .RW⟩, ⟨⟨1, 1⟩, .RW⟩, ⟨⟨0, 1⟩, .RW⟩]⟩,
  ⟨0x48301010, [], 0x0,
    [⟨⟨16, 16⟩, .RO⟩, ⟨⟨4, 1⟩, .W1C⟩, ⟨⟨3, 1⟩, .RO⟩, ⟨⟨2, 1⟩, .W1C⟩, ⟨⟨1, 1⟩, .W1C⟩, ⟨⟨0, 1⟩, .W1C⟩]⟩]

/-- The BNK registers. -/
def regsBNK : List RegDesc := [
  ⟨0x1000000000, [(9, 0x10000), (16, 0x100), (16, 0x4)], 0,
    [⟨⟨0, 32⟩, .RW⟩]⟩,
  ⟨0x1000000040, [(9, 0x10000), (16, 0x100), (8, 0x4)], 0,
    [⟨⟨0, 32⟩, .RW⟩]⟩,
  ⟨0x1000000060, [(9, 0x10000), (16, 0x100)], 0x0,
    [⟨⟨31, 1⟩, .RW⟩, ⟨⟨30, 1⟩, .RW⟩, ⟨⟨28, 2⟩, .RW⟩, ⟨⟨26, 2⟩, .RW⟩, ⟨⟨20, 4⟩, .RW⟩, ⟨⟨8, 8⟩, .RW⟩, ⟨⟨0, 5⟩, .RW⟩]⟩,
  ⟨0x1000000064, [(9, 0x10000), (16, 0x100)], 0,
    [⟨⟨0, 32⟩, .RW⟩]⟩,
  ⟨0x1000000068, [(9, 0x10000), (16, 0x100)], 0,
    [⟨⟨0, 32⟩, .RW⟩]⟩,
  ⟨0x100000006C, [(9, 0x10000), (16, 0x100)], 0,
    [⟨⟨20, 4⟩, .RW⟩, ⟨⟨16, 3⟩, .RW⟩, ⟨⟨4, 5⟩, .RW⟩, ⟨⟨0, 4⟩, .RW⟩]⟩,
  ⟨0x1000000070, [(9, 0x10000), (16, 0x100)], 0,
    [⟨⟨2, 30⟩, .RW⟩]⟩,
  ⟨0x1000000074, [(9, 0x10000), (16, 0x100)], 0,
    [⟨⟨2, 30⟩, .RW⟩]⟩,
  ⟨0x1000000078, [(9, 0x10000), (16, 0x100)], 0,
    [⟨⟨2, 30⟩, .RW⟩]⟩,
  ⟨0x100000007C, [(9, 0x10000), (16, 0x100)], 0,
    [⟨⟨2, 30⟩, .RW⟩]⟩,
  ⟨0x1000000080, [(9, 0x10000), (16, 0x100)], 0,
    [⟨⟨2, 30⟩, .RW⟩]⟩,
  ⟨0x1000000084, [(9, 0x10000), (16, 0x100)], 0,
    [⟨⟨2, 30⟩, .RW⟩]⟩,
  ⟨0x1000000088, [(9, 0x10000), (16, 0x100)], 0,
    [⟨⟨0, 6⟩, .W1C⟩]⟩]

/-- The CORE registers. -/
def regsCORE : List RegDesc := [
  ⟨0x1E0008000, [(9, 0x100000000)], 0x0,
    [⟨⟨2, 1⟩, .WO⟩, ⟨⟨1, 1⟩, .WO⟩, ⟨⟨0, 1⟩, .WO⟩]⟩,
  ⟨0x1E0008004, [(9, 0x100000000)], 0x0,
    [⟨⟨12, 4⟩, .RO⟩, ⟨⟨8, 4⟩, .RO⟩, ⟨⟨0, 1⟩, .RO⟩]⟩,
  ⟨0x1E0002000, [(9, 0x100000000)], 0x00000202,
    [⟨⟨8, 4⟩, .RW⟩, ⟨⟨7, 1⟩, .RW⟩, ⟨⟨6, 1⟩, .WO⟩, ⟨⟨5, 1⟩, .WO⟩, ⟨⟨4, 1⟩, .RW⟩, ⟨⟨3, 1⟩, .RO⟩, ⟨⟨1, 1⟩, .RW⟩,
     ⟨⟨0, 1⟩, .RW⟩]⟩,
  ⟨0x1E0002004, [(9, 0x100000000)], 0x00000010,
    [⟨⟨4, 1⟩, .RW⟩, ⟨⟨0, 4⟩, .RW⟩]⟩,
  ⟨0x1E0002010, [(9, 0x100000000), (4, 0x4)], 0x0,
    [⟨⟨1, 31⟩, .RW⟩, ⟨⟨0, 1⟩, .RW⟩]⟩,
  ⟨0x1E0002020, [(9, 0x100000000)], 0,
    [⟨⟨2, 30⟩, .RW⟩]⟩,
  ⟨0x1E0002024, [(9, 0x100000000)], 0,
    [⟨⟨2, 30⟩, .RW⟩]⟩,
  ⟨0x1E0002028, [(9, 0x100000000)], 0x0,
    [⟨⟨1, 31⟩, .RW⟩]⟩,
  ⟨0x1E000202C, [(9, 0x100000000)], 0x0,
    [⟨⟨1, 31⟩, .RW⟩]⟩,
  ⟨0x1E0002030, [(9, 0x100000000)], 0x0,
    [⟨⟨1, 31⟩, .RW⟩]⟩,
  ⟨0x1E0002034, [(9, 0x100000000)], 0,
    [⟨⟨0, 32⟩, .RO⟩]⟩,
  ⟨0x1E0002038, [(9, 0x100000000)], 0x0,
    [⟨⟨16, 16⟩, .RW⟩, ⟨⟨15, 1⟩, .RO⟩, ⟨⟨8, 4⟩, .RO⟩, ⟨⟨3, 1⟩, .W1C⟩, ⟨⟨2, 1⟩, .W1C⟩, ⟨⟨1, 1⟩, .RO⟩, ⟨⟨0, 1⟩, .RO⟩]⟩]

/-- The PND registers. -/
def regsPND : List RegDesc := [
  ⟨0x48400000, [], 0x0,
    [⟨⟨16, 16⟩, .WO⟩, ⟨⟨0, 16⟩, .WO⟩]⟩,
  ⟨0x48400100, [(9, 0x10)], 0x0,
    [⟨⟨4, 28⟩, .RWL⟩]⟩,
  ⟨0x48400104, [(9, 0x10)], 0x00000600,
    [⟨⟨8, 5⟩, .RWL⟩, ⟨⟨0, 1⟩, .RW⟩]⟩,
  ⟨0x48400108, [(9, 0x10)], 0x0,
    [⟨⟨16, 16⟩, .RO⟩, ⟨⟨0, 16⟩, .RO⟩]⟩,
  ⟨0x4840010C, [(9, 0x10)], 0x0,
    [⟨⟨0, 17⟩, .RO⟩]⟩,
  ⟨0x48400200, [(9, 0x4)], 0x0,
    [⟨⟨0, 32⟩, .RW⟩]⟩,
  ⟨0x48400280, [], 0x0,
    [⟨⟨0, 32⟩, .RW⟩]⟩,
  ⟨0x48400300, [], 0x0,
    [⟨⟨0, 1⟩, .RW⟩]⟩,
  ⟨0x48400304, [], 0x0,
    [⟨⟨16, 16⟩, .RO⟩, ⟨⟨12, 4⟩, .RO⟩, ⟨⟨2, 1⟩, .W1C⟩, ⟨⟨1, 1⟩, .W1C⟩, ⟨⟨0, 1⟩, .W1C⟩]⟩,
  ⟨0x48440000, [(65536, 0x4)], 0x0,
    [⟨⟨8, 1⟩, .RW⟩, ⟨⟨4, 4⟩, .RW⟩, ⟨⟨0, 4⟩, .RW⟩]⟩,
  ⟨0x1E0000000, [(9, 0x100000000)], 0x80000000,
    [⟨⟨31, 1⟩, .RO⟩, ⟨⟨30, 1⟩, .RO⟩, ⟨⟨0, 30⟩, .RO⟩]⟩,
  ⟨0x1E0000004, [(9, 0x100000000)], 0x0,
    [⟨⟨0, 32⟩, .RO⟩]⟩,
  ⟨0x1E0000008, [(9, 0x100000000)], 0x0,
    [⟨⟨0, 32⟩, .RO⟩]⟩,
  ⟨0x1E000000C, [(9, 0x100000000)], 0x0,
    [⟨⟨0, 32⟩, .RO⟩]⟩,
  ⟨0x1E0000010, [(9, 0x100000000)], 0x0,
    [⟨⟨0, 32⟩, .WO⟩]⟩,
  ⟨0x1E0000014, [(9, 0x100000000)], 0x00000010,
    [⟨⟨16, 16⟩, .RO⟩, ⟨⟨8, 5⟩, .RO⟩, ⟨⟨4, 1⟩, .RO⟩, ⟨⟨0, 4⟩, .RO⟩]⟩,
  ⟨0x1E0000018, [(9, 0x100000000)], 0x01000000,
    [⟨⟨24, 8⟩, .RW⟩, ⟨⟨20, 1⟩, .RW⟩, ⟨⟨16, 4⟩, .RW⟩, ⟨⟨0, 10⟩, .RW⟩]⟩,
  ⟨0x1E000001C, [(9, 0x100000000)], 0x0,
    [⟨⟨25, 1⟩, .W1C⟩, ⟨⟨24, 1⟩, .RO⟩, ⟨⟨0, 17⟩, .RO⟩]⟩]

/-- The ECC registers. -/
def regsECC : List RegDesc := [
  ⟨0x48600000, [(16, 0x4)], 0x0,
    [⟨⟨0, 32⟩, .RW⟩]⟩,
  ⟨0x48600040, [(16, 0x4)], 0x00000100,
    [⟨⟨0, 16⟩, .RW⟩]⟩,
  ⟨0x48600080, [(16, 0x4)], 0x0,
    [⟨⟨16, 16⟩, .RW⟩, ⟨⟨0, 16⟩, .RW⟩]⟩,
  ⟨0x486000C0, [(16, 0x4)], 0x0,
    [⟨⟨3, 29⟩, .RO⟩]⟩,
  ⟨0x48600100, [], 0x0,
    [⟨⟨16, 16⟩, .W1C⟩, ⟨⟨0, 16⟩, .W1C⟩]⟩,
  ⟨0x48600200, [], 0x15180001,
    [⟨⟨12, 20⟩, .RW⟩, ⟨⟨0, 1⟩, .RW⟩]⟩,
  ⟨0x48600204, [], 0x0,
    [⟨⟨16, 16⟩, .RO⟩, ⟨⟨5, 1⟩, .W1C⟩, ⟨⟨0, 4⟩, .RO⟩]⟩,
  ⟨0x48600208, [], 0x0,
    [⟨⟨0, 32⟩, .RO⟩]⟩,
  ⟨0x48601000, [(16, 0x100), (16, 0x10)], 0x0,
    [⟨⟨3, 29⟩, .RO⟩, ⟨⟨0, 1⟩, .W1C⟩]⟩,
  ⟨0x48601004, [(16, 0x100), (16, 0x10)], 0x0,
    [⟨⟨24, 8⟩, .RO⟩, ⟨⟨16, 4⟩, .RO⟩, ⟨⟨0, 2⟩, .RO⟩]⟩]

/-- The ARB registers. -/
def regsARB : List RegDesc := [
  ⟨0x48700000, [(16, 0x4)], 0,
    [⟨⟨0, 8⟩, .RW⟩]⟩,
  ⟨0x48700040, [(16, 0x4)], 0x0,
    [⟨⟨0, 32⟩, .RW⟩]⟩,
  ⟨0x48700080, [(16, 0x4)], 0x0,
    [⟨⟨0, 32⟩, .RW⟩]⟩,
  ⟨0x48700100, [], 0x0,
    [⟨⟨16, 16⟩, .RW⟩, ⟨⟨0, 16⟩, .RW⟩]⟩,
  ⟨0x48700104, [], 0x00003C00,
    [⟨⟨8, 8⟩, .RO⟩, ⟨⟨0, 1⟩, .W1C⟩]⟩]

/-- The DMA registers. -/
def regsDMA : List RegDesc := [
  ⟨0x48500000, [(2, 0x10000), (16, 0x40)], 0x0,
    [⟨⟨4, 28⟩, .RW⟩]⟩,
  ⟨0x48500004, [(2, 0x10000), (16, 0x40)], 0x0,
    [⟨⟨8, 7⟩, .RW⟩, ⟨⟨0, 2⟩, .RW⟩]⟩,
  ⟨0x48500008, [(2, 0x10000), (16, 0x40)], 0x0,
    [⟨⟨1, 1⟩, .WO⟩, ⟨⟨0, 1⟩, .RW⟩]⟩,
  ⟨0x4850000C, [(2, 0x10000), (16, 0x40)], 0x0,
    [⟨⟨5, 1⟩, .W1C⟩, ⟨⟨4, 1⟩, .W1C⟩, ⟨⟨3, 1⟩, .W1C⟩, ⟨⟨2, 1⟩, .W1C⟩, ⟨⟨1, 1⟩, .RO⟩, ⟨⟨0, 1⟩, .RO⟩]⟩,
  ⟨0x48500010, [(2, 0x10000), (16, 0x40)], 0x0,
    [⟨⟨4, 28⟩, .RO⟩]⟩,
  ⟨0x48500014, [(2, 0x10000), (16, 0x40)], 0x0,
    [⟨⟨0, 17⟩, .RO⟩]⟩,
  ⟨0x48500018, [(2, 0x10000), (16, 0x40)], 0x0,
    [⟨⟨0, 32⟩, .RO⟩]⟩,
  ⟨0x4850001C, [(2, 0x10000), (16, 0x40)], 0x0,
    [⟨⟨8, 4⟩, .RO⟩, ⟨⟨0, 2⟩, .RO⟩]⟩,
  ⟨0x48500800, [(2, 0x10000)], 0x0,
    [⟨⟨16, 4⟩, .RO⟩, ⟨⟨0, 1⟩, .RO⟩]⟩]

/-- The SGN registers. -/
def regsSGN : List RegDesc := [
  ⟨0x48800000, [], 0x0,
    [⟨⟨11, 1⟩, .W1C⟩, ⟨⟨10, 1⟩, .RO⟩, ⟨⟨9, 1⟩, .RO⟩, ⟨⟨8, 1⟩, .W1C⟩, ⟨⟨7, 1⟩, .W1C⟩, ⟨⟨6, 1⟩, .W1C⟩,
     ⟨⟨5, 1⟩, .W1C⟩, ⟨⟨4, 1⟩, .RO⟩, ⟨⟨3, 1⟩, .RO⟩, ⟨⟨2, 1⟩, .RO⟩, ⟨⟨1, 1⟩, .RO⟩, ⟨⟨0, 1⟩, .RO⟩]⟩,
  ⟨0x48800004, [], 0x0,
    [⟨⟨0, 16⟩, .RO⟩]⟩,
  ⟨0x48800008, [], 0,
    [⟨⟨0, 16⟩, .RW⟩]⟩,
  ⟨0x4880000C, [], 0,
    [⟨⟨0, 16⟩, .RW⟩]⟩,
  ⟨0x48800010, [], 0,
    [⟨⟨0, 32⟩, .RO⟩]⟩,
  ⟨0x48800014, [], 0x00070000,
    [⟨⟨31, 1⟩, .WO⟩, ⟨⟨16, 8⟩, .RW⟩, ⟨⟨0, 16⟩, .RW⟩]⟩,
  ⟨0x48800018, [], 0x01F407D0,
    [⟨⟨16, 16⟩, .RW⟩, ⟨⟨0, 16⟩, .RW⟩]⟩,
  ⟨0x4880001C, [], 0x0,
    [⟨⟨0, 32⟩, .RO⟩]⟩,
  ⟨0x48800020, [], 0,
    [⟨⟨0, 16⟩, .RW⟩]⟩,
  ⟨0x48800024, [], 0x0,
    [⟨⟨8, 24⟩, .RO⟩, ⟨⟨0, 8⟩, .RO⟩]⟩,
  ⟨0x48800028, [], 0x000000FA,
    [⟨⟨0, 16⟩, .RW⟩]⟩,
  ⟨0x4880002C, [], 0x0,
    [⟨⟨0, 32⟩, .RO⟩]⟩,
  ⟨0x48800030, [], 0x000E7EF0,
    [⟨⟨0, 32⟩, .RW⟩]⟩,
  ⟨0x48800034, [], 0x00004E20,
    [⟨⟨0, 32⟩, .RW⟩]⟩,
  ⟨0x48800038, [], 0x0,
    [⟨⟨0, 32⟩, .RO⟩]⟩,
  ⟨0x4880003C, [], 0x0,
    [⟨⟨0, 19⟩, .RO⟩]⟩,
  ⟨0x48800040, [], 0x0,
    [⟨⟨0, 19⟩, .RO⟩]⟩,
  ⟨0x48800044, [], 0x0000016D,
    [⟨⟨0, 16⟩, .RW⟩]⟩,
  ⟨0x48800048, [], 0x0,
    [⟨⟨16, 16⟩, .RW⟩, ⟨⟨0, 16⟩, .RW⟩]⟩,
  ⟨0x48800050, [], 0x0,
    [⟨⟨0, 32⟩, .RO⟩]⟩,
  ⟨0x48800054, [], 0x0,
    [⟨⟨0, 16⟩, .RO⟩]⟩]

/-- The MBX registers. -/
def regsMBX : List RegDesc := [
  ⟨0x48900000, [(16, 0x100), (16, 0x4)], 0x0,
    [⟨⟨0, 32⟩, .RW⟩]⟩,
  ⟨0x48900040, [(16, 0x100), (16, 0x4)], 0x0,
    [⟨⟨0, 32⟩, .RO⟩]⟩,
  ⟨0x48900080, [(16, 0x100)], 0x0,
    [⟨⟨2, 1⟩, .W1C⟩, ⟨⟨1, 1⟩, .RO⟩, ⟨⟨0, 1⟩, .RO⟩]⟩,
  ⟨0x48900084, [(16, 0x100)], 0,
    [⟨⟨0, 3⟩, .RO⟩]⟩]

/-- The CHN registers. -/
def regsCHN0 : List RegDesc := [
  ⟨0x48A00000, [(4, 0x10000)], 0x0,
    [⟨⟨9, 1⟩, .RW⟩, ⟨⟨8, 1⟩, .RWL⟩, ⟨⟨4, 2⟩, .RWL⟩, ⟨⟨0, 1⟩, .RW⟩]⟩,
  ⟨0x48A00004, [(4, 0x10000)], 0x0,
    [⟨⟨4, 1⟩, .W1C⟩, ⟨⟨3, 1⟩, .W1C⟩, ⟨⟨2, 1⟩, .W1C⟩, ⟨⟨1, 1⟩, .W1C⟩, ⟨⟨0, 1⟩, .RO⟩]⟩,
  ⟨0x48A00008, [(4, 0x10000)], 0,
    [⟨⟨0, 32⟩, .RWL⟩]⟩,
  ⟨0x48A0000C, [(4, 0x10000)], 0,
    [⟨⟨0, 16⟩, .RWL⟩]⟩,
  ⟨0x48A00010, [(4, 0x10000)], 0x76543210,
    [⟨⟨28, 3⟩, .RW⟩, ⟨⟨24, 3⟩, .RW⟩, ⟨⟨20, 3⟩, .RW⟩, ⟨⟨16, 3⟩, .RW⟩, ⟨⟨12, 3⟩, .RW⟩, ⟨⟨8, 3⟩, .RW⟩,
     ⟨⟨4, 3⟩, .RW⟩, ⟨⟨0, 3⟩, .RW⟩]⟩,
  ⟨0x48A00014, [(4, 0x10000)], 0x0,
    [⟨⟨0, 5⟩, .RW⟩]⟩,
  ⟨0x48A00020, [(4, 0x10000)], 0x0,
    [⟨⟨4, 28⟩, .RWL⟩]⟩,
  ⟨0x48A00024, [(4, 0x10000)], 0x00000400,
    [⟨⟨8, 4⟩, .RWL⟩]⟩,
  ⟨0x48A00028, [(4, 0x10000)], 0x0,
    [⟨⟨0, 10⟩, .RO⟩]⟩,
  ⟨0x48A00100, [(4, 0x10000), (8, 0x10)], 0x0,
    [⟨⟨4, 28⟩, .RWL⟩]⟩,
  ⟨0x48A00104, [(4, 0x10000), (8, 0x10)], 0x00000400,
    [⟨⟨8, 4⟩, .RWL⟩]⟩,
  ⟨0x48A00108, [(4, 0x10000), (8, 0x10)], 0x0,
    [⟨⟨0, 10⟩, .RO⟩]⟩,
  ⟨0x48A0010C, [(4, 0x10000), (8, 0x10)], 0x0,
    [⟨⟨0, 32⟩, .WO⟩]⟩,
  ⟨0x48A00200, [(4, 0x10000)], 0x0,
    [⟨⟨2, 1⟩, .RO⟩, ⟨⟨1, 1⟩, .WO⟩, ⟨⟨0, 1⟩, .RW⟩]⟩,
  ⟨0x48A00204, [(4, 0x10000)], 0x000F4240,
    [⟨⟨0, 30⟩, .RWS⟩]⟩,
  ⟨0x48A00208, [(4, 0x10000)], 0x0,
    [⟨⟨0, 32⟩, .RWS⟩]⟩,
  ⟨0x48A0020C, [(4, 0x10000)], 0x0,
    [⟨⟨0, 32⟩, .RWS⟩]⟩,
  ⟨0x48A00210, [(4, 0x10000)], 0x1,
    [⟨⟨0, 7⟩, .RWS⟩]⟩,
  ⟨0x48A00400, [(4, 0x10000), (64, 0x4)], 0xFF000000,
    [⟨⟨24, 8⟩, .RWS⟩, ⟨⟨0, 24⟩, .RWS⟩]⟩,
  ⟨0x48A40000, [], 0x0,
    [⟨⟨2, 1⟩, .RW⟩, ⟨⟨1, 1⟩, .RW⟩, ⟨⟨0, 1⟩, .RW⟩]⟩,
  ⟨0x48A40004, [], 0x0,
    [⟨⟨1, 1⟩, .W1C⟩, ⟨⟨0, 1⟩, .RO⟩]⟩,
  ⟨0x48A40008, [], 0x0,
    [⟨⟨0, 32⟩, .RW⟩]⟩,
  ⟨0x48A4000C, [], 0x0,
    [⟨⟨0, 32⟩, .RW⟩]⟩,
  ⟨0x48A40010, [], 0x000088B5,
    [⟨⟨0, 16⟩, .RW⟩]⟩]

/-- The CHN registers. -/
def regsCHN1 : List RegDesc := [
  ⟨0x48A40014, [], 0x0000012C,
    [⟨⟨0, 16⟩, .RW⟩]⟩]

/-- The CHN registers. -/
def regsCHN : List RegDesc := regsCHN0 ++ regsCHN1

/-- The CAN registers. -/
def regsCAN : List RegDesc := [
  ⟨0x48B00000, [(6, 0x10000)], 0x1,
    [⟨⟨6, 1⟩, .RW⟩, ⟨⟨5, 1⟩, .RWL⟩, ⟨⟨4, 1⟩, .RWL⟩, ⟨⟨3, 1⟩, .RW⟩, ⟨⟨2, 1⟩, .RWL⟩, ⟨⟨1, 1⟩, .RWL⟩, ⟨⟨0, 1⟩, .RW⟩]⟩,
  ⟨0x48B00004, [(6, 0x10000)], 0x4F141400,
    [⟨⟨24, 8⟩, .RWL⟩, ⟨⟨16, 8⟩, .RWL⟩, ⟨⟨8, 8⟩, .RWL⟩]⟩,
  ⟨0x48B00008, [(6, 0x10000)], 0x00000A00,
    [⟨⟨0, 24⟩, .RWL⟩]⟩,
  ⟨0x48B0000C, [(6, 0x10000)], 0x13050500,
    [⟨⟨24, 8⟩, .RWL⟩, ⟨⟨16, 8⟩, .RWL⟩, ⟨⟨8, 8⟩, .RWL⟩]⟩,
  ⟨0x48B00010, [(6, 0x10000)], 0x00000A00,
    [⟨⟨0, 24⟩, .RWL⟩]⟩,
  ⟨0x48B00014, [(6, 0x10000)], 0x0,
    [⟨⟨0, 8⟩, .RWL⟩]⟩,
  ⟨0x48B00018, [(6, 0x10000)], 0x0,
    [⟨⟨5, 1⟩, .W1C⟩, ⟨⟨4, 1⟩, .W1C⟩, ⟨⟨3, 1⟩, .RO⟩, ⟨⟨2, 1⟩, .RO⟩, ⟨⟨1, 1⟩, .RO⟩, ⟨⟨0, 1⟩, .RO⟩]⟩,
  ⟨0x48B0001C, [(6, 0x10000)], 0x0,
    [⟨⟨16, 9⟩, .RO⟩, ⟨⟨0, 8⟩, .RO⟩]⟩,
  ⟨0x48B00020, [(6, 0x10000)], 0x0,
    [⟨⟨0, 5⟩, .RW⟩]⟩,
  ⟨0x48B00024, [(6, 0x10000)], 0x0,
    [⟨⟨31, 1⟩, .RW⟩, ⟨⟨0, 29⟩, .RW⟩]⟩,
  ⟨0x48B00040, [(6, 0x10000)], 0x0,
    [⟨⟨0, 16⟩, .WO⟩]⟩,
  ⟨0x48B00044, [(6, 0x10000)], 0x0,
    [⟨⟨0, 16⟩, .RO⟩]⟩,
  ⟨0x48B00048, [(6, 0x10000)], 0x0,
    [⟨⟨0, 16⟩, .WO⟩]⟩,
  ⟨0x48B00050, [(6, 0x10000)], 0x0,
    [⟨⟨0, 32⟩, .WO⟩]⟩,
  ⟨0x48B00054, [(6, 0x10000)], 0x0,
    [⟨⟨0, 6⟩, .RO⟩]⟩,
  ⟨0x48B00100, [(6, 0x10000), (16, 0x8)], 0x0,
    [⟨⟨31, 1⟩, .RWL⟩, ⟨⟨30, 1⟩, .RWL⟩, ⟨⟨0, 29⟩, .RWL⟩]⟩,
  ⟨0x48B00104, [(6, 0x10000), (16, 0x8)], 0x0,
    [⟨⟨0, 29⟩, .RWL⟩]⟩,
  ⟨0x48B01000, [(6, 0x10000), (16, 0x50), (18, 0x4)], 0x0,
    [⟨⟨0, 32⟩, .RW⟩]⟩,
  ⟨0x48B02000, [(6, 0x10000), (20, 0x4)], 0x0,
    [⟨⟨0, 32⟩, .RO⟩]⟩]

/-- The CAP registers. -/
def regsCAP : List RegDesc := [
  ⟨0x4F000000, [(15, 0x4)], 0,
    [⟨⟨0, 32⟩, .RO⟩]⟩]

end Sys2Proof.Machine
end

