-- ==== Sys2Proof/Machine/Tab.lean ====
section
/-! DEFINITION. Tables: lists of (key, value) pairs in one canonical form. Keys rise strictly, and no entry equals
what an unlisted key reads as, so equal tables are equal data. -/

namespace Sys2Proof.Machine
open Sys2Proof

/-- A sparse table from natural keys to values. -/
abbrev Tab (α : Type) := List (Nat × α)

/-- The entry of key `k`, if one is listed. -/
def tabFind {α : Type} : Tab α → Nat → Option α
  | [], _ => none
  | (j, v) :: t, k => if j = k then some v else tabFind t k

/-- The value at key `k`; an unlisted key reads as `dflt`. -/
def tabGet {α : Type} (dflt : α) (t : Tab α) (k : Nat) : α := (tabFind t k).getD dflt

/-- The table without key `k`. -/
def tabDel {α : Type} : Tab α → Nat → Tab α
  | [], _ => []
  | (j, v) :: t, k => if j = k then tabDel t k else (j, v) :: tabDel t k

/-- Insert a pair before the first larger key. -/
def tabIns {α : Type} (k : Nat) (v : α) : Tab α → Tab α
  | [] => [(k, v)]
  | (j, w) :: t => if k < j then (k, v) :: (j, w) :: t else (j, w) :: tabIns k v t

/-- The table with `v` at key `k`; writing the value an unlisted key reads as removes the entry. -/
def tabSet {α : Type} [DecidableEq α] (dflt : α) (t : Tab α) (k : Nat) (v : α) : Tab α :=
  if v = dflt then tabDel t k else tabIns k v (tabDel t k)

/-- Keys rise strictly and lie above `lo`. -/
def tabRising {α : Type} : Nat → Tab α → Bool
  | _, [] => true
  | lo, (j, _) :: t => decide (lo ≤ j) && tabRising (j + 1) t

/-- The canonical form: keys rise strictly, no entry equals what an unlisted key reads as. -/
def tabWf {α : Type} [DecidableEq α] (dflt : Nat → α) (t : Tab α) : Bool :=
  tabRising 0 t && t.all fun e => decide (e.2 ≠ dflt e.1)

end Sys2Proof.Machine
end

