-- ==== Sys2Proof/Machine/State.lean ====
section
/-! DEFINITION. The state of the block as plain data: every register of the register map, every piece of state a
chapter names or implies, and the queue of waiting commands; the state after reset. -/

namespace Sys2Proof.Machine
open Sys2Proof

/-- Bus errors (spec/00_scope.md R16). -/
inductive BErr where
  | none | ue | absent | priv | decode | locked
  deriving DecidableEq, Repr

/-- What the interconnect last returned to a requester: the data of a read and the bus error. -/
structure Resp where
  data : Word := 0
  err  : BErr := .none
  deriving DecidableEq, Repr

/-- The family members (spec/00_scope.md, family table). -/
inductive Part where
  | gvz1600 | gvz3200 | gvz6400 | gvz9600
  deriving DecidableEq, Repr

/-- A shadow write waiting for the boundary of its block (spec/02_timing_model.md R59): bits `mask` of the register at
`addr` take those of `val`; recorded on `tick`. -/
structure Shadow where
  addr : Nat
  mask : Nat
  val  : Nat
  tick : Nat
  deriving DecidableEq, Repr

/-- A step of the block that comes about on a later tick. -/
structure Due where
  tick : Nat
  cmd  : Instr
  deriving DecidableEq, Repr

/-- A raised Pendant source not yet appended: payload, timestamp and the routing entry in force (spec/14_pendant.md
R465, R466, R473). -/
structure RaiseEv where
  src     : Nat
  payload : Nat
  ts      : Nat
  route   : Nat
  deriving DecidableEq, Repr

/-- An event in transit on a Filigree channel (spec/10_filigree.md R333). -/
structure Transit where
  ch     : Nat
  origin : Nat
  deriving DecidableEq, Repr

/-- A pending event of a consumer input: the tick of its action and whether it acts late (R343, R344). On a commit input of a
core an event keeps its origin, and `due` is its recording tick, until it is recorded (spec/11_clasp_transactions.md R377). -/
structure PendEv where
  due    : Nat
  late   : Bool
  origin : Option Nat := none
  deriving DecidableEq, Repr

/-- A filtered change of a cell on its way to O: the tick it arrives, the level and its origin (R350). -/
structure CellH where
  due : Option (Nat × Bool × Nat) := none
  deriving DecidableEq, Repr

/-- A Tally timer beside its registers: tick of the next advance (R105), ticks of the last start, stop, reset and period end
(R113), ONE_DONE before the last reset (R107). -/
structure TimerH where
  next    : Nat := 0
  startAt : Option Nat := none
  stopAt  : Option Nat := none
  resetAt : Option Nat := none
  endAt   : Option Nat := none
  oneWas  : Bool := false
  deriving DecidableEq, Repr

/-- A TLY_GO command in waiting (R121): CMD, release tick, select words as one number, requester. -/
structure GoH where
  cmd  : Nat
  tick : Nat
  sel  : Nat
  req  : Nat
  deriving DecidableEq, Repr

/-- A PWM pair beside its registers (R130-R162): last boundary, period number, tick of a scheduled SLAVE boundary,
references, outputs waiting for a turn-on, deadlines of delayed turn-ons and last turn-offs (in 1/64 ticks), last
writes of the period and duty groups, held group with the end of its window, trip latch with its tick and line, tick
of an accepted clear, outputs waiting for a boundary (R141), a safe state still forced until that boundary (R164). -/
structure PairH where
  k       : Nat := 0
  lastB   : Option Nat := none
  sched   : Option Nat := none
  refA    : Bool := false
  refB    : Bool := false
  wantA   : Bool := false
  wantB   : Bool := false
  onA     : Option Nat := none
  onB     : Option Nat := none
  offA    : Nat := 0
  offB    : Nat := 0
  lastP   : Option Nat := none
  lastD   : Option Nat := none
  held    : Option (Bool × Nat) := none
  latch   : Option (Nat × Nat) := none
  clearAt : Option Nat := none
  blocked : Bool := true
  forced  : Bool := false
  deriving DecidableEq, Repr

/-- A trip line: start tick of its open blanking window, and whether the gate cut it (R156, R158). -/
structure LineH where
  since : Option Nat := none
  cut   : Bool := false
  deriving DecidableEq, Repr

/-- A calibration cycle of a channel (R196-R198): steps done, sums of raw codes, windows used. -/
structure CalH where
  step    : Nat := 0
  sumLo   : Nat := 0
  sumHi   : Nat := 0
  windows : Nat := 0
  deriving DecidableEq, Repr

/-- An analog channel beside its registers (R172-R198): acquisition start, end of the busy window, commit tick of the last
mode change, comparator held in settling, comparator output, an assertion not yet recorded, whether the DAC drives
ACH_DAC again after RUN began, a result held by a plausibility check (code, clamped, sampling instant), retry in
progress, calibration cycle. -/
structure ChanH where
  acq      : Option Nat := none
  busyEnd  : Nat := 0
  settle   : Option Nat := none
  compHold : Bool := false
  cmp      : Bool := false
  cmpPend  : Bool := false
  driven   : Bool := true
  first    : Option (Nat × Bool × Nat) := none
  retry    : Bool := false
  cal      : Option CalH := none
  deriving DecidableEq, Repr

/-- The sample set of an island (R184): open, and its opening tick; groups that software triggered and the tick of the write
(R174). -/
structure SetH where
  opened : Bool := false
  at_    : Nat := 0
  sw     : Nat := 0
  swAt   : Nat := 0
  deriving DecidableEq, Repr

/-- A sigma-delta input (R201-R205): the sinc3 integrators and combs, bits in the window, the last 32 bits, the
confirm count, the run of equal bits, results still settling, a closed window's F and tick. -/
structure SdmH where
  i1 : Int := 0
  i2 : Int := 0
  i3 : Int := 0
  c1 : Int := 0
  c2 : Int := 0
  c3 : Int := 0
  bits   : Nat := 0
  recent : List Bool := []
  conf   : Nat := 0
  run    : Nat := 0
  settle : Nat := 0
  closed : Option (Int × Nat) := none
  deriving DecidableEq, Repr

/-- A modulator clock (R200): tick of its next rising edge, and the tick of the last SYNC edge. -/
structure SdClkH where
  next : Nat := 0
  sync : Option Nat := none
  deriving DecidableEq, Repr

/-- A rod (R214-R227): working registers, staged S words, accumulators, predicate, address, running, finished, SAT. -/
structure RodH where
  w    : Tab Word := []
  s    : Tab (Option Word) := []
  a0   : Int := 0
  a1   : Int := 0
  p    : Bool := false
  pc   : Nat := 0
  run  : Bool := false
  done : Bool := false
  sat  : Bool := false
  deriving DecidableEq, Repr

/-- The frame of an island (R214-R217, R223, R238-R240): running, start tick, recorded completion, whether the guard judges
this period, whether the period had a start, exchange words, staged outputs and link words, what each microinstruction
wrote (by rod and address), the output values in force, the link words and VALID words at its start (R241). -/
structure FrameH where
  running : Bool := false
  startAt : Nat := 0
  doneAt  : Option Nat := none
  judge   : Bool := false
  started : Bool := false
  x       : Tab (Option Word) := []
  out     : Tab (Option Word) := []
  link    : Tab (Option Word) := []
  ops     : Tab (Option Word) := []
  slots   : Tab Word := []
  links   : List Word := []
  deriving DecidableEq, Repr

/-- A trace (R276-R278): trigger pending, boundaries to the next record, records written, records left after the
trigger, last value of the compared node, sequence number. -/
structure TraceH where
  trig : Bool := false
  skip : Nat := 0
  recs : Nat := 0
  post : Option Nat := none
  last : Option Int := none
  seq  : Nat := 0
  deriving DecidableEq, Repr

/-- A feedback interface (R284-R302): recorded and accepted levels, which inputs have an accepted level (bit 6: a serial
word), ticks of the last recorded changes, filter samples that showed the recorded level, the speed window (edge time,
signed count; newest first), sign of the last selected edge (true: -1), newest edge time, an illegal change and an
IDX_ERR since the last snap, tick of the last snap, entries of the last snap not yet recorded. -/
structure FbkH where
  rec_   : Nat := 0
  acc    : Nat := 0
  known  : Nat := 0
  chg    : Tab Nat := []
  smp    : Tab Nat := []
  win    : List (Nat × Int) := []
  neg    : Option Bool := none
  newest : Option Nat := none
  bad    : Bool := false
  idxBad : Bool := false
  snap   : Option Nat := none
  ent    : List Int := []
  deriving DecidableEq, Repr

/-- A Bead engine (R307-R328): queues, last taken word, mark, strobe 0 and number of the next strobe, held levels, CK
half done, requested stop, in a shift, in WAIT WIN, pins at their safe levels. -/
structure BeadH where
  tx    : List Word := []
  rx    : List (Word × Nat) := []
  taken : Word := 0
  mark  : Option Nat := none
  s0    : Nat := 0
  n     : Nat := 0
  p1    : Bool := false
  p2    : Bool := false
  half  : Bool := false
  stop  : Option Nat := none
  shift : Bool := false
  wwin  : Bool := false
  safe  : Bool := false
  deriving DecidableEq, Repr

/-- One entry of a register clasp (R370): bytes `mask` of the word at `addr`, or a bit write. -/
structure ClaspEntry where
  addr : Nat
  mask : Nat
  val  : Nat
  bit  : Bool
  deriving DecidableEq, Repr

/-- The clasp of a core (R366-R383). -/
structure ClaspH where
  held    : Bool := false
  ledger  : Bool := false
  closed  : Bool := false
  bank    : Nat := 0
  entries : List ClaspEntry := []
  mode    : Nat := 0
  t       : Nat := 0
  k       : Nat := 0
  rd      : Option Nat := none
  at_     : Option Nat := none
  status  : Nat := 0
  deriving DecidableEq, Repr

/-- An entry of a store buffer (R432): address, size in bytes (0: a bit write) and value. -/
structure SbEntry where
  addr : Nat
  size : Nat
  val  : Nat
  deriving DecidableEq, Repr

/-- A core beside its registers (R421-R461): released from reset, program counter, `rep` 256 before the first of 256
repetitions and else 0 (STATUS.RCNT holds the others), `hold` 1 until the first repetition under REPI and 2 until the last
under REP (no interrupt is taken), store buffer, error of a drained store, waiting in WFI, one unit to run, captured loop,
the 8-byte word whose next read by the core ends with UE (R496), waiting in CLCLOSE (spec/11_clasp_transactions.md
R372). -/
structure CoreH where
  run   : Bool := false
  pc    : Nat := 0
  rep   : Nat := 0
  hold  : Nat := 0
  sb    : List SbEntry := []
  impr  : Option (Nat × BErr) := none
  wfi   : Bool := false
  step1 : Bool := false
  loop  : Option (Nat × Nat) := none
  ue    : Option Nat := none
  close : Bool := false
  deriving DecidableEq, Repr

/-- An unclaimed or claimed record of a ring (R474, R479). -/
structure RecH where
  idx     : Nat
  src     : Nat
  prio    : Nat
  ts      : Nat
  claimed : Bool
  deriving DecidableEq, Repr

/-- A Pendant ring and its core's stack (R471-R480). -/
structure RingH where
  recs     : List RecH := []
  lap      : Bool := true
  before   : Nat := 0
  reported : Bool := false
  stack    : List Nat := []
  deriving DecidableEq, Repr

/-- A DMA channel (R515-R520): DMA_CH_CFG as last read, whether its descriptor is loaded, present addresses, control word,
next, beats left in the burst. -/
structure DmaH where
  cfg    : Word := 0
  loaded : Bool := false
  src    : Nat := 0
  dst    : Nat := 0
  ctl    : Nat := 0
  next   : Nat := 0
  burst  : Nat := 0
  deriving DecidableEq, Repr

/-- A slot of the ledger array (R535). -/
structure Slot where
  writes : Nat := 0
  seq    : Nat := 0
  n      : Nat := 0
  kind   : Nat := 0
  record : Nat := 0
  data   : List Byte := []
  bad    : Bool := false
  born   : Nat := 0
  deriving DecidableEq, Repr

/-- A record of the ledger (R530). -/
structure LRec where
  type    : Nat := 0
  minInt  : Nat := 100
  layout  : Nat := 0
  group   : Nat := 0
  gcount  : Nat := 0
  version : Nat := 0
  data    : List Byte := List.replicate 64 0
  commits : Nat := 0
  slot    : Option Nat := none
  tt      : Nat := 0
  fallback : Bool := false
  damaged : Bool := false
  last    : Option Nat := none
  born    : Nat := 0
  deriving DecidableEq, Repr

/-- A record write (R533, R568-R570) by `op`: 0 a type with MIN_INT and TYPE in `val`; 1 SET and 2 ADD of counter `k` with
`val` (an ADD as 128-bit two's complement); 3 BLOB with the covered bytes as a mask in `val`; 4 and 5 the halves of a log
entry; 6 a whole log entry. -/
structure LWrite where
  rec_  : Nat := 0
  op    : Nat := 0
  k     : Nat := 0
  val   : Nat := 0
  layout : Nat := 0
  group : Nat := 0
  gcount : Nat := 0
  bytes : List Byte := []
  deriving DecidableEq, Repr

/-- A ledger clasp: the origins of the requests in it (mailbox 0-15, or 0xFE for a session's, R555) and its record
writes. -/
structure LClasp where
  origins : List Nat := []
  writes  : List LWrite := []
  deriving DecidableEq, Repr

/-- The ledger engine (R526-R552): records, slots, the cache of deferred clasps, held clasps and kept LOG0 halves by owner
(core 0-8, or 16 + session), queued log appends, members of the last-gasp set and their buffer, the commit in progress
(true: of a deferred clasp) and its start, the saved bucket, refresh passes, token-taking writes since the last move,
ticks of powered time before this power-on, the next try of a clasp that met HOLDUP_LOW, the capacitance test (0 none,
1 requested, 2 first attempt, 3 repeat awaited, 4 repeat), V1 and the powered time of its last start. -/
structure LedgerH where
  recs    : Tab LRec := []
  slots   : Tab Slot := []
  cache   : List LClasp := []
  held    : Tab LClasp := []
  log0    : Tab LWrite := []
  logq    : List LClasp := []
  lg      : List Nat := []
  buf     : Tab (List Byte) := []
  active  : Option (LClasp × Bool) := none
  since   : Nat := 0
  saved   : Nat := 0
  passes  : Nat := 0
  moveW   : Nat := 0
  powered : Nat := 0
  retryAt : Nat := 0
  test    : Nat := 0
  v1      : Nat := 0
  testAt  : Nat := 0
  deriving DecidableEq, Repr

/-- A request that Chozer has to answer (R560): mailbox number, or 16 + session, with its words and the tick of its post or
arrival. -/
structure Request where
  origin : Nat
  words  : List Word
  tick   : Nat := 0
  ext    : Option ExtMsg := none
  deriving DecidableEq, Repr

/-- A session or an unanswered challenge (R577-R583). -/
structure Sess where
  opened   : Bool := false
  sid      : Nat := 0
  link     : Nat := 0
  src      : Nat := 0
  role     : Nat := 0
  token    : List Byte := []
  ctr      : Nat := 0
  discards : Nat := 0
  last     : Nat := 0
  pass     : Bool := false
  slot     : Nat := 0
  nc       : List Byte := []
  nd       : List Byte := []
  used     : Bool := true
  at_      : Nat := 0
  deriving DecidableEq, Repr

/-- A credential slot: KEY slots 0-7, PASS slots 8-15 (R573, R582, R583). -/
structure Cred where
  value : List Byte := []
  role  : Nat := 0
  salt  : List Word := []
  iter  : Nat := 0
  fails : Nat := 0
  until_ : Nat := 0
  deriving DecidableEq, Repr

/-- A firmware image (R585-R589): its update state, the active slot, the slot it runs from, the versions of the active and the
other slot, FLOOR, and the update that is staged. -/
structure Img where
  state  : Nat := 0
  slotB  : Bool := false
  runB   : Bool := false
  verAct : Nat := 0
  verOth : Nat := 0
  floor  : Nat := 0
  len    : Nat := 0
  staged : Tab Byte := []
  got    : Tab Bool := []
  sigR   : List Word := []
  sigS   : List Word := []
  trialS : Nat := 0
  trialEnd : Nat := 0
  raise_ : Bool := false
  deriving DecidableEq, Repr

/-- Chozer's own state (R560, R573-R589). -/
structure ChozerH where
  reqs  : List Request := []
  out   : List (Nat × List Word) := []
  sess  : Tab Sess := []
  creds : Tab Cred := []
  updX  : List Word := []
  updY  : List Word := []
  imgs  : Tab Img := []
  debug : Bool := false
  debugSess : Nat := 0
  deriving DecidableEq, Repr

/-- An entry of the partner table (R574, R605). -/
structure Partner where
  ident : Nat
  port  : Nat
  rear  : Bool
  hop   : Nat
  seen  : Nat
  deriving DecidableEq, Repr

/-- The settings of CHN_CFG for a port (R602). -/
structure PortCfg where
  disc  : Bool := false
  rear  : Bool := false
  tsync : Bool := false
  deriving DecidableEq, Repr

/-- A Chain port's operating gate list (R594, R595): cycle and base in train-time ns, length, entries; start of the running
cycle; the train time of the swap that APPLY awaits. -/
structure GclH where
  cycle : Nat := 1000000
  base  : Nat := 0
  len   : Nat := 1
  ents  : List Nat := [0xFF000000]
  start : Nat := 0
  swap  : Nat := 0
  deriving DecidableEq, Repr

/-- Chain ports and switch (R590-R607): transmit rings being scanned, frames sent (port, bytes without FCS, good FCS), gate
lists, learned addresses (address, port, tick last seen), partners, whether source 0x0122 was raised and no entry freed
since, ticks at which identities were last seen on ports 0 and 1, the servo with its run of good Syncs, last error,
grandmaster and last Sync, tick of the last peer delay exchange by port, the stored settings of CHN_CFG and CHN_SWITCH,
what the switch forwarded when the Beam was lost. -/
structure NetH where
  scan     : Tab Bool := []
  sent     : List (Nat × List Byte × Bool) := []
  gcl      : Tab GclH := []
  macs     : List (Nat × Nat × Nat) := []
  partners : Tab (Option Partner) := []
  full     : Bool := false
  seen0    : Tab Nat := []
  seen1    : Tab Nat := []
  servo    : Nat := 0
  good     : Nat := 0
  err      : Int := 0
  gm       : Nat := 0
  lastSync : Nat := 0
  peer     : Tab Nat := []
  fwdLost  : Option Bool := none
  cfg      : Tab PortCfg := []
  swEn     : Bool := false
  swSafe   : Bool := false
  deriving DecidableEq, Repr

/-- A CAN FD controller beside its registers (R609-R613): receive FIFO (frame, tick, filter), the management message
being assembled, the buffer in arbitration, whether software set and cleared INIT while bus-off, frames sent. -/
structure CanH where
  fifo   : List (CanFrame × Nat × Nat) := []
  seg    : List Byte := []
  segNo  : Nat := 0
  segAt  : Nat := 0
  pick   : Option Nat := none
  recov  : Bool := false
  sent   : List CanFrame := []
  deriving DecidableEq, Repr

/-- Modes, power and watchdog (R618-R636, R643), governor (R78-R80): mode and mask kept during HALT, supply loss under way,
tick of the last kick and count of a paused watchdog, a wake held during entry (1 pin, 2 event), PWR_DORMANT taken, governor
tries, pending step and start of its quiet interval, power-on reset held, plausibility of Beam B, what START finds while it
runs. -/
structure PowerH where
  rec_   : Option (Nat × Nat) := none
  losing : Bool := false
  kick   : Nat := 0
  paused : Option Nat := none
  wake   : Nat := 0
  dormReq : Bool := false
  tries  : Nat := 0
  upPend : Bool := false
  quiet  : Nat := 0
  resetHeld : Bool := true
  plausB : Bool := true
  boot   : Option BootInfo := none
  deriving DecidableEq, Repr

/-- The block without its queue. Registers lie in `regs` by address; a register not listed holds its reset value. -/
structure Dev where
  part     : Part := .gvz9600
  beam     : Nat := 0
  stage    : Nat := 0
  free     : Nat := 0
  regs     : Tab Word := []
  mem      : List Host.Cell := []
  fresh    : Tab Nat := []
  shadow   : List Shadow := []
  agenda   : List Due := []
  bus      : Tab Resp := []
  latch    : Tab Nat := []
  bits     : Tab Bool := []
  grants   : Tab Nat := []
  raised   : List RaiseEv := []
  routeWas : Tab (Nat × Nat) := []
  rings    : Tab RingH := []
  transit  : List Transit := []
  chLast   : Tab Nat := []
  pend     : Tab (List PendEv) := []
  inLast   : Tab Nat := []
  gateHist : Tab (List Nat) := []
  cells    : Tab CellH := []
  timers   : Tab TimerH := []
  go       : Option GoH := none
  pairs    : Tab PairH := []
  lines    : Tab LineH := []
  chans    : Tab ChanH := []
  sets     : Tab SetH := []
  sdms     : Tab SdmH := []
  sdclks   : Tab SdClkH := []
  rods     : Tab RodH := []
  frames   : Tab FrameH := []
  presets  : Tab (Word × Nat) := []
  traces   : Tab TraceH := []
  fbks     : Tab FbkH := []
  beads    : Tab BeadH := []
  clasps   : Tab ClaspH := []
  cores    : Tab CoreH := []
  icache   : Tab Nat := []
  dcache   : Tab Nat := []
  dma      : Tab DmaH := []
  dmaBusy  : Tab (Option Nat) := []
  credits  : Tab Nat := []
  losses   : Tab Nat := []
  backoff  : Tab Nat := []
  ledger   : LedgerH := {}
  chozer   : ChozerH := {}
  net      : NetH := {}
  can      : Tab CanH := []
  power    : PowerH := {}
  diag     : Tab Nat := []
  scrubAt  : Nat := 0
  deriving DecidableEq, Repr

/-- The whole state: the queue of waiting commands, first in first out, and the block. -/
structure State where
  pending : List Instr
  hw      : Dev
  deriving DecidableEq, Repr

/-- Reasons to stop with a fault. No command of this block stops the machine: the type has one constructor, which nothing
raises (safe). -/
inductive Fault where
  | unreachable
  deriving DecidableEq, Repr

/-- Reasons to refuse a command. `notModelled` is raised by an arm of `exec` that has no meaning yet (safe). -/
inductive Refusal where
  | notModelled (mnemonic : String)
  deriving DecidableEq, Repr

/-- The state after power-on reset, before its release (spec/20_modes_power_boot.md R626): registers at their reset values,
no command waiting, memory with nothing listed. -/
def State.reset : State := { pending := [], hw := {} }

end Sys2Proof.Machine
end

