-- ==== Sys2Proof/Machine/Ops.lean ====
section
/-! DEFINITION. The named operations over registers, memory and the block's tables that every family uses: register
access, memory in canonical form, shadows, raising a Pendant source, firing an event, scheduling, modes, presence. -/

namespace Sys2Proof.Machine
open Sys2Proof

/-! ### Registers -/

/-- The instance of a register kind at an address, as its indices: one number per dimension. -/
def matchDims : List (Nat × Nat) → Nat → Option (List Nat)
  | [], off => if off = 0 then some [] else none
  | (n, st) :: ds, off =>
    if off / st < n then (matchDims ds (off % st)).map (fun l => (off / st) :: l)
    else none

/-- The register kind and indices at address `a` among `rs`. -/
def findIn : List RegDesc → Nat → Option (RegDesc × List Nat)
  | [], _ => none
  | r :: rs, a =>
    if a < r.base then findIn rs a
    else match matchDims r.dims (a - r.base) with
      | some ix => some (r, ix)
      | none => findIn rs a

/-- The registers of the block that holds address `a` (spec/01_architecture.md R31, R32, R42). -/
def blockRegs (a : Nat) : List RegDesc :=
  if a < 0x40000000 then []
  else if a < 0x46000000 then
    let b := a % 0x1000000 / 0x10000
    if b = 0 then regsTLY else if b = 1 then regsPWM else if b = 2 then regsACH else if b = 3 then regsSDM
    else if b = 4 then regsFBK else if b = 5 then regsBEAD else if b = 6 then regsFLG else if b = 7 then regsABX
    else if b = 8 then regsACH else []
  else if a < 0x48000000 then []
  else if a < 0x49000000 then
    let b := a % 0x1000000 / 0x100000
    if b = 0 then regsBEAM else if b = 1 then regsTLY else if b = 2 then regsABX else if b = 3 then regsFLG
    else if b = 4 then regsPND else if b = 5 then regsDMA else if b = 6 then regsECC else if b = 7 then regsARB
    else if b = 8 then regsSGN else if b = 9 then regsMBX else if b = 10 then regsCHN else if b = 11 then regsCAN
    else if b = 12 then regsPWR else []
  else if a < 0x50000000 then regsCAP
  else if a < 0x1000000000 then regsCORE ++ regsPND
  else regsBNK

/-- The register kind and its indices at address `a`, if a register lies there. -/
def findReg (a : Nat) : Option (RegDesc × List Nat) := findIn (blockRegs a) a

/-- The reset share of credits of an arbiter requester (spec/15_memory_ecc_arbitration.md R501). -/
def creditReset (r : Nat) : Nat :=
  match r with
  | 0 | 1 | 2 | 3 | 4 | 5 | 8 => 4
  | 6 | 7 | 14 => 2
  | 9 | 10 | 12 | 13 => 6
  | 11 | 15 => 1
  | _ => 0

/-- The reset value of a fixed routing entry: lockup sources of cores 0-7 (spec/14_pendant.md R467). -/
def routeReset (s : Nat) : Nat :=
  if s = 0x52 ∨ s = 0x56 ∨ (0x1000 ≤ s ∧ s < 0x2800 ∧ (s - 0x1000) % 0x400 = 0x382) then 0x1F8 else 0

/-- The reset value of the register at address `a` (spec/00_scope.md R8). Values that firmware loads are 0 until START
loads them, and bank words with no reset value are 0 (log entries 2 and 3). -/
def resetVal (a : Nat) : Word :=
  if 0x48700000 ≤ a ∧ a < 0x48700040 then wordOf (creditReset ((a - 0x48700000) / 4))
  else if 0x48440000 ≤ a ∧ a < 0x48480000 then wordOf (routeReset ((a - 0x48440000) / 4))
  else if 0x1000000060 ≤ a ∧ (a - 0x1000000060) % 0x10000 = 0 then 0x08000000
  else match findReg a with
    | some (r, _) => wordOf r.reset
    | none => 0

/-- The stored value of the register at `a`. -/
def Dev.r (d : Dev) (a : Nat) : Word := tabGet (resetVal a) d.regs a

/-- Store `v` in the register at `a`. -/
def Dev.w (d : Dev) (a : Nat) (v : Word) : Dev := { d with regs := tabSet (resetVal a) d.regs a v }

/-- Field `f` of the register at `a`. -/
def Dev.f (d : Dev) (a : Nat) (f : Fld) : Nat := fget f (d.r a)

/-- A one-bit field as a Boolean. -/
def Dev.b (d : Dev) (a : Nat) (f : Fld) : Bool := d.f a f != 0

/-- Store `v` in field `f` of the register at `a`. -/
def Dev.wf (d : Dev) (a : Nat) (f : Fld) (v : Nat) : Dev := d.w a (fput f (d.r a) v)

/-- Remember that hardware set the bits `m` of the register at `a` on this tick: a write of 1 to clear them on the same tick
leaves them set (spec/00_scope.md R14). -/
def Dev.mark (d : Dev) (a m : Nat) : Dev := { d with fresh := tabSet 0 d.fresh a (tabGet 0 d.fresh a ||| m) }

/-- Hardware sets a one-bit field. -/
def Dev.set1 (d : Dev) (a : Nat) (f : Fld) : Dev := (d.wf a f 1).mark a (2 ^ f.lo)

/-- Clear a field. -/
def Dev.clr (d : Dev) (a : Nat) (f : Fld) : Dev := d.wf a f 0

/-- Set a one-bit field when `c` holds. -/
def Dev.setIf (d : Dev) (c : Bool) (a : Nat) (f : Fld) : Dev := if c then d.set1 a f else d

/-- Increment field `f` by `n`; it saturates at its maximum. -/
def Dev.incSat (d : Dev) (a : Nat) (f : Fld) (n : Nat := 1) : Dev :=
  d.wf a f (min (d.f a f + n) (2 ^ f.w - 1))

/-- Hardware sets or clears bit `i` of the register at `a`. -/
def Dev.setBit (d : Dev) (a i : Nat) (v : Bool) : Dev := if v then d.set1 a ⟨i, 1⟩ else d.clr a ⟨i, 1⟩

/-- Bit `i` of the register at `a`. -/
def Dev.bit (d : Dev) (a i : Nat) : Bool := d.f a ⟨i, 1⟩ != 0

/-! ### Tables of the block's units -/

/-- The key of unit `i` of island `n`. -/
def uk (n i : Nat) : Nat := n * 256 + i

def Dev.timer (d : Dev) (n t : Nat) : TimerH := tabGet {} d.timers (uk n t)
def Dev.setTimer (d : Dev) (n t : Nat) (x : TimerH) : Dev := { d with timers := tabSet {} d.timers (uk n t) x }
def Dev.pair (d : Dev) (n p : Nat) : PairH := tabGet {} d.pairs (uk n p)
def Dev.setPair (d : Dev) (n p : Nat) (x : PairH) : Dev := { d with pairs := tabSet {} d.pairs (uk n p) x }
def Dev.line (d : Dev) (n l : Nat) : LineH := tabGet {} d.lines (uk n l)
def Dev.setLine (d : Dev) (n l : Nat) (x : LineH) : Dev := { d with lines := tabSet {} d.lines (uk n l) x }
def Dev.chan (d : Dev) (n c : Nat) : ChanH := tabGet {} d.chans (uk n c)
def Dev.setChan (d : Dev) (n c : Nat) (x : ChanH) : Dev := { d with chans := tabSet {} d.chans (uk n c) x }
def Dev.sset (d : Dev) (n : Nat) : SetH := tabGet {} d.sets n
def Dev.setSset (d : Dev) (n : Nat) (x : SetH) : Dev := { d with sets := tabSet {} d.sets n x }
def Dev.sdm (d : Dev) (n j : Nat) : SdmH := tabGet {} d.sdms (uk n j)
def Dev.setSdm (d : Dev) (n j : Nat) (x : SdmH) : Dev := { d with sdms := tabSet {} d.sdms (uk n j) x }
def Dev.sdclk (d : Dev) (n k : Nat) : SdClkH := tabGet {} d.sdclks (uk n k)
def Dev.setSdclk (d : Dev) (n k : Nat) (x : SdClkH) : Dev := { d with sdclks := tabSet {} d.sdclks (uk n k) x }
def Dev.rod (d : Dev) (r : Nat) : RodH := tabGet {} d.rods r
def Dev.setRod (d : Dev) (r : Nat) (x : RodH) : Dev := { d with rods := tabSet {} d.rods r x }
def Dev.frame (d : Dev) (n : Nat) : FrameH := tabGet {} d.frames n
def Dev.setFrame (d : Dev) (n : Nat) (x : FrameH) : Dev := { d with frames := tabSet {} d.frames n x }
def Dev.trace (d : Dev) (n : Nat) : TraceH := tabGet {} d.traces n
def Dev.setTrace (d : Dev) (n : Nat) (x : TraceH) : Dev := { d with traces := tabSet {} d.traces n x }
def Dev.fbk (d : Dev) (n k : Nat) : FbkH := tabGet {} d.fbks (uk n k)
def Dev.setFbk (d : Dev) (n k : Nat) (x : FbkH) : Dev := { d with fbks := tabSet {} d.fbks (uk n k) x }
def Dev.bead (d : Dev) (n e : Nat) : BeadH := tabGet {} d.beads (uk n e)
def Dev.setBead (d : Dev) (n e : Nat) (x : BeadH) : Dev := { d with beads := tabSet {} d.beads (uk n e) x }
def Dev.cell (d : Dev) (n i : Nat) : CellH := tabGet {} d.cells (uk n i)
def Dev.setCell (d : Dev) (n i : Nat) (x : CellH) : Dev := { d with cells := tabSet {} d.cells (uk n i) x }
def Dev.clasp (d : Dev) (c : Nat) : ClaspH := tabGet {} d.clasps c
def Dev.setClasp (d : Dev) (c : Nat) (x : ClaspH) : Dev := { d with clasps := tabSet {} d.clasps c x }
def Dev.core (d : Dev) (c : Nat) : CoreH := tabGet {} d.cores c
def Dev.setCore (d : Dev) (c : Nat) (x : CoreH) : Dev := { d with cores := tabSet {} d.cores c x }
def Dev.ring (d : Dev) (c : Nat) : RingH := tabGet {} d.rings c
def Dev.setRing (d : Dev) (c : Nat) (x : RingH) : Dev := { d with rings := tabSet {} d.rings c x }
def Dev.dmach (d : Dev) (e c : Nat) : DmaH := tabGet {} d.dma (uk e c)
def Dev.setDmach (d : Dev) (e c : Nat) (x : DmaH) : Dev := { d with dma := tabSet {} d.dma (uk e c) x }
def Dev.canc (d : Dev) (c : Nat) : CanH := tabGet {} d.can c
def Dev.setCanc (d : Dev) (c : Nat) (x : CanH) : Dev := { d with can := tabSet {} d.can c x }
def Dev.sess (d : Dev) (i : Nat) : Sess := tabGet {} d.chozer.sess i
def Dev.setSess (d : Dev) (i : Nat) (x : Sess) : Dev :=
  { d with chozer := { d.chozer with sess := tabSet {} d.chozer.sess i x } }
def Dev.cred (d : Dev) (i : Nat) : Cred := tabGet {} d.chozer.creds i
def Dev.setCred (d : Dev) (i : Nat) (x : Cred) : Dev :=
  { d with chozer := { d.chozer with creds := tabSet {} d.chozer.creds i x } }
def Dev.img (d : Dev) (i : Nat) : Img := tabGet {} d.chozer.imgs i
def Dev.setImg (d : Dev) (i : Nat) (x : Img) : Dev :=
  { d with chozer := { d.chozer with imgs := tabSet {} d.chozer.imgs i x } }
def Dev.lrec (d : Dev) (r : Nat) : LRec := tabGet {} d.ledger.recs r
def Dev.setLrec (d : Dev) (r : Nat) (x : LRec) : Dev :=
  { d with ledger := { d.ledger with recs := tabSet {} d.ledger.recs r x } }

/-- A per-requester latch (spec/03_beam_and_tally.md R96): `kind` names the register pair it serves. -/
def latchKey (kind q : Nat) : Nat := kind * 16 + q

def Dev.lat (d : Dev) (kind q : Nat) : Nat := tabGet 0 d.latch (latchKey kind q)
def Dev.setLat (d : Dev) (kind q v : Nat) : Dev := { d with latch := tabSet 0 d.latch (latchKey kind q) v }

/-- The count latches (R95, R96). -/
def latCount : Nat := 0
/-- The train-time latches (R99). -/
def latTT : Nat := 1
/-- The train-time offset in force, kept under requester 0 (R99, R100). -/
def latOfs : Nat := 2
/-- The latch of linked pair `j` of island `n` (R117). -/
def latPair (n j : Nat) : Nat := 16 + n * 8 + j
/-- The trip time latch of the PWM block of island `n` (spec/04_pwm.md, PWM_TRIP_TS). -/
def latTrip (n : Nat) : Nat := 96 + n
/-- The turn latch of feedback interface `k` of island `n` (R290). -/
def latTurn (n k : Nat) : Nat := 112 + n * 2 + k
/-- The bank latch of island `n`: which entry filled it, and its three words (R183). -/
def latBank (n i : Nat) : Nat := 128 + n * 4 + i

/-- The next free value (log entry 5). -/
def Dev.freeVal (d : Dev) : Nat := Config.freeValue d.free
def Dev.freeNext (d : Dev) : Dev := { d with free := d.free + 1 }

/-- Answer requester `q`. -/
def Dev.resp (d : Dev) (q : Nat) (v : Word) (e : BErr := .none) : Dev :=
  { d with bus := tabSet {} d.bus q ⟨v, e⟩ }

/-! ### Memory (log entry 11) -/

/-- The byte at a storage address; a byte not listed reads as 0 (spec/15_memory_ecc_arbitration.md R498). -/
def memGet (m : List Host.Cell) (a : Nat) : Byte := tabGet 0 m a

/-- The memory with byte `v` at `a`, in canonical form. -/
def memPut (m : List Host.Cell) (a : Nat) (v : Byte) : List Host.Cell := tabSet 0 m a v

/-- The canonical form of memory: addresses rise strictly and no entry is 0. -/
def Memory.wf (m : List Host.Cell) : Bool := tabWf (fun _ => (0 : Byte)) m

/-- Any list of cells brought into canonical form. -/
def memBuild : List Host.Cell → List Host.Cell
  | [] => []
  | (a, v) :: m => memPut (memBuild m) a v

/-- A memory in canonical form is kept as it is. -/
def memCanon (m : List Host.Cell) : List Host.Cell := if Memory.wf m then m else memBuild m

def Dev.byte (d : Dev) (a : Nat) : Byte := memGet d.mem a
def Dev.putByte (d : Dev) (a : Nat) (v : Byte) : Dev := { d with mem := memPut d.mem a v }

/-- `n` bytes from `a`, little-endian (spec/00_scope.md R4). -/
def Dev.loadN (d : Dev) (a : Nat) : Nat → Nat
  | 0 => 0
  | n + 1 => (d.byte a).toNat + 256 * d.loadN (a + 1) n

/-- Store the low `n` bytes of `v` at `a`, little-endian. -/
def Dev.storeN (d : Dev) (a v : Nat) : Nat → Dev
  | 0 => d
  | n + 1 => (d.putByte a (BitVec.ofNat 8 v)).storeN (a + 1) (v / 256) n

/-- Store a list of bytes from `a` on. -/
def Dev.storeBytes (d : Dev) (a : Nat) : List Byte → Dev
  | [] => d
  | b :: bs => (d.putByte a b).storeBytes (a + 1) bs

/-- `n` bytes from `a`. -/
def Dev.loadBytes (d : Dev) (a : Nat) : Nat → List Byte
  | 0 => []
  | n + 1 => d.byte a :: d.loadBytes (a + 1) n

/-- Remove every byte from `lo` to `hi - 1`: the range reads as 0 (spec/15_memory_ecc_arbitration.md R498). -/
def Dev.clearMem (d : Dev) (lo hi : Nat) : Dev :=
  { d with mem := d.mem.filter fun c => decide (c.1 < lo) || decide (hi ≤ c.1) }

/-! ### The beam, modes, presence -/

/-- The tick units run: the PLL has locked and no loss was found (spec/03_beam_and_tally.md R86, R92). -/
def Dev.ticking (d : Dev) : Bool := d.b BEAM_STATUS BEAM_STATUS_PLL_LOCK && !(d.b BEAM_STATUS BEAM_STATUS_LOST)

def Dev.lost (d : Dev) : Bool := d.b BEAM_STATUS BEAM_STATUS_LOST

/-- Device mode codes (spec/20_modes_power_boot.md R618). -/
def mDormant : Nat := 0
def mStart : Nat := 1
def mSetup : Nat := 2
def mRun : Nat := 3
def mSafe : Nat := 4
def mHalt : Nat := 5

def Dev.mode (d : Dev) : Nat := d.f PWR_MODE PWR_MODE_MODE
def Dev.safeMask (d : Dev) : Nat := d.f PWR_MODE PWR_MODE_SAFE_MASK

/-- Islands of a part (spec/00_scope.md, family table). -/
def Part.islands : Part → Nat
  | .gvz1600 => 1
  | .gvz3200 => 2
  | .gvz6400 => 4
  | .gvz9600 => 6

/-- Rods of a part. -/
def Part.rods : Part → Nat
  | .gvz1600 => 8
  | .gvz3200 => 16
  | .gvz6400 => 40
  | .gvz9600 => 64

/-- Ledger size of a part in MiB. -/
def Part.ledgerMiB : Part → Nat
  | .gvz1600 => 4
  | .gvz3200 => 8
  | .gvz6400 => 16
  | .gvz9600 => 32

/-- The part has the inline switch. -/
def Part.hasSwitch : Part → Bool
  | .gvz1600 | .gvz3200 => false
  | .gvz6400 | .gvz9600 => true

/-- Cores of a part: island cores of its islands; cores 6 and 7 only where the family table counts eight; core 8 always
(spec/00_scope.md, family table; log entry 6). -/
def Part.hasCore (p : Part) (c : Nat) : Bool :=
  if c < 6 then decide (c < p.islands) else if c < 8 then p == .gvz9600 else c == 8

/-- Records of the ledger (spec/17_signet_ledger.md R529). -/
def Part.records (p : Part) : Nat := 8192 * p.ledgerMiB

/-- Island `n` exists in the variant. -/
def Dev.hasIsl (d : Dev) (n : Nat) : Bool := decide (n < d.part.islands)

/-- Island `n` is in RUN: the device is in RUN and the island, where it exists, is not in SAFE (R618). -/
def Dev.inRun (d : Dev) (n : Nat) : Bool := d.mode == mRun && d.hasIsl n && !(nbit d.safeMask n)

/-- Some island is in RUN. -/
def Dev.anyRun (d : Dev) : Bool := (List.range 6).any d.inRun

/-- Device domain `k` is powered (spec/20_modes_power_boot.md R630). -/
def Dev.powered (d : Dev) (k : Nat) : Bool := d.bit (PWR_DOM (k / 32)) (k % 32)

/-! ### Shadows -/

/-- Write of the bits `mask` of `val` into the register at `a`. -/
def maskWrite (x : Word) (mask val : Nat) : Word :=
  wordOf ((x.toNat &&& (4294967295 - mask)) ||| (val &&& mask))

/-- A pending write without the bits that a later write replaces: the later write stands though it counts as recorded on an
earlier tick (spec/11_clasp_transactions.md R378, R380). -/
def Shadow.cutBy (x : Shadow) (a mask tick : Nat) : Shadow :=
  if x.addr = a ∧ tick < x.tick then { x with mask := x.mask &&& (4294967295 - mask) } else x

/-- Append a shadow write. -/
def Dev.pushShadow (d : Dev) (a mask v tick : Nat) : Dev :=
  { d with shadow := d.shadow.map (fun x => x.cutBy a mask tick) ++ [⟨a, mask, v, tick⟩] }

/-- The register with every pending shadow of it applied: what a read of RWS fields returns (spec/00_scope.md R13). -/
def overlay : List Shadow → Nat → Word → Word
  | [], _, x => x
  | s :: ss, a, x => overlay ss a (if s.addr = a then maskWrite x s.mask s.val else x)

/-- Apply a list of shadow writes in order. -/
def Dev.applyList (d : Dev) : List Shadow → Dev
  | [] => d
  | s :: ss => (d.w s.addr (maskWrite (d.r s.addr) s.mask s.val)).applyList ss

/-- Apply the shadows that `sel` selects and remove them from the list (R59). -/
def Dev.applyShadow (d : Dev) (sel : Shadow → Bool) : Dev :=
  let d' := d.applyList (d.shadow.filter sel)
  { d' with shadow := d.shadow.filter fun s => !(sel s) }

/-- Drop the shadows that `sel` selects. -/
def Dev.dropShadow (d : Dev) (sel : Shadow → Bool) : Dev :=
  { d with shadow := d.shadow.filter fun s => !(sel s) }

/-! ### Scheduling -/

/-- A step that comes about on tick `t` (or now, when `t` is past). -/
def Dev.at_ (d : Dev) (t : Nat) (c : Instr) : Dev := { d with agenda := d.agenda ++ [⟨t, c⟩] }

/-- Withdraw a scheduled step. -/
def Dev.cancel (d : Dev) (c : Instr) : Dev := { d with agenda := d.agenda.filter fun x => decide (x.cmd ≠ c) }

/-- Ticks of a millisecond (spec/00_scope.md: 2 ns ticks). -/
def msTicks : Nat := 500000

/-! ### Raising and firing -/

/-- The routing entry of source `s` in force on the present tick: an entry written on this tick still has its old value
(spec/14_pendant.md R466). -/
def Dev.routeOf (d : Dev) (s : Nat) : Nat :=
  match tabFind d.routeWas s with
  | some (t, v) => if t = d.beam then v else (d.r (PND_ROUTE s)).toNat
  | none => (d.r (PND_ROUTE s)).toNat

/-- Raise source `s` with a payload and a timestamp (R465, R468). -/
def Dev.raiseAt (d : Dev) (s payload ts : Nat) : Dev :=
  { d with raised := d.raised ++ [⟨s, payload % 65536, ts, d.routeOf s⟩] }

/-- Raise source `s` on the present tick. -/
def Dev.raise (d : Dev) (s : Nat) (payload : Nat := 0) : Dev := d.raiseAt s payload d.beam

/-- Raise source `s` when `c` holds. -/
def Dev.raiseIf (d : Dev) (c : Bool) (s : Nat) (payload : Nat := 0) : Dev := if c then d.raise s payload else d

/-- The Pendant source base of island `n` (spec/01_architecture.md R50). -/
def islSrc (n : Nat) : Nat := 0x1000 + n * 0x400

/-- The channels of the island that select source code `code` of island `n` (spec/10_filigree.md R334). -/
def Dev.islandChans (d : Dev) (n code : Nat) : List Nat :=
  ((List.range 128).filter fun c => d.f (FLG_CH n c) FLG_CH_SRC == code).map fun c => 128 + 128 * n + c

/-- The spine channels that select source code `code` of island `isl` (7: the spine, R340). -/
def Dev.spineChans (d : Dev) (isl code : Nat) : List Nat :=
  (List.range 128).filter fun s =>
    d.f (FLG_SCH s) FLG_SCH_ISL == isl && d.f (FLG_SCH s) FLG_SCH_SRC == code

/-- A gate signal changes on this tick (spec/10_filigree.md R336): key 64 n + g for cell g of island n, 512 + g for gate g of
spine and software channels. -/
def Dev.gateNote (d : Dev) (key : Nat) : Dev :=
  let old := (tabGet [] d.gateHist key).filter fun t => decide (d.beam < t + 64)
  { d with gateHist := tabSet [] d.gateHist key (d.beam :: old) }

/-- Fire an event of source `code` of island `isl` (7: the spine) with an origin tick (R333, R334). -/
def Dev.fireAt (d : Dev) (isl code origin : Nat) : Dev :=
  if code = 0 then d else
  let chans := (if isl < 6 then d.islandChans isl code else []) ++ d.spineChans isl code
  { d with transit := d.transit ++ chans.map fun c => ⟨c, origin⟩ }

/-- Fire an event with the present tick as origin. -/
def Dev.fire (d : Dev) (isl code : Nat) : Dev := d.fireAt isl code d.beam

/-! ### Diagnostic counts (spec/21_failure_containment.md R650, R651) -/

/-- Keys of the counts of unit class `c`, instance `i`: transient; lasting; tick of the last lasting fault; transient as
last committed. -/
def dkT (c i : Nat) : Nat := c * 256 + i
def dkL (c i : Nat) : Nat := 0x10000 + c * 256 + i
def dkK (c i : Nat) : Nat := 0x20000 + c * 256 + i
def dkC (c i : Nat) : Nat := 0x40000 + c * 256 + i

def Dev.dget (d : Dev) (k : Nat) : Nat := tabGet 0 d.diag k
def Dev.dset (d : Dev) (k v : Nat) : Dev := { d with diag := tabSet 0 d.diag k v }

/-- Count one more transient event of a unit; counts saturate at 2^32 - 1. -/
def Dev.diagT (d : Dev) (c i : Nat) (n : Nat := 1) : Dev := d.dset (dkT c i) (min 4294967295 (d.dget (dkT c i) + n))

/-- Chozer runs: core 8 is released and not locked up. -/
def Dev.managerUp (d : Dev) : Bool :=
  (d.core 8).run && !(d.b (CORE_STATUS 8) CORE_STATUS_LOCKUP) && !(d.b PWR_WDOG_STATUS PWR_WDOG_STATUS_EXPIRED)

/-- Count one more lasting fault of a unit, with its tick, or tick 0 while Chozer does not run (R651). -/
def Dev.diagL (d : Dev) (c i : Nat) : Dev :=
  (d.dset (dkL c i) (min 4294967295 (d.dget (dkL c i) + 1))).dset (dkK c i) (if d.managerUp then d.beam else 0)

/-! ### Stepping the device part of a state -/

/-- What holds after every command: memory in canonical form, the count modulo 2^64 (spec/03_beam_and_tally.md R85). -/
def Dev.settle (d : Dev) : Dev := { d with mem := memCanon d.mem, beam := d.beam % 18446744073709551616 }

/-- A command's effect on everything but the queue. -/
def State.upd (s : State) (f : Dev → Dev) : State := { s with hw := (f s.hw).settle }

/-- The outcome of a command whose effect is `f`. -/
def State.done (s : State) (f : Dev → Dev) : Host.Outcome State Fault Refusal := .next (s.upd f)

/-- Apply `f` for each element of a list in turn. -/
def Dev.each {α : Type} (d : Dev) (l : List α) (f : Dev → α → Dev) : Dev := l.foldl f d

end Sys2Proof.Machine
end

