-- ==== Sys2Proof/Machine/Access.lean ====
section
/-! DEFINITION. Who may reach what: the address map, privilege, write grants and variants (spec/01_architecture.md), and
the bus error of an access in the precedence of spec/00_scope.md R16. -/

namespace Sys2Proof.Machine
open Sys2Proof

/-- The bank current in core `c` (spec/13_core_execution.md R458). -/
def Dev.curBank (d : Dev) (c : Nat) : Nat := d.f (CORE_STATUS c) CORE_STATUS_CUR

/-- The level of a bank: 0 U, 1 S, 2 M; 3 acts as U; bank 0 is always at M (spec/13_core_execution.md R446, R448). -/
def Dev.bankLevel (d : Dev) (c b : Nat) : Nat :=
  if b = 0 then 2
  else
    let l := d.f (BNK_STATUS c b) BNK_STATUS_LEVEL
    if l = 3 then 0 else l

/-- The level of core `c` (spec/13_core_execution.md R448). -/
def Dev.level (d : Dev) (c : Nat) : Nat := d.bankLevel c (d.curBank c)

/-- The level at which requester `q` accesses: DMA at S (spec/16_dma.md R513), the debug port at M. -/
def Dev.reqLevel (d : Dev) (q : Nat) : Nat :=
  if q < 9 then d.level q else if q < 11 then 1 else 2

/-- The address of the register or byte that requester `q` names by `a`: its own core-private range at (q + 1) * 2^32,
its bank window (spec/13_core_execution.md R445), its memory alias (R26); any other address is global. -/
def Dev.xaddr (d : Dev) (q a : Nat) : Nat :=
  if a < 0x80000 then
    if q < 6 then 0x20000000 + q * 0x100000 + a
    else if q = 8 then 0x200000000000 + a
    else a
  else if 0xE0000000 ≤ a ∧ a < 0xE0100000 ∧ q < 9 then
    if 0xE0001000 ≤ a ∧ a < 0xE0001100 then
      let b := if d.b (BANKWIN q) BANKWIN_CURRENT then d.curBank q else d.f (BANKWIN q) BANKWIN_BANK
      0x1000000000 + q * 0x10000 + b * 0x100 + (a - 0xE0001000)
    else (q + 1) * 0x100000000 + a
  else a

/-- What lies at an address of `xaddr`. -/
inductive Place where
  | mem | reg | trace (n : Nat) | rom | ledger | flash | nothing
  deriving DecidableEq, Repr

/-- The kind of place at `x` (R24-R27, R31, R32). Core 8's alias holds 256 KiB of private RAM
(spec/15_memory_ecc_arbitration.md R486); the boot ROM takes the lower half (log entry 12). -/
def placeOf (x : Nat) : Place :=
  if 0x10000000 ≤ x ∧ x < 0x10C00000 then .mem
  else if 0x20000000 ≤ x ∧ x < 0x20600000 then if x % 0x100000 < 0x80000 then .mem else .nothing
  else if 0x60000000 ≤ x ∧ x < 0x62000000 then .ledger
  else if 0x80000000 ≤ x ∧ x < 0x90000000 then .flash
  else if 0x40100000 ≤ x ∧ x < 0x46000000 ∧ x % 0x1000000 / 0x10000 = 0x10 then .trace (x / 0x1000000 - 0x40)
  else if 0x200000000000 ≤ x then if x - 0x200000000000 < 0x40000 then .rom else .mem
  else if (findReg (x - x % 4)).isSome then .reg
  else .nothing

/-- The island whose peripheral slot or TCM holds `x`. -/
def islandOf (x : Nat) : Option Nat :=
  if 0x20000000 ≤ x ∧ x < 0x20600000 then some ((x - 0x20000000) / 0x100000)
  else if 0x40000000 ≤ x ∧ x < 0x46000000 then some ((x - 0x40000000) / 0x1000000)
  else none

/-- The unit at `x` is absent from the variant (spec/00_scope.md R3, spec/20_modes_power_boot.md R638). -/
def Dev.absent (d : Dev) (x : Nat) : Bool :=
  match islandOf x with
  | some n => !(d.hasIsl n)
  | none =>
    if 0x48200100 ≤ x ∧ x < 0x48200400 then decide (d.part.rods ≤ (x % 0x100) / 4)
    else if 0x48210000 ≤ x ∧ x < 0x48218000 then decide (d.part.rods ≤ (x - 0x48210000) / 0x200)
    else if 0x48200400 ≤ x ∧ x < 0x48200418 then !(d.hasIsl ((x - 0x48200400) / 4))
    else if 0x48200000 ≤ x ∧ x < 0x48200040 then decide (d.part.rods ≤ 4 * ((x - 0x48200000) / 4))
    else if 0x48400100 ≤ x ∧ x < 0x48400190 then !(d.part.hasCore ((x - 0x48400100) / 16))
    else if 0x48400200 ≤ x ∧ x < 0x48400224 then !(d.part.hasCore ((x - 0x48400200) / 4))
    else if 0x48A40000 ≤ x ∧ x < 0x48A50000 then !(d.part.hasSwitch)
    else if 0x48C00010 ≤ x ∧ x < 0x48C00028 then !(d.hasIsl ((x - 0x48C00010) / 4))
    else if 0x60000000 ≤ x ∧ x < 0x62000000 then decide (d.part.records ≤ (x % 0x1000000) / 0x40)
    else false

/-- The bank of shared SRAM that holds the byte at `x` (spec/15_memory_ecc_arbitration.md R488). -/
def sramBank (x : Nat) : Nat :=
  let a := x - 0x10000000
  (nfield a 3 6) ^^^ (nfield a 9 6) ^^^ (nfield a 15 6) ^^^ (nfield a 21 3)

/-- The power domain of the unit at `x` (spec/20_modes_power_boot.md R630; log entry 13 for registers the table does not
place). -/
def domainOf (x : Nat) : Nat :=
  if 0x200000000000 ≤ x then 2
  else if 0x1000000000 ≤ x then
    let c := (x - 0x1000000000) / 0x10000
    if c < 6 then 65 + 10 * c else if c < 8 then c + 1 else 2
  else if 0x100000000 ≤ x then
    let c := x / 0x100000000 - 1
    if x % 0x100000000 < 0xE0001000 then 3
    else if c < 6 then 65 + 10 * c else if c < 8 then c + 1 else 2
  else if x < 0x20000000 then 39 + sramBank x / 4
  else if x < 0x20600000 then 65 + 10 * ((x - 0x20000000) / 0x100000)
  else if x < 0x46000000 then
    let n := (x - 0x40000000) / 0x1000000
    let off := x % 0x1000000
    10 * n + (match off / 0x10000 with
      | 0 => 66
      | 1 => if 0x800 ≤ off % 0x10000 ∧ off % 0x10000 < 0x880 then 64 else 67
      | 2 =>
        let o := off % 0x10000
        if o < 0x200 then 68 else if o < 0x400 then 69
        else if 0x824 ≤ o ∧ o < 0x830 then 73 else 68
      | 3 => 70
      | 4 => 71
      | 5 => 72
      | 6 => 64
      | _ => 73)
  else if x < 0x49000000 then
    match x % 0x1000000 / 0x100000 with
    | 0 => 0
    | 1 => 6
    | 2 =>
      let o := x % 0x100000
      if 0x200 ≤ o ∧ o < 0x400 then 23 + (o % 0x100) / 16
      else if 0x10000 ≤ o ∧ o < 0x18000 then 23 + (o - 0x10000) / 0x800
      else 22
    | 3 => 0
    | 4 => 3
    | 5 => 4 + x % 0x100000 / 0x10000
    | 6 => 6
    | 7 => 6
    | 8 => 1
    | 9 => 2
    | 10 => let p := x % 0x100000 / 0x10000; if p < 4 then 9 + p else 13
    | 11 => 14 + x % 0x100000 / 0x10000
    | _ => 0
  else if x < 0x50000000 then 6
  else if x < 0x80000000 then 1
  else 20 + (x / 0x8000000) % 2

/-- The unit at `x` has no power (spec/20_modes_power_boot.md R631). -/
def Dev.unpowered (d : Dev) (x : Nat) : Bool := !(d.powered (domainOf x))

/-- Nothing answers the access (R11, R12, R25-R29; a write into a sample bank, spec/05_analog_channels.md R181). -/
def Dev.undecoded (d : Dev) (q a x size : Nat) (write : Bool) : Bool :=
  if placeOf x ≠ .nothing && d.unpowered x then true else
  if q ≥ 9 && (decide (a < 0x80000) || decide (0xE0000000 ≤ a ∧ a < 0xE0100000)) then true else
  match placeOf x with
  | .nothing => true
  | .mem => false
  | .rom => false
  | .trace n => write && d.b (ABX_TRC_CTL n) ABX_TRC_CTL_ARM
  | .ledger => write
  | .flash => write || decide (Config.flashSize ((a / 0x8000000) % 2) ≤ a % 0x8000000)
  | .reg => decide (size ≠ 4) || decide (x % 4 ≠ 0) || (write &&
      (decide (0x4F000000 ≤ x ∧ x < 0x50000000) ||
        decide (0x40000000 ≤ x ∧ x < 0x46000000 ∧ 0x80000 ≤ x % 0x1000000 ∧ x % 0x1000000 < 0x81000)))

/-- The lowest level of an address (R24, R42). -/
def lowestLevel (a : Nat) : Nat :=
  if 0x40000000 ≤ a ∧ a < 0x4F000000 then 1
  else if 0xE0000000 ≤ a ∧ a < 0xE0002000 then 1
  else if 0xE0002000 ≤ a ∧ a < 0xE0100000 then 2
  else 0

/-- Core 8 alone writes the address (R32, R33; R100; spec/19_chain_and_can.md for the switch and discovery). -/
def core8Only (x : Nat) : Bool :=
  decide (0x48600000 ≤ x ∧ x < 0x48900000) || decide (0x48C00000 ≤ x ∧ x < 0x48D00000) ||
  decide (0x48A40000 ≤ x ∧ x < 0x48A50000) || decide (x = BEAM_TT_OFS_LO) || decide (x = BEAM_TT_OFS_HI)

/-- The write grant of island `n` (R35): stored bits with the two fixed bits. -/
def Dev.grant (d : Dev) (n : Nat) : Nat := tabGet 0 d.grants n ||| 2 ^ n ||| 256

/-- Requester `q` may write into island `n` (R34). -/
def Dev.mayWrite (d : Dev) (q n : Nat) : Bool := q == n || q == 8 || nbit (d.grant n) q

/-- Who may not write a Pendant register (spec/14_pendant.md R466 and the ring registers): a routing entry below 0x200 is for
core 8, one of an island source for a requester that may write the island, a ring of core `c` for core `c` and core 8. -/
def Dev.pndRefused (d : Dev) (q x : Nat) : Bool :=
  if 0x48440000 ≤ x ∧ x < 0x48480000 then
    let s := (x - 0x48440000) / 4
    if s < 0x200 then decide (q ≠ 8)
    else if 0x1000 ≤ s ∧ s < 0x2800 then !(d.mayWrite q ((s - 0x1000) / 0x400))
    else false
  else if 0x48400100 ≤ x ∧ x < 0x48400190 then decide (q ≠ 8 ∧ q ≠ (x - 0x48400100) / 16)
  else if 0x48400200 ≤ x ∧ x < 0x48400224 then decide (q ≠ 8 ∧ q ≠ (x - 0x48400200) / 4)
  else false

/-- Bus error PRIV (R28, R33, R34; spec/13_core_execution.md R445; spec/14_pendant.md R466; spec/18_chozer_mailboxes.md R556,
R576). -/
def Dev.noPriv (d : Dev) (q a x : Nat) (write : Bool) : Bool :=
  decide (d.reqLevel q < lowestLevel a) ||
  (q == 11 && !d.chozer.debug) ||
  (decide (0xE0001000 ≤ a ∧ a < 0xE0001100) && decide (d.reqLevel q < 2) && decide (x % 0x10000 < 0x100)) ||
  (write && ((core8Only x && decide (q ≠ 8)) || d.pndRefused q x ||
    (decide (0x48900000 ≤ x ∧ x < 0x48901000) &&
      decide (q ≠ d.f (MBX_OWNER ((x - 0x48900000) / 0x100)) MBX_OWNER_OWNER)) ||
    (match islandOf x with
      | some n => !(d.mayWrite q n)
      | none => false)))

/-- The bus error of an access that no block has looked at yet, in the precedence of R16: ABSENT, DECODE, PRIV. -/
def Dev.accessErr (d : Dev) (q a size : Nat) (write : Bool) : BErr :=
  let x := d.xaddr q a
  if d.absent x then .absent
  else if d.undecoded q a x size write then .decode
  else if d.noPriv q a x write then .priv
  else .none

/-- A write access by requester `q` to the register at `a`: where the access is refused, the bus error is the answer and
nothing else happens (R3, R16); otherwise `f` gives the effect and the requester is answered without error. -/
def Dev.wr (d : Dev) (q a : Nat) (f : Dev → Dev) : Dev :=
  match d.accessErr q a 4 true with
  | .none => (f d).resp q 0
  | e => d.resp q 0 e

/-- A read access by requester `q` to the register at `a`: `f` gives the effect and the value. -/
def Dev.rd (d : Dev) (q a : Nat) (f : Dev → Dev × Word) : Dev :=
  match d.accessErr q a 4 false with
  | .none => let (d', v) := f d; d'.resp q v
  | e => d.resp q 0 e

end Sys2Proof.Machine
end

