-- ==== Sys2Proof/Machine/Tally.lean ====
section
/-! DEFINITION. The Tally timers on their own (spec/03_beam_and_tally.md R103-R120): starts, stops, matches and the timer's
part of a period end. What other blocks do at a period end stands in Boundary.lean. -/

namespace Sys2Proof.Machine
open Sys2Proof

/-- Timer `t` is the odd timer of a linked pair (R116). -/
def Dev.linkedOdd (d : Dev) (n t : Nat) : Bool := t % 2 == 1 && d.b (TLY_CTL n (t - 1)) TLY_CTL_LINK

/-- The timer runs; the odd timer of a linked pair runs exactly while the even timer does (R116). -/
def Dev.timerRuns (d : Dev) (n t : Nat) : Bool :=
  if d.linkedOdd n t then d.b (TLY_CTL n (t - 1)) TLY_CTL_RUN else d.b (TLY_CTL n t) TLY_CTL_RUN

def Dev.count (d : Dev) (n t : Nat) : Nat := (d.r (TLY_COUNT n t)).toNat

def Dev.setCount (d : Dev) (n t c : Nat) : Dev := d.w (TLY_COUNT n t) (wordOf c)

/-- Ticks of one advance. -/
def Dev.prescale (d : Dev) (n t : Nat) : Nat := d.f (TLY_CTL n t) TLY_CTL_PRESCALE + 1

/-- The compare value `k`: 0 PM0, 1 PM1, 2 CM0, 3 CM1. -/
def TLY_CMP (n t k : Nat) : Nat := TLY_PM0 n t + 4 * k

def Dev.compare (d : Dev) (n t k : Nat) : Nat := (d.r (TLY_CMP n t k)).toNat

/-- The timer's sources are raised where TLY_IRQ_EN enables them (R128). -/
def Dev.tlyRaise (d : Dev) (n t k : Nat) : Dev := d.raiseIf (d.bit (TLY_IRQ_EN n t) k) (islSrc n + 8 * t + k)

/-- The timer's Filigree events: 0 period end, 1-4 matches (R129, spec/10_filigree.md R340). -/
def Dev.tlyFire (d : Dev) (n t k : Nat) : Dev := d.fire n (0x40 + 8 * t + k)

/-- The shadow lies in timer `t`. -/
def inTimer (n t : Nat) (s : Shadow) : Bool := decide (TLY_CTL n t ≤ s.addr ∧ s.addr < TLY_CTL n t + 0x40)

/-- The timer's shadows recorded before this tick apply (R59, R104). -/
def Dev.tlyShadows (d : Dev) (n t : Nat) : Dev :=
  d.applyShadow fun s => inTimer n t s && decide (s.tick < d.beam)

/-- A new output level: 0 NONE, 1 HIGH, 2 LOW, 3 TOGGLE (R110). -/
def Dev.pinAction (d : Dev) (n t act : Nat) : Dev :=
  let l := d.b (TLY_STATUS n t) TLY_STATUS_LEVEL
  match act with
  | 1 => d.set1 (TLY_STATUS n t) TLY_STATUS_LEVEL
  | 2 => d.clr (TLY_STATUS n t) TLY_STATUS_LEVEL
  | 3 => d.wf (TLY_STATUS n t) TLY_STATUS_LEVEL (b2n !l)
  | _ => d

/-- The compare `k` matches on this tick: its flag, source and event; a pin-class action unless PM1 takes the place of
PM0; a chain-class action on the next tick (R108-R112). -/
def Dev.matchOne (d : Dev) (n : Isl) (t : Fin 16) (k : Nat) : Dev :=
  let c := d.count n t
  let d := d.setBit (TLY_STATUS n t) (2 + k) true
  let d := d.tlyRaise n t (1 + k)
  let d := d.tlyFire n t (1 + k)
  match k with
  | 0 => if d.compare n t 1 = c then d else d.pinAction n t (d.f (TLY_ACT n t) TLY_ACT_PM0_ACT)
  | 1 => d.pinAction n t (d.f (TLY_ACT n t) TLY_ACT_PM1_ACT)
  | 2 => d.at_ (d.beam + 1) (.chainClassAction n t 0)
  | _ => d.at_ (d.beam + 1) (.chainClassAction n t 1)

/-- Every compare equal to the count matches. -/
def Dev.matches (d : Dev) (n : Isl) (t : Fin 16) : Dev :=
  d.each [0, 1, 2, 3] fun d k => if d.compare n t k = d.count n t then d.matchOne n t k else d

/-- The next advance lies PRESCALE + 1 ticks ahead. -/
def Dev.rephase (d : Dev) (n t : Nat) : Dev :=
  d.setTimer n t { d.timer n t with next := d.beam + d.prescale n t }

/-- The timer's own part of a start (R105, R113): a stop on the same tick overrides it; the odd timer of a linked pair
ignores it. A start on the tick of a reset that ended a shot opens the shot again (R107). -/
def Dev.timerStart (d : Dev) (n t : Nat) : Dev :=
  let h := d.timer n t
  if d.linkedOdd n t || h.stopAt == some d.beam then d
  else
    let d := d.setTimer n t { h with startAt := some d.beam }
    if d.b (TLY_CTL n t) TLY_CTL_RUN then d
    else
      let d := d.tlyShadows n t
      let d := if h.resetAt == some d.beam then d.wf (TLY_STATUS n t) TLY_STATUS_ONE_DONE (b2n h.oneWas) else d
      (d.set1 (TLY_CTL n t) TLY_CTL_RUN).rephase n t

/-- The timer's own part of a stop (R106): RUN clears and no advance comes on this tick. -/
def Dev.timerStop (d : Dev) (n t : Nat) : Dev :=
  if d.linkedOdd n t then d
  else (d.clr (TLY_CTL n t) TLY_CTL_RUN).setTimer n t { d.timer n t with stopAt := some d.beam }

/-- The timer's own part of a period end (R104): the shadows recorded before this tick apply, the count becomes 0, PEND,
the event and the source follow; a ONE_SHOT timer stops with ONE_DONE unless it started on this tick (R107); a compare
of 0 matches (R108). -/
def Dev.timerPeriodEnd (d : Dev) (n : Isl) (t : Fin 16) : Dev :=
  let d := d.tlyShadows n t
  let d := (d.setCount n t 0).rephase n t
  let d := d.setTimer n t { d.timer n t with endAt := some d.beam }
  let d := d.set1 (TLY_STATUS n t) TLY_STATUS_PEND
  let d := (d.tlyRaise n t 0).tlyFire n t 0
  let h := d.timer n t
  let d :=
    if d.b (TLY_CTL n t) TLY_CTL_MODE && !(d.linkedOdd n t) && h.startAt != some d.beam then
      let d := d.setTimer n t { h with oneWas := d.b (TLY_STATUS n t) TLY_STATUS_ONE_DONE }
      (d.clr (TLY_CTL n t) TLY_CTL_RUN).set1 (TLY_STATUS n t) TLY_STATUS_ONE_DONE
    else d
  d.matches n t

/-- The timer has a period end on this tick that has not come about yet: its advance is due and the count wraps. -/
def Dev.wrapsNow (d : Dev) (n t : Nat) : Bool :=
  d.ticking && d.timerRuns n t && !(d.linkedOdd n t) && decide ((d.timer n t).next ≤ d.beam) &&
    decide ((d.r (TLY_RELOAD n t)).toNat ≤ d.count n t)

/-- The count of the timer on this tick, counting an advance of this tick that has not come about yet (R98, R117). -/
def Dev.countNow (d : Dev) (n t : Nat) : Nat :=
  let c := d.count n t
  let adv :=
    if d.linkedOdd n t then d.wrapsNow n (t - 1)
    else d.ticking && d.timerRuns n t && decide ((d.timer n t).next ≤ d.beam)
  if adv then (if (d.r (TLY_RELOAD n t)).toNat ≤ c then 0 else c + 1) else c

/-- The pin of a timer: `none` is high impedance (R111, R114). -/
def Dev.tallyPin (d : Dev) (n t : Nat) : Option Bool :=
  if !(d.b (TLY_CTL n t) TLY_CTL_PIN_EN) then none
  else if d.inRun n && !d.lost then some (d.b (TLY_STATUS n t) TLY_STATUS_LEVEL)
  else match d.f (TLY_CTL n t) TLY_CTL_PIN_SAFE with
    | 0 => some false
    | 1 => some true
    | _ => none

end Sys2Proof.Machine
end

