-- ==== Sys2Proof/Machine/Pwm.lean ====
section
/-! DEFINITION. PWM pairs, dead time, split updates and trips (spec/04_pwm.md). Fine times count 1/64 ticks. -/

namespace Sys2Proof.Machine
open Sys2Proof

/-! ### Basics -/

def Dev.pairRuns (d : Dev) (n p : Nat) : Bool := d.b (PWM_CTL n p) PWM_CTL_RUN

def Dev.slave (d : Dev) (n p : Nat) : Bool := d.b (PWM_CTL n p) PWM_CTL_SYNC

def Dev.independent (d : Dev) (n p : Nat) : Bool := d.b (PWM_CTL n p) PWM_CTL_MODE

/-- Source `k` of pair `p` (R167); TRIP is always raised. -/
def Dev.pwmRaise (d : Dev) (n p k : Nat) : Dev :=
  d.raiseIf (k == 0 || d.bit (PWM_IRQ_EN n p) k) (islSrc n + 0x80 + 6 * p + k)

/-- Filigree event `k` of pair `p`: 0 BOUNDARY, 1-4 TRGk, 5 EDGE, 6 TRIP (spec/10_filigree.md R340). -/
def Dev.pwmFire (d : Dev) (n p k : Nat) : Dev := d.fire n (0xC0 + 8 * p + k)

def Dev.pwmLevel (d : Dev) (n p : Nat) (outB : Bool) : Bool :=
  d.b (PWM_STATUS n p) (if outB then PWM_STATUS_LEVEL_B else PWM_STATUS_LEVEL_A)

def Dev.setPwmLevel (d : Dev) (n p : Nat) (outB v : Bool) : Dev :=
  d.wf (PWM_STATUS n p) (if outB then PWM_STATUS_LEVEL_B else PWM_STATUS_LEVEL_A) (b2n v)

/-- The generator places no edge: tripped, waiting to resume, waiting for the boundary of R141, or not running (R153). -/
def Dev.genHeld (d : Dev) (n p : Nat) : Bool :=
  let h := d.pair n p
  h.latch.isSome || d.b (PWM_STATUS n p) PWM_STATUS_RESUME_PEND || h.blocked || !(d.pairRuns n p)

/-! ### Edges and dead time -/

/-- The EDGE event, when EDGE_SEL selects the edge (R143). -/
def Dev.edgeEvent (d : Dev) (n p : Nat) (outB on : Bool) : Dev :=
  if nbit (d.f (PWM_CTL n p) PWM_CTL_EDGE_SEL) (2 * b2n outB + b2n !on) then d.pwmFire n p 5 else d

/-- Dead time of an output's turn-on (R137, R138). -/
def Dev.deadTime (d : Dev) (n p : Nat) (outB : Bool) : Nat :=
  d.f (PWM_DT n p) (if outB then PWM_DT_DT_FALL else PWM_DT_DT_RISE)

/-- Output `outB` turns off at fine time `t`; in INDEPENDENT mode an output that waits for this turn-off gets its delayed
turn-on (R138). -/
def Dev.turnOff (d : Dev) (n p : Nat) (outB : Bool) (t : Nat) : Dev :=
  if d.pwmLevel n p outB then
    let d := (d.setPwmLevel n p outB false).edgeEvent n p outB false
    let h := d.pair n p
    let h := if outB then { h with offB := t } else { h with offA := t }
    let h :=
      if d.independent n p then
        if outB then
          if h.wantA && h.refA && !(d.pwmLevel n p false) then { h with onA := some (t + d.deadTime n p false) } else h
        else
          if h.wantB && h.refB && !(d.pwmLevel n p true) then { h with onB := some (t + d.deadTime n p true) } else h
      else h
    d.setPair n p h
  else d

/-- A delayed turn-on falls due (R137-R139): the output turns on if its reference is in the right state and the generator
places edges; in INDEPENDENT mode only while the other output is inactive, and two outputs due on one fine step both
stay off with OVERLAP. -/
def Dev.turnOn (d : Dev) (n p : Nat) (outB : Bool) (t : Nat) : Dev :=
  let h := d.pair n p
  let clear := if outB then { h with onB := none } else { h with onA := none }
  if d.genHeld n p then d.setPair n p clear
  else if d.independent n p then
    let ref := if outB then h.refB else h.refA
    let oref := if outB then h.refA else h.refB
    let owant := if outB then h.wantA else h.wantB
    let oon := if outB then h.onA else h.onB
    if !ref then d.setPair n p clear
    else if d.pwmLevel n p !outB then d.setPair n p clear
    else if oon = some t ∧ oref ∧ owant then
      (d.setPair n p { h with onA := none, onB := none, wantA := false, wantB := false }).set1
        (PWM_STATUS n p) PWM_STATUS_OVERLAP
    else
      let d := d.setPair n p (if outB then { clear with wantB := false } else { clear with wantA := false })
      (d.setPwmLevel n p outB true).edgeEvent n p outB true
  else
    let d := d.setPair n p clear
    if h.refA != outB then (d.setPwmLevel n p outB true).edgeEvent n p outB true else d

/-- Reference edge `e` at fine time `t`: 0 rise of A, 1 fall of A, 2 rise of B, 3 fall of B (R136-R138). The references
keep running while the generator places no edge (R153). -/
def Dev.refEdge (d : Dev) (n p e t : Nat) : Dev :=
  let h := d.pair n p
  let rise := e % 2 == 0
  if d.independent n p then
    let outB := decide (e ≥ 2)
    let ref := if outB then h.refB else h.refA
    if ref == rise then d
    else
      let h := if outB then { h with refB := rise } else { h with refA := rise }
      if d.genHeld n p then d.setPair n p h
      else if rise then
        let h := if outB then { h with wantB := true } else { h with wantA := true }
        let off := if outB then h.offA else h.offB
        let due := max t (off + d.deadTime n p outB)
        d.setPair n p
          (if d.pwmLevel n p !outB then h
           else if outB then { h with onB := some due } else { h with onA := some due })
      else
        let h := if outB then { h with wantB := false, onB := none } else { h with wantA := false, onA := none }
        (d.setPair n p h).turnOff n p outB t
  else if e ≥ 2 || h.refA == rise then d
  else
    let h := { h with refA := rise }
    if d.genHeld n p then d.setPair n p h
    else if rise then
      ((d.setPair n p { h with onA := some (t + d.deadTime n p false), onB := none }).turnOff n p true t)
    else
      ((d.setPair n p { h with onB := some (t + d.deadTime n p true), onA := none }).turnOff n p false t)

/-- The compare register of reference edge `e`. -/
def PWM_EDGE (n p e : Nat) : Nat := PWM_RISE_A n p + 4 * e

/-- The compare of edge `e` as fine steps after the boundary; `none` where TICK never matches (R135). -/
def Dev.edgeAt (d : Dev) (n p e : Nat) : Option Nat :=
  let v := (d.r (PWM_EDGE n p e)).toNat
  if v / 64 = 0x3FFFFFF then none else some v

/-- Fine step `f` of the present tick for pair `p`: falls before rises, then turn-ons that fall due (R136, R139). -/
def Dev.pairFine (d : Dev) (n p f : Nat) : Dev :=
  match (d.pair n p).lastB with
  | none => d
  | some b =>
    let t := d.beam * 64 + f
    let hit := fun (d : Dev) e => d.edgeAt n p e == some (t - b * 64)
    let d := if hit d 1 then d.refEdge n p 1 t else d
    let d := if hit d 3 then d.refEdge n p 3 t else d
    let d := if hit d 0 && !(hit d 1) then d.refEdge n p 0 t else d
    let d := if hit d 2 && !(hit d 3) then d.refEdge n p 2 t else d
    let d := if (d.pair n p).onA == some t then d.turnOn n p false t else d
    if (d.pair n p).onB == some t then d.turnOn n p true t else d

/-! ### Boundaries -/

/-- The shadow lies in pair `p`. -/
def inPair (n p : Nat) (s : Shadow) : Bool := decide (PWM_PERIOD n p ≤ s.addr ∧ s.addr < PWM_PERIOD n p + 0x40)

/-- The shadow belongs to the period group (`false`) or the duty group (`true`) of pair `p` (R145). -/
def inGroup (n p : Nat) (duty : Bool) (s : Shadow) : Bool :=
  if duty then decide (PWM_RISE_A n p ≤ s.addr ∧ s.addr ≤ PWM_FALL_B n p)
  else decide (s.addr = PWM_PERIOD n p ∨ s.addr = PWM_PSYNC n p)

/-- The outputs start inactive at a boundary on the present tick, with no dead time carried over (R141). -/
def Dev.freshOutputs (d : Dev) (n p : Nat) : Dev :=
  let d := (d.setPwmLevel n p false false).setPwmLevel n p true false
  let h := d.pair n p
  d.setPair n p { h with onA := none, onB := none, wantA := false, wantB := false,
                         offA := d.beam * 64, offB := d.beam * 64, blocked := false, forced := false }

/-- Ticks of MASTER period `k` (R131). -/
def Dev.periodLen (d : Dev) (n p k : Nat) : Nat :=
  let pd := max 32 (d.r (PWM_PERIOD n p)).toNat
  let f := d.f (PWM_PSYNC n p) PWM_PSYNC_FINE
  if (k + 1) * f / 64 > k * f / 64 then pd + 1 else pd

/-- A boundary of a running pair on the present tick (R130-R133, R141, R144, R162); a boundary of a pair that is not
running is dropped. -/
def Dev.pairBoundary (d : Dev) (n p : Nat) : Dev :=
  let h := d.pair n p
  if !(d.pairRuns n p) then d.setPair n p { h with sched := none }
  else
    let fine := d.f (PWM_PSYNC n p) PWM_PSYNC_FINE
    let d := d.applyShadow fun s => inPair n p s && decide (s.tick < d.beam) &&
      (match h.held with
        | some (g, _) => !(inGroup n p g s)
        | none => true)
    let k := if d.f (PWM_PSYNC n p) PWM_PSYNC_FINE ≠ fine || h.lastB.isNone then 0 else h.k + 1
    let d := d.setPair n p { h with k := k, lastB := some d.beam, sched := none }
    let resume := d.b (PWM_STATUS n p) PWM_STATUS_RESUME_PEND && h.latch.isNone && h.clearAt != some d.beam
    let d :=
      if resume then
        ((d.clr (PWM_STATUS n p) PWM_STATUS_RESUME_PEND).freshOutputs n p).pwmRaise n p 5
      else if (h.blocked || h.forced) && h.latch.isNone && !(d.b (PWM_STATUS n p) PWM_STATUS_RESUME_PEND) then d.freshOutputs n p
      else d
    (d.pwmFire n p 0).pwmRaise n p 4

/-- A period end of SYNC_TMR schedules the SLAVE boundary on E + PHASE; one still scheduled is replaced with SYNC_LOST
(R132). -/
def Dev.slaveSchedule (d : Dev) (n : Isl) (p : Fin 16) : Dev :=
  let phase := d.f (PWM_PSYNC n p) PWM_PSYNC_PHASE
  let h := d.pair n p
  let d := if h.sched.isSome then (d.set1 (PWM_STATUS n p) PWM_STATUS_SYNC_LOST).pwmRaise n p 3 else d
  let d := (d.cancel (.pairBoundary n p)).setPair n p { d.pair n p with sched := none }
  if phase = 0 then d.pairBoundary n p
  else (d.setPair n p { d.pair n p with sched := some (d.beam + phase) }).at_ (d.beam + phase) (.pairBoundary n p)

/-- A pair starts (R131-R133, R141); a start of a running pair has no effect. -/
def Dev.pairStart (d : Dev) (n p : Nat) : Dev :=
  if d.pairRuns n p then d
  else
    let h := d.pair n p
    let d := (d.set1 (PWM_CTL n p) PWM_CTL_RUN).setPair n p
      { h with blocked := true, lastB := none, refA := false, refB := false, wantA := false, wantB := false,
               onA := none, onB := none }
    if d.slave n p then d else d.pairBoundary n p

/-- A pair stops: its outputs go inactive on this tick. -/
def Dev.pairStop (d : Dev) (n p : Nat) : Dev :=
  let d := ((d.clr (PWM_CTL n p) PWM_CTL_RUN).setPwmLevel n p false false).setPwmLevel n p true false
  let h := d.pair n p
  d.setPair n p { h with onA := none, onB := none, wantA := false, wantB := false, lastB := none, blocked := true,
                         forced := false }

/-- The island enters RUN: the outputs of running pairs keep the forced safe state until the next boundary (R141, R164). -/
def Dev.pwmResume (d : Dev) (n : Nat) : Dev :=
  d.each (List.range 16) fun d p => if d.pairRuns n p then d.setPair n p { d.pair n p with forced := true } else d

/-! ### Split updates -/

/-- The shadows of a group count as recorded on tick `t`. -/
def Dev.retick (d : Dev) (n p : Nat) (duty : Bool) (t : Nat) : Dev :=
  { d with shadow := d.shadow.map fun s => if inGroup n p duty s then { s with tick := t } else s }

/-- Two writes to the two groups, at most W ticks apart, with a boundary between them set SPLIT (R146). `other` is the
tick of the other group's last write. -/
def Dev.splitCheck (d : Dev) (n p : Nat) (other : Option Nat) (t : Nat) : Dev :=
  let w := d.f (PWM_SPLIT n p) PWM_SPLIT_WIN
  match other, (d.pair n p).lastB with
  | some u, some b =>
    if w ≠ 0 ∧ t ≤ u + w ∧ u < b ∧ b ≤ t then (d.set1 (PWM_STATUS n p) PWM_STATUS_SPLIT).pwmRaise n p 2 else d
  | _, _ => d

/-- A write to a group is noted for split detection and holding (R146, R147); the shadow itself is already pending with
tick `t`. -/
def Dev.groupNoted (d : Dev) (n : Isl) (p : Fin 16) (duty : Bool) : Dev :=
  let t := d.beam
  let w := d.f (PWM_SPLIT n p) PWM_SPLIT_WIN
  let h := d.pair n p
  let other := if duty then h.lastP else h.lastD
  let h := if duty then { h with lastD := some t } else { h with lastP := some t }
  let d := d.setPair n p h
  if w = 0 then d
  else if d.b (PWM_SPLIT n p) PWM_SPLIT_SPLIT_HOLD then
    match h.held with
    | none => (d.setPair n p { h with held := some (duty, t + w) }).at_ (t + w + 1) (.holdExpired n p)
    | some (g, _) =>
      if g = duty then d
      else
        (((d.setPair n p { h with held := none }).retick n p false t).retick n p true t).cancel (.holdExpired n p)
  else d.splitCheck n p other t

/-- The register of a group write: 0 PERIOD, 1 PSYNC.FINE, 2-5 the edges. -/
def groupReg (n p reg : Nat) : Nat := PWM_PERIOD n p + 4 * reg

/-- The bits of a group register that a group write shadows. -/
def groupMask (reg : Nat) : Nat := if reg = 1 then 0x3F else 0xFFFFFFFF

/-- The held group is released alone at the end of its window (R147). -/
def Dev.holdExpire (d : Dev) (n p : Nat) : Dev :=
  let h := d.pair n p
  match h.held with
  | some (g, e) =>
    if e < d.beam then
      (((d.setPair n p { h with held := none }).retick n p g d.beam).set1
        (PWM_STATUS n p) PWM_STATUS_HOLD_EXPIRED).pwmRaise n p 2
    else d
  | none => d

/-! ### Trips -/

def Dev.lineActive (d : Dev) (n l : Nat) : Bool := d.b (PWM_TLINE n l) PWM_TLINE_ACTIVE

/-- The line is blanked now (R156, R158, R159). -/
def Dev.blanked (d : Dev) (n l : Nat) : Bool :=
  let h := d.line n l
  d.b (PWM_TLINE n l) PWM_TLINE_BLANK_EN && h.since.isSome && !h.cut && !d.lost

/-- A masked line of the pair is active, whatever its blanking (R151). -/
def Dev.tripActive (d : Dev) (n p : Nat) : Bool :=
  (List.range 24).any fun l => nbit (d.f (PWM_TRIP_MASK n p) PWM_TRIP_MASK_MASK) l && d.lineActive n l

/-- Line `l` sets the trip latch of pair `p`: edges stop, running dead time is abandoned, a resume is cancelled; the set is
recorded two or three ticks later (R152-R155, R161; R57). Lines on one tick resolve to the lowest number (R154). -/
def Dev.tripLatch (d : Dev) (n : Isl) (p : Fin 16) (l : Nat) : Dev :=
  let h := d.pair n p
  match h.latch with
  | some (t, l') => if t = d.beam ∧ l < l' then d.setPair n p { h with latch := some (t, l) } else d
  | none =>
    let d := (d.clr (PWM_STATUS n p) PWM_STATUS_RESUME_PEND).setPair n p
      { h with latch := some (d.beam, l), onA := none, onB := none, wantA := false, wantB := false, clearAt := none }
    (d.at_ (d.beam + 2 + d.freeVal % 2) (.tripRecorded n p)).freeNext

/-- An unblanked active line trips every pair in whose mask it lies (R152). -/
def Dev.lineTrips (d : Dev) (n : Isl) (l : Nat) : Dev :=
  d.each (List.finRange 16) fun d p =>
    if nbit (d.f (PWM_TRIP_MASK n p) PWM_TRIP_MASK_MASK) l then d.tripLatch n p l else d

/-- Line `l` becomes active; a Filigree line is active at this instant only (R149, R151). -/
def Dev.lineOn (d : Dev) (n : Isl) (l : Nat) : Dev :=
  let d := if l < 20 then d.set1 (PWM_TLINE n l) PWM_TLINE_ACTIVE else d
  if d.blanked n l then d else d.lineTrips n l

def Dev.lineOff (d : Dev) (n l : Nat) : Dev := d.clr (PWM_TLINE n l) PWM_TLINE_ACTIVE

/-- Blanking of line `l` has ended: a line still active trips (R157). -/
def Dev.blankEnded (d : Dev) (n : Isl) (l : Nat) : Dev := if d.lineActive n l then d.lineTrips n l else d

/-- Blanking timer `t` starts: a window opens for every line it blanks (R156); it is cut 4,096 ticks later (R158). -/
def Dev.blankOpen (d : Dev) (n : Isl) (t : Nat) : Dev :=
  d.each (List.finRange 24) fun d l =>
    if d.b (PWM_TLINE n l) PWM_TLINE_BLANK_EN && d.f (PWM_TLINE n l) PWM_TLINE_BLANK_TMR == t && !d.lost then
      (d.setLine n l { since := some d.beam, cut := false }).at_ (d.beam + 4096) (.blankLong n l)
    else d

/-- RUN of blanking timer `t` clears: its windows end (R156, R157). -/
def Dev.blankClose (d : Dev) (n : Isl) (t : Nat) : Dev :=
  d.each (List.finRange 24) fun d l =>
    if d.f (PWM_TLINE n l) PWM_TLINE_BLANK_TMR == t && (d.line n l).since.isSome then
      let was := d.blanked n l
      let d := d.setLine n l {}
      if was then d.blankEnded n l else d
    else d

/-- The window of line `l` has lasted 4,096 ticks: the gate cuts it (R158). -/
def Dev.blankCut (d : Dev) (n : Isl) (l : Nat) : Dev :=
  match (d.line n l).since with
  | some s =>
    if d.blanked n l && decide (s + 4096 ≤ d.beam) then
      ((d.setLine n l { since := some s, cut := true }).set1 (PWM_TLINE n l) PWM_TLINE_BLANK_LONG |>.raise
        (islSrc n + 0xE0 + l)).blankEnded n l
    else d
  | none => d

/-- The set latch is recorded (R155): TRIP and FIRST_LINE; with a running Beam the timestamp, event and source. -/
def Dev.tripRecord (d : Dev) (n p : Nat) : Dev :=
  match (d.pair n p).latch with
  | some (_, l) =>
    if d.b (PWM_STATUS n p) PWM_STATUS_TRIP then d
    else
      let d := (d.set1 (PWM_STATUS n p) PWM_STATUS_TRIP).wf (PWM_STATUS n p) PWM_STATUS_FIRST_LINE l
      if d.lost then d.pwmRaise n p 0
      else
        let d := (d.w (PWM_TRIP_TS_LO n p) (wordOf d.beam)).w (PWM_TRIP_TS_HI n p) (wordOf (d.beam / 4294967296))
        (d.pwmFire n p 6).pwmRaise n p 0
  | none => d

/-- A clear of the trip of pair `p` (R160). -/
def Dev.tripClear (d : Dev) (n p : Nat) : Dev :=
  if !(d.b (PWM_STATUS n p) PWM_STATUS_TRIP) then d
  else if d.tripActive n p then (d.set1 (PWM_STATUS n p) PWM_STATUS_CLR_REFUSED).pwmRaise n p 1
  else
    let h := d.pair n p
    let d := (d.clr (PWM_STATUS n p) PWM_STATUS_TRIP).setPair n p
      { h with latch := none, clearAt := some d.beam, blocked := true }
    if d.pairRuns n p then d.set1 (PWM_STATUS n p) PWM_STATUS_RESUME_PEND
    else (d.setPwmLevel n p false false).setPwmLevel n p true false

/-- The safe state of the pair is forced: outside RUN, after R92, and until the first boundary after RUN came back (R164). -/
def Dev.safeForced (d : Dev) (n p : Nat) : Bool := !(d.inRun n) || d.lost || (d.pair n p).forced

/-- The pin of an output: `none` is high impedance (R140, R163, R164). -/
def Dev.pwmPin (d : Dev) (n p : Nat) (outB : Bool) : Option Bool :=
  let en := d.b (PWM_CTL n p) (if outB then PWM_CTL_PIN_EN_B else PWM_CTL_PIN_EN_A)
  let pol := d.b (PWM_CTL n p) (if outB then PWM_CTL_POL_B else PWM_CTL_POL_A)
  let safe := d.f (PWM_CTL n p) (if outB then PWM_CTL_SAFE_B else PWM_CTL_SAFE_A)
  if !en then none
  else if (d.pair n p).latch.isSome || d.b (PWM_STATUS n p) PWM_STATUS_TRIP ||
      d.b (PWM_STATUS n p) PWM_STATUS_RESUME_PEND then none
  else if d.safeForced n p then
    match safe with
    | 0 => some false
    | 1 => some true
    | _ => none
  else if !(d.pairRuns n p) then some pol
  else some (d.pwmLevel n p outB != pol)

/-! ### Time -/

/-- A MASTER boundary of the pair falls due on the present tick (R131, R133). -/
def Dev.masterDue (d : Dev) (n p : Nat) : Bool :=
  let h := d.pair n p
  d.pairRuns n p && !(d.slave n p) && h.lastB.any fun b => decide (b + d.periodLen n p h.k ≤ d.beam)

/-- The triggers whose value the counter of a running pair reaches on the present tick, and the tick's 64 fine steps (R135,
R142). -/
def Dev.pairEdges (d : Dev) (n p : Nat) : Dev :=
  match d.pairRuns n p, (d.pair n p).lastB with
  | true, some b =>
    let d := d.each [0, 1, 2, 3] fun d k =>
      let v := (d.r (PWM_TRG n p k)).toNat
      if v ≠ 0xFFFFFFFF ∧ v = d.beam - b then d.pwmFire n p (1 + k) else d
    d.each (List.range 64) fun d f => d.pairFine n p f
  | _, _ => d

/-! ### Meanings -/

/-- PAIR_START (R131, R132): a write of PWM_CTL.RUN = 1. -/
def execPairStart (q : Req) (n : Isl) (p : Fin 16) (s : State) : Host.Outcome State Fault Refusal :=
  s.done fun d => d.wr q (PWM_CTL n p) fun d => d.pairStart n p

/-- PAIR_STOP (PWM_CTL.RUN): a write of PWM_CTL.RUN = 0. -/
def execPairStop (q : Req) (n : Isl) (p : Fin 16) (s : State) : Host.Outcome State Fault Refusal :=
  s.done fun d => d.wr q (PWM_CTL n p) fun d => d.pairStop n p

/-- PAIR_BOUNDARY (R130): the counter of the pair reaches a boundary; none comes after R92 (R93). -/
def execPairBoundary (n : Isl) (p : Fin 16) (s : State) : Host.Outcome State Fault Refusal :=
  s.done fun d => if d.ticking then d.pairBoundary n p else d

/-- REFERENCE_EDGE (R136): a compare of the pair matches on this tick at its fine step; a RISE on the fine step of a FALL
gives way to it. -/
def execReferenceEdge (n : Isl) (p : Fin 16) (e : Fin 4) (s : State) : Host.Outcome State Fault Refusal :=
  s.done fun d =>
    if d.ticking && d.pairRuns n p then
      let v := (d.r (PWM_EDGE n p e)).toNat
      if v / 64 = 0x3FFFFFF then d
      else if e.val % 2 = 0 ∧ d.r (PWM_EDGE n p e) = d.r (PWM_EDGE n p (e + 1)) then d
      else d.refEdge n p e (d.beam * 64 + v % 64)
    else d

/-- DEAD_TIME_END (R137): the dead-time interval before the output's turn-on ends. -/
def execDeadTimeEnd (n : Isl) (p : Fin 16) (outB : Bool) (s : State) : Host.Outcome State Fault Refusal :=
  s.done fun d =>
    if d.ticking then
      match (if outB then (d.pair n p).onB else (d.pair n p).onA) with
      | some t => d.turnOn n p outB t
      | none => d
    else d

/-- PWM_TRIGGER (R142): the counter reaches PWM_TRGk. -/
def execPwmTrigger (n : Isl) (p : Fin 16) (k : Fin 4) (s : State) : Host.Outcome State Fault Refusal :=
  s.done fun d =>
    if d.ticking && d.pairRuns n p && decide (d.r (PWM_TRG n p k) ≠ 0xFFFFFFFF) then d.pwmFire n p (1 + k) else d

/-- HOLD_EXPIRED (R147): the window of a held group ends without a write to the other group. -/
def execHoldExpired (n : Isl) (p : Fin 16) (s : State) : Host.Outcome State Fault Refusal :=
  s.done fun d => d.holdExpire n p

/-- TRIP_LINE_ACTIVE (R151, R152): the line becomes active after its filter. -/
def execTripLineActive (n : Isl) (l : Fin 24) (s : State) : Host.Outcome State Fault Refusal :=
  s.done fun d => d.lineOn n l

/-- TRIP_LINE_INACTIVE (R151): the line becomes inactive after its filter. -/
def execTripLineInactive (n : Isl) (l : Fin 24) (s : State) : Host.Outcome State Fault Refusal :=
  s.done fun d => d.lineOff n l

/-- TRIP_RECORDED (R155): the set trip latch is recorded on this tick. -/
def execTripRecorded (n : Isl) (p : Fin 16) (s : State) : Host.Outcome State Fault Refusal :=
  s.done fun d => d.tripRecord n p

/-- BLANK_LONG (R158): a blanking window would still be open after 4,096 ticks. -/
def execBlankLong (n : Isl) (l : Fin 24) (s : State) : Host.Outcome State Fault Refusal :=
  s.done fun d => d.blankCut n l

/-- TRIP_CLEAR (R160): a write to PWM_TRIP_CLR. -/
def execTripClear (q : Req) (n : Isl) (mask : BitVec 16) (s : State) : Host.Outcome State Fault Refusal :=
  s.done fun d => d.wr q (PWM_TRIP_CLR n) fun d =>
    d.each (List.range 16) fun d p => if nbit mask.toNat p then d.tripClear n p else d

/-- TRIP_TS_READ (PWM_TRIP_TS_LO): the low half of the last trip's tick; the high half goes into the reader's latch. -/
def execTripTsRead (q : Req) (n : Isl) (p : Fin 16) (s : State) : Host.Outcome State Fault Refusal :=
  s.done fun d => d.rd q (PWM_TRIP_TS_LO n p) fun d =>
    (d.setLat (latTrip n) q (d.r (PWM_TRIP_TS_HI n p)).toNat, d.r (PWM_TRIP_TS_LO n p))

end Sys2Proof.Machine
end

