-- ==== Sys2Proof/Machine/Frame.lean ====
section
/-! DEFINITION. The Abacus frame of an island (spec/06_abacus_rods.md R211-R217, R239): which rods it holds, its start and its
abandonment. -/

namespace Sys2Proof.Machine
open Sys2Proof

/-- The island of rod `r`'s group; 6 and 7 name none (R211). -/
def Dev.rodIsl (d : Dev) (r : Nat) : Nat := d.f (ABX_GRP_ASSIGN (r / 4)) ABX_GRP_ASSIGN_ISLAND

def Dev.rodRole (d : Dev) (r : Nat) : Nat := d.f (ABX_ROD_CFG r) ABX_ROD_CFG_ROLE

def Dev.retired (d : Dev) (r : Nat) : Bool := d.b (ABX_ROD_STATUS r) ABX_ROD_STATUS_RETIRED

/-- The rods of island `n` with a ROLE: 1 FRAME, 2 SPARE (R213); absent rods serve no island. -/
def Dev.rodsOf (d : Dev) (n role : Nat) : List (Fin 64) :=
  (List.finRange 64).filter fun r =>
    decide (r.val < d.part.rods) && d.rodIsl r == n && d.rodRole r == role && !(d.retired r)

/-- The island's ABX block runs: the island is in RUN and EN is set (R214). -/
def Dev.abxRuns (d : Dev) (n : Nat) : Bool := d.inRun n && d.b (ABX_FRM_CTL n) ABX_FRM_CTL_EN

/-- Source of the Abacus of island `n` at offset `k` (R249). -/
def abxSrc (n k : Nat) : Nat := islSrc n + 0x300 + k

/-- The frame's completion has come about: every FRAME rod has executed END (R216). -/
def Dev.frameDone (d : Dev) (n : Nat) : Bool :=
  (d.frame n).running && (d.rodsOf n 1).all fun r => (d.rod r).done

/-- A completed frame is recorded two or three ticks later (R216, R57). -/
def Dev.frameCheck (d : Dev) (n : Isl) : Dev :=
  if d.frameDone n && (d.frame n).doneAt.isNone then
    (d.at_ (d.beam + 2 + d.freeVal % 2) (.frameCompletion n)).freeNext
  else d

/-- The frame starts on this tick (R214, R215); a second start in a period is dropped. -/
def Dev.frameStart (d : Dev) (n : Isl) : Dev :=
  let h := d.frame n
  if !(d.abxRuns n) then d
  else if h.started then
    (d.set1 (ABX_FRM_STATUS n) ABX_FRM_STATUS_START_DROP).raiseIf (d.b (ABX_IRQ_EN n) ABX_IRQ_EN_START_DROP)
      (abxSrc n 4)
  else
    let d := d.setFrame n { h with running := true, startAt := d.beam, doneAt := none, started := true,
                                   x := [], out := [], link := [], ops := [],
                                   links := (List.range 96).map (fun i => d.r (ABX_LINK i)) ++
                                     (List.range 3).map (fun w => d.r (ABX_LINK_VALID w)) }
    let d := d.set1 (ABX_FRM_STATUS n) ABX_FRM_STATUS_RUNNING
    let d := d.each (d.rodsOf n 1) fun d r =>
      (d.setRod r { pc := d.f (ABX_ROD_CFG r) ABX_ROD_CFG_ENTRY, run := true }).set1
        (ABX_ROD_STATUS r) ABX_ROD_STATUS_ACTIVE
    d.frameCheck n

/-- Rod `r` no longer executes. -/
def Dev.rodHalt (d : Dev) (r : Nat) : Dev :=
  (d.setRod r { d.rod r with run := false }).clr (ABX_ROD_STATUS r) ABX_ROD_STATUS_ACTIVE

/-- The running frame ends and its staging layer is discarded (R69, R217). -/
def Dev.frameDrop (d : Dev) (n : Nat) : Dev :=
  let d := d.each (List.range 64) fun d r => if d.rodIsl r = n then d.rodHalt r else d
  let h := d.frame n
  let d := d.setFrame n { h with running := false, doneAt := none, started := false, x := [], out := [], link := [] }
  (d.clr (ABX_FRM_STATUS n) ABX_FRM_STATUS_RUNNING).clr (ABX_FRM_STATUS n) ABX_FRM_STATUS_DONE

/-- VALID of the link words of island `n` becomes 0 (R240). -/
def Dev.linksInvalid (d : Dev) (n : Nat) : Dev :=
  d.each (List.range 16) fun d j =>
    d.setBit (ABX_LINK_VALID ((16 * n + j) / 32)) ((16 * n + j) % 32) false

/-- The island leaves RUN: the frame is abandoned without a miss, CONSEC and the VALID bits become 0 (R74, R217, R240). -/
def Dev.frameLeaveRun (d : Dev) (n : Nat) : Dev :=
  let d := (d.frameDrop n).linksInvalid n
  let d := d.setFrame n { d.frame n with judge := false }
  d.clr (ABX_FRM_STATUS n) ABX_FRM_STATUS_CONSEC

/-- The island offset that an enabled output slot names. -/
def Dev.slotTarget (d : Dev) (n k : Nat) : Option Nat :=
  if d.b (ABX_OUTMAP n k) ABX_OUTMAP_EN then some (4 * d.f (ABX_OUTMAP n k) ABX_OUTMAP_TARGET) else none

/-- The register at `a` of island `n` is a field that the running frame writes, locked to software (R71, R239). -/
def Dev.frameOwned (d : Dev) (n a : Nat) : Bool :=
  (d.frame n).started && d.abxRuns n &&
    (List.range 64).any fun k => d.slotTarget n k == some (a % 0x1000000)

/-- Frame targets that an output slot may name (R237), by island offset, with the bits it writes. -/
def slotMask (off : Nat) : Option Nat :=
  if 0x10000 ≤ off ∧ off < 0x10400 then
    match off % 0x40 with
    | 0x04 => some 0x3F
    | 0x00 | 0x08 | 0x0C | 0x10 | 0x14 | 0x18 | 0x1C | 0x20 | 0x24 | 0x28 => some 0xFFFFFFFF
    | _ => none
  else if 0x20000 ≤ off ∧ off < 0x20400 ∧ off % 0x40 = 8 then some 0xFFFF
  else none

/-- A write to ABX_OUTMAP k of island `n` (R237): an enabled slot needs a permitted target that no other enabled slot names;
otherwise the register keeps its value and OUTMAP_BAD is set. -/
def Dev.outmapWrite (d : Dev) (n k : Nat) (v : Word) : Dev :=
  let tgt := 4 * fget ABX_OUTMAP_TARGET v
  let clash := (List.range 64).any fun j => j != k && d.slotTarget n j == some tgt
  if fget ABX_OUTMAP_EN v = 1 ∧ ((slotMask tgt).isNone ∨ clash) then
    d.set1 (ABX_BLK_STATUS n) ABX_BLK_STATUS_OUTMAP_BAD
  else
    (d.wf (ABX_OUTMAP n k) ABX_OUTMAP_TARGET (fget ABX_OUTMAP_TARGET v)).wf (ABX_OUTMAP n k) ABX_OUTMAP_EN
      (fget ABX_OUTMAP_EN v)

/-- A pending preset of Sk of rod `r` with the tick that recorded it. -/
def Dev.preset (d : Dev) (r k : Nat) : Word × Nat := tabGet (0, 0) d.presets (r * 32 + k)

/-- Pending presets of rod `r` recorded before this tick replace its accepted state (R242). -/
def Dev.presetApply (d : Dev) (r : Nat) : Dev :=
  d.each (List.range 32) fun d k =>
    if d.bit (ABX_ROD_PEND r) k && decide ((d.preset r k).2 < d.beam) then
      (d.w (ABX_ROD_S r k) (d.preset r k).1).setBit (ABX_ROD_PEND r) k false
    else d

/-- A preset of Sk of rod `r` recorded on tick `t` becomes pending; a retired rod takes none (R242, R246). -/
def Dev.presetWrite (d : Dev) (r k : Nat) (v : Word) (t : Nat) : Dev :=
  if d.retired r then d
  else { d with presets := tabSet (0, 0) d.presets (r * 32 + k) (v, t) }.setBit (ABX_ROD_PEND r) k true

end Sys2Proof.Machine
end

