-- ==== Sys2Proof/Machine/Governor.lean ====
section
/-! DEFINITION. The voltage governor (spec/02_timing_model.md R75-R81). -/

namespace Sys2Proof.Machine
open Sys2Proof

def Dev.target (d : Dev) : Nat := d.f PWR_GOV_STATUS PWR_GOV_STATUS_TARGET
def Dev.ceil (d : Dev) : Nat := d.f PWR_GOV_LIMITS PWR_GOV_LIMITS_CEIL
def Dev.floor (d : Dev) : Nat := d.f PWR_GOV_LIMITS PWR_GOV_LIMITS_FLOOR

/-- The governor is enabled and the regulator's format is linear (R77). -/
def Dev.govOn (d : Dev) : Bool :=
  d.b PWR_GOV_CTL PWR_GOV_CTL_EN && !(d.b PWR_GOV_STATUS PWR_GOV_STATUS_FMT_ERR)

/-- The governor acts: it is on, and no failed transaction holds TARGET (R77, R79). -/
def Dev.govActs (d : Dev) : Bool := d.govOn && !(d.b PWR_GOV_STATUS PWR_GOV_STATUS_PMB_ERR)

/-- VCORE in mV as the governor knows it: the last voltage it commanded, and before that what the board supplies. -/
def Dev.vcore (d : Dev) : Nat := if d.target = 0 then Config.vcoreStart else d.target

/-- Command a voltage in mV: BUSY until its settling wait has passed (R79). -/
def Dev.govCommand (d : Dev) (v : Nat) : Dev :=
  let d := (d.set1 PWR_GOV_STATUS PWR_GOV_STATUS_BUSY).wf PWR_GOV_STATUS PWR_GOV_STATUS_TARGET v
  { d with power := { d.power with tries := 0 } }

/-- One step up, limited to CEIL and never below FLOOR (R64, R78, R81). -/
def Dev.govUp (d : Dev) : Dev :=
  let v := max (min (d.target + d.f PWR_GOV_CTL PWR_GOV_CTL_STEP) d.ceil) d.floor
  ((d.govCommand v).incSat PWR_GOV_STATUS PWR_GOV_STATUS_STEPS_UP).raise 0x0034

/-- A deadline miss of any island (R78, R80, R81). -/
def Dev.govMiss (d : Dev) : Dev :=
  let d := { d with power := { d.power with quiet := d.beam } }
  if d.govOn && d.b PWR_GOV_CTL PWR_GOV_CTL_MISS_STEP then
    if d.target = d.ceil then d.raise 0x0036
    else if d.b PWR_GOV_STATUS PWR_GOV_STATUS_PMB_ERR then d
    else if d.b PWR_GOV_STATUS PWR_GOV_STATUS_BUSY then { d with power := { d.power with upPend := true } }
    else d.govUp
  else d

/-- The settling wait of a command has passed: acknowledged, checked and within 15 mV, or a failure; the second failure sets
PMB_ERR and TARGET is held (R79). -/
def Dev.govSettled (d : Dev) (ok : Bool) : Dev :=
  if !(d.b PWR_GOV_STATUS PWR_GOV_STATUS_BUSY) then d
  else if ok then
    let d := if d.power.tries = 0 then d else d.diagT 6 0
    let d := { d with power := { d.power with tries := 0 } }
    let d := d.clr PWR_GOV_STATUS PWR_GOV_STATUS_BUSY
    if d.power.upPend then
      let d := { d with power := { d.power with upPend := false } }
      if d.target = d.ceil then d else d.govUp
    else d
  else if d.power.tries = 0 then { d with power := { d.power with tries := 1 } }
  else
    let d := ((d.diagL 6 0).clr PWR_GOV_STATUS PWR_GOV_STATUS_BUSY).set1 PWR_GOV_STATUS PWR_GOV_STATUS_PMB_ERR
    { d with power := { d.power with tries := 0, upPend := false } }.raise 0x0035

/-- Ticks of the quiet interval; QUIET 0 acts as 1 (PWR_GOV_CTL.QUIET). -/
def Dev.quietTicks (d : Dev) : Nat := max 1 (d.f PWR_GOV_CTL PWR_GOV_CTL_QUIET) * msTicks

/-- The control period of island `n` in ticks: one period of its frame timer (R104). -/
def Dev.periodTicks (d : Dev) (n : Nat) : Nat :=
  let t := d.f (ABX_FRM_CTL n) ABX_FRM_CTL_BND_TMR
  ((d.r (TLY_RELOAD n t)).toNat + 1) * d.prescale n t

/-- Every island in RUN has a smallest slack of a quarter of its period or more (R80). -/
def Dev.slackOk (d : Dev) : Bool :=
  (List.range 6).all fun n => !(d.inRun n) || decide (d.periodTicks n ≤ 4 * (d.r (ABX_SLACK_MIN n)).toNat)

/-- A step down is due: no miss and no step down for QUIET milliseconds, and steady slack (R80). -/
def Dev.govDownDue (d : Dev) : Bool :=
  d.govActs && d.b PWR_GOV_CTL PWR_GOV_CTL_SLACK_DOWN && !(d.b PWR_GOV_STATUS PWR_GOV_STATUS_BUSY) &&
    decide (d.power.quiet + d.quietTicks ≤ d.beam) && d.slackOk && decide (d.floor < d.target)

/-- One step down (R80). -/
def Dev.govDown (d : Dev) : Dev :=
  if d.govDownDue then
    let d := { d with power := { d.power with quiet := d.beam } }
    d.govCommand (max (d.target - d.f PWR_GOV_CTL PWR_GOV_CTL_STEP) d.floor)
  else d

/-- An island enters RUN: FLOOR rises to 750, and a lower VCORE is raised (R76). -/
def Dev.govEnterRun (d : Dev) : Dev :=
  if d.floor < 750 then
    let d := d.wf PWR_GOV_LIMITS PWR_GOV_LIMITS_FLOOR 750
    if d.govActs && decide (d.vcore < 750) then d.govCommand 750 else d
  else d

/-- PWR_GOV_STATUS as it reads: AT_CEIL shows that TARGET is CEIL (R81). -/
def Dev.govStatus (d : Dev) : Word := fput PWR_GOV_STATUS_AT_CEIL (d.r PWR_GOV_STATUS) (b2n (d.target == d.ceil))

/-- A write of PWR_GOV_LIMITS (R75, R64): refused with BAD_LIMIT where FLOOR would lie above CEIL. -/
def Dev.govLimits (d : Dev) (ceil floor : Nat) : Dev :=
  let c := min ceil 950
  let f := min 950 (max (if d.anyRun then 750 else 650) floor)
  if c < f then d.set1 PWR_GOV_STATUS PWR_GOV_STATUS_BAD_LIMIT
  else (d.wf PWR_GOV_LIMITS PWR_GOV_LIMITS_CEIL c).wf PWR_GOV_LIMITS PWR_GOV_LIMITS_FLOOR f

/-- A write of PWR_GOV_CTL: QUIET 0 reads as 1, STEP is limited to 5-50 mV. -/
def Dev.govCtl (d : Dev) (v : Word) : Dev :=
  let d := d.wf PWR_GOV_CTL PWR_GOV_CTL_QUIET (max 1 (fget PWR_GOV_CTL_QUIET v))
  let d := d.wf PWR_GOV_CTL PWR_GOV_CTL_STEP (min 50 (max 5 (fget PWR_GOV_CTL_STEP v)))
  let d := d.wf PWR_GOV_CTL PWR_GOV_CTL_PMB_ADDR (fget PWR_GOV_CTL_PMB_ADDR v)
  let d := d.wf PWR_GOV_CTL PWR_GOV_CTL_SLACK_DOWN (fget PWR_GOV_CTL_SLACK_DOWN v)
  let d := d.wf PWR_GOV_CTL PWR_GOV_CTL_MISS_STEP (fget PWR_GOV_CTL_MISS_STEP v)
  d.wf PWR_GOV_CTL PWR_GOV_CTL_EN (fget PWR_GOV_CTL_EN v)

/-! ### Meanings -/

/-- VOUT_SETTLE_EXPIRY (R79): 100 us after VOUT_COMMAND, with what the regulator answered. -/
def execVoutSettleExpiry (acked pecOk : Bool) (reading : Nat) (s : State) : Host.Outcome State Fault Refusal :=
  s.done fun d =>
    d.govSettled (acked && pecOk && decide (reading ≤ d.target + 15) && decide (d.target ≤ reading + 15))

/-- GOVERNOR_STEP_DOWN (R80): a step down, when R80 allows one. -/
def execGovernorStepDown (s : State) : Host.Outcome State Fault Refusal :=
  s.done fun d => d.govDown

end Sys2Proof.Machine
end

