-- ==== Sys2Proof/Machine/Trace.lean ====
section
/-! DEFINITION. The trace of an island (spec/07_abacus_laws.md R274-R283). -/

namespace Sys2Proof.Machine
open Sys2Proof

def Dev.armed (d : Dev) (n : Nat) : Bool := d.b (ABX_TRC_CTL n) ABX_TRC_CTL_ARM

/-- A trigger source is selected: 0 FILIGREE, 1 MISS, 2 COMPARE, 3 EXIT. -/
def Dev.traceSel (d : Dev) (n k : Nat) : Bool := nbit (d.f (ABX_TRC_CTL n) ABX_TRC_CTL_TSRC) k

/-- Nodes of a record. -/
def Dev.traceNodes (d : Dev) (n : Nat) : Nat := d.f (ABX_TRC_CTL n) ABX_TRC_CTL_NODES + 1

/-- Records that the trace RAM holds (R275). -/
def Dev.traceCap (d : Dev) (n : Nat) : Nat := 65536 / (4 * (d.traceNodes n + 2))

/-- A trigger becomes pending while the trace records and no trigger has been recorded (R277). -/
def Dev.traceTrigger (d : Dev) (n : Nat) : Dev :=
  if d.armed n && !(d.b (ABX_TRC_STATUS n) ABX_TRC_STATUS_TRIGGERED) then
    d.setTrace n { d.trace n with trig := true }
  else d

/-- Arming (R280). -/
def Dev.traceArm (d : Dev) (n : Nat) : Dev :=
  if d.armed n then d
  else
    let d := (d.clr (ABX_TRC_PTR n) ABX_TRC_PTR_WPTR).clr (ABX_TRC_STATUS n) ABX_TRC_STATUS_TRIGGERED
    let d := (d.clr (ABX_TRC_STATUS n) ABX_TRC_STATUS_WRAPPED).set1 (ABX_TRC_CTL n) ABX_TRC_CTL_ARM
    d.setTrace n { seq := (d.trace n).seq }

/-- Disarming, without DONE (R280). -/
def Dev.traceDisarm (d : Dev) (n : Nat) : Dev := d.clr (ABX_TRC_CTL n) ABX_TRC_CTL_ARM

/-- The trace is complete: DONE, ARMED clears, TRACE_DONE (R278). -/
def Dev.traceDone (d : Dev) (n : Nat) : Dev :=
  ((d.set1 (ABX_TRC_STATUS n) ABX_TRC_STATUS_DONE).clr (ABX_TRC_CTL n) ABX_TRC_CTL_ARM).raise (abxSrc n 0x20)

/-- The island leaves RUN: with EXIT selected an armed trace stops at once (R279). -/
def Dev.traceExit (d : Dev) (n : Nat) : Dev :=
  if d.armed n && d.traceSel n 3 then (d.set1 (ABX_TRC_STATUS n) ABX_TRC_STATUS_EXIT_STOP).traceDone n else d

/-- The address of word `w` of entry `e` of the frame view (spec/05_analog_channels.md R181). -/
def frameView (n e w : Nat) : Nat := ACH_FRAMEVIEW n (4 * e + w)

/-- The value of node `k` at this boundary; `none` is unwritten (R274). -/
def Dev.nodeValue (d : Dev) (n k : Nat) : Option Word :=
  let rod := d.f (ABX_TRC_NODE n k) ABX_TRC_NODE_ROD
  let ix := d.f (ABX_TRC_NODE n k) ABX_TRC_NODE_INDEX
  match d.f (ABX_TRC_NODE n k) ABX_TRC_NODE_KIND with
  | 0 =>
    if d.retired rod || d.rodIsl rod != n then none
    else tabGet none (d.frame n).ops (rod * 16384 + ix)
  | 1 => some (tabGet 0 (d.frame n).slots (ix % 64))
  | 2 => some (d.r (frameView n (ix % 32) 0))
  | _ => some (d.r (ABX_ROD_S rod (ix % 32)))

/-- The compared node crosses THR between two written records in the selected direction (R277). -/
def Dev.traceCross (d : Dev) (n : Nat) : Bool :=
  match (d.trace n).last, d.nodeValue n (d.f (ABX_TRC_CTL n) ABX_TRC_CTL_CMP_NODE) with
  | some a, some b =>
    let thr := sval (d.r (ABX_TRC_THR n))
    let rise := decide (a < thr) && decide (thr ≤ sval b)
    let fall := decide (thr ≤ a) && decide (sval b < thr)
    match d.f (ABX_TRC_CTL n) ABX_TRC_CTL_CMP_EDGE with
    | 0 => rise
    | 1 => fall
    | _ => rise || fall
  | _, _ => false

/-- One record at the boundary on this tick (R275, R277, R278). -/
def Dev.traceRecord (d : Dev) (n : Nat) (accepted missed : Bool) : Dev :=
  let h := d.trace n
  let cnt := d.traceNodes n
  let cap := d.traceCap n
  let j := d.f (ABX_TRC_PTR n) ABX_TRC_PTR_WPTR
  let trigd := d.b (ABX_TRC_STATUS n) ABX_TRC_STATUS_TRIGGERED
  let trig := !trigd && (h.trig || (d.traceSel n 2 && d.traceCross n))
  let vals := (List.range cnt).map (d.nodeValue n)
  let unwritten := (List.range cnt).foldl (fun m i => if (d.nodeValue n i).isNone then m + 2 ^ i else m) 0
  let sat := (d.rodsOf n 1).any fun r => (d.rod r).sat
  let w1 := unwritten * 65536 + b2n sat * 2048 + b2n trig * 1024 + b2n missed * 512 + b2n accepted * 256 + h.seq
  let base := 0x40100000 + n * 0x1000000 + 4 * (cnt + 2) * j
  let last := match d.nodeValue n (d.f (ABX_TRC_CTL n) ABX_TRC_CTL_CMP_NODE) with
    | some v => some (sval v)
    | none => h.last
  let d := (d.storeN base d.beam 4).storeN (base + 4) w1 4
  let d := d.each (List.range cnt) fun d i =>
    d.storeN (base + 8 + 4 * i) (match vals[i]? with
      | some (some v) => v.toNat
      | _ => 0) 4
  let d := d.setTrace n { h with trig := false, recs := h.recs + 1, seq := (h.seq + 1) % 256, last := last }
  let d := if j + 1 ≥ cap then (d.clr (ABX_TRC_PTR n) ABX_TRC_PTR_WPTR).set1 (ABX_TRC_STATUS n) ABX_TRC_STATUS_WRAPPED
    else d.wf (ABX_TRC_PTR n) ABX_TRC_PTR_WPTR (j + 1)
  if trig then
    let d := (d.set1 (ABX_TRC_STATUS n) ABX_TRC_STATUS_TRIGGERED).wf (ABX_TRC_STATUS n) ABX_TRC_STATUS_TRIG_REC j
    let d := d.raiseIf (d.b (ABX_TRC_CTL n) ABX_TRC_CTL_TRIG_IRQ) (abxSrc n 0x21)
    let d := d.setIf (decide (h.recs < d.f (ABX_TRC_LEN n) ABX_TRC_LEN_PRE)) (ABX_TRC_STATUS n) ABX_TRC_STATUS_PRE_SHORT
    let post := min (d.f (ABX_TRC_LEN n) ABX_TRC_LEN_POST) (cap - 1)
    if post = 0 then d.traceDone n else d.setTrace n { d.trace n with post := some post }
  else
    match h.post with
    | some p =>
      if p ≤ 1 then (d.setTrace n { d.trace n with post := none }).traceDone n
      else d.setTrace n { d.trace n with post := some (p - 1) }
    | none => d

/-- A boundary at which the island's block runs, seen by the trace (R276). -/
def Dev.traceBoundary (d : Dev) (n : Nat) (accepted missed : Bool) : Dev :=
  if !(d.armed n) then d
  else
    let d := if missed && d.traceSel n 1 then d.traceTrigger n else d
    let h := d.trace n
    if h.skip = 0 then
      (d.setTrace n { h with skip := d.f (ABX_TRC_CTL n) ABX_TRC_CTL_DECIM }).traceRecord n accepted missed
    else d.setTrace n { h with skip := h.skip - 1 }

/-! ### Meanings -/

/-- TRACE_ARM (R280): a write of ARM = 1. -/
def execTraceArm (q : Req) (n : Isl) (s : State) : Host.Outcome State Fault Refusal :=
  s.done fun d => d.wr q (ABX_TRC_CTL n) fun d => d.traceArm n

/-- TRACE_DISARM (R280): a write of ARM = 0. -/
def execTraceDisarm (q : Req) (n : Isl) (s : State) : Host.Outcome State Fault Refusal :=
  s.done fun d => d.wr q (ABX_TRC_CTL n) fun d => d.traceDisarm n

/-- TRACE_FORCE (R277): a write of FORCE makes a trigger pending. -/
def execTraceForce (q : Req) (n : Isl) (s : State) : Host.Outcome State Fault Refusal :=
  s.done fun d => d.wr q (ABX_TRC_CMD n) fun d => d.traceTrigger n

end Sys2Proof.Machine
end

