-- ==== Sys2Proof/Machine/Modes.lean ====
section
/-! DEFINITION. Device modes and island SAFE: every mode change and what it does to the islands
(spec/20_modes_power_boot.md R618-R624). -/

namespace Sys2Proof.Machine
open Sys2Proof

/-- The source of Bead engine `e` of island `n` (spec/09_bead_engines.md R331); PROG_ERR is always raised. -/
def Dev.beadRaise (d : Dev) (n e k : Nat) : Dev :=
  d.raiseIf (k == 2 || d.bit (BEAD_IRQ_EN n e) k) (islSrc n + 0x200 + 8 * e + k)

def Dev.beadStopped (d : Dev) (n e : Nat) : Bool := d.b (BEAD_STAT n e) BEAD_STAT_STOPPED

/-- A stop of any kind on tick `t`: RUN clears, STOPPED is set, STOP fires, its source is raised
(spec/09_bead_engines.md R324). -/
def Dev.beadHalted (d : Dev) (n e t : Nat) : Dev :=
  let d := (d.clr (BEAD_CTL n e) BEAD_CTL_RUN).set1 (BEAD_STAT n e) BEAD_STAT_STOPPED
  let d := d.clr (BEAD_STAT n e) BEAD_STAT_WAITING
  let d := d.setBead n e { d.bead n e with stop := none, wwin := false }
  (d.raiseIf (d.bit (BEAD_IRQ_EN n e) 1) (islSrc n + 0x200 + 8 * e + 1)).fireAt n (0x180 + 4 * e + 2) t

/-- A forced stop of a running engine (spec/09_bead_engines.md R327): a half CK bit does not count, P1 returns to CPOL, the
pins go to their safe levels. -/
def Dev.beadForce (d : Dev) (n e : Nat) : Dev :=
  if d.beadStopped n e then d
  else
    let h := d.bead n e
    let p1 := if h.half then d.b (BEAD_CTL n e) BEAD_CTL_CPOL else h.p1
    let d := (d.beadHalted n e d.beam).set1 (BEAD_STAT n e) BEAD_STAT_FORCED_STOP
    let d := d.setBead n e { d.bead n e with half := false, p1 := p1, safe := true }
    d.beadRaise n e 6

/-- Forced stops of an island's engines; `all` is HALT or R92, otherwise only engines with SAFE_STOP. -/
def Dev.beadForceAll (d : Dev) (n : Nat) (all : Bool) : Dev :=
  d.each (List.range 8) fun d e =>
    if all || d.b (BEAD_CTL n e) BEAD_CTL_SAFE_STOP then d.beadForce n e else d

/-- Island `n` leaves RUN: its frame is abandoned and an armed trace with EXIT stops; the outputs take their safe states by
spec/03 R114, spec/04 R164 and spec/05 R192, which read the mode. -/
def Dev.leaveRun (d : Dev) (n : Nat) : Dev := (d.frameLeaveRun n).traceExit n

/-- A channel in DAC mode waits for its next boundary before it drives ACH_DAC again (spec/05_analog_channels.md R192). -/
def Dev.dacRelease (d : Dev) (n : Nat) : Dev :=
  d.each (List.range 16) fun d c => d.setChan n c { d.chan n c with driven := false }

/-- Island `n` enters RUN: its outputs wait for their next boundary (spec/04_pwm.md R164), and the governor's floor holds
(spec/02_timing_model.md R76). -/
def Dev.enterRun (d : Dev) (n : Nat) : Dev := ((d.pwmResume n).dacRelease n).govEnterRun

/-- The present islands as a mask. -/
def Dev.present (d : Dev) : Nat := 2 ^ d.part.islands - 1

/-- A change of the device mode or of the SAFE mask on this tick (R619, R623): source 0x0038 with the new mode and mask;
islands leave or enter RUN; newly safe islands force Bead stops, and HALT forces all (spec/09 R327). -/
def Dev.setMode (d : Dev) (mode mask : Nat) : Dev :=
  if mode = d.mode ∧ mask = d.safeMask then d
  else
    let old := d
    let d := (d.wf PWR_MODE PWR_MODE_MODE mode).wf PWR_MODE PWR_MODE_SAFE_MASK mask
    let d := d.raise 0x0038 (mode + mask * 256)
    let d := if (old.mode == mRun) != (mode == mRun) then d.gateNote 518 else d
    let d := d.each (List.range 6) fun d n => if old.inRun n != d.inRun n then d.gateNote (512 + n) else d
    d.each (List.range old.part.islands) fun d n =>
      let d := if old.inRun n && !(d.inRun n) then d.leaveRun n else d
      let d := if d.inRun n && !(old.inRun n) then d.enterRun n else d
      let d := if nbit mask n && !(nbit old.safeMask n) then d.beadForceAll n false else d
      if mode = mHalt ∧ old.mode ≠ mHalt then d.beadForceAll n true else d

/-- Record a SAFE cause of the islands of `mask` (R622). -/
def Dev.safeCause (d : Dev) (mask : Nat) (f : Fld) : Dev :=
  d.each (List.range d.part.islands) fun d n =>
    if nbit mask n then
      let d := if f = PWR_SAFE_CAUSE_REQUEST ∨ nbit d.safeMask n then d else d.diagL 10 n
      d.set1 (PWR_SAFE_CAUSE n) f
    else d

/-- Islands of `mask` enter SAFE for a cause (R622); during HALT the cause is added to the record (R624); in START and
DORMANT nothing but the cause is recorded. -/
def Dev.islandsSafe (d : Dev) (mask : Nat) (f : Fld) : Dev :=
  let mask := mask &&& d.present
  let d := d.safeCause mask f
  if d.mode = mHalt then
    match d.power.rec_ with
    | some (m, k) => { d with power := { d.power with rec_ := some (m, k ||| mask) } }
    | none => d
  else if d.mode = mDormant ∨ d.mode = mStart then d
  else d.setMode d.mode (d.safeMask ||| mask)

/-- The device enters SAFE for a cause, where R619, R624 and R628 allow. -/
def Dev.deviceSafe (d : Dev) (f : Fld) : Dev :=
  if d.mode = mHalt then
    let d := d.safeCause d.present f
    match d.power.rec_ with
    | some _ => { d with power := { d.power with rec_ := some (mSafe, d.present) } }
    | none => d
  else if d.mode = mSetup ∨ d.mode = mRun then (d.safeCause d.present f).setMode mSafe d.present
  else if d.mode = mSafe then d.safeCause d.present f
  else d

/-- A core halts: the device enters HALT and keeps a record of the mode and mask (R619, R624). -/
def Dev.haltEnter (d : Dev) : Dev :=
  if d.mode = mSetup ∨ d.mode = mRun ∨ d.mode = mSafe then
    { d with power := { d.power with rec_ := some (d.mode, d.safeMask) } }.setMode mHalt d.safeMask
  else d

/-- No core is halted any longer: the recorded state applies (R624). -/
def Dev.haltLeave (d : Dev) : Dev :=
  if d.mode = mHalt then
    match d.power.rec_ with
    | some (m, k) => { d with power := { d.power with rec_ := none } }.setMode m k
    | none => d
  else d

end Sys2Proof.Machine
end

