-- ==== Sys2Proof/Machine/Locks.lean ====
section
/-! DEFINITION. Locked writes (spec/00_scope.md R15, spec/11_clasp_transactions.md R365): when a block runs, and how it
reports a locked write. -/

namespace Sys2Proof.Machine
open Sys2Proof

/-- The islands in RUN whose window holds the law-store word at `x` (spec/06_abacus_rods.md R234), or that the written or
present value of an ABX spine register names (R212, R213), lowest first; the present value's island comes first for
ABX_GRP_ASSIGN. -/
def Dev.abxLockers (d : Dev) (x : Nat) (v : Word) : List Nat :=
  let o := x % 0x100000
  if o < 0x40 then
    let p := d.f x ABX_GRP_ASSIGN_ISLAND
    let w := fget ABX_GRP_ASSIGN_ISLAND v
    (if p < 6 && d.inRun p then [p] else []) ++ (if w < 6 && w != p && d.inRun w then [w] else [])
  else if 0x100 ≤ o ∧ o < 0x200 then
    let p := d.rodIsl ((o - 0x100) / 4)
    if p < 6 && d.inRun p then [p] else []
  else if 0x400 ≤ o ∧ o < 0x418 then
    if d.inRun ((o - 0x400) / 4) then [(o - 0x400) / 4] else []
  else if 0x80000 ≤ o then
    let page := (o - 0x80000) / 8 / 64
    (List.range 6).filter fun n =>
      d.inRun n && decide (d.f (ABX_LAWWIN n) ABX_LAWWIN_BASE ≤ page ∧ page ≤ d.f (ABX_LAWWIN n) ABX_LAWWIN_LAST)
  else []

/-- The block that owns the register at `x` runs, for the lock of its RWL fields; `v` is the value to be written (R365). -/
def Dev.lockRuns (d : Dev) (x : Nat) (v : Word) : Bool :=
  if 0x40000000 ≤ x ∧ x < 0x46000000 then
    let n := (x - 0x40000000) / 0x1000000
    let o := x % 0x10000
    match x % 0x1000000 / 0x10000 with
    | 0 => decide (o < 0x400) && d.timerRuns n (o / 0x40)
    | 1 => if o < 0x400 then d.pairRuns n (o / 0x40) else (List.range 16).any fun p => d.pairRuns n p
    | 5 => decide (o < 0x1000) && !(d.beadStopped n (o / 0x200))
    | 7 => if 0x400 ≤ o ∧ o < 0x800 then d.armed n else d.abxRuns n
    | _ => d.inRun n
  else if 0x48200000 ≤ x ∧ x < 0x48300000 then !(d.abxLockers x v).isEmpty
  else if 0x48300000 ≤ x ∧ x < 0x48400000 then d.anyRun
  else if 0x48400100 ≤ x ∧ x < 0x48400190 then
    d.b (PND_RING_CFG ((x - 0x48400100) / 0x10)) PND_RING_CFG_EN
  else if 0x48A00000 ≤ x ∧ x < 0x48A40000 then d.b (CHN_CTL ((x - 0x48A00000) / 0x10000)) CHN_CTL_EN
  else if 0x48B00000 ≤ x ∧ x < 0x48B60000 then !(d.b (CAN_CTL ((x - 0x48B00000) / 0x10000)) CAN_CTL_INIT)
  else false

/-- The block that owns `x` reports locked writes by bus error. -/
def Dev.lockBerr (d : Dev) (x : Nat) : Bool :=
  if 0x40000000 ≤ x ∧ x < 0x46000000 then
    let n := (x - 0x40000000) / 0x1000000
    match x % 0x1000000 / 0x10000 with
    | 0 => d.b (TLY_OPT n) TLY_OPT_LOCK_BERR
    | 1 => d.b (PWM_OPT n) PWM_OPT_LOCK_BERR
    | 2 => d.b (ACH_OPT n) ACH_OPT_LOCK_BERR
    | 3 => d.b (SDM_OPT n) SDM_OPT_LOCK_BERR
    | 4 => d.b (FBK_OPT n) FBK_OPT_LOCK_BERR
    | 5 => d.b (BEAD_OPT n) BEAD_OPT_LOCK_BERR
    | 6 => d.b (FLG_OPT n) FLG_OPT_LOCK_BERR
    | _ => d.b (ABX_OPT n) ABX_OPT_LOCK_BERR
  else if 0x48200000 ≤ x ∧ x < 0x48300000 then d.b ABX_SPINE_OPT ABX_SPINE_OPT_LOCK_BERR
  else if 0x48300000 ≤ x ∧ x < 0x48400000 then d.b FLG_SPINE_OPT FLG_SPINE_OPT_LOCK_BERR
  else if 0x48400000 ≤ x ∧ x < 0x48500000 then d.b PND_OPT PND_OPT_LOCK_BERR
  else false

/-- The report of a locked write aimed at `x`: CFG_LOCKED_WRITE, where it was aimed, and the block's source (R15). The
present field of the place stays where the register belongs to no numbered unit. -/
def Dev.lockReport (d : Dev) (x : Nat) (v : Word) : Dev :=
  if 0x40000000 ≤ x ∧ x < 0x46000000 then
    let n := (x - 0x40000000) / 0x1000000
    let o := x % 0x10000
    match x % 0x1000000 / 0x10000 with
    | 0 =>
      ((d.set1 (TLY_BLK_STATUS n) TLY_BLK_STATUS_CFG_LOCKED_WRITE).wf (TLY_BLK_STATUS n) TLY_BLK_STATUS_LOCK_TMR
        (o / 0x40)).raise (islSrc n + 8 * (o / 0x40) + 7)
    | 1 =>
      let d := d.set1 (PWM_BLK_STATUS n) PWM_BLK_STATUS_CFG_LOCKED_WRITE
      let d := if o < 0x400 then
          (d.clr (PWM_BLK_STATUS n) PWM_BLK_STATUS_LOCK_BLK).wf (PWM_BLK_STATUS n) PWM_BLK_STATUS_LOCK_PAIR (o / 0x40)
        else d.wf (PWM_BLK_STATUS n) PWM_BLK_STATUS_LOCK_BLK 1
      d.raise (islSrc n + 0xF8)
    | 2 =>
      let d := d.set1 (ACH_BLK_STATUS n) ACH_BLK_STATUS_CFG_LOCKED_WRITE
      let d := if o < 0x400 then d.wf (ACH_BLK_STATUS n) ACH_BLK_STATUS_LOCK_CH (o / 0x40) else d
      d.raise (islSrc n + 0x162)
    | 3 =>
      ((d.set1 (SDM_BLK_STATUS n) SDM_BLK_STATUS_CFG_LOCKED_WRITE).wf (SDM_BLK_STATUS n) SDM_BLK_STATUS_LOCK_IN
        (if o < 0x200 then o / 0x40 else 8 + (o - 0x800) / 4)).raise (islSrc n + 0x1A0)
    | 4 =>
      ((d.set1 (FBK_BLK_STATUS n) FBK_BLK_STATUS_CFG_LOCKED_WRITE).wf (FBK_BLK_STATUS n) FBK_BLK_STATUS_LOCK_IF
        (o / 0x100)).raise (islSrc n + 0x1E0)
    | 5 =>
      ((d.set1 (BEAD_BLK_STATUS n) BEAD_BLK_STATUS_CFG_LOCKED_WRITE).wf (BEAD_BLK_STATUS n) BEAD_BLK_STATUS_LOCK_ENG
        (o / 0x200)).raise (islSrc n + 0x240)
    | 6 =>
      ((d.set1 (FLG_BLK_STATUS n) FLG_BLK_STATUS_CFG_LOCKED_WRITE).wf (FLG_BLK_STATUS n) FLG_BLK_STATUS_LOCK_OFS o).raise
        (islSrc n + 0x2C2)
    | _ =>
      ((d.set1 (ABX_BLK_STATUS n) ABX_BLK_STATUS_CFG_LOCKED_WRITE).wf (ABX_BLK_STATUS n) ABX_BLK_STATUS_LOCK_OFS o).raise
        (abxSrc n 2)
  else if 0x48200000 ≤ x ∧ x < 0x48300000 then
    let d0 := d
    let ls := d0.abxLockers x v
    let d := (d.set1 ABX_SPINE_STATUS ABX_SPINE_STATUS_CFG_LOCKED_WRITE).wf ABX_SPINE_STATUS ABX_SPINE_STATUS_LOCK_OFS
      (x % 0x100000)
    let d := d.wf ABX_SPINE_STATUS ABX_SPINE_STATUS_LOCK_ISL (ls.headD 0)
    if x % 0x100000 < 0x80000 then d.each ls fun d n => d.raise (abxSrc n 2)
    else d.raise (abxSrc (ls.headD 0) 2)
  else if 0x48300000 ≤ x ∧ x < 0x48400000 then
    ((d.set1 FLG_SPINE_STATUS FLG_SPINE_STATUS_CFG_LOCKED_WRITE).wf FLG_SPINE_STATUS FLG_SPINE_STATUS_LOCK_OFS
      (x % 0x10000)).raise 0x0024
  else if 0x48400000 ≤ x ∧ x < 0x48500000 then
    ((d.set1 PND_BLK_STATUS PND_BLK_STATUS_CFG_LOCKED_WRITE).wf PND_BLK_STATUS PND_BLK_STATUS_LOCK_RING
      ((x - 0x48400100) / 0x10)).raise 0x0032
  else if 0x48A00000 ≤ x ∧ x < 0x48B00000 then
    let p := (x - 0x48A00000) / 0x10000
    (d.set1 (CHN_STATUS p) CHN_STATUS_CFG_LOCKED_WRITE).raise (0x0105 + 8 * p)
  else if 0x48B00000 ≤ x ∧ x < 0x48C00000 then
    let c := (x - 0x48B00000) / 0x10000
    (d.set1 (CAN_STATUS c) CAN_STATUS_CFG_LOCKED_WRITE).raise (0x0145 + 8 * c)
  else d

/-- A locked write on its own: it answers LOCKED where the block reports by bus error, and otherwise reports (R15). -/
def Dev.locked (d : Dev) (q x : Nat) (v : Word) : Dev :=
  if d.lockBerr x then d.resp q 0 .locked else (d.lockReport x v).resp q 0

end Sys2Proof.Machine
end

