-- ==== Sys2Proof/Machine/Inputs.lean ====
section
/-! DEFINITION. Consumer inputs of the Filigree: their pending events and the tick of each action (spec/10_filigree.md
R341-R346). -/

namespace Sys2Proof.Machine
open Sys2Proof

/-- The key of input `x` of island `n`. -/
def inKey (n x : Nat) : Nat := n * 128 + x
/-- The key of spine input `x`. -/
def spineKey (x : Nat) : Nat := 1024 + x

/-- The pending events of an input, in order of arrival. -/
def Dev.pendOf (d : Dev) (k : Nat) : List PendEv := tabGet [] d.pend k

/-- The tick that R61 gives for the action of an event with origin `o`, recorded on tick `rec`, with delay `dly`. -/
def actTick (o rec dly : Nat) : Nat := if dly = 0 then rec + 1 else if rec ≤ o + dly then o + dly else rec + 1

/-- R61 finds the action late. -/
def actLate (o rec dly : Nat) : Bool := decide (dly ≠ 0) && decide (o + dly < rec)

/-- The pending events of a commit input after tick `t`: those recorded by then have their action tick, with delay `dly`
(spec/11_clasp_transactions.md R377; R344 spaces the actions). `prev` is the tick of the action before. -/
def recordPend (dly t : Nat) : Nat → List PendEv → List PendEv
  | _, [] => []
  | prev, e :: es =>
    match e.origin with
    | none => e :: recordPend dly t e.due es
    | some o =>
      if t < e.due then e :: es
      else
        let due := max (actTick o e.due dly) (prev + 1)
        ⟨due, actLate o e.due dly, none⟩ :: recordPend dly t due es

/-- One action of an input takes the oldest pending event; the answer tells whether it acts late (R61, R344). -/
def Dev.takeInput (d : Dev) (k : Nat) : Dev × Bool :=
  match d.pendOf k with
  | e :: es =>
    ({ d with pend := tabSet [] d.pend k es, inLast := tabSet 0 d.inLast k d.beam },
     e.late && decide (e.due ≤ d.beam))
  | [] => ({ d with inLast := tabSet 0 d.inLast k d.beam }, false)

end Sys2Proof.Machine
end

