-- ==== Sys2Proof/Machine/Analog.lean ====
section
/-! DEFINITION. Analog channels, the sample bank, sample sets, plausibility, comparators and calibration
(spec/05_analog_channels.md R170-R198). -/

namespace Sys2Proof.Machine
open Sys2Proof

/-- Modes of a channel (R170). -/
def achOff : Nat := 0
def achAdc : Nat := 1
def achDac : Nat := 2
def achComp : Nat := 3

def Dev.achMode (d : Dev) (n c : Nat) : Nat := d.f (ACH_MODE n c) ACH_MODE_MODE

/-- Source `k` of channel `c` (R208). -/
def Dev.achRaise (d : Dev) (n c k : Nat) : Dev :=
  d.raiseIf (d.bit (ACH_IRQ_EN n c) k) (islSrc n + 0x100 + 6 * c + k)

/-- Acquisition ticks; fewer than 15 act as 15 (R175). -/
def Dev.acqTicks (d : Dev) (n c : Nat) : Nat := max 15 (d.f (ACH_CFG n c) ACH_CFG_ACQ)

/-- SETTLING at tick `t`: within 1,000 ticks from the last change to ADC, DAC or COMP (R172). -/
def Dev.settlingAt (d : Dev) (n c t : Nat) : Bool :=
  match (d.chan n c).settle with
  | some s => decide (t ≤ s + 999)
  | none => false

/-! ### The sample bank and sample sets (R181-R186) -/

/-- A new result replaces the four words of entry `e` (R182, R183). -/
def Dev.bankPut (d : Dev) (n e : Nat) (value : Int) (code flags ts : Nat) : Dev :=
  let seq := (fget ⟨8, 8⟩ (d.r (ACH_BANK n (4 * e + 1))) + 1) % 256
  let d := (d.w (ACH_BANK n (4 * e)) (wordOfInt value)).w (ACH_BANK n (4 * e + 1))
    (wordOf (code % 65536 * 65536 + seq * 256 + flags % 256))
  (d.w (ACH_BANK n (4 * e + 2)) (wordOf ts)).w (ACH_BANK n (4 * e + 3)) (wordOf (ts / 4294967296))

def Dev.waiting (d : Dev) (n : Nat) : Nat := d.f (ACH_SET_STATUS n) ACH_SET_STATUS_WAITING

/-- The set completes on this tick: the frame view takes the whole bank, the frame starts, SET_DONE fires, DONE is set
(R185). -/
def Dev.setDone (d : Dev) (n : Isl) : Dev :=
  let d := d.setSset n { d.sset n with opened := false }
  let d := d.each (List.range 112) fun d w => d.w (ACH_FRAMEVIEW n w) (d.r (ACH_BANK n w))
  let d := d.frameStart n
  let d := (d.fire n 0x160).set1 (ACH_SET_STATUS n) ACH_SET_STATUS_DONE
  d.raiseIf (d.b (ACH_SET_CTL n) ACH_SET_CTL_DONE_IRQ) (islSrc n + 0x160)

/-- The open set completes when no member is awaited any longer, unless its period ends on this tick (R185). -/
def Dev.setCheck (d : Dev) (n : Isl) : Dev :=
  if (d.sset n).opened && d.waiting n == 0 && !(d.wrapsNow n (d.f (ACH_SET_CTL n) ACH_SET_CTL_SET_TMR)) then d.setDone n
  else d

/-- Member `m` of the set no longer awaits a result. -/
def Dev.setDrop (d : Dev) (n : Isl) (m : Nat) : Dev :=
  if (d.sset n).opened && nbit (d.waiting n) m then
    (d.wf (ACH_SET_STATUS n) ACH_SET_STATUS_WAITING (nbitSet (d.waiting n) m false)).setCheck n
  else d

/-- A result of member `m` with timestamp `ts` has been recorded; it counts when it is not older than the set (R185, R186). -/
def Dev.memberCount (d : Dev) (n : Isl) (m ts : Nat) : Dev :=
  if decide ((d.sset n).at_ ≤ ts) && !(d.wrapsNow n (d.f (ACH_SET_CTL n) ACH_SET_CTL_SET_TMR)) then d.setDrop n m else d

/-- The members of a set that opens now (R184). -/
def Dev.setMembers (d : Dev) (n : Nat) : Nat :=
  let m := d.f (ACH_SET n) ACH_SET_MASK
  (List.range 26).foldl (fun acc i =>
    if nbit m i &&
        (if i < 16 then d.achMode n i == achAdc
         else if i < 24 then d.b (SDM_CFG n (i - 16)) SDM_CFG_EN
         else true)
    then acc + 2 ^ i else acc) 0

/-- A period end of SET_TMR closes the open set and opens a new one (R184, R186). -/
def Dev.setOpen (d : Dev) (n : Isl) : Dev :=
  if !(d.b (ACH_SET_CTL n) ACH_SET_CTL_EN) then d
  else
    let d := if (d.sset n).opened then
        (d.set1 (ACH_SET_STATUS n) ACH_SET_STATUS_INCOMPLETE).raise (islSrc n + 0x161)
      else d
    let m := d.setMembers n
    let d := d.wf (ACH_SET_STATUS n) ACH_SET_STATUS_WAITING m
    let d := d.setSset n { d.sset n with opened := true, at_ := d.beam }
    if m = 0 then d.setDone n else d

/-- EN becomes 0: an open set is dropped without a flag (R184). -/
def Dev.setAbandon (d : Dev) (n : Nat) : Dev :=
  (d.setSset n { d.sset n with opened := false }).clr (ACH_SET_STATUS n) ACH_SET_STATUS_WAITING

/-! ### Triggers (R174-R177) -/

/-- Acquisition of channel `c` begins on this tick (R175-R177). -/
def Dev.acquire (d : Dev) (n c : Nat) : Dev :=
  let h := d.chan n c
  if d.achMode n c ≠ achAdc then (d.set1 (ACH_STATUS n c) ACH_STATUS_IGNORED).achRaise n c 2
  else if h.acq = some d.beam ∧ ¬ h.retry then d
  else if d.beam < h.busyEnd then
    ((d.set1 (ACH_STATUS n c) ACH_STATUS_OVERRUN).incSat (ACH_CNT n c) ACH_CNT_DROP).achRaise n c 2
  else
    d.setChan n c { h with acq := some d.beam, busyEnd := d.beam + d.acqTicks n c + 35, first := none, retry := false }

/-- The channels of group `g` (ACH_CFG.GROUP). -/
def Dev.groupOf (d : Dev) (n g : Nat) : List Nat :=
  (List.range 16).filter fun c => d.f (ACH_CFG n c) ACH_CFG_GROUP == g

/-- Group `g` starts acquisition on this tick; a late start sets LATE on its channels (R174). -/
def Dev.groupStart (d : Dev) (n g : Nat) (late : Bool) : Dev :=
  d.each (d.groupOf n g) fun d c =>
    let d := if late then (d.set1 (ACH_STATUS n c) ACH_STATUS_LATE).achRaise n c 3 else d
    d.acquire n c

/-- Groups triggered by software on an earlier tick start (R174). -/
def Dev.softStart (d : Dev) (n : Nat) : Dev :=
  let x := d.sset n
  if x.sw ≠ 0 ∧ x.swAt < d.beam then
    let d := d.setSset n { x with sw := 0 }
    d.each (List.range 8) fun d g => if nbit x.sw g then d.groupStart n g false else d
  else d

/-- Software triggers the groups of `mask` on this tick (R174). -/
def Dev.softTrigger (d : Dev) (n mask : Nat) : Dev :=
  let d := d.softStart n
  d.setSset n { d.sset n with sw := (d.sset n).sw ||| mask, swAt := d.beam }

/-! ### Results (R178, R179, R188-R190) -/

/-- Rounding to nearest, halves away from zero (R179). -/
def roundAway (num den : Int) : Int :=
  if num ≥ 0 then (2 * num + den) / (2 * den) else -((2 * (-num) + den) / (2 * den))

/-- CODE from a raw code and the channel's coefficients, and whether it was clamped (R179). -/
def Dev.achCode (d : Dev) (n c raw : Nat) : Nat × Bool :=
  let gain := d.f (ACH_CAL n c) ACH_CAL_GAIN
  let ofs := sext 16 (d.f (ACH_CAL n c) ACH_CAL_OFS)
  let x := roundAway (((raw : Int) - ofs) * gain) 32768
  ((clampInt 0 65535 x).toNat, decide (clampInt 0 65535 x ≠ x))

/-- A result lands in the bank (R172, R178, R182): flags as given beside VALID, SETTLING and CLIP; DONE fires; the set
counts it. -/
def Dev.achLand (d : Dev) (n : Isl) (c : Fin 16) (code : Nat) (clip : Bool) (ts flags : Nat) (failed : Bool) : Dev :=
  let settling := d.settlingAt n c ts
  let fl := b2n (!settling && !failed) + 2 * b2n settling + 16 * b2n clip + flags
  let d := d.bankPut n c ((code : Int) - d.f (ACH_ZERO n c) ACH_ZERO_ZERO) code fl ts
  let d := d.setIf clip (ACH_STATUS n c) ACH_STATUS_CLIP
  let d := d.setChan n c { d.chan n c with acq := none, first := none, retry := false }
  let d := (d.fire n (0x140 + 2 * c)).achRaise n c 0
  d.memberCount n c ts

/-- A result lands unchecked, with PLAUS_SKIP (R188). -/
def Dev.achSkip (d : Dev) (n : Isl) (c : Fin 16) (code : Nat) (clip : Bool) (ts : Nat) : Dev :=
  (d.set1 (ACH_STATUS n c) ACH_STATUS_PLAUS_SKIP).achLand n c code clip ts 32 false

/-- The even channel of `c`'s plausibility pair. -/
def evenOf (c : Nat) : Nat := c - c % 2

/-- The check of R188 on the codes of the even and the odd channel. -/
def Dev.plausOk (d : Dev) (n even : Nat) (a b : Nat) : Bool :=
  let tol := d.f (ACH_PLAUS n even) ACH_PLAUS_TOL
  let diff : Int := if d.b (ACH_PLAUS n even) ACH_PLAUS_PMODE then (a : Int) + b - 65536 else (a : Int) - b
  decide (diff.natAbs ≤ tol)

/-- Both results of a checked pair are known (R189): a pass lands both; a first failure makes both acquire again; a failed
retry lands both with PLAUS_FAIL. -/
def Dev.plausDecide (d : Dev) (n : Isl) (e o : Fin 16) (ea : Nat × Bool) (oa : Nat × Bool) (ts : Nat) (retry : Bool) : Dev :=
  if d.plausOk n e ea.1 oa.1 then
    if retry then
      let d := (d.set1 (ACH_STATUS n e) ACH_STATUS_PLAUS_RETRY).set1 (ACH_STATUS n o) ACH_STATUS_PLAUS_RETRY
      let d := (d.incSat (ACH_CNT n e) ACH_CNT_TRANSIENT).diagT 4 (8 * n + e / 2)
      (d.achLand n e ea.1 ea.2 ts 4 false).achLand n o oa.1 oa.2 ts 4 false
    else (d.achLand n e ea.1 ea.2 ts 0 false).achLand n o oa.1 oa.2 ts 0 false
  else if retry then
    let d := (d.set1 (ACH_STATUS n e) ACH_STATUS_PLAUS_FAIL).set1 (ACH_STATUS n o) ACH_STATUS_PLAUS_FAIL
    let d := ((d.incSat (ACH_CNT n e) ACH_CNT_LASTING).diagL 4 (8 * n + e / 2)).achRaise n e 4
    (d.achLand n e ea.1 ea.2 ts 8 true).achLand n o oa.1 oa.2 ts 8 true
  else
    d.each [e.val, o.val] fun d c =>
      let h := d.chan n c
      match h.acq with
      | some st =>
        let st' := st + d.acqTicks n c + 35
        d.setChan n c { h with acq := some st', busyEnd := st' + d.acqTicks n c + 35, first := none, retry := true }
      | none => d

/-- The sampling instant of the acquisition in progress (R175). -/
def Dev.instant (d : Dev) (n c : Nat) : Option Nat := (d.chan n c).acq.map fun s => s + d.acqTicks n c

/-- A conversion yields RAW for channel `c` (R178, R188, R189). -/
def Dev.achResult (d : Dev) (n : Isl) (c : Fin 16) (raw : Nat) : Dev :=
  match d.instant n c with
  | none => d
  | some ts =>
    if d.achMode n c ≠ achAdc ∨ d.beam < ts then d
    else
      let (code, clip) := d.achCode n c raw
      let e := evenOf c
      if !(d.b (ACH_PLAUS n e) ACH_PLAUS_EN) then d.achLand n c code clip ts 0 false
      else
        let o := if c.val % 2 = 0 then c + 1 else c - 1
        let ho := d.chan n o
        match ho.first with
        | some (code', clip', ts') =>
          if ts' = ts then
            let retry := (d.chan n c).retry
            if c.val % 2 = 0 then d.plausDecide n c o (code, clip) (code', clip') ts retry
            else d.plausDecide n o c (code', clip') (code, clip) ts retry
          else (d.achSkip n o code' clip' ts').achSkip n c code clip ts
        | none =>
          if d.achMode n o = achAdc ∧ d.instant n o = some ts then
            d.setChan n c { d.chan n c with first := some (code, clip, ts) }
          else d.achSkip n c code clip ts

/-! ### Comparator (R193-R195) -/

/-- The comparator output of channel `c` changes; an assertion is recorded two or three ticks later (R194, R195). -/
def Dev.cmpSet (d : Dev) (n : Isl) (c : Fin 16) (on : Bool) : Dev :=
  let h := d.chan n c
  if h.cmp = on then d
  else if on then
    let d := d.setChan n c { h with cmp := true, cmpPend := true }
    let d := (d.at_ (d.beam + 2 + d.freeVal % 2) (.comparatorRecorded n c)).freeNext
    d.lineOn n (c + 4)
  else
    let d := (d.setChan n c { h with cmp := false }).clr (ACH_STATUS n c) ACH_STATUS_CMP
    d.lineOff n (c + 4)

/-! ### Modes (R171-R173) -/

/-- A committed change of the mode of channel `c` on this tick; the present mode named again has no effect. -/
def Dev.achSetMode (d : Dev) (n : Isl) (c : Fin 16) (m : Nat) : Dev :=
  let old := d.achMode n c
  if old = m then d
  else
    let d := d.cmpSet n c false
    let h := d.chan n c
    let o := if c.val % 2 = 0 then c + 1 else c - 1
    let ho := d.chan n o
    let d := d.setChan n c
      { h with acq := none, busyEnd := d.beam, first := none, retry := false, cmpPend := false,
               settle := if m = achOff then none else some d.beam, compHold := m == achComp, driven := true }
    let d := d.wf (ACH_MODE n c) ACH_MODE_MODE m
    let d := match ho.first with
      | some (code, clip, ts) => if d.b (ACH_PLAUS n (evenOf c)) ACH_PLAUS_EN then d.achSkip n o code clip ts else d
      | none => d
    if old = achAdc then d.setDrop n c else d

/-- What the pin of channel `c` is driven to in DAC mode (R170, R192): a code, or `none` for high impedance and every
other mode. -/
def Dev.dacPin (d : Dev) (n c : Nat) : Option Nat :=
  if d.achMode n c ≠ achDac then none
  else
    let code := d.f (ACH_DAC n c) ACH_DAC_CODE
    if d.inRun n && !d.lost && (d.chan n c).driven then some code
    else match d.f (ACH_CFG n c) ACH_CFG_DAC_SAFE with
      | 0 => some code
      | 1 => some 0
      | _ => none

/-! ### The channel boundary (R180, R192) -/

/-- The shadow lies in channel `c`. -/
def inChan (n c : Nat) (s : Shadow) : Bool := decide (ACH_CFG n c ≤ s.addr ∧ s.addr < ACH_CFG n c + 0x40)

/-- The channel boundary on this tick: shadows recorded before it apply; the DAC drives its code again. -/
def Dev.chanBoundary (d : Dev) (n c : Nat) : Dev :=
  let d := d.applyShadow fun s => inChan n c s && decide (s.tick < d.beam)
  d.setChan n c { d.chan n c with driven := true }

/-! ### Calibration (R196-R198) -/

/-- The cycle of channel `c` fails. -/
def Dev.calFail (d : Dev) (n c : Nat) : Dev :=
  ((d.setChan n c { d.chan n c with cal := none }).set1 (ACH_STATUS n c) ACH_STATUS_CAL_FAIL).achRaise n c 5

/-- A period end of CAL_TMR: one window of every cycle in progress; a cycle has at most 1,024 (R197). -/
def Dev.calWindow (d : Dev) (n : Nat) : Dev :=
  d.each (List.range 16) fun d c =>
    match (d.chan n c).cal with
    | some k => if k.windows ≥ 1024 then d.calFail n c
                else d.setChan n c { d.chan n c with cal := some { k with windows := k.windows + 1 } }
    | none => d

/-- The end of a cycle: GAIN and OFS, applied at the next channel boundary if R198 allows. -/
def Dev.calEnd (d : Dev) (n c : Nat) (k : CalH) : Dev :=
  let lo := (k.sumLo + 8) / 16
  let hi := (k.sumHi + 8) / 16
  if hi ≤ lo then d.calFail n c
  else
    let gain := roundAway (57344 * 32768) ((hi : Int) - lo)
    let ofs := (lo : Int) - roundAway (4096 * 32768) gain
    let gain0 : Int := d.f (ACH_CAL n c) ACH_CAL_GAIN
    let ofs0 := sext 16 (d.f (ACH_CAL n c) ACH_CAL_OFS)
    if gain ≤ 65535 ∧ (gain - gain0).natAbs ≤ 164 ∧ (ofs - ofs0).natAbs ≤ 64 then
      (d.setChan n c { d.chan n c with cal := none }).pushShadow (ACH_CAL n c) 0xFFFFFFFF
        (gain.toNat * 65536 + (ofs % 65536).toNat) d.beam
    else d.calFail n c

/-- One step of channel `c` converted RAW (R196); a trigger's acquisition in progress takes precedence and the step is
repeated in the next window (R197). -/
def Dev.calStep (d : Dev) (n c raw : Nat) : Dev :=
  let h := d.chan n c
  match h.cal with
  | none => d
  | some k =>
    if (d.achMode n c ≠ achOff ∧ d.achMode n c ≠ achAdc) ∨ d.beam < h.busyEnd then d
    else
      let k := if k.step < 16 then { k with step := k.step + 1, sumLo := k.sumLo + raw }
        else { k with step := k.step + 1, sumHi := k.sumHi + raw }
      if k.step ≥ 32 then d.calEnd n c k else d.setChan n c { h with cal := some k }

/-! ### Meanings -/

/-- ACH_MODE_DIRECT_WRITE (R171): a write of ACH_MODE outside a clasp is ignored and reported. -/
def execAchModeDirectWrite (q : Req) (n : Isl) (c : Fin 16) (v : Word) (s : State) :
    Host.Outcome State Fault Refusal :=
  s.done fun d => d.wr q (ACH_MODE n c) fun d =>
    let _ := v
    (d.set1 (ACH_BLK_STATUS n) ACH_BLK_STATUS_MODE_DIRECT).raise (islSrc n + 0x163)

/-- SETTLING_END (R172): 1,000 ticks after a mode change; in COMP the output takes the state that the pin calls for. -/
def execSettlingEnd (n : Isl) (c : Fin 16) (beyond : Bool) (s : State) : Host.Outcome State Fault Refusal :=
  s.done fun d =>
    let h := d.chan n c
    match h.settle with
    | some t =>
      if d.beam < t + 1000 then d
      else
        let d := d.setChan n c { h with compHold := false }
        if d.achMode n c = achComp ∧ h.compHold ∧ beyond then d.cmpSet n c true else d
    | none => d

/-- GROUP_TRIGGER (R174): a delivered GTg event starts acquisition on this tick. -/
def execGroupTrigger (n : Isl) (g : Fin 8) (s : State) : Host.Outcome State Fault Refusal :=
  s.done fun d =>
    if d.ticking then
      let (d, late) := d.takeInput (inKey n (0x48 + g))
      d.groupStart n g late
    else d

/-- SOFTWARE_TRIGGER (R174): a write of ACH_SWTRIG starts its groups on the tick after it is recorded. -/
def execSoftwareTrigger (q : Req) (n : Isl) (mask : BitVec 8) (s : State) : Host.Outcome State Fault Refusal :=
  s.done fun d => d.wr q (ACH_SWTRIG n) fun d => d.softTrigger n mask.toNat

/-- CONVERSION_RESULT (R178): a conversion yields RAW, and its result is recorded on this tick. -/
def execConversionResult (n : Isl) (c : Fin 16) (raw : Fin 65536) (s : State) : Host.Outcome State Fault Refusal :=
  s.done fun d => d.achResult n c raw

/-- PLAUS_RETRY (R189): both retried conversions of pair `m` yield their raw codes. -/
def execPlausRetry (n : Isl) (m : Fin 8) (rawEven rawOdd : Fin 65536) (s : State) :
    Host.Outcome State Fault Refusal :=
  s.done fun d =>
    let e : Fin 16 := Fin.ofNat 16 (2 * m.val)
    let o : Fin 16 := Fin.ofNat 16 (2 * m.val + 1)
    match d.instant n e with
    | some ts =>
      if (d.chan n e).retry && (d.chan n o).retry && decide (ts ≤ d.beam) then
        d.plausDecide n e o (d.achCode n e rawEven) (d.achCode n o rawOdd) ts true
      else d
    | none => d

/-- BANK_ENTRY_READ (R183): a read of word +0x0 of an entry of the live bank or of the frame view; the other words go into
the reader's bank latch, which records the entry. -/
def execBankEntryRead (q : Req) (n : Isl) (e : Fin 28) (frameView : Bool) (s : State) :
    Host.Outcome State Fault Refusal :=
  s.done fun d =>
    let a := fun w => if frameView then ACH_FRAMEVIEW n (4 * e + w) else ACH_BANK n (4 * e + w)
    d.rd q (a 0) fun d =>
      let d' := (d.setLat (latBank n 0) q (e + 1 + 64 * b2n frameView)).setLat (latBank n 1) q (d.r (a 1)).toNat
      ((d'.setLat (latBank n 2) q (d.r (a 2)).toNat).setLat (latBank n 3) q (d.r (a 3)).toNat, d.r (a 0))

/-- CAL_CYCLE_START (R196): a calibration cycle begins on every channel in OFF or ADC. -/
def execCalCycleStart (n : Isl) (s : State) : Host.Outcome State Fault Refusal :=
  s.done fun d =>
    if d.b (ACH_CAL_CTL n) ACH_CAL_CTL_EN then
      d.each (List.range 16) fun d c =>
        if d.achMode n c = achOff ∨ d.achMode n c = achAdc then d.setChan n c { d.chan n c with cal := some {} } else d
    else d

/-- CAL_STEP (R196): one calibration step of a channel has converted RAW. -/
def execCalStep (n : Isl) (c : Fin 16) (raw : Fin 65536) (s : State) : Host.Outcome State Fault Refusal :=
  s.done fun d => d.calStep n c raw

/-- COMPARATOR_CROSSING (R193, R194): the comparator output changes; it is held deasserted while settling (R172). -/
def execComparatorCrossing (n : Isl) (c : Fin 16) (asserted : Bool) (s : State) :
    Host.Outcome State Fault Refusal :=
  s.done fun d =>
    if d.achMode n c = achComp ∧ !(d.chan n c).compHold then d.cmpSet n c asserted else d

/-- COMPARATOR_RECORDED (R195): an assertion is recorded on this tick. -/
def execComparatorRecorded (n : Isl) (c : Fin 16) (s : State) : Host.Outcome State Fault Refusal :=
  s.done fun d =>
    let h := d.chan n c
    if h.cmpPend && d.ticking then
      let d := d.setChan n c { h with cmpPend := false }
      let d := (d.wf (ACH_STATUS n c) ACH_STATUS_CMP (b2n h.cmp)).set1 (ACH_STATUS n c) ACH_STATUS_CMP_EVT
      (d.fire n (0x141 + 2 * c)).achRaise n c 1
    else d

end Sys2Proof.Machine
end

