-- ==== Sys2Proof/Machine/SigmaDelta.lean ====
section
/-! DEFINITION. Sigma-delta inputs and their modulator clocks (spec/05_analog_channels.md R200-R205). -/

namespace Sys2Proof.Machine
open Sys2Proof

/-- Source `k` of input `j` (R209). -/
def Dev.sdmRaise (d : Dev) (n j k : Nat) : Dev :=
  d.raiseIf (d.bit (SDM_IRQ_EN n j) k) (islSrc n + 0x180 + 4 * j + k)

def Dev.sdmOn (d : Dev) (n j : Nat) : Bool := d.b (SDM_CFG n j) SDM_CFG_EN

/-- OSR, SHIFT, DIV and W within their limits (R200, R202, R204, SDM_CFG.SHIFT). -/
def Dev.osr (d : Dev) (n j : Nat) : Nat := min 256 (max 16 (d.f (SDM_CFG n j) SDM_CFG_OSR))
def Dev.sdShift (d : Dev) (n j : Nat) : Nat := min 24 (d.f (SDM_CFG n j) SDM_CFG_SHIFT)
def Dev.sdDiv (d : Dev) (n k : Nat) : Nat := min 100 (max 10 (d.f (SDM_CLK n k) SDM_CLK_DIV))
def Dev.sincW (d : Dev) (n j : Nat) : Nat := min 32 (max 4 (d.f (SDM_OC n j) SDM_OC_W))

/-- The sinc1 sum of the last W bits: +1 and -1 (R201, R204). -/
def sinc1 (w : Nat) (l : List Bool) : Int := (l.take w).foldl (fun s b => if b then s + 1 else s - 1) 0

/-- Three results of input `j` are not valid: an enable, a RESYNC or the clearing of STUCK (R203). -/
def Dev.sdmSettle (d : Dev) (n j : Nat) : Dev := d.setSdm n j { d.sdm n j with settle := 3 }

/-- The input is enabled: its filter starts anew (R203). -/
def Dev.sdmEnable (d : Dev) (n j : Nat) : Dev := d.setSdm n j { settle := 3 }

/-- Over-current confirmed (R204). -/
def Dev.ocConfirm (d : Dev) (n j : Nat) : Dev :=
  ((d.set1 (SDM_STATUS n j) SDM_STATUS_OC_EVT).fire n (0x169 + 2 * j)).sdmRaise n j 1

/-- The input is stuck (R205). -/
def Dev.stuckSet (d : Dev) (n j : Nat) : Dev :=
  ((d.set1 (SDM_STATUS n j) SDM_STATUS_STUCK).set1 (SDM_STATUS n j) SDM_STATUS_STUCK_EVT).sdmRaise n j 2

/-- STUCK clears on a change of bit; three results are then not valid (R203, R205). -/
def Dev.stuckClear (d : Dev) (n j : Nat) : Dev :=
  if d.b (SDM_STATUS n j) SDM_STATUS_STUCK then (d.clr (SDM_STATUS n j) SDM_STATUS_STUCK).sdmSettle n j else d

/-- The captured bit closes a window: the last of OSR bits, or the bit of the clock's SYNC edge (R202, R203). -/
def Dev.closesWindow (d : Dev) (n j : Nat) : Bool :=
  decide (d.osr n j ≤ (d.sdm n j).bits + 1) ||
  (d.b (SDM_CFG n j) SDM_CFG_SYNC_EN &&
    (d.sdclk n (d.f (SDM_CFG n j) SDM_CFG_CLK)).sync ==
      (if d.f (SDM_CFG n j) SDM_CFG_SKEW ≤ d.beam then some (d.beam - d.f (SDM_CFG n j) SDM_CFG_SKEW) else none))

/-- One captured bit of input `j` (R201-R205): the third-order sinc filter, the sinc1 sum and the run of equal bits. -/
def Dev.sdmCapture (d : Dev) (n : Isl) (j : Fin 8) (bit : Bool) : Dev :=
  if !(d.sdmOn n j) then d
  else
    let h := d.sdm n j
    let x : Int := if bit then 1 else -1
    let i1 := h.i1 + x
    let i2 := h.i2 + i1
    let i3 := h.i3 + i2
    let change := match h.recent with
      | b :: _ => b != bit
      | [] => false
    let run := if change then 1 else h.run + 1
    let recent := (bit :: h.recent).take 32
    let closes := d.closesWindow n j
    let y1 := i3 - h.c1
    let y2 := y1 - h.c2
    let f := y2 - h.c3
    let h := { h with i1 := i1, i2 := i2, i3 := i3, recent := recent, run := min run 256, bits := h.bits + 1 }
    let h := if closes then { h with c1 := i3, c2 := y1, c3 := y2, bits := 0, closed := some (f, d.beam) } else h
    let sum := sinc1 (d.sincW n j) recent
    let en := d.b (SDM_OC n j) SDM_OC_OC_EN
    let beyond := en && (decide (sext 8 (d.f (SDM_OC n j) SDM_OC_OC_HI) ≤ sum) ||
      decide (sum ≤ sext 8 (d.f (SDM_OC n j) SDM_OC_OC_LO)))
    let need := d.f (SDM_OC n j) SDM_OC_CONFIRM + 1
    let conf := if beyond then h.conf + 1 else 0
    let d := d.setSdm n j { h with conf := conf }
    let d := d.wf (SDM_STATUS n j) SDM_STATUS_SINC1 (sum % 256).toNat
    let d := d.wf (SDM_STATUS n j) SDM_STATUS_OC (b2n beyond)
    let d := if conf = need then d.ocConfirm n j else d
    let d := if change then d.stuckClear n j else d
    let d := if run = 256 then d.stuckSet n j else d
    if closes then (d.at_ (d.beam + d.freeVal % 13) (.sinc3Result n j)).freeNext else d

/-- The result of a closed window lands in the bank (R202, R203, R205). -/
def Dev.sinc3Land (d : Dev) (n : Isl) (j : Fin 8) : Dev :=
  let h := d.sdm n j
  match h.closed with
  | none => d
  | some (f, ts) =>
    let sh := d.sdShift n j
    let v := if sh = 0 then f else (f + (2 : Int) ^ (sh - 1)) / (2 : Int) ^ sh
    let code := satInt 16 v
    let ovf := decide (code ≠ v)
    let settling := decide (0 < h.settle)
    let stuck := d.b (SDM_STATUS n j) SDM_STATUS_STUCK
    let fl := b2n (!settling && !stuck) + 2 * b2n settling + 64 * b2n ovf + 128 * b2n stuck
    let d := d.bankPut n (16 + j) v (code % 65536).toNat fl ts
    let d := d.setSdm n j { h with closed := none, settle := h.settle - 1 }
    let d := d.setIf ovf (SDM_STATUS n j) SDM_STATUS_OVF
    let d := (d.fire n (0x168 + 2 * j)).sdmRaise n j 0
    d.memberCount n (16 + j) ts

/-- A SYNC period end is a rising edge of clock `k`; when it shortens a cycle, the enabled inputs on the clock set RESYNC
(R200, R203). -/
def Dev.sdClkSync (d : Dev) (n k : Nat) : Dev :=
  if !(d.b (SDM_CLK n k) SDM_CLK_EN && d.b (SDM_CLK n k) SDM_CLK_SYNC_EN) then d
  else
    let h := d.sdclk n k
    let short := decide (d.beam < h.next)
    let d := d.setSdclk n k { next := d.beam + d.sdDiv n k, sync := some d.beam }
    if short then
      d.each (List.range 8) fun d j =>
        if d.sdmOn n j && d.f (SDM_CFG n j) SDM_CFG_CLK == k then
          ((d.set1 (SDM_STATUS n j) SDM_STATUS_RESYNC).sdmSettle n j).sdmRaise n j 3
        else d
    else d

/-- The next rising edge of a running clock is DIV ticks after the last (R200). -/
def Dev.sdClkTick (d : Dev) (n k : Nat) : Dev :=
  if d.b (SDM_CLK n k) SDM_CLK_EN && decide ((d.sdclk n k).next ≤ d.beam) then
    d.setSdclk n k { d.sdclk n k with next := d.beam + d.sdDiv n k }
  else d

/-! ### Meanings -/

/-- SIGMA_DELTA_CAPTURE (R201): the input captures one bit on this tick; none comes after R92. -/
def execSigmaDeltaCapture (n : Isl) (j : Fin 8) (bit : Bool) (s : State) : Host.Outcome State Fault Refusal :=
  s.done fun d => if d.ticking then d.sdmCapture n j bit else d

/-- SINC3_RESULT (R202): the result of a closed window is recorded on this tick. -/
def execSinc3Result (n : Isl) (j : Fin 8) (s : State) : Host.Outcome State Fault Refusal :=
  s.done fun d => d.sinc3Land n j

/-- OVER_CURRENT_CONFIRMED (R204): the sinc1 sum has been beyond a limit at CONFIRM + 1 consecutive captures. -/
def execOverCurrentConfirmed (n : Isl) (j : Fin 8) (s : State) : Host.Outcome State Fault Refusal :=
  s.done fun d => if d.sdmOn n j && d.b (SDM_OC n j) SDM_OC_OC_EN then d.ocConfirm n j else d

/-- STUCK_DETECTED (R205): the input has captured 256 equal bits in a row. -/
def execStuckDetected (n : Isl) (j : Fin 8) (s : State) : Host.Outcome State Fault Refusal :=
  s.done fun d => if d.sdmOn n j then d.stuckSet n j else d

/-- STUCK_CLEAR (R205): the bit changes. -/
def execStuckClear (n : Isl) (j : Fin 8) (s : State) : Host.Outcome State Fault Refusal :=
  s.done fun d => d.stuckClear n j

end Sys2Proof.Machine
end

