-- ==== Sys2Proof/Machine/Feedback.lean ====
section
/-! DEFINITION. Position and speed feedback (spec/08_feedback.md R284-R302). -/

namespace Sys2Proof.Machine
open Sys2Proof

/-- Source `j` of interface `k` (R305). -/
def Dev.fbkRaise (d : Dev) (n k j : Nat) : Dev :=
  d.raiseIf (d.bit (FBK_IRQ_EN n k) j) (islSrc n + 0x1C0 + 16 * k + j)

/-- Event `m` of interface `k`: 0 INDEX, 1 DIR, 2 SNAP_DONE. -/
def Dev.fbkFire (d : Dev) (n k m : Nat) : Dev := d.fire n (0x178 + 4 * k + m)

def Dev.fbkOn (d : Dev) (n k : Nat) : Bool := d.b (FBK_CFG n k) FBK_CFG_EN

/-- Counting: 0 QUAD4, 1 PULSE_DIR, 2 UPDOWN, 3 HALL, 4 BEAD; 5-7 act as QUAD4 (R287). -/
def Dev.fbkSrc (d : Dev) (n k : Nat) : Nat :=
  let v := d.f (FBK_CFG n k) FBK_CFG_SRC
  if v ≤ 4 then v else 0

/-- Counts per revolution: 0 acts as 2^32, 1 acts as 2 (R289). -/
def Dev.cpr (d : Dev) (n k : Nat) : Nat :=
  match (d.r (FBK_COUNTS_PER_REV n k)).toNat with
  | 0 => 4294967296
  | 1 => 2
  | c => c

def Dev.pos (d : Dev) (n k : Nat) : Nat := (d.r (FBK_POS n k)).toNat

def Dev.addTurns (d : Dev) (n k : Nat) (x : Int) : Dev :=
  d.w (FBK_TURNS n k) (wordOfInt ((d.r (FBK_TURNS n k)).toNat + x))

/-- One count up or down with the turn it carries into (R289). -/
def Dev.countStep (d : Dev) (n k : Nat) (up : Bool) : Dev :=
  let c := d.cpr n k
  let p := d.pos n k
  if up then
    if p + 1 ≥ c then (d.w (FBK_POS n k) 0).addTurns n k 1 else d.w (FBK_POS n k) (wordOf (p + 1))
  else
    if p = 0 then (d.w (FBK_POS n k) (wordOf (c - 1))).addTurns n k (-1) else d.w (FBK_POS n k) (wordOf (p - 1))

/-- K of the speed window (R293). -/
def Dev.winK (d : Dev) (n k : Nat) : Nat := d.f (FBK_SPD n k) FBK_SPD_AVG + 1

/-- A selected edge enters the speed window; a change of sign empties it first, toggles DIR and fires DIR (R293, R294);
ZERO clears (R295). -/
def Dev.enterEdge (d : Dev) (n k time : Nat) (delta : Int) (neg : Bool) : Dev :=
  let h := d.fbk n k
  let turned := h.neg == some !neg
  let win := ((time, delta) :: (if turned then [] else h.win)).take (d.winK n k + 1)
  let d := d.setFbk n k { h with win := win, neg := some neg, newest := some time }
  let d := (d.wf (FBK_STATUS n k) FBK_STATUS_DIR (b2n neg)).clr (FBK_STATUS n k) FBK_STATUS_ZERO
  if turned then d.fbkFire n k 1 else d

/-- An illegal change (R288): nothing counts, the window empties, the error is reported and counted. -/
def Dev.illegalChange (d : Dev) (n k : Nat) (f : Fld) : Dev :=
  let d := d.setFbk n k { d.fbk n k with win := [], bad := true }
  ((d.set1 (FBK_STATUS n k) f).incSat (FBK_CNT n k) FBK_CNT_ERR).fbkRaise n k 2

/-- Place of (A, B) in the sequence 00, 10, 11, 01 (R287). -/
def quadPlace (lv : Nat) : Nat :=
  match nbit lv 0, nbit lv 1 with
  | false, false => 0
  | true, false => 1
  | true, true => 2
  | false, true => 3

/-- Place of a Hall code in the cyclic sequence 1, 3, 2, 6, 4, 5; `none` for 0 and 7 (R287, R288). -/
def hallPlace (code : Nat) : Option Nat :=
  match code with
  | 1 => some 0
  | 3 => some 1
  | 2 => some 2
  | 6 => some 3
  | 4 => some 4
  | 5 => some 5
  | _ => none

/-- An accepted edge that counts: `up` before DIR_INV; `sel` tells whether SEL selects it (R287, R293). -/
def Dev.countEdge (d : Dev) (n k time : Nat) (up sel : Bool) : Dev :=
  let up := up != d.b (FBK_CFG n k) FBK_CFG_DIR_INV
  let d := d.countStep n k up
  if sel then d.enterEdge n k time (if up then 1 else -1) !up else d

/-- The difference of two positions modulo `c`, the shorter way round. -/
def posGap (a b c : Nat) : Nat :=
  let x := (a + c - b % c) % c
  min x (c - x)

/-- The position set by an index (R291, R292). -/
def Dev.indexReset (d : Dev) (n k : Nat) : Dev :=
  let ip := (d.r (FBK_IDX_POS n k)).toNat
  let off := d.b (FBK_STATUS n k) FBK_STATUS_REF &&
    decide (d.f (FBK_IDX_CTL n k) FBK_IDX_CTL_IDX_TOL < posGap (d.pos n k) ip (d.cpr n k))
  let d := if off then
      let d := d.setFbk n k { d.fbk n k with idxBad := true }
      ((d.set1 (FBK_STATUS n k) FBK_STATUS_IDX_ERR).incSat (FBK_CNT n k) FBK_CNT_IDX_ERR).fbkRaise n k 3
    else d
  (d.w (FBK_POS n k) (wordOf ip)).set1 (FBK_STATUS n k) FBK_STATUS_REF

/-- An index on this tick (R291); the interface in BEAD mode acts as NONE (R297). -/
def Dev.indexEvent (d : Dev) (n k : Nat) : Dev :=
  let d := ((d.set1 (FBK_STATUS n k) FBK_STATUS_IDX_EVT).fbkFire n k 0).fbkRaise n k 1
  match d.f (FBK_IDX_CTL n k) FBK_IDX_CTL_MODE with
  | 1 => d.indexReset n k
  | 2 => d.w (FBK_IDX_LATCH n k) (d.r (FBK_POS n k))
  | 3 =>
    if d.b (FBK_IDX_CTL n k) FBK_IDX_CTL_ARM then (d.indexReset n k).clr (FBK_IDX_CTL n k) FBK_IDX_CTL_ARM
    else d.w (FBK_IDX_LATCH n k) (d.r (FBK_POS n k))
  | _ => d

/-- The accepted levels of the six inputs (bits A, B, Z, H1, H2, H3) become `lv` on this tick; the inputs of `known` have an
accepted level from now on. Edges count first, then an index acts (R286-R292, R299). -/
def Dev.acceptLevels (d : Dev) (n k lv known : Nat) : Dev :=
  if !(d.fbkOn n k) || d.fbkSrc n k == 4 then d
  else
    let h := d.fbk n k
    let old := h.acc
    let edge := fun i => nbit h.known i && (nbit old i != nbit lv i)
    let rise := fun i => edge i && nbit lv i
    let time := fun i => tabGet 0 h.chg i
    let all := !(d.b (FBK_SPD n k) FBK_SPD_SEL)
    let d := d.setFbk n k { h with acc := lv, known := h.known ||| known }
    let d := d.wf (FBK_STATUS n k) FBK_STATUS_HALL (nfield lv 3 3)
    let d :=
      match d.fbkSrc n k with
      | 1 => if rise 0 then d.countEdge n k (time 0) (!(nbit lv 1)) true else d
      | 2 =>
        let d := if rise 0 then d.countEdge n k (time 0) true true else d
        if rise 1 then d.countEdge n k (time 1) false true else d
      | 3 =>
        if edge 3 || edge 4 || edge 5 then
          let t := max (if edge 3 then time 3 else 0) (max (if edge 4 then time 4 else 0) (if edge 5 then time 5 else 0))
          match hallPlace (nfield old 3 3), hallPlace (nfield lv 3 3) with
          | some a, some b =>
            let fwd := (b + 6 - a) % 6
            if fwd = 1 ∨ fwd = 5 then d.countEdge n k t ((fwd == 1) != d.b (FBK_CFG n k) FBK_CFG_HALL_REV) true
            else d.illegalChange n k FBK_STATUS_HALL_ERR
          | none, some _ => d.illegalChange n k FBK_STATUS_HALL_ERR
          | _, none => d.illegalChange n k FBK_STATUS_HALL_ERR
        else d
      | _ =>
        if edge 0 && edge 1 then d.illegalChange n k FBK_STATUS_QERR
        else if edge 0 || edge 1 then
          let up := (quadPlace lv + 4 - quadPlace old) % 4 == 1
          d.countEdge n k (if edge 0 then time 0 else time 1) up (all || rise 0)
        else d
    let qual := d.f (FBK_IDX_CTL n k) FBK_IDX_CTL_QUAL
    if rise 2 && (!(d.b (FBK_IDX_CTL n k) FBK_IDX_CTL_QUAL_EN) || (nbit lv 0 == nbit qual 0 && nbit lv 1 == nbit qual 1))
    then d.indexEvent n k else d

/-- One filter sample of interface `k`: inputs whose recorded level has now shown at N consecutive samples are accepted
(R285). -/
def Dev.fbkSample (d : Dev) (n k : Nat) : Dev :=
  if !(d.fbkOn n k) || d.fbkSrc n k == 4 then d
  else
    let need := max 1 (d.f (FBK_FLT n k) FBK_FLT_N)
    let h := d.fbk n k
    let smp := (List.range 6).foldl (fun t i => tabSet 0 t i (min need (tabGet 0 t i + 1))) h.smp
    let d := d.setFbk n k { h with smp := smp }
    let ready := (List.range 6).filter fun i => tabGet 0 smp i == need
    let lv := ready.foldl (fun v i => nbitSet v i (nbit h.rec_ i)) h.acc
    let known := ready.foldl (fun v i => v + 2 ^ i) 0
    if lv = h.acc ∧ (h.known ||| known) = h.known then d else d.acceptLevels n k lv known

/-- The filter samples on every tick (R285). -/
def Dev.fbkEveryTick (d : Dev) (n k : Nat) : Bool := decide (16 ≤ d.f (FBK_FLT n k) FBK_FLT_SRC)

/-- SETTLING: an input in use has no accepted level yet, or no serial word has come (R302). -/
def Dev.fbkSettling (d : Dev) (n k : Nat) : Bool :=
  let used := match d.fbkSrc n k with
    | 3 => 0x38
    | 4 => 0x40
    | _ => 0x03
  let used := if d.fbkSrc n k ≠ 4 ∧ d.f (FBK_IDX_CTL n k) FBK_IDX_CTL_MODE ≠ 0 then used + 4 else used
  d.fbkOn n k && decide ((d.fbk n k).known &&& used ≠ used)

/-- The interface is enabled: REF clears, nothing is accepted, no edge is known (R292, R295, R302). -/
def Dev.fbkEnable (d : Dev) (n k : Nat) : Dev :=
  let h := d.fbk n k
  (d.clr (FBK_STATUS n k) FBK_STATUS_REF).setFbk n k { rec_ := h.rec_, chg := h.chg }

/-- ZERO on the tick on which the first row of R295 first applies: the window empties and the source is raised. -/
def Dev.fbkZero (d : Dev) (n k : Nat) : Dev :=
  let d := d.setFbk n k { d.fbk n k with win := [] }
  if d.b (FBK_STATUS n k) FBK_STATUS_ZERO then d
  else (d.set1 (FBK_STATUS n k) FBK_STATUS_ZERO).fbkRaise n k 4

/-- The first row of R295 applies at tick `t`. -/
def Dev.zeroSpeed (d : Dev) (n k t : Nat) : Bool :=
  let zto := d.f (FBK_SPD n k) FBK_SPD_ZTO
  match (d.fbk n k).newest with
  | none => true
  | some e => decide (zto ≠ 0) && decide (e + zto * 65536 ≤ t)

/-- The speed value at a snap on tick `t`: VALUE, j, DECAY, CLIP (R295, R296). -/
def Dev.speedAt (d : Dev) (n k t : Nat) : Int × Nat × Bool × Bool :=
  let h := d.fbk n k
  let j := h.win.length - 1
  let m : Int := (d.r (FBK_SPD_SCALE n k)).toNat * (2 : Int) ^ d.f (FBK_SPD n k) FBK_SPD_SH
  let s : Int := if d.b (FBK_STATUS n k) FBK_STATUS_DIR then -1 else 1
  let e : Int := (t : Int) - h.newest.getD t
  let span : Int := match h.win.head?, h.win.getLast? with
    | some (a, _), some (b, _) => (a : Int) - b
    | _, _ => 0
  let clip := fun (v : Int) => (if v > 2147483647 then 2147483647 else if v < -2147483647 then -2147483647 else v)
  if j = 0 then (0, 0, false, false)
  else
    let (v, decay) :=
      if e * j > span then (s * (m / e), true)
      else if d.fbkSrc n k = 4 then
        let delta := (h.win.take j).foldl (fun a x => a + x.2) 0
        ((if delta < 0 then -1 else 1) * ((delta.natAbs : Int) * m / span), false)
      else (s * ((j : Int) * m / span), false)
    (clip v, j, decay, decide (clip v ≠ v))

/-- A snap on this tick (R298): one less than 12 ticks after the previous one is dropped; a second one on its tick is the
same snap. The entries are recorded within their bounds (R300). -/
def Dev.fbkSnap (d : Dev) (n : Isl) (k : Fin 2) : Dev :=
  let h := d.fbk n k
  let t := d.beam
  if !(d.fbkOn n k) || h.snap == some t then d
  else if (match h.snap with
      | some p => decide (t < p + 12)
      | none => false) then
    ((d.set1 (FBK_STATUS n k) FBK_STATUS_OVERRUN).incSat (FBK_CNT n k) FBK_CNT_OVERRUN).fbkRaise n k 6
  else
    let zero := d.zeroSpeed n k t
    let d := if zero then d.fbkZero n k else d
    let (v, j, decay, clip) := if zero then (0, 0, false, false) else d.speedAt n k t
    let settling := d.fbkSettling n k
    let base := b2n (!settling && !h.bad) + 2 * b2n settling + 8 * b2n h.bad +
      64 * d.f (FBK_STATUS n k) FBK_STATUS_DIR
    let pf := base + 4 * b2n h.idxBad + 128 * d.f (FBK_STATUS n k) FBK_STATUS_REF
    let sf := base + 16 * b2n clip + 32 * b2n decay + 128 * b2n zero
    let ent : List Int := [d.pos n k, (d.r (FBK_TURNS n k)).toNat % 65536, pf, v, j, sf]
    let d := d.setFbk n k { d.fbk n k with snap := some t, ent := ent, bad := false, idxBad := false }
    (d.at_ (t + d.freeVal % 5) (.snapEntriesRecorded n k)).freeNext

/-- The entries of the last snap are recorded with its tick (R300, R301). -/
def Dev.fbkRecord (d : Dev) (n : Isl) (k : Fin 2) : Dev :=
  let h := d.fbk n k
  match h.ent, h.snap with
  | [pv, pc, pf, sv, sc, sf], some t =>
    let d := (d.setFbk n k { h with ent := [] }).bankPut n (24 + 2 * k) pv pc.toNat pf.toNat t
    let d := d.bankPut n (25 + 2 * k) sv sc.toNat sf.toNat t
    let d := (d.fbkFire n k 2).fbkRaise n k 0
    d.memberCount n (24 + k) t
  | _, _ => d

/-- A word of the Bead engine in BEAD mode, with its capture tick (R296, R297). -/
def Dev.serialWord (d : Dev) (n k : Nat) (w : Word) (time : Nat) : Dev :=
  if !(d.fbkOn n k) || d.fbkSrc n k != 4 then d
  else if nbit w.toNat 31 then
    let d := d.setFbk n k { d.fbk n k with bad := true }
    ((d.set1 (FBK_STATUS n k) FBK_STATUS_SER_ERR).incSat (FBK_CNT n k) FBK_CNT_ERR).fbkRaise n k 5
  else
    let bits := d.f (FBK_SER n k) FBK_SER_BITS
    let bits := if bits = 0 ∨ 31 < bits then 31 else bits
    let c := d.cpr n k
    let old := d.pos n k
    let new := w.toNat % 2 ^ bits % c
    let turn : Int := if 2 * new + c < 2 * old then 1 else if 2 * old + c < 2 * new then -1 else 0
    let delta : Int := (new : Int) - old + turn * c
    let d := (d.w (FBK_POS n k) (wordOf new)).addTurns n k turn
    let h := d.fbk n k
    let d := d.setFbk n k { h with known := h.known ||| 64 }
    d.enterEdge n k time delta (if delta = 0 then h.neg.getD false else decide (delta < 0))

/-- A change of a recorded input level (R284). -/
def Dev.pinChange (d : Dev) (n k pin : Nat) (level : Bool) : Dev :=
  let h := d.fbk n k
  if nbit h.rec_ pin = level then d
  else d.setFbk n k { h with rec_ := nbitSet h.rec_ pin level, chg := tabSet 0 h.chg pin d.beam, smp := tabSet 0 h.smp pin 0 }

/-! ### Meanings -/

/-- ACCEPTED_EDGE (R286): the filter accepts new levels of the inputs on this tick. -/
def execAcceptedEdge (n : Isl) (k : Fin 2) (levels : BitVec 6) (s : State) : Host.Outcome State Fault Refusal :=
  s.done fun d => d.acceptLevels n k levels.toNat 63

/-- SNAP (R298): a delivered SNAP event snaps on this tick; a late action sets LATE. -/
def execSnap (n : Isl) (k : Fin 2) (s : State) : Host.Outcome State Fault Refusal :=
  s.done fun d =>
    let (d, late) := d.takeInput (inKey n (0x50 + k))
    let d := if late then (d.set1 (FBK_STATUS n k) FBK_STATUS_LATE).fbkRaise n k 7 else d
    d.fbkSnap n k

/-- SNAP_ENTRIES_RECORDED (R300): the entries of the last snap are recorded on this tick. -/
def execSnapEntriesRecorded (n : Isl) (k : Fin 2) (s : State) : Host.Outcome State Fault Refusal :=
  s.done fun d => d.fbkRecord n k

/-- FBK_POS_READ (R290): the position; the turn counter goes into the reader's turn latch. -/
def execFbkPosRead (q : Req) (n : Isl) (k : Fin 2) (s : State) : Host.Outcome State Fault Refusal :=
  s.done fun d => d.rd q (FBK_POS n k) fun d =>
    (d.setLat (latTurn n k) q (d.r (FBK_TURNS n k)).toNat, d.r (FBK_POS n k))

/-- SERIAL_WORD (R296): a Bead engine delivers a word with its capture tick. -/
def execSerialWord (n : Isl) (k : Fin 2) (w : Word) (tick : Nat) (s : State) : Host.Outcome State Fault Refusal :=
  s.done fun d => d.serialWord n k w tick

/-- IDX_ARM (R292): a write of ARM = 1 arms RESET_ONCE and clears REF. -/
def execIdxArm (q : Req) (n : Isl) (k : Fin 2) (s : State) : Host.Outcome State Fault Refusal :=
  s.done fun d => d.wr q (FBK_IDX_CTL n k) fun d =>
    (d.set1 (FBK_IDX_CTL n k) FBK_IDX_CTL_ARM).clr (FBK_STATUS n k) FBK_STATUS_REF

/-- FEEDBACK_INPUT_CHANGE (R284): a change of level of an input pin is recorded on this tick. -/
def execFeedbackInputChange (n : Isl) (k : Fin 2) (pin : Fin 6) (level : Bool) (s : State) :
    Host.Outcome State Fault Refusal :=
  s.done fun d => d.pinChange n k pin level

/-- ZERO_SPEED_TIMEOUT (R295): ZTO · 65,536 ticks have passed since the newest selected edge. -/
def execZeroSpeedTimeout (n : Isl) (k : Fin 2) (s : State) : Host.Outcome State Fault Refusal :=
  s.done fun d =>
    if d.fbkOn n k && decide (d.f (FBK_SPD n k) FBK_SPD_ZTO ≠ 0) && d.zeroSpeed n k d.beam then d.fbkZero n k else d

end Sys2Proof.Machine
end

