-- ==== Sys2Proof/Machine/Rods.lean ====
section
/-! DEFINITION. Abacus rods: operands, numbers and every microinstruction (spec/06_abacus_rods.md R218-R246). -/

namespace Sys2Proof.Machine
open Sys2Proof

/-! ### Numbers (R225-R227, R230) -/

/-- rs(x, s): a right shift that rounds to nearest, halves towards plus infinity (R225). -/
def rs (x : Int) (s : Nat) : Int := if s = 0 then x else (x + (2 : Int) ^ (s - 1)) / (2 : Int) ^ s

/-- The range of an accumulator (R227). -/
def sat72 (x : Int) : Int := satInt 72 x

/-- sin and cos of `x / 2^60` radians for `0 ≤ x ≤ π/2 · 2^60`, in units of 2^-60, by their Taylor series: the terms from
degree `k` on, `t` the term of degree `k - 2` in size. -/
def taylor60 : Nat → Nat → Nat → Int → Int
  | 0, _, _, _ => 0
  | m + 1, k, x, t =>
    let t' := -(t * (x * x : Nat) / (2 : Int) ^ 120) / ((k : Int) * ((k : Int) - 1))
    t' + taylor60 m (k + 2) x t'

/-- π / 2 in units of 2^-60. -/
def halfPi60 : Nat := 1811004864519280711

/-- cos and sin of a quarter-turn fraction `f / 2^30`, in units of 2^-60. -/
def cosSin60 (f : Nat) : Int × Int :=
  let x := f * halfPi60 / 2 ^ 30
  ((2 : Int) ^ 60 + taylor60 14 2 x ((2 : Int) ^ 60), (x : Int) + taylor60 14 3 x (x : Int))

/-- round(2^30 · sin θ) and round(2^30 · cos θ) with θ = 2π · a / 2^32. -/
def sinCosRef (a : Nat) : Int × Int :=
  let (c, s) := cosSin60 (a % 2 ^ 30)
  let c := (c + (2 : Int) ^ 29) / (2 : Int) ^ 30
  let s := (s + (2 : Int) ^ 29) / (2 : Int) ^ 30
  match a / 2 ^ 30 % 4 with
  | 0 => (s, c)
  | 1 => (c, -s)
  | 2 => (-s, -c)
  | _ => (-c, s)

/-- The largest quarter-turn fraction `f`, found bit by bit, with `y · cos f ≥ x · sin f` for `x, y ≥ 0`. -/
def atanBits : Nat → Nat → Nat → Nat → Nat
  | 0, _, _, f => f
  | k + 1, y, x, f =>
    let f' := f + 2 ^ k
    let (c, s) := cosSin60 f'
    atanBits k y x (if (y : Int) * c ≥ (x : Int) * s then f' else f)

/-- The angle of (x, y) as an unsigned fraction of 2^32 per turn. -/
def atan2Ref (y x : Int) : Nat :=
  let q := if y = 0 then 0 else if x = 0 then 2 ^ 30 else atanBits 30 y.natAbs x.natAbs 0
  (if x ≥ 0 then (if y ≥ 0 then q else 2 ^ 32 - q)
   else (if y ≥ 0 then 2 ^ 31 - q else 2 ^ 31 + q)) % 2 ^ 32

/-! ### Operands (R221-R224) -/

/-- What a read of an operand address gives: a value, a wait for an exchange word, or a program error. -/
inductive RVal where
  | val (w : Word)
  | wait
  | bad
  deriving DecidableEq, Repr

/-- A read of operand address `a` by rod `r` of island `n`. -/
def Dev.rodRead (d : Dev) (n r a : Nat) : RVal :=
  if a < 0x20 then .val (tabGet 0 (d.rod r).w a)
  else if a < 0x40 then
    .val (match tabGet none (d.rod r).s (a - 0x20) with
      | some v => v
      | none => d.r (ABX_ROD_S r (a - 0x20)))
  else if a < 0x80 then
    match tabGet none (d.frame n).x (a - 0x40) with
    | some v => .val v
    | none => .wait
  else if a < 0x9C then .val (d.r (frameView n (a - 0x80) 0))
  else if 0xA0 ≤ a ∧ a < 0xBC then .val (d.r (frameView n (a - 0xA0) 1))
  else if a = 0xF0 then .val 0
  else .bad

/-- A write of `v` to operand address `a`: `none` is a program error. -/
def Dev.rodWrite (d : Dev) (n r a : Nat) (v : Word) : Option Dev :=
  if a < 0x20 then some (d.setRod r { d.rod r with w := tabSet 0 (d.rod r).w a v })
  else if a < 0x40 then some (d.setRod r { d.rod r with s := tabSet none (d.rod r).s (a - 0x20) (some v) })
  else if a < 0x80 then
    match tabGet none (d.frame n).x (a - 0x40) with
    | some _ => none
    | none => some (d.setFrame n { d.frame n with x := tabSet none (d.frame n).x (a - 0x40) (some v) })
  else if a = 0xF0 then some d
  else none

/-! ### Running a microinstruction -/

/-- What a microinstruction sees. -/
structure RodEnv where
  a   : Int
  b   : Int
  acc : Int
  p   : Bool
  c   : Int
  c1  : Int
  sh  : Nat
  imm : Nat
  pc  : Nat
  dst : Nat

/-- What a microinstruction does beside going on. -/
structure RodFx where
  dst  : Option Int := none
  dst2 : Option Int := none
  acc  : Option Int := none
  p    : Option Bool := none
  sat  : Bool := false
  jump : Option Nat := none
  fin  : Bool := false
  out  : Option Nat := none
  pub  : Option Nat := none

/-- A result for DST that saturates to 32 bits (R225, R227). -/
def fxSat (x : Int) : RodFx := { dst := some (satInt 32 x), sat := decide (satInt 32 x ≠ x) }

/-- A new accumulator value that saturates to 72 bits (R227). -/
def fxAcc (x : Int) : RodFx := { acc := some (sat72 x), sat := decide (sat72 x ≠ x) }

/-- Rod `r` stops at its microinstruction with a status bit and a cause in its source's payload: 1 RETIRED, 2 PROG_ERR, 3 UE
(R235, R236, R249). -/
def Dev.rodError (d : Dev) (n r : Nat) (f : Fld) (cause : Nat) : Dev :=
  let pc := (d.rod r).pc
  let d := (d.rodHalt r).set1 (ABX_ROD_STATUS r) f
  (d.wf (ABX_ROD_STATUS r) ABX_ROD_STATUS_ERR_ADDR pc).raise (abxSrc n (0x40 + r)) (cause * 16384 + pc)

/-- A program error (R236). -/
def Dev.rodProgErr (d : Dev) (n r : Nat) : Dev := d.rodError n r ABX_ROD_STATUS_PROG_ERR 2

/-- The repeat mismatches too: the rod retires; the lowest SPARE rod of the island takes its place, or the island enters
SAFE (R245, R246). -/
def Dev.rodRetire (d : Dev) (n r : Nat) : Dev :=
  let d := d.rodError n r ABX_ROD_STATUS_LASTING 1
  let d := ((d.diagL 2 r).set1 (ABX_ROD_STATUS r) ABX_ROD_STATUS_RETIRED).wf (ABX_ROD_CFG r) ABX_ROD_CFG_ROLE 0
  match d.rodsOf n 2 with
  | s :: _ =>
    let d := d.wf (ABX_ROD_CFG s) ABX_ROD_CFG_ROLE 1
    let d := d.wf (ABX_ROD_CFG s) ABX_ROD_CFG_ENTRY (d.f (ABX_ROD_CFG r) ABX_ROD_CFG_ENTRY)
    let d := d.each (List.range 32) fun d k =>
      let d := d.w (ABX_ROD_S s k) (d.r (ABX_ROD_S r k))
      { d with presets := tabSet (0, 0) d.presets (s * 32 + k) (d.preset r k) }
    (d.w (ABX_ROD_PEND s) (d.r (ABX_ROD_PEND r))).w (ABX_ROD_PEND r) 0
  | [] =>
    let d := (d.set1 (ABX_FRM_STATUS n) ABX_FRM_STATUS_NO_SPARE).raise (abxSrc n 5)
    d.islandsSafe (2 ^ n) PWR_SAFE_CAUSE_NO_SPARE

/-- The first repeat agrees: the rod goes on with TRANSIENT (R244). -/
def Dev.rodTransient (d : Dev) (n r : Nat) : Dev :=
  let d := ((d.diagT 2 r).set1 (ABX_ROD_STATUS r) ABX_ROD_STATUS_TRANSIENT).incSat (ABX_ROD_CNT r) ABX_ROD_CNT_TRANSIENT
  d.raiseIf (d.b (ABX_IRQ_EN n) ABX_IRQ_EN_ROD_TRANSIENT) (abxSrc n (0x40 + r)) (d.rod r).pc

/-- A saturation in this frame: SAT, and one frame counted (R227, ABX_ROD_CNT.SAT_FRAMES). -/
def Dev.rodSat (d : Dev) (r : Nat) : Dev :=
  let d := d.set1 (ABX_ROD_STATUS r) ABX_ROD_STATUS_SAT
  if (d.rod r).sat then d
  else (d.incSat (ABX_ROD_CNT r) ABX_ROD_CNT_SAT_FRAMES).setRod r { d.rod r with sat := true }

/-- Microinstruction address `pc` lies inside the law window of island `n` (R232, R234). -/
def Dev.inWindow (d : Dev) (n pc : Nat) : Bool :=
  decide (d.f (ABX_LAWWIN n) ABX_LAWWIN_BASE * 64 ≤ pc) && decide (pc < (d.f (ABX_LAWWIN n) ABX_LAWWIN_LAST + 1) * 64)

/-- What the microinstruction at this address wrote in the present frame (spec/07_abacus_laws.md R274). -/
def Dev.noteOp (d : Dev) (n r pc : Nat) (v : Int) : Dev :=
  d.setFrame n { d.frame n with ops := tabSet none (d.frame n).ops (r * 16384 + pc) (some (wordOfInt v)) }

/-- The writes of a microinstruction: DST, the second destination of SINCOS, the output slot, the link word. `none` is a
program error. -/
def Dev.rodStores (d : Dev) (n r : Nat) (x : RodX) (fx : RodFx) : Option Dev := do
  let pc := (d.rod r).pc
  let d ← match fx.dst with
    | some v => (d.rodWrite n r x.dst.toNat (wordOfInt v)).map fun d => d.noteOp n r pc v
    | none => some d
  let d ← match fx.dst2 with
    | some v => d.rodWrite n r x.b.toNat (wordOfInt v)
    | none => some d
  let d ← match fx.out with
    | some k =>
      if (d.slotTarget n k).isNone || (tabGet none (d.frame n).out k).isSome then none
      else match d.rodRead n r x.a.toNat with
        | .val v =>
          some ((d.setFrame n { d.frame n with out := tabSet none (d.frame n).out k (some v) }).noteOp n r pc (sval v))
        | _ => none
    | none => some d
  match fx.pub with
    | some j =>
      if (tabGet none (d.frame n).link j).isSome then none
      else match d.rodRead n r x.a.toNat with
        | .val v =>
          some ((d.setFrame n { d.frame n with link := tabSet none (d.frame n).link j (some v) }).noteOp n r pc (sval v))
        | _ => none
    | none => some d

/-- The registers of the rod after a microinstruction without error. -/
def Dev.rodAfter (d : Dev) (r : Nat) (x : RodX) (fx : RodFx) : Dev :=
  let d := if fx.sat then d.rodSat r else d
  let h := d.rod r
  let h := match fx.acc with
    | some v => if x.acc then { h with a1 := v } else { h with a0 := v }
    | none => h
  let h := { h with p := fx.p.getD h.p, pc := fx.jump.getD (h.pc + 1) }
  let d := d.setRod r h
  if fx.fin then (d.setRod r { h with done := true, run := false }).clr (ABX_ROD_STATUS r) ABX_ROD_STATUS_ACTIVE else d

/-- Both operands as read; an operand that is not used reads as 0. -/
def Dev.rodOps (d : Dev) (n r : Nat) (x : RodX) (useA useB : Bool) : RVal × RVal :=
  (if useA then d.rodRead n r x.a.toNat else .val 0, if useB then d.rodRead n r x.b.toNat else .val 0)

/-- One microinstruction of rod `r` (R218, R222-R224, R232-R236, R243-R245): a rod that does not run does nothing; a read
of an exchange word not yet written waits, and the microinstruction has no effect yet. `f` gives the effect, `none` is
a program error; `checked` marks the operations with a residue check. -/
def Dev.rodRun (d : Dev) (r : Rod) (x : RodX) (useA useB checked : Bool) (f : Dev → Nat → RodEnv → Option RodFx) : Dev :=
  let h := d.rod r
  let n := d.rodIsl r
  if !h.run || decide (6 ≤ n) then d
  else if x.ue then d.rodError n r ABX_ROD_STATUS_UE 3
  else if !(d.inWindow n h.pc) then d.rodProgErr n r
  else
    match d.rodOps n r x useA useB with
    | (.bad, _) => d.rodProgErr n r
    | (_, .bad) => d.rodProgErr n r
    | (.wait, _) => d
    | (_, .wait) => d
    | (.val a, .val b) =>
      let env : RodEnv := {
        a := sval a, b := sval b, acc := if x.acc then h.a1 else h.a0, p := h.p,
        c := sval (d.r (ABX_COEF n x.cidx.toNat)), c1 := sval (d.r (ABX_COEF n (x.cidx.toNat + 1))),
        sh := d.f (ABX_COEF_SH n x.cidx.toNat) ABX_COEF_SH_SH, imm := x.imm.toNat, pc := h.pc, dst := x.dst.toNat }
      match f d n env with
      | none => d.rodProgErr n r
      | some fx =>
        if checked && x.res == 2 then d.rodRetire n r
        else
          let d := if checked && x.res == 1 then d.rodTransient n r else d
          match d.rodStores n r x fx with
          | none => d.rodProgErr n r
          | some d =>
            let d := d.rodAfter r x fx
            if fx.fin then (if hn : n < 6 then d.frameCheck ⟨n, hn⟩ else d) else d

/-! ### Meanings -/

/-- ROD_NOP (R230): nothing. -/
def execRodNop (r : Rod) (x : RodX) (s : State) : Host.Outcome State Fault Refusal :=
  s.done fun d => d.rodRun r x false false false fun _ _ e => let _ := e.pc; some {}

/-- ROD_MOV (R230): DST ← a. -/
def execRodMov (r : Rod) (x : RodX) (s : State) : Host.Outcome State Fault Refusal :=
  s.done fun d => d.rodRun r x true false false fun _ _ e => some { dst := some e.a }

/-- ROD_LDI (R230): DST ← IMM sign-extended. -/
def execRodLdi (r : Rod) (x : RodX) (s : State) : Host.Outcome State Fault Refusal :=
  s.done fun d => d.rodRun r x false false false fun _ _ e => some { dst := some (sext 16 e.imm) }

/-- ROD_LDIU (R230): DST[31:16] ← IMM, DST[15:0] unchanged. -/
def execRodLdiu (r : Rod) (x : RodX) (s : State) : Host.Outcome State Fault Refusal :=
  s.done fun d => d.rodRun r x false false false fun d n e => 
    match d.rodRead n r e.dst with
    | .val v => some { dst := some (sext 32 (e.imm * 65536 + v.toNat % 65536)) }
    | _ => none

/-- ROD_LDC (R230): DST ← C[k]. -/
def execRodLdc (r : Rod) (x : RodX) (s : State) : Host.Outcome State Fault Refusal :=
  s.done fun d => d.rodRun r x false false false fun _ _ e => some { dst := some e.c }

/-- ROD_LDL (R230): DST ← link word IMM[6:0] and P ← its VALID, as applied at the frame's start (R224, R241). -/
def execRodLdl (r : Rod) (x : RodX) (s : State) : Host.Outcome State Fault Refusal :=
  s.done fun d => d.rodRun r x false false false fun d n e => 
    let i := e.imm % 128
    if 96 ≤ i then none
    else
      let l := (d.frame n).links
      some { dst := some (sval (l.getD i 0)), p := some (nbit (l.getD (96 + i / 32) 0).toNat (i % 32)) }

/-- ROD_MUL (R230): A ← rs(a · C[k], sh[k]) (R226). -/
def execRodMul (r : Rod) (x : RodX) (s : State) : Host.Outcome State Fault Refusal :=
  s.done fun d => d.rodRun r x true false true fun _ _ e => some (fxAcc (rs (e.a * e.c) e.sh))

/-- ROD_MAC (R230): A ← A + rs(a · C[k], sh[k]) (R226). -/
def execRodMac (r : Rod) (x : RodX) (s : State) : Host.Outcome State Fault Refusal :=
  s.done fun d => d.rodRun r x true false true fun _ _ e => some (fxAcc (e.acc + rs (e.a * e.c) e.sh))

/-- ROD_MSU (R230): A ← A − rs(a · C[k], sh[k]) (R226). -/
def execRodMsu (r : Rod) (x : RodX) (s : State) : Host.Outcome State Fault Refusal :=
  s.done fun d => d.rodRun r x true false true fun _ _ e => some (fxAcc (e.acc - rs (e.a * e.c) e.sh))

/-- ROD_MULR (R230): A ← rs(a · b, IMM[4:0]) (R226). -/
def execRodMulr (r : Rod) (x : RodX) (s : State) : Host.Outcome State Fault Refusal :=
  s.done fun d => d.rodRun r x true true true fun _ _ e => some (fxAcc (rs (e.a * e.b) (e.imm % 32)))

/-- ROD_MACR (R230): A ← A + rs(a · b, IMM[4:0]) (R226). -/
def execRodMacr (r : Rod) (x : RodX) (s : State) : Host.Outcome State Fault Refusal :=
  s.done fun d => d.rodRun r x true true true fun _ _ e => some (fxAcc (e.acc + rs (e.a * e.b) (e.imm % 32)))

/-- ROD_MSUR (R230): A ← A − rs(a · b, IMM[4:0]) (R226). -/
def execRodMsur (r : Rod) (x : RodX) (s : State) : Host.Outcome State Fault Refusal :=
  s.done fun d => d.rodRun r x true true true fun _ _ e => some (fxAcc (e.acc - rs (e.a * e.b) (e.imm % 32)))

/-- ROD_ACCL (R230): A ← a · 2^IMM[4:0]. -/
def execRodAccl (r : Rod) (x : RodX) (s : State) : Host.Outcome State Fault Refusal :=
  s.done fun d => d.rodRun r x true false true fun _ _ e => some (fxAcc (e.a * (2 : Int) ^ (e.imm % 32)))

/-- ROD_ACCA (R230): A ← A + a · 2^IMM[4:0]. -/
def execRodAcca (r : Rod) (x : RodX) (s : State) : Host.Outcome State Fault Refusal :=
  s.done fun d => d.rodRun r x true false true fun _ _ e => some (fxAcc (e.acc + e.a * (2 : Int) ^ (e.imm % 32)))

/-- ROD_STA (R230): DST ← sat32(rs(A, IMM[4:0])) (R227). -/
def execRodSta (r : Rod) (x : RodX) (s : State) : Host.Outcome State Fault Refusal :=
  s.done fun d => d.rodRun r x false false false fun _ _ e => some (fxSat (rs e.acc (e.imm % 32)))

/-- ROD_ADD (R230): DST ← sat32(a + b). -/
def execRodAdd (r : Rod) (x : RodX) (s : State) : Host.Outcome State Fault Refusal :=
  s.done fun d => d.rodRun r x true true false fun _ _ e => some (fxSat (e.a + e.b))

/-- ROD_SUB (R230): DST ← sat32(a − b). -/
def execRodSub (r : Rod) (x : RodX) (s : State) : Host.Outcome State Fault Refusal :=
  s.done fun d => d.rodRun r x true true false fun _ _ e => some (fxSat (e.a - e.b))

/-- ROD_NEG (R230): DST ← sat32(−a). -/
def execRodNeg (r : Rod) (x : RodX) (s : State) : Host.Outcome State Fault Refusal :=
  s.done fun d => d.rodRun r x true false false fun _ _ e => some (fxSat (-e.a))

/-- ROD_ABS (R230): DST ← sat32(|a|). -/
def execRodAbs (r : Rod) (x : RodX) (s : State) : Host.Outcome State Fault Refusal :=
  s.done fun d => d.rodRun r x true false false fun _ _ e => some (fxSat e.a.natAbs)

/-- ROD_MIN (R230): DST ← min(a, b). -/
def execRodMin (r : Rod) (x : RodX) (s : State) : Host.Outcome State Fault Refusal :=
  s.done fun d => d.rodRun r x true true false fun _ _ e => some { dst := some (min e.a e.b) }

/-- ROD_MAX (R230): DST ← max(a, b). -/
def execRodMax (r : Rod) (x : RodX) (s : State) : Host.Outcome State Fault Refusal :=
  s.done fun d => d.rodRun r x true true false fun _ _ e => some { dst := some (max e.a e.b) }

/-- ROD_SHR (R230): DST ← rs(a, IMM[4:0]). -/
def execRodShr (r : Rod) (x : RodX) (s : State) : Host.Outcome State Fault Refusal :=
  s.done fun d => d.rodRun r x true false false fun _ _ e => some { dst := some (rs e.a (e.imm % 32)) }

/-- ROD_SHL (R230): DST ← sat32(a · 2^IMM[4:0]). -/
def execRodShl (r : Rod) (x : RodX) (s : State) : Host.Outcome State Fault Refusal :=
  s.done fun d => d.rodRun r x true false false fun _ _ e => some (fxSat (e.a * (2 : Int) ^ (e.imm % 32)))

/-- ROD_AND (R230): DST ← a AND b. -/
def execRodAnd (r : Rod) (x : RodX) (s : State) : Host.Outcome State Fault Refusal :=
  s.done fun d => d.rodRun r x true true false fun _ _ e => some { dst := some (sval (wordOfInt e.a &&& wordOfInt e.b)) }

/-- ROD_OR (R230): DST ← a OR b. -/
def execRodOr (r : Rod) (x : RodX) (s : State) : Host.Outcome State Fault Refusal :=
  s.done fun d => d.rodRun r x true true false fun _ _ e => some { dst := some (sval (wordOfInt e.a ||| wordOfInt e.b)) }

/-- ROD_XOR (R230): DST ← a XOR b. -/
def execRodXor (r : Rod) (x : RodX) (s : State) : Host.Outcome State Fault Refusal :=
  s.done fun d => d.rodRun r x true true false fun _ _ e => some { dst := some (sval (wordOfInt e.a ^^^ wordOfInt e.b)) }

/-- ROD_CLAMP (R230): DST ← min(max(a, C[k]), C[k + 1]); P ← 1 if the result differs from a; k = 1,023 is a program error. -/
def execRodClamp (r : Rod) (x : RodX) (s : State) : Host.Outcome State Fault Refusal :=
  s.done fun d => d.rodRun r x true false false fun _ _ e => 
    if x.cidx.toNat = 1023 then none
    else
      let v := min (max e.a e.c) e.c1
      some { dst := some v, p := some (decide (v ≠ e.a)) }

/-- ROD_SINCOS (R230): DST ← round(2^30 · sin θ), the address in SRCB ← round(2^30 · cos θ), each with an error of at most 2 that
the spec leaves open (log entry 10). -/
def execRodSincos (r : Rod) (x : RodX) (s : State) : Host.Outcome State Fault Refusal :=
  s.done fun d => d.rodRun r x true false false fun _ _ e => 
    let (sn, cs) := sinCosRef (e.a % 4294967296).toNat
    let w := wordOfInt e.a
    some { dst := some (sn + clampInt (-2) 2 (Config.sinCosErr false w)),
           dst2 := some (cs + clampInt (-2) 2 (Config.sinCosErr true w)) }

/-- ROD_ATAN2 (R230): DST ← the angle of (x = b, y = a), with an error of at most 4,096 that the spec leaves open (log entry 10); (0, 0)
gives 0 with SAT. -/
def execRodAtan2 (r : Rod) (x : RodX) (s : State) : Host.Outcome State Fault Refusal :=
  s.done fun d => d.rodRun r x true true false fun _ _ e => 
    if e.a = 0 ∧ e.b = 0 then some { dst := some 0, sat := true }
    else
      some { dst := some ((atan2Ref e.a e.b : Int) +
        clampInt (-4096) 4096 (Config.atan2Err (wordOfInt e.a) (wordOfInt e.b))) }

/-- ROD_DIV (R230): DST ← sat32(trunc(a · 2^IMM[4:0] / b)); b = 0 gives a limit with SAT. -/
def execRodDiv (r : Rod) (x : RodX) (s : State) : Host.Outcome State Fault Refusal :=
  s.done fun d => d.rodRun r x true true false fun _ _ e => 
    if e.b = 0 then some { dst := some (if e.a ≥ 0 then 2147483647 else -2147483648), sat := true }
    else some (fxSat ((e.a * (2 : Int) ^ (e.imm % 32)).tdiv e.b))

/-- ROD_SQRT (R230): DST ← floor(√a); a < 0 gives 0 with SAT. -/
def execRodSqrt (r : Rod) (x : RodX) (s : State) : Host.Outcome State Fault Refusal :=
  s.done fun d => d.rodRun r x true false false fun _ _ e => 
    if e.a < 0 then some { dst := some 0, sat := true } else some { dst := some (isqrt e.a.toNat) }

/-- ROD_CMP (R230): P ← a COND b, signed; an undefined COND is a program error (R231). -/
def execRodCmp (r : Rod) (x : RodX) (s : State) : Host.Outcome State Fault Refusal :=
  s.done fun d => d.rodRun r x true true false fun _ _ e => 
    match x.cond.toNat with
    | 0 => some { p := some (decide (e.a = e.b)) }
    | 1 => some { p := some (decide (e.a ≠ e.b)) }
    | 2 => some { p := some (decide (e.a < e.b)) }
    | 3 => some { p := some (decide (e.a ≤ e.b)) }
    | 4 => some { p := some (decide (e.b < e.a)) }
    | 5 => some { p := some (decide (e.b ≤ e.a)) }
    | _ => none

/-- ROD_TSTB (R230): P ← bit IMM[4:0] of a. -/
def execRodTstb (r : Rod) (x : RodX) (s : State) : Host.Outcome State Fault Refusal :=
  s.done fun d => d.rodRun r x true false false fun _ _ e => some { p := some (nbit (wordOfInt e.a).toNat (e.imm % 32)) }

/-- ROD_SEL (R230): DST ← a if P = 1, else b. -/
def execRodSel (r : Rod) (x : RodX) (s : State) : Host.Outcome State Fault Refusal :=
  s.done fun d => d.rodRun r x true true false fun _ _ e => some { dst := some (if e.p then e.a else e.b) }

/-- ROD_BR (R230): Branch to IMM[13:0] if COND holds; a target not after the branch and an undefined COND are program errors
(R231, R232). -/
def execRodBr (r : Rod) (x : RodX) (s : State) : Host.Outcome State Fault Refusal :=
  s.done fun d => d.rodRun r x false false false fun _ _ e => 
    let t := e.imm % 16384
    let go := fun (c : Bool) => if t ≤ e.pc then none else some { jump := if c then some t else none }
    match x.cond.toNat with
    | 0 => go true
    | 1 => go e.p
    | 2 => go !e.p
    | _ => none

/-- ROD_END (R230): The rod has finished this frame. -/
def execRodEnd (r : Rod) (x : RodX) (s : State) : Host.Outcome State Fault Refusal :=
  s.done fun d => d.rodRun r x false false false fun _ _ e => let _ := e.pc; some { fin := true }

/-- ROD_OUT (R230): Output slot IMM[5:0] ← a, staged (R237, R238). -/
def execRodOut (r : Rod) (x : RodX) (s : State) : Host.Outcome State Fault Refusal :=
  s.done fun d => d.rodRun r x true false false fun _ _ e => some { out := some (e.imm % 64) }

/-- ROD_PUB (R230): Own island's link word IMM[3:0] ← a, staged (R240, R241). -/
def execRodPub (r : Rod) (x : RodX) (s : State) : Host.Outcome State Fault Refusal :=
  s.done fun d => d.rodRun r x true false false fun _ _ e => some { pub := some (e.imm % 16) }

/-- ROD_UNLISTED_OPCODE (R231): an opcode not in the table is a program error. -/
def execRodUnlistedOpcode (r : Rod) (x : RodX) (s : State) : Host.Outcome State Fault Refusal :=
  s.done fun d => d.rodRun r x false false false fun _ _ _ => none

/-- FRAME_COMPLETION (R216): the completion of the frame is recorded on this tick; on the boundary tick or later it belongs to
a frame that the guard abandons, and sets nothing. -/
def execFrameCompletion (n : Isl) (s : State) : Host.Outcome State Fault Refusal :=
  s.done fun d =>
    let h := d.frame n
    if d.frameDone n && h.doneAt.isNone && !(d.wrapsNow n (d.f (ABX_FRM_CTL n) ABX_FRM_CTL_BND_TMR)) then
      let d := d.setFrame n { h with doneAt := some d.beam }
      let d := (d.set1 (ABX_FRM_STATUS n) ABX_FRM_STATUS_DONE).clr (ABX_FRM_STATUS n) ABX_FRM_STATUS_RUNNING
      (d.fire n 0x1A0).raiseIf (d.b (ABX_FRM_CTL n) ABX_FRM_CTL_DONE_IRQ) (abxSrc n 3)
    else d

end Sys2Proof.Machine
end

