-- ==== Sys2Proof/Machine/Boundary.lean ====
section
/-! DEFINITION. A period end with everything that hangs on it: the deadline guard (spec/02_timing_model.md R66-R74,
spec/06_abacus_rods.md R214-R217, R238-R242), pairs, channels, sample sets, modulator clocks, calibration, feedback,
blanking windows; and the whole effect of a start, a stop and a reset (spec/03_beam_and_tally.md R104-R117). -/

namespace Sys2Proof.Machine
open Sys2Proof

/-! ### The guard -/

/-- Pending shadows of the bits `m` of the register at `a` are discarded (R68). -/
def Dev.discardBits (d : Dev) (a m : Nat) : Dev :=
  { d with shadow := (d.shadow.map fun s =>
      if s.addr = a then { s with mask := s.mask &&& (4294967295 - m) } else s).filter fun s => decide (s.mask ≠ 0) }

/-- An accepted frame writes `v` to the target of slot `k` (R68, R237, R238). -/
def Dev.slotApply (d : Dev) (n k : Nat) (v : Word) : Dev :=
  match d.slotTarget n k with
  | none => d
  | some off =>
    match slotMask off with
    | none => d
    | some m =>
      let a := 0x40000000 + n * 0x1000000 + off
      let d := (d.discardBits a m).w a (maskWrite (d.r a) m v.toNat)
      let h := d.frame n
      d.setFrame n { h with slots := tabSet 0 h.slots k v }

/-- The frame staged an output into a register of the group of pair `p`: period (`false`) or duty (`true`). -/
def Dev.frameWrites (d : Dev) (n p : Nat) (duty : Bool) : Bool :=
  (List.range 64).any fun k =>
    (tabGet none (d.frame n).out k).isSome &&
      (match d.slotTarget n k with
        | some off =>
          decide (0x10000 + 0x40 * p ≤ off ∧ off < 0x10040 + 0x40 * p) &&
            (if duty then decide (8 ≤ off % 0x40 ∧ off % 0x40 ≤ 0x14) else decide (off % 0x40 ≤ 4))
        | none => false)

/-- A frame's value for a group counts as a write on tick B - 1: it discards the group's own hold and shadows, releases
the other group's hold, or counts toward SPLIT; it never opens a hold (R148). `other` is the tick of the other group's
last write. -/
def Dev.frameGroup (d : Dev) (n : Isl) (p : Fin 16) (duty : Bool) (other : Option Nat) : Dev :=
  let t := d.beam - 1
  let d := d.dropShadow (inGroup n p duty)
  let h := d.pair n p
  let d := d.setPair n p (if duty then { h with lastD := some t } else { h with lastP := some t })
  match h.held with
  | some (g, _) =>
    let d := (d.setPair n p { d.pair n p with held := none }).cancel (.holdExpired n p)
    if g = duty then d else d.retick n p g t
  | none =>
    if d.f (PWM_SPLIT n p) PWM_SPLIT_WIN = 0 || d.b (PWM_SPLIT n p) PWM_SPLIT_SPLIT_HOLD then d
    else d.splitCheck n p other t

/-- The groups of pair `p` that the accepted frame writes. -/
def Dev.frameGroups (d : Dev) (n : Isl) (p : Fin 16) : Dev :=
  let wp := d.frameWrites n p false
  let wd := d.frameWrites n p true
  let h := d.pair n p
  let d := if wp then d.frameGroup n p false h.lastD else d
  if wd then d.frameGroup n p true h.lastP else d

/-- The staged outputs, rod state and link words of an accepted frame apply (R68, R238, R240). -/
def Dev.frameApply (d : Dev) (n : Isl) : Dev :=
  let d := d.each (List.finRange 16) fun d p => d.frameGroups n p
  let h := d.frame n
  let d := d.each h.out fun d e =>
    match e.2 with
    | some v => d.slotApply n e.1 v
    | none => d
  let d := d.each (List.range 64) fun d r =>
    if d.rodIsl r = n then
      d.each (d.rod r).s fun d e =>
        match e.2 with
        | some v => d.w (ABX_ROD_S r e.1) v
        | none => d
    else d
  let d := d.linksInvalid n
  d.each h.link fun d e =>
    match e.2 with
    | some v =>
      let i := 16 * n.val + e.1
      (d.w (ABX_LINK i) v).setBit (ABX_LINK_VALID (i / 32)) (i % 32) true
    | none => d

/-- The guard accepts the frame on this tick (R67, R68, R73, R80). -/
def Dev.frameAccept (d : Dev) (n : Isl) (doneAt : Nat) : Dev :=
  let slack := d.beam - doneAt
  let d := d.frameApply n
  let d := (d.w (ABX_SLACK_LAST n) (wordOf slack)).w (ABX_SLACK_MIN n)
    (wordOf (min slack (d.r (ABX_SLACK_MIN n)).toNat))
  (d.clr (ABX_FRM_STATUS n) ABX_FRM_STATUS_CONSEC).set1 (ABX_FRM_STATUS n) ABX_FRM_STATUS_LAST_OK

/-- A deadline miss on this tick (R69, R73, R78): the staging layer is dropped with the frame; MISS_LIMIT 0 acts as 1. -/
def Dev.frameMiss (d : Dev) (n : Isl) : Dev :=
  let d := (d.linksInvalid n).diagT 10 n
  let d := (d.incSat (ABX_MISS n) ABX_MISS_MISS).set1 (ABX_FRM_STATUS n) ABX_FRM_STATUS_MISSED
  let d := (d.clr (ABX_FRM_STATUS n) ABX_FRM_STATUS_LAST_OK).incSat (ABX_FRM_STATUS n) ABX_FRM_STATUS_CONSEC
  let d := ((d.raise (abxSrc n 0)).fire n 0x1A1).govMiss
  if max 1 (d.f (ABX_FRM_CTL n) ABX_FRM_CTL_MISS_LIMIT) ≤ d.f (ABX_FRM_STATUS n) ABX_FRM_STATUS_CONSEC then
    ((d.set1 (ABX_FRM_STATUS n) ABX_FRM_STATUS_LIMIT_SAFE).raise (abxSrc n 1)).islandsSafe (2 ^ n.val)
      PWR_SAFE_CAUSE_MISS_LIMIT
  else d

/-- The shadow lies in the ABX block of island `n`. -/
def inAbx (n : Nat) (s : Shadow) : Bool :=
  decide (0x40070000 + n * 0x1000000 ≤ s.addr ∧ s.addr < 0x40080000 + n * 0x1000000)

/-- The island's ABX shadows recorded before this tick apply. -/
def Dev.abxShadows (d : Dev) (n : Nat) : Dev := d.applyShadow fun s => inAbx n s && decide (s.tick < d.beam)

/-- Pending presets of the island's rods apply (R242). -/
def Dev.presetsApply (d : Dev) (n : Nat) : Dev :=
  d.each (List.range 64) fun d r => if d.rodIsl r = n ∧ !(d.retired r) then d.presetApply r else d

/-- Boundary B of the island's frame (R67-R73, R215-R217, R228, R240, R242, R276). A frame of a period that opened while
the block did not run is dropped without a judgement. -/
def Dev.frameBoundary (d : Dev) (n : Isl) : Dev :=
  let h := d.frame n
  let accepted := match h.doneAt with
    | some t => h.judge && h.running && decide (t < d.beam)
    | none => false
  let missed := h.judge && !accepted
  let ran := d.abxRuns n
  let d := if accepted then d.frameAccept n (h.doneAt.getD 0)
    else if missed then d.frameMiss n
    else d.linksInvalid n
  let d := (d.abxShadows n).presetsApply n
  let d := if ran then d.traceBoundary n accepted missed else d
  let d := d.frameDrop n
  let d := d.each (List.range 64) fun d r =>
    if d.rodIsl r = n then d.setRod r { d.rod r with s := [], sat := false } else d
  d.setFrame n { d.frame n with judge := d.abxRuns n, ops := [] }

/-! ### Everything that hangs on a period end -/

/-- The blocks of island `n` that take the period end of timer `t` as a boundary, in the order guard, pairs, channels,
sample set, modulator clocks, calibration, feedback. -/
def Dev.blockBoundary (d : Dev) (n : Isl) (t : Fin 16) : Dev :=
  let d := if d.f (ABX_FRM_CTL n) ABX_FRM_CTL_BND_TMR = t then d.frameBoundary n else d
  let d := d.each (List.finRange 16) fun d p =>
    if d.slave n p && d.f (PWM_CTL n p) PWM_CTL_SYNC_TMR == t.val then d.slaveSchedule n p else d
  let d := d.each (List.finRange 16) fun d c =>
    if d.f (ACH_CFG n c) ACH_CFG_BND_TMR = t then d.chanBoundary n c else d
  let d := if d.f (ACH_SET_CTL n) ACH_SET_CTL_SET_TMR = t then d.setOpen n else d
  let d := d.each [0, 1] fun d k => if d.f (SDM_CLK n k) SDM_CLK_SYNC_TMR = t then d.sdClkSync n k else d
  let d := if d.f (ACH_CAL_CTL n) ACH_CAL_CTL_CAL_TMR = t then d.calWindow n else d
  d.each (List.finRange 2) fun d k =>
    let d := if !(d.fbkEveryTick n k) && d.f (FBK_FLT n k) FBK_FLT_SRC == t.val then d.fbkSample n k else d
    if d.b (FBK_SNAP n k) FBK_SNAP_TMR_EN && d.f (FBK_SNAP n k) FBK_SNAP_TMR == t.val then d.fbkSnap n k else d

/-- A period end of timer `t` with all that hangs on it (R104, R107, R156). -/
def Dev.periodEndOne (d : Dev) (n : Isl) (t : Fin 16) : Dev :=
  let was := d.timerRuns n t
  let d := d.timerPeriodEnd n t
  let d := if was && !(d.timerRuns n t) then d.blankClose n t else d
  d.blockBoundary n t

/-- One advance of the odd timer of a linked pair (R116). -/
def Dev.linkedAdvance (d : Dev) (n : Isl) (o : Fin 16) : Dev :=
  if (d.r (TLY_RELOAD n o)).toNat ≤ d.count n o then d.periodEndOne n o
  else (d.setCount n o (d.count n o + 1)).matches n o

/-- A period end; the odd timer of a linked pair advances on it (R116). -/
def Dev.periodEnd (d : Dev) (n : Isl) (t : Fin 16) : Dev :=
  let d := d.periodEndOne n t
  if t.val % 2 = 0 ∧ d.b (TLY_CTL n t) TLY_CTL_LINK then d.linkedAdvance n (t + 1) else d

/-- An advance that falls due on this tick (R103). -/
def Dev.timerAdvance (d : Dev) (n : Isl) (t : Fin 16) : Dev :=
  if d.timerRuns n t && !(d.linkedOdd n t) && decide ((d.timer n t).next ≤ d.beam) then
    if (d.r (TLY_RELOAD n t)).toNat ≤ d.count n t then d.periodEnd n t
    else ((d.setCount n t (d.count n t + 1)).rephase n t).matches n t
  else d

/-! ### Starts, stops and resets (R105, R106, R112, R113) -/

/-- The whole effect of a start; a reset earlier on the tick of a timer that was stopped now gives its period end. -/
def Dev.startTimer (d : Dev) (n : Isl) (t : Fin 16) : Dev :=
  let was := d.timerRuns n t
  let d := d.timerStart n t
  if !was && d.timerRuns n t then
    let d := d.blankOpen n t
    let d := if t.val % 2 = 0 ∧ d.b (TLY_CTL n t) TLY_CTL_LINK then d.blankOpen n (t.val + 1) else d
    let h := d.timer n t
    if h.resetAt = some d.beam ∧ h.endAt ≠ some d.beam then d.periodEnd n t else d
  else d

/-- The whole effect of a stop. -/
def Dev.stopTimer (d : Dev) (n : Isl) (t : Fin 16) : Dev :=
  let was := d.timerRuns n t
  let d := d.timerStop n t
  if was && !(d.timerRuns n t) then
    let d := d.blankClose n t
    if t.val % 2 = 0 ∧ d.b (TLY_CTL n t) TLY_CTL_LINK then d.blankClose n (t.val + 1) else d
  else d

/-- The whole effect of a reset: a period end of a running timer, unless it has one on this tick; of a stopped timer only
count 0. -/
def Dev.resetTimer (d : Dev) (n : Isl) (t : Fin 16) : Dev :=
  let d := d.setTimer n t { d.timer n t with resetAt := some d.beam }
  if d.timerRuns n t then
    if (d.timer n t).endAt = some d.beam then d else d.periodEnd n t
  else d.setCount n t 0

end Sys2Proof.Machine
end

