-- ==== Sys2Proof/Machine/TallyCmd.lean ====
section
/-! DEFINITION. The commands of the Tally timers and of TLY_GO (spec/03_beam_and_tally.md R103-R124). -/

namespace Sys2Proof.Machine
open Sys2Proof

/-! ### TLY_RELOAD with RELOAD_IMM (R119, R120) -/

/-- A write of `v` to TLY_RELOAD on this tick. An advance due on this tick compares with the value that the write replaces. -/
def Dev.reloadWrite (d : Dev) (n : Isl) (t : Fin 16) (v : Word) : Dev :=
  let a := TLY_RELOAD n t
  if d.b (TLY_CTL n t) TLY_CTL_RELOAD_IMM then
    let d := d.timerAdvance n t
    let d := (d.dropShadow fun s => decide (s.addr = a)).w a v
    if d.timerRuns n t && decide (v.toNat < d.count n t) then
      (d.setTimer n t { d.timer n t with next := d.beam + 1 + d.prescale n t }).at_ (d.beam + 1) (.shortEnd n t)
    else d
  else d.pushShadow a 4294967295 v.toNat d.beam

/-- The count returns to 0 on this tick because TLY_RELOAD fell below it (R120); a stop on the tick overrides it. -/
def Dev.shortEnd (d : Dev) (n : Isl) (t : Fin 16) : Dev :=
  if d.timerRuns n t && decide ((d.r (TLY_RELOAD n t)).toNat < d.count n t) then
    ((d.set1 (TLY_STATUS n t) TLY_STATUS_SHORT).tlyRaise n t 5).periodEnd n t
  else d

/-! ### Chain-class actions and event inputs (R112, R115) -/

/-- RESET 1, START 2, RESET_START 3 on a timer. -/
def Dev.chainAct (d : Dev) (n : Isl) (t : Fin 16) (act : Nat) : Dev :=
  match act with
  | 1 => d.resetTimer n t
  | 2 => d.startTimer n t
  | 3 => (d.startTimer n t).resetTimer n t
  | _ => d

/-- The other timer of the pair. -/
def otherTimer (t : Fin 16) : Fin 16 := if t.val % 2 = 0 then t + 1 else t - 1

/-- The chain-class action of compare CMk of timer `t`. -/
def Dev.chainAction (d : Dev) (n : Isl) (t : Fin 16) (k : Fin 2) : Dev :=
  let act := d.f (TLY_ACT n t) (if k.val = 0 then TLY_ACT_CM0_ACT else TLY_ACT_CM1_ACT)
  let other := d.b (TLY_ACT n t) (if k.val = 0 then TLY_ACT_CM0_TGT else TLY_ACT_CM1_TGT)
  d.chainAct n (if other then otherTimer t else t) act

/-- Inputs 0 START, 1 STOP, 2 RESET act on the timer; a late action sets LATE (R61, R115). -/
def Dev.timerInput (d : Dev) (n : Isl) (t : Fin 16) (m : Fin 3) : Dev :=
  let (d, late) := d.takeInput (inKey n (4 * t + m))
  let d := if late then (d.set1 (TLY_STATUS n t) TLY_STATUS_LATE).tlyRaise n t 6 else d
  match m.val with
  | 0 => d.startTimer n t
  | 1 => d.stopTimer n t
  | _ => d.resetTimer n t

/-! ### TLY_GO (R121-R124) -/

/-- The select words as one number of 96 bits. -/
def Dev.goSel (d : Dev) : Nat :=
  (d.r TLY_GO0).toNat + (d.r TLY_GO1).toNat * 2 ^ 32 + (d.r TLY_GO2).toNat * 2 ^ 64

/-- A write of TLY_GO_CMD with command `cmd` (1 START, 2 STOP, 3 RESET_START): refused while PENDING; otherwise the select
words are captured and the release is scheduled. -/
def Dev.goCommand (d : Dev) (q cmd : Nat) (atTick : Bool) : Dev :=
  if cmd = 0 then d
  else if d.b TLY_GO_STATUS TLY_GO_STATUS_PENDING then d.set1 TLY_GO_STATUS TLY_GO_STATUS_REFUSED
  else
    let want := (d.r TLY_GO_AT_LO).toNat + (d.r TLY_GO_AT_HI).toNat * 2 ^ 32
    let soon := d.beam + 8
    let late := atTick && decide (want < soon)
    let rel := if atTick && !late then want else soon
    let d := if late then (d.set1 TLY_GO_STATUS TLY_GO_STATUS_LATE).raise 0x0018 else d
    { d with go := some ⟨cmd, rel, d.goSel, q⟩ }.set1 TLY_GO_STATUS TLY_GO_STATUS_PENDING |>.at_ rel .tlyGoRelease

/-- One selected timer is released. -/
def Dev.goApply (d : Dev) (cmd : Nat) (n : Isl) (t : Fin 16) : Dev :=
  match cmd with
  | 1 => d.startTimer n t
  | 2 => d.stopTimer n t
  | _ => (d.startTimer n t).resetTimer n t

/-- The islands and timers that the captured select words name; absent timers and odd timers of linked pairs are not
selected (R123). -/
def Dev.goTimers (d : Dev) (sel : Nat) : List (Fin 6 × Fin 16) :=
  ((List.finRange 6).map fun n => (List.finRange 16).map fun t => (n, t)).flatten.filter fun x =>
    nbit sel (16 * x.1 + x.2) && d.hasIsl x.1 && !(d.linkedOdd x.1 x.2)

/-- The release tick: the command applies to every selected timer whose island the requester may write; others are
skipped (R121, R122). -/
def Dev.goRelease (d : Dev) : Dev :=
  match d.go with
  | some g =>
    if d.beam < g.tick then d
    else
      let ts := d.goTimers g.sel
      let skip := ts.any fun x => !(d.mayWrite g.req x.1)
      let d := { d with go := none }.clr TLY_GO_STATUS TLY_GO_STATUS_PENDING
      let d := d.each ts fun d x => if d.mayWrite g.req x.1 then d.goApply g.cmd x.1 x.2 else d
      if skip then (d.set1 TLY_GO_STATUS TLY_GO_STATUS_SKIPPED).raise 0x0018 else d
  | none => d

/-! ### Meanings -/

/-- TIMER_START (R105): a write of TLY_CTL.RUN = 1. -/
def execTimerStart (q : Req) (n : Isl) (t : Fin 16) (s : State) : Host.Outcome State Fault Refusal :=
  s.done fun d => d.wr q (TLY_CTL n t) fun d => d.startTimer n t

/-- TIMER_STOP (R106): a write of TLY_CTL.RUN = 0. -/
def execTimerStop (q : Req) (n : Isl) (t : Fin 16) (s : State) : Host.Outcome State Fault Refusal :=
  s.done fun d => d.wr q (TLY_CTL n t) fun d => d.stopTimer n t

/-- TIMER_PERIOD_END (R104): the count of a running timer becomes 0; none comes after R92 (R93). -/
def execTimerPeriodEnd (n : Isl) (t : Fin 16) (s : State) : Host.Outcome State Fault Refusal :=
  s.done fun d => if d.ticking && d.timerRuns n t then d.periodEnd n t else d

/-- TIMER_MATCH (R108): the count has become equal to compare value `k`; a value above TLY_RELOAD never matches. -/
def execTimerMatch (n : Isl) (t : Fin 16) (k : Fin 4) (s : State) : Host.Outcome State Fault Refusal :=
  s.done fun d =>
    if d.ticking && d.timerRuns n t && decide (d.compare n t k = d.count n t) &&
      decide (d.compare n t k ≤ (d.r (TLY_RELOAD n t)).toNat) then d.matchOne n t k else d

/-- CHAIN_CLASS_ACTION (R112): on the tick after a match of CMk. -/
def execChainClassAction (n : Isl) (t : Fin 16) (k : Fin 2) (s : State) : Host.Outcome State Fault Refusal :=
  s.done fun d => if d.ticking then d.chainAction n t k else d

/-- TIMER_EVENT_INPUT (R115): an input acts on this tick. -/
def execTimerEventInput (n : Isl) (t : Fin 16) (m : Fin 3) (s : State) : Host.Outcome State Fault Refusal :=
  s.done fun d => if d.ticking then d.timerInput n t m else d

/-- RELOAD_IMMEDIATE (R120): a write to TLY_RELOAD. -/
def execReloadImmediate (q : Req) (n : Isl) (t : Fin 16) (v : Word) (s : State) : Host.Outcome State Fault Refusal :=
  s.done fun d => d.wr q (TLY_RELOAD n t) fun d => d.reloadWrite n t v

/-- SHORT_END (R120): the tick after the write. -/
def execShortEnd (n : Isl) (t : Fin 16) (s : State) : Host.Outcome State Fault Refusal :=
  s.done fun d => if d.ticking then d.shortEnd n t else d

/-- LINKED_PAIR_READ (R117): the even timer's count; with LINK, the odd timer's count goes into the reader's pair latch. -/
def execLinkedPairRead (q : Req) (n : Isl) (j : Fin 8) (s : State) : Host.Outcome State Fault Refusal :=
  s.done fun d => d.rd q (TLY_COUNT n (2 * j)) fun d =>
    (if d.b (TLY_CTL n (2 * j)) TLY_CTL_LINK then d.setLat (latPair n j) q (d.countNow n (2 * j + 1)) else d,
     wordOf (d.countNow n (2 * j)))

/-- TLY_GO_START (R121): a write of TLY_GO_CMD with CMD START. -/
def execTlyGoStart (q : Req) (atTick : Bool) (s : State) : Host.Outcome State Fault Refusal :=
  s.done fun d => d.wr q TLY_GO_CMD fun d => d.goCommand q 1 atTick

/-- TLY_GO_STOP (R121): a write of TLY_GO_CMD with CMD STOP. -/
def execTlyGoStop (q : Req) (atTick : Bool) (s : State) : Host.Outcome State Fault Refusal :=
  s.done fun d => d.wr q TLY_GO_CMD fun d => d.goCommand q 2 atTick

/-- TLY_GO_RESET_START (R121): a write of TLY_GO_CMD with CMD RESET_START. -/
def execTlyGoResetStart (q : Req) (atTick : Bool) (s : State) : Host.Outcome State Fault Refusal :=
  s.done fun d => d.wr q TLY_GO_CMD fun d => d.goCommand q 3 atTick

/-- TLY_GO_RELEASE (R121): the release tick. -/
def execTlyGoRelease (s : State) : Host.Outcome State Fault Refusal :=
  s.done fun d => if d.ticking then d.goRelease else d

end Sys2Proof.Machine
end

