-- ==== Sys2Proof/Machine/Filigree.lean ====
section
/-! DEFINITION. The Filigree: channels, gates, delivery, logic cells, software fires (spec/10_filigree.md R333-R363). -/

namespace Sys2Proof.Machine
open Sys2Proof

/-! ### Gates (R336, R338) -/

/-- The gate signal `g` of channel `ch` now, and its key in the gate history. -/
def Dev.gateNow (d : Dev) (ch g : Nat) : Bool × Nat :=
  if 128 ≤ ch ∧ ch < 896 then
    let n := (ch - 128) / 128
    (d.b (FLG_CELL_CTL n g) FLG_CELL_CTL_O, n * 64 + g)
  else if g < 6 then (d.inRun g, 512 + g)
  else if g = 6 then (d.mode == mRun, 518)
  else if g < 32 then (false, 512 + g)
  else (d.bit FLG_GATE_SW (g - 32), 512 + g)

/-- The gate signal as the gate stage sees it for an event with origin `o`: it never sees changes later than o + 8, always
sees those up to o - 8, and of those between misses the newest `unseen` (R336). -/
def Dev.gateSeen (d : Dev) (ch g o unseen : Nat) : Bool :=
  let (v, key) := d.gateNow ch g
  let hist := tabGet [] d.gateHist key
  let never := (hist.filter fun t => decide (o + 8 < t)).length
  let open_ := (hist.filter fun t => decide (t ≤ o + 8 ∧ o < t + 8)).length
  v != ((never + min unseen open_) % 2 == 1)

/-- The register with GATE, GATE_EN and GATE_INV of a device channel. -/
def chanReg (ch : Nat) : Nat :=
  if ch < 128 then FLG_SCH ch
  else if ch < 896 then FLG_CH ((ch - 128) / 128) ((ch - 128) % 128)
  else FLG_WCH (ch - 896)

/-- The status register of a device channel. -/
def chanStat (ch : Nat) : Nat :=
  if ch < 128 then FLG_SCHS ch
  else if ch < 896 then FLG_CHS ((ch - 128) / 128) ((ch - 128) % 128)
  else FLG_WCHS (ch - 896)

/-- An event with origin `o` passes the gate stage of channel `ch`. -/
def Dev.gatePass (d : Dev) (ch o unseen : Nat) : Bool :=
  let r := chanReg ch
  !(d.b r FLG_CH_GATE_EN) || (d.gateSeen ch (d.f r FLG_CH_GATE) o unseen != d.b r FLG_CH_GATE_INV)

/-! ### Inputs (R341-R346) -/

/-- The pair of select registers A and B names channel `ch` in an enabled select. -/
def Dev.selects (d : Dev) (a b ch : Nat) : Bool :=
  (d.b a FLG_IN_A_EN0 && d.f a FLG_IN_A_CH0 == ch) || (d.b a FLG_IN_A_EN1 && d.f a FLG_IN_A_CH1 == ch) ||
  (d.b b FLG_IN_B_EN2 && d.f b FLG_IN_B_CH2 == ch) || (d.b b FLG_IN_B_EN3 && d.f b FLG_IN_B_CH3 == ch)

/-- The delay of island input `x`, and whether it has one that counts ticks from the origin; WIN of an engine that does not
wait synchronised acts when recorded (R115, R174, R298, R323, R328, R345). -/
def Dev.inputDelay (d : Dev) (n x : Nat) : Nat × Bool :=
  if x < 0x40 then (d.f (TLY_INDLY n (x / 4)) TLY_INDLY_DLY, false)
  else if x < 0x50 then (d.f (ACH_GTDLY n (x - 0x48)) ACH_GTDLY_DLY, false)
  else if x < 0x58 then (d.f (FBK_SNAP n (x - 0x50)) FBK_SNAP_DLY, false)
  else if x < 0x68 then
    let e := (x - 0x58) / 2
    if x % 2 = 1 ∧ !((d.bead n e).wwin && d.b (BEAD_CTL n e) BEAD_CTL_WSYNC) then (0, true)
    else (d.f (BEAD_EVDLY n e) BEAD_EVDLY_DLY, false)
  else (0, false)

/-- The action of island input `x`. -/
def islandAction (n : Isl) (x : Nat) : Option Instr :=
  if h : x < 0x40 then
    if hm : x % 4 < 3 then some (.timerEventInput n ⟨x / 4, by omega⟩ ⟨x % 4, hm⟩) else none
  else if h : 0x48 ≤ x ∧ x < 0x50 then some (.groupTrigger n ⟨x - 0x48, by omega⟩)
  else if h : 0x50 ≤ x ∧ x < 0x52 then some (.snap n ⟨x - 0x50, by omega⟩)
  else if h : 0x58 ≤ x ∧ x < 0x68 then
    if x % 2 = 0 then some (.beadStartEvent n ⟨(x - 0x58) / 2, by omega⟩)
    else some (.winEvent n ⟨(x - 0x58) / 2, by omega⟩)
  else if x = 0x68 then some (.traceTriggerInput n)
  else none

/-- The action of spine input `x`; that of WAKE carries what START finds (log entry 14). -/
def spineAction (x boot : Nat) : Option Instr :=
  if x = 0x3F then some (.wakeEvent (Config.wakeBoot boot))
  else if h : x < 9 then some (.claspCommitInput ⟨x, by omega⟩)
  else if h : 0x10 ≤ x ∧ x < 0x30 then
    some (.dmaEventTrigger ⟨(x - 0x10) / 16, by omega⟩ ⟨(x - 0x10) % 16, by omega⟩)
  else none

/-- An event with origin `o` reaches an input with key `k`, recorded on tick `rec`: it counts into PEND, and its action
falls on the tick of R61, at the earliest on the tick after the input's previous action (R343, R344). With PEND at 15 it
is discarded. `stat` is the input's status register, `src` the overrun source. -/
def Dev.inputTake (d : Dev) (k stat src : Nat) (irq : Bool) (o rec dly : Nat) (atOnce : Bool) (act : Option Instr) : Dev :=
  let ps := d.pendOf k
  if 15 ≤ ps.length then (d.set1 stat FLG_IN_STATUS_OVERRUN).raiseIf irq src
  else
    let own := if atOnce then rec else actTick o rec dly
    let late := !atOnce && actLate o rec dly
    let prev := match ps.getLast? with
      | some e => e.due
      | none => tabGet 0 d.inLast k
    let due := max own (prev + 1)
    let d := { d with pend := tabSet [] d.pend k (ps ++ [{ due := due, late := late }]) }
    match act with
    | some c => if d.lost then d else d.at_ due c
    | none => d

/-- An event with origin `o` reaches the commit input of core `c`: it takes its delay on the tick that records it
(spec/11_clasp_transactions.md R377). -/
def Dev.commitArrive (d : Dev) (c : Core) (o rec : Nat) : Dev :=
  let k := spineKey c
  let ps := d.pendOf k
  if 15 ≤ ps.length then
    (d.set1 (FLG_SIN_STATUS c) FLG_IN_STATUS_OVERRUN).raiseIf (d.b FLG_SPINE_OPT FLG_SPINE_OPT_OVR_IRQ) 0x0022
  else
    let d := { d with pend := tabSet [] d.pend k (ps ++ [⟨rec, false, some o⟩]) }
    if d.lost then d else d.at_ rec (.claspCommitInput c)

/-! ### Cells (R347-R352) -/

/-- A level input with level code `v` of cell `i` of island `n`; reserved codes read 0. -/
def Dev.cellLevel (d : Dev) (n i v : Nat) : Bool :=
  if v < 0x40 then d.b (FLG_CELL_CTL n v) FLG_CELL_CTL_O
  else if v < 0x50 then d.b (TLY_STATUS n (v - 0x40)) TLY_STATUS_LEVEL && d.powered (66 + 10 * n)
  else if v < 0x68 then d.lineActive n (v - 0x50)
  else if v < 0x88 then d.pwmLevel n ((v - 0x68) / 2) (v % 2 == 1) && d.powered (67 + 10 * n)
  else if v < 0x8E then nbit (d.fbk n ((v - 0x88) / 3)).acc ((v - 0x88) % 3) && d.powered (71 + 10 * n)
  else if v = 0x8E then d.inRun n
  else if v = 0x8F then d.b (FLG_CELL_CTL n i) FLG_CELL_CTL_SW
  else v == 0xF1

/-- Input `j` of a cell: TYPE and value. -/
def Dev.cellIn (d : Dev) (n i j : Nat) : Nat × Nat :=
  let v := match j with
    | 0 => d.f (FLG_CELL_INA n i) FLG_CELL_INA_I0
    | 1 => d.f (FLG_CELL_INA n i) FLG_CELL_INA_I1
    | 2 => d.f (FLG_CELL_INB n i) FLG_CELL_INB_I2
    | _ => d.f (FLG_CELL_INB n i) FLG_CELL_INB_I3
  (v / 1024, v % 1024)

/-- F of a cell while an event arrives on channel `ch` (`none`: no arrival) (R348). -/
def Dev.cellF (d : Dev) (n i : Nat) (ch : Option Nat) : Bool :=
  let ix := (List.range 4).foldl (fun a j =>
    let (ty, v) := d.cellIn n i j
    let l := if ty = 1 then ch == some v else d.cellLevel n i v
    a + b2n l * 2 ^ j) 0
  nbit (d.f (FLG_CELL_CFG n i) FLG_CELL_CFG_LUT) ix

def Dev.cellLatch (d : Dev) (n i : Nat) : Bool := d.f (FLG_CELL_CFG n i) FLG_CELL_CFG_FF == 1

/-- O of a cell changes to `v`; the output event carries origin `o` (R351). -/
def Dev.cellOut (d : Dev) (n i : Nat) (v : Bool) (o : Nat) : Dev :=
  if d.b (FLG_CELL_CTL n i) FLG_CELL_CTL_O = v then d
  else
    let d := (d.wf (FLG_CELL_CTL n i) FLG_CELL_CTL_O (b2n v)).gateNote (64 * n + i)
    let e := d.f (FLG_CELL_CFG n i) FLG_CELL_CFG_EDGE
    if (v && (e == 1 || e == 3)) || (!v && (e == 2 || e == 3)) then
      (d.fireAt n (0x200 + i) o).raiseIf (d.b (FLG_CELL_CTL n i) FLG_CELL_CTL_IRQ_EN) (islSrc n + 0x280 + i)
    else d

/-- Q of a cell changes to `v` with origin `o`; a filter passes it on FILT ticks later unless it changes back (R350). -/
def Dev.cellQ (d : Dev) (n : Isl) (i : Fin 64) (v : Bool) (o : Nat) : Dev :=
  if d.b (FLG_CELL_CTL n i) FLG_CELL_CTL_Q = v then d
  else
    let d := d.wf (FLG_CELL_CTL n i) FLG_CELL_CTL_Q (b2n v)
    let f := d.f (FLG_CELL_CFG n i) FLG_CELL_CFG_FILT
    if f = 0 then d.cellOut n i v o
    else if d.b (FLG_CELL_CTL n i) FLG_CELL_CTL_O = v then d.setCell n i {}
    else (d.setCell n i { due := some (o + f, v, o) }).at_ (o + f) (.cellFilterOutput n i)

/-- An event on channel `ch` with origin `o` arrives at a cell (R348, R349). In COMB mode it makes at most a pulse of zero
width, which a filter rejects. -/
def Dev.cellArrive (d : Dev) (n : Isl) (i : Fin 64) (ch o : Nat) : Dev :=
  let v := d.cellF n i (some ch)
  if d.cellLatch n i then d.cellQ n i v o
  else if d.f (FLG_CELL_CFG n i) FLG_CELL_CFG_FILT = 0 then
    let q := d.b (FLG_CELL_CTL n i) FLG_CELL_CTL_Q
    (d.cellQ n i v o).cellQ n i q o
  else d

/-- The cells whose configuration is not its reset value, as far as island `n` has any. -/
def Dev.cellsUsed (d : Dev) (n : Nat) : List (Fin 64) :=
  (List.finRange 64).filter fun i =>
    (tabFind d.regs (FLG_CELL_CFG n i)).isSome || d.b (FLG_CELL_CTL n i) FLG_CELL_CTL_Q

/-- One round: every COMB cell follows F (R349). -/
def Dev.cellsRound (d : Dev) : Dev :=
  d.each (List.finRange 6) fun d n =>
    d.each (d.cellsUsed n) fun d i => if d.cellLatch n i then d else d.cellQ n i (d.cellF n i none) d.beam

/-- COMB cells follow every level change; a chain of cells settles in as many rounds as it has cells. -/
def Dev.cellsSettle (d : Dev) : Dev :=
  if (List.range 6).all (fun n => (d.cellsUsed n).isEmpty) then d
  else d.each (List.range 64) fun d k => let _ := k; d.cellsRound

/-- Q and O of a cell return to 0 without an output event (R352). -/
def Dev.cellClear (d : Dev) (n i : Nat) : Dev :=
  let d := if d.b (FLG_CELL_CTL n i) FLG_CELL_CTL_O then d.gateNote (64 * n + i) else d
  ((d.clr (FLG_CELL_CTL n i) FLG_CELL_CTL_Q).clr (FLG_CELL_CTL n i) FLG_CELL_CTL_O).setCell n i {}

/-! ### Delivery -/

/-- The island inputs that consume channel `ch`: an island channel has its consumers within its island. -/
def Dev.islandConsumers (d : Dev) (ch : Nat) : List (Fin 6 × Nat) :=
  ((List.finRange 6).map fun (n : Fin 6) =>
    if 128 ≤ ch ∧ ch < 896 ∧ (ch - 128) / 128 ≠ n.val then []
    else ((List.range 105).filter fun x => d.selects (FLG_IN_A n x) (FLG_IN_B n x) ch).map fun (x : Nat) => (n, x)).flatten

/-- The spine inputs that consume channel `ch`. -/
def Dev.spineConsumers (d : Dev) (ch : Nat) : List Nat :=
  if 128 ≤ ch ∧ ch < 896 then []
  else (List.range 64).filter fun x => d.selects (FLG_SIN_A x) (FLG_SIN_B x) ch

/-- The cells that consume channel `ch`. -/
def Dev.cellConsumers (d : Dev) (ch : Nat) : List (Fin 6 × Fin 64) :=
  ((List.finRange 6).map fun (n : Fin 6) =>
    if 128 ≤ ch ∧ ch < 896 ∧ (ch - 128) / 128 ≠ n.val then []
    else ((d.cellsUsed n).filter fun (i : Fin 64) =>
      (List.range 4).any fun j => d.cellIn n i j == (1, ch)).map fun (i : Fin 64) => (n, i)).flatten

/-- A register of the unit behind island input `x`, whose domain tells whether the unit has power. -/
def inputUnit (n x : Nat) : Nat :=
  if x < 0x40 then TLY_CTL n 0 else if x < 0x48 then PWM_TLINE n 0 else if x < 0x50 then ACH_CFG n 0
  else if x < 0x58 then FBK_CFG n 0 else if x < 0x68 then BEAD_CTL n 0 else ABX_FRM_CTL n

/-- Delivery of an event with origin `o` on channel `ch` to its consumer, recorded on tick `rec`; a unit without power takes
nothing (R358), FTRIP acts at once (R346), and after R92 no other input takes an action (R360). -/
def Dev.deliver (d : Dev) (ch o rec : Nat) : Dev :=
  let d := d.each (d.islandConsumers ch) fun d nx =>
    let (n, x) := nx
    if d.unpowered (inputUnit n x) then d
    else if 0x40 ≤ x ∧ x < 0x44 then d.lineOn n (20 + (x - 0x40))
    else
      let (dly, once) := d.inputDelay n x
      d.inputTake (inKey n x) (FLG_IN_STATUS n x) (islSrc n + 0x2C1) (d.b (FLG_OPT n) FLG_OPT_OVR_IRQ) o rec dly once
        (islandAction n x)
  let d := d.each (d.spineConsumers ch) fun d x =>
    if 0x10 ≤ x ∧ x < 0x30 ∧ d.unpowered (DMA_CH_CTL ((x - 0x10) / 16) 0) then d
    else if h : x < 9 then d.commitArrive ⟨x, h⟩ o rec
    else
      let d' := d.inputTake (spineKey x) (FLG_SIN_STATUS x) 0x0022 (d.b FLG_SPINE_OPT FLG_SPINE_OPT_OVR_IRQ) o rec 0 false
        (spineAction x d.free)
      if x = 0x3F then d'.freeNext else d'
  d.each (d.cellConsumers ch) fun d ni => d.cellArrive ni.1 ni.2 ch o

/-- The earliest event in transit on channel `ch`. -/
def Dev.transitMin (d : Dev) (ch : Nat) : Option Transit :=
  d.transit.foldl (fun best t =>
    if t.ch = ch then
      match best with
      | some b => if t.origin < b.origin then some t else best
      | none => some t
    else best) none

/-- The first occurrence of `t` removed. -/
def dropFirst (t : Transit) : List Transit → List Transit
  | [] => []
  | x :: xs => if x = t then xs else x :: dropFirst t xs

/-- The earliest event on channel `ch` passes the gate stage and the spacing check and is delivered (R335-R337, R359). After
R92 the check is off and the origin is the frozen count (R360). -/
def Dev.channelEvent (d : Dev) (ch : Nat) (late : Bool) (unseen : Nat) : Dev :=
  match d.transitMin ch with
  | none => d
  | some t =>
    let d := { d with transit := dropFirst t d.transit }
    let o := if d.lost then d.beam else t.origin
    if d.b FLG_SPINE_STATUS FLG_SPINE_STATUS_ROOT_FAULT && !(decide (128 ≤ ch ∧ ch < 896)) then d
    else if !(d.gatePass ch o unseen) then d.set1 (chanStat ch) FLG_CHS_GATED
    else if !d.lost && decide (o + 1 < tabGet 0 d.chLast ch + 4) then
      let d := (d.set1 (chanStat ch) FLG_CHS_DROPPED).incSat (chanStat ch) FLG_CHS_DROPS
      if 128 ≤ ch ∧ ch < 896 then
        let n := (ch - 128) / 128
        d.raiseIf (d.b (FLG_OPT n) FLG_OPT_DROP_IRQ) (islSrc n + 0x2C0)
      else d.raiseIf (d.b FLG_SPINE_OPT FLG_SPINE_OPT_DROP_IRQ) 0x0021
    else { d with chLast := tabSet 0 d.chLast ch (o + 1) }.deliver ch o (d.beam + 2 + b2n late)

/-- A software fire of channel `ch` (R49, R333). -/
def Dev.fireChannel (d : Dev) (ch : Nat) : Dev := { d with transit := d.transit ++ [⟨ch, d.beam⟩] }

/-- The bus error of a write to FLG_FIRE that names `ch` (FLG_FIRE; spec/11_clasp_transactions.md R369). -/
def Dev.fireErr (d : Dev) (q ch : Nat) : BErr :=
  if 128 ≤ ch ∧ ch < 896 then
    let n := (ch - 128) / 128
    if !(d.hasIsl n) then .absent else if !(d.mayWrite q n) then .priv else .none
  else .none

/-! ### Meanings -/

/-- CHANNEL_EVENT (R335): an event passes along channel `ch`; `late` tells which of the two ticks of R57 records it, `unseen`
how many gate changes within the limits of R336 it misses. -/
def execChannelEvent (ch : Fin 1024) (late : Bool) (unseen : Nat) (s : State) : Host.Outcome State Fault Refusal :=
  s.done fun d => d.channelEvent ch late unseen

/-- CELL_FILTER_OUTPUT (R350): a change of Q has lasted FILT ticks; after R92 filters hold O (R360). -/
def execCellFilterOutput (n : Isl) (i : Fin 64) (s : State) : Host.Outcome State Fault Refusal :=
  s.done fun d =>
    match (d.cell n i).due with
    | some (t, v, _) => if t ≤ d.beam && !d.lost then (d.setCell n i {}).cellOut n i v t else d
    | none => d

/-- FLG_FIRE (R49): a write of FLG_FIRE fires the named channel. -/
def execFlgFire (q : Req) (ch : Fin 1024) (s : State) : Host.Outcome State Fault Refusal :=
  s.done fun d =>
    match d.accessErr q FLG_FIRE 4 true, d.fireErr q ch with
    | .none, .none => (d.fireChannel ch).resp q 0
    | .none, e => d.resp q 0 e
    | e, _ => d.resp q 0 e

/-- ROOT_FAULT (R359): an invalid code or an unacknowledged transfer in the root. -/
def execRootFault (s : State) : Host.Outcome State Fault Refusal :=
  s.done fun d =>
    if d.b FLG_SPINE_STATUS FLG_SPINE_STATUS_ROOT_FAULT then d
    else ((d.set1 FLG_SPINE_STATUS FLG_SPINE_STATUS_ROOT_FAULT).raise 0x0020).islandsSafe d.present PWR_SAFE_CAUSE_ROOT

/-- TRACE_TRIGGER_INPUT (R345): an action of TTRIG makes a trace trigger pending when FILIGREE is selected. -/
def execTraceTriggerInput (n : Isl) (s : State) : Host.Outcome State Fault Refusal :=
  s.done fun d =>
    let (d, _) := d.takeInput (inKey n 0x68)
    if d.traceSel n 0 then d.traceTrigger n else d

end Sys2Proof.Machine
end

