-- ==== Sys2Proof/Machine/Bead.lean ====
section
/-! DEFINITION. Bead engines (spec/09_bead_engines.md R307-R328). A command of a Bead instruction is the instruction on the
strobes that it takes now; a wait is one command per strobe, and a SHIFT moves as many bits as its captured bits give. -/

namespace Sys2Proof.Machine
open Sys2Proof

/-! ### Strobes and registers -/

/-- D of the bit clock (R309). -/
def Dev.beadD (d : Dev) (n e : Nat) : Nat :=
  1024 * max 4 (d.f (BEAD_DIV n e) BEAD_DIV_INT) + d.f (BEAD_DIV n e) BEAD_DIV_FRAC

/-- The tick of the engine's present strobe (R309). -/
def Dev.beadStrobe (d : Dev) (n e : Nat) : Nat :=
  let h := d.bead n e
  h.s0 + h.n * d.beadD n e / 1024

def Dev.beadPC (d : Dev) (n e : Nat) : Nat := d.f (BEAD_STATE n e) BEAD_STATE_PC

def Dev.sr (d : Dev) (n e : Nat) : Word := d.r (BEAD_SR n e)

/-- The instruction ends: `k` strobes have passed and the next address follows (R311). -/
def Dev.beadNext (d : Dev) (n e k : Nat) : Dev :=
  let h := d.bead n e
  let d := d.setBead n e { h with n := h.n + k }
  let d := d.wf (BEAD_STATE n e) BEAD_STATE_PC ((d.beadPC n e + 1) % 64)
  d.clr (BEAD_STAT n e) BEAD_STAT_WAITING

/-- One strobe passes in a wait. -/
def Dev.beadWait (d : Dev) (n e : Nat) : Dev :=
  let h := d.bead n e
  (d.setBead n e { h with n := h.n + 1 }).set1 (BEAD_STAT n e) BEAD_STAT_WAITING

def Dev.beadWaiting (d : Dev) (n e : Nat) : Bool := d.b (BEAD_STAT n e) BEAD_STAT_WAITING

/-- A level after KEEP 0, LOW 1, HIGH 2, TOGGLE 3. -/
def pinLevel (act : Nat) (l : Bool) : Bool :=
  match act with
  | 1 => false
  | 2 => true
  | 3 => !l
  | _ => l

/-- The PINS action of an instruction's first strobe (R312). -/
def Dev.beadPins (d : Dev) (n e : Nat) (pins : Fin 16) (do1 do2 : Bool) : Dev :=
  let h := d.bead n e
  d.setBead n e { h with p1 := if do1 then pinLevel (pins.val / 4) h.p1 else h.p1,
                         p2 := if do2 then pinLevel (pins.val % 4) h.p2 else h.p2 }

/-- The engine stops on its present strobe (R324). -/
def Dev.beadStopHere (d : Dev) (n e : Nat) : Dev := d.beadHalted n e (d.beadStrobe n e)

/-- A program error (R313): the pins keep their levels. -/
def Dev.beadProgErr (d : Dev) (n e : Nat) : Dev :=
  let pc := d.beadPC n e
  ((d.beadStopHere n e).set1 (BEAD_STAT n e) BEAD_STAT_PROG_ERR).wf (BEAD_STATE n e) BEAD_STATE_ERR_PC pc |>.beadRaise
    n e 2

/-- An instruction of a running engine on its strobe; a stop requested on an earlier tick comes first, except inside a CK
bit (R324). -/
def Dev.beadRun (d : Dev) (n e : Nat) (f : Dev → Dev) : Dev :=
  let h := d.bead n e
  if d.beadStopped n e then d
  else if (h.stop.any fun t => decide (t < d.beam)) && !h.half then d.beadStopHere n e
  else f d

/-- An instruction of one strobe with its PINS action. -/
def Dev.beadOne (d : Dev) (n e : Nat) (pins : Fin 16) (f : Dev → Dev) : Dev :=
  d.beadRun n e fun d => (f (d.beadPins n e pins true true)).beadNext n e 1

/-! ### Shifting (R314-R316) -/

/-- A bit enters the CRC register of `w` bits. -/
def crcStep (w poly crc : Nat) (b : Bool) : Nat :=
  let fb := b != nbit crc (w - 1)
  let c := crc * 2 % 2 ^ w
  if fb then (c ^^^ poly) % 2 ^ w else c

/-- The bit that a shift drives out next. -/
def Dev.shiftOut (d : Dev) (n e : Nat) : Bool :=
  nbit (d.sr n e).toNat (if d.b (BEAD_CTL n e) BEAD_CTL_SHDIR then 0 else 31)

/-- The CRC takes a bit while it is on. -/
def Dev.beadCrc (d : Dev) (n e : Nat) (b : Bool) : Dev :=
  if d.b (BEAD_STAT n e) BEAD_STAT_CRC_ON then
    d.w (BEAD_CRCVAL n e) (wordOf (crcStep (d.f (BEAD_CRC n e) BEAD_CRC_WIDTH + 1) (d.f (BEAD_CRC n e) BEAD_CRC_POLY)
      (d.r (BEAD_CRCVAL n e)).toNat b))
  else d

/-- One bit of a SHIFT with direction `dir` (IN 0, OUT 1, BOTH 2, SKIP 3) and the level captured at P0: the bit driven out enters
the CRC before the bit taken in. -/
def Dev.shiftBit (d : Dev) (n e dir : Nat) (p0 : Bool) : Dev :=
  let inp := p0 != d.b (BEAD_PIN n e) BEAD_PIN_P0_INV
  let out := d.shiftOut n e
  let bit := if dir = 1 then false else inp
  let x := (d.sr n e).toNat
  let sr := if d.b (BEAD_CTL n e) BEAD_CTL_SHDIR then x / 2 + b2n bit * 2 ^ 31 else x * 2 + b2n bit
  let d := if dir = 1 ∨ dir = 2 then d.beadCrc n e out else d
  let d := if dir = 1 then d else d.beadCrc n e inp
  let d := if dir = 3 then d else d.w (BEAD_SR n e) (wordOf sr)
  let h := d.bead n e
  let d := d.setBead n e { h with p2 := if dir = 1 ∨ dir = 2 then out else h.p2 }
  d.wf (BEAD_STATE n e) BEAD_STATE_BITCNT (d.f (BEAD_STATE n e) BEAD_STATE_BITCNT + 1)

/-- The bits of a SHIFT one after another, with the strobes they take: with CK a leading and a trailing strobe each. -/
def Dev.shiftBits (d : Dev) (n e dir : Nat) (ck : Bool) (bits : List Bool) : Dev :=
  d.each bits fun d b =>
    let h := d.bead n e
    let d := d.setBead n e { h with n := h.n + (if ck && !h.half then 2 else 1), half := false,
                                    p1 := if ck then d.b (BEAD_CTL n e) BEAD_CTL_CPOL else h.p1 }
    d.shiftBit n e dir b

/-- A SHIFT of `cnt + 1` bits, of which `got` gives the levels captured now; a SHIFT with CK and no captured level makes the
leading strobe of its next bit. -/
def Dev.beadShift (d : Dev) (n e : Nat) (pins : Fin 16) (dir : Nat) (ck : Bool) (cnt : Nat) (got : List Bool) : Dev :=
  let h := d.bead n e
  let d := if h.shift then d
    else ((d.beadPins n e pins (!ck) (dir == 0 || dir == 3)).wf (BEAD_STATE n e) BEAD_STATE_BITCNT 0)
  let d := d.setBead n e { d.bead n e with shift := true }
  let left := cnt + 1 - d.f (BEAD_STATE n e) BEAD_STATE_BITCNT
  let h := d.bead n e
  let d := if got.isEmpty && ck && !h.half && decide (0 < left) then
      d.setBead n e { h with n := h.n + 1, half := true, p1 := !(d.b (BEAD_CTL n e) BEAD_CTL_CPOL),
                             p2 := if dir = 1 ∨ dir = 2 then d.shiftOut n e else h.p2 }
    else d.shiftBits n e dir ck (got.take left)
  if cnt + 1 ≤ d.f (BEAD_STATE n e) BEAD_STATE_BITCNT then
    (d.setBead n e { d.bead n e with shift := false }).beadNext n e 0
  else d

/-! ### Queues (R318-R322) -/

/-- Capacity of the TX queue. -/
def Dev.txCap (d : Dev) (n e : Nat) : Nat := min 12 (d.f (BEAD_CTL n e) BEAD_CTL_TXCAP)

/-- TAKE on one of its strobes. -/
def Dev.beadTake (d : Dev) (n e : Nat) (pins : Fin 16) (block : Bool) : Dev :=
  if d.txCap n e = 0 then d.beadProgErr n e
  else
    let d := if d.beadWaiting n e then d else d.beadPins n e pins true true
    let h := d.bead n e
    match h.tx with
    | w :: ws => ((d.setBead n e { h with tx := ws, taken := w }).w (BEAD_SR n e) w).beadNext n e 1
    | [] =>
      if block then d.beadWait n e
      else
        let d := (d.w (BEAD_SR n e) h.taken).set1 (BEAD_STAT n e) BEAD_STAT_STALE
        ((d.incSat (BEAD_CNT n e) BEAD_CNT_STALE).beadRaise n e 3).beadNext n e 1

/-- A completed GIVE: its event, with the mark used up. -/
def Dev.beadGiven (d : Dev) (n e : Nat) : Dev :=
  let t := d.beadStrobe n e
  ((d.setBead n e { d.bead n e with mark := none }).fireAt n (0x180 + 4 * e + 1) t).beadNext n e 1

/-- The feedback interfaces that take the engine's words. -/
def Dev.beadFbk (d : Dev) (n e : Nat) : List (Fin 2) :=
  (List.finRange 2).filter fun k =>
    d.f (FBK_CFG n k) FBK_CFG_SRC == 4 && d.f (FBK_SER n k) FBK_SER_ENGINE == e

/-- GIVE on one of its strobes. -/
def Dev.beadGive (d : Dev) (n : Isl) (e : Fin 8) (pins : Fin 16) (block : Bool) : Dev :=
  let toFbk := d.b (BEAD_CTL n e) BEAD_CTL_RXDST
  let cap := 12 - d.txCap n e
  if !toFbk && cap == 0 then d.beadProgErr n e
  else
    let d := if d.beadWaiting n e then d else d.beadPins n e pins true true
    let h := d.bead n e
    let t := d.beadStrobe n e
    let at_ := h.mark.getD t
    if toFbk then
      let ks := d.beadFbk n e
      let d := if ks.isEmpty then (d.set1 (BEAD_STAT n e) BEAD_STAT_LOST).beadRaise n e 4
        else d.each ks fun d k => d.at_ (t + 1) (.serialWord n k (d.sr n e) at_)
      d.beadGiven n e
    else if h.rx.length < cap then
      (d.setBead n e { h with rx := h.rx ++ [(d.sr n e, at_)] }).beadGiven n e
    else if block then d.beadWait n e
    else
      let d := d.setBead n e { h with rx := h.rx.dropLast ++ [(d.sr n e, at_)] }
      let d := (d.set1 (BEAD_STAT n e) BEAD_STAT_LOST).incSat (BEAD_CNT n e) BEAD_CNT_LOST
      (d.beadRaise n e 4).beadGiven n e

/-- A write of BEAD_TXQ. -/
def Dev.txqPut (d : Dev) (n e : Nat) (v : Word) : Dev :=
  let h := d.bead n e
  if h.tx.length < d.txCap n e then d.setBead n e { h with tx := h.tx ++ [v] }
  else (d.set1 (BEAD_STAT n e) BEAD_STAT_TX_OVF).beadRaise n e 5

/-- A read of BEAD_RXQ. -/
def Dev.rxqGet (d : Dev) (n e : Nat) : Dev × Word :=
  let h := d.bead n e
  match h.rx with
  | (v, t) :: rest =>
    (((d.setBead n e { h with rx := rest }).w (BEAD_RXTS_LO n e) (wordOf t)).w (BEAD_RXTS_HI n e)
      (wordOf (t / 4294967296)), v)
  | [] => ((d.set1 (BEAD_STAT n e) BEAD_STAT_RX_UNF).beadRaise n e 5, 0)

def Dev.txFlush (d : Dev) (n e : Nat) : Dev := d.setBead n e { d.bead n e with tx := [] }
def Dev.rxFlush (d : Dev) (n e : Nat) : Dev := d.setBead n e { d.bead n e with rx := [] }

/-! ### Starting and stopping (R323-R328) -/

/-- The engine starts with strobe 0 on tick `s0`; a shift that it stopped inside goes on or starts over (R323, R325). -/
def Dev.beadStart (d : Dev) (n e s0 : Nat) : Dev :=
  if !(d.beadStopped n e) then d
  else
    let h := d.bead n e
    let d := d.setBead n e { h with s0 := s0, n := 0, safe := false, stop := none }
    let d := (d.clr (BEAD_STAT n e) BEAD_STAT_STOPPED).set1 (BEAD_CTL n e) BEAD_CTL_RUN
    if h.shift && !(d.b (BEAD_CTL n e) BEAD_CTL_KEEP_SHIFT) then d.wf (BEAD_STATE n e) BEAD_STATE_BITCNT 0 else d

/-- A write of RUN = 0 requests a stop (R324). -/
def Dev.beadStopReq (d : Dev) (n e : Nat) : Dev :=
  if d.beadStopped n e then d
  else (d.setBead n e { d.bead n e with stop := some d.beam }).clr (BEAD_CTL n e) BEAD_CTL_RUN

/-- RESTART of a stopped engine (R326). -/
def Dev.beadRestart (d : Dev) (n e : Nat) : Dev :=
  let h := d.bead n e
  let d := d.setBead n e { h with taken := 0, shift := false, half := false,
                                  p1 := d.b (BEAD_PIN n e) BEAD_PIN_P1_INIT, p2 := d.b (BEAD_PIN n e) BEAD_PIN_P2_INIT }
  let d := (d.clr (BEAD_STATE n e) BEAD_STATE_PC).clr (BEAD_STATE n e) BEAD_STATE_BITCNT
  let d := ((d.w (BEAD_X n e) 0).w (BEAD_SR n e) 0).w (BEAD_CRCVAL n e) (d.r (BEAD_CRC_INIT n e))
  (d.clr (BEAD_STAT n e) BEAD_STAT_CRC_ON).clr (BEAD_STAT n e) BEAD_STAT_WIN_PEND

/-- A WIN event acts (R328): it restarts the divider of an engine in a synchronised WAIT WIN, whose WAIT completes on this
strobe 0, or sets WIN_PEND. -/
def Dev.beadWin (d : Dev) (n e : Nat) (late : Bool) : Dev :=
  let h := d.bead n e
  if h.wwin && d.b (BEAD_CTL n e) BEAD_CTL_WSYNC then
    let d := if late then (d.set1 (BEAD_STAT n e) BEAD_STAT_LATE).beadRaise n e 7 else d
    (d.setBead n e { h with s0 := d.beam, n := 0, wwin := false }).beadNext n e 1
  else if d.b (BEAD_STAT n e) BEAD_STAT_WIN_PEND then (d.set1 (BEAD_STAT n e) BEAD_STAT_WIN_OVR).beadRaise n e 7
  else d.set1 (BEAD_STAT n e) BEAD_STAT_WIN_PEND

/-- WAIT on one of its strobes: `pin` is the level captured at the pin of source 0 (P0) or 1 (P1); source 2 waits for WIN;
source 3 is a program error (R312, R313, R328). -/
def Dev.beadWaitOp (d : Dev) (n e : Nat) (pins : Fin 16) (src : Nat) (level pin : Bool) : Dev :=
  if src = 3 then d.beadProgErr n e
  else
    let d := if d.beadWaiting n e then d else d.beadPins n e pins true true
    let hit :=
      if src = 2 then d.b (BEAD_STAT n e) BEAD_STAT_WIN_PEND
      else (pin != (src == 0 && d.b (BEAD_PIN n e) BEAD_PIN_P0_INV)) == level
    if hit then
      let d := if src = 2 then d.clr (BEAD_STAT n e) BEAD_STAT_WIN_PEND else d
      (d.setBead n e { d.bead n e with wwin := false }).beadNext n e 1
    else (d.setBead n e { d.bead n e with wwin := src == 2 }).beadWait n e

/-- EQ (R317). -/
def Dev.beadEq (d : Dev) (n e : Nat) : Bool :=
  ((d.sr n e ^^^ d.r (BEAD_CMP n e)) &&& d.r (BEAD_CMP_MASK n e)) == 0

/-- BRANCH: DECNZ decrements X whether or not it branches (R312). -/
def Dev.beadBranch (d : Dev) (n e : Nat) (cond : Nat) (target : Nat) (p0 : Bool) : Dev :=
  let x := (d.r (BEAD_X n e)).toNat
  let x' := (x + 65535) % 65536
  let d := if cond = 1 then d.w (BEAD_X n e) (wordOf x') else d
  let go := match cond with
    | 0 => true
    | 1 => x' != 0
    | 2 => x == 0
    | 3 => d.beadEq n e
    | 4 => !(d.beadEq n e)
    | 5 => p0 != d.b (BEAD_PIN n e) BEAD_PIN_P0_INV
    | 6 => d.r (BEAD_CRCVAL n e) == 0
    | _ => d.r (BEAD_CRCVAL n e) != 0
  let d := d.beadNext n e 1
  if go then d.wf (BEAD_STATE n e) BEAD_STATE_PC target else d

/-- The 32 bits of `x` in reverse order. -/
def revBits (x : Nat) : Nat := (List.range 32).foldl (fun a i => a + (x / 2 ^ i % 2) * 2 ^ (31 - i)) 0

/-- The pin P1 (`false`) or P2 (`true`): `none` is high impedance (R307, R327). -/
def Dev.beadPin (d : Dev) (n e : Nat) (second : Bool) : Option Bool :=
  let h := d.bead n e
  let mode := d.f (BEAD_PIN n e) (if second then BEAD_PIN_P2_MODE else BEAD_PIN_P1_MODE)
  if h.safe then
    match d.f (BEAD_PIN n e) (if second then BEAD_PIN_P2_SAFE else BEAD_PIN_P1_SAFE) with
    | 0 => some false
    | 1 => some true
    | _ => none
  else
    let l := if second then h.p2 else h.p1
    match mode with
    | 1 => some l
    | 2 => if l then none else some false
    | _ => none

/-! ### Meanings -/

/-- BEAD_RUN_START (R323): a write of BEAD_CTL.RUN = 1. -/
def execBeadRunStart (q : Req) (n : Isl) (e : Fin 8) (s : State) : Host.Outcome State Fault Refusal :=
  s.done fun d => d.wr q (BEAD_CTL n e) fun d => d.beadStart n e (d.beam + 4)

/-- BEAD_START_EVENT (R323): an action of START places strobe 0 on this tick. -/
def execBeadStartEvent (n : Isl) (e : Fin 8) (s : State) : Host.Outcome State Fault Refusal :=
  s.done fun d =>
    let (d, late) := d.takeInput (inKey n (0x58 + 2 * e))
    let d := if late && d.beadStopped n e then (d.set1 (BEAD_STAT n e) BEAD_STAT_LATE).beadRaise n e 7 else d
    if d.ticking then d.beadStart n e d.beam else d

/-- BEAD_STOP_REQUEST (R324): a write of BEAD_CTL.RUN = 0. -/
def execBeadStopRequest (q : Req) (n : Isl) (e : Fin 8) (s : State) : Host.Outcome State Fault Refusal :=
  s.done fun d => d.wr q (BEAD_CTL n e) fun d => d.beadStopReq n e

/-- BEAD_STOP (R324): a requested stop takes place on a strobe outside a CK bit, and not on the tick of the request. -/
def execBeadStop (n : Isl) (e : Fin 8) (s : State) : Host.Outcome State Fault Refusal :=
  s.done fun d =>
    match (d.bead n e).stop with
    | some h => if h < d.beam && !(d.bead n e).half && !(d.beadStopped n e) then d.beadStopHere n e else d
    | none => d

/-- RESTART (R326): a RESTART write; of an engine that runs it is a locked write. -/
def execRestart (q : Req) (n : Isl) (e : Fin 8) (s : State) : Host.Outcome State Fault Refusal :=
  s.done fun d =>
    match d.accessErr q (BEAD_CMD n e) 4 true with
    | .none =>
      if d.beadStopped n e then (d.beadRestart n e).resp q 0 else d.locked q (BEAD_CMD n e) 1
    | x => d.resp q 0 x

/-- TXFLUSH (R320). -/
def execTxflush (q : Req) (n : Isl) (e : Fin 8) (s : State) : Host.Outcome State Fault Refusal :=
  s.done fun d => d.wr q (BEAD_CMD n e) fun d => d.txFlush n e

/-- RXFLUSH (R320). -/
def execRxflush (q : Req) (n : Isl) (e : Fin 8) (s : State) : Host.Outcome State Fault Refusal :=
  s.done fun d => d.wr q (BEAD_CMD n e) fun d => d.rxFlush n e

/-- TXQ_WRITE (R320). -/
def execTxqWrite (q : Req) (n : Isl) (e : Fin 8) (v : Word) (s : State) : Host.Outcome State Fault Refusal :=
  s.done fun d => d.wr q (BEAD_TXQ n e) fun d => d.txqPut n e v

/-- RXQ_READ (R320). -/
def execRxqRead (q : Req) (n : Isl) (e : Fin 8) (s : State) : Host.Outcome State Fault Refusal :=
  s.done fun d => d.rd q (BEAD_RXQ n e) fun d => d.rxqGet n e

/-- WIN_EVENT (R328): an event of WIN acts on this tick. -/
def execWinEvent (n : Isl) (e : Fin 8) (s : State) : Host.Outcome State Fault Refusal :=
  s.done fun d =>
    let (d, late) := d.takeInput (inKey n (0x59 + 2 * e))
    if d.ticking then d.beadWin n e late else d

/-- IDLE (R312). -/
def execIdle (n : Isl) (e : Fin 8) (pins : Fin 16) (dly : Fin 1024) (s : State) : Host.Outcome State Fault Refusal :=
  s.done fun d => d.beadRun n e fun d => (d.beadPins n e pins true true).beadNext n e (dly + 1)

/-- SHIFT (R314, R315). -/
def execShift (n : Isl) (e : Fin 8) (pins : Fin 16) (dir : Fin 4) (ck : Bool) (cnt : Fin 32) (got : List Bool)
    (s : State) : Host.Outcome State Fault Refusal :=
  s.done fun d => d.beadRun n e fun d => d.beadShift n e pins dir ck cnt got

/-- TAKE (R319). -/
def execTake (n : Isl) (e : Fin 8) (pins : Fin 16) (block : Bool) (s : State) : Host.Outcome State Fault Refusal :=
  s.done fun d => d.beadRun n e fun d => d.beadTake n e pins block

/-- GIVE (R319, R321, R322). -/
def execGive (n : Isl) (e : Fin 8) (pins : Fin 16) (block : Bool) (s : State) : Host.Outcome State Fault Refusal :=
  s.done fun d => d.beadRun n e fun d => d.beadGive n e pins block

/-- MARK (R321): the capture tick is the tick of this strobe. -/
def execMark (n : Isl) (e : Fin 8) (pins : Fin 16) (s : State) : Host.Outcome State Fault Refusal :=
  s.done fun d => d.beadOne n e pins fun d => d.setBead n e { d.bead n e with mark := some (d.beadStrobe n e) }

/-- WAIT (R312): one strobe of the wait. -/
def execWait (n : Isl) (e : Fin 8) (pins : Fin 16) (src : Fin 4) (level : Bool) (seen : Bool) (s : State) :
    Host.Outcome State Fault Refusal :=
  s.done fun d => d.beadRun n e fun d => d.beadWaitOp n e pins src level seen

/-- BRANCH (R312): `p0` is the level captured at P0. -/
def execBranch (n : Isl) (e : Fin 8) (pins : Fin 16) (cond : Fin 8) (target : Fin 64) (p0 : Bool) (s : State) :
    Host.Outcome State Fault Refusal :=
  s.done fun d => d.beadRun n e fun d => (d.beadPins n e pins true true).beadBranch n e cond target p0

/-- LOADX (R312). -/
def execLoadx (n : Isl) (e : Fin 8) (pins : Fin 16) (v : BitVec 16) (s : State) : Host.Outcome State Fault Refusal :=
  s.done fun d => d.beadOne n e pins fun d => d.w (BEAD_X n e) (wordOf v.toNat)

/-- SR_CLR (R312). -/
def execSrClr (n : Isl) (e : Fin 8) (pins : Fin 16) (s : State) : Host.Outcome State Fault Refusal :=
  s.done fun d => d.beadOne n e pins fun d => d.w (BEAD_SR n e) 0

/-- SR_X (R312). -/
def execSrX (n : Isl) (e : Fin 8) (pins : Fin 16) (s : State) : Host.Outcome State Fault Refusal :=
  s.done fun d => d.beadOne n e pins fun d => d.w (BEAD_SR n e) (d.r (BEAD_X n e))

/-- X_SR (R312). -/
def execXSr (n : Isl) (e : Fin 8) (pins : Fin 16) (s : State) : Host.Outcome State Fault Refusal :=
  s.done fun d => d.beadOne n e pins fun d => d.w (BEAD_X n e) (wordOf ((d.sr n e).toNat % 65536))

/-- SR_ERR (R312). -/
def execSrErr (n : Isl) (e : Fin 8) (pins : Fin 16) (s : State) : Host.Outcome State Fault Refusal :=
  s.done fun d => d.beadOne n e pins fun d => d.w (BEAD_SR n e) (d.sr n e ||| 0x80000000)

/-- SR_AND (R312). -/
def execSrAnd (n : Isl) (e : Fin 8) (pins : Fin 16) (s : State) : Host.Outcome State Fault Refusal :=
  s.done fun d => d.beadOne n e pins fun d => d.w (BEAD_SR n e) (d.sr n e &&& d.r (BEAD_CMP_MASK n e))

/-- CRC_CLR (R312). -/
def execCrcClr (n : Isl) (e : Fin 8) (pins : Fin 16) (s : State) : Host.Outcome State Fault Refusal :=
  s.done fun d => d.beadOne n e pins fun d => d.w (BEAD_CRCVAL n e) (d.r (BEAD_CRC_INIT n e))

/-- CRC_ON (R312). -/
def execCrcOn (n : Isl) (e : Fin 8) (pins : Fin 16) (s : State) : Host.Outcome State Fault Refusal :=
  s.done fun d => d.beadOne n e pins fun d => d.set1 (BEAD_STAT n e) BEAD_STAT_CRC_ON

/-- CRC_OFF (R312). -/
def execCrcOff (n : Isl) (e : Fin 8) (pins : Fin 16) (s : State) : Host.Outcome State Fault Refusal :=
  s.done fun d => d.beadOne n e pins fun d => d.clr (BEAD_STAT n e) BEAD_STAT_CRC_ON

/-- SR_REV (R312). -/
def execSrRev (n : Isl) (e : Fin 8) (pins : Fin 16) (s : State) : Host.Outcome State Fault Refusal :=
  s.done fun d => d.beadOne n e pins fun d => d.w (BEAD_SR n e) (wordOf (revBits (d.sr n e).toNat))

/-- SIGNAL (R312). -/
def execSignal (n : Isl) (e : Fin 8) (pins : Fin 16) (irq evt : Bool) (s : State) : Host.Outcome State Fault Refusal :=
  s.done fun d => d.beadOne n e pins fun d =>
    let d := if evt then d.fireAt n (0x180 + 4 * e) (d.beadStrobe n e) else d
    if irq then d.beadRaise n e 0 else d

/-- STOP (R324): the engine stops on its own strobe with PC at the next address. -/
def execStop (n : Isl) (e : Fin 8) (pins : Fin 16) (s : State) : Host.Outcome State Fault Refusal :=
  s.done fun d => d.beadRun n e fun d =>
    let t := d.beadStrobe n e
    let d := (d.beadPins n e pins true true).beadNext n e 1
    (d.beadHalted n e t).set1 (BEAD_STAT n e) BEAD_STAT_SELF_STOP

/-- BEAD_UNDEFINED_OPCODE (R313): OP 0xB to 0xF, and a MOVE variant above 8. -/
def execBeadUndefinedOpcode (n : Isl) (e : Fin 8) (pins : Fin 16) (s : State) : Host.Outcome State Fault Refusal :=
  s.done fun d => d.beadRun n e fun d => let _ := pins; d.beadProgErr n e

end Sys2Proof.Machine
end

