-- ==== Sys2Proof/Machine/Pendant.lean ====
section
/-! DEFINITION. The Pendant (spec/14_pendant.md): doorbells, appending records to the rings, claims and the running
priority, the interrupt lines. -/

namespace Sys2Proof.Machine
open Sys2Proof

/-! ### Rings -/

/-- The number of records of ring `c`: 2^L (R469). -/
def Dev.ringSize (d : Dev) (c : Nat) : Nat := 2 ^ d.f (PND_RING_CFG c) PND_RING_CFG_LOG2SIZE

/-- The present base address of ring `c`. -/
def Dev.ringBase (d : Dev) (c : Nat) : Nat := 16 * d.f (PND_RING_BASE c) PND_RING_BASE_BASE

/-- The rules for base address and size of ring `c` (R469). -/
def ringOk (c base l : Nat) : Bool :=
  decide (6 ≤ l ∧ l ≤ 16 ∧ base % (16 * 2 ^ l) = 0) &&
  (decide (0x10000000 ≤ base ∧ base + 16 * 2 ^ l ≤ 0x10C00000) ||
    (decide (c < 6) &&
      decide (0x20000000 + c * 0x100000 ≤ base ∧ base + 16 * 2 ^ l ≤ 0x20080000 + c * 0x100000)))

/-- PND_RING_FILL of ring `c` shows the records from TAIL to HEAD (R474). -/
def Dev.ringShow (d : Dev) (c : Nat) : Dev :=
  d.wf (PND_RING_FILL c) PND_RING_FILL_FILL (d.ring c).recs.length

/-- A write of BASE (R469): one that breaks the rules changes nothing and sets BAD_BASE. -/
def Dev.ringBaseWrite (d : Dev) (c base : Nat) : Dev :=
  if ringOk c (16 * base) (d.f (PND_RING_CFG c) PND_RING_CFG_LOG2SIZE) then
    d.wf (PND_RING_BASE c) PND_RING_BASE_BASE base
  else (d.set1 PND_BLK_STATUS PND_BLK_STATUS_BAD_BASE).raise 0x0032

/-- A write of a new LOG2SIZE (R469). -/
def Dev.ringSizeWrite (d : Dev) (c l : Nat) : Dev :=
  if l = d.f (PND_RING_CFG c) PND_RING_CFG_LOG2SIZE then d
  else if ringOk c (d.ringBase c) l then d.wf (PND_RING_CFG c) PND_RING_CFG_LOG2SIZE l
  else (d.set1 PND_BLK_STATUS PND_BLK_STATUS_BAD_BASE).raise 0x0032

/-- EN becomes 1: HEAD, TAIL and FILL return to 0 and LAP starts at 1 (R475). -/
def Dev.ringEnable (d : Dev) (c : Nat) : Dev :=
  if d.b (PND_RING_CFG c) PND_RING_CFG_EN then d
  else
    let d := (d.wf (PND_RING_CFG c) PND_RING_CFG_EN 1).w (PND_RING_PTR c) 0
    (d.setRing c { d.ring c with recs := [], lap := true }).ringShow c

/-- EN becomes 0: every unclaimed record is discarded and FILL is 0; the running-priority stack stays (R475). TAIL then stands
at HEAD. -/
def Dev.ringDisable (d : Dev) (c : Nat) : Dev :=
  let d := d.clr (PND_RING_CFG c) PND_RING_CFG_EN
  let d := d.wf (PND_RING_PTR c) PND_RING_PTR_TAIL (d.f (PND_RING_PTR c) PND_RING_PTR_HEAD)
  (d.setRing c { d.ring c with recs := [] }).ringShow c

/-! ### The interrupt line (R476, R482, R483) -/

/-- PRIO `p` is above the running priority of core `c`. -/
def Dev.aboveRunning (d : Dev) (c p : Nat) : Bool :=
  match (d.ring c).stack with
  | [] => true
  | t :: _ => decide (t < p)

/-- The claimable records of ring `c`, oldest first. -/
def Dev.claimable (d : Dev) (c : Nat) : List RecH :=
  (d.ring c).recs.filter fun r => !r.claimed && d.aboveRunning c r.prio

/-- The tick on which the time condition comes to hold, for the oldest claimable record. -/
def Dev.coalDue (d : Dev) (c : Nat) : Option Nat :=
  (d.claimable c).head?.map fun r => r.ts + 500 * min (d.f (PND_COAL c) PND_COAL_TIME) 1000

/-- The conditions of R482. -/
def Dev.lineWanted (d : Dev) (c : Nat) : Bool :=
  let rs := d.claimable c
  !rs.isEmpty &&
  (decide (max 1 (d.f (PND_COAL c) PND_COAL_COUNT) ≤ rs.length) ||
    d.f (PND_COAL c) PND_COAL_TIME == 0 ||
    (match d.coalDue c with
      | some t => decide (t ≤ d.beam)
      | none => false) ||
    (d.b (PND_COAL c) PND_COAL_URG_EN && rs.any fun r => decide (d.f (PND_COAL c) PND_COAL_URGENT ≤ r.prio)))

/-- Judge the line of core `c`: it asserts at once; it deasserts on the next tick (`lineDrop`). The time condition, where it
has yet to come, is judged on its tick. -/
def Dev.lineEval (d : Dev) (c : Core) : Dev :=
  let d := d.wf (PND_CPU_STATUS c) PND_CPU_STATUS_CLAIMABLE (d.claimable c).length
  if d.lineWanted c then d.wf (PND_CPU_STATUS c) PND_CPU_STATUS_LINE 1
  else match d.coalDue c with
    | some t => if d.agenda.any fun x => decide (x.tick = t ∧ x.cmd = .coalesceTimeExpiry c) then d
                else d.at_ t (.coalesceTimeExpiry c)
    | none => d

/-- The line of core `c` on the tick after its last condition fails (R483). -/
def Dev.lineDrop (d : Dev) (c : Nat) : Dev :=
  if d.lineWanted c then d else d.clr (PND_CPU_STATUS c) PND_CPU_STATUS_LINE

/-! ### Appending records (R465, R471-R474) -/

/-- A raise that reaches no ring (R465). An unrouted raise of source 0x0031 itself does not raise 0x0031 again. -/
def Dev.unrouted (d : Dev) (src : Nat) : Dev :=
  let d := d.incSat PND_UNROUTED PND_UNROUTED_CNT
  let d := d.wf PND_BLK_STATUS PND_BLK_STATUS_LAST_UNROUTED src
  (d.set1 PND_BLK_STATUS PND_BLK_STATUS_UNROUTED).raiseIf (src != 0x0031) 0x0031

/-- A raise that ring `c` has no room for is lost (R474). -/
def Dev.ringDrop (d : Dev) (c : Nat) : Dev :=
  let g := d.ring c
  let d := d.incSat (PND_DROPS c) PND_DROPS_DROPS
  let d := d.setRing c { g with before := min (g.before + 1) 65535, reported := true }
  d.raiseIf (!g.reported) 0x0030 c

/-- Word +0x0 of a record (R471). -/
def recWord0 (lap : Bool) (prio src : Nat) : Nat := b2n lap * 0x100000 + prio * 0x10000 + src

/-- Write the record at index HEAD, its word +0x0 last; the writes need no grant (R470-R472). -/
def Dev.ringStore (d : Dev) (c : Nat) (e : RaiseEv) (prio : Nat) : Dev :=
  let g := d.ring c
  let a := d.ringBase c + 16 * d.f (PND_RING_PTR c) PND_RING_PTR_HEAD
  if placeOf a = .mem then
    let d := d.storeN (a + 4) (e.payload * 65536 + nfield e.ts 32 16) 4
    let d := d.storeN (a + 8) (e.ts % 4294967296) 4
    let d := d.storeN (a + 12) g.before 4
    d.storeN a (recWord0 g.lap prio e.src) 4
  else d

/-- Append a raise to ring `c`: the record becomes claimable, HEAD moves on, LAP inverts on a wrap. -/
def Dev.ringAppend (d : Dev) (c : Core) (e : RaiseEv) (prio : Nat) : Dev :=
  let g := d.ring c
  let h := d.f (PND_RING_PTR c) PND_RING_PTR_HEAD
  let h' := (h + 1) % d.ringSize c
  let d := d.ringStore c e prio
  let rec' : RecH := ⟨h, e.src, prio, e.ts, false⟩
  let d := d.setRing c
    { g with recs := g.recs ++ [rec'], lap := if h' = 0 then !g.lap else g.lap, before := 0, reported := false }
  ((d.wf (PND_RING_PTR c) PND_RING_PTR_HEAD h').ringShow c).lineEval c

/-- One raise reaches the Pendant: its routing entry decides. -/
def Dev.raiseArrives (d : Dev) (e : RaiseEv) : Dev :=
  let own := e.route % 16
  if h : nbit e.route 8 = true ∧ own < 9 then
    let c : Core := ⟨own, h.2⟩
    if d.b (PND_RING_CFG c) PND_RING_CFG_EN && decide ((d.ring c).recs.length < d.ringSize c) then
      d.ringAppend c e (e.route / 16 % 16)
    else d.ringDrop c
  else d.unrouted e.src

/-- `a` comes before `b`: by timestamp, then by source number (R473). -/
def raiseBefore (a b : RaiseEv) : Bool :=
  decide (a.ts < b.ts) || (decide (a.ts = b.ts) && decide (a.src < b.src))

/-- The first raise in order, and the others in the order they were. -/
def firstRaise : List RaiseEv → Option (RaiseEv × List RaiseEv)
  | [] => none
  | e :: es =>
    match firstRaise es with
    | none => some (e, es)
    | some (m, rest) => if raiseBefore m e then some (m, e :: rest) else some (e, es)

/-- The next raise in order is appended, dropped or counted as unrouted. -/
def Dev.recordAppend (d : Dev) : Dev :=
  match firstRaise d.raised with
  | none => d
  | some (e, rest) => { d with raised := rest }.raiseArrives e

/-! ### Claims (R477-R480) -/

/-- The oldest record of the highest PRIO. -/
def bestRec : List RecH → Option RecH
  | [] => none
  | r :: rs =>
    match bestRec rs with
    | none => some r
    | some m => if r.prio < m.prio then some m else some r

/-- TAIL passes claimed records only (R478). -/
def dropClaimed : List RecH → List RecH
  | [] => []
  | r :: rs => if r.claimed then dropClaimed rs else r :: rs

/-- PND_RPRIO shows the stack of core `c`. -/
def Dev.rprioShow (d : Dev) (c : Nat) : Dev :=
  let st := (d.ring c).stack
  let mask := st.foldl (fun m p => m ||| 2 ^ p) 0
  d.w (PND_RPRIO c) (wordOf (mask * 65536 + st.length * 256 +
    (match st with
      | [] => 16
      | t :: _ => t)))

/-- Set the running-priority stack of core `c`, top first. -/
def Dev.setStack (d : Dev) (c : Nat) (st : List Nat) : Dev := (d.setRing c { d.ring c with stack := st }).rprioShow c

/-- The LAP of the record at index `i` of ring `c`: that of the present pass below HEAD, else that of the pass before. -/
def Dev.recLap (d : Dev) (c i : Nat) : Bool :=
  if i < d.f (PND_RING_PTR c) PND_RING_PTR_HEAD then (d.ring c).lap else !(d.ring c).lap

/-- Mark the record at index `i` claimed and advance TAIL (R478). -/
def Dev.ringClaim (d : Dev) (c i : Nat) : Dev :=
  let g := d.ring c
  let recs := dropClaimed (g.recs.map fun r => if r.idx = i then { r with claimed := true } else r)
  let tail := match recs with
    | r :: _ => r.idx
    | [] => d.f (PND_RING_PTR c) PND_RING_PTR_HEAD
  ((d.setRing c { g with recs := recs }).wf (PND_RING_PTR c) PND_RING_PTR_TAIL tail).ringShow c

/-- A read of PND_CLAIM by core `c` (R477, R479); `damaged`: the read-back of words +0x4 to +0xC ends with UE. -/
def Dev.claim (d : Dev) (c : Core) (damaged : Bool) : Dev × Word :=
  match bestRec (d.claimable c) with
  | none => (d, 0x80000000)
  | some r =>
    let a := d.ringBase c + 16 * r.idx
    let w (k : Nat) : Word := if damaged then 0 else wordOf (d.loadN (a + k) 4)
    let v := wordOf (recWord0 (d.recLap c r.idx) r.prio r.src + (if damaged then 0x40000000 else 0))
    let d1 := ((d.w (PND_CLM_W1 c) (w 4)).w (PND_CLM_W2 c) (w 8)).w (PND_CLM_W3 c) (w 12)
    let d2 := d1.ringClaim c r.idx
    ((d2.setStack c (r.prio :: (d.ring c).stack)).lineEval c, v)

/-- A write of PND_EOI by core `c` (R480). -/
def Dev.eoi (d : Dev) (c : Core) : Dev :=
  match (d.ring c).stack with
  | [] => d.set1 (PND_CPU_STATUS c) PND_CPU_STATUS_EOI_EMPTY
  | _ :: st => (d.setStack c st).lineEval c

/-- A reset of the core's domain or a lockup empties its stack; ring and records stay (R481). -/
def Dev.stackEmpty (d : Dev) (c : Core) : Dev := (d.setStack c []).lineEval c

/-! ### Routing (R466, R467) -/

/-- The entry of source `s` is fixed: lockup sources of cores 0-7 (R467). -/
def routeFixed (s : Nat) : Bool := routeReset s == 0x1F8

/-- A write of the routing entry of source `s`; sources raised on this tick still go by the old entry (R466). -/
def Dev.routeWrite (d : Dev) (s : Nat) (v : Word) : Dev :=
  if routeFixed s then d
  else
    let old := d.routeOf s
    { d with routeWas := tabSet (0, 512) d.routeWas s (d.beam, old) }.w (PND_ROUTE s) (wordOf (v.toNat % 512))

/-- A write of PND_DOORBELL: a source below 0x8000 ends with bus error PRIV (R468). -/
def Dev.doorbell (d : Dev) (q payload src : Nat) : Dev :=
  if src < 0x8000 then d.resp q 0 .priv else (d.raise src payload).resp q 0

/-! ### Meanings -/

/-- PND_DOORBELL (R468): a write of PND_DOORBELL. -/
def execPndDoorbell (q : Req) (payload src : BitVec 16) (s : State) : Host.Outcome State Fault Refusal :=
  s.done fun d =>
    match d.accessErr q PND_DOORBELL 4 true with
    | .none => d.doorbell q payload.toNat src.toNat
    | e => d.resp q 0 e

/-- RECORD_APPEND (R472): the next raise in order reaches the Pendant. -/
def execRecordAppend (s : State) : Host.Outcome State Fault Refusal := s.done fun d => d.recordAppend

/-- COALESCE_TIME_EXPIRY (R482): the time condition of core `c` is judged. -/
def execCoalesceTimeExpiry (c : Core) (s : State) : Host.Outcome State Fault Refusal := s.done fun d => d.lineEval c

/-- PND_CLAIM (R477): a read of PND_CLAIM by core `c`. -/
def execPndClaim (c : Core) (damaged : Bool) (s : State) : Host.Outcome State Fault Refusal :=
  s.done fun d => d.rd c 0xE0000000 fun d => d.claim c damaged

/-- PND_EOI (R480): a write of PND_EOI by core `c`. -/
def execPndEoi (c : Core) (s : State) : Host.Outcome State Fault Refusal :=
  s.done fun d => d.wr c 0xE0000010 fun d => d.eoi c

/-- RING_ENABLE (R475): a write of EN = 1 that leaves LOG2SIZE as it is. -/
def execRingEnable (q : Req) (c : Core) (s : State) : Host.Outcome State Fault Refusal :=
  s.done fun d => d.wr q (PND_RING_CFG c) fun d => (d.ringEnable c).lineEval c

/-- RING_DISABLE (R475): a write of EN = 0 that leaves LOG2SIZE as it is. -/
def execRingDisable (q : Req) (c : Core) (s : State) : Host.Outcome State Fault Refusal :=
  s.done fun d => d.wr q (PND_RING_CFG c) fun d => (d.ringDisable c).lineEval c

end Sys2Proof.Machine
end

