-- ==== Sys2Proof/Machine/EccArb.lean ====
section
/-! DEFINITION. Array errors, the scrubber and the credit arbiter (spec/15_memory_ecc_arbitration.md). -/

namespace Sys2Proof.Machine
open Sys2Proof

/-! ### Banks (R486, R488) -/

/-- The bank of array `a` that holds the byte at offset `o`. -/
def bankOf (a o : Nat) : Nat :=
  if a < 6 then nfield o 3 3 ^^^ nfield o 6 3 ^^^ nfield o 9 3
  else if a = 6 then nfield o 3 6 ^^^ nfield o 9 6 ^^^ nfield o 15 6 ^^^ nfield o 21 3
  else if a = 7 ∨ a = 14 then nfield o 3 2
  else 0

/-- Base address of array `a` (core 8's private RAM by its alias). -/
def arrayBase (a : Nat) : Nat :=
  if a < 6 then 0x20000000 + a * 0x100000
  else if a = 6 then 0x10000000
  else if a = 7 then 0x48280000
  else if a < 14 then 0x40100000 + (a - 8) * 0x1000000
  else 0x40000

/-- Size of array `a` in bytes. -/
def arraySize (a : Nat) : Nat :=
  if a < 6 then 0x80000 else if a = 6 then 0xC00000 else if a = 7 then 0x20000 else if a < 14 then 0x10000 else 0x40000

/-- The global place of the word of array `a` at address `x`. -/
def arrayPlace (a x : Nat) : Nat := if a = 14 then 0x200000000000 + x else x

/-! ### Classifying a read (R492-R497) -/

/-- The valid log entry of array `a` for the word at `x`. -/
def Dev.eccEntry (d : Dev) (a x : Nat) : Option Nat :=
  (List.range 16).find? fun e =>
    d.b (ECC_LOG_ADDR a e) ECC_LOG_ADDR_VALID && d.f (ECC_LOG_ADDR a e) ECC_LOG_ADDR_ADDR == x / 8 % 2 ^ 29

/-- The lowest-numbered invalid entry of array `a`. -/
def Dev.eccFree (d : Dev) (a : Nat) : Option Nat :=
  (List.range 16).find? fun e => !(d.b (ECC_LOG_ADDR a e) ECC_LOG_ADDR_VALID)

/-- Log an error of `bits` bits at the word `x` of array `a`, found by requester `req` (R493). -/
def Dev.eccLog (d : Dev) (a x req bits : Nat) : Dev :=
  match d.eccEntry a x with
  | some e =>
    let d := d.incSat (ECC_LOG_INFO a e) ECC_LOG_INFO_HITS
    let d := d.wf (ECC_LOG_INFO a e) ECC_LOG_INFO_REQ req
    d.wf (ECC_LOG_INFO a e) ECC_LOG_INFO_BITS (max bits (d.f (ECC_LOG_INFO a e) ECC_LOG_INFO_BITS))
  | none =>
    match d.eccFree a with
    | some e =>
      let d := (d.wf (ECC_LOG_ADDR a e) ECC_LOG_ADDR_ADDR (x / 8)).set1 (ECC_LOG_ADDR a e) ECC_LOG_ADDR_VALID
      let d := d.wf (ECC_LOG_INFO a e) ECC_LOG_INFO_HITS 1
      (d.wf (ECC_LOG_INFO a e) ECC_LOG_INFO_REQ req).wf (ECC_LOG_INFO a e) ECC_LOG_INFO_BITS bits
    | none => d.set1 ECC_STATUS ⟨a, 1⟩

/-- Writing 1 to VALID frees entry `e` and sets its INFO word to 0 (R493). -/
def Dev.eccFreeEntry (d : Dev) (a e : Nat) : Dev :=
  (d.clr (ECC_LOG_ADDR a e) ECC_LOG_ADDR_VALID).w (ECC_LOG_INFO a e) 0

/-- Count a correctable error of array `a` (R492, R494). -/
def Dev.eccCount (d : Dev) (a : Nat) : Dev :=
  let n := d.f (ECC_CE_CNT a) ECC_CE_CNT_CE
  let d := d.incSat (ECC_CE_CNT a) ECC_CE_CNT_CE
  let m := d.f (ECC_CE_CNT a) ECC_CE_CNT_CE
  let thr := d.f (ECC_CE_THR a) ECC_CE_THR_THR
  d.raiseIf (n != m && thr != 0 && m % thr == 0) 0x0008 a

/-- A correctable error of `bits` bits. -/
def Dev.eccCorrect (d : Dev) (a x req bits : Nat) : Dev := (d.eccCount a).eccLog a x req bits

/-- A transient uncorrectable error (R496). -/
def Dev.eccTransient (d : Dev) (a x req : Nat) : Dev :=
  (((d.incSat (ECC_UE_CNT a) ECC_UE_CNT_TRANSIENT).eccLog a x req 3).diagT 1 a).raise 0x0009 (req * 256 + a)

/-- A lasting uncorrectable error (R496). -/
def Dev.eccLasting (d : Dev) (a x req : Nat) : Dev :=
  let d := d.incSat (ECC_UE_CNT a) ECC_UE_CNT_LASTING
  let d := d.wf (ECC_UE_ADDR a) ECC_UE_ADDR_ADDR (x / 8)
  ((d.set1 ECC_STATUS ⟨16 + a, 1⟩).diagL 1 a).raise 0x000A (req * 256 + a)

/-- What a read of the word at `x` of array `a` by requester `req` finds, and on the re-read (R492, R496). -/
def Dev.eccRead (d : Dev) (a x req : Nat) (first second : Ecc) : Dev :=
  match first with
  | .clean => d
  | .bits1 => d.eccCorrect a x req 1
  | .bits2 => d.eccCorrect a x req 2
  | .uncorrectable => if second = .uncorrectable then d.eccLasting a x req else d.eccTransient a x req

/-- An error in a cache line: counted and logged as a correctable error of array 15, the line discarded (R495). -/
def Dev.eccLine (d : Dev) (x req : Nat) (first : Ecc) : Dev :=
  match first with
  | .clean => d
  | e =>
    let d := d.eccCorrect 15 x req (match e with
      | .bits2 => 2
      | .uncorrectable => 3
      | _ => 1)
    let keep (l : Tab Nat) : Tab Nat := l.filter fun y => decide (y.1 ≠ latchKey (x / 32) req)
    { d with icache := keep d.icache, dcache := keep d.dcache }

/-! ### The arbiter (R503-R506) -/

/-- The port that serves address `x` of target `t` (R487, R490). -/
def portOf (t x : Nat) : Nat := (t + 1) * 64 + (if t < 15 then bankOf t (x - arrayBase t) else 0)

/-- The key of requester `r` at port `p`. -/
def portKey (p r : Nat) : Nat := p * 16 + r

/-- The credit of requester `r` in force in this window. -/
def Dev.creditIn (d : Dev) (r : Nat) : Nat :=
  match tabGet 0 d.credits r with
  | 0 => creditReset r
  | k + 1 => k

/-- The credit counter of requester `r` at port `p`. -/
def Dev.counter (d : Dev) (p r : Nat) : Nat :=
  match tabGet 0 d.credits (portKey p r) with
  | 0 => d.creditIn r
  | k + 1 => k

/-- A window start: counters are refilled, back-offs and losses end (R503, R505). -/
def Dev.windowStart (d : Dev) : Dev :=
  { d with
    credits := (List.range 16).foldl (fun t r => tabSet 0 t r (d.f (ARB_CREDIT r) ARB_CREDIT_CREDIT + 1)) []
    losses := []
    backoff := [] }

/-- Requester `r` is backed off at port `p`. -/
def Dev.backedOff (d : Dev) (p r : Nat) : Bool := tabGet 0 d.backoff (portKey p r) != 0

/-- Which of the requesters wins the slot: the highest counter, then the lower number. -/
def Dev.winner (d : Dev) (p : Nat) : List Nat → Option Nat
  | [] => none
  | r :: rs =>
    match d.winner p rs with
    | none => some r
    | some w =>
      if d.counter p w < d.counter p r ∨ (d.counter p w = d.counter p r ∧ r ≤ w) then some r else some w

/-- The back-off of a requester after its `k`th consecutive loss. -/
def backoffSlots (k : Nat) : Nat := min 64 (2 ^ (k - 1))

/-- `n` slots pass at port `p`. -/
def Dev.slotsPass (d : Dev) (p n : Nat) : Dev :=
  { d with backoff := (d.backoff.map fun x =>
      (x.1, if p * 16 ≤ x.1 ∧ x.1 < p * 16 + 16 then x.2 - n else x.2)).filter fun x => decide (x.2 ≠ 0) }

/-- Requester `r` loses a slot at port `p` (R505). -/
def Dev.loseSlot (d : Dev) (p r : Nat) : Dev :=
  let k := tabGet 0 d.losses (portKey p r) + 1
  { d with
    losses := tabSet 0 d.losses (portKey p r) k
    backoff := tabSet 0 d.backoff (portKey p r) (backoffSlots k) }

/-- Requester `w` is granted `slots` slots at port `p`, having waited `waited` ticks (R503, R505). -/
def Dev.granted (d : Dev) (p w slots waited : Nat) : Dev :=
  let k := portKey p w
  let d := { d with
    credits := tabSet 0 d.credits k (d.counter p w - slots + 1)
    losses := tabSet 0 d.losses k 0
    backoff := tabSet 0 d.backoff k 0 }
  let d := d.incSat (ARB_GRANTS w) ARB_GRANTS_CNT
  d.wf (ARB_MAXWAIT w) ARB_MAXWAIT_CNT (max waited (d.f (ARB_MAXWAIT w) ARB_MAXWAIT_CNT))

/-- The read part of an access found an uncorrectable error and was read again (R496). -/
def accReread (a : ArrayAcc) : Bool := a.kind != .writeWord && a.first == .uncorrectable

/-- The access writes a corrected word back (R492, R496). -/
def accWriteBack (a : ArrayAcc) : Bool :=
  a.kind != .writeWord && (a.first == .bits1 || a.first == .bits2 ||
    (a.first == .uncorrectable && a.second != .uncorrectable))

/-- Slots charged to the winner: one, or two for a read-modify-write, and one for a re-read (R487, R496). -/
def accSlots (a : ArrayAcc) : Nat := (if a.kind = .readModifyWrite then 2 else 1) + b2n (accReread a)

/-- What the access finds in its array and what its requester is answered; the instruction of a core that makes the access
finds UE at that word (log entry 15). -/
def Dev.accessRead (d : Dev) (w : Nat) (a : ArrayAcc) : Dev :=
  if a.kind = .writeWord ∨ 16 ≤ a.target then d
  else if a.target = 15 then d.eccLine a.addr.toNat w a.first
  else
    let d := d.eccRead a.target a.addr.toNat w a.first a.second
    if a.first = .uncorrectable ∧ a.second = .uncorrectable ∧ w < 12 then
      let d := d.resp w 0 .ue
      if w < 9 then d.setCore w { d.core w with ue := some (arrayPlace a.target a.addr.toNat / 8) } else d
    else d

/-- The requester of a private port's access (R489): the island core of a TCM, core 8 of its RAM; for the rods and the trace
writer the spec gives no number, and REQ is a free value. -/
def Dev.privateReq (d : Dev) (t : Nat) : Nat × Dev :=
  if t < 6 then (t, d) else if t = 14 then (8, d) else (d.freeVal % 16, d.freeNext)

/-- One slot at a target: the requesters that wait there, and the access of the winner. With no requester waiting at the
spine port, the private port has the slot (R489). -/
def Dev.arrayAccess (d : Dev) (waiting : List Nat) (a : ArrayAcc) : Dev :=
  let p := portOf a.target a.addr.toNat
  let elapsed := (accSlots a) + b2n (accWriteBack a)
  if waiting = [] then
    let (w, d) := d.privateReq a.target
    d.accessRead w a
  else
    let pre := if a.preempt then waiting.find? fun r => r == 11 || r == 14 else none
    let ready := waiting.filter fun r => !(d.backedOff p r)
    match (match pre with
      | some r => some r
      | none => d.winner p ready) with
    | none => d.slotsPass p 1
    | some w =>
      let d := if pre.isSome then
          d.incSat ARB_PREEMPT (if w = 11 then ARB_PREEMPT_DEBUG else ARB_PREEMPT_SIGNET)
        else d
      let d := d.slotsPass p 1
      let d := d.each (ready.filter fun r => r != w) fun d r => d.loseSlot p r
      ((d.granted p w (accSlots a) a.waited).slotsPass p (elapsed - 1)).accessRead w a

/-- The sum of all credits with that of `r` replaced by `v`. -/
def Dev.creditSum (d : Dev) (r v : Nat) : Nat :=
  (List.range 16).foldl (fun n i => n + if i = r then v else d.f (ARB_CREDIT i) ARB_CREDIT_CREDIT) 0

/-- A write of ARB_CREDIT (R503, R507). -/
def Dev.creditWrite (d : Dev) (r v : Nat) : Dev :=
  let n := d.creditSum r v
  if 64 < n then d.set1 ARB_STATUS ARB_STATUS_BAD_SUM
  else (d.wf (ARB_CREDIT r) ARB_CREDIT_CREDIT v).wf ARB_STATUS ARB_STATUS_SUM n

/-! ### The scrubber (R499, R500) -/

/-- Array `a` can be scrubbed: it exists and some of it has power. -/
def Dev.scrubbable (d : Dev) (a : Nat) : Bool :=
  if a = 6 then (List.range 16).any fun k => d.powered (39 + k)
  else !(d.absent (arrayPlace a (arrayBase a))) && !(d.unpowered (arrayPlace a (arrayBase a)))

/-- The first array from `a` on that can be scrubbed. -/
def Dev.scrubNext (d : Dev) (a : Nat) : Option Nat :=
  (List.range 15).find? fun b => decide (a ≤ b) && d.scrubbable b

/-- Ticks of a pass: INT seconds (ECC_SCRUB_CTL). -/
def Dev.scrubTicks (d : Dev) : Nat :=
  min 604800 (max 1 (d.f ECC_SCRUB_CTL ECC_SCRUB_CTL_INT)) * (1000 * msTicks)

/-- The array and address of the next word to be scrubbed. -/
def Dev.scrubPos (d : Dev) : Option (Nat × Nat) :=
  let a := d.f ECC_SCRUB_STATUS ECC_SCRUB_STATUS_ARRAY
  let x := (d.r ECC_SCRUB_POS).toNat
  if d.scrubbable a && decide (arrayBase a ≤ x ∧ x < arrayBase a + arraySize a) then some (a, x)
  else (d.scrubNext a).map fun b => (b, arrayBase b)

/-- The pass ends (R500). -/
def Dev.passEnd (d : Dev) : Dev :=
  let d := d.incSat ECC_SCRUB_STATUS ECC_SCRUB_STATUS_PASSES
  let d := d.raise 0x000B (d.f ECC_SCRUB_STATUS ECC_SCRUB_STATUS_PASSES)
  let a := (d.scrubNext 0).getD 0
  let d := (d.wf ECC_SCRUB_STATUS ECC_SCRUB_STATUS_ARRAY a).w ECC_SCRUB_POS (wordOf (arrayBase a))
  { d with scrubAt := d.beam }

/-- The scrubber moves past the word at `x` of array `a`. -/
def Dev.scrubStep (d : Dev) (a x : Nat) : Dev :=
  if x + 8 < arrayBase a + arraySize a then
    (d.wf ECC_SCRUB_STATUS ECC_SCRUB_STATUS_ARRAY a).w ECC_SCRUB_POS (wordOf (x + 8))
  else
    match d.scrubNext (a + 1) with
    | some b => (d.wf ECC_SCRUB_STATUS ECC_SCRUB_STATUS_ARRAY b).w ECC_SCRUB_POS (wordOf (arrayBase b))
    | none => d.passEnd

/-- The scrubber reads its next word as requester 15; a word of a bank without power is passed over. -/
def Dev.scrubRead (d : Dev) (first second : Ecc) : Dev :=
  if d.b ECC_SCRUB_CTL ECC_SCRUB_CTL_EN then
    match d.scrubPos with
    | some (a, x) =>
      let d := if d.unpowered (arrayPlace a x) then d else d.eccRead a x 15 first second
      d.scrubStep a x
    | none => d
  else d

/-- The pass has not ended INT seconds after it began. -/
def Dev.scrubLateNow (d : Dev) : Bool :=
  d.b ECC_SCRUB_CTL ECC_SCRUB_CTL_EN && decide (d.scrubAt + d.scrubTicks ≤ d.beam)

/-! ### Meanings -/

/-- ARRAY_ACCESS (R487, R504): a slot of a target's port. -/
def execArrayAccess (waiting : List (Fin 16)) (a : ArrayAcc) (s : State) : Host.Outcome State Fault Refusal :=
  s.done fun d => d.arrayAccess (waiting.map fun r => r.val) a

/-- ARB_WINDOW_START (R503): a tick that is a multiple of 128; after R92 windows start with the ring reference (R508). -/
def execArbWindowStart (s : State) : Host.Outcome State Fault Refusal :=
  s.done fun d => if d.ticking && d.beam % 128 == 0 then d.windowStart else d

/-- ARB_CREDIT_WRITE (R507): a write of ARB_CREDIT. -/
def execArbCreditWrite (q : Req) (r : Fin 16) (v : BitVec 8) (s : State) : Host.Outcome State Fault Refusal :=
  s.done fun d => d.wr q (ARB_CREDIT r) fun d => d.creditWrite r v.toNat

/-- SCRUB_READ (R499): the scrubber's next read, with what it finds. -/
def execScrubRead (first second : Ecc) (s : State) : Host.Outcome State Fault Refusal :=
  s.done fun d => d.scrubRead first second

/-- SCRUB_LATE (R500): INT seconds have passed since the pass began. -/
def execScrubLate (s : State) : Host.Outcome State Fault Refusal :=
  s.done fun d => d.setIf d.scrubLateNow ECC_SCRUB_STATUS ECC_SCRUB_STATUS_SCRUB_LATE

end Sys2Proof.Machine
end

