-- ==== Sys2Proof/Machine/ClaspBase.lean ====
section
/-! DEFINITION. The status word and the source of the clasps, and how a register clasp is lost
(spec/11_clasp_transactions.md R381-R384). -/

namespace Sys2Proof.Machine
open Sys2Proof

/-- Bits of the status word (R383). -/
def cLOST : Nat := 31
def cBADMODE : Nat := 30
def cBUSY : Nat := 29
def cROUTE : Nat := 28
def cLOCKED : Nat := 27
def cFULL : Nat := 26
def cREFUSED : Nat := 25
def cLATE : Nat := 24

/-- The states of a clasp (R383). -/
def csNone : Nat := 0
def csOpen : Nat := 1
def csPending : Nat := 2
def csCommitted : Nat := 3
def csAborted : Nat := 4
def csFailed : Nat := 5

/-- The status word with flag `i` set. -/
def claspFlag (st i : Nat) : Nat := nbitSet st i true

/-- The status word with another STATE. -/
def claspState (st x : Nat) : Nat := st - st % 16 + x

/-- Raise the clasp source of core `c` with bits of its status word as payload (R384). -/
def Dev.claspRaise (d : Dev) (c ts : Nat) : Dev :=
  let st := (d.clasp c).status
  d.raiseAt (0x40 + c) (nfield st 24 8 * 256 + nfield st 0 8) ts

/-- The clasp of core `c` ends with STATE `x`: it is held no longer; its status word stays (R383). -/
def Dev.claspEnd (d : Dev) (c x : Nat) : Dev :=
  d.setClasp c { status := claspState (d.clasp c).status x }

/-- The clasp of core `c` fails (R374-R379, R382, R384). -/
def Dev.claspFail (d : Dev) (c : Nat) : Dev := (d.claspEnd c csFailed).claspRaise c d.beam

/-- Set a flag in the status word of core `c`. -/
def Dev.claspSet (d : Dev) (c i : Nat) : Dev :=
  d.setClasp c { d.clasp c with status := claspFlag (d.clasp c).status i }

/-- A reset or lockup of core `c`, or R92, ends its register clasp with LOST (R382). -/
def Dev.claspLost (d : Dev) (c : Nat) : Dev :=
  if (d.clasp c).held && !(d.clasp c).ledger then (d.claspSet c cLOST).claspFail c else d

end Sys2Proof.Machine
end

