-- ==== Sys2Proof/Machine/Beam.lean ====
section
/-! DEFINITION. The Beam time base (spec/03_beam_and_tally.md R85-R101, R673, R674): lock, the choice of a copy, the loss of
both, reads of the count and of train time. -/

namespace Sys2Proof.Machine
open Sys2Proof

/-! ### The copies and their loss -/

/-- The PLL locks for the first time after power-on reset: the count starts at 0, and START goes on with step 2 (R86;
spec/20_modes_power_boot.md R632). -/
def Dev.pllLock (d : Dev) : Dev :=
  if d.b BEAM_STATUS BEAM_STATUS_PLL_LOCK || d.lost || d.power.resetHeld then d
  else
    let d := if d.power.boot.isSome then d.wf PWR_BOOT PWR_BOOT_STAGE 2 else d
    let d := d.set1 BEAM_STATUS BEAM_STATUS_PLL_LOCK
    let d := (d.set1 BEAM_STATUS BEAM_STATUS_A_OK).set1 BEAM_STATUS BEAM_STATUS_B_OK
    { d with beam := 0, stage := 0 }

/-- Every blanking window of island `n` ends, and an active line trips (spec/04_pwm.md R159). -/
def Dev.blankOff (d : Dev) (n : Isl) : Dev :=
  d.each (List.finRange 24) fun d l =>
    let d := d.setLine n l {}
    if d.lineActive n l then d.lineTrips n l else d

/-- The switch forwards between ports 0 and 1, but for a loop block, and drives CHN_FWD high: by the device mode, or after
the loss of the Beam as it did before (spec/19_chain_and_can.md R600, R601). -/
def Dev.chnFwd (d : Dev) : Bool :=
  d.b CHN_SW_CTL CHN_SW_CTL_EN && d.powered 9 && d.powered 10 && d.powered 13 && decide (mSetup ≤ d.mode) &&
  (match d.net.fwdLost with
    | some b => b
    | none => d.mode != mSafe || d.b CHN_SW_CTL CHN_SW_CTL_FWD_SAFE)

/-- The time servo goes to OFF; source 0x0125 if it was LOCKED (spec/19_chain_and_can.md R597). -/
def Dev.servoOff (d : Dev) : Dev :=
  ({ d with net := { d.net with servo := 0, good := 0 } }).raiseIf (d.net.servo == 2) 0x0125

/-- Both copies are unusable (R92); the first finding stands (R673). -/
def Dev.beamLost (d : Dev) (cause : Nat) : Dev :=
  if d.lost then d
  else
    let d := { d with net := { d.net with fwdLost := some d.chnFwd } }
    let d := d.servoOff
    let d := (d.set1 BEAM_STATUS BEAM_STATUS_LOST).wf BEAM_STATUS BEAM_STATUS_CAUSE cause
    let d := (d.clr BEAM_STATUS BEAM_STATUS_A_OK).clr BEAM_STATUS BEAM_STATUS_B_OK
    let d := d.raise 0x0011 cause
    let d := d.islandsSafe d.present PWR_SAFE_CAUSE_BEAM
    let d := d.each ((List.finRange 6).filter fun (n : Fin 6) => d.hasIsl n) fun d (n : Fin 6) => (d.blankOff n).beadForceAll n true
    d.each (List.range 9) fun d c => d.claspLost c

/-- A mismatch on this tick and what the ring check finds of Beam B (R89, R90). -/
def Dev.mismatch (d : Dev) (byOne stalledB : Bool) : Dev :=
  if d.lost || d.b BEAM_STATUS BEAM_STATUS_SOLE_B then d
  else if d.power.plausB && byOne && !stalledB then
    let d := (d.clr BEAM_STATUS BEAM_STATUS_A_OK).set1 BEAM_STATUS BEAM_STATUS_SOLE_B
    let d := (d.w BEAM_SWITCH_LO (wordOf d.beam)).w BEAM_SWITCH_HI (wordOf (d.beam / 4294967296))
    d.raise 0x0010
  else d.beamLost 3

/-- A count lies within BEAM_RING_LIM (R88). -/
def Dev.plausible (d : Dev) (n : Nat) : Bool :=
  decide (d.f BEAM_RING_LIM BEAM_RING_LIM_MIN ≤ n ∧ n ≤ d.f BEAM_RING_LIM BEAM_RING_LIM_MAX)

/-- A window of the ring reference ends with these counts (R88, R91, R94, R673, R674). -/
def Dev.ringWindow (d : Dev) (a b : Nat) : Dev :=
  let d := (d.wf BEAM_RING BEAM_RING_LAST_A a).wf BEAM_RING BEAM_RING_LAST_B b
  if d.lost then d.windowStart
  else if !(d.b BEAM_STATUS BEAM_STATUS_PLL_LOCK) then d
  else
    let pa := d.plausible a
    let pb := d.plausible b
    let d := { d with power := { d.power with plausB := pb } }
    let sole := d.b BEAM_STATUS BEAM_STATUS_SOLE_B
    let d := d.setBit BEAM_STATUS 0 (pa && !sole)
    let d := d.setBit BEAM_STATUS 1 pb
    if (if sole then pb else pa) then d else d.beamLost 2

/-- No tick of a copy within 100 ns (R88, R91, R673, R674). -/
def Dev.stalled (d : Dev) (copyB : Bool) : Dev :=
  if d.lost then d
  else if copyB = d.b BEAM_STATUS BEAM_STATUS_SOLE_B then d.beamLost 1
  else if copyB then d.clr BEAM_STATUS BEAM_STATUS_B_OK
  else d

/-- The PLL loses its lock (R91). -/
def Dev.unlocked (d : Dev) : Dev :=
  if d.b BEAM_STATUS BEAM_STATUS_PLL_LOCK then (d.clr BEAM_STATUS BEAM_STATUS_PLL_LOCK).beamLost 4 else d

/-! ### Reads (R95-R101) -/

/-- The offset of train time in force, as 64 bits. -/
def Dev.ttOffset (d : Dev) : Nat := d.lat latOfs 0

/-- Train time in nanoseconds on this tick, as 64 bits (R99). -/
def Dev.trainTime (d : Dev) : Nat := (2 * d.beam + d.ttOffset) % 18446744073709551616

/-- A read of BEAM_COUNT_LO (R95). -/
def Dev.countRead (d : Dev) (q : Nat) : Dev × Word :=
  (d.setLat latCount q (nfield d.beam 32 32), wordOf d.beam)

/-- A read of BEAM_SWITCH_LO (R96). -/
def Dev.switchRead (d : Dev) (q : Nat) : Dev × Word :=
  (d.setLat latCount q (d.r BEAM_SWITCH_HI).toNat, d.r BEAM_SWITCH_LO)

/-- A read of BEAM_TT_LO (R99). -/
def Dev.trainRead (d : Dev) (q : Nat) : Dev × Word :=
  (d.setLat latTT q (nfield d.trainTime 32 32), wordOf d.trainTime)

/-- A write of BEAM_TT_OFS_LO is held in the register (R100). -/
def Dev.ofsLo (d : Dev) (v : Word) : Dev := d.w BEAM_TT_OFS_LO v

/-- A write of BEAM_TT_OFS_HI applies both halves (R100, R101). -/
def Dev.ofsHi (d : Dev) (v : Word) : Dev :=
  let d := d.w BEAM_TT_OFS_HI v
  let new := (d.r BEAM_TT_OFS_LO).toNat + v.toNat * 4294967296
  let old := d.ttOffset
  let first := !(d.b BEAM_STATUS BEAM_STATUS_TT_VALID)
  let d := (d.setLat latOfs 0 new).wf BEAM_STATUS BEAM_STATUS_TT_VALID 1
  if !first && decide (1000 < (sext 64 new - sext 64 old).natAbs) then
    (d.set1 BEAM_STATUS BEAM_STATUS_TT_STEP).raise 0x0012
  else d

/-! ### Meanings -/

/-- PLL_LOCK (R86): the PLL locks after power-on reset. -/
def execPllLock (s : State) : Host.Outcome State Fault Refusal := s.done fun d => d.pllLock

/-- BEAM_MISMATCH (R89): the copies differ on this tick. -/
def execBeamMismatch (byOne stalledB : Bool) (s : State) : Host.Outcome State Fault Refusal :=
  s.done fun d => if d.ticking then d.mismatch byOne stalledB else d

/-- RING_WINDOW_END (R88): a window of the ring reference ends. -/
def execRingWindowEnd (ticksA ticksB : Fin 1024) (s : State) : Host.Outcome State Fault Refusal :=
  s.done fun d => d.ringWindow ticksA ticksB

/-- BEAM_STALL (R88): no tick of a copy arrived within 100 ns. -/
def execBeamStall (copyB : Bool) (s : State) : Host.Outcome State Fault Refusal :=
  s.done fun d => if d.ticking then d.stalled copyB else d

/-- PLL_LOCK_LOST (R91): the PLL has lost its lock. -/
def execPllLockLost (s : State) : Host.Outcome State Fault Refusal := s.done fun d => d.unlocked

/-- BEAM_COUNT_READ (R95): a read of BEAM_COUNT_LO. -/
def execBeamCountRead (q : Req) (s : State) : Host.Outcome State Fault Refusal :=
  s.done fun d => d.rd q BEAM_COUNT_LO fun d => d.countRead q

/-- BEAM_SWITCH_READ (R96): a read of BEAM_SWITCH_LO. -/
def execBeamSwitchRead (q : Req) (s : State) : Host.Outcome State Fault Refusal :=
  s.done fun d => d.rd q BEAM_SWITCH_LO fun d => d.switchRead q

/-- TRAIN_TIME_READ (R99): a read of BEAM_TT_LO. -/
def execTrainTimeRead (q : Req) (s : State) : Host.Outcome State Fault Refusal :=
  s.done fun d => d.rd q BEAM_TT_LO fun d => d.trainRead q

/-- TT_OFFSET_LO_WRITE (R100): a write of BEAM_TT_OFS_LO. -/
def execTtOffsetLoWrite (q : Req) (v : Word) (s : State) : Host.Outcome State Fault Refusal :=
  s.done fun d => d.wr q BEAM_TT_OFS_LO fun d => d.ofsLo v

/-- TT_OFFSET_HI_WRITE (R100): a write of BEAM_TT_OFS_HI. -/
def execTtOffsetHiWrite (q : Req) (v : Word) (s : State) : Host.Outcome State Fault Refusal :=
  s.done fun d => d.wr q BEAM_TT_OFS_HI fun d => d.ofsHi v

end Sys2Proof.Machine
end

