-- ==== Sys2Proof/Machine/Ledger.lean ====
section
/-! DEFINITION. The Signet Ledger engine (spec/17_signet_ledger.md): records and slots, record writes and how they merge,
the hold-up check, commits, the cache, refresh, last gasp and the capacitance test. -/

namespace Sys2Proof.Machine
open Sys2Proof

/-! ### Status codes (spec/00_scope.md, conventions) -/

def stOK : Nat := 0
def stBUSY : Nat := 1
def stDENIED : Nat := 2
def stBADARG : Nat := 3
def stABSENT : Nat := 4
def stHOLDUP : Nat := 5
def stNOSESS : Nat := 6
def stRATE : Nat := 7
def stLOOP : Nat := 8
def stTIMEOUT : Nat := 9
def stFAILED : Nat := 10
def stWORN : Nat := 11

/-! ### Bytes -/

/-- `n` bytes of a number, little-endian. -/
def leBytes (x : Nat) : Nat → List Byte
  | 0 => []
  | n + 1 => BitVec.ofNat 8 x :: leBytes (x / 256) n

/-- The number that bytes spell, little-endian. -/
def leNat : List Byte → Nat
  | [] => 0
  | b :: bs => b.toNat + 256 * leNat bs

/-- The number that bytes spell, big-endian. -/
def beNat (bs : List Byte) : Nat := leNat bs.reverse

/-- `n` bytes of a list from offset `o`. -/
def slice (bs : List Byte) (o n : Nat) : List Byte := (bs.drop o).take n

/-- Bytes `new` put over a list from offset `o`. -/
def overwrite (bs : List Byte) (o : Nat) (new : List Byte) : List Byte :=
  bs.take o ++ new ++ bs.drop (o + new.length)

/-! ### Record writes (R533, R534) -/

/-- Bytes of `new` where the mask has a 1. -/
def maskBytes (mask : Nat) : List Byte → List Byte → List Byte
  | o :: os, n :: ns => (if mask % 2 = 1 then n else o) :: maskBytes (mask / 2) os ns
  | os, _ => os

/-- A counter with a signed amount added; it saturates at 0 and 2^64 - 1 (R534). -/
def counterAdd (v : Nat) (x : Int) : Nat := (clampInt 0 18446744073709551615 (v + x)).toNat

/-- The user bytes of a record after a write. -/
def lwApply (data : List Byte) (w : LWrite) : List Byte :=
  match w.op with
  | 1 => overwrite data (8 * w.k) (leBytes w.val 8)
  | 2 => overwrite data (8 * w.k) (leBytes (counterAdd (leNat (slice data (8 * w.k) 8)) (sext 128 w.val)) 8)
  | 3 => maskBytes w.val data w.bytes
  | 6 => w.bytes
  | _ => data

/-- The write of two merged writes of one record, where they merge: `old` came first (R533). -/
def lwJoin (old new : LWrite) : Option LWrite :=
  if old.rec_ ≠ new.rec_ then none
  else match old.op, new.op with
    | 0, 0 => some new
    | 1, 1 => if old.k = new.k then some new else none
    | 2, 1 => if old.k = new.k then some new else none
    | 1, 2 => if old.k = new.k then some { old with val := counterAdd old.val (sext 128 new.val) } else none
    | 2, 2 =>
      if old.k = new.k then
        some { old with val := ((sext 128 old.val + sext 128 new.val) % (2 ^ 128 : Nat)).toNat }
      else none
    | 3, 3 => some { old with val := old.val ||| new.val, bytes := maskBytes new.val old.bytes new.bytes }
    | _, _ => none

/-- Merge a write into writes listed newest first; a retype of its record ends the search. -/
def lwMergeRev (w : LWrite) : List LWrite → Option (List LWrite)
  | [] => none
  | x :: xs =>
    match lwJoin x w with
    | some y => some (y :: xs)
    | none => if x.rec_ = w.rec_ ∧ x.op = 0 then none else (lwMergeRev w xs).map fun l => x :: l

/-- Add a write to a clasp's writes. -/
def lwAdd (ws : List LWrite) (w : LWrite) : List LWrite :=
  match lwMergeRev w ws.reverse with
  | some l => l.reverse
  | none => ws ++ [w]

/-- The half of a log entry that pairs with `w`, taken out of the writes. -/
def logPair (w : LWrite) : List LWrite → Option (LWrite × List LWrite)
  | [] => none
  | x :: xs =>
    if x.rec_ = w.rec_ ∧ x.op + w.op = 9 then some (x, xs)
    else (logPair w xs).map fun p => (p.1, x :: p.2)

/-- Enter a write into a held clasp: the two halves of one record form one record write (R569). -/
def claspEnter (ws : List LWrite) (w : LWrite) : List LWrite :=
  if w.op = 4 ∨ w.op = 5 then
    match logPair w ws with
    | some (x, rest) =>
      rest ++ [{ w with op := 6, bytes := if w.op = 5 then x.bytes ++ w.bytes else w.bytes ++ x.bytes }]
    | none => ws ++ [w]
  else ws ++ [w]

/-! ### Slots (R535-R538, R549) -/

def kSOLO : Nat := 1
def kPART : Nat := 2
def kJOURNAL : Nat := 3
def kREFRESH : Nat := 4
def kLG : Nat := 5

/-- Slots of the variant (R529). -/
def Dev.slotCount (d : Dev) : Nat := 12852 * d.part.ledgerMiB

def Dev.slot (d : Dev) (s : Nat) : Slot := tabGet {} d.ledger.slots s
def Dev.setSlot (d : Dev) (s : Nat) (x : Slot) : Dev :=
  { d with ledger := { d.ledger with slots := tabSet {} d.ledger.slots s x } }

/-- A journal slot with sequence number `seq` exists. -/
def Dev.journaled (d : Dev) (seq : Nat) : Bool :=
  d.ledger.slots.any fun e => (e.2.kind == kJOURNAL || e.2.kind == kLG) && e.2.seq == seq

/-- The slot holds a committed version (R538). -/
def Dev.slotCommitted (d : Dev) (x : Slot) : Bool :=
  x.kind == kSOLO || x.kind == kREFRESH || (x.kind == kPART && d.journaled x.seq)

/-- Slot `s` is in use: it holds the version of a record, or the journal of a version in use. -/
def Dev.slotUsed (d : Dev) (s : Nat) : Bool :=
  let x := d.slot s
  d.ledger.recs.any fun e =>
    match e.2.slot with
    | some t => t == s || ((x.kind == kJOURNAL || x.kind == kLG) && (d.slot t).kind == kPART && (d.slot t).seq == x.seq)
    | none => false

/-- Slot `s` may be written: not retired and not in use. -/
def Dev.slotFree (d : Dev) (s : Nat) : Bool := decide (s < d.slotCount) && !(d.slot s).bad && !(d.slotUsed s)

/-- The lowest number from `k` on that is not a key of a rising table. -/
def firstGap (k : Nat) : Tab Slot → Nat
  | [] => k
  | (j, _) :: t => if j = k then firstGap (k + 1) t else k

/-- Slot `s` may take a slot write of the commit with sequence number `seq`: it is free, and that commit has not written it. -/
def Dev.slotOpen (d : Dev) (seq s : Nat) : Bool := d.slotFree s && !((d.slot s).kind != 0 && (d.slot s).seq == seq)

/-- The fewest writes of any slot open to the commit with sequence number `seq`, and the lowest-numbered slot with as many. -/
def Dev.leastFree (d : Dev) (seq : Nat) : Option (Nat × Nat) :=
  let g := firstGap 0 d.ledger.slots
  let listed := (d.ledger.slots.filter fun e => d.slotOpen seq e.1).map fun e => (e.2.writes, e.1)
  let all := if g < d.slotCount then (0, g) :: listed else listed
  all.foldl (fun (m : Option (Nat × Nat)) e =>
    match m with
    | none => some e
    | some x => if e.1 < x.1 ∨ (e.1 = x.1 ∧ e.2 < x.2) then some e else m) none

/-- The present sequence number. -/
def Dev.seq (d : Dev) : Nat := (d.r SGN_SEQ_LO).toNat + (d.r SGN_SEQ_HI).toNat * 4294967296

/-- The free slot that the engine writes next: one of those with the fewest writes; the spec does not say which (log entry
5). -/
def Dev.pickSlot (d : Dev) : Option Nat × Dev :=
  match d.leastFree d.seq with
  | none => (none, d)
  | some (w, s) =>
    let k := d.freeVal % d.slotCount
    (some (if d.slotOpen d.seq k && (d.slot k).writes == w then k else s), d.freeNext)

/-- Powered days (R551). -/
def Dev.days (d : Dev) : Nat := (d.ledger.powered + d.beam) / (86400 * 1000 * msTicks)

/-- Slot registers of SGN_ follow the array (R549, R553). -/
def Dev.slotShow (d : Dev) : Dev :=
  let bad := (d.ledger.slots.filter fun e => e.2.bad).length
  let used := (d.ledger.slots.filter fun e => !e.2.bad && d.slotUsed e.1).length
  let free := d.slotCount - bad - used
  let mx := d.ledger.slots.foldl (fun m e => if e.2.bad then m else max m e.2.writes) 0
  let d := ((d.w SGN_FREE (wordOf free)).w SGN_RETIRED (wordOf bad)).w SGN_WEAR_MAX (wordOf mx)
  d.wf SGN_STATUS SGN_STATUS_DEVICE_WORN (b2n (decide (free < 1024)))

/-- Retire slot `s` (R549). -/
def Dev.retireSlot (d : Dev) (s : Nat) : Dev :=
  let d := (d.setSlot s { d.slot s with bad := true }).set1 SGN_STATUS SGN_STATUS_WORN_SEEN
  (d.raise 0x002A (s / 102)).diagL 5 0

/-- Write slot `s`; the header's WRITES counts one more. -/
def Dev.putSlot (d : Dev) (s : Nat) (x : Slot) : Dev :=
  let n := (d.slot s).writes + 1
  let d := d.setSlot s { x with writes := n, born := d.days, bad := false }
  if d.r SGN_WEAR_LIMIT ≤ wordOf n then d.retireSlot s else d

/-- A write whose read-back differs: the slot is retired and holds no version. -/
def Dev.spoilSlot (d : Dev) (s : Nat) : Dev :=
  (d.setSlot s { d.slot s with writes := (d.slot s).writes + 1, kind := 0 }).retireSlot s

/-- Write a slot and read it back; `bad` read-backs of it differ, and one is retried (R537). The slot written, or none. -/
def Dev.writeSlot (d : Dev) (x : Slot) (bad : Nat) : Option Nat × Dev :=
  match d.pickSlot with
  | (none, d) => (none, d)
  | (some s, d) =>
    if bad = 0 then (some s, d.putSlot s x)
    else
      let d := (d.spoilSlot s).incSat SGN_CNT SGN_CNT_VERIFY_RETRY
      let d := d.diagT 5 0
      match d.pickSlot with
      | (none, d) => (none, d)
      | (some t, d) => if bad = 1 then (some t, d.putSlot t x) else (none, d.spoilSlot t)

/-- Take the next sequence number. -/
def Dev.seqNext (d : Dev) : Nat × Dev :=
  let n := (d.seq + 1) % 2 ^ 48
  (n, (d.w SGN_SEQ_LO (wordOf n)).w SGN_SEQ_HI (wordOf (n / 4294967296)))

/-! ### Hold-up energy (R540) -/

/-- Division rounded up. -/
def ceilDiv (a b : Nat) : Nat := (a + b - 1) / b

/-- Longest time of a commit of `nw` slot writes in us (R539). -/
def tCommit (nw : Nat) : Nat := 100 + 25 * nw

/-- Energy in uJ that a commit of `nw` slot writes requires. -/
def Dev.eReq (d : Dev) (nw : Nat) : Nat := 100 + 10 * nw + ceilDiv (d.f SGN_EXT SGN_EXT_EXT_MW * tCommit nw) 1000

/-- E_LG: the energy of the last-gasp set. -/
def Dev.eLg (d : Dev) : Nat := if d.ledger.lg.length = 0 then 0 else d.eReq (d.ledger.lg.length + 1)

/-- Energy in uJ of the store at a voltage in mV. -/
def Dev.energyAt (d : Dev) (v : Nat) : Nat :=
  let m := d.f SGN_HUP_VMIN SGN_HUP_VMIN_VMIN
  ceilDiv ((d.r SGN_HUP_C).toNat * (v * v - m * m)) 2000000

/-- Energy at the newest reading. -/
def Dev.energy (d : Dev) : Nat := d.energyAt (d.f SGN_HUP_V SGN_HUP_V_V)

/-- E, E_LG, LG_OK and HUP_LOW are computed again; source 0x0003 is raised when HUP_LOW sets. -/
def Dev.hupEval (d : Dev) : Dev :=
  let e := d.energy
  let d := d.w SGN_HUP_E (wordOf e)
  let d := (d.wf SGN_LG SGN_LG_E_LG d.eLg).wf SGN_LG SGN_LG_M d.ledger.lg.length
  let d := d.wf SGN_STATUS SGN_STATUS_LG_OK (b2n (decide (d.eLg ≤ e)))
  if e < d.eReq 1 + d.eLg then
    if d.b SGN_STATUS SGN_STATUS_HUP_LOW then d
    else (d.wf SGN_STATUS SGN_STATUS_HUP_LOW 1).raise 0x0003 (e / 1000)
  else d.wf SGN_STATUS SGN_STATUS_HUP_LOW 0

/-- The energy suffices for a commit of `nw` slot writes and the last-gasp set. -/
def Dev.hupEnough (d : Dev) (nw : Nat) : Bool := decide (d.eReq nw + d.eLg ≤ d.energy)

/-! ### The bucket (R548) -/

/-- Tokens held; BUDGET_EMPTY while they are below 257. -/
def Dev.setBucket (d : Dev) (n : Nat) : Dev :=
  (d.w SGN_BUCKET (wordOf n)).wf SGN_STATUS SGN_STATUS_BUDGET_EMPTY (b2n (decide (n < 257)))

/-- Take `n` tokens. -/
def Dev.takeTokens (d : Dev) (n : Nat) : Dev :=
  { d.setBucket ((d.r SGN_BUCKET).toNat - n) with ledger := { d.ledger with moveW := d.ledger.moveW + n } }

/-! ### Commits (R534, R537-R539) -/

/-- Records of the log group of record `r`, in ring order. -/
def Dev.logGroup (d : Dev) (r : Nat) : List Nat :=
  (List.range (max 1 (d.lrec r).gcount)).map fun i => (d.lrec r).group + i

/-- The next record in ring order after `h`. -/
def Dev.logNext (d : Dev) (r h : Nat) : Nat :=
  let x := d.lrec r
  x.group + (h - x.group + 1) % max 1 x.gcount

/-- The highest VERSION of the group. -/
def logTop (recs : Tab LRec) (g : List Nat) : Nat := g.foldl (fun m i => max m (tabGet {} recs i).version) 0

/-- The head of the group of record `r` (R534): the record with the highest VERSION; of several that one clasp appended, the
last in ring order. -/
def Dev.logHead (d : Dev) (recs : Tab LRec) (r : Nat) : Option Nat :=
  let g := d.logGroup r
  let m := logTop recs g
  if m = 0 then none
  else
    let tops := g.filter fun i => (tabGet {} recs i).version == m
    match tops.find? fun i => (tabGet {} recs (d.logNext r i)).version != m with
    | some i => some i
    | none => tops.getLast?

/-- The record that the next append to the group of `r` goes to. -/
def Dev.logTarget (d : Dev) (recs : Tab LRec) (r : Nat) : Nat :=
  match d.logHead recs r with
  | some h => d.logNext r h
  | none => (d.lrec r).group

/-- One write applied to the records of a clasp: the records touched so far, and the table with them (R533, R570). -/
def Dev.planOne (d : Dev) (seq : Nat) (p : Tab LRec × List Nat) (w : LWrite) : Tab LRec × List Nat :=
  let t := if w.op = 6 then d.logTarget p.1 w.rec_ else w.rec_
  let x := tabGet {} p.1 t
  let y : LRec :=
    if w.op = 0 then
      { x with type := w.val % 256, minInt := w.val / 65536 % 65536, layout := w.layout, group := w.group,
               gcount := w.gcount, commits := 0 }
    else if w.op = 6 ∧ x.type = 0 then
      let n := d.lrec w.rec_
      { x with type := n.type, minInt := n.minInt, layout := n.layout, group := n.group, gcount := n.gcount }
    else x
  let y := { y with data := lwApply y.data w, version := seq,
                    commits := if w.op = 0 || p.2.contains t then y.commits else min 4294967295 (y.commits + 1) }
  (tabSet {} p.1 t y, if p.2.contains t then p.2 else p.2 ++ [t])

/-- The records after a clasp's writes, and which it touches. -/
def Dev.plan (d : Dev) (seq : Nat) (ws : List LWrite) : Tab LRec × List Nat :=
  ws.foldl (d.planOne seq) (d.ledger.recs, [])

/-- Slot writes of a clasp (R537). -/
def Dev.slotWrites (d : Dev) (c : LClasp) : Nat :=
  let n := (d.plan 1 c.writes).2.length
  if n = 1 then 1 else n + 1

/-- Write one slot per touched record, then the journal slot where there is more than one; `rb` lists how many read-backs of
each slot write differ. The slots written, or none if the commit is abandoned. -/
def Dev.writeAll (d : Dev) (recs : Tab LRec) (seq nw kind : Nat) : List Nat → List Nat → Option (List (Nat × Nat)) × Dev
  | [], _ => (some [], d)
  | r :: rs, rb =>
    match d.writeSlot { seq := seq, n := nw, kind := kind, record := r, data := (tabGet {} recs r).data } (rb.headD 0) with
    | (none, d) => (none, d)
    | (some s, d) =>
      match d.writeAll recs seq nw kind rs rb.tail with
      | (some l, d) => (some ((r, s) :: l), d)
      | (none, d) => (none, d)

/-- The new slots replace the old ones in the map. -/
def Dev.mapSlots (d : Dev) (recs : Tab LRec) (l : List (Nat × Nat)) : Dev :=
  d.each l fun d e =>
    let x := tabGet {} recs e.1
    d.setLrec e.1 { x with
      slot := some e.2, fallback := false, damaged := false, last := some d.beam, born := d.days
      tt := if d.b BEAM_STATUS BEAM_STATUS_TT_VALID then d.trainTime else 0 }

/-- The last-gasp buffer takes every committed write of its records (R543). -/
def Dev.bufTake (d : Dev) (ws : List LWrite) : Dev :=
  d.each ws fun d w =>
    if d.ledger.lg.contains w.rec_ then
      let b := tabGet [] d.ledger.buf w.rec_
      { d with ledger := { d.ledger with buf := tabSet [] d.ledger.buf w.rec_ (lwApply b w) } }
    else d

/-- The live record whose slot has the fewest writes. -/
def Dev.leastLive (d : Dev) : Option (Nat × Nat) :=
  d.ledger.recs.foldl (fun (m : Option (Nat × Nat)) e =>
    match e.2.slot with
    | none => m
    | some s =>
      let w := (d.slot s).writes
      match m with
      | none => some (w, e.1)
      | some x => if w < x.1 then some (w, e.1) else m) none

/-- Rewrite record `r` into the free slot with the fewest writes, with the same data (R550, R551). -/
def Dev.rewrite (d : Dev) (r : Nat) : Dev :=
  let (seq, d) := d.seqNext
  match d.writeSlot { seq := seq, n := 1, kind := kREFRESH, record := r, data := (d.lrec r).data } 0 with
  | (some s, d) => (d.setLrec r { d.lrec r with slot := some s, version := seq, born := d.days }).slotShow
  | (none, d) => d

/-- Static wear levelling before a commit (R550). -/
def Dev.level_ (d : Dev) : Dev :=
  match d.leastFree (d.seq + 1), d.leastLive with
  | some (wf, _), some (wl, r) =>
    if wl + (d.r SGN_LEVEL_GAP).toNat < wf ∧ 16 ≤ d.ledger.moveW then
      { d.rewrite r with ledger := { (d.rewrite r).ledger with moveW := 0 } }
    else d
  | _, _ => d

/-- Commit a clasp: its status (R537, R549). -/
def Dev.ledgerCommit (d : Dev) (c : LClasp) (rb : List Nat) : Nat × Dev :=
  let d := d.level_
  let (seq, d) := d.seqNext
  let (recs, touched) := d.plan seq c.writes
  let n := touched.length
  let nw := if n = 1 then 1 else n + 1
  let bad0 := (d.ledger.slots.filter fun e => e.2.bad).length
  let (l, d) := d.writeAll recs seq nw (if n = 1 then kSOLO else kPART) touched rb
  let d := d.takeTokens (nw + (rb.take nw).foldl (fun a b => a + min b 1) 0)
  let (l, d) :=
    match l with
    | none => (none, d)
    | some l =>
      if n = 1 then (some l, d)
      else match d.writeSlot { seq := seq, n := nw, kind := kJOURNAL } ((rb.drop n).headD 0) with
        | (some _, d) => (some l, d)
        | (none, d) => (none, d)
  match l with
  | none => (stFAILED, (d.slotShow).diagL 5 0)
  | some l =>
    let d := ((d.mapSlots recs l).bufTake c.writes).slotShow
    let bad1 := (d.ledger.slots.filter fun e => e.2.bad).length
    (if bad0 < bad1 then stWORN else stOK, d)

/-! ### Requests and the cache (R546, R547) -/

/-- The tick on which a write's record is due: MIN_INT past its last commit; for a log append, past that of its group. -/
def Dev.dueAt (d : Dev) (w : LWrite) : Nat :=
  let x := d.lrec (if w.op = 6 then (d.logHead d.ledger.recs w.rec_).getD w.rec_ else w.rec_)
  match x.last with
  | some t => t + max 10 (d.lrec w.rec_).minInt * msTicks
  | none => 0

/-- Every record of the clasp is due and the bucket holds its tokens. -/
def Dev.claspDue (d : Dev) (c : LClasp) : Bool :=
  c.writes.all (fun w => decide (d.dueAt w ≤ d.beam)) && decide (d.slotWrites c ≤ (d.r SGN_BUCKET).toNat)

/-- Two clasps share a record. -/
def sharesRec (a b : LClasp) : Bool := a.writes.any fun x => b.writes.any fun y => x.rec_ == y.rec_

/-- One clasp of several, in order; log appends are never merged. -/
def claspMerge (l : List LClasp) : LClasp :=
  l.foldl (fun m c =>
    { origins := m.origins ++ c.origins.filter fun o => !(m.origins.contains o)
      writes := c.writes.foldl (fun ws w => if w.op = 6 then ws ++ [w] else lwAdd ws w) m.writes }) {}

/-- Record writes held in the cache. -/
def Dev.cacheSize (d : Dev) : Nat := d.ledger.cache.foldl (fun n c => n + c.writes.length) 0

/-- A single log append of `c`: its record. -/
def logOnly (c : LClasp) : Option Nat :=
  match c.writes with
  | [w] => if w.op = 6 then some w.rec_ else none
  | _ => none

/-- Appends queued for the group of record `r`. -/
def Dev.queued (d : Dev) (r : Nat) : List LClasp :=
  d.ledger.logq.filter fun c =>
    match logOnly c with
    | some x => (d.lrec x).group == (d.lrec r).group
    | none => false

/-- A commit in progress, a capacitance test or a map not yet rebuilt holds the engine. -/
def Dev.engineFree (d : Dev) : Bool :=
  d.ledger.active.isNone && !(d.b SGN_STATUS SGN_STATUS_TESTING) && d.b SGN_STATUS SGN_STATUS_READY

/-- The engine starts a commit. -/
def Dev.startCommit (d : Dev) (c : LClasp) (deferred : Bool) : Dev :=
  { d.wf SGN_STATUS SGN_STATUS_BUSY 1 with ledger := { d.ledger with active := some (c, deferred), since := d.beam } }

/-- A refusal for want of energy is counted. -/
def Dev.holdupRefused (d : Dev) : Dev := d.incSat SGN_CNT SGN_CNT_HOLDUP_REFUSED

/-- A commit request reaches the engine: a status, or none when the commit has started (R540, R546, R547, R549). -/
def Dev.requestCommit (d : Dev) (c : LClasp) : Option Nat × Dev :=
  let d := d.hupEval
  if d.b SGN_STATUS SGN_STATUS_DEVICE_WORN then (some stWORN, d)
  else
    let late := !(d.claspDue c)
    match logOnly c with
    | some r =>
      if late || !(d.queued r).isEmpty then
        if 16 ≤ (d.queued r).length then (some stBUSY, d)
        else (some stRATE, { d with ledger := { d.ledger with logq := d.ledger.logq ++ [c] } })
      else if d.hupEnough (d.slotWrites c) then (none, d.startCommit c false)
      else (some stHOLDUP, d.holdupRefused)
    | none =>
      let sharing := d.ledger.cache.filter (sharesRec c)
      if late || !sharing.isEmpty then
        let m := claspMerge (sharing ++ [c])
        let rest := d.ledger.cache.filter fun x => !(sharesRec c x)
        if 1024 < rest.foldl (fun n x => n + x.writes.length) m.writes.length then
          (some stBUSY, d.set1 SGN_STATUS SGN_STATUS_CACHE_FULL)
        else (some stRATE, { d with ledger := { d.ledger with cache := rest ++ [m] } })
      else if d.hupEnough (d.slotWrites c) then (none, d.startCommit c false)
      else (some stHOLDUP, d.holdupRefused)

/-- Report the outcome of a deferred clasp to each origin (R546, R555). -/
def Dev.reportDeferred (d : Dev) (c : LClasp) (st : Nat) : Dev :=
  d.each c.origins fun d o =>
    if st = stOK ∨ st = stWORN then d.raise 0x0028 (o * 256) else d.raise 0x0029 (o * 256 + st)

/-- The waiting clasps: the cache, then the first queued append of each group. -/
def Dev.waitingClasps (d : Dev) : List LClasp :=
  d.ledger.cache ++ d.ledger.logq.filter fun c =>
    match logOnly c with
    | some r => (d.queued r).head? == some c
    | none => false

/-- Remove the first clasp equal to `c`. -/
def dropClasp (c : LClasp) : List LClasp → List LClasp
  | [] => []
  | x :: xs => if x = c then xs else x :: dropClasp c xs

/-- Take a clasp out of the cache or the queues. -/
def Dev.unqueue (d : Dev) (c : LClasp) : Dev :=
  if d.ledger.cache.contains c then { d with ledger := { d.ledger with cache := dropClasp c d.ledger.cache } }
  else { d with ledger := { d.ledger with logq := dropClasp c d.ledger.logq } }

/-- A waiting clasp is tried (R546, R547, R549). -/
def Dev.tryDeferred (d : Dev) (c : LClasp) : Dev :=
  if d.engineFree && d.claspDue c && decide (d.ledger.retryAt ≤ d.beam) then
    let d := d.hupEval
    if d.b SGN_STATUS SGN_STATUS_DEVICE_WORN then (d.unqueue c).reportDeferred c stWORN
    else if d.hupEnough (d.slotWrites c) then (d.unqueue c).startCommit c true
    else
      let d := d.holdupRefused
      { d with ledger := { d.ledger with retryAt := d.beam + 10 * msTicks } }.at_ (d.beam + 10 * msTicks) .holdupRetry
  else d

/-- The commit in progress ends: its status, and whether its clasp was deferred (R538). -/
def Dev.commitEnd (d : Dev) (rb : List Nat) : Option (LClasp × Bool × Nat) × Dev :=
  match d.ledger.active with
  | none => (none, d)
  | some (c, deferred) =>
    let (st, d) := d.ledgerCommit c rb
    let d := { d.wf SGN_STATUS SGN_STATUS_BUSY 0 with ledger := { d.ledger with active := none } }
    (some (c, deferred, st), if deferred then d.reportDeferred c st else d)

/-- Every waiting clasp commits at once, whatever MIN_INT and the bucket (R547, entry to DORMANT). -/
def Dev.flushDeferred (d : Dev) : Dev :=
  let l := d.ledger.cache ++ d.ledger.logq
  let d := { d with ledger := { d.ledger with cache := [], logq := [] } }
  d.each l fun d c =>
    let d := d.hupEval
    if d.b SGN_STATUS SGN_STATUS_DEVICE_WORN then d.reportDeferred c stWORN
    else if d.hupEnough (d.slotWrites c) then
      let (st, d) := d.ledgerCommit c []
      d.reportDeferred c st
    else d.holdupRefused.reportDeferred c stHOLDUP

/-! ### Last gasp, rebuild, refresh (R538, R543-R545, R551, R552) -/

/-- Members whose buffered value differs from the committed version. -/
def Dev.gaspRecs (d : Dev) : List Nat :=
  d.ledger.lg.filter fun r => decide (tabGet [] d.ledger.buf r ≠ (d.lrec r).data)

/-- The last gasp commits the changed members as PART slots and an LG_JOURNAL slot, saves the bucket and loses the cache
(R544). -/
def Dev.gasp (d : Dev) : Dev :=
  let d :=
    if d.b SGN_STATUS SGN_STATUS_READY && !d.gaspRecs.isEmpty then
      let l := d.gaspRecs
      let nw := l.length + 1
      let (seq, d) := d.seqNext
      let recs := l.foldl (fun t r =>
        tabSet {} t r { tabGet {} t r with data := tabGet [] d.ledger.buf r, version := seq,
                                           commits := min 4294967295 ((tabGet {} t r).commits + 1) }) d.ledger.recs
      match d.writeAll recs seq nw kPART l [] with
      | (some m, d) =>
        match d.writeSlot { seq := seq, n := nw, kind := kLG } 0 with
        | (some _, d) => (d.mapSlots recs m).slotShow
        | (none, d) => d
      | (none, d) => d
    else d
  { d with ledger := { d.ledger with saved := (d.r SGN_BUCKET).toNat, cache := [], logq := [] } }

/-- The committed slots of record `r`. -/
def Dev.versions (d : Dev) (r : Nat) : List (Nat × Slot) :=
  d.ledger.slots.filter fun e => e.2.record == r && e.2.kind != kJOURNAL && e.2.kind != kLG && d.slotCommitted e.2

/-- The committed slot of record `r` with the highest SEQ below `lim`. -/
def Dev.newest (d : Dev) (r lim : Nat) : Option (Nat × Slot) :=
  (d.versions r).foldl (fun (m : Option (Nat × Slot)) e =>
    if lim ≤ e.2.seq then m
    else match m with
      | none => some e
      | some x => if x.2.seq < e.2.seq then some e else m) none

/-- Show version `e` of record `r`. -/
def Dev.showVersion (d : Dev) (r : Nat) (e : Nat × Slot) (fb : Bool) : Dev :=
  d.setLrec r { d.lrec r with slot := some e.1, data := e.2.data, version := e.2.seq, born := e.2.born, fallback := fb,
                              damaged := false }

/-- The map is rebuilt from the slot headers (R538), the last-gasp buffer loaded (R543), LG_FOUND judged (R545), the bucket
set to what was saved (R548). -/
def Dev.rebuild (d : Dev) : Dev :=
  let d := d.each (d.ledger.recs.map fun e => e.1) fun d r =>
    let d := d.setLrec r { d.lrec r with last := none }
    match d.newest r (2 ^ 48) with
    | some e => d.showVersion r e false
    | none => d
  let buf := d.ledger.lg.foldl (fun t r => tabSet [] t r (d.lrec r).data) []
  let top := d.ledger.slots.foldl (fun m e => max m e.2.seq) 0
  let d := (d.w SGN_SEQ_LO (wordOf top)).w SGN_SEQ_HI (wordOf (top / 4294967296))
  let d := { d with ledger := { d.ledger with buf := buf } }
  let d := (d.setBucket d.ledger.saved).slotShow
  let d := { d with ledger := { d.ledger with saved := 0 } }
  d.wf SGN_STATUS SGN_STATUS_READY 1

/-- LG_FOUND is judged (R545): the last committed clasp has an LG_JOURNAL slot. -/
def Dev.lgJudge (d : Dev) : Dev :=
  let done := d.ledger.slots.filter fun e => e.2.kind == kLG || d.slotCommitted e.2
  let top := done.foldl (fun m e => max m e.2.seq) 0
  match done.find? fun e => e.2.kind == kLG && e.2.seq == top with
  | some e => (d.set1 SGN_STATUS SGN_STATUS_LG_FOUND).raise 0x002C (e.2.n - 1)
  | none => d

/-- Refresh interval in days. -/
def Dev.refreshDays (d : Dev) : Nat := min 730 (max 1 (d.f SGN_REFRESH SGN_REFRESH_REFRESH_DAYS))

/-- Age in powered days of the version of record `r`. -/
def Dev.age (d : Dev) (r : Nat) : Nat := d.days - (d.lrec r).born

/-- Some live record is as old as REFRESH_DAYS. -/
def Dev.refreshOwed (d : Dev) : Bool :=
  d.ledger.recs.any fun e => e.2.slot.isSome && decide (d.refreshDays ≤ d.age e.1)

/-- Record `r` is refreshed (R551; after a 2-bit correction R552). -/
def Dev.refresh (d : Dev) (r : Nat) : Dev :=
  if (d.lrec r).slot.isSome && d.b SGN_STATUS SGN_STATUS_READY then
    let owed := d.refreshOwed
    let d := d.setIf (decide (730 ≤ d.age r)) SGN_STATUS SGN_STATUS_REFRESH_LATE
    let d := d.rewrite r
    if owed && !d.refreshOwed then
      { d with ledger := { d.ledger with passes := d.ledger.passes + 1 } }.raise 0x002B (d.ledger.passes + 1)
    else d
  else d

/-- A read of the slot of record `r` ended with UE (R552). -/
def Dev.slotLost (d : Dev) (r : Nat) : Dev :=
  match (d.lrec r).slot with
  | none => d
  | some s =>
    let d := d.setSlot s { d.slot s with kind := 0 }
    match d.newest r (d.lrec r).version with
    | some e => (d.showVersion r e true).raise 0x0029 0xFFFF
    | none => (d.setLrec r { d.lrec r with damaged := true, slot := none }).raise 0x0029 0xFFFF

/-! ### The window (R528-R532) -/

/-- Record `r` is one of Chozer's (R528, R529). -/
def Dev.reserved (d : Dev) (r : Nat) : Bool := decide (d.part.records - 8192 ≤ r)

/-- Record writes held in the cache for record `r`. -/
def Dev.pendWrites (d : Dev) (r : Nat) : Nat :=
  (d.ledger.cache ++ d.ledger.logq).foldl (fun n c => n + (c.writes.filter fun w => w.rec_ == r).length) 0

/-- Word `i` of the descriptor of record `r` (R530). -/
def Dev.descWord (d : Dev) (r i : Nat) : Word :=
  let x := d.lrec r
  let s := x.slot.getD 0
  if d.reserved r then 0
  else match i with
    | 0 => wordOf (x.minInt * 65536 + b2n x.damaged * 1024 + b2n x.fallback * 512 +
        b2n (d.ledger.lg.contains r) * 256 + x.type)
    | 1 => wordOf x.layout
    | 2 => wordOf x.group
    | 3 => wordOf x.gcount
    | 4 => wordOf x.version
    | 5 => wordOf (x.version / 4294967296)
    | 6 => wordOf x.commits
    | 7 => wordOf s
    | 8 => wordOf (if x.slot.isSome then (d.slot s).writes else 0)
    | 9 => wordOf (if x.slot.isSome then d.age r % 65536 else 0)
    | 10 => wordOf x.tt
    | 11 => wordOf (x.tt / 4294967296)
    | 12 => wordOf (d.pendWrites r % 65536)
    | _ => 0

/-- The word at address `a` of the ledger window (R39). -/
def Dev.ledgerWord (d : Dev) (a : Nat) : Word :=
  let r := a % 0x1000000 / 0x40
  let i := a % 0x40 / 4
  if a < 0x61000000 then
    if d.reserved r then 0 else wordOf (leNat (slice (d.lrec r).data (4 * i) 4))
  else d.descWord r i

/-- A read of the window: before READY it waits (no answer yet); a slot read that ends with UE shows an older version or ends
with UE (R532, R552). -/
def Dev.ledgerRead (d : Dev) (a : Nat) (ue : Bool) : Dev × Word × BErr :=
  let r := a % 0x1000000 / 0x40
  let d := if ue && decide (a < 0x61000000) && (d.lrec r).slot.isSome then d.slotLost r else d
  if (d.lrec r).damaged && decide (a < 0x61000000) && !(d.reserved r) then (d, 0, .ue)
  else (d, d.ledgerWord (a - a % 4), .none)

/-! ### The capacitance test (R541, R542) -/

/-- A test is asked for: by GO, by START, or TEST_DAYS powered days after the last. -/
def Dev.testOwed (d : Dev) : Bool :=
  d.ledger.test == 1 ||
  (d.ledger.test == 0 && decide (d.ledger.testAt + max 1 (d.f SGN_HUP_TEST SGN_HUP_TEST_TEST_DAYS) * (86400 * 1000 * msTicks) ≤
    d.ledger.powered + d.beam))

/-- The drop of TEST_DV would leave the energy of R541; with no estimate yet (C_EST = 0) the test is not held back. -/
def Dev.testEnergy (d : Dev) (v : Nat) : Bool :=
  (d.r SGN_HUP_C) == 0 ||
    decide (d.eReq 257 + d.eLg ≤ d.energyAt (v - d.f SGN_HUP_TLIM SGN_HUP_TLIM_TEST_DV))

/-- An attempt starts at a store voltage of `v` mV. -/
def Dev.testStart (d : Dev) (v phase : Nat) : Dev :=
  let d := (d.wf SGN_HUP_V SGN_HUP_V_V v).hupEval
  if d.ledger.active.isNone && d.testEnergy v then
    { d.wf SGN_STATUS SGN_STATUS_TESTING 1 with
      ledger := { d.ledger with test := phase, v1 := v, testAt := d.ledger.powered + d.beam } }
  else d

/-- The estimate of an attempt in uF, unless it fails (R541); equal voltages fail it. -/
def Dev.testC (d : Dev) (v dt : Nat) (timeout : Bool) : Option Nat :=
  if timeout ∨ d.ledger.v1 ≤ v then none
  else
    let c := d.f SGN_HUP_TEST SGN_HUP_TEST_I_MA * dt / (d.ledger.v1 - v)
    let old := (d.r SGN_HUP_C).toNat
    if old ≠ 0 ∧ old < 4 * (max c old - min c old) then none else some c

/-- A test is complete. -/
def Dev.testDone (d : Dev) (pass : Bool) : Dev :=
  { d with ledger := { d.ledger with test := 0 } }.raise 0x0004 (b2n (!pass))

/-- An attempt ends at `v` mV after `dt` us. -/
def Dev.testEnd (d : Dev) (v dt : Nat) (timeout : Bool) : Dev :=
  if d.b SGN_STATUS SGN_STATUS_TESTING then
    let first := d.ledger.test == 2
    let c := d.testC v dt timeout
    let d := (d.wf SGN_STATUS SGN_STATUS_TESTING 0).wf SGN_HUP_V SGN_HUP_V_V v
    match c with
    | some c =>
      let d := (d.w SGN_HUP_C (wordOf c)).testDone true
      (if first then d else d.diagT 7 0).hupEval
    | none =>
      if first then { d with ledger := { d.ledger with test := 3, testAt := d.ledger.powered + d.beam } }.hupEval
      else (((d.set1 SGN_STATUS SGN_STATUS_HUP_FAIL).testDone false).diagL 7 0).hupEval
  else d

/-! ### Meanings -/

/-- DEFERRED_CLASP_DUE (R546): waiting clasp `i` is tried. -/
def execDeferredClaspDue (i : Nat) (s : State) : Host.Outcome State Fault Refusal :=
  s.done fun d =>
    match d.waitingClasps[i]? with
    | some c => d.tryDeferred c
    | none => d

/-- HOLDUP_RETRY (R547): 10 ms after HOLDUP_LOW the first due clasp is tried again. -/
def execHoldupRetry (s : State) : Host.Outcome State Fault Refusal :=
  s.done fun d =>
    match d.waitingClasps.find? d.claspDue with
    | some c => d.tryDeferred c
    | none => d

/-- WEAR_TOKEN_GAIN (R548): a second has passed; the bucket gains RATE tokens. -/
def execWearTokenGain (s : State) : Host.Outcome State Fault Refusal :=
  s.done fun d => d.setBucket (min 16777216 ((d.r SGN_BUCKET).toNat + d.f SGN_BUDGET SGN_BUDGET_RATE))

/-- RECORD_REFRESH (R551): the version of a live record is rewritten. -/
def execRecordRefresh (r : Fin 262144) (s : State) : Host.Outcome State Fault Refusal :=
  s.done fun d => d.refresh r

/-- LEDGER_WINDOW_READ (R532): a read of the ledger window; before READY it waits, and the command has no effect. -/
def execLedgerWindowRead (q : Req) (a : Nat) (ue : Bool) (s : State) : Host.Outcome State Fault Refusal :=
  s.done fun d =>
    if placeOf a = .ledger then
      match d.accessErr q a 4 false with
      | .none =>
        if d.b SGN_STATUS SGN_STATUS_READY then
          let (d, v, e) := d.ledgerRead a ue
          d.resp q v e
        else d
      | e => d.resp q 0 e
    else d

/-- HUP_SENSE_SAMPLE (R540): a reading of the store voltage, in mV as SGN_HUP_DIV scales it. -/
def execHupSenseSample (v : BitVec 16) (s : State) : Host.Outcome State Fault Refusal :=
  s.done fun d => (d.wf SGN_HUP_V SGN_HUP_V_V v.toNat).hupEval

/-- CAPACITANCE_TEST_START (R541): HUP_TEST goes high and V1 is recorded. -/
def execCapacitanceTestStart (v : BitVec 16) (s : State) : Host.Outcome State Fault Refusal :=
  s.done fun d => if d.testOwed then d.testStart v.toNat 2 else d

/-- CAPACITANCE_TEST_END (R541): V has fallen by TEST_DV or TMAX has passed. -/
def execCapacitanceTestEnd (v : BitVec 16) (dt : Nat) (timeout : Bool) (s : State) : Host.Outcome State Fault Refusal :=
  s.done fun d => d.testEnd v.toNat dt timeout

/-- CAPACITANCE_TEST_REPEAT (R541): 10 s after a failed attempt the second one starts. -/
def execCapacitanceTestRepeat (v : BitVec 16) (s : State) : Host.Outcome State Fault Refusal :=
  s.done fun d =>
    if d.ledger.test == 3 && decide (d.ledger.testAt + 10000 * msTicks ≤ d.ledger.powered + d.beam) then
      d.testStart v.toNat 4
    else d

/-- HUP_TEST_GO (R541): a write of 1 to SGN_HUP_TEST.GO. -/
def execHupTestGo (q : Req) (s : State) : Host.Outcome State Fault Refusal :=
  s.done fun d => d.wr q SGN_HUP_TEST fun d =>
    if d.ledger.test = 0 then { d with ledger := { d.ledger with test := 1 } } else d

end Sys2Proof.Machine
end

