-- ==== Sys2Proof/Machine/CoreBase.lean ====
section
/-! DEFINITION. What reaches a core from outside its instructions: release, reset, lockup, halt
(spec/13_core_execution.md R458-R464, spec/18_chozer_mailboxes.md SYS_CORE_RESET). -/

namespace Sys2Proof.Machine
open Sys2Proof

/-- The source of core `c` with number `k` (R463). -/
def coreSrc (c k : Nat) : Nat := if c < 6 then islSrc c + 0x380 + k else 0x50 + 4 * (c - 6) + k

def Dev.lockedUp (d : Dev) (c : Nat) : Bool := d.b (CORE_STATUS c) CORE_STATUS_LOCKUP
def Dev.halted (d : Dev) (c : Nat) : Bool := d.b (DBG_STATUS c) DBG_STATUS_HALTED

/-- Some core is halted. -/
def Dev.anyHalted (d : Dev) : Bool := (List.range 9).any d.halted

/-- Core `c` locks up with a cause word (R458): its clasp is lost, its running-priority stack emptied (spec/14_pendant.md
R481), its source raised (core 8 has none), and island `c` of an island core enters SAFE. -/
def Dev.lockup (d : Dev) (c : Core) (cause : Nat) : Dev :=
  let d := (d.set1 (CORE_STATUS c) CORE_STATUS_LOCKUP).claspLost c
  let d := (d.stackEmpty c).diagL 3 c
  let d := d.raiseIf (c.val != 8) (coreSrc c 2) cause
  if c.val < 6 then d.islandsSafe (2 ^ c.val) PWR_SAFE_CAUSE_LOCKUP else d

/-- The power domain of core `c` (spec/20_modes_power_boot.md R630). -/
def coreDomain (c : Nat) : Nat := if c < 6 then 65 + 10 * c else if c < 8 then c + 1 else 2

/-- Registers of domain `k` take their reset values (spec/00_scope.md R8). -/
def Dev.regsReset (d : Dev) (k : Nat) : Dev :=
  { d with
    regs := d.regs.filter fun e => decide (domainOf e.1 ≠ k)
    shadow := d.shadow.filter fun s => decide (domainOf s.addr ≠ k)
    fresh := d.fresh.filter fun e => decide (domainOf e.1 ≠ k) }

/-- Entries of a cache that are not core `c`'s. -/
def notOf (c : Nat) (t : Tab Nat) : Tab Nat := t.filter fun e => decide (e.1 % 16 ≠ c)

/-- The values firmware loads into a core's `FW` registers (spec/13_core_execution.md ESC_SP, ESC_PC). -/
def Dev.coreFw (d : Dev) (c : Nat) : Dev :=
  let d := d.wf (ESC_SP c) ESC_SP_P (if c < 6 then 0x20000 else Config.fwValue (ESC_SP c))
  d.wf (ESC_PC c) ESC_PC_P (Config.fwValue (ESC_PC c))

/-- Core `c` starts at RESET_PC in bank 0; with no image it locks up (spec/20_modes_power_boot.md R633). -/
def Dev.coreStart (d : Dev) (c : Core) : Dev :=
  let d := d.setCore c { run := true, pc := (d.r (RESET_PC c)).toNat }
  if d.bit PWR_BOOT (24 + c.val) && decide (c.val < 8) then d.lockup c 0 else d

/-- The parts of core `c` that a reset of its domain clears. -/
def Dev.coreClear (d : Dev) (c : Core) : Dev :=
  let pc := d.r (RESET_PC c)
  let was := d.halted c
  let d := (d.claspLost c).regsReset (coreDomain c)
  let d := { d with icache := notOf c d.icache, dcache := notOf c d.dcache,
                    bits := d.bits.filter fun e => decide (e.1 / 4096 ≠ c.val) }
  let d := ((d.setCore c {}).w (RESET_PC c) pc).stackEmpty c
  if was && !d.anyHalted then d.haltLeave else d

/-- SYS_CORE_RESET of core `c`: the domain is reset without being powered down. -/
def Dev.coreReset (d : Dev) (c : Core) : Dev := ((d.coreClear c).coreFw c).coreStart c

/-- Core `c` halts (R460, R461): REASON 1 request, 2 BRK, 3 STEP; the device enters HALT. -/
def Dev.haltCore (d : Dev) (c reason code : Nat) : Dev :=
  let d := (d.wf (DBG_STATUS c) DBG_STATUS_HALTED 1).wf (DBG_STATUS c) DBG_STATUS_REASON reason
  let d := (d.wf (DBG_STATUS c) DBG_STATUS_CODE code).wf (CORE_STATUS c) CORE_STATUS_HALTED 1
  let d := d.setCore c { d.core c with step1 := false }
  let d := if c = 8 ∧ d.b PWR_WDOG_CTL PWR_WDOG_CTL_EN ∧ ¬ d.b PWR_WDOG_STATUS PWR_WDOG_STATUS_PAUSED then
      { d.wf PWR_WDOG_STATUS PWR_WDOG_STATUS_PAUSED 1 with
        power := { d.power with paused := some (d.beam - d.power.kick) } }
    else d
  d.haltEnter

/-- Core `c` is no longer halted; once none is, the device leaves HALT; a paused watchdog counts on
(spec/21_failure_containment.md R643). -/
def Dev.unhaltCore (d : Dev) (c : Nat) : Dev :=
  let d := (d.wf (DBG_STATUS c) DBG_STATUS_HALTED 0).wf (CORE_STATUS c) CORE_STATUS_HALTED 0
  let d :=
    if c = 8 then
      match d.power.paused with
      | some k => { d.wf PWR_WDOG_STATUS PWR_WDOG_STATUS_PAUSED 0 with
                    power := { d.power with paused := none, kick := d.beam - k } }
      | none => d
    else d
  if d.anyHalted then d else d.haltLeave

end Sys2Proof.Machine
end

