-- ==== Sys2Proof/Machine/Domain.lean ====
section
/-! DEFINITION. Power domains (spec/20_modes_power_boot.md R630, R631) and the capability words (R637). -/

namespace Sys2Proof.Machine
open Sys2Proof

/-! ### Domains -/

/-- The domain is always-on (R630). -/
def alwaysOn (k : Nat) : Bool := k == 0 || k == 1 || (decide (64 ≤ k ∧ k < 124) && (k - 64) % 10 == 0)

/-- The domain has contents (R630). -/
def realDomain (k : Nat) : Bool := decide (k < 55) || decide (64 ≤ k ∧ k < 124)

/-- PWR_DOMAIN switches the domain (R630). -/
def switched (k : Nat) : Bool := realDomain k && !(alwaysOn k) && k != 2

/-- The domain exists in the variant (R637, R638). -/
def Dev.hasDomain (d : Dev) (k : Nat) : Bool :=
  realDomain k &&
  (if 64 ≤ k then d.hasIsl ((k - 64) / 10)
   else if k = 7 then d.part.hasCore 6
   else if k = 8 then d.part.hasCore 7
   else if k = 13 then d.part.hasSwitch
   else if 23 ≤ k ∧ k < 39 then decide (4 * (k - 23) < d.part.rods)
   else true)

/-- Entries of a table whose key is not unit `i` in `[lo, hi)` of island `n`. -/
def notUnit {α : Type} (n lo hi : Nat) (t : Tab α) : Tab α :=
  t.filter fun e => !(decide (uk n lo ≤ e.1 ∧ e.1 < uk n hi))

/-- Entries of a table whose key lies outside `[lo, hi)`. -/
def notKeys {α : Type} (lo hi : Nat) (t : Tab α) : Tab α := t.filter fun e => !(decide (lo ≤ e.1 ∧ e.1 < hi))

/-- What an island's domain `j` (65-73 less 64) holds beside its registers and arrays returns to its reset state; trip
latches lie in the always-on domain and stay. -/
def Dev.islandHidden (d : Dev) (n : Isl) (j : Nat) : Dev :=
  match j with
  | 1 => d.coreClear ⟨n.val, by omega⟩
  | 2 => { d with timers := notUnit n 0 16 d.timers }
  | 3 => d.each (List.range 16) fun d p =>
      d.setPair n p { latch := (d.pair n p).latch, clearAt := (d.pair n p).clearAt }
  | 4 => { d with chans := notUnit n 0 8 d.chans }
  | 5 => { d with chans := notUnit n 8 16 d.chans }
  | 6 => { d with sdms := notUnit n 0 8 d.sdms, sdclks := notUnit n 0 16 d.sdclks }
  | 7 => { d with fbks := notUnit n 0 2 d.fbks }
  | 8 => { d with beads := notUnit n 0 8 d.beads }
  | 9 => { d with sets := notKeys n.val (n.val + 1) d.sets, frames := notKeys n.val (n.val + 1) d.frames,
                  traces := notKeys n.val (n.val + 1) d.traces }
  | _ => d

/-- What domain `k` holds beside its registers and arrays returns to its reset state. -/
def Dev.hiddenReset (d : Dev) (k : Nat) : Dev :=
  if 64 ≤ k then
    if h : (k - 64) / 10 < 6 then d.islandHidden ⟨(k - 64) / 10, h⟩ ((k - 64) % 10) else d
  else if k = 2 then
    let d := d.coreClear 8
    let d := d.each (List.range 8) fun d c => if (d.clasp c).ledger then d.claspEnd c csAborted else d
    { d with chozer := { d.chozer with reqs := [], out := [], sess := [], debug := false }
             ledger := { d.ledger with held := [], log0 := [] } }
  else if k = 3 then { d with rings := [], raised := [], routeWas := [] }
  else if k = 4 then { d with dma := notUnit 0 0 16 d.dma, dmaBusy := notKeys 0 1 d.dmaBusy }
  else if k = 5 then { d with dma := notUnit 1 0 16 d.dma, dmaBusy := notKeys 1 2 d.dmaBusy }
  else if k = 6 then { d with credits := [], losses := [], backoff := [], go := none }
  else if k = 7 then d.coreClear 6
  else if k = 8 then d.coreClear 7
  else if 9 ≤ k ∧ k < 13 then
    { d with net := { d.net with gcl := notKeys (k - 9) (k - 8) d.net.gcl } }
  else if k = 13 then { d with net := { d.net with macs := [] } }
  else if 14 ≤ k ∧ k < 20 then { d with can := notKeys (k - 14) (k - 13) d.can }
  else if 23 ≤ k ∧ k < 39 then
    { d with rods := notKeys (4 * (k - 23)) (4 * (k - 22)) d.rods, presets := notKeys (128 * (k - 23)) (128 * (k - 22)) d.presets }
  else d

/-- Set or clear the bit that shows domain `k` powered. -/
def Dev.setPowered (d : Dev) (k : Nat) (v : Bool) : Dev := d.wf (PWR_DOM (k / 32)) ⟨k % 32, 1⟩ (b2n v)

/-- Registers, arrays and other state of domain `k` as after its power-up (R498, R631). -/
def Dev.domainClear (d : Dev) (k : Nat) : Dev :=
  let d := (d.hiddenReset k).regsReset k
  { d with mem := d.mem.filter fun c => decide (domainOf c.1 ≠ k) }

/-- Domain `k` powers down: its contents are lost. -/
def Dev.domainOff (d : Dev) (k : Nat) : Dev := (d.domainClear k).setPowered k false

/-- Domain `k` powers up: registers take their reset values and arrays are initialised before any access. -/
def Dev.domainOn (d : Dev) (k : Nat) : Dev :=
  if d.powered k then d else (d.domainClear k).setPowered k true

/-- Domain `k` serves an island in RUN (PWR_DOMAIN's precondition): an island's own domains; the rod groups assigned to it;
the Pendant, the interconnect and the law store serve every island (log entry 13). -/
def Dev.domainServes (d : Dev) (k : Nat) : Bool :=
  if 64 ≤ k then d.inRun ((k - 64) / 10)
  else if 23 ≤ k ∧ k < 39 then d.inRun (d.f (ABX_GRP_ASSIGN (k - 23)) ABX_GRP_ASSIGN_ISLAND)
  else (k == 3 || k == 6 || k == 22) && d.anyRun

/-! ### Capability words (R637) -/

/-- CAP_PART's code. -/
def Part.code : Part → Nat
  | .gvz1600 => 0x1600
  | .gvz3200 => 0x3200
  | .gvz6400 => 0x6400
  | .gvz9600 => 0x9600

/-- Cores 0-7 of the part as a mask. -/
def Part.coreMask (p : Part) : Nat := (List.range 8).foldl (fun m c => m + if p.hasCore c then 2 ^ c else 0) 0

/-- Domains present in the 32 from `32 w`. -/
def Dev.domMask (d : Dev) (w : Nat) : Nat :=
  (List.range 32).foldl (fun m i => m + if d.hasDomain (32 * w + i) then 2 ^ i else 0) 0

/-- Capability word `k`. -/
def Dev.capWord (d : Dev) (k : Nat) : Word :=
  let n := d.part.islands
  match k with
  | 0 => wordOf d.part.code
  | 1 => Config.capStep
  | 2 => wordOf (d.part.coreMask * 256 + (2 ^ n - 1))
  | 3 => wordOf ((2 ^ (d.part.rods / 4) - 1) * 256 + d.part.rods)
  | 4 => wordOf (16 * n * 0x1000000 + 16 * n * 0x10000 + 8 * n * 0x100 + 16 * n)
  | 5 => wordOf (4 * n * 0x10000 + 8 * n * 0x100 + 2 * n)
  | 6 => wordOf (0x40003000 + d.part.ledgerMiB * 0x10000)
  | 7 => wordOf (0x22604 + b2n d.part.hasSwitch * 16)
  | 8 => wordOf d.part.records
  | 9 => wordOf (64 * n)
  | 10 => 0x0000D87D
  | 11 => wordOf (d.domMask 0)
  | 12 => wordOf (d.domMask 1)
  | 13 => wordOf (d.domMask 2)
  | 14 => wordOf (d.domMask 3)
  | _ => 0

end Sys2Proof.Machine
end

