-- ==== Sys2Proof/Machine/Chozer.lean ====
section
/-! DEFINITION. Mailboxes and how Chozer takes and answers requests (spec/18_chozer_mailboxes.md R556-R566, R577-R584); the
SYS and PWR commands. -/

namespace Sys2Proof.Machine
open Sys2Proof

/-! ### Requests -/

/-- Word `i` of a request; word 0 is the header. -/
def rqw (rq : Request) (i : Nat) : Nat := ((rq.words[i]?).getD 0).toNat

/-- Fields of a header (R557). -/
def hdrCmd (h : Nat) : Nat := nfield h 20 12
def hdrSeq (h : Nat) : Nat := nfield h 12 8
def hdrLen (h : Nat) : Nat := nfield h 0 6

/-- A reply header. -/
def hdrMake (cmd seq st len : Nat) : Nat := cmd * 0x100000 + seq * 0x1000 + st * 0x100 + len

/-- The CMD codes of the command tables. -/
def knownCmd (c : Nat) : Bool :=
  decide (0x100 ≤ c ∧ c < 0x106) || decide (0x200 ≤ c ∧ c < 0x204) || decide (0x300 ≤ c ∧ c < 0x309) ||
  decide (0x400 ≤ c ∧ c < 0x405) || decide (0x500 ≤ c ∧ c < 0x504) || decide (0x600 ≤ c ∧ c < 0x608) ||
  decide (0x700 ≤ c ∧ c < 0x704)

/-- Origins of requests beyond mailboxes 0-15 and sessions 16-23: a challenge, a message without a session, an answer to
challenge `k` (32 + k). -/
def oCHAL : Nat := 24
def oNONE : Nat := 25
def oANSWER : Nat := 32

/-- Commands of a `VIEW` session (R584). -/
def viewCmds : List Nat := [0x100, 0x101, 0x200, 0x307, 0x308, 0x500, 0x503, 0x606, 0x700, 0x701, 0x403]

/-- Further commands of a `WORKSHOP` session (R584). -/
def workshopCmds : List Nat := [0x300, 0x301, 0x302, 0x303, 0x304]

/-- The command of a request is open to its requester (R584). -/
def Dev.cmdOpen (d : Dev) (rq : Request) : Bool :=
  let c := hdrCmd (rqw rq 0)
  if rq.origin < 16 then !([0x400, 0x401, 0x402, 0x403, 0x703].contains c)
  else if rq.origin < 24 then
    match (d.sess (rq.origin - 16)).role with
    | 0 => viewCmds.contains c
    | 1 => viewCmds.contains c || workshopCmds.contains c || (c == 0x102 && rqw rq 1 % 8 == 4)
    | _ => !([0x400, 0x401, 0x402].contains c)
  else if rq.origin = oCHAL then c == 0x400
  else c == 0x401 || c == 0x402

/-- Chozer answers: the device is beyond START, core 8 runs and is not halted, the watchdog has not expired (R618, R645). -/
def Dev.chozUp (d : Dev) : Bool := decide (mSetup ≤ d.mode) && d.managerUp && !(d.halted 8)

/-- A request's own commit is in progress: it is taken and not yet answered (R560). -/
def Dev.committing (d : Dev) : Bool :=
  match d.ledger.active with
  | some (_, false) => true
  | _ => false

/-! ### Replies -/

/-- Store words from register address `a` on. -/
def Dev.wWords (d : Dev) (a : Nat) : List Word → Dev
  | [] => d
  | w :: ws => (d.w a w).wWords (a + 4) ws

/-- Words as bytes, and bytes as words, little-endian (R557). -/
def wordBytes : List Word → List Byte
  | [] => []
  | w :: ws => leBytes w.toNat 4 ++ wordBytes ws

def bytesWords : Nat → List Byte → List Word
  | 0, _ => []
  | n + 1, bs => wordOf (leNat (bs.take 4)) :: bytesWords n (bs.drop 4)

/-- The TAG of a message of a session (R580); `dir` is 0x51 for a request, 0x52 for a reply. -/
def sessTag (token : List Byte) (dir sid ctr hdr : Nat) (pl : List Word) : List Byte :=
  (Config.hmac token (BitVec.ofNat 8 dir :: (leBytes sid 4 ++ leBytes ctr 4 ++ leBytes hdr 4 ++ wordBytes pl))).take 8

/-- A mailbox reply: payload first, header last; BUSY clears, DONE is set and the source raised on one tick (R559). -/
def Dev.mailboxReply (d : Dev) (m hdr st : Nat) (pl : List Word) : Dev :=
  let d := (d.wWords (MBX_RPL m 1) pl).w (MBX_RPL m 0) (wordOf (hdrMake (hdrCmd hdr) (hdrSeq hdr) st (4 * pl.length)))
  let d := (d.wf (MBX_STATUS m) MBX_STATUS_BUSY 0).wf (MBX_STATUS m) MBX_STATUS_DONE 1
  d.raise (0x60 + m) (st * 256 + hdrSeq hdr)

/-- A reply to an external message: SID and CTR of its request, TAG 0 outside a session (R578, R580). -/
def Dev.extReply (d : Dev) (x : ExtMsg) (tok : Option (List Byte)) (sid st : Nat) (pl : List Word) : Dev :=
  let h := hdrMake (hdrCmd x.hdr.toNat) (hdrSeq x.hdr.toNat) st (4 * pl.length)
  let tag := match tok with
    | some t => sessTag t 0x52 sid x.ctr.toNat h pl
    | none => List.replicate 8 0
  let msg := wordOf h :: wordOf sid :: x.ctr :: pl ++ bytesWords 2 tag
  { d with chozer := { d.chozer with out := d.chozer.out ++ [(x.link.val, msg)] } }

/-- Send the answer to a request. -/
def Dev.send (d : Dev) (rq : Request) (st : Nat) (pl : List Word) : Dev :=
  match rq.ext with
  | none => d.mailboxReply rq.origin (rqw rq 0) st pl
  | some x =>
    d.extReply x (if 16 ≤ rq.origin ∧ rq.origin < 24 then some (d.sess (rq.origin - 16)).token else none) x.sid.toNat st pl

/-- The status of a request that is answered without a command's own rules: no session, or a CMD that is not known
(R564). -/
def Dev.immediate (d : Dev) (rq : Request) : Option Nat :=
  if rq.origin = oNONE then some stNOSESS
  else if knownCmd (hdrCmd (rqw rq 0)) then none
  else some (if d.cmdOpen rq then stBADARG else stDENIED)

/-- Answer the requests at the front that need no command's rules. -/
def Dev.drainReqs (d : Dev) : List Request → Dev × List Request
  | [] => (d, [])
  | rq :: rs =>
    match d.immediate rq with
    | some st => (d.send rq st []).drainReqs rs
    | none => (d, rq :: rs)

/-- Chozer takes what it can answer at once. -/
def Dev.drain (d : Dev) : Dev :=
  if d.chozUp && !d.committing then
    let (d, l) := d.drainReqs d.chozer.reqs
    { d with chozer := { d.chozer with reqs := l } }
  else d

/-- Answer the front request and take it from the list. -/
def Dev.reply (d : Dev) (rq : Request) (st : Nat) (pl : List Word) : Dev :=
  let d := d.send rq st pl
  ({ d with chozer := { d.chozer with reqs := d.chozer.reqs.tail } }).drain

/-- Place a request among those of its tick: mailboxes first, in rising number, then external messages (R560). -/
def insertReq (rq : Request) : List Request → List Request
  | [] => [rq]
  | x :: l => if rq.tick = x.tick ∧ min rq.origin 16 < min x.origin 16 then rq :: x :: l else x :: insertReq rq l

/-- A request arrives (R560). -/
def Dev.arrive (d : Dev) (rq : Request) : Dev :=
  ({ d with chozer := { d.chozer with reqs := insertReq { rq with tick := d.beam } d.chozer.reqs } }).drain

/-- Chozer serves the front request, when its CMD is `cmd`: checks 2 and 3 of R564, then the command's own rules `f`, which
answer or leave the request for later. -/
def Dev.choz (d : Dev) (cmd : Nat) (lenOk : Request → Nat → Bool) (f : Dev → Request → Dev × Option (Nat × List Word)) :
    Dev :=
  match d.chozer.reqs with
  | [] => d
  | rq :: _ =>
    let h := rqw rq 0
    if hdrCmd h = cmd ∧ d.chozUp ∧ ¬ d.committing then
      if !(d.cmdOpen rq) then d.reply rq stDENIED []
      else if nfield h 6 6 ≠ 0 ∨ 60 < hdrLen h ∨ !(lenOk rq (hdrLen h)) then d.reply rq stBADARG []
      else match f d rq with
        | (d, some (st, pl)) => d.reply rq st pl
        | (d, none) => d
    else d

/-- A request of a fixed LEN. -/
def lenIs (n : Nat) : Request → Nat → Bool := fun _ l => l == n

/-- Answer with a status alone. -/
def ans (d : Dev) (st : Nat) (pl : List Word := []) : Dev × Option (Nat × List Word) := (d, some (st, pl))

/-- The device is in SETUP. -/
def Dev.inSetup (d : Dev) : Bool := d.mode == mSetup

/-- Reserved bits of `x` outside `mask` are 0. -/
def onlyBits (x mask : Nat) : Bool := x &&& mask == x

/-! ### Posts (R556, R558) -/

/-- A post of header `hdr` in mailbox `m`. -/
def Dev.post (d : Dev) (m : Nat) (hdr : Word) : Dev :=
  if d.b (MBX_STATUS m) MBX_STATUS_BUSY then d.set1 (MBX_STATUS m) MBX_STATUS_OVERRUN
  else
    let d := d.w (MBX_REQ m 0) hdr
    let d := (d.wf (MBX_STATUS m) MBX_STATUS_BUSY 1).wf (MBX_STATUS m) MBX_STATUS_DONE 0
    d.arrive { origin := m, words := (List.range 16).map fun k => d.r (MBX_REQ m k) }

/-- While EXPIRED is set the mailbox block answers TIMEOUT itself, on the tick after the post or the expiry (R645). -/
def Dev.timeoutReplies (d : Dev) : Dev :=
  if d.b PWR_WDOG_STATUS PWR_WDOG_STATUS_EXPIRED then
    let l := d.chozer.reqs.filter fun rq => rq.ext.isNone
    let d := { d with chozer := { d.chozer with reqs := [] } }
    let d := match d.ledger.active with
      | some (c, false) => { d with ledger := { d.ledger with active := some ({ c with origins := [] }, true) } }
      | _ => d
    d.each l fun d rq => d.mailboxReply rq.origin (rqw rq 0) stTIMEOUT []
  else d

/-- The routing entries of the reply sources follow the mailbox owners (R562). -/
def Dev.mailboxRoutes (d : Dev) : Dev :=
  d.each (List.range 16) fun d m => d.routeWrite (0x60 + m) (wordOf (0x180 + d.f (MBX_OWNER m) MBX_OWNER_OWNER))

/-! ### SYS and PWR -/

/-- Islands in RUN as a mask. -/
def Dev.runMask (d : Dev) : Nat := (List.range 6).foldl (fun m n => m + if d.inRun n then 2 ^ n else 0) 0

/-- Word 1 of PWR_STATUS. -/
def Dev.modeWord (d : Dev) : Word := wordOf (d.mode + d.safeMask * 0x100 + d.runMask * 0x10000)

/-- The islands of `m` may leave SAFE (R621), except for an image being applied. -/
def Dev.mayRun (d : Dev) (m : Nat) : Bool :=
  !d.lost && !(d.b FLG_SPINE_STATUS FLG_SPINE_STATUS_ROOT_FAULT) &&
  d.f PWR_SUP_STATUS PWR_SUP_STATUS_FAULT == 0 && d.f PWR_SUP_STATUS PWR_SUP_STATUS_VIO_FAULT == 0 &&
  !(d.b PWR_SUP_STATUS PWR_SUP_STATUS_PFAIL) && d.b SGN_STATUS SGN_STATUS_READY &&
  (List.range 6).all fun n => !(nbit m n) || !(d.lockedUp n)

/-- Some image is APPLYING (R588). -/
def Dev.applying (d : Dev) : Bool := (List.range 8).any fun i => (d.img i).state == 4

/-- Islands of `m` with no SAFE cause recorded on this tick (R622). -/
def Dev.uncaused (d : Dev) (m : Nat) : Nat :=
  (List.range 6).foldl (fun x n => x + if nbit m n && tabGet 0 d.fresh (PWR_SAFE_CAUSE n) == 0 then 2 ^ n else 0) 0

/-- SYS_MODE with MODE and ISLANDS (R619-R621, R624, R638). -/
def Dev.sysMode (d : Dev) (mode isl : Nat) : Dev × Nat :=
  if d.mode = mHalt then (d, stBUSY)
  else if isl &&& d.present ≠ isl then (d, stABSENT)
  else
    let m := if isl = 0 then d.present else isl
    if mode = mRun then
      if !(d.mayRun m) then (d, stDENIED)
      else if d.applying then (d, stBUSY)
      else
        let out := d.uncaused m
        let old := if d.mode = mRun then d.safeMask else d.present
        (d.setMode mRun (old - (old &&& out)), stOK)
    else if mode = mSafe then
      if d.mode ≠ mRun then (d, stDENIED)
      else if isl = 0 then (d.deviceSafe PWR_SAFE_CAUSE_REQUEST, stOK)
      else (d.islandsSafe m PWR_SAFE_CAUSE_REQUEST, stOK)
    else if d.mode = mRun ∨ d.mode = mSafe then ((d.setMode mSetup 0).mailboxRoutes, stOK)
    else (d, stDENIED)

/-- PWR_GOV's refusal under R75: FLOOR would lie above CEIL. -/
def Dev.govRefuses (d : Dev) (ceil floor : Nat) : Bool :=
  decide (min ceil 950 < min 950 (max (if d.anyRun then 750 else 650) floor))

/-! ### Meanings -/

/-- MAILBOX_POST (R558): a write of the request header. -/
def execMailboxPost (q : Req) (m : Fin 16) (hdr : Word) (s : State) : Host.Outcome State Fault Refusal :=
  s.done fun d => d.wr q (MBX_REQ m 0) fun d => d.post m hdr

/-- SYS_CAPS (R637): the capability words. -/
def execSysCaps (s : State) : Host.Outcome State Fault Refusal :=
  s.done fun d => d.choz 0x100 (lenIs 0) fun d _ => ans d stOK ((List.range 15).map d.capWord)

/-- SYS_INFO: versions, identity and image states. -/
def execSysInfo (s : State) : Host.Outcome State Fault Refusal :=
  s.done fun d => d.choz 0x101 (lenIs 0) fun d _ =>
    let slots := (List.range 8).foldl (fun m i => m + b2n (d.img i).runB * 2 ^ i) 0
    let trial := (List.range 8).foldl (fun m i => m + b2n ((d.img i).state == 6) * 2 ^ i) 0
    ans d stOK [Config.chozerVersion, wordOf (fget ⟨8, 8⟩ Config.capStep), wordOf Config.identity,
      wordOf (Config.identity / 4294967296), wordOf (slots + trial * 256), 0x00009600]

/-- SYS_MODE (R620): MODE and ISLANDS. -/
def execSysMode (s : State) : Host.Outcome State Fault Refusal :=
  s.done fun d => d.choz 0x102 (lenIs 4) fun d rq =>
    let v := rqw rq 1
    if !(onlyBits v 0x3F07) || decide (v % 8 < 2 ∨ 4 < v % 8) then ans d stBADARG
    else
      let (d, st) := d.sysMode (v % 8) (nfield v 8 6)
      ans d st (if st = stOK then [d.modeWord] else [])

/-- SYS_GRANT (R36): the write grant of an island; bit 11 stays. -/
def execSysGrant (s : State) : Host.Outcome State Fault Refusal :=
  s.done fun d => d.choz 0x103 (lenIs 4) fun d rq =>
    let v := rqw rq 1
    let n := nfield v 16 3
    if !(onlyBits v 0x70FFF) || decide (5 < n) then ans d stBADARG
    else if !(d.hasIsl n) then ans d stABSENT
    else if !d.inSetup then ans d stDENIED
    else
      let g := nfield v 0 11 + nfield (tabGet 0 d.grants n) 11 1 * 2048
      let d := { d with grants := tabSet 0 d.grants n g }
      ans d stOK [wordOf (d.grant n)]

/-- SYS_MBX: the owner of a mailbox (R556, R562). -/
def execSysMbx (s : State) : Host.Outcome State Fault Refusal :=
  s.done fun d => d.choz 0x104 (lenIs 4) fun d rq =>
    let v := rqw rq 1
    if !(onlyBits v 0x70F) then ans d stBADARG
    else if !(d.part.hasCore (nfield v 8 3)) then ans d stABSENT
    else if !d.inSetup then ans d stDENIED
    else if d.b (MBX_STATUS (v % 16)) MBX_STATUS_BUSY then ans d stBUSY
    else ans ((d.wf (MBX_OWNER (v % 16)) MBX_OWNER_OWNER (nfield v 8 3)).mailboxRoutes) stOK

/-- SYS_CORE_RESET: a reset of a core's domain (R629). -/
def execSysCoreReset (s : State) : Host.Outcome State Fault Refusal :=
  s.done fun d => d.choz 0x105 (lenIs 4) fun d rq =>
    let c := rqw rq 1
    if h : c < 8 then
      if !(d.part.hasCore c) then ans d stABSENT
      else if d.lockedUp c || d.inSetup || (decide (c < 6) && nbit d.safeMask c) then
        ans (d.coreReset ⟨c, by omega⟩) stOK
      else ans d stDENIED
    else ans d stBADARG

/-- PWR_STATUS: modes, supplies, governor and domains. -/
def execPwrStatus (s : State) : Host.Outcome State Fault Refusal :=
  s.done fun d => d.choz 0x200 (lenIs 0) fun d _ =>
    ans d stOK ([d.modeWord, d.r PWR_SUP_STATUS, d.govStatus] ++ (List.range 4).map fun w => d.r (PWR_DOM w))

/-- PWR_DOMAIN (R631): a switched domain is powered up or down; TIMEOUT where power-good does not follow. -/
def execPwrDomain (powerGood : Bool) (s : State) : Host.Outcome State Fault Refusal :=
  s.done fun d => d.choz 0x201 (lenIs 4) fun d rq =>
    let v := rqw rq 1
    let k := v % 128
    if !(onlyBits v 0x17F) then ans d stBADARG
    else if realDomain k && !(d.hasDomain k) then ans d stABSENT
    else if !(switched k) || d.domainServes k then ans d stDENIED
    else if nbit v 8 then
      if d.powered k then ans d stOK [1]
      else if powerGood then ans (d.domainOn k) stOK [1]
      else ans d stTIMEOUT
    else ans (d.domainOff k) stOK [0]

/-- PWR_GOV: the governor's registers (R75). -/
def execPwrGov (s : State) : Host.Outcome State Fault Refusal :=
  s.done fun d => d.choz 0x202 (lenIs 12) fun d rq =>
    let m := rqw rq 1
    let c := rqw rq 2
    let l := rqw rq 3
    if decide (3 < m) || (nbit m 0 && !(onlyBits c 0xFFFF7F07)) || (nbit m 1 && !(onlyBits l 0x03FF03FF)) then ans d stBADARG
    else if nbit m 0 && decide (nfield c 8 7 ≠ d.f PWR_GOV_CTL PWR_GOV_CTL_PMB_ADDR) && !d.inSetup then ans d stDENIED
    else if nbit m 1 && d.govRefuses (nfield l 16 10) (nfield l 0 10) then
      ans (d.govLimits (nfield l 16 10) (nfield l 0 10)) stBADARG
    else
      let d := if nbit m 1 then d.govLimits (nfield l 16 10) (nfield l 0 10) else d
      let d := if nbit m 0 then d.govCtl (wordOf c) else d
      ans d stOK [d.r PWR_GOV_CTL, d.r PWR_GOV_LIMITS, d.govStatus]

/-- PWR_DORMANT (R567, R635): the reply comes first, then the device enters DORMANT. -/
def execPwrDormant (s : State) : Host.Outcome State Fault Refusal :=
  s.done fun d => d.choz 0x203 (lenIs 0) fun d _ =>
    if d.mode = mSetup ∨ d.mode = mSafe then
      ans { d with power := { d.power with dormReq := true } } stOK
    else ans d stDENIED

end Sys2Proof.Machine
end

