-- ==== Sys2Proof/Machine/LdgCmd.lean ====
section
/-! DEFINITION. The LDG commands (spec/18_chozer_mailboxes.md R566-R572) and the end of a ledger commit. -/

namespace Sys2Proof.Machine
open Sys2Proof

/-! ### Owners and held clasps (R366, R385, R566) -/

/-- The owner of a request's clasp: the mailbox's owner core, or 16 + session. -/
def Dev.rqOwner (d : Dev) (rq : Request) : Nat :=
  if rq.origin < 16 then d.f (MBX_OWNER rq.origin) MBX_OWNER_OWNER else rq.origin

/-- The origin that a deferred clasp's source names (R555). -/
def rqOrigin (rq : Request) : Nat := if rq.origin < 16 then rq.origin else 0xFE

/-- The held ledger clasp of owner `o`. -/
def Dev.ldgHeld (d : Dev) (o : Nat) : Option LClasp := tabFind d.ledger.held o

/-- Owner `o` holds a clasp of either kind. -/
def Dev.holdsAny (d : Dev) (o : Nat) : Bool := (d.ldgHeld o).isSome || (decide (o < 9) && (d.clasp o).held)

/-- Keep writes in the held clasp of owner `o`; CLSTAT's COUNT follows (R383, R386). -/
def Dev.ldgKeep (d : Dev) (o : Nat) (ws : List LWrite) : Dev :=
  let d := { d with ledger := { d.ledger with held := tabIns o { writes := ws } (tabDel d.ledger.held o) } }
  if o < 9 then
    d.setClasp o { held := true, ledger := true, status := ws.length % 512 * 256 + 16 + csOpen }
  else d

/-- The ledger clasp of owner `o` is held no longer; the status word of a core keeps STATE `x`. -/
def Dev.ldgDrop (d : Dev) (o x : Nat) : Dev :=
  let d := { d with ledger := { d.ledger with held := tabDel d.ledger.held o } }
  if o < 9 ∧ (d.clasp o).ledger then d.claspEnd o x else d

/-- Discard a kept LOG0 of owner `o` (R570). -/
def Dev.logForget (d : Dev) (o : Nat) : Dev := { d with ledger := { d.ledger with log0 := tabDel d.ledger.log0 o } }

/-- The status with which a request that names record `r` fails, if it does (R529, R566): beyond the variant, or Chozer's. -/
def Dev.recRefused (d : Dev) (r : Nat) : Option Nat :=
  if d.part.records ≤ r then some stABSENT else if d.reserved r then some stDENIED else none

/-! ### Record writes from requests (R568) -/

/-- The data bytes of a request from word 3 on. -/
def rqBytes (rq : Request) (n : Nat) : List Byte := (wordBytes (rq.words.drop 3)).take n

/-- The record write of an LDG_WRITE request and the type it suits, unless the OP word or LEN is wrong. -/
def ldgWriteOf (rq : Request) (len : Nat) : Option (LWrite × Nat) :=
  let r := rqw rq 1
  let o := rqw rq 2
  let k := nfield o 16 3
  let v := rqw rq 3 + rqw rq 4 * 4294967296
  if 262144 ≤ r ∨ !(onlyBits o 0xF0073F3F) then none
  else match o / 0x10000000 with
    | 1 => if len = 16 then some ({ rec_ := r, op := 1, k := k, val := v }, 1) else none
    | 2 =>
      if len = 16 then some ({ rec_ := r, op := 2, k := k, val := (sext 64 v % (2 ^ 128 : Nat)).toNat }, 1) else none
    | 3 =>
      let off := nfield o 8 6
      let n := nfield o 0 6
      if 1 ≤ n ∧ n ≤ 48 ∧ off + n ≤ 64 ∧ len = 8 + n then
        some ({ rec_ := r, op := 3, val := (2 ^ n - 1) * 2 ^ off,
                bytes := overwrite (List.replicate 64 0) off (rqBytes rq n) }, 2)
      else none
    | 4 => if len = 40 then some ({ rec_ := r, op := 4, bytes := rqBytes rq 32 }, 3) else none
    | 5 => if len = 40 then some ({ rec_ := r, op := 5, bytes := rqBytes rq 32 }, 3) else none
    | _ => none

/-- The type of record `r` as the writes of a clasp leave it. -/
def Dev.typeIn (d : Dev) (ws : List LWrite) (r : Nat) : Nat :=
  match (ws.reverse.find? fun w => w.rec_ == r && w.op == 0) with
  | some w => w.val % 256
  | none => (d.lrec r).type

/-- The retype of an LDG_TYPE request, unless an argument is out of range. -/
def Dev.ldgTypeOf (d : Dev) (rq : Request) : Option LWrite :=
  let r := rqw rq 1
  let v := rqw rq 2
  let g := rqw rq 4
  let n := rqw rq 5
  if 262144 ≤ r ∨ !(onlyBits v 0xFFFF00FF) ∨ 3 < v % 256 ∨ 262144 ≤ g ∨ 8192 ≤ n then none
  else if v % 256 = 3 ∧ (n = 0 ∨ 4096 < n ∨ d.part.records - 8192 < g + n) then none
  else some { rec_ := r, op := 0, val := v, layout := rqw rq 3, group := g, gcount := n }

/-- The writes of a clasp as they reach the engine: merged within the clasp, log entries kept apart. -/
def normWrites (ws : List LWrite) : List LWrite :=
  ws.foldl (fun l w => if w.op = 6 then l ++ [w] else lwAdd l w) []

/-- Submit a clasp for a request: answered now, or when the commit ends; while the engine is held the request waits. -/
def Dev.submit (d : Dev) (rq : Request) (ws : List LWrite) : Dev × Option Nat × Bool :=
  if d.engineFree then
    let (st, d) := d.requestCommit { origins := [rqOrigin rq], writes := normWrites ws }
    (d, st, true)
  else (d, none, false)

/-- A record write by LDG_TYPE or LDG_WRITE: into the held clasp, or as a clasp of its own (R569, R570). -/
def Dev.ldgEnter (d : Dev) (rq : Request) (w : LWrite) : Dev × Option (Nat × List Word) :=
  let o := d.rqOwner rq
  match d.ldgHeld o with
  | some c =>
    let ws := claspEnter c.writes w
    if 256 < ws.length then ans (d.logForget o) stBADARG
    else ans ((d.logForget o).ldgKeep o ws) stOK
  | none =>
    if w.op = 4 then
      ans { d with ledger := { d.ledger with log0 := tabIns o w (tabDel d.ledger.log0 o) } } stOK
    else
      let ws := match w.op, tabFind d.ledger.log0 o with
        | 5, some h => if h.rec_ = w.rec_ then some [{ w with op := 6, bytes := h.bytes ++ w.bytes }] else none
        | 5, none => none
        | _, _ => some [w]
      match ws with
      | none => ans (d.logForget o) stBADARG
      | some ws =>
        match d.submit rq ws with
        | (d, some st, _) => ans (d.logForget o) st
        | (d, none, true) => (d.logForget o, none)
        | (d, none, false) => (d, none)

/-! ### Meanings -/

/-- LDG_OPEN (R385): a ledger clasp is opened, unless a clasp of either kind is held. -/
def execLdgOpen (s : State) : Host.Outcome State Fault Refusal :=
  s.done fun d => d.choz 0x300 (lenIs 0) fun d rq =>
    let o := d.rqOwner rq
    let d := d.logForget o
    if d.holdsAny o then ans d stBUSY else ans (d.ldgKeep o []) stOK

/-- LDG_TYPE (R570): a record's type and parameters. -/
def execLdgType (s : State) : Host.Outcome State Fault Refusal :=
  s.done fun d => d.choz 0x301 (lenIs 20) fun d rq =>
    match d.ldgTypeOf rq with
    | none => ans d stBADARG
    | some w =>
      match d.recRefused w.rec_ with
      | some st => ans d st
      | none => d.ldgEnter rq w

/-- LDG_WRITE (R568): a record write that suits the record's type. -/
def execLdgWrite (s : State) : Host.Outcome State Fault Refusal :=
  s.done fun d => d.choz 0x302 (fun rq l => (ldgWriteOf rq l).isSome) fun d rq =>
    match ldgWriteOf rq (hdrLen (rqw rq 0)) with
    | none => ans d stBADARG
    | some (w, t) =>
      let held := match d.ldgHeld (d.rqOwner rq) with
        | some c => c.writes
        | none => []
      match d.recRefused w.rec_ with
      | some st => ans d st
      | none => if d.typeIn held w.rec_ = t then d.ldgEnter rq w else ans d stBADARG

/-- LDG_COMMIT (R546, R569, R571): the held clasp is submitted; after HOLDUP_LOW or BAD_ARG it stays held. -/
def execLdgCommit (s : State) : Host.Outcome State Fault Refusal :=
  s.done fun d => d.choz 0x303 (lenIs 0) fun d rq =>
    let o := d.rqOwner rq
    let d := d.logForget o
    match d.ldgHeld o with
    | none => ans d stDENIED
    | some c =>
      if c.writes.any fun w => w.op == 4 || w.op == 5 then ans d stBADARG
      else match d.submit rq c.writes with
        | (d, some st, _) =>
          if st = stHOLDUP then ans d st
          else ans (d.ldgDrop o (if st = stRATE then csPending else csFailed)) st
        | (d, none, _) => (d, none)

/-- LDG_ABORT (R385): the held clasp is discarded. -/
def execLdgAbort (s : State) : Host.Outcome State Fault Refusal :=
  s.done fun d => d.choz 0x304 (lenIs 0) fun d rq =>
    let o := d.rqOwner rq
    ans ((d.logForget o).ldgDrop o csAborted) stOK

/-- The members after ADD 0, REMOVE 1 or CLEAR 2 of records. -/
def lgMembers (act : Nat) (old rs : List Nat) : List Nat :=
  match act with
  | 0 => rs.foldl (fun l r => if l.contains r then l else l ++ [r]) old
  | 1 => old.filter fun r => !(rs.contains r)
  | _ => []

/-- LDG_LG (R543): the last-gasp set changes; a new member's buffer takes its committed value. -/
def execLdgLg (s : State) : Host.Outcome State Fault Refusal :=
  s.done fun d => d.choz 0x305 (fun rq l => l == 4 + 4 * nfield (rqw rq 1) 8 4) fun d rq =>
    let v := rqw rq 1
    let n := nfield v 8 4
    let rs := (List.range n).map fun i => rqw rq (2 + i)
    let d := d.logForget (d.rqOwner rq)
    if !(onlyBits v 0xF03) || decide (v % 4 = 3 ∨ 13 < n) || rs.any fun r => decide (262144 ≤ r) then ans d stBADARG
    else if rs.any fun r => decide (d.part.records ≤ r) then ans d stABSENT
    else if !d.inSetup || rs.any fun r => d.reserved r then ans d stDENIED
    else
      let m := lgMembers (v % 4) d.ledger.lg rs
      if 128 < m.length ∨ (v % 4 = 0 ∧ rs.any fun r => (d.lrec r).type == 0) then ans d stBADARG
      else
        let buf := m.foldl (fun t r =>
          tabSet [] t r (if d.ledger.lg.contains r then tabGet [] d.ledger.buf r else (d.lrec r).data)) []
        let d := { d with ledger := { d.ledger with lg := m, buf := buf } }.hupEval
        ans d stOK (wordOf m.length :: (m.take 14).map wordOf)

/-- LDG_LGUPD (R543, R572): a last-gasp update changes only the buffer. -/
def execLdgLgupd (s : State) : Host.Outcome State Fault Refusal :=
  s.done fun d => d.choz 0x306 (fun rq l => (ldgWriteOf rq l).isSome) fun d rq =>
    let d := d.logForget (d.rqOwner rq)
    match ldgWriteOf rq (hdrLen (rqw rq 0)) with
    | none => ans d stBADARG
    | some (w, t) =>
      if t = 3 then ans d stBADARG
      else match d.recRefused w.rec_ with
        | some st => ans d st
        | none =>
          if !(d.ledger.lg.contains w.rec_) then ans d stDENIED
          else if (d.lrec w.rec_).type ≠ t then ans d stBADARG
          else
            let b := tabGet [] d.ledger.buf w.rec_
            ans { d with ledger := { d.ledger with buf := tabSet [] d.ledger.buf w.rec_ (lwApply b w) } } stOK

/-- LDG_READ (R572): 32 bytes of the committed version; a slot read that ends with UE shows an older version, and where none
is left the bytes are open (R552; log entry 5). -/
def execLdgRead (ue : Bool) (s : State) : Host.Outcome State Fault Refusal :=
  s.done fun d => d.choz 0x307 (lenIs 8) fun d rq =>
    let r := rqw rq 1
    let d := d.logForget (d.rqOwner rq)
    if 262144 ≤ r ∨ 1 < rqw rq 2 then ans d stBADARG
    else match d.recRefused r with
      | some st => ans d st
      | none =>
        let d := if ue && (d.lrec r).slot.isSome then d.slotLost r else d
        let x := d.lrec r
        let ver := [wordOf x.version, wordOf (x.version / 4294967296)]
        if x.damaged then
          ans d.freeNext stOK (ver ++ (List.range 8).map fun i => wordOf (d.freeVal / 4294967296 ^ i))
        else ans d stOK (ver ++ bytesWords 8 (slice x.data (32 * rqw rq 2) 32))

/-- LDG_STAT: the engine's registers. -/
def execLdgStat (s : State) : Host.Outcome State Fault Refusal :=
  s.done fun d => d.choz 0x308 (lenIs 0) fun d rq =>
    ans (d.logForget (d.rqOwner rq)) stOK
      [d.r SGN_STATUS, d.r SGN_HUP_V, d.r SGN_HUP_C, d.r SGN_HUP_E, d.r SGN_LG, d.r SGN_BUCKET, d.r SGN_FREE,
       d.r SGN_RETIRED, d.r SGN_WEAR_MAX]

/-- LEDGER_COMMIT_DONE (R537, R538): the commit in progress ends, with how many read-backs of each slot write differed; its
request is answered with the sequence number (R571). -/
def execLedgerCommitDone (readBack : List Nat) (s : State) : Host.Outcome State Fault Refusal :=
  s.done fun d =>
    match d.commitEnd readBack with
    | (some (_, false, st), d) =>
      match d.chozer.reqs with
      | rq :: _ =>
        let d := if hdrCmd (rqw rq 0) = 0x303 then
            d.ldgDrop (d.rqOwner rq) (if st = stFAILED then csFailed else csCommitted)
          else d
        d.reply rq st (if st = stOK then [d.r SGN_SEQ_LO, d.r SGN_SEQ_HI] else [])
      | [] => d
    | (_, d) => d

end Sys2Proof.Machine
end

