-- ==== Sys2Proof/Machine/Sessions.lean ====
section
/-! DEFINITION. Sessions, credentials and external messages (spec/18_chozer_mailboxes.md R576-R584). HMAC-SHA-256 stands
without a body (log entry 9). -/

namespace Sys2Proof.Machine
open Sys2Proof

/-! ### Ends of sessions -/

/-- The debug access closes (R576): DBG_EN on every core and bit 11 of every grant clear. -/
def Dev.debugClose (d : Dev) : Dev :=
  if d.chozer.debug then
    let d := d.each (List.range 9) fun d c => d.wf (CORE_CTL c) CORE_CTL_DBG_EN 0
    let d := d.each (List.range 6) fun d n => { d with grants := tabSet 0 d.grants n (tabGet 0 d.grants n % 2048) }
    { d with chozer := { d.chozer with debug := false } }
  else d

/-- Session `i` ends (R581): its ledger clasp is aborted, a debug access it opened closes. -/
def Dev.sessEnd (d : Dev) (i : Nat) : Dev :=
  if (d.sess i).opened then
    let d := ((d.ldgDrop (16 + i) csAborted).logForget (16 + i)).setSess i {}
    if d.chozer.debugSess = i then d.debugClose else d
  else d

/-! ### Opening (R578, R579, R582) -/

/-- Ticks of powered time. -/
def Dev.poweredTicks (d : Dev) : Nat := d.ledger.powered + d.beam

/-- Ticks of a second. -/
def secTicks : Nat := 1000 * msTicks

/-- Sessions open. -/
def Dev.openCount (d : Dev) : Nat := ((List.range 8).filter fun i => (d.sess i).opened).length

/-- A SID that no session or challenge has, counted on from `x`. -/
def freshSid (t : Tab Sess) : Nat → Nat → Nat
  | 0, x => x
  | n + 1, x => if x = 0 ∨ t.any (fun e => e.2.sid == x) then freshSid t n ((x + 1) % 4294967296) else x

/-- Thirty-two bytes the spec leaves open: the device's nonce. -/
def nonce (x : Nat) : List Byte := leBytes x 32

/-- The first key from `k` on that holds no challenge. -/
def Dev.challengeKey (d : Dev) : Nat → Nat → Nat
  | 0, k => k
  | n + 1, k => if (tabFind d.chozer.sess k).isSome then d.challengeKey n (k + 1) else k

/-- The bytes that the proofs hash (R579). -/
def ascii (s : String) : List Byte := s.toList.map fun c => BitVec.ofNat 8 c.toNat

def proofC (k : List Byte) (x : Sess) : List Byte :=
  Config.hmac k (ascii "GVZ-AUTH" ++ leBytes x.sid 4 ++ x.nd ++ x.nc ++ leBytes x.slot 1)

def proofD (k : List Byte) (x : Sess) : List Byte :=
  Config.hmac k (ascii "GVZ-DEV" ++ leBytes x.sid 4 ++ x.nc ++ x.nd)

def tokenOf (k : List Byte) (x : Sess) : List Byte :=
  Config.hmac k (ascii "GVZ-TOKEN" ++ leBytes x.sid 4 ++ x.nc ++ x.nd)

/-- The credential index of a challenge: KEY slots 0-7, PASS slots 8-15. -/
def credOf (x : Sess) : Nat := b2n x.pass * 8 + x.slot

/-- A failed proof is counted; from the fifth on the credential refuses challenges for 2^(f - 5) s (R582). -/
def Dev.credFail (d : Dev) (i : Nat) : Dev :=
  let c := d.cred i
  let f := c.fails + 1
  let u := if 5 ≤ f then d.poweredTicks + min 65536 (2 ^ (f - 5)) * secTicks else c.until_
  d.setCred i { c with fails := f, until_ := u }

/-- Words 1 to 8 of a request as 32 bytes, from word `i`. -/
def rqHash (rq : Request) (i : Nat) : List Byte := wordBytes ((List.range 8).map fun k => wordOf (rqw rq (i + k)))

/-- An answer to a challenge of KIND `pass` (R578, R579, R582). -/
def Dev.sesAnswer (d : Dev) (rq : Request) (pass : Bool) : Dev × Option (Nat × List Word) :=
  let k := rq.origin - oANSWER
  let x := d.sess k
  if x.used || x.pass != pass then ans d stDENIED
  else
    let d := d.setSess k { x with used := true }
    let c := d.cred (credOf x)
    if x.at_ + 5 * secTicks < d.beam then ans d stTIMEOUT
    else if c.value = [] ∨ rqHash rq 1 ≠ proofC c.value x then ans (d.credFail (credOf x)) stDENIED
    else
      match (List.range 8).find? fun i => !(d.sess i).opened with
      | none => ans d stBUSY
      | some i =>
        let d := (d.setCred (credOf x) { c with fails := 0 }).setSess k {}
        let d := d.setSess i { opened := true, sid := x.sid, link := x.link, src := x.src, role := c.role,
                               token := tokenOf c.value x, last := d.beam }
        let d := d.at_ (d.beam + 60 * secTicks) (.sessionIdleExpiry (Fin.ofNat 8 i))
        ans d stOK (wordOf c.role :: bytesWords 8 (proofD c.value x))

/-! ### External messages (R577-R580) -/

/-- A message of session `i` is refused (R580): five in a row end the session. -/
def Dev.tagDiscard (d : Dev) (i : Nat) : Dev :=
  let x := d.sess i
  let d := d.diagT 8 x.link
  if x.discards + 1 = 5 then (d.sessEnd i).diagL 8 x.link else d.setSess i { x with discards := x.discards + 1 }

/-- The session or challenge with a SID: its key. -/
def Dev.sidKey (d : Dev) (sid : Nat) : Option Nat := (d.chozer.sess.find? fun e => e.2.sid == sid).map fun e => e.1

/-- The words of an external request. -/
def extWords (m : ExtMsg) : List Word := m.hdr :: m.payload

/-- An external message arrives. -/
def Dev.external (d : Dev) (m : ExtMsg) : Dev :=
  if !d.chozUp then d
  else
    let cmd := hdrCmd m.hdr.toNat
    let rq (o : Nat) : Request := { origin := o, words := extWords m, ext := some m }
    if m.sid = 0 then d.arrive (rq (if cmd = 0x400 then oCHAL else oNONE))
    else match d.sidKey m.sid.toNat with
      | none => d.arrive (rq oNONE)
      | some k =>
        let x := d.sess k
        if x.link ≠ m.link.val ∨ x.src ≠ m.src.toNat then d
        else if !x.opened then
          if cmd = 0x401 ∨ cmd = 0x402 then d.arrive (rq (oANSWER + k)) else d.arrive (rq oNONE)
        else if leBytes m.tag.toNat 8 ≠ sessTag x.token 0x51 m.sid.toNat m.ctr.toNat m.hdr.toNat m.payload ∨
            m.ctr.toNat ≤ x.ctr then d.tagDiscard k
        else
          let d := d.setSess k { x with ctr := m.ctr.toNat, discards := 0, last := d.beam }
          let d := d.at_ (d.beam + 60 * secTicks) (.sessionIdleExpiry (Fin.ofNat 8 k))
          d.arrive (rq (16 + k))

/-- A commit of one of Chozer's own records: the status that stops it (SES_PROVISION, UPD_DATA). -/
def Dev.ownCommit (d : Dev) : Dev × Nat :=
  let d := d.hupEval
  if d.b SGN_STATUS SGN_STATUS_DEVICE_WORN then (d, stWORN)
  else if d.hupEnough 1 then (d, stOK) else (d.holdupRefused, stHOLDUP)

/-- Length of SES_PROVISION by KIND. -/
def provisionLen (rq : Request) (l : Nat) : Bool := if rqw rq 1 % 4 = 1 then l == 56 else l == 36

/-- A provisioned value; all zeros empty the slot. -/
def provisioned (v : List Byte) : List Byte := if v.all fun b => b == 0 then [] else v

/-! ### Meanings -/

/-- SES_CHALLENGE (R578, R582): a challenge for a credential. -/
def execSesChallenge (s : State) : Host.Outcome State Fault Refusal :=
  s.done fun d => d.choz 0x400 (lenIs 36) fun d rq =>
    let v := rqw rq 1
    let i := nfield v 8 1 * 8 + v % 8
    let c := d.cred i
    if !(onlyBits v 0x107) then ans d stBADARG
    else if d.poweredTicks < c.until_ then
      ans d stDENIED [wordOf (ceilDiv (c.until_ - d.poweredTicks) secTicks)]
    else if 8 ≤ d.openCount then ans d stBUSY
    else
      match rq.ext with
      | none => ans d stDENIED
      | some m =>
        let sid := freshSid d.chozer.sess (d.chozer.sess.length + 2) (d.freeVal % 4294967296)
        let d := d.freeNext
        let nd := nonce d.freeVal
        let d := d.freeNext
        let k := d.challengeKey (d.chozer.sess.length + 1) 8
        let d := d.setSess k { sid := sid, link := m.link.val, src := m.src.toNat, pass := nbit v 8, slot := v % 8,
                               nc := rqHash rq 2, nd := nd, used := false, at_ := d.beam }
        let salt := if nbit v 8 then (List.range 4).map (fun j => (c.salt[j]?).getD 0) ++ [wordOf c.iter] else []
        ans d stOK (wordOf sid :: bytesWords 8 nd ++ salt)

/-- SES_KEY (R579): the answer to a KEY challenge. -/
def execSesKey (s : State) : Host.Outcome State Fault Refusal :=
  s.done fun d => d.choz 0x401 (lenIs 32) fun d rq => d.sesAnswer rq false

/-- SES_PASS (R579): the answer to a PASS challenge. -/
def execSesPass (s : State) : Host.Outcome State Fault Refusal :=
  s.done fun d => d.choz 0x402 (lenIs 32) fun d rq => d.sesAnswer rq true

/-- SES_END (R581): the session ends after its reply. -/
def execSesEnd (s : State) : Host.Outcome State Fault Refusal :=
  s.done fun d =>
    let i := match d.chozer.reqs with
      | rq :: _ => if rqw rq 0 / 0x100000 = 0x403 ∧ 16 ≤ rq.origin ∧ rq.origin < 24 then some (rq.origin - 16) else none
      | [] => none
    let ok := d.chozUp && !d.committing
    let good := match d.chozer.reqs with
      | rq :: _ => nfield (rqw rq 0) 0 12 == 0
      | [] => false
    let d := d.choz 0x403 (lenIs 0) fun d _ => ans d stOK
    match i with
    | some i => if ok && good then d.sessEnd i else d
    | none => d

/-- SES_PROVISION (R573, R583): a key, a password or the update key. -/
def execSesProvision (s : State) : Host.Outcome State Fault Refusal :=
  s.done fun d => d.choz 0x404 provisionLen fun d rq =>
    let v := rqw rq 1
    let kind := v % 4
    let slot := nfield v 8 3
    let role := nfield v 16 2
    if !(onlyBits v 0x30703) || (decide (kind < 2) && role == 3) || (kind == 1 && role == 2) ||
      (kind == 1 && decide (rqw rq 6 < 10000 ∨ 1000000 < rqw rq 6)) then ans d stBADARG
    else if rq.origin < 16 ∧ ¬ d.inSetup then ans d stDENIED
    else
      match d.ownCommit with
      | (d, 0) =>
        let w (i : Nat) : List Word := (List.range 8).map fun k => wordOf (rqw rq (i + k))
        match kind with
        | 0 => ans (d.setCred slot { d.cred slot with value := provisioned (rqHash rq 2), role := role, fails := 0 }) stOK
        | 1 =>
          ans (d.setCred (8 + slot) { d.cred (8 + slot) with
            value := provisioned (rqHash rq 7), role := role, fails := 0, iter := rqw rq 6
            salt := (List.range 4).map fun k => wordOf (rqw rq (2 + k)) }) stOK
        | 2 => ans { d with chozer := { d.chozer with updX := w 2 } } stOK
        | _ => ans { d with chozer := { d.chozer with updY := w 2 } } stOK
      | (d, st) => ans d st

/-- EXTERNAL_MESSAGE (R580): a message over a Chain port, a CAN FD controller or the debug port. -/
def execExternalMessage (m : ExtMsg) (s : State) : Host.Outcome State Fault Refusal := s.done fun d => d.external m

/-- SESSION_IDLE_EXPIRY (R581): 60 s without an accepted request. -/
def execSessionIdleExpiry (i : Fin 8) (s : State) : Host.Outcome State Fault Refusal :=
  s.done fun d =>
    if (d.sess i).opened && decide ((d.sess i).last + 60 * secTicks ≤ d.beam) then d.sessEnd i else d

end Sys2Proof.Machine
end

