-- ==== Sys2Proof/Machine/Update.lean ====
section
/-! DEFINITION. The UPD commands (spec/18_chozer_mailboxes.md R585-R589). ECDSA verification stands without a body (log entry
9). -/

namespace Sys2Proof.Machine
open Sys2Proof

/-- The update states (R588). -/
def uIDLE : Nat := 0
def uSTAGING : Nat := 1
def uVERIFYING : Nat := 2
def uVERIFIED : Nat := 3
def uAPPLYING : Nat := 4
def uAPPLIED : Nat := 5
def uTRIAL : Nat := 6
def uCONFIRMED : Nat := 7
def uFELLBACK : Nat := 8
def uFAILED : Nat := 9

/-- Image `i` enters state `x`; each change raises source 0x003A (R588). -/
def Dev.updState (d : Dev) (i x : Nat) : Dev :=
  if (d.img i).state = x then d else (d.setImg i { d.img i with state := x }).raise 0x003A (i * 256 + x)

/-- The image in state `x`. -/
def Dev.imgIn (d : Dev) (x : Nat) : Option Nat := (List.range 8).find? fun i => (d.img i).state == x

/-- An image is in `STAGING` to `APPLYING`. -/
def Dev.updBusy (d : Dev) : Bool := (List.range 8).any fun i => decide (1 ≤ (d.img i).state ∧ (d.img i).state ≤ 4)

/-- The staged bytes of an image. -/
def stagedBytes (x : Img) : List Byte := (List.range x.len).map fun k => tabGet 0 x.staged k

/-- Word at byte offset `o` of the staged image. -/
def stagedWord (x : Img) (o : Nat) : Nat := leNat ((List.range 4).map fun k => tabGet 0 x.staged (o + k))

/-- The key that image `i` verifies against: the vendor's for image 0, else the application update key if provisioned
(R587). -/
def Dev.updKey (d : Dev) (i : Nat) : Option (List Byte) :=
  if i = 0 then some Config.vendorKey
  else
    let k := wordBytes d.chozer.updX ++ wordBytes d.chozer.updY
    if k.all fun b => b == 0 then none else some k

/-- The staged image `i` passes R587. -/
def Dev.verifies (d : Dev) (i : Nat) : Bool :=
  let x := d.img i
  match d.updKey i with
  | none => false
  | some k =>
    Config.ecdsaOk (stagedBytes x) k (wordBytes x.sigR ++ wordBytes x.sigS) &&
      stagedWord x 0 == i && stagedWord x 8 == x.len && decide (x.floor ≤ stagedWord x 4)

/-- A successful apply: the other slot holds the new version (R589). -/
def Dev.applied (d : Dev) (i : Nat) : Dev :=
  let x := d.img i
  d.setImg i { x with verOth := stagedWord x 4, raise_ := nbit (stagedWord x 12) 0 }

/-- A confirm: the new slot becomes active (R589). -/
def Dev.confirm (d : Dev) (i : Nat) : Dev :=
  let x := d.img i
  (d.setImg i { x with slotB := !x.slotB, verAct := x.verOth, verOth := x.verAct,
                       floor := if x.raise_ then x.verOth else x.floor }).updState i uCONFIRMED

/-- Store the bytes of an UPD_DATA request. -/
def Dev.stage_ (d : Dev) (i off : Nat) (bs : List Byte) : Dev :=
  let x := d.img i
  let p := bs.foldl (fun (p : Tab Byte × Tab Bool × Nat) b =>
    (tabSet 0 p.1 p.2.2 b, tabSet false p.2.1 p.2.2 true, p.2.2 + 1)) (x.staged, x.got, off)
  d.setImg i { x with staged := p.1, got := p.2.1 }

/-! ### Meanings -/

/-- UPD_BEGIN (R588): staging starts; earlier staging is discarded. -/
def execUpdBegin (s : State) : Host.Outcome State Fault Refusal :=
  s.done fun d => d.choz 0x600 (lenIs 8) fun d rq =>
    let i := rqw rq 1
    let n := rqw rq 2
    if 7 < i ∨ n < 64 ∨ 491520 < n ∨ n % 16 ≠ 0 then ans d stBADARG
    else if (d.img i).state = uTRIAL ∨ (d.img i).state = uAPPLIED then ans d stDENIED
    else if d.updBusy then ans d stBUSY
    else
      let d := d.setImg i { d.img i with len := n, staged := [], got := [], sigR := [], sigS := [] }
      ans (d.updState i uSTAGING) stOK

/-- UPD_DATA (R586): bytes of the image. -/
def execUpdData (s : State) : Host.Outcome State Fault Refusal :=
  s.done fun d => d.choz 0x601 (fun rq l => l == 8 + rqw rq 2) fun d rq =>
    let off := rqw rq 1
    let n := rqw rq 2
    if off % 16 ≠ 0 ∨ ¬ (n = 16 ∨ n = 32 ∨ n = 48) then ans d stBADARG
    else match d.imgIn uSTAGING with
      | none => ans d stDENIED
      | some i =>
        if (d.img i).len < off + n then ans d stDENIED
        else match d.ownCommit with
          | (d, 0) => ans (d.stage_ i off (rqBytes rq n)) stOK
          | (d, st) => ans d st

/-- UPD_SIGN: r or s of the signature. -/
def execUpdSign (s : State) : Host.Outcome State Fault Refusal :=
  s.done fun d => d.choz 0x602 (lenIs 36) fun d rq =>
    let w := (List.range 8).map fun k => wordOf (rqw rq (2 + k))
    if 1 < rqw rq 1 then ans d stBADARG
    else match d.imgIn uSTAGING with
      | none => ans d stDENIED
      | some i =>
        ans (d.setImg i (if rqw rq 1 = 0 then { d.img i with sigR := w } else { d.img i with sigS := w })) stOK

/-- UPD_VERIFY (R586): the staged image goes into verification. -/
def execUpdVerify (s : State) : Host.Outcome State Fault Refusal :=
  s.done fun d => d.choz 0x603 (lenIs 0) fun d _ =>
    match d.imgIn uSTAGING with
    | none => ans d stDENIED
    | some i =>
      let x := d.img i
      if x.got.length < x.len ∨ x.sigR = [] ∨ x.sigS = [] then ans d stDENIED
      else ans (d.updState i uVERIFYING) stOK

/-- VERIFY_COMPLETE (R587): verification ends. -/
def execVerifyComplete (s : State) : Host.Outcome State Fault Refusal :=
  s.done fun d =>
    match d.imgIn uVERIFYING with
    | some i => d.updState i (if d.verifies i then uVERIFIED else uFAILED)
    | none => d

/-- UPD_APPLY (R589): the inactive slot is written in the background. -/
def execUpdApply (s : State) : Host.Outcome State Fault Refusal :=
  s.done fun d => d.choz 0x604 (lenIs 4) fun d rq =>
    let t := rqw rq 1
    if t < 10 ∨ 3600 < t then ans d stBADARG
    else match d.imgIn uVERIFIED with
      | none => ans d stDENIED
      | some i =>
        if d.anyRun then ans d stDENIED
        else ans ((d.setImg i { d.img i with trialS := t }).updState i uAPPLYING) stOK

/-- APPLY_COMPLETE (R589): the slot is read back and verified. -/
def execApplyComplete (readBackOk : Bool) (s : State) : Host.Outcome State Fault Refusal :=
  s.done fun d =>
    match d.imgIn uAPPLYING with
    | some i => if readBackOk && d.verifies i then (d.applied i).updState i uAPPLIED else d.updState i uFAILED
    | none => d

/-- UPD_CONFIRM (R589): an image in trial is kept. -/
def execUpdConfirm (s : State) : Host.Outcome State Fault Refusal :=
  s.done fun d => d.choz 0x605 (lenIs 4) fun d rq =>
    let i := rqw rq 1
    if 7 < i then ans d stBADARG
    else if (d.img i).state ≠ uTRIAL then ans d stDENIED
    else ans (d.confirm i) stOK

/-- TRIAL_EXPIRY (R589): the trial timer has run out. -/
def execTrialExpiry (i : Fin 8) (s : State) : Host.Outcome State Fault Refusal :=
  s.done fun d =>
    if (d.img i).state = uTRIAL ∧ (d.img i).trialEnd ≤ d.beam then d.updState i uFELLBACK else d

/-- UPD_STATUS: state, versions and progress of an image. -/
def execUpdStatus (s : State) : Host.Outcome State Fault Refusal :=
  s.done fun d => d.choz 0x606 (lenIs 4) fun d rq =>
    let i := rqw rq 1
    let x := d.img i
    if 7 < i then ans d stBADARG
    else
      ans d stOK [wordOf (x.state + b2n x.slotB * 256), wordOf x.verAct, wordOf x.verOth, wordOf x.floor,
        wordOf x.got.length,
        wordOf (if x.state = uTRIAL then ceilDiv (x.trialEnd - d.beam) secTicks else 0)]

/-- UPD_ABORT: a staged or verified update is given up. -/
def execUpdAbort (s : State) : Host.Outcome State Fault Refusal :=
  s.done fun d => d.choz 0x607 (lenIs 0) fun d _ =>
    if (d.imgIn uVERIFYING).isSome || (d.imgIn uAPPLYING).isSome then ans d stBUSY
    else match d.imgIn uSTAGING, d.imgIn uVERIFIED with
      | some i, _ => ans (d.updState i uIDLE) stOK
      | none, some i => ans (d.updState i uIDLE) stOK
      | none, none => ans d stOK

end Sys2Proof.Machine
end

