-- ==== Sys2Proof/Machine/Net.lean ====
section
/-! DEFINITION. Chain ports, gate control, time synchronisation, the inline switch and partner discovery
(spec/19_chain_and_can.md R590-R608, R614-R617). -/

namespace Sys2Proof.Machine
open Sys2Proof

/-! ### Ports and flags -/

/-- Port `p` is enabled and its domain has power. -/
def Dev.portUp (d : Dev) (p : Nat) : Bool := d.b (CHN_CTL p) CHN_CTL_EN && d.powered (9 + p)

/-- Raise port `p`'s source `k` when CHN_IRQ_EN bit `k` is set (R616). -/
def Dev.chnRaise (d : Dev) (p k : Nat) : Dev := d.raiseIf (d.bit (CHN_IRQ_EN p) k) (0x100 + 8 * p + k)

/-- The switch is on. -/
def Dev.swOn (d : Dev) : Bool := d.b CHN_SW_CTL CHN_SW_CTL_EN

/-- The MAC address of a port as its six bytes in order. -/
def Dev.macBytes (d : Dev) (p : Nat) : List Byte :=
  leBytes (d.r (CHN_MAC_LO p)).toNat 4 ++ leBytes (d.r (CHN_MAC_HI p)).toNat 2

/-! ### Frames -/

/-- Byte `i` of a frame. -/
def fbyte (f : List Byte) (i : Nat) : Nat := ((f[i]?).getD 0).toNat

/-- The frame carries an IEEE 802.1Q tag. -/
def tagged (f : List Byte) : Bool := fbyte f 12 == 0x81 && fbyte f 13 == 0x00

/-- Offset of the payload, behind the EtherType. -/
def payOff (f : List Byte) : Nat := if tagged f then 18 else 14

/-- The EtherType. -/
def etype (f : List Byte) : Nat := beNat (slice f (payOff f - 2) 2)

/-- The priority of a frame; an untagged frame has PCP 0 (R593). -/
def pcp (f : List Byte) : Nat := if tagged f then fbyte f 14 / 32 else 0

/-- Destination and source address. -/
def dstOf (f : List Byte) : List Byte := slice f 0 6
def srcOf (f : List Byte) : List Byte := slice f 6 6

/-- A multicast or broadcast destination. -/
def multicast (f : List Byte) : Bool := nbit (fbyte f 0) 0

/-- The transmit queue of a frame at port `p` (R593). -/
def Dev.queueOf (d : Dev) (p : Nat) (f : List Byte) : Nat := d.f (CHN_PCPMAP p) ⟨4 * pcp f, 3⟩

/-- Port `p` accepts the frame for its rings (R593). -/
def Dev.accepts (d : Dev) (p : Nat) (f : List Byte) : Bool :=
  d.b (CHN_CTL p) CHN_CTL_PROMISC || multicast f || dstOf f == d.macBytes p

/-- A frame of Chozer's own type `t` (R603, R608): EtherType CHN_ETYPE, version 1, the type. -/
def Dev.chozFrame (d : Dev) (t : Nat) (f : List Byte) : Bool :=
  etype f == d.f CHN_ETYPE CHN_ETYPE_T && fbyte f (payOff f) == 1 && fbyte f (payOff f + 1) == t

/-- Pad a frame to the shortest length that is sent, less the FCS. -/
def padFrame (f : List Byte) : List Byte := f ++ List.replicate (60 - f.length) 0

/-- Record a frame that leaves port `p`. -/
def Dev.emit (d : Dev) (p : Nat) (f : List Byte) (fcs : Bool) : Dev :=
  { d with net := { d.net with sent := d.net.sent ++ [(p, f, fcs)] } }

/-! ### Gate control (R594-R596) -/

/-- Entries of an operating list as (gates, ns). -/
def gclEntries (g : GclH) : List (Nat × Nat) :=
  (g.ents.take (min 64 (max 1 g.len))).map fun e => (nfield e 24 8, 8 * nfield e 0 24)

/-- The entries as they run within `rem` ns: cut at the end of the cycle, the last one open until it. -/
def gclRun : Nat → List (Nat × Nat) → List (Nat × Nat)
  | _, [] => []
  | rem, [(g, _)] => [(g, rem)]
  | rem, (g, t) :: e :: es => if rem ≤ t then [(g, rem)] else (g, t) :: gclRun (rem - t) (e :: es)

/-- The list runs over its cycle. -/
def gclOver (g : GclH) : Bool := decide (g.cycle < (gclEntries g).foldl (fun s e => s + e.2) 0)

/-- What is left of a run from `t` ns after its start. -/
def runFrom : Nat → List (Nat × Nat) → List (Nat × Nat)
  | _, [] => []
  | t, (g, n) :: es => if t < n then (g, n - t) :: es else runFrom (t - n) es

/-- How long queue `q` stays open in a run. -/
def openFor (q : Nat) : List (Nat × Nat) → Nat
  | [] => 0
  | (g, n) :: es => if nbit g q then n + openFor q es else 0

/-- The operating list of port `p`. -/
def Dev.gcl (d : Dev) (p : Nat) : GclH := tabGet {} d.net.gcl p
def Dev.setGcl (d : Dev) (p : Nat) (g : GclH) : Dev := { d with net := { d.net with gcl := tabSet {} d.net.gcl p g } }

/-- The latest cycle start not after train time `tt`. -/
def cycleStart (base cycle tt : Nat) : Nat := base + (tt - base) / max 1 cycle * max 1 cycle

/-- The first cycle start on or after `t`. -/
def cycleOnAfter (base cycle t : Nat) : Nat := base + (t - base + max 1 cycle - 1) / max 1 cycle * max 1 cycle

/-- The list of port `p` acts: GATE_EN is set, train time is valid, the Beam is not lost (R594, R596). -/
def Dev.gating (d : Dev) (p : Nat) : Bool :=
  d.b (CHN_GCL_CTL p) CHN_GCL_CTL_GATE_EN && d.b BEAM_STATUS BEAM_STATUS_TT_VALID && !d.lost

/-- The run of port `p`'s cycle, and the ns since its start. -/
def Dev.gclNow (d : Dev) (p : Nat) : List (Nat × Nat) × Nat :=
  let g := d.gcl p
  (gclRun (max 1 g.cycle) (gclEntries g), d.trainTime - cycleStart g.base g.cycle d.trainTime)

/-- The gates of port `p` that are open on this tick. -/
def Dev.gates (d : Dev) (p : Nat) : Nat :=
  if d.gating p then
    let (run, t) := d.gclNow p
    match runFrom t run with
    | (g, _) :: _ => g
    | [] => 255
  else 255

/-- Ticks of a bit, in ns, at the speed of port `p`. -/
def Dev.bitNs (d : Dev) (p : Nat) : Nat :=
  match d.f (CHN_CTL p) CHN_CTL_SPEED with
  | 0 => 100
  | 1 => 10
  | _ => 1

/-- Queue `q` of port `p` may start a frame of `n` bytes: its gate is open and the frame ends before it closes. -/
def Dev.gateAllows (d : Dev) (p q n : Nat) : Bool :=
  if d.gating p then
    let (run, t) := d.gclNow p
    run.all (fun e => nbit e.1 q) || decide (d.bitNs p * 8 * (n + 4) ≤ openFor q (runFrom t run ++ run))
  else true

/-- A write of 1 to APPLY (R595). -/
def Dev.gclApply (d : Dev) (p : Nat) : Dev :=
  if d.b (CHN_GCL_CTL p) CHN_GCL_CTL_PENDING then d
  else
    let g := d.gcl p
    let tt := d.trainTime
    let from_ := if d.gating p then cycleStart g.base g.cycle tt + max 1 g.cycle else tt + 1
    let base := (d.r (CHN_GCL_BASE_LO p)).toNat + (d.r (CHN_GCL_BASE_HI p)).toNat * 4294967296
    let d := d.wf (CHN_GCL_CTL p) CHN_GCL_CTL_PENDING 1
    d.setGcl p { g with swap := cycleOnAfter base (d.f (CHN_GCL_CYCLE p) CHN_GCL_CYCLE_CYCLE) from_ }

/-- The administrative list of port `p`. -/
def Dev.adminList (d : Dev) (p : Nat) : GclH :=
  { cycle := d.f (CHN_GCL_CYCLE p) CHN_GCL_CYCLE_CYCLE
    base := (d.r (CHN_GCL_BASE_LO p)).toNat + (d.r (CHN_GCL_BASE_HI p)).toNat * 4294967296
    len := d.f (CHN_GCL_LEN p) CHN_GCL_LEN_LEN
    ents := (List.range 64).map fun i => (d.r (CHN_GCL p i)).toNat }

/-- The administrative list becomes the operating list when its instant is reached (R595). -/
def Dev.listSwap (d : Dev) (p : Nat) : Dev :=
  let g := d.gcl p
  if d.b (CHN_GCL_CTL p) CHN_GCL_CTL_PENDING && decide (g.swap ≤ d.trainTime) then
    (d.setGcl p { d.adminList p with start := g.start }).wf (CHN_GCL_CTL p) CHN_GCL_CTL_PENDING 0
  else d

/-- A cycle of port `p`'s operating list starts on this tick. -/
def Dev.cycleDue (d : Dev) (p : Nat) : Bool :=
  let g := d.gcl p
  let cs := cycleStart g.base g.cycle d.trainTime
  d.gating p && decide (g.base ≤ d.trainTime ∧ d.trainTime - cs < 2 ∧ g.start ≠ cs)

/-- Train time reaches a gate control instant (R594, R595). -/
def Dev.gateChange (d : Dev) (p : Nat) : Dev :=
  let late := gclOver (d.gcl p)
  let d := d.listSwap p
  if d.cycleDue p then
    let g := d.gcl p
    let d := d.setGcl p { g with start := cycleStart g.base g.cycle d.trainTime }
    let d := if late then (d.set1 (CHN_STATUS p) CHN_STATUS_GCL_ERR).chnRaise p 4 else d
    d.fire 7 (0x80 + 4 * p + 2)
  else d

/-- A step of gate control is due at port `p`. -/
def Dev.gateDue (d : Dev) (p : Nat) : Bool :=
  d.cycleDue p || (d.b (CHN_GCL_CTL p) CHN_GCL_CTL_PENDING && decide ((d.gcl p).swap ≤ d.trainTime))

/-! ### Rings (R592) -/

/-- The number of descriptors of a ring with LOG2 `k`. -/
def descCount (k : Nat) : Nat := 2 ^ min 10 (max 4 k)

/-- Address of descriptor `i` of a ring. -/
def descAddr (base k i : Nat) : Nat := base / (16 * descCount k) * (16 * descCount k) + 16 * (i % descCount k)

/-- Bytes at `a` answer a port without a bus error. -/
def Dev.dmaReach (d : Dev) (a : Nat) : Bool := placeOf a == .mem && decide (0x80000 ≤ a) && !(d.absent a) && !(d.unpowered a)

/-- The next descriptor of transmit ring `r` of port `p`. -/
def Dev.txDesc (d : Dev) (p r : Nat) : Nat :=
  descAddr (d.r (CHN_TXR_BASE p r)).toNat (d.f (CHN_TXR_CFG p r) CHN_TXR_CFG_LOG2) (d.f (CHN_TXR_PTR p r) CHN_TXR_PTR_PTR)

def Dev.setScan (d : Dev) (p r : Nat) (v : Bool) : Dev :=
  { d with net := { d.net with scan := tabSet false d.net.scan (p * 8 + r) v } }

/-- The port reads the next descriptor of a transmit ring: the scan goes on while it finds OWN = 1. -/
def Dev.txScan (d : Dev) (p r : Nat) : Dev :=
  let a := d.txDesc p r
  if d.dmaReach a then
    let buf := d.loadN a 4
    let own := nbit (d.loadN (a + 4) 4) 31
    if own && !(d.dmaReach buf) then (d.set1 (CHN_STATUS p) CHN_STATUS_TX_ERR).setScan p r false
    else d.setScan p r own
  else (d.set1 (CHN_STATUS p) CHN_STATUS_TX_ERR).setScan p r false

/-- A write of CHN_TXR_KICK. -/
def Dev.txKick (d : Dev) (p r : Nat) : Dev := if d.portUp p then d.txScan p r else d

/-- The tick of this frame as the two timestamp words (R591). -/
def Dev.putStamp (d : Dev) (a : Nat) : Dev := d.storeN a d.beam 8

/-- The ports that a frame from the host leaves by: the port's own, or those of the switch (R598). -/
def Dev.hostPorts (d : Dev) (p : Nat) (f : List Byte) : List Nat :=
  if d.swOn && p == 0 then
    match d.net.macs.find? (fun e => e.1 == leNat (dstOf f)) with
    | some e => if e.2.1 < 2 then [e.2.1] else [0, 1]
    | none => [0, 1]
  else [p]

/-- The switch remembers the port on which an address was last seen (R598). -/
def Dev.learn (d : Dev) (f : List Byte) (p : Nat) : Dev :=
  let k := leNat (srcOf f)
  if nbit (fbyte f 6) 0 then d
  else if d.net.macs.any fun e => e.1 == k then
    { d with net := { d.net with macs := d.net.macs.map fun e => if e.1 = k then (k, p, d.beam) else e } }
  else if d.net.macs.length < 256 then
    { d with net := { d.net with macs := d.net.macs ++ [(k, p, d.beam)] } }
  else d

/-- The frame of the next descriptor of transmit ring `r` of port `p` is sent (R592). -/
def Dev.txDone (d : Dev) (p r : Nat) : Dev :=
  let a := d.txDesc p r
  let w1 := d.loadN (a + 4) 4
  let f := padFrame (d.loadBytes (d.loadN a 4) (w1 % 16384))
  if d.portUp p && tabGet false d.net.scan (p * 8 + r) && !(d.swOn && p == 1) && d.gateAllows p r f.length then
    let d := (d.hostPorts p f).foldl (fun d e => d.emit e f true) d
    let d := if d.swOn then d.learn f 2 else d
    let d := (d.storeN (a + 4) (w1 % 2147483648) 4).putStamp (a + 8)
    let n := descCount (d.f (CHN_TXR_CFG p r) CHN_TXR_CFG_LOG2)
    let d := d.wf (CHN_TXR_PTR p r) CHN_TXR_PTR_PTR ((d.f (CHN_TXR_PTR p r) CHN_TXR_PTR_PTR + 1) % n)
    ((d.fire 7 (0x80 + 4 * p + 1)).chnRaise p 2).txScan p r
  else d

/-- A frame for the receive ring of port `p` (R592, R593). -/
def Dev.hostIn (d : Dev) (p : Nat) (f : List Byte) : Dev :=
  let k := d.f (CHN_RXR_CFG p) CHN_RXR_CFG_LOG2
  let i := d.f (CHN_RXR_PTR p) CHN_RXR_PTR_PTR
  let a := descAddr (d.r (CHN_RXR_BASE p)).toNat k i
  let buf := d.loadN a 4
  let w1 := d.loadN (a + 4) 4
  if !(d.accepts p f) || !(d.dmaReach a) then d
  else if !(nbit w1 31) then (d.set1 (CHN_STATUS p) CHN_STATUS_RX_OVF).chnRaise p 3
  else if !(d.dmaReach buf) then d
  else
    let n := min f.length (w1 % 16384)
    let d := d.storeBytes buf (f.take n)
    let d := (d.storeN (a + 4) (n + b2n (decide (n < f.length)) * 1073741824) 4).putStamp (a + 8)
    let d := d.wf (CHN_RXR_PTR p) CHN_RXR_PTR_PTR ((i + 1) % descCount k)
    (d.fire 7 (0x80 + 4 * p)).chnRaise p 1

/-! ### The switch (R598-R601, R604) -/

/-- A frame as it is forwarded: a hello with one more hop, a Sync or Follow_Up with the residence time added (R597,
R604). -/
def Dev.relay (d : Dev) (f : List Byte) : List Byte × Dev :=
  let o := payOff f
  if d.chozFrame 1 f then (overwrite f (o + 2) [BitVec.ofNat 8 (fbyte f (o + 2) + 1)], d)
  else if etype f = 0x88F7 ∧ (fbyte f o % 16 = 0 ∨ fbyte f o % 16 = 8) then
    (overwrite f (o + 8) (leBytes (beNat (slice f (o + 8) 8) + d.freeVal) 8).reverse, d.freeNext)
  else (f, d)

/-- A frame that arrived at port `p` leaves the switch by the other port (R599). -/
def Dev.forward (d : Dev) (p : Nat) (f : NetFrame) : Dev :=
  let e := 1 - p
  let cut := f.idle && d.bitNs p == d.bitNs e && nbit (d.gates e) (d.queueOf e f.bytes)
  if !(d.portUp e) || (d.chozFrame 1 f.bytes && decide (63 ≤ fbyte f.bytes (payOff f.bytes + 2))) then d
  else if cut then
    let d := d.incSat CHN_SW_CUT CHN_SW_CUT_CNT
    let d := if f.fcsOk then d else d.incSat CHN_SW_STOMP CHN_SW_STOMP_CNT
    let (b, d) := d.relay f.bytes
    d.emit e b f.fcsOk
  else if f.fcsOk then
    let (b, d) := d.relay f.bytes
    d.emit e b true
  else d

/-- The switch sends frames for this destination to `out` (0, 1, or 2: the host). -/
def Dev.goesTo (d : Dev) (f : List Byte) (out : Nat) : Bool :=
  match if multicast f then none else d.net.macs.find? (fun e => e.1 == leNat (dstOf f)) with
  | some e => e.2.1 == out
  | none => true

/-- The message of R577 in bytes that came over a link. -/
def extParse (link : Fin 11) (src : Nat) (b : List Byte) : ExtMsg :=
  let n := (hdrLen (leNat (slice b 0 4)) + 3) / 4
  { link := link, src := BitVec.ofNat 48 src
    hdr := wordOf (leNat (slice b 0 4)), sid := wordOf (leNat (slice b 4 4)), ctr := wordOf (leNat (slice b 8 4))
    payload := bytesWords n (slice b 12 (4 * n)), tag := BitVec.ofNat 64 (leNat (slice b (12 + 4 * n) 8)) }

/-- Chozer reads its own frames: a hello, or a request to the port's MAC address (R605, R608). -/
def Dev.chozIn (d : Dev) (p : Fin 4) (f : List Byte) : Dev :=
  let o := payOff f
  let own := if d.swOn && decide (p.val = 1) then 0 else p.val
  if d.chozFrame 1 f then
    d.at_ d.beam (.helloReceived p (BitVec.ofNat 64 (leNat (slice f (o + 4) 8))) (Fin.ofNat 256 (fbyte f (o + 2))))
  else if d.chozFrame 2 f && dstOf f == d.macBytes own then
    d.at_ d.beam (.externalMessage (extParse ⟨p.val, by omega⟩ (leNat (srcOf f)) (f.drop (o + 2))))
  else d

/-- A frame has arrived at port `p` (R592, R593, R598-R600). -/
def Dev.frameIn (d : Dev) (p : Fin 4) (f : NetFrame) : Dev :=
  let b := f.bytes
  if !(d.portUp p) || !(decide (60 ≤ b.length ∧ b.length ≤ 1518)) then d
  else if d.swOn && decide (p.val < 2) then
    let fwd := d.chnFwd && !(d.b CHN_SW_CTL CHN_SW_CTL_BLOCK1) && d.goesTo b (1 - p.val)
    let host := f.fcsOk && d.goesTo b 2
    let d := if f.fcsOk then d.learn b p else d
    let d := if fwd then d.forward p f else d
    if host then (d.chozIn p b).hostIn 0 b else d
  else if f.fcsOk then (d.chozIn p b).hostIn p b
  else d

/-! ### Partner discovery (R603-R607) -/

def Dev.portCfg (d : Dev) (p : Nat) : PortCfg := tabGet {} d.net.cfg p

def Dev.partner (d : Dev) (i : Nat) : Option Partner := tabGet none d.net.partners i
def Dev.setPartner (d : Dev) (i : Nat) (x : Option Partner) : Dev :=
  { d with net := { d.net with partners := tabSet none d.net.partners i x } }

/-- Payload of sources 0x0120 and 0x0121 (R607). -/
def partnerPayload (i : Nat) (x : Partner) : Nat := i % 64 + x.port % 4 * 64 + b2n x.rear * 256 + x.hop % 64 * 512

/-- The lowest free entry. -/
def Dev.partnerFree (d : Dev) : Option Nat := (List.range 64).find? fun i => (d.partner i).isNone

/-- The entry of an identity. -/
def Dev.partnerOf (d : Dev) (id : Nat) : Option (Nat × Partner) :=
  (List.range 64).findSome? fun i =>
    match d.partner i with
    | some x => if x.ident = id then some (i, x) else none
    | none => none

/-- 330 ms in ticks. -/
def helloAge : Nat := 330 * msTicks

/-- Identity `id` was seen on ports 0 and 1 within 330 ms. -/
def Dev.seenBoth (d : Dev) (id : Nat) : Bool :=
  match tabFind d.net.seen0 id, tabFind d.net.seen1 id with
  | some a, some b => decide (d.beam ≤ a + helloAge ∧ d.beam ≤ b + helloAge)
  | _, _ => false

/-- LOOP is set and source 0x0123 raised; with the switch on, BLOCK1 is set (R605, R606). -/
def Dev.loopFound (d : Dev) : Dev :=
  let d := (d.set1 CHN_SW_STATUS CHN_SW_STATUS_LOOP).raise 0x0123
  if d.swOn then d.wf CHN_SW_CTL CHN_SW_CTL_BLOCK1 1 else d

/-- Remember on which of ports 0 and 1 an identity was seen. -/
def Dev.seeHello (d : Dev) (p id : Nat) : Dev :=
  let keep (t : Tab Nat) : Tab Nat := t.filter fun e => decide (d.beam ≤ e.2 + helloAge)
  if p = 0 then { d with net := { d.net with seen0 := tabIns id d.beam (tabDel (keep d.net.seen0) id) } }
  else if p = 1 then { d with net := { d.net with seen1 := tabIns id d.beam (tabDel (keep d.net.seen1) id) } }
  else d

/-- The entry after a hello on port `p` with hop count `hop` (R605). -/
def partnerSeen (x : Partner) (p hop now : Nat) (rear : Bool) : Partner :=
  let x := if hop < x.hop ∨ (hop = x.hop ∧ p < x.port) then { x with port := p, hop := hop } else x
  let x := if x.port = p then { x with seen := now } else x
  { x with rear := rear }

/-- A hello is received on port `p` (R605). -/
def Dev.helloIn (d : Dev) (p id hop : Nat) : Dev :=
  let rear := (d.portCfg p).rear
  if id = Config.identity % 18446744073709551616 then d.loopFound
  else
    let d := d.seeHello p id
    match d.partnerOf id with
    | some (i, x) =>
      let d := d.setPartner i (some (partnerSeen x p hop d.beam rear))
      if d.swOn && d.seenBoth id then d.loopFound else d
    | none =>
      match d.partnerFree with
      | none => if d.net.full then d else ({ d with net := { d.net with full := true } }).raise 0x0122
      | some i =>
        let x : Partner := { ident := id, port := p, rear := rear, hop := hop, seen := d.beam }
        let d := (d.setPartner i (some x)).raise 0x0120 (partnerPayload i x)
        if d.swOn && d.seenBoth id then d.loopFound else d

/-- Entry `i` is freed when its partner has been silent for more than 330 ms. -/
def Dev.partnerAge (d : Dev) (i : Nat) : Dev :=
  match d.partner i with
  | some x =>
    if x.seen + helloAge < d.beam then
      let d := (d.setPartner i none).raise 0x0121 (partnerPayload i x)
      { d with net := { d.net with full := false } }
    else d
  | none => d

/-- The hello frame of port `p` (R603). -/
def Dev.helloFrame (d : Dev) (p : Nat) : List Byte :=
  let t := if d.b BEAM_STATUS BEAM_STATUS_TT_VALID then d.trainTime else 0
  padFrame ([0x03, 0x00, 0x47, 0x56, 0x5A, 0x01] ++ d.macBytes p ++ (leBytes (d.f CHN_ETYPE CHN_ETYPE_T) 2).reverse ++
    [1, 1, 0, BitVec.ofNat 8 (b2n (d.portCfg p).rear + 2 * b2n d.swOn)] ++ leBytes Config.identity 8 ++ leBytes t 8)

/-- The next hello of port `p`: 100 ms ± 1 ms on. -/
def Dev.nextHello (d : Dev) (p : Fin 4) : Dev :=
  if (d.portCfg p).disc then
    (d.at_ (d.beam + 99 * msTicks + d.freeVal % (2 * msTicks + 1)) (.helloSend p)).freeNext
  else d

/-- The next peer delay exchange of port `p`: 1 s on. -/
def Dev.nextPeer (d : Dev) (p : Fin 4) : Dev :=
  if (d.portCfg p).tsync then d.at_ (d.beam + secTicks) (.peerDelayInterval p) else d

/-- The setting of CHN_CFG of port `p` takes effect. -/
def Dev.portApply (d : Dev) (p : Fin 4) (x : PortCfg) : Dev :=
  let d := { d with net := { d.net with cfg := tabSet {} d.net.cfg p x } }
  (((d.cancel (.helloSend p)).cancel (.peerDelayInterval p)).nextHello p).nextPeer p

/-- The setting of CHN_SWITCH takes effect; BLOCK1 clears (R600, R606). -/
def Dev.switchApply (d : Dev) (en safe : Bool) : Dev :=
  let d := { d with net := { d.net with swEn := en, swSafe := safe } }
  d.w CHN_SW_CTL (wordOf (b2n en + 2 * b2n safe))

/-- Chozer applies the stored settings as the last step of START (R602); the partner table is empty (R607). -/
def Dev.chainStart (d : Dev) : Dev :=
  let d := { d with net := { d.net with partners := [], full := false, seen0 := [], seen1 := [], fwdLost := none } }
  let d := d.each (List.finRange 4) fun d (p : Fin 4) => d.portApply p (d.portCfg p)
  let d := if d.part.hasSwitch then d.switchApply d.net.swEn d.net.swSafe else d
  (d.cancel .partnerAgeCheck).at_ (d.beam + 10 * msTicks) .partnerAgeCheck

/-- The 16 bytes of partner entry `i` as words (R574). -/
def Dev.partnerWords (d : Dev) (i : Nat) : List Word :=
  match d.partner i with
  | some x =>
    [wordOf x.ident, wordOf (x.ident / 4294967296),
     wordOf (x.port + b2n x.rear * 0x100 + x.hop % 256 * 0x10000 + 0x1000000), wordOf ((d.beam - x.seen) / msTicks)]
  | none => [0, 0, 0, 0]

/-! ### Time synchronisation (R597) -/

/-- The servo after a Sync with error `e`. -/
def Dev.servoStep (d : Dev) (e : Int) : Dev :=
  if d.net.servo = 0 then { d with net := { d.net with servo := 1, good := 0 } }
  else if d.net.servo = 1 then
    let good := if e.natAbs < 100 then d.net.good + 1 else 0
    if 8 ≤ good then ({ d with net := { d.net with servo := 2, good := 0 } }).raise 0x0124
    else { d with net := { d.net with good := good } }
  else if 1000 < e.natAbs then ({ d with net := { d.net with servo := 1, good := 0 } }).raise 0x0125
  else d

/-- A Sync from the grandmaster on port `p` with the measured error. -/
def Dev.syncIn (d : Dev) (p : Fin 4) (gm : Nat) (e : Int) : Dev :=
  if d.chozUp && (d.portCfg p).tsync && d.portUp p && !d.lost then
    let d := d.servoStep e
    let new := (sext 64 d.ttOffset - e) % 18446744073709551616
    let d := (d.ofsLo (wordOfInt new)).ofsHi (wordOfInt (new / 4294967296))
    let d := { d with net := { d.net with err := e, gm := gm, lastSync := d.beam } }
    (d.cancel .syncTimeout).at_ (d.beam + 3 * secTicks) .syncTimeout
  else d

/-! ### Meanings -/

/-- CHN_PARTNERS (R574): three entries of the partner table. -/
def execChnPartners (s : State) : Host.Outcome State Fault Refusal :=
  s.done fun d => d.choz 0x500 (lenIs 4) fun d rq =>
    let i := rqw rq 1
    if 63 < i then ans d stBADARG
    else
      let n := ((List.range 64).filter fun k => (d.partner k).isSome).length
      ans d stOK (wordOf n :: (d.partnerWords i ++ d.partnerWords (i + 1) ++ d.partnerWords (i + 2)))

/-- CHN_CFG: discovery, direction and time synchronisation of a port (R602). -/
def execChnCfg (s : State) : Host.Outcome State Fault Refusal :=
  s.done fun d => d.choz 0x501 (lenIs 4) fun d rq =>
    let v := rqw rq 1
    if !(onlyBits v 0x703) then ans d stBADARG
    else if !d.inSetup then ans d stDENIED
    else match d.ownCommit with
      | (d, 0) => ans (d.portApply (Fin.ofNat 4 v) { disc := nbit v 8, rear := nbit v 9, tsync := nbit v 10 }) stOK
      | (d, st) => ans d st

/-- CHN_SWITCH (R600, R602, R606): the inline switch. -/
def execChnSwitch (s : State) : Host.Outcome State Fault Refusal :=
  s.done fun d => d.choz 0x502 (lenIs 4) fun d rq =>
    let v := rqw rq 1
    if !(onlyBits v 3) then ans d stBADARG
    else if !d.part.hasSwitch then ans d stABSENT
    else if !d.inSetup then ans d stDENIED
    else if nbit v 0 && d.net.seen0.any (fun e => d.seenBoth e.1) then ans d stLOOP
    else match d.ownCommit with
      | (d, 0) => ans (d.switchApply (nbit v 0) (nbit v 1)) stOK
      | (d, st) => ans d st

/-- CHN_TIME: train time and the servo. -/
def execChnTime (s : State) : Host.Outcome State Fault Refusal :=
  s.done fun d => d.choz 0x503 (lenIs 0) fun d _ =>
    ans d stOK [wordOf d.ttOffset, wordOf (d.ttOffset / 4294967296), wordOf d.net.servo,
      wordOfInt (satInt 32 d.net.err), wordOf d.net.gm, wordOf (d.net.gm / 4294967296)]

/-- TX_KICK (R592): a write of CHN_TXR_KICK. -/
def execTxKick (q : Req) (p : Fin 4) (r : Fin 8) (s : State) : Host.Outcome State Fault Refusal :=
  s.done fun d => d.wr q (CHN_TXR_KICK p r) fun d => d.txKick p r

/-- FRAME_TRANSMITTED (R592): a frame of a transmit ring is sent. -/
def execFrameTransmitted (p : Fin 4) (r : Fin 8) (s : State) : Host.Outcome State Fault Refusal :=
  s.done fun d => d.txDone p r

/-- FRAME_RECEIVED (R592): a frame has arrived. -/
def execFrameReceived (p : Fin 4) (f : NetFrame) (s : State) : Host.Outcome State Fault Refusal :=
  s.done fun d => d.frameIn p f

/-- GATE_CHANGE (R594): train time reaches a gate control instant. -/
def execGateChange (p : Fin 4) (s : State) : Host.Outcome State Fault Refusal :=
  s.done fun d => if d.ticking && d.powered (9 + p) then d.gateChange p else d

/-- GCL_APPLY (R595): a write of 1 to APPLY. -/
def execGclApply (q : Req) (p : Fin 4) (s : State) : Host.Outcome State Fault Refusal :=
  s.done fun d => d.wr q (CHN_GCL_CTL p) fun d => d.gclApply p

/-- ADDRESS_AGE_OUT (R598): a learned address has not been seen for CHN_SW_AGE seconds. -/
def execAddressAgeOut (i : Nat) (s : State) : Host.Outcome State Fault Refusal :=
  s.done fun d =>
    match d.net.macs[i]? with
    | some e =>
      if e.2.2 + max 1 (d.f CHN_SW_AGE CHN_SW_AGE_S) * secTicks ≤ d.beam then
        { d with net := { d.net with macs := d.net.macs.eraseIdx i } }
      else d
    | none => d

/-- LINK_CHANGE (R616): a port's link comes up or goes down. -/
def execLinkChange (p : Fin 4) (up : Bool) (s : State) : Host.Outcome State Fault Refusal :=
  s.done fun d =>
    if d.powered (9 + p) && d.b (CHN_STATUS p) CHN_STATUS_LINK != up then
      (d.wf (CHN_STATUS p) CHN_STATUS_LINK (b2n up)).chnRaise p 0
    else d

/-- SYNC_RECEIVED (R597): a Sync from the grandmaster. -/
def execSyncReceived (p : Fin 4) (gm offset : BitVec 64) (s : State) : Host.Outcome State Fault Refusal :=
  s.done fun d => d.syncIn p gm.toNat offset.toInt

/-- SYNC_TIMEOUT (R597): no Sync for 3 s. -/
def execSyncTimeout (s : State) : Host.Outcome State Fault Refusal :=
  s.done fun d => if d.net.lastSync + 3 * secTicks ≤ d.beam then d.servoOff else d

/-- HELLO_SEND (R603): a port with DISC_EN sends its hello. -/
def execHelloSend (p : Fin 4) (s : State) : Host.Outcome State Fault Refusal :=
  s.done fun d =>
    let d := (d.cancel (.helloSend p)).nextHello p
    if (d.portCfg p).disc && d.managerUp && d.portUp p && d.mode != mDormant then d.emit p (d.helloFrame p) true else d

/-- HELLO_RECEIVED (R605): a hello of another unit. -/
def execHelloReceived (p : Fin 4) (ident : BitVec 64) (hop : Fin 256) (s : State) : Host.Outcome State Fault Refusal :=
  s.done fun d => if d.chozUp then d.helloIn p ident.toNat hop else d

/-- PARTNER_AGE_CHECK (R605): every 10 ms silent partners are freed. -/
def execPartnerAgeCheck (s : State) : Host.Outcome State Fault Refusal :=
  s.done fun d =>
    let d := (d.cancel .partnerAgeCheck).at_ (d.beam + 10 * msTicks) .partnerAgeCheck
    if d.chozUp then d.each (List.range 64) fun d i => d.partnerAge i else d

/-- PEER_DELAY_INTERVAL (R597): a peer delay exchange on a port with TSYNC_EN. -/
def execPeerDelayInterval (p : Fin 4) (s : State) : Host.Outcome State Fault Refusal :=
  s.done fun d =>
    let d := (d.cancel (.peerDelayInterval p)).nextPeer p
    if (d.portCfg p).tsync && d.chozUp && d.portUp p then
      { d with net := { d.net with peer := tabSet 0 d.net.peer p d.beam } }
    else d

end Sys2Proof.Machine
end

