-- ==== Sys2Proof/Machine/Can.lean ====
section
/-! DEFINITION. CAN FD controllers (spec/19_chain_and_can.md R609-R617). -/

namespace Sys2Proof.Machine
open Sys2Proof

/-! ### Controllers -/

/-- Raise controller `c`'s source `k` when CAN_IRQ_EN bit `k` is set (R616). -/
def Dev.canRaise (d : Dev) (c k : Nat) : Dev := d.raiseIf (d.bit (CAN_IRQ_EN c) k) (0x140 + 8 * c + k)

/-- Controller `c` takes part in the bus: power, INIT 0, not bus-off. -/
def Dev.canOn (d : Dev) (c : Nat) : Bool :=
  d.powered (14 + c) && !(d.b (CAN_CTL c) CAN_CTL_INIT) && !(d.b (CAN_STATUS c) CAN_STATUS_BUS_OFF)

/-- Number of data bytes of a DLC. -/
def dlcLen (fd : Bool) (n : Nat) : Nat :=
  if n ≤ 8 then n else if fd then [12, 16, 20, 24, 32, 48, 64].getD (n - 9) 64 else 8

/-- Identifier of transmit buffer `b`. -/
def Dev.txId (d : Dev) (c b : Nat) : Nat := (d.r (CAN_TXB c b 0)).toNat % 536870912

/-- The pending buffer with the lowest identifier; ties go to the lower number (R612). -/
def Dev.canFirst (d : Dev) (c : Nat) : Option Nat :=
  ((List.range 16).filter fun b => d.bit (CAN_TXPEND c) b).foldl (fun m b =>
    match m with
    | none => some b
    | some x => if d.txId c b < d.txId c x then some b else some x) none

/-- A buffer enters arbitration when none is in it (R612). -/
def Dev.canPick (d : Dev) (c : Nat) : Dev :=
  let x := d.canc c
  if d.canOn c && !(d.b (CAN_CTL c) CAN_CTL_LISTEN) then
    match x.pick with
    | none => d.setCanc c { x with pick := d.canFirst c }
    | some _ => d
  else d.setCanc c { x with pick := none }

/-- Set or clear the pending bit of buffer `b`. -/
def Dev.canPend (d : Dev) (c b : Nat) (v : Bool) : Dev := d.wf (CAN_TXPEND c) ⟨b, 1⟩ (b2n v)

/-- The frame that buffer `b` holds. -/
def Dev.canFrameOf (d : Dev) (c b : Nat) : CanFrame :=
  let w := (d.r (CAN_TXB c b 0)).toNat
  let fd := nbit w 30 && d.b (CAN_CTL c) CAN_CTL_FD_EN
  let n := (d.r (CAN_TXB c b 1)).toNat % 16
  { ide := nbit w 31, fdf := fd, brs := fd && nbit w 29 && d.b (CAN_CTL c) CAN_CTL_BRS_EN, id := BitVec.ofNat 29 w,
    dlc := Fin.ofNat 16 n
    data := (wordBytes ((List.range 16).map fun i => d.r (CAN_TXB c b (2 + i)))).take (dlcLen fd n) }

/-- A write of CAN_TXREQ (R612). -/
def Dev.canTxReq (d : Dev) (c mask : Nat) : Dev :=
  ((List.range 16).foldl (fun d b => if nbit mask b then d.canPend c b true else d) d).canPick c

/-- A write of CAN_TXABORT: a buffer in arbitration may already be on the bus (R612; log entry 5). -/
def Dev.canTxAbort (d : Dev) (c mask : Nat) : Dev :=
  let onBus := nbit d.freeVal 0
  let d := d.freeNext
  let d := (List.range 16).foldl (fun d b =>
    if nbit mask b && !(onBus && (d.canc c).pick == some b) then
      let d := d.canPend c b false
      if (d.canc c).pick == some b then d.setCanc c { d.canc c with pick := none } else d
    else d) d
  d.canPick c

/-- Words of the register view of the FIFO head (CAN_RXF). -/
def Dev.canRxf (d : Dev) (c i : Nat) : Word :=
  match (d.canc c).fifo with
  | [] => 0
  | (f, t, k) :: _ =>
    match i with
    | 0 => wordOf (b2n f.ide * 2147483648 + b2n f.fdf * 1073741824 + b2n f.brs * 536870912 + f.id.toNat)
    | 1 => wordOf (k * 0x1000000 + f.dlc.val)
    | 2 => wordOf t
    | 3 => wordOf (t / 4294967296)
    | i + 4 => wordOf (leNat (slice f.data (4 * i) 4))

/-! ### Reception (R609, R612) -/

/-- Filter `k` of controller `c` is enabled. -/
def Dev.fltOn (d : Dev) (c k : Nat) : Bool := d.b (CAN_FLT_ID c k) CAN_FLT_ID_EN

/-- The frame passes filter `k`. -/
def Dev.fltPass (d : Dev) (c k : Nat) (f : CanFrame) : Bool :=
  let w := (d.r (CAN_FLT_ID c k)).toNat
  let m := d.f (CAN_FLT_MASK c k) CAN_FLT_MASK_M
  d.fltOn c k && nbit w 30 == f.ide && (w % 536870912 &&& m) == (f.id.toNat &&& m)

/-- The filter that admits a frame: the lowest that it passes; 0 where none is enabled. -/
def Dev.fltOf (d : Dev) (c : Nat) (f : CanFrame) : Option Nat :=
  if (List.range 16).any fun k => d.fltOn c k then (List.range 16).find? fun k => d.fltPass c k f else some 0

/-- A frame for the receive FIFO. -/
def Dev.canStore (d : Dev) (c : Nat) (f : CanFrame) : Dev :=
  match d.fltOf c f with
  | none => d
  | some k =>
    let x := d.canc c
    if 32 ≤ x.fifo.length then (d.set1 (CAN_STATUS c) CAN_STATUS_RX_OVF).canRaise c 4
    else
      let d := d.setCanc c { x with fifo := x.fifo ++ [(f, d.beam, k)] }
      (d.fire 7 (0x90 + 4 * c)).canRaise c 0

/-- A segment of a management message (R609). -/
def Dev.canSegment (d : Dev) (c : Fin 6) (data : List Byte) : Dev :=
  let x := d.canc c
  let h := fbyte data 0
  let late := decide (x.segAt + 50 * msTicks < d.beam)
  let fresh := if x.segNo ≠ 0 ∧ late then { x with seg := [], segNo := 0 } else x
  let drop : CanH := { x with seg := [], segNo := 0 }
  if h % 128 ≠ fresh.segNo then d.setCanc c drop
  else
    let msg := fresh.seg ++ data.drop 1
    if nbit h 7 then
      let d := d.setCanc c drop
      let need := 20 + (hdrLen (leNat (slice msg 0 4)) + 3) / 4 * 4
      if msg.length < need then d else d.at_ d.beam (.externalMessage (extParse ⟨4 + c.val, by omega⟩ 0 msg))
    else
      let d := d.setCanc c { fresh with seg := msg, segNo := fresh.segNo + 1, segAt := d.beam }
      (d.cancel (.canSegmentTimeout c)).at_ (d.beam + 50 * msTicks + 1) (.canSegmentTimeout c)

/-- A frame of the bus was received. -/
def Dev.canIn (d : Dev) (c : Fin 6) (f : CanFrame) : Dev :=
  if !(d.canOn c) || (f.fdf && !(d.b (CAN_CTL c) CAN_CTL_FD_EN)) then d
  else if d.b (CAN_MGMT c) CAN_MGMT_EN && f.ide && f.fdf && f.id.toNat == d.f (CAN_MGMT c) CAN_MGMT_ID then
    d.canSegment c f.data
  else d.canStore c f

/-! ### Errors (R613) -/

/-- The error counters and what follows from them. -/
def Dev.canErrors (d : Dev) (c tec rxc : Nat) : Dev :=
  let passive := decide (128 ≤ tec ∨ 128 ≤ rxc)
  let was := d.b (CAN_STATUS c) CAN_STATUS_PASSIVE
  let d := (d.wf (CAN_ERRCNT c) CAN_ERRCNT_TEC tec).wf (CAN_ERRCNT c) CAN_ERRCNT_REC (min 255 rxc)
  let d := d.wf (CAN_STATUS c) CAN_STATUS_WARN (b2n (decide (96 ≤ tec ∨ 96 ≤ rxc)))
  let d := d.wf (CAN_STATUS c) CAN_STATUS_PASSIVE (b2n passive)
  if passive && !was then d.canRaise c 2 else d

/-- The controller goes bus-off. -/
def Dev.canBusOff (d : Dev) (c : Nat) : Dev :=
  let d := (d.wf (CAN_STATUS c) CAN_STATUS_BUS_OFF 1).wf (CAN_STATUS c) CAN_STATUS_SYNCED 0
  let d := d.setCanc c { d.canc c with recov := false }
  (d.fire 7 (0x90 + 4 * c + 2)).canRaise c 3

/-- A write of INIT (R613). -/
def Dev.canInit (d : Dev) (c : Nat) (v : Bool) : Dev :=
  let was := d.b (CAN_CTL c) CAN_CTL_INIT
  let d := d.wf (CAN_CTL c) CAN_CTL_INIT (b2n v)
  if v then (d.wf (CAN_STATUS c) CAN_STATUS_SYNCED 0).canPick c
  else
    let d := if was && d.b (CAN_STATUS c) CAN_STATUS_BUS_OFF then d.setCanc c { d.canc c with recov := true } else d
    d.canPick c

/-! ### Meanings -/

/-- CAN_SEGMENT_TIMEOUT (R609): 50 ms without the next segment. -/
def execCanSegmentTimeout (c : Fin 6) (s : State) : Host.Outcome State Fault Refusal :=
  s.done fun d =>
    let x := d.canc c
    if x.segNo ≠ 0 ∧ x.segAt + 50 * msTicks < d.beam then d.setCanc c { x with seg := [], segNo := 0 } else d

/-- CAN_TXREQ (R612): a write of CAN_TXREQ. -/
def execCanTxreq (q : Req) (c : Fin 6) (mask : BitVec 16) (s : State) : Host.Outcome State Fault Refusal :=
  s.done fun d => d.wr q (CAN_TXREQ c) fun d => d.canTxReq c mask.toNat

/-- CAN_TXABORT (R612): a write of CAN_TXABORT. -/
def execCanTxabort (q : Req) (c : Fin 6) (mask : BitVec 16) (s : State) : Host.Outcome State Fault Refusal :=
  s.done fun d => d.wr q (CAN_TXABORT c) fun d => d.canTxAbort c mask.toNat

/-- CAN_RXPOP: a write removes the head of the receive FIFO. -/
def execCanRxpop (q : Req) (c : Fin 6) (s : State) : Host.Outcome State Fault Refusal :=
  s.done fun d => d.wr q (CAN_RXPOP c) fun d => d.setCanc c { d.canc c with fifo := (d.canc c).fifo.tail }

/-- CAN_FRAME_RECEIVED (R612): a frame was received from the bus. -/
def execCanFrameReceived (c : Fin 6) (f : CanFrame) (s : State) : Host.Outcome State Fault Refusal :=
  s.done fun d => d.canIn c f

/-- CAN_FRAME_TRANSMITTED (R612): the buffer in arbitration was sent. -/
def execCanFrameTransmitted (c : Fin 6) (b : Fin 16) (s : State) : Host.Outcome State Fault Refusal :=
  s.done fun d =>
    if d.canOn c && (d.canc c).pick == some b.val then
      let d := d.setCanc c { d.canc c with sent := (d.canc c).sent ++ [d.canFrameOf c b], pick := none }
      let d := d.canPend c b false
      ((d.fire 7 (0x90 + 4 * c + 1)).canRaise c 1).canPick c
    else d

/-- CAN_BUS_ERROR (R613): arbitration was lost, or an error changed the counters to `tec` and `rxc` as ISO 11898-1 says. -/
def execCanBusError (c : Fin 6) (lostArb tx : Bool) (b : Fin 16) (tec rxc : Fin 512) (s : State) :
    Host.Outcome State Fault Refusal :=
  s.done fun d =>
    if d.canOn c then
      let d :=
        if tx && (d.canc c).pick == some b.val then
          let d := d.setCanc c { d.canc c with pick := none }
          if d.b (CAN_CTL c) CAN_CTL_ONE_SHOT then d.canPend c b false else d
        else d
      let d := if lostArb then d else d.canErrors c tec rxc
      let d := if !lostArb && decide (256 ≤ tec.val) then d.canBusOff c else d
      d.canPick c
    else d

/-- BUS_OFF_RECOVERY (R613): 128 occurrences of 11 recessive bits. -/
def execBusOffRecovery (c : Fin 6) (s : State) : Host.Outcome State Fault Refusal :=
  s.done fun d =>
    if d.powered (14 + c) && d.b (CAN_STATUS c) CAN_STATUS_BUS_OFF && !(d.b (CAN_CTL c) CAN_CTL_INIT) &&
        (d.b (CAN_CTL c) CAN_CTL_AUTO_RECOV || (d.canc c).recov) then
      let d := (d.wf (CAN_STATUS c) CAN_STATUS_BUS_OFF 0).canErrors c 0 0
      (d.setCanc c { d.canc c with recov := false }).canPick c
    else d

/-- CAN_INIT_WRITE (R613): a write of INIT. -/
def execCanInitWrite (q : Req) (c : Fin 6) (v : Bool) (s : State) : Host.Outcome State Fault Refusal :=
  s.done fun d => d.wr q (CAN_CTL c) fun d => d.canInit c v

/-- CAN_SYNCED (R610): a controller with INIT 0 has joined the bus. -/
def execCanSynced (c : Fin 6) (s : State) : Host.Outcome State Fault Refusal :=
  s.done fun d => if d.canOn c then d.wf (CAN_STATUS c) CAN_STATUS_SYNCED 1 else d

end Sys2Proof.Machine
end

