-- ==== Sys2Proof/Machine/Power.lean ====
section
/-! DEFINITION. Reset, START, supplies, supply loss, DORMANT and the manager watchdog (spec/20_modes_power_boot.md
R618-R636, spec/21_failure_containment.md R643-R646, R651). -/

namespace Sys2Proof.Machine
open Sys2Proof

/-! ### Power-on reset (R626) -/

/-- Transient counts that were never committed are lost (R651). -/
def diagRestore (t : Tab Nat) : Tab Nat :=
  (t.filter fun e => decide (0x40000 ≤ e.1)).foldl (fun t e => tabSet 0 t (e.1 - 0x40000) e.2)
    (t.filter fun e => decide (0x10000 ≤ e.1))

/-- The device after a power-on reset: the ledger array with the bucket it saved, Chozer's reserved records and the powered
time survive; everything else is as at reset. -/
def Dev.powerOn (d : Dev) (pin : Bool) : Dev :=
  let l := d.ledger
  let e : Dev := {
    part := d.part
    free := d.free
    grants := d.grants
    ledger := { recs := l.recs, slots := l.slots, lg := l.lg, saved := l.saved, passes := l.passes,
                powered := l.powered + d.beam, testAt := l.testAt }
    chozer := { creds := d.chozer.creds, updX := d.chozer.updX, updY := d.chozer.updY, imgs := d.chozer.imgs }
    net := { cfg := d.net.cfg, swEn := d.net.swEn, swSafe := d.net.swSafe }
    diag := diagRestore d.diag }
  e.wf PWR_RST_CAUSE (if pin then PWR_RST_CAUSE_PIN else PWR_RST_CAUSE_POR) 1

/-! ### What Chozer loads (R9) -/

/-- Load the firmware's value of a register field. -/
def Dev.fw (d : Dev) (a : Nat) (f : Fld) : Dev := d.wf a f (Config.fwValue a)

/-- Values set at the factory, in force from the release of reset. -/
def Dev.factory (d : Dev) : Dev := (d.w PWR_GOV_LIMITS 0x03B60320).w BEAM_RING_LIM 0x016800AA

/-- The hold-up monitor's values. -/
def Dev.fwHoldup (d : Dev) : Dev :=
  let d := (d.fw SGN_HUP_DIV SGN_HUP_DIV_DIV).fw SGN_HUP_VMIN SGN_HUP_VMIN_VMIN
  let d := (d.fw SGN_HUP_C SGN_HUP_C_C).fw SGN_HUP_TEST SGN_HUP_TEST_I_MA
  d.fw SGN_EXT SGN_EXT_EXT_MW

/-- Calibration of the analog channels. -/
def Dev.fwCal (d : Dev) : Dev :=
  d.each (List.range d.part.islands) fun d n => d.each (List.range 16) fun d c =>
    (d.wf (ACH_CAL n c) ACH_CAL_GAIN (Config.fwValue (ACH_CAL n c) / 65536)).wf (ACH_CAL n c) ACH_CAL_OFS
      (Config.fwValue (ACH_CAL n c))

/-- Routing entries of 0x0000-0x01FF but the fixed ones: EN 1, PRIO 8, OWNER 8 (spec/14_pendant.md R467). -/
def Dev.bootRoutes (d : Dev) : Dev := d.each (List.range 512) fun d s => d.routeWrite s 0x188

/-- Step 6 of START: `FW` fields, routing entries and mailbox owners are loaded; Chozer enables the watchdog. -/
def Dev.fwLoad (d : Dev) : Dev :=
  let d := (d.fw PWR_GOV_CTL PWR_GOV_CTL_PMB_ADDR).fwCal
  let d := d.each (List.range 9) fun d c => if d.part.hasCore c then d.coreFw c else d
  let d := d.each (List.range 4) fun d p => (d.fw (CHN_MAC_LO p) CHN_MAC_LO_MAC).fw (CHN_MAC_HI p) CHN_MAC_HI_MAC
  let d := d.each (List.range 16) fun d m => d.wf (MBX_OWNER m) MBX_OWNER_OWNER (m % 8)
  let d := (d.fw PWR_WDOG_CTL PWR_WDOG_CTL_ALT_OWNER).bootRoutes.mailboxRoutes
  let d := { d.wf PWR_WDOG_CTL PWR_WDOG_CTL_EN 1 with power := { d.power with kick := d.beam } }
  (d.cancel .watchdogExpiry).at_ (d.beam + 50000000) .watchdogExpiry

/-! ### Images (R585, R589, R633) -/

/-- Slot B (or A) of image `i` verifies. -/
def slotOk (b : BootInfo) (i : Nat) (slotB : Bool) : Bool := nbit (if slotB then b.okB.toNat else b.okA.toNat) i

/-- The START steps of R589 for image `i`. -/
def Dev.imageStart (d : Dev) (b : BootInfo) (i : Nat) : Dev :=
  let x := d.img i
  let new := !x.slotB
  let d :=
    if x.state = uAPPLIED ∧ slotOk b i new then
      let d := d.setImg i { x with runB := new, trialEnd := d.beam + x.trialS * secTicks }
      (d.updState i uTRIAL).at_ (d.beam + x.trialS * secTicks) (.trialExpiry (Fin.ofNat 8 i))
    else if x.state = uAPPLIED ∨ x.state = uTRIAL then (d.setImg i { x with runB := x.slotB }).updState i uFELLBACK
    else d.setImg i { x with runB := x.slotB }
  let y := d.img i
  if !(slotOk b i y.runB) && slotOk b i (!y.runB) then d.setImg i { y with runB := !y.runB } else d

/-- Some slot of image `i` verifies. -/
def imageValid (b : BootInfo) (i : Nat) : Bool := slotOk b i false || slotOk b i true

/-- LOAD lies in shared SRAM, or in the TCM of an island whose core the image names. -/
def loadOk (x : ImgInfo) : Bool :=
  let a := x.load.toNat
  let e := a + x.bytes.length
  decide (0x10000000 ≤ a ∧ e ≤ 0x10C00000) ||
  (List.range 6).any fun n =>
    nbit x.flags.toNat (8 + n) && decide (0x20000000 + n * 0x100000 ≤ a ∧ e ≤ 0x20080000 + n * 0x100000)

/-- Copy image `x` and point the cores it names at ENTRY; NOIMG clears for them. -/
def Dev.imageLoad (d : Dev) (x : ImgInfo) : Dev :=
  let d := d.storeBytes x.load.toNat x.bytes
  d.each (List.range 8) fun d c =>
    if nbit x.flags.toNat (8 + c) && d.part.hasCore c then
      (d.w (RESET_PC c) x.entry).wf PWR_BOOT ⟨24 + c, 1⟩ 0
    else d

/-- Step 7 of START: images 1-7 are verified and loaded; a core named by two images runs the lower-numbered one, so the
higher are loaded first. -/
def Dev.imagesStart (d : Dev) (b : BootInfo) : Dev :=
  let d := d.each (List.range 7) fun d i => d.imageStart b (i + 1)
  let d := d.wf PWR_BOOT PWR_BOOT_NOIMG 255
  let bad := (List.range 7).any fun i => !(imageValid b (i + 1))
  let d := if bad then d.wf PWR_BOOT PWR_BOOT_CODE b.code else d
  d.each (List.range 7) fun d k =>
    match b.images.find? fun x => x.image.val == 7 - k with
    | some x => if imageValid b (7 - k) && loadOk x then d.imageLoad x else d
    | none => d

/-! ### START (R632) -/

/-- Step 2: domains 2 and 6 power up, core 8 is released, and the boot ROM verifies image 0; where neither slot verifies the
device stays in START (R634). -/
def Dev.startChozer (d : Dev) (b : BootInfo) : Dev :=
  let d := (d.domainOn 2).domainOn 6
  let d := d.coreStart 8
  if imageValid b 0 then (d.imageStart b 0).wf PWR_BOOT PWR_BOOT_STAGE 3
  else
    let d := (d.wf PWR_BOOT PWR_BOOT_BOOT_FAIL 1).wf PWR_BOOT PWR_BOOT_CODE b.code
    { d with power := { d.power with boot := none } }

/-- Step 3: every present switched domain. -/
def Dev.startDomains (d : Dev) : Dev :=
  (d.each (List.range 124) fun d k => if switched k && d.hasDomain k then d.domainOn k else d).wf PWR_BOOT PWR_BOOT_STAGE 4

/-- Step 4: the map is rebuilt, or kept on a wake (R636); due records are refreshed (R551). -/
def Dev.startLedger (d : Dev) : Dev :=
  let d := if d.b SGN_STATUS SGN_STATUS_READY then
      { d.setBucket d.ledger.saved with ledger := { d.ledger with saved := 0 } }
    else d.fwHoldup.rebuild
  (d.each ((d.ledger.recs.map fun e => e.1).filter fun r => decide (d.refreshDays ≤ d.age r)) fun d r => d.refresh r).wf
    PWR_BOOT PWR_BOOT_STAGE 5

/-- The test's two attempts. -/
def Dev.testFirst (d : Dev) (b : BootInfo) : Dev := (d.testStart b.v1 2).testEnd b.v2 b.dt b.timeout
def Dev.testAgain (d : Dev) (b : BootInfo) : Dev := (d.testStart b.w1 4).testEnd b.w2 b.dt2 b.timeout2

/-- Step 5: the capacitance test, with its repeat (R541), and LG_FOUND (R545). -/
def Dev.startTest (d : Dev) (b : BootInfo) : Dev :=
  let d := Dev.testFirst { d with ledger := { d.ledger with test := 1 } } b
  let d := bif d.ledger.test == 3 then d.testAgain b else d
  d.lgJudge.wf PWR_BOOT PWR_BOOT_STAGE 6

/-- Step 8: Chain and switch settings, cores 0-7 with an image, SETUP (R602, R633, R619). -/
def Dev.startSetup (d : Dev) : Dev :=
  let d := d.chainStart
  let d := d.each ((List.finRange 9).filter fun (c : Fin 9) => c.val != 8 && d.part.hasCore c) fun d (c : Fin 9) =>
    if d.bit PWR_BOOT (24 + c.val) then d else d.coreStart c
  let d := { d.wf PWR_BOOT PWR_BOOT_STAGE 0 with power := { d.power with boot := none } }
  let d := (d.cancel .diagCountCommit).at_ (d.beam + 600 * secTicks) .diagCountCommit
  d.setMode mSetup 0

/-- The next step of START, one to a tick once the PLL has locked (log entry 1). -/
def Dev.bootStep (d : Dev) : Dev :=
  match d.power.boot with
  | none => d
  | some b =>
    if d.mode ≠ mStart ∨ d.power.losing then d
    else match d.f PWR_BOOT PWR_BOOT_STAGE with
      | 2 => d.startChozer b
      | 3 => d.startDomains
      | 4 => d.startLedger
      | 5 => d.startTest b
      | 6 =>
        let d := d.fwLoad
        let d := if b.linear then d else d.set1 PWR_GOV_STATUS PWR_GOV_STATUS_FMT_ERR
        d.wf PWR_BOOT PWR_BOOT_STAGE 7
      | 7 => (d.imagesStart b).wf PWR_BOOT PWR_BOOT_STAGE 8
      | 8 => d.startSetup
      | _ => d

/-! ### Supplies (R625-R628) -/

/-- Bit of PWR_SUP_STATUS for a warning of supply `s`: 0-3 VCORE, VBEAM, VDDA, VNVM; 4-11 VIO banks 0-7. -/
def warnBit (s : Nat) : Nat := if s < 4 then s else 8 + min 3 (s - 4)

/-- Bit of PWR_SUP_STATUS for a fault of supply `s`. -/
def faultBit (s : Nat) : Nat := if s < 4 then 12 + s else 16 + (s - 4)

/-- The device is not held in reset. -/
def Dev.alive (d : Dev) : Bool := !d.power.resetHeld

/-- HALT ends without resuming a core (R619, supply-loss signal). -/
def Dev.haltDrop (d : Dev) : Dev :=
  if d.mode = mHalt then { d with power := { d.power with rec_ := none } }.setMode mSafe d.present else d

/-- The supply-loss signal (R627): SAFE, then every domain but 0, 1 and 2 powers down; the last gasp follows. -/
def Dev.supplyLoss (d : Dev) : Dev :=
  let d := d.set1 PWR_SUP_STATUS PWR_SUP_STATUS_PFAIL
  let d := if d.mode = mHalt then d.haltDrop
    else if d.mode = mSetup ∨ d.mode = mRun then d.setMode mSafe d.present
    else d
  let d := d.each (List.range 128) fun d k => if 3 ≤ k ∧ d.powered k then d.domainOff k else d
  { d with power := { d.power with losing := true } }

/-! ### DORMANT (R635, R636) -/

/-- Commit the transient counts (R651). -/
def Dev.diagCommit (d : Dev) : Dev :=
  { d with diag := (d.diag.filter fun e => decide (e.1 < 0x10000)).foldl (fun t e => tabSet 0 t (e.1 + 0x40000) e.2) d.diag }

/-- The device wakes: START from step 2, with the count and the map kept. -/
def Dev.wakeUp (d : Dev) (b : BootInfo) (pin : Bool) : Dev :=
  let d := d.set1 PWR_WAKE (if pin then PWR_WAKE_BY_PIN else PWR_WAKE_BY_EVENT)
  let d := (d.set1 PWR_RST_CAUSE PWR_RST_CAUSE_WAKE).wf PWR_BOOT PWR_BOOT_STAGE 2
  { d with power := { d.power with boot := some b } }.setMode mStart d.safeMask

/-- A wake that arrives during entry to DORMANT is held. -/
def Dev.wakeHold (d : Dev) (b : BootInfo) (w : Nat) : Dev := { d with power := { d.power with boot := some b, wake := w } }

/-- Steps of the always-on parts: of an island, and WAKE. -/
def alwaysOnStep : Instr → Bool
  | .wakeEvent _ => true
  | .cellFilterOutput _ _ => true
  | .tripRecorded _ _ => true
  | .blankLong _ _ => true
  | _ => false

/-- The steps of R635; a wake held during entry starts the exit at once. -/
def Dev.dormant (d : Dev) : Dev :=
  let d := d.flushDeferred
  let d := { d with ledger := { d.ledger with saved := (d.r SGN_BUCKET).toNat } }
  let d := d.diagCommit.debugClose
  let d := d.each (List.range 9) fun d c => d.setCore c { d.core c with run := false }
  let d := if d.govActs then d.govCommand d.floor else d
  let w := d.power.wake
  let d := { d with power := { d.power with dormReq := false, wake := 0 } }.setMode mDormant d.safeMask
  let d := { d with net := { d.net with partners := [], full := false, seen0 := [], seen1 := [] },
                    agenda := d.agenda.filter fun x => alwaysOnStep x.cmd }
  let d := d.each (List.range 128) fun d k => if alwaysOn k || !(d.powered k) then d else d.domainOff k
  match d.power.boot with
  | some b => if w = 0 then d else d.wakeUp b (w == 1)
  | none => d

/-! ### The manager watchdog (R643-R646) -/

/-- The watchdog's time has passed: expiry on the 50,000,000th tick after the last kick. -/
def Dev.wdogDue (d : Dev) : Bool :=
  d.b PWR_WDOG_CTL PWR_WDOG_CTL_EN && !(d.b PWR_WDOG_STATUS PWR_WDOG_STATUS_PAUSED) &&
    !(d.b PWR_WDOG_STATUS PWR_WDOG_STATUS_EXPIRED) && decide (d.power.kick + 50000000 ≤ d.beam)

/-- The entry of a source rewritten by the watchdog; it holds for the sources of this tick. -/
def Dev.routeForce (d : Dev) (s v : Nat) : Dev :=
  { d with routeWas := tabDel d.routeWas s }.w (PND_ROUTE s) (wordOf v)

/-- The expiry (R644). -/
def Dev.wdogExpire (d : Dev) : Dev :=
  if d.wdogDue then
    let run := d.runMask
    let dest := 0x1F0 + d.f PWR_WDOG_CTL PWR_WDOG_CTL_ALT_OWNER
    let d := (d.set1 PWR_WDOG_STATUS PWR_WDOG_STATUS_EXPIRED).incSat PWR_WDOG_STATUS PWR_WDOG_STATUS_EXPIRIES
    let d := ((d.routeForce 0x0038 dest).routeForce 0x0039 dest).diagL 9 0
    (d.raise 0x0039 run).islandsSafe d.present PWR_SAFE_CAUSE_WATCHDOG
  else d

/-- A kick (R643, R646); one recorded on the expiry tick comes after the expiry. -/
def Dev.wdogKick (d : Dev) : Dev :=
  let d := d.wdogExpire
  let was := d.b PWR_WDOG_STATUS PWR_WDOG_STATUS_EXPIRED
  let d := d.wf PWR_WDOG_STATUS PWR_WDOG_STATUS_EXPIRED 0
  let d := { d with power := { d.power with kick := d.beam, paused := d.power.paused.map fun _ => 0 } }
  let d := if was then d.bootRoutes.mailboxRoutes else d
  if d.b PWR_WDOG_CTL PWR_WDOG_CTL_EN then
    (d.cancel .watchdogExpiry).at_ (d.beam + 50000000) .watchdogExpiry
  else d

/-! ### Meanings -/

/-- RESET_RELEASE (R626, R632): reset is released and START begins with step 1. -/
def execResetRelease (b : BootInfo) (s : State) : Host.Outcome State Fault Refusal :=
  s.done fun d =>
    if d.alive then d
    else
      let d := { d with power := { d.power with resetHeld := false, boot := some b } }.factory
      let d := d.each (List.range 124) fun d k => if alwaysOn k && d.hasDomain k then d.setPowered k true else d
      let d := if d.f PWR_RST_CAUSE ⟨0, 3⟩ = 0 then d.wf PWR_RST_CAUSE PWR_RST_CAUSE_POR 1 else d
      (d.wf PWR_MODE PWR_MODE_MODE mStart).wf PWR_BOOT PWR_BOOT_STAGE 1

/-- PORST_LOW (R626): a power-on reset; the last gasp does not run. -/
def execPorstLow (s : State) : Host.Outcome State Fault Refusal := s.done fun d => d.powerOn true

/-- SUPPLY_WARNING (R625): supply `s` has left its warning limits; VCORE warns only while an island is in RUN. -/
def execSupplyWarning (i : Fin 12) (s : State) : Host.Outcome State Fault Refusal :=
  s.done fun d =>
    if d.alive && (i.val != 0 || d.anyRun) then
      (d.setBit PWR_SUP_STATUS (warnBit i) true).raise 0x0001 (warnBit i)
    else d

/-- SUPPLY_FAULT (R625, R628): supply `s` has left its fault limits. -/
def execSupplyFault (i : Fin 12) (s : State) : Host.Outcome State Fault Refusal :=
  s.done fun d =>
    if d.alive then
      ((d.setBit PWR_SUP_STATUS (faultBit i) true).raise 0x0002 (faultBit i)).deviceSafe PWR_SAFE_CAUSE_SUPPLY
    else d

/-- SUPPLY_FAULT_CLEAR (R625): the supply has been back within its warning limits for 10 ms. -/
def execSupplyFaultClear (i : Fin 12) (s : State) : Host.Outcome State Fault Refusal :=
  s.done fun d => d.setBit PWR_SUP_STATUS (faultBit i) false

/-- SUPPLY_LOSS_SIGNAL (R627): PFAIL_N has been low for 1 us. -/
def execSupplyLossSignal (s : State) : Host.Outcome State Fault Refusal :=
  s.done fun d => if d.alive && !d.power.losing then d.supplyLoss else d

/-- LAST_GASP (R544, R627): after any commit in progress; then the device waits for power-on reset. -/
def execLastGasp (s : State) : Host.Outcome State Fault Refusal :=
  s.done fun d => if d.power.losing && d.ledger.active.isNone then d.gasp.powerOn false else d

/-- WAKE_PIN (R636): a fall of WAKE_N that lasts at least 1 us. -/
def execWakePin (b : BootInfo) (s : State) : Host.Outcome State Fault Refusal :=
  s.done fun d =>
    if d.b PWR_WAKE PWR_WAKE_PIN_EN then
      if d.mode = mDormant then d.wakeUp b true else if d.power.dormReq then d.wakeHold b 1 else d
    else d

/-- WAKE_EVENT (R358, R636): an event delivered to WAKE. -/
def execWakeEvent (b : BootInfo) (s : State) : Host.Outcome State Fault Refusal :=
  s.done fun d =>
    let d := (d.takeInput (spineKey 0x3F)).1
    if d.mode = mDormant then d.wakeUp b false
    else if d.power.dormReq then d.wakeHold b 2
    else (d.set1 FLG_SPINE_STATUS FLG_SPINE_STATUS_WAKE).raise 0x0025

/-- DORMANT_ENTRY (R635): after the reply to PWR_DORMANT. -/
def execDormantEntry (s : State) : Host.Outcome State Fault Refusal :=
  s.done fun d => if d.power.dormReq && (d.mode == mSetup || d.mode == mSafe) then d.dormant else d

/-- WATCHDOG_KICK (R643): a write of PWR_WDOG_KICK. -/
def execWatchdogKick (q : Req) (s : State) : Host.Outcome State Fault Refusal :=
  s.done fun d => d.wr q PWR_WDOG_KICK fun d => d.wdogKick

/-- WATCHDOG_EXPIRY (R644): 100 ms without a kick. -/
def execWatchdogExpiry (s : State) : Host.Outcome State Fault Refusal := s.done fun d => d.wdogExpire

/-- DIAG_COUNT_COMMIT (R651): Chozer commits the transient counts. -/
def execDiagCountCommit (s : State) : Host.Outcome State Fault Refusal :=
  s.done fun d =>
    let d := (d.cancel .diagCountCommit).at_ (d.beam + 600 * secTicks) .diagCountCommit
    if d.managerUp then d.diagCommit else d

end Sys2Proof.Machine
end

