-- ==== Sys2Proof/Machine/DmaBase.lean ====
section
/-! DEFINITION. DMA channels as their registers show them: arming, triggers, the end of a service (spec/16_dma.md R517-R519,
R523-R525); and what a write of a core's control and debug registers does (spec/13_core_execution.md R423, R427, R461). -/

namespace Sys2Proof.Machine
open Sys2Proof

/-! ### DMA channels -/

def Dev.dmaArmed (d : Dev) (e c : Nat) : Bool := d.b (DMA_CH_CTL e c) DMA_CH_CTL_ARM
def Dev.dmaPending (d : Dev) (e c : Nat) : Bool := d.b (DMA_CH_STATUS e c) DMA_CH_STATUS_PENDING
def Dev.dmaActive (d : Dev) (e c : Nat) : Bool := d.b (DMA_CH_STATUS e c) DMA_CH_STATUS_ACTIVE

/-- The channel that engine `e` serves. -/
def Dev.dmaServed (d : Dev) (e : Nat) : Option Nat := tabGet none d.dmaBusy e

/-- Engine `e` serves channel `o`, or none; DMA_ENG_STATUS shows it. -/
def Dev.dmaServe (d : Dev) (e : Nat) (o : Option Nat) : Dev :=
  let d := { d with dmaBusy := tabSet none d.dmaBusy e o }
  match o with
  | some c => (d.wf (DMA_ENG_STATUS e) DMA_ENG_STATUS_CH c).wf (DMA_ENG_STATUS e) DMA_ENG_STATUS_BUSY 1
  | none => d.w (DMA_ENG_STATUS e) 0

/-- The service of channel `c` ends (R519). -/
def Dev.dmaServiceEnd (d : Dev) (e c : Nat) : Dev :=
  (d.wf (DMA_CH_STATUS e c) DMA_CH_STATUS_ACTIVE 0).dmaServe e none

/-- The trigger kind of channel `c`: 0 SOFT, 1 EVENT, 2 LINE; 3 acts as SOFT (R517). DMA_CH_CFG is the one read at arming or at
the start of the last service. -/
def Dev.dmaTrig (d : Dev) (e c : Nat) : Nat :=
  let t := fget DMA_CH_CFG_TRIG (d.dmach e c).cfg
  if t = 3 then 0 else t

/-- A write of ARM (R518, R524). ARM = 0 during a service ends it after its beat in progress. -/
def Dev.dmaArm (d : Dev) (e c : Nat) (v : Bool) : Dev :=
  if v then
    if d.dmaArmed e c || d.b (DMA_CH_STATUS e c) DMA_CH_STATUS_ERR then d
    else
      let d := (d.wf (DMA_CH_CTL e c) DMA_CH_CTL_ARM 1).wf (DMA_CH_CUR e c) DMA_CH_CUR_ADDR
        (d.f (DMA_CH_DESC e c) DMA_CH_DESC_ADDR)
      d.setDmach e c { cfg := d.r (DMA_CH_CFG e c) }
  else
    let d := d.wf (DMA_CH_CTL e c) DMA_CH_CTL_ARM 0
    if d.dmaActive e c then (d.dmaServiceEnd e c).set1 (DMA_CH_STATUS e c) DMA_CH_STATUS_STOPPED
    else d.wf (DMA_CH_STATUS e c) DMA_CH_STATUS_PENDING 0

/-- A trigger of channel `c` (R518). -/
def Dev.dmaTrigger (d : Dev) (e c : Nat) : Dev :=
  if d.dmaArmed e c && !(d.dmaPending e c) && !(d.dmaActive e c) then
    d.wf (DMA_CH_STATUS e c) DMA_CH_STATUS_PENDING 1
  else d.set1 (DMA_CH_STATUS e c) DMA_CH_STATUS_TRG_OVR

/-- A write of 1 to ERR also sets both error registers to 0 (R525). -/
def Dev.dmaErrClear (d : Dev) (e c : Nat) : Dev :=
  ((d.clr (DMA_CH_STATUS e c) DMA_CH_STATUS_ERR).w (DMA_ERR_ADDR e c) 0).w (DMA_ERR_DIR e c) 0

/-! ### Core control -/

/-- A write of 1 to DCINV empties the data cache of core `c` (R423). -/
def Dev.dcInv (d : Dev) (c : Nat) : Dev := { d with dcache := notOf c d.dcache }

/-- A write of 1 to ICINV empties the instruction cache of core `c` (R423). -/
def Dev.icInv (d : Dev) (c : Nat) : Dev := { d with icache := notOf c d.icache }

/-- The loop buffer of core `c` empties (R427). -/
def Dev.loopEmpty (d : Dev) (c : Nat) : Dev := d.setCore c { d.core c with loop := none }

/-- Core `c` executes instructions: released, not locked up, not halted. -/
def Dev.coreRuns (d : Dev) (c : Nat) : Bool := (d.core c).run && !(d.lockedUp c) && !(d.halted c)

/-- HALT_REQ reaches core `c` (R461). -/
def Dev.haltRequest (d : Dev) (c : Nat) : Dev := if d.coreRuns c then d.haltCore c 1 0 else d

/-- RESUME reaches core `c` (R461). -/
def Dev.resumeCore (d : Dev) (c : Nat) : Dev := if d.halted c then d.unhaltCore c else d

/-- STEP reaches core `c`: one unit, then it halts again (R461). -/
def Dev.stepCore (d : Dev) (c : Nat) : Dev :=
  if d.halted c then
    let d := d.unhaltCore c
    d.setCore c { d.core c with step1 := true }
  else d

/-- The debug port may address core `c`: Chozer has opened it, and the core's DBG_EN is set (R460, R461). -/
def Dev.debugOpen (d : Dev) (c : Nat) : Bool := d.chozer.debug && d.b (CORE_CTL c) CORE_CTL_DBG_EN

/-! ### Meanings -/

/-- HALT_REQ (R461): the debug port asks a running core to halt. -/
def execHaltReq (c : Core) (s : State) : Host.Outcome State Fault Refusal :=
  s.done fun d => if d.debugOpen c then d.haltRequest c else d

/-- RESUME (R461): a halted core executes again. -/
def execResume (c : Core) (s : State) : Host.Outcome State Fault Refusal :=
  s.done fun d => if d.debugOpen c then d.resumeCore c else d

/-- STEP (R461): a halted core executes one unit and halts again. -/
def execStep (c : Core) (s : State) : Host.Outcome State Fault Refusal :=
  s.done fun d => if d.debugOpen c then d.stepCore c else d

/-- DCINV (R423): a core writes 1 to CORE_CTL.DCINV. -/
def execDcinv (c : Core) (s : State) : Host.Outcome State Fault Refusal :=
  s.done fun d => d.wr c 0xE0002000 fun d => (d.dcInv c).loopEmpty c

/-- ICINV (R423): a core writes 1 to CORE_CTL.ICINV. -/
def execIcinv (c : Core) (s : State) : Host.Outcome State Fault Refusal :=
  s.done fun d => d.wr c 0xE0002000 fun d => (d.icInv c).loopEmpty c

/-- DMA_ARM (R518): a write of ARM = 1. -/
def execDmaArm (q : Req) (e : Fin 2) (c : Fin 16) (s : State) : Host.Outcome State Fault Refusal :=
  s.done fun d => d.wr q (DMA_CH_CTL e c) fun d => d.dmaArm e c true

/-- DMA_DISARM (R524): a write of ARM = 0. -/
def execDmaDisarm (q : Req) (e : Fin 2) (c : Fin 16) (s : State) : Host.Outcome State Fault Refusal :=
  s.done fun d => d.wr q (DMA_CH_CTL e c) fun d => d.dmaArm e c false

/-- DMA_GO (R517): a write of 1 to GO that leaves ARM as it is. -/
def execDmaGo (q : Req) (e : Fin 2) (c : Fin 16) (s : State) : Host.Outcome State Fault Refusal :=
  s.done fun d => d.wr q (DMA_CH_CTL e c) fun d => d.dmaTrigger e c

/-- DMA_ERR_CLEAR (R525): a write of 1 to ERR. -/
def execDmaErrClear (q : Req) (e : Fin 2) (c : Fin 16) (s : State) : Host.Outcome State Fault Refusal :=
  s.done fun d => d.wr q (DMA_CH_STATUS e c) fun d => d.dmaErrClear e c

end Sys2Proof.Machine
end

