-- ==== Sys2Proof/Machine/BitSpace.lean ====
section
/-! DEFINITION. The peripheral part of the bit space: the register bit behind each bit address
(spec/01_architecture.md R43-R46 and the bit-space rule of each block's chapter). -/

namespace Sys2Proof.Machine
open Sys2Proof

/-- What a bit address at 4,096 or above maps: a bit of a register, or a fire of a software channel (R361). -/
inductive BitPlace where
  | reg (addr bit : Nat)
  | fire (ch : Nat)
  | nothing
  deriving DecidableEq, Repr

/-- The bit address lies in an island that the variant does not have. -/
def Dev.bitAbsent (d : Dev) (b : Nat) : Bool :=
  decide (4096 ≤ b ∧ b < 53248) && !(d.hasIsl ((b - 4096) / 8192))

/-- Tally bits (R127). -/
def bitTly (n o : Nat) : BitPlace :=
  if o < 256 then
    if o % 16 < 10 then .reg (TLY_STATUS n (o / 16)) (o % 16)
    else if o % 16 = 15 then .reg (TLY_CTL n (o / 16)) 0 else .nothing
  else .nothing

/-- PWM bits (R166). -/
def bitPwm (n o : Nat) : BitPlace :=
  if o < 256 then if o % 16 < 14 then .reg (PWM_STATUS n (o / 16)) (o % 16) else .nothing
  else if o < 272 then .reg (PWM_CTL n (o - 256)) 0
  else if o < 288 then .reg (PWM_TRIP_CLR n) (o - 272)
  else if o < 312 then .reg (PWM_TLINE n (o - 288)) 7
  else if o = 312 then .reg (PWM_BLK_STATUS n) 0 else .nothing

/-- Analog bits (R207). -/
def bitAch (n o : Nat) : BitPlace :=
  if o < 256 then if o % 16 < 12 then .reg (ACH_STATUS n (o / 16)) (o % 16) else .nothing
  else if o = 256 then .reg (ACH_SET_STATUS n) 30
  else if o = 257 then .reg (ACH_SET_STATUS n) 31
  else if o = 258 then .reg (ACH_BLK_STATUS n) 0
  else if o = 259 then .reg (ACH_BLK_STATUS n) 1
  else if 264 ≤ o ∧ o < 272 then .reg (ACH_SWTRIG n) (o - 264) else .nothing

/-- Sigma-delta bits (R207). -/
def bitSdm (n o : Nat) : BitPlace :=
  if o < 128 then if o % 16 < 7 then .reg (SDM_STATUS n (o / 16)) (o % 16) else .nothing
  else if o = 128 then .reg (SDM_BLK_STATUS n) 0 else .nothing

/-- Feedback bits (R304). -/
def bitFbk (n o : Nat) : BitPlace :=
  if o < 64 then
    if o % 32 < 16 then .reg (FBK_STATUS n (o / 32)) (o % 32)
    else if o % 32 = 16 then .reg (FBK_IDX_CTL n (o / 32)) 2 else .nothing
  else if o = 64 then .reg (FBK_BLK_STATUS n) 0 else .nothing

/-- Bead bits (R330). -/
def bitBead (n o : Nat) : BitPlace :=
  if o < 256 then
    if o % 32 < 14 then .reg (BEAD_STAT n (o / 32)) (o % 32)
    else if o % 32 = 16 then .reg (BEAD_CTL n (o / 32)) 0
    else if o % 32 = 17 then .reg (BEAD_CMD n (o / 32)) 0 else .nothing
  else if o = 256 then .reg (BEAD_BLK_STATUS n) 0 else .nothing

/-- Island Filigree bits (R361). -/
def bitFlg (n o : Nat) : BitPlace :=
  if o < 128 then .reg (FLG_CHS n o) 0
  else if o < 256 then .reg (FLG_CHS n (o - 128)) 1
  else if o < 256 + 0x69 then .reg (FLG_IN_STATUS n (o - 256)) 0
  else if 384 ≤ o ∧ o < 448 then .reg (FLG_CELL_CTL n (o - 384)) 3
  else if 448 ≤ o ∧ o < 512 then .reg (FLG_CELL_CTL n (o - 448)) 1
  else if o = 512 then .reg (FLG_BLK_STATUS n) 0
  else if o = 513 then .reg (FLG_BLK_STATUS n) 1 else .nothing

/-- Island Abacus bits (R248, R282). -/
def bitAbx (n o : Nat) : BitPlace :=
  if o < 7 then .reg (ABX_FRM_STATUS n) o
  else if o = 16 then .reg (ABX_BLK_STATUS n) 0
  else if o = 17 then .reg (ABX_BLK_STATUS n) 1
  else if 256 ≤ o ∧ o < 262 then .reg (ABX_TRC_STATUS n) (o - 256)
  else if o = 272 then .reg (ABX_TRC_CTL n) 0
  else if o = 273 then .reg (ABX_TRC_CMD n) 0 else .nothing

/-- Bits of the spine blocks, by block number and offset (R102, R127, R248, R361, R484, R527, R511, R554, R563, R615, R639,
R652). -/
def bitSpine (s o : Nat) : BitPlace :=
  match s with
  | 0 => if o < 11 then .reg BEAM_STATUS o else .nothing
  | 1 =>
    if o < 96 then .reg (TLY_GO0 + 4 * (o / 32)) (o % 32)
    else if o < 100 then .reg TLY_GO_STATUS (o - 96) else .nothing
  | 2 =>
    if o < 512 then if o % 8 = 0 then .nothing else .reg (ABX_ROD_STATUS (o / 8)) (o % 8)
    else if o < 608 then .reg (ABX_LINK_VALID ((o - 512) / 32)) ((o - 512) % 32)
    else if o = 608 then .reg ABX_SPINE_STATUS 0 else .nothing
  | 3 =>
    if o < 128 then .reg (FLG_SCHS o) 0
    else if o < 256 then .reg (FLG_WCHS (o - 128)) 0
    else if o < 320 then .reg (FLG_SIN_STATUS (o - 256)) 0
    else if o < 352 then .reg FLG_GATE_SW (o - 320)
    else if o < 357 then .reg FLG_SPINE_STATUS (o - 352)
    else if 512 ≤ o ∧ o < 640 then .fire (896 + (o - 512)) else .nothing
  | 4 =>
    if o < 9 then .reg (PND_RING_CFG o) 0
    else if 32 ≤ o ∧ o < 35 then .reg PND_BLK_STATUS (o - 32) else .nothing
  | 5 =>
    if o < 256 then
      let e := o / 128
      let c := o % 128 / 8
      match o % 8 with
      | 0 => .reg (DMA_CH_CTL e c) 0
      | 1 => .reg (DMA_CH_CTL e c) 1
      | k => .reg (DMA_CH_STATUS e c) (k - 2)
    else .nothing
  | 6 =>
    if o < 16 then .reg ECC_STATUS (16 + o)
    else if o < 32 then .reg ECC_STATUS (o - 16)
    else if o = 32 then .reg ECC_SCRUB_CTL 0
    else if o = 33 then .reg ECC_SCRUB_STATUS 5 else .nothing
  | 7 => if o < 12 then .reg SGN_STATUS o else if o = 16 then .reg SGN_HUP_TEST 31 else .nothing
  | 8 => if o < 64 ∧ o % 4 < 3 then .reg (MBX_STATUS (o / 4)) (o % 4) else .nothing
  | 9 =>
    if o < 128 then
      if o % 32 < 5 then .reg (CHN_STATUS (o / 32)) (o % 32)
      else if o % 32 = 8 then .reg (CHN_CTL (o / 32)) 0 else .nothing
    else if o < 130 then .reg CHN_SW_STATUS (o - 128) else .nothing
  | 10 =>
    if o < 192 then
      if o % 32 < 6 then .reg (CAN_STATUS (o / 32)) (o % 32)
      else if o % 32 = 8 then .reg (CAN_CTL (o / 32)) 0 else .nothing
    else .nothing
  | 11 =>
    if o < 25 then .reg PWR_SUP_STATUS o
    else if 32 ≤ o ∧ o < 128 then
      if 1 ≤ (o - 32) % 16 ∧ (o - 32) % 16 ≤ 8 then .reg (PWR_SAFE_CAUSE ((o - 32) / 16)) ((o - 32) % 16) else .nothing
    else if o = 128 then .reg PWR_WDOG_STATUS 0
    else if o = 129 then .reg PWR_WDOG_STATUS 1 else .nothing
  | _ => .nothing

/-- The register bit behind bit address `b` (R43). -/
def bitPlace (b : Nat) : BitPlace :=
  if b < 4096 then .nothing
  else if b < 53248 then
    let n := (b - 4096) / 8192
    let o := (b - 4096) % 1024
    match (b - 4096) % 8192 / 1024 with
    | 0 => bitTly n o
    | 1 => bitPwm n o
    | 2 => bitAch n o
    | 3 => bitSdm n o
    | 4 => bitFbk n o
    | 5 => bitBead n o
    | 6 => bitFlg n o
    | _ => bitAbx n o
  else bitSpine ((b - 53248) / 1024) ((b - 53248) % 1024)

end Sys2Proof.Machine
end

