-- ==== Sys2Proof/Machine/RegRead.lean ====
section
/-! DEFINITION. What a register reads as (spec/00_scope.md R13): stored fields, fields that mirror other state, pending
shadows; and what a read does: latches, queues, claims. -/

namespace Sys2Proof.Machine
open Sys2Proof

/-- The bits of a register with access code `a`. -/
def accMask (r : RegDesc) (a : Acc) : Nat :=
  r.fields.foldl (fun m f => if f.acc = a then m ||| ((2 ^ f.fld.w - 1) * 2 ^ f.fld.lo) else m) 0

/-- The bits of the register at `x` with access code `a`. -/
def regMask (x : Nat) (a : Acc) : Nat :=
  match findReg x with
  | some (r, _) => accMask r a
  | none => 0

/-- Mirrors of the island blocks: TLY, PWM, ACH, SDM. -/
def Dev.viewFront (d : Dev) (n b o x : Nat) (v : Word) : Word :=
  match b with
  | 0 => if o < 0x400 ∧ o % 0x40 = 4 then fput TLY_STATUS_RUN v (d.f (TLY_CTL n (o / 0x40)) TLY_CTL_RUN) else v
  | 1 =>
    if o < 0x400 ∧ o % 0x40 = 0x30 then
      let p := o / 0x40
      let v := fput PWM_STATUS_TRIP_ACTIVE v (b2n (d.tripActive n p))
      let v := fput PWM_STATUS_HELD v (b2n (d.pair n p).held.isSome)
      let v := fput PWM_STATUS_SAFE_FORCED v (b2n (d.safeForced n p))
      let v := fput PWM_STATUS_HIZ_A v (b2n (d.pwmPin n p false).isNone)
      fput PWM_STATUS_HIZ_B v (b2n (d.pwmPin n p true).isNone)
    else if 0x800 ≤ o ∧ o < 0x860 then fput PWM_TLINE_BLANK_OPEN v (b2n (d.blanked n ((o - 0x800) / 4)))
    else v
  | 2 =>
    if o < 0x400 then
      let c := o / 0x40
      let set := b2n (d.settlingAt n c d.beam)
      if o % 0x40 = 4 then fput ACH_MODE_SETTLING v set
      else if o % 0x40 = 0x18 then
        fput ACH_STATUS_BUSY (fput ACH_STATUS_SETTLING v set) (b2n (decide (d.beam < (d.chan n c).busyEnd)))
      else if o % 0x40 = 0x14 ∧ c % 2 = 1 then 0
      else v
    else v
  | _ =>
    if o < 0x200 ∧ o % 0x40 = 8 then
      let j := o / 0x40
      let v := fput SDM_STATUS_SETTLING v (b2n (d.sdmOn n j && (d.sdm n j).settle != 0))
      fput SDM_STATUS_SINC1 v ((sinc1 (d.sincW n j) (d.sdm n j).recent) % 256).toNat
    else let _ := x; v

/-- Mirrors of the island blocks: FBK, BEAD, FLG, ABX. -/
def Dev.viewBack (d : Dev) (n b o : Nat) (v : Word) : Word :=
  match b with
  | 4 =>
    if o < 0x200 ∧ o % 0x100 = 0x30 then
      let k := o / 0x100
      fput FBK_STATUS_SETTLING (fput FBK_STATUS_EN v (b2n (d.fbkOn n k))) (b2n (d.fbkSettling n k))
    else v
  | 5 =>
    if o < 0x1000 then
      let e := o / 0x200
      if o % 0x200 = 0x24 then fput BEAD_STAT_EQ v (b2n (d.beadEq n e))
      else if o % 0x200 = 0x30 then
        fput BEAD_QLVL_RX_LVL (fput BEAD_QLVL_TX_LVL v (d.bead n e).tx.length) (d.bead n e).rx.length
      else v
    else v
  | 6 =>
    if 0x800 ≤ o ∧ o < 0xA00 then fput FLG_IN_STATUS_PEND v (d.pendOf (inKey n ((o - 0x800) / 4))).length
    else if 0x1400 ≤ o ∧ o < 0x1408 then
      wordOf ((List.range 32).foldl (fun m i =>
        m + d.f (FLG_CELL_CTL n (32 * ((o - 0x1400) / 4) + i)) FLG_CELL_CTL_O * 2 ^ i) 0)
    else v
  | 7 =>
    if o = 0x410 then fput ABX_TRC_STATUS_ARMED v (b2n (d.armed n))
    else if o = 0x414 then fput ABX_TRC_PTR_CAPACITY v (d.traceCap n)
    else v
  | _ => v

/-- Mirrors of the spine blocks. -/
def Dev.viewSpine (d : Dev) (x : Nat) (v : Word) : Word :=
  if 0x48300C00 ≤ x ∧ x < 0x48300D00 then
    fput FLG_SIN_STATUS_PEND v (d.pendOf (spineKey ((x - 0x48300C00) / 4))).length
  else if x = CHN_SW_STATUS then fput CHN_SW_STATUS_FWD v (b2n d.chnFwd)
  else if 0x48B00000 ≤ x ∧ x < 0x48B60000 ∧ x % 0x10000 = 0x54 then
    fput CAN_RXLVL_L v (d.canc ((x - 0x48B00000) / 0x10000)).fifo.length
  else if 0x48B00000 ≤ x ∧ x < 0x48B60000 ∧ 0x2000 ≤ x % 0x10000 then
    d.canRxf ((x - 0x48B00000) / 0x10000) ((x % 0x10000 - 0x2000) / 4)
  else if x = PWR_GOV_STATUS then d.govStatus
  else if x = PWR_MODE then fput PWR_MODE_RUN_MASK v d.runMask
  else v

/-- Mirrors of the core-private registers and banks. -/
def Dev.viewCore (d : Dev) (x : Nat) (v : Word) : Word :=
  if 0x1000000000 ≤ x then
    if x % 0x10000 = 0x60 then fput BNK_STATUS_LEVEL v 2 else v
  else
    let c := x / 0x100000000 - 1
    if x = CORE_STATUS c then fput CORE_STATUS_IMPRECISE_PEND v (b2n (d.core c).impr.isSome) else v

/-- The register at `x` as it reads, without the latches of its reader. -/
def Dev.regView (d : Dev) (x : Nat) : Word :=
  let v := overlay d.shadow x (d.r x)
  if x < 0x48000000 then
    let n := (x - 0x40000000) / 0x1000000
    let b := x % 0x1000000 / 0x10000
    if b < 4 then d.viewFront n b (x % 0x10000) x v else d.viewBack n b (x % 0x10000) v
  else if x < 0x49000000 then d.viewSpine x v
  else if x < 0x50000000 then d.capWord ((x - 0x4F000000) / 4)
  else d.viewCore x v

/-! ### Reads with latches and effects -/

/-- A read of a word of a bank entry by requester `q` (R183). -/
def Dev.bankRead (d : Dev) (q n w : Nat) (frameView : Bool) : Dev × Word :=
  let a := fun i => if frameView then ACH_FRAMEVIEW n i else ACH_BANK n i
  let e := w / 4
  if w % 4 = 0 then
    let d' := (d.setLat (latBank n 0) q (e + 1 + 64 * b2n frameView)).setLat (latBank n 1) q (d.r (a (w + 1))).toNat
    ((d'.setLat (latBank n 2) q (d.r (a (w + 2))).toNat).setLat (latBank n 3) q (d.r (a (w + 3))).toNat, d.r (a w))
  else if d.lat (latBank n 0) q = e + 1 + 64 * b2n frameView then (d, wordOf (d.lat (latBank n (w % 4)) q))
  else (d, d.r (a w))

/-- A read of an island register by requester `q`. -/
def Dev.readIsland (d : Dev) (q x : Nat) : Dev × Word :=
  let n := (x - 0x40000000) / 0x1000000
  let o := x % 0x10000
  match x % 0x1000000 / 0x10000 with
  | 0 =>
    if o < 0x400 ∧ o % 0x40 = 8 then
      let t := o / 0x40
      if t % 2 = 0 then
        (if d.b (TLY_CTL n t) TLY_CTL_LINK then d.setLat (latPair n (t / 2)) q (d.countNow n (t + 1)) else d,
          wordOf (d.countNow n t))
      else if d.linkedOdd n t then (d, wordOf (d.lat (latPair n (t / 2)) q))
      else (d, wordOf (d.countNow n t))
    else (d, d.regView x)
  | 1 =>
    if 0x900 ≤ o ∧ o < 0x980 then
      if o % 8 = 0 then (d.setLat (latTrip n) q (d.r (x + 4)).toNat, d.r x) else (d, wordOf (d.lat (latTrip n) q))
    else (d, d.regView x)
  | 4 =>
    if o < 0x200 ∧ o % 0x100 = 0x0C then (d.setLat (latTurn n (o / 0x100)) q (d.r (x + 4)).toNat, d.r x)
    else if o < 0x200 ∧ o % 0x100 = 0x10 then (d, wordOf (d.lat (latTurn n (o / 0x100)) q))
    else (d, d.regView x)
  | 5 => if o < 0x1000 ∧ o % 0x200 = 0x38 then d.rxqGet n (o / 0x200) else (d, d.regView x)
  | 8 => if o < 0x800 then d.bankRead q n (o / 4) false else d.bankRead q n ((o - 0x800) / 4) true
  | _ => (d, d.regView x)

/-- A read of the register at `x` by requester `q`: the value and what the read does. -/
def Dev.regRead (d : Dev) (q x : Nat) : Dev × Word :=
  if x < 0x48000000 then d.readIsland q x
  else if x = BEAM_COUNT_LO then d.countRead q
  else if x = BEAM_SWITCH_LO then d.switchRead q
  else if x = BEAM_TT_LO then d.trainRead q
  else if x = BEAM_COUNT_HI ∨ x = BEAM_SWITCH_HI then (d, wordOf (d.lat latCount q))
  else if x = BEAM_TT_HI then (d, wordOf (d.lat latTT q))
  else if 0x1E0000000 ≤ x ∧ x < 0x1000000000 ∧ x % 0x100000000 = 0xE0000000 then
    d.claim (Fin.ofNat 9 (x / 0x100000000 - 1)) false
  else
    let wo := regMask x .WO
    (d, if wo = 0 then d.regView x else maskWrite (d.regView x) wo 0)

end Sys2Proof.Machine
end

