-- ==== Sys2Proof/Machine/RegWrite.lean ====
section
/-! DEFINITION. What a write to a register does, by its access codes (spec/00_scope.md R13, R14) and by the rules of its
block. Locks and bus errors stand in Bus.lean. -/

namespace Sys2Proof.Machine
open Sys2Proof

/-- A register write on its way to its block: address, the bits written, their values, the tick on which its shadowed fields
count as recorded (spec/02_timing_model.md R59, spec/11_clasp_transactions.md R378), whether a clasp commits it. -/
structure RegWr where
  x     : Nat
  mask  : Nat
  val   : Nat
  tick  : Nat
  clasp : Bool
  deriving DecidableEq, Repr

/-- The bits `m` only. -/
def RegWr.only (w : RegWr) (m : Nat) : RegWr := { w with mask := w.mask &&& m }
/-- Every bit but `m`. -/
def RegWr.but (w : RegWr) (m : Nat) : RegWr := { w with mask := w.mask &&& (4294967295 - m) }
/-- The write covers bit `i`. -/
def RegWr.has (w : RegWr) (i : Nat) : Bool := nbit w.mask i
/-- The write writes 1 to bit `i`. -/
def RegWr.one (w : RegWr) (i : Nat) : Bool := nbit w.mask i && nbit w.val i
/-- The bits that are written with 1. -/
def RegWr.ones (w : RegWr) : Nat := w.mask &&& w.val
/-- The register's value with the written bits in place. -/
def RegWr.merged (w : RegWr) (old : Word) : Word := maskWrite old w.mask w.val

/-- The effect of the access codes: RW and RWL fields take the value, W1C fields clear unless hardware set them on this tick,
RWS fields become pending (R13, R14). -/
def Dev.plain (d : Dev) (w : RegWr) : Dev :=
  let rw := (regMask w.x .RW ||| regMask w.x .RWL) &&& w.mask
  let w1c := (regMask w.x .W1C &&& w.ones) &&& (4294967295 - tabGet 0 d.fresh w.x)
  let rws := regMask w.x .RWS &&& w.mask
  let d := d.w w.x (maskWrite (maskWrite (d.r w.x) rw w.val) w1c 0)
  if rws = 0 then d else d.pushShadow w.x rws w.val w.tick

/-! ### Island blocks -/

/-- TLY (spec/03_beam_and_tally.md R105, R106, R116, R119, R120). The count of a running timer is locked: a write that gets
here leaves it as it is. -/
def Dev.wTly (d : Dev) (n : Isl) (o : Nat) (w : RegWr) : Dev :=
  if o < 0x400 then
    let t : Fin 16 := Fin.ofNat 16 (o / 0x40)
    match o % 0x40 with
    | 0x00 =>
      if d.linkedOdd n t then d.plain (w.but 0xFF03)
      else
        let d := d.plain (w.but 1)
        if w.has 0 then if w.one 0 then d.startTimer n t else d.stopTimer n t else d
    | 0x08 => if d.timerRuns n t then d else d.plain w
    | 0x0C =>
      if d.b (TLY_CTL n t) TLY_CTL_RELOAD_IMM then d.reloadWrite n t (w.merged (d.r w.x)) else d.plain w
    | _ => d.plain w
  else d.plain w

/-- The blanking window of a line after a write of BLANK_EN or BLANK_TMR: that of its timer, if that runs (R156-R158). -/
def Dev.blankConfig (d : Dev) (n : Isl) (l : Nat) : Dev :=
  let was := d.blanked n l
  let t := d.f (PWM_TLINE n l) PWM_TLINE_BLANK_TMR
  let since := if d.b (PWM_TLINE n l) PWM_TLINE_BLANK_EN && d.timerRuns n t && !d.lost then (d.timer n t).startAt else none
  let d := d.setLine n l { since := since, cut := since.any fun s => decide (s + 4096 ≤ d.beam) }
  if was && !(d.blanked n l) then d.blankEnded n l else d

/-- PWM (spec/04_pwm.md R145-R147, R149, R160). -/
def Dev.wPwm (d : Dev) (n : Isl) (o : Nat) (w : RegWr) : Dev :=
  if o < 0x400 then
    let p : Fin 16 := Fin.ofNat 16 (o / 0x40)
    let r := o % 0x40
    if r < 0x18 then
      let d := d.plain w
      if w.clasp ∨ w.mask &&& groupMask (r / 4) = 0 then d else d.groupNoted n p (decide (8 ≤ r))
    else if r = 0x2C then
      let d := d.plain (w.but 1)
      if w.has 0 then if w.one 0 then d.pairStart n p else d.pairStop n p else d
    else d.plain w
  else if 0x800 ≤ o ∧ o < 0x860 then
    let l := (o - 0x800) / 4
    let d := d.plain (if l < 4 then w else w.but 3)
    if w.mask &&& 0x7C = 0 then d else d.blankConfig n l
  else if o = 0x880 then d.each (List.range 16) fun d p => if w.one p then d.tripClear n p else d
  else d.plain w

/-- A direct write of ACH_MODE is ignored and reported (spec/05_analog_channels.md R171). -/
def Dev.modeDirect (d : Dev) (n : Nat) : Dev :=
  (d.set1 (ACH_BLK_STATUS n) ACH_BLK_STATUS_MODE_DIRECT).raise (islSrc n + 0x163)

/-- ACH (spec/05_analog_channels.md R171, R174, R184, R188). -/
def Dev.wAch (d : Dev) (n : Isl) (o : Nat) (w : RegWr) : Dev :=
  if o < 0x400 then
    let c : Fin 16 := Fin.ofNat 16 (o / 0x40)
    match o % 0x40 with
    | 0x04 => if w.clasp then d.achSetMode n c (fget ACH_MODE_MODE (w.merged (d.r w.x))) else d.modeDirect n
    | 0x14 => if c.val % 2 = 1 then d else d.plain w
    | _ => d.plain w
  else if o = 0x820 then
    d.softTrigger n (w.ones % 256)
  else if o = 0x828 then
    let was := d.b (ACH_SET_CTL n) ACH_SET_CTL_EN
    let d := d.plain w
    if was && !(d.b (ACH_SET_CTL n) ACH_SET_CTL_EN) then d.setAbandon n else d
  else d.plain w

/-- SDM (spec/05_analog_channels.md R200, R203). -/
def Dev.wSdm (d : Dev) (n : Isl) (o : Nat) (w : RegWr) : Dev :=
  if o < 0x200 then
    let j := o / 0x40
    let was := d.sdmOn n j
    let d := d.plain w
    if o % 0x40 = 0 ∧ !was ∧ d.sdmOn n j then d.sdmEnable n j else d
  else if o = 0x800 ∨ o = 0x804 then
    let k := (o - 0x800) / 4
    let was := d.b (SDM_CLK n k) SDM_CLK_EN
    let d := d.plain w
    if !was && d.b (SDM_CLK n k) SDM_CLK_EN then d.setSdclk n k { next := d.beam + 1 } else d
  else d.plain w

/-- FBK (spec/08_feedback.md R290-R292, R302). -/
def Dev.wFbk (d : Dev) (n : Isl) (o : Nat) (w : RegWr) : Dev :=
  if o < 0x200 then
    let k := o / 0x100
    match o % 0x100 with
    | 0x00 =>
      let was := d.fbkOn n k
      let d := d.plain w
      if !was && d.fbkOn n k then d.fbkEnable n k else d
    | 0x0C => d.w w.x (wordOf ((w.merged (d.r w.x)).toNat % d.cpr n k))
    | 0x14 =>
      let d := d.plain w
      if w.one 2 then d.clr (FBK_STATUS n k) FBK_STATUS_REF else d
    | _ => d.plain w
  else d.plain w

/-- BEAD (spec/09_bead_engines.md R320, R323, R324, R326). -/
def Dev.wBead (d : Dev) (n : Isl) (o : Nat) (w : RegWr) : Dev :=
  if o < 0x1000 then
    let e := o / 0x200
    match o % 0x200 with
    | 0x00 =>
      let old := (d.f w.x BEAD_CTL_TXCAP, d.f w.x BEAD_CTL_RXDST)
      let d := d.plain (w.but 1)
      let d := if (d.f w.x BEAD_CTL_TXCAP, d.f w.x BEAD_CTL_RXDST) = old then d else (d.txFlush n e).rxFlush n e
      if w.has 0 then if w.one 0 then d.beadStart n e (d.beam + 4) else d.beadStopReq n e else d
    | 0x20 =>
      let d := if w.one 0 && d.beadStopped n e then d.beadRestart n e else d
      let d := if w.one 1 then d.txFlush n e else d
      if w.one 2 then d.rxFlush n e else d
    | 0x34 => d.txqPut n e (wordOf w.val)
    | _ => d.plain w
  else d.plain w

/-! ### Routing (spec/10_filigree.md R352, R353, R357) -/

/-- The register at `x` holds routing fields (R353). -/
def isRoute (x : Nat) : Bool :=
  if 0x40000000 ≤ x ∧ x < 0x46000000 ∧ x % 0x1000000 / 0x10000 = 6 then
    let o := x % 0x10000
    decide (o < 0x200) || decide (0x400 ≤ o ∧ o < 0x748) || (decide (0x1000 ≤ o ∧ o < 0x1400) && o % 16 != 12)
  else decide (0x48300000 ≤ x ∧ x < 0x48300400) || decide (0x48300800 ≤ x ∧ x < 0x48300A00)

/-- A direct write of a routing field is ignored and reported (R353). -/
def Dev.routeDirect (d : Dev) (x : Nat) : Dev :=
  if x < 0x48000000 then
    let n := (x - 0x40000000) / 0x1000000
    (d.set1 (FLG_BLK_STATUS n) FLG_BLK_STATUS_ROUTE_DIRECT).raise (islSrc n + 0x2C3)
  else (d.set1 FLG_SPINE_STATUS FLG_SPINE_STATUS_ROUTE_DIRECT).raise 0x0024

/-- The channels that an input select register names. -/
def selNames (v : Word) : List Nat :=
  (if fget FLG_IN_A_EN0 v = 1 then [fget FLG_IN_A_CH0 v] else []) ++
  (if fget FLG_IN_A_EN1 v = 1 then [fget FLG_IN_A_CH1 v] else [])

/-- The channels that a cell input register names. -/
def cellNames (v : Word) : List Nat :=
  ([fget FLG_CELL_INA_I0 v, fget FLG_CELL_INA_I1 v].filter fun i => decide (1024 ≤ i)).map fun i => i - 1024

/-- Events in transit on the channels `cs` are discarded. -/
def Dev.dropTransit (d : Dev) (cs : List Nat) : Dev := { d with transit := d.transit.filter fun t => !(cs.contains t.ch) }

/-- The names in one list and not in the other. -/
def symDiff (a b : List Nat) : List Nat := (a.filter fun x => !(b.contains x)) ++ (b.filter fun x => !(a.contains x))

/-- The action of WAKE. -/
def isWake : Instr → Bool
  | .wakeEvent _ => true
  | _ => false

/-- The pending count of an input becomes 0 and its scheduled actions are withdrawn. -/
def Dev.pendClear (d : Dev) (k : Nat) (act : Option Instr) : Dev :=
  let d := { d with pend := tabSet [] d.pend k [] }
  match act with
  | some c => d.cancel c
  | none => d

/-- A committed write of a routing register takes effect (R357). -/
def Dev.routeApply (d : Dev) (w : RegWr) : Dev :=
  let old := d.r w.x
  let d := d.plain w
  let new := d.r w.x
  if old = new then d
  else if w.x < 0x48000000 then
    let n : Isl := Fin.ofNat 6 ((w.x - 0x40000000) / 0x1000000)
    let o := w.x % 0x10000
    if o < 0x200 then
      if fget FLG_CH_SRC old = fget FLG_CH_SRC new then d else d.dropTransit [128 + 128 * n.val + o / 4]
    else if o < 0x800 then
      let i := (o - 0x400) / 8
      (d.dropTransit (symDiff (selNames old) (selNames new))).pendClear (inKey n i) (islandAction n i)
    else
      let i := (o - 0x1000) / 16
      let d := d.cellClear n i
      if o % 16 = 8 then d else d.dropTransit (symDiff (cellNames old) (cellNames new))
  else
    let o := w.x % 0x100000
    if o < 0x200 then
      if fget FLG_SCH_SRC old = fget FLG_SCH_SRC new ∧ fget FLG_SCH_ISL old = fget FLG_SCH_ISL new then d
      else d.dropTransit [o / 4]
    else if o < 0x400 then d
    else
      let i := (o - 0x800) / 8
      let d := (d.dropTransit (symDiff (selNames old) (selNames new))).pendClear (spineKey i)
        (if i = 0x3F then none else spineAction i 0)
      if i = 0x3F then { d with agenda := d.agenda.filter fun x => !(isWake x.cmd) } else d

/-- Island FLG. -/
def Dev.wFlg (d : Dev) (w : RegWr) : Dev :=
  if isRoute w.x then if w.clasp then d.routeApply w else d.routeDirect w.x else d.plain w

/-- Island ABX (spec/06_abacus_rods.md R237, R80; spec/07_abacus_laws.md R277, R280). -/
def Dev.wAbx (d : Dev) (n : Isl) (o : Nat) (w : RegWr) : Dev :=
  if o = 0x10 then d.w w.x 0xFFFFFFFF
  else if 0x100 ≤ o ∧ o < 0x200 then d.outmapWrite n ((o - 0x100) / 4) (w.merged (d.r w.x))
  else if o = 0x400 then
    let d := d.plain (w.but 1)
    if w.has 0 then if w.one 0 then d.traceArm n else d.traceDisarm n else d
  else if o = 0x40C then if w.one 0 then d.traceTrigger n else d
  else d.plain w

/-! ### Spine blocks -/

/-- A group's assignment changes: its rods start from zero and their presets are cancelled
(spec/06_abacus_rods.md R212). -/
def Dev.grpAssign (d : Dev) (g : Nat) (v : Word) : Dev :=
  let old := d.f (ABX_GRP_ASSIGN g) ABX_GRP_ASSIGN_ISLAND
  let new := fget ABX_GRP_ASSIGN_ISLAND v
  if old = new then d
  else
    d.wf (ABX_GRP_ASSIGN g) ABX_GRP_ASSIGN_ISLAND new |>.each (List.range 4) fun d i =>
      let r := 4 * g + i
      let d := if d.retired r then d else d.each (List.range 32) fun d k => d.w (ABX_ROD_S r k) 0
      { d with presets := d.presets.filter fun e => e.1 / 32 != r }.w (ABX_ROD_PEND r) 0

/-- A write of FLG_GATE_SW is a change of the gates whose bits differ (spec/10_filigree.md R336, R338). -/
def Dev.gateSwWrite (d : Dev) (v : Word) : Dev :=
  let old := d.r FLG_GATE_SW
  let d := d.w FLG_GATE_SW v
  d.each (List.range 32) fun d i =>
    if nbit old.toNat i != nbit v.toNat i then d.gateNote (512 + 32 + i) else d

/-- A write of PND_RING_CFG (spec/14_pendant.md R469, R475). -/
def Dev.ringCfgWrite (d : Dev) (c : Core) (w : RegWr) : Dev :=
  let v := w.merged (d.r w.x)
  let d := if (w.only 0x1F00).mask = 0 then d else d.ringSizeWrite c (fget PND_RING_CFG_LOG2SIZE v)
  let on := fget PND_RING_CFG_EN v == 1
  if on == d.b (PND_RING_CFG c) PND_RING_CFG_EN then d
  else ((if on then d.ringEnable c else d.ringDisable c)).lineEval c

/-- DMA registers (spec/16_dma.md R518, R525). -/
def Dev.wDma (d : Dev) (w : RegWr) : Dev :=
  let e := w.x % 0x100000 / 0x10000
  let o := w.x % 0x10000
  let c := o / 0x40
  if o < 0x400 ∧ o % 0x40 = 8 then
    let d := if w.has 0 then d.dmaArm e c (w.one 0) else d
    if w.one 1 then d.dmaTrigger e c else d
  else if o < 0x400 ∧ o % 0x40 = 0x0C then
    let err := w.one 4 && !(nbit (tabGet 0 d.fresh w.x) 4)
    let d := d.plain w
    if err then d.dmaErrClear e c else d
  else d.plain w

/-- Spine blocks below 0x4850_0000. -/
def Dev.wSpineLow (d : Dev) (q : Nat) (w : RegWr) : Dev :=
  let v := w.merged (d.r w.x)
  if w.x = BEAM_TT_OFS_LO then d.ofsLo v
  else if w.x = BEAM_TT_OFS_HI then d.ofsHi v
  else if w.x = TLY_GO_CMD then d.goCommand q (fget TLY_GO_CMD_CMD (wordOf w.ones)) (w.one 4)
  else if 0x48200000 ≤ w.x ∧ w.x < 0x48200040 then d.grpAssign ((w.x - 0x48200000) / 4) v
  else if 0x48210000 ≤ w.x ∧ w.x < 0x48218000 ∧ 0x80 ≤ w.x % 0x200 ∧ w.x % 0x200 < 0x100 then
    d.presetWrite ((w.x - 0x48210000) / 0x200) ((w.x % 0x200 - 0x80) / 4) (wordOf w.val) w.tick
  else if 0x48300000 ≤ w.x ∧ w.x < 0x48400000 then
    if isRoute w.x then if w.clasp then d.routeApply w else d.routeDirect w.x
    else if w.x = FLG_FIRE then d.fireChannel (w.val % 1024)
    else if w.x = FLG_GATE_SW then d.gateSwWrite v
    else d.plain w
  else if w.x = PND_DOORBELL then d.raise (w.val % 65536) (w.val / 65536)
  else if 0x48400100 ≤ w.x ∧ w.x < 0x48400190 then
    let c : Core := Fin.ofNat 9 ((w.x - 0x48400100) / 0x10)
    match w.x % 0x10 with
    | 0 => d.ringBaseWrite c (fget PND_RING_BASE_BASE v)
    | 4 => d.ringCfgWrite c w
    | _ => d.plain w
  else if 0x48440000 ≤ w.x ∧ w.x < 0x48480000 then d.routeWrite ((w.x - 0x48440000) / 4) v
  else d.plain w

/-- A write of PWR_WDOG_CTL: EN, once 1, stays 1; the first kick counts from the write (spec/21_failure_containment.md). -/
def Dev.wdogCtl (d : Dev) (w : RegWr) : Dev :=
  let was := d.b PWR_WDOG_CTL PWR_WDOG_CTL_EN
  let d := d.plain (if was then w.but 1 else w)
  if !was && d.b PWR_WDOG_CTL PWR_WDOG_CTL_EN then
    { d with power := { d.power with kick := d.beam } }.at_ (d.beam + 50000000) .watchdogExpiry
  else d

/-- Spine blocks from 0x4850_0000 on. -/
def Dev.wSpineHigh (d : Dev) (w : RegWr) : Dev :=
  let v := w.merged (d.r w.x)
  let u := w.x % 0x100000 / 0x10000
  let o := w.x % 0x10000
  if w.x < 0x48600000 then d.wDma w
  else if 0x48601000 ≤ w.x ∧ w.x < 0x48602000 then
    if w.x % 16 = 0 ∧ w.one 0 ∧ !(nbit (tabGet 0 d.fresh w.x) 0) then
      d.eccFreeEntry ((w.x - 0x48601000) / 0x100) (w.x % 0x100 / 16)
    else d
  else if 0x48700000 ≤ w.x ∧ w.x < 0x48700040 then d.creditWrite ((w.x - 0x48700000) / 4) (fget ARB_CREDIT_CREDIT v)
  else if 0x48700080 ≤ w.x ∧ w.x < 0x487000C0 then d.w w.x 0
  else if w.x = SGN_HUP_TEST then
    let d := d.plain w
    if w.one 31 && d.ledger.test == 0 then { d with ledger := { d.ledger with test := 1 } } else d
  else if 0x48900000 ≤ w.x ∧ w.x < 0x48901000 ∧ w.x % 0x100 < 0x40 then
    let m := (w.x - 0x48900000) / 0x100
    if w.x % 0x100 = 0 then d.post m v
    else if d.b (MBX_STATUS m) MBX_STATUS_BUSY then d.set1 (MBX_STATUS m) MBX_STATUS_OVERRUN
    else d.plain w
  else if 0x48A00000 ≤ w.x ∧ w.x < 0x48A40000 then
    if 0x100 ≤ o ∧ o < 0x180 ∧ o % 16 = 0x0C then d.txKick u ((o - 0x100) / 16)
    else if o = 0x200 then
      let d := d.plain w
      if w.one 1 then d.gclApply u else d
    else if 0x204 ≤ o ∧ o < 0x800 then d.w w.x (maskWrite (d.r w.x) (regMask w.x .RWS &&& w.mask) w.val)
    else d.plain w
  else if 0x48B00000 ≤ w.x ∧ w.x < 0x48B60000 then
    if o = 0 then
      let d := d.plain (w.but 1)
      if w.has 0 then d.canInit u (w.one 0) else d
    else if o = 0x40 then d.canTxReq u (w.ones % 65536)
    else if o = 0x48 then d.canTxAbort u (w.ones % 65536)
    else if o = 0x50 then d.setCanc u { d.canc u with fifo := (d.canc u).fifo.tail }
    else if 0x1000 ≤ o ∧ o < 0x1500 then if d.bit (CAN_TXPEND u) ((o - 0x1000) / 0x50) then d else d.plain w
    else d.plain w
  else if w.x = PWR_GOV_CTL then d.govCtl v
  else if w.x = PWR_GOV_LIMITS then d.govLimits (fget PWR_GOV_LIMITS_CEIL v) (fget PWR_GOV_LIMITS_FLOOR v)
  else if w.x = PWR_WDOG_CTL then d.wdogCtl w
  else if w.x = PWR_WDOG_KICK then d.wdogKick
  else d.plain w

/-! ### Core-private registers and banks -/

/-- A write of CORE_CTL empties the loop buffer (spec/13_core_execution.md R423, R427). -/
def Dev.coreCtl (d : Dev) (c : Core) (w : RegWr) : Dev :=
  let d := d.plain w
  let d := if w.one 6 then d.dcInv c else d
  let d := if w.one 5 then d.icInv c else d
  d.loopEmpty c

/-- A word of a bank, written through the window by requester `q` (R446, R447): at level S, STATUS takes only IEN and FLAGS;
LEVEL of bank 0 stays. -/
def Dev.bankWrite (d : Dev) (q : Nat) (w : RegWr) : Dev :=
  if w.x % 0x100 = 0x60 then
    let w := if d.reqLevel q < 2 then w.only 0x8000001F else w
    d.plain (if w.x % 0x10000 = 0x60 then w.but 0x0C000000 else w)
  else d.plain w

/-- Core-private registers. -/
def Dev.wCore (d : Dev) (q : Nat) (w : RegWr) : Dev :=
  if 0x1000000000 ≤ w.x then d.bankWrite q w
  else
    let c : Core := Fin.ofNat 9 (w.x / 0x100000000 - 1)
    let o := w.x % 0x100000000
    if o = 0xE0000010 then d.eoi c
    else if o = 0xE0000018 then (d.plain w).lineEval c
    else if o = 0xE0002000 then d.coreCtl c w
    else if o = 0xE0008000 then
      let d := if w.one 0 then d.haltRequest c else d
      let d := if w.one 1 then d.resumeCore c else d
      if w.one 2 then d.stepCore c else d
    else d.plain w

/-- The effect of a register write on its block. -/
def Dev.regWrite (d : Dev) (q : Nat) (w : RegWr) : Dev :=
  if w.x < 0x48000000 then
    let n : Isl := Fin.ofNat 6 ((w.x - 0x40000000) / 0x1000000)
    let o := w.x % 0x10000
    match w.x % 0x1000000 / 0x10000 with
    | 0 => d.wTly n o w
    | 1 => d.wPwm n o w
    | 2 => d.wAch n o w
    | 3 => d.wSdm n o w
    | 4 => d.wFbk n o w
    | 5 => d.wBead n o w
    | 6 => d.wFlg w
    | 7 => d.wAbx n o w
    | _ => d
  else if w.x < 0x48500000 then d.wSpineLow q w
  else if w.x < 0x49000000 then d.wSpineHigh w
  else if w.x < 0x100000000 then d
  else d.wCore q w

end Sys2Proof.Machine
end

