-- ==== Sys2Proof/Machine/Bus.lean ====
section
/-! DEFINITION. Accesses of a requester: reads and writes of bytes, registers and bits with their bus errors in the
precedence of spec/00_scope.md R16, locked writes (R15), and the commands that are register writes. -/

namespace Sys2Proof.Machine
open Sys2Proof

/-! ### Errors that a block gives -/

/-- The code of a bus error (spec/13_core_execution.md R456). -/
def berrCode : BErr → Nat
  | .none => 0
  | .ue => 1
  | .absent => 2
  | .priv => 3
  | .decode => 4
  | .locked => 5

/-- The bus error that a write earns by its value or by the block's own rule: FLG_FIRE (R369), PND_DOORBELL (R52), CAN_MGMT
(spec/19_chain_and_can.md R609), a word of the current bank other than STATUS and DIRTY
(spec/13_core_execution.md R447). -/
def Dev.valueErr (d : Dev) (q x val : Nat) : BErr :=
  if x = FLG_FIRE then d.fireErr q (val % 1024)
  else if x = PND_DOORBELL then if val % 65536 < 0x8000 then .priv else .none
  else if 0x48B00000 ≤ x ∧ x < 0x48B60000 ∧ x % 0x10000 = 0x24 then if q = 8 then .none else .priv
  else if 0x1000000000 ≤ x ∧ x < 0x200000000000 then
    let c := (x - 0x1000000000) / 0x10000
    if x % 0x10000 / 0x100 = d.curBank c ∧ x % 0x100 ≠ 0x60 ∧ x % 0x100 ≠ 0x88 then .decode else .none
  else .none

/-- The value of the register at `x` on this tick, an advance of a timer included (spec/03_beam_and_tally.md R98, R117). -/
def Dev.present_ (d : Dev) (x : Nat) : Word :=
  if 0x40000000 ≤ x ∧ x < 0x46000000 ∧ x % 0x1000000 < 0x400 ∧ x % 0x40 = 8 then
    wordOf (d.countNow ((x - 0x40000000) / 0x1000000) (x % 0x1000000 / 0x40))
  else d.r x

/-- The bits of a write that a lock keeps: RWL fields that would change while the block runs (R15), fields that the frame
owns (spec/02_timing_model.md R71), RESTART of an engine that runs (spec/09_bead_engines.md R329). A direct write of a
routing field is ignored before any lock (spec/10_filigree.md R353). -/
def Dev.lockBits (d : Dev) (w : RegWr) : Nat :=
  if isRoute w.x && !w.clasp then 0
  else
    let diff := ((d.present_ w.x).toNat ^^^ w.val) &&& w.mask &&& regMask w.x .RWL
    let rwl := if diff ≠ 0 ∧ d.lockRuns w.x (w.merged (d.present_ w.x)) then diff else 0
    let island := decide (0x40000000 ≤ w.x ∧ w.x < 0x46000000)
    let n := (w.x - 0x40000000) / 0x1000000
    let own := if island && d.frameOwned n w.x then (slotMask (w.x % 0x1000000)).getD 0 &&& w.mask else 0
    let e := w.x % 0x10000 / 0x200
    let rst :=
      if island && decide (w.x % 0x1000000 / 0x10000 = 5 ∧ w.x % 0x10000 < 0x1000 ∧ w.x % 0x200 = 0x20) && w.one 0 &&
        !(d.beadStopped n e) then 1 else 0
    rwl ||| own ||| rst

/-- A write of a register by requester `q` outside a clasp, whose access is in order. -/
def Dev.regDirect (d : Dev) (q x mask val : Nat) : Dev × BErr :=
  match d.valueErr q x val with
  | .none =>
    let w : RegWr := ⟨x, mask, val, d.beam, false⟩
    let lk := d.lockBits w
    if lk = 0 then (d.regWrite q w, .none)
    else if d.lockBerr x then (d, .locked)
    else ((d.lockReport x (w.merged (d.r x))).regWrite q (w.but lk), .none)
  | e => (d, e)

/-! ### Caches (spec/13_core_execution.md R421-R423) -/

/-- The key of the line of core `q`'s caches that holds address `x`. -/
def lineKey (q x : Nat) : Nat := latchKey (x / 32) q

/-- The line of core `q`'s data cache that holds `x`: 0 where it is not held, else 2^256 plus its bytes. -/
def Dev.dcLine (d : Dev) (q x : Nat) : Nat := tabGet 0 d.dcache (lineKey q x)

/-- Byte `i` of a number replaced. -/
def byteSet (x i v : Nat) : Nat := x - (x / 256 ^ i % 256) * 256 ^ i + v % 256 * 256 ^ i

/-- A store of core `q` updates a line of its own cache that holds the bytes (R422). -/
def Dev.dcStore (d : Dev) (q x v n : Nat) : Dev :=
  if 9 ≤ q then d
  else
    d.each (List.range n) fun d i =>
      let l := d.dcLine q (x + i)
      if l = 0 then d
      else { d with dcache := tabSet 0 d.dcache (lineKey q (x + i)) (byteSet l ((x + i) % 32) (v / 256 ^ i)) }

/-! ### Accesses -/

/-- Bytes of Chozer's boot ROM. -/
def romBytes (a : Nat) : Nat → Nat
  | 0 => 0
  | n + 1 => (Config.bootRom a).toNat + 256 * romBytes (a + 1) n

/-- Bytes of the flash window. -/
def flashBytes (a : Nat) : Nat → Nat
  | 0 => 0
  | n + 1 => (Config.flashByte (a - 0x80000000)).toNat + 256 * flashBytes (a + 1) n

/-- What lies at `x`, as `size` bytes read by requester `q`: the device after the read, the value, the bus error. -/
def Dev.readPlace (d : Dev) (q x size : Nat) : Dev × Nat × BErr :=
  match placeOf x with
  | .mem => (d, d.loadN x size, .none)
  | .trace _ => (d, d.loadN x size, .none)
  | .rom => (d, romBytes (x - 0x200000000000) size, .none)
  | .flash => (d, flashBytes x size, .none)
  | .ledger =>
    let (d, v, e) := d.ledgerRead x false
    if size ≤ 4 then (d, v.toNat / 256 ^ (x % 4) % 256 ^ size, e)
    else if e ≠ .none then (d, 0, e)
    else
      let (d, u, e) := d.ledgerRead (x + 4) false
      (d, v.toNat + 4294967296 * u.toNat, e)
  | .reg => let (d, v) := d.regRead q x; (d, v.toNat, .none)
  | .nothing => (d, 0, .decode)

/-- A read of `size` bytes at `a` by requester `q` (R16). -/
def Dev.busRead (d : Dev) (q a size : Nat) : Dev × Nat × BErr :=
  match d.accessErr q a size false with
  | .none => d.readPlace q (d.xaddr q a) size
  | e => (d, 0, e)

/-- The read waits: the ledger window answers only once the ledger is ready (spec/17_signet_ledger.md R532). -/
def Dev.readWaits (d : Dev) (q a size : Nat) : Bool :=
  placeOf (d.xaddr q a) == .ledger && d.accessErr q a size false == .none && !(d.b SGN_STATUS SGN_STATUS_READY)

/-- A write of `size` bytes at `a` by requester `q` outside a clasp (R16, R30). A write of the boot ROM changes nothing. -/
def Dev.busWrite (d : Dev) (q a size v : Nat) : Dev × BErr :=
  match d.accessErr q a size true with
  | .none =>
    let x := d.xaddr q a
    match placeOf x with
    | .mem => ((d.storeN x v size).dcStore q x v size, .none)
    | .trace _ => (d.storeN x v size, .none)
    | .reg => d.regDirect q x 4294967295 (v % 4294967296)
    | _ => (d, .none)
  | e => (d, e)

/-- A write access that answers its requester. -/
def Dev.busStore (d : Dev) (q a size v : Nat) : Dev :=
  let (d, e) := d.busWrite q a size v
  d.resp q 0 e

/-! ### Bits (spec/01_architecture.md R45, R46; spec/12_instruction_set.md R406-R408) -/

/-- The bus error of an access to peripheral bit `b` by requester `q`. -/
def Dev.bitErr (d : Dev) (q b : Nat) (write : Bool) : BErr :=
  if d.bitAbsent b then .absent
  else match bitPlace b with
    | .reg a _ => d.accessErr q a 4 write
    | .fire ch =>
      match d.accessErr q FLG_FIRE 4 write with
      | .none => if write then d.fireErr q ch else .none
      | e => e
    | .nothing => .decode

/-- Peripheral bit `b` as it reads; WO bits read 0. -/
def Dev.bitValue (d : Dev) (b : Nat) : Bool :=
  match bitPlace b with
  | .reg a i => nbit (d.regView a).toNat i && !(nbit (regMask a .WO) i)
  | _ => false

/-- A write of peripheral bit `b`, whose access is in order (R45). -/
def Dev.bitDirect (d : Dev) (q b : Nat) (v : Bool) : Dev × BErr :=
  match bitPlace b with
  | .reg a i => d.regDirect q a (2 ^ i) (b2n v * 2 ^ i)
  | .fire ch => (if v then d.fireChannel ch else d, .none)
  | .nothing => (d, .decode)

/-! ### Meanings -/

/-- REGISTER_WRITE (R13): a write of `size` bytes by requester `q`. -/
def execRegisterWrite (q : Req) (a : Nat) (size : Fin 9) (v : Word) (s : State) : Host.Outcome State Fault Refusal :=
  s.done fun d => d.busStore q a size v.toNat

/-- PWM_GROUP_WRITE (R145-R147): a write to a register of the period or the duty group. -/
def execPwmGroupWrite (q : Req) (n : Isl) (p : Fin 16) (reg : Fin 6) (v : Word) (s : State) :
    Host.Outcome State Fault Refusal :=
  s.done fun d => d.busStore q (groupReg n p reg) 4 v.toNat

/-- GRP_ASSIGN_WRITE (R212): a write of ABX_GRP_ASSIGN. -/
def execGrpAssignWrite (q : Req) (g : Fin 16) (v : Word) (s : State) : Host.Outcome State Fault Refusal :=
  s.done fun d => d.busStore q (ABX_GRP_ASSIGN g) 4 v.toNat

/-- ROD_PRESET_WRITE (R242): a write of ABX_ROD_PRESET. -/
def execRodPresetWrite (q : Req) (r : Rod) (k : Fin 32) (v : Word) (s : State) : Host.Outcome State Fault Refusal :=
  s.done fun d => d.busStore q (ABX_ROD_PRESET r k) 4 v.toNat

/-- OUTMAP_WRITE (R237): a write of ABX_OUTMAP. -/
def execOutmapWrite (q : Req) (n : Isl) (k : Fin 64) (v : Word) (s : State) : Host.Outcome State Fault Refusal :=
  s.done fun d => d.busStore q (ABX_OUTMAP n k) 4 v.toNat

/-- ROUTE_DIRECT_WRITE (R353): a write of a routing field outside a clasp. -/
def execRouteDirectWrite (q : Req) (a : Nat) (v : Word) (s : State) : Host.Outcome State Fault Refusal :=
  s.done fun d => if isRoute a then d.busStore q a 4 v.toNat else d

end Sys2Proof.Machine
end

