-- ==== Sys2Proof/Machine/Flags.lean ====
section
/-! DEFINITION. The five flags of a Reckoner bank and how results set them (spec/12_instruction_set.md R389, R395-R402). -/

namespace Sys2Proof.Machine
open Sys2Proof

/-- The flags (R389). -/
structure Fl where
  z : Bool
  n : Bool
  c : Bool
  v : Bool
  p : Bool
  deriving DecidableEq, Repr

/-- The flags of a flags word: [4] P, [3] V, [2] C, [1] N, [0] Z. -/
def flOf (x : Nat) : Fl := ⟨nbit x 0, nbit x 1, nbit x 2, nbit x 3, nbit x 4⟩

/-- The flags word. -/
def flWord (f : Fl) : Nat := b2n f.z + 2 * b2n f.n + 4 * b2n f.c + 8 * b2n f.v + 16 * b2n f.p

/-- A condition holds on the flags (R395). -/
def condHolds (k : Cond) (f : Fl) : Bool :=
  match k with
  | .al => true
  | .z => f.z
  | .nz => !f.z
  | .n => f.n
  | .nn => !f.n
  | .c => f.c
  | .nc => !f.c
  | .v => f.v
  | .nv => !f.v
  | .p => f.p
  | .np => !f.p
  | .ge => f.n == f.v
  | .lt => f.n != f.v
  | .gt => !f.z && f.n == f.v
  | .le => f.z || f.n != f.v

/-- Z and N of a result. -/
def flZN (f : Fl) (r : Word) : Fl := { f with z := r == 0, n := r.msb }

/-- Z and N of a result, V as given. -/
def flZNV (f : Fl) (r : Word) (v : Bool) : Fl := { flZN f r with v := v }

/-- An integer fits a signed word. -/
def fits32 (x : Int) : Bool := decide (-2147483648 ≤ x ∧ x < 2147483648)

/-- a + b + k with its flags: C is the carry out of bit 31, V a signed result that does not fit (R398). -/
def addFl (f : Fl) (a b : Word) (k : Nat) : Word × Fl :=
  let r := wordOf (a.toNat + b.toNat + k)
  (r, { flZN f r with c := decide (4294967296 ≤ a.toNat + b.toNat + k), v := !(fits32 (sval a + sval b + k)) })

/-- a - b - k with its flags: C = 1 if no borrow occurred (R398). -/
def subFl (f : Fl) (a b : Word) (k : Nat) : Word × Fl :=
  let r := wordOfInt (a.toNat - b.toNat - k)
  (r, { flZN f r with c := decide (b.toNat + k ≤ a.toNat), v := !(fits32 (sval a - sval b - k)) })

/-- A logic result: Z N; V ← 0. -/
def logicFl (f : Fl) (r : Word) : Word × Fl := (r, flZNV f r false)

/-- A result with Z and N. -/
def znFl (f : Fl) (r : Word) : Word × Fl := (r, flZN f r)

/-- sat32 of an integer: V ← 1 when it changes the value (R402). -/
def satFl (f : Fl) (x : Int) : Word × Fl :=
  let r := wordOfInt (satInt 32 x)
  (r, flZNV f r (!(fits32 x)))

/-- The kinds of shift. -/
inductive ShiftKind where
  | shl | shr | asr | ror
  deriving DecidableEq, Repr

/-- A shift by s = 0-31 (R397): C takes the last bit shifted or rotated out; with s = 0, C is unchanged. -/
def shiftFl (k : ShiftKind) (f : Fl) (a : Word) (s : Nat) : Word × Fl :=
  let r := match k with
    | .shl => a <<< s
    | .shr => a >>> s
    | .asr => a.sshiftRight s
    | .ror => a.rotateRight s
  let out := match k with
    | .shl => a.getLsbD (32 - s)
    | _ => a.getLsbD (s - 1)
  (r, { flZNV f r false with c := if s = 0 then f.c else out })

/-- The low word of the signed product; V = 1 when the product does not fit (R398). -/
def mulFl (f : Fl) (a b : Word) : Word × Fl :=
  let r := wordOfInt (sval a * sval b)
  (r, flZNV f r (!(fits32 (sval a * sval b))))

/-- MULQ: the product rounded at shift `s` and saturated (R402). -/
def mulqFl (f : Fl) (a b : Word) (s : Nat) : Word × Fl := satFl f (rs (sval a * sval b) s)

/-- Signed division (R399). -/
def divFl (f : Fl) (a b : Word) : Word × Fl :=
  if b = 0 then
    let r : Word := if a.msb then 0x80000000 else 0x7FFFFFFF
    (r, flZNV f r true)
  else satFl f ((sval a).tdiv (sval b))

/-- Unsigned division (R399). -/
def divuFl (f : Fl) (a b : Word) : Word × Fl :=
  let r : Word := if b = 0 then 0xFFFFFFFF else wordOf (a.toNat / b.toNat)
  (r, flZNV f r (b == 0))

/-- The signed remainder (R399). -/
def remFl (f : Fl) (a b : Word) : Word × Fl :=
  if b = 0 then (a, flZNV f a true)
  else
    let r := wordOfInt ((sval a).tmod (sval b))
    (r, flZNV f r (!(fits32 ((sval a).tdiv (sval b)))))

/-- The unsigned remainder (R399). -/
def remuFl (f : Fl) (a b : Word) : Word × Fl :=
  let r : Word := if b = 0 then a else wordOf (a.toNat % b.toNat)
  (r, flZNV f r (b == 0))

/-- The comparison of code `cc` (R400); codes 10-15 are illegal. -/
def compares (cc : Nat) (a b : Word) : Option Bool :=
  match cc with
  | 0 => some (a == b)
  | 1 => some (a != b)
  | 2 => some (decide (sval a < sval b))
  | 3 => some (decide (sval a ≤ sval b))
  | 4 => some (decide (sval b < sval a))
  | 5 => some (decide (sval b ≤ sval a))
  | 6 => some (decide (a.toNat < b.toNat))
  | 7 => some (decide (a.toNat ≤ b.toNat))
  | 8 => some (decide (b.toNat < a.toNat))
  | 9 => some (decide (b.toNat ≤ a.toNat))
  | _ => none

/-- The flags of a comparison: Z N C V of a - b, and P (R400). -/
def cmpFl (f : Fl) (a b : Word) (p : Bool) : Fl := { (subFl f a b 0).2 with p := p }

end Sys2Proof.Machine
end

