-- ==== Sys2Proof/Machine/Operands.lean ====
section
/-! DEFINITION. Operand forms of the Reckoner instructions: immediates, lengths, addresses (spec/12_instruction_set.md R391,
R392, R401, R405, R415). -/

namespace Sys2Proof.Machine
open Sys2Proof

/-- Bytes of an instruction by its form (R391). -/
def formLen : Form → Nat
  | .short => 2
  | .long => 4

/-- Bytes of a shift (R396, R401). -/
def shiftLen : ShiftCount → Nat
  | .short _ => 2
  | .long _ => 4

/-- Bytes of a load or store. -/
def memLen : MemForm → Nat
  | .short => 2
  | .disp _ => 4

/-- Bytes of a bit instruction. -/
def bitLen : BitRef → Nat
  | .own _ => 2
  | .any _ => 4

/-- A bit field sign-extended to a word. -/
def sextW {w : Nat} (x : BitVec w) : Word := x.signExtend 32

/-- The address that a load or store names, from its operand (R401). -/
def memAddr (a : Word) : MemForm → Word
  | .short => a
  | .disp x => a + sextW x

/-- The bit address that a bit instruction names. -/
def bitAddr : BitRef → Nat
  | .own b => b.val
  | .any b => b.toNat

/-- A branch target: the instruction address + 2 · sext(offset) (R415). -/
def branchTo {w : Nat} (pc : Nat) (off : BitVec w) : Nat := (((pc : Int) + 2 * off.toInt) % 4294967296).toNat

end Sys2Proof.Machine
end

