-- ==== Sys2Proof/Machine/CoreMem.lean ====
section
/-! DEFINITION. How a core reaches memory, registers and bits: the store buffer, caches, unaligned accesses, writes into an
open clasp (spec/13_core_execution.md R421-R440, spec/11_clasp_transactions.md R368-R371). -/

namespace Sys2Proof.Machine
open Sys2Proof

/-- What ends an instruction without its effect: a trap with its cause, bus error and address word, and whether the refused
write was meant for the open clasp (spec/11_clasp_transactions.md R369); or an access that still waits. -/
inductive Stop where
  | trap (cause : Nat) (err : BErr) (addr : Nat) (refused : Bool)
  | wait
  deriving DecidableEq, Repr

/-- Trap causes (R456). -/
def tILLEGAL : Nat := 0x01
def tPRIV : Nat := 0x02
def tDATA : Nat := 0x03
def tALIGN : Nat := 0x04
def tFETCH : Nat := 0x05
def tDOVF : Nat := 0x06
def tDUNF : Nat := 0x07
def tROVF : Nat := 0x08
def tRUNF : Nat := 0x09
def tSTACK : Nat := 0x0A
def tIMPRECISE : Nat := 0x0B
def tSCALL : Nat := 0x0C
def tBREAK : Nat := 0x0D
def tEXHAUST : Nat := 0x10
def tESCALATED : Nat := 0x11

/-! ### Uncorrectable errors (log entry 15) -/

/-- The core's next read of `n` bytes at `x` ends with UE. -/
def Dev.coreUe (d : Dev) (c x n : Nat) : Bool :=
  match (d.core c).ue with
  | some w => w == x / 8 || w == (x + n - 1) / 8
  | none => false

/-! ### Caches (R421-R423) -/

/-- The line of `x` may be held in the caches of core `c`: shared SRAM or flash, deterministic mode off (R422, R428). -/
def Dev.cacheable (d : Dev) (c x : Nat) : Bool :=
  !(d.b (CORE_CTL c) CORE_CTL_DET) &&
    (placeOf x == .flash || (decide (0x10000000 ≤ x ∧ x < 0x10C00000) && !(d.b (CORE_CTL c) CORE_CTL_NC_SRAM)))

/-- The keys of a cache in the set of `x`: 256 sets of four lines (R421). -/
def cacheSet (t : Tab Nat) (c x : Nat) : List Nat :=
  (t.filter fun e => decide (e.1 % 16 = c ∧ e.1 / 16 % 256 = x / 32 % 256)).map fun e => e.1

/-- A cache with the line of `x` entered; a full set gives up one of its lines, which the spec does not name. -/
def cacheEnter (t : Tab Nat) (c x v pick : Nat) : Tab Nat :=
  let ks := cacheSet t c x
  let t := if ks.length < 4 then t else
    match ks[pick % 4]? with
    | some k => tabSet 0 t k 0
    | none => t
  tabSet 0 t (lineKey c x) v

/-- The data cache of core `c` takes the line of `x`. -/
def Dev.dcFill (d : Dev) (c x : Nat) : Dev :=
  let v := 2 ^ 256 + (d.readPlace c (x - x % 32) 32).2.1
  { d with dcache := cacheEnter d.dcache c x v d.freeVal }.freeNext

/-- The instruction cache of core `c` takes the line of `x`. -/
def Dev.icFill (d : Dev) (c x : Nat) : Dev :=
  { d with icache := cacheEnter d.icache c x 1 d.freeVal }.freeNext

/-! ### The store buffer (R432-R434) -/

/-- A drained store met a bus error: IMPRECISE waits for the next unit; the first error stands (R434). -/
def Dev.imprecise (d : Dev) (c a : Nat) (e : BErr) : Dev :=
  if e = .none ∨ (d.core c).impr.isSome then d else d.setCore c { d.core c with impr := some (a, e) }

/-- A checked store reaches its target. A write of part of a word reads the word, which may end with UE. -/
def Dev.drainWrite (d : Dev) (c a size v : Nat) (ue : Bool) : Dev × BErr :=
  let x := d.xaddr c a
  if d.unpowered x then (d, .decode)
  else
    match placeOf x with
    | .mem | .trace _ =>
      if ue || d.coreUe c x size then (d.setCore c { d.core c with ue := none }, .ue)
      else ((d.storeN x v size).dcStore c x v size, .none)
    | .reg => d.regDirect c x 4294967295 v
    | _ => (d, .none)

/-- The oldest entry of the store buffer drains. -/
def Dev.drainOne (d : Dev) (c : Nat) (ue : Bool) : Dev :=
  match (d.core c).sb with
  | [] => d
  | e :: es =>
    let d := d.setCore c { d.core c with sb := es }
    let r := if e.size = 0 then d.bitDirect c e.addr (e.val == 1) else d.drainWrite c e.addr e.size e.val ue
    r.1.imprecise c e.addr r.2

/-- The `n` oldest entries drain. -/
def Dev.drainMany (d : Dev) (c : Nat) : Nat → Dev
  | 0 => d
  | n + 1 => (d.drainOne c false).drainMany c n

/-- The whole buffer drains. -/
def Dev.drainAll (d : Dev) (c : Nat) : Dev := d.drainMany c (d.core c).sb.length

/-- A store enters the buffer; a full buffer drains its oldest entry first. -/
def Dev.buffer (d : Dev) (c : Nat) (e : SbEntry) : Dev :=
  let d := if 8 ≤ (d.core c).sb.length then d.drainOne c false else d
  d.setCore c { d.core c with sb := (d.core c).sb ++ [e] }

/-- A buffered store overlaps the `n` bytes at `x`. -/
def Dev.overlaps (d : Dev) (c x n : Nat) (e : SbEntry) : Bool :=
  decide (e.size ≠ 0 ∧ d.xaddr c e.addr < x + n ∧ x < d.xaddr c e.addr + e.size)

/-- How many entries must drain for no overlapping store to be left: up to the youngest one. -/
def lastOverlap (p : SbEntry → Bool) : List SbEntry → Nat
  | [] => 0
  | e :: es =>
    let k := lastOverlap p es
    if k ≠ 0 then k + 1 else if p e then 1 else 0

/-- The value of a load that the youngest overlapping store contains (R433). -/
def Dev.forwarded (d : Dev) (c x n : Nat) : Option Nat :=
  match (d.core c).sb.reverse.find? (d.overlaps c x n) with
  | some e =>
    let ex := d.xaddr c e.addr
    if ex ≤ x ∧ x + n ≤ ex + e.size then some (e.val / 256 ^ (x - ex) % 256 ^ n) else none
  | none => none

/-! ### Loads (R433, R435-R438) -/

/-- A load from the place waits until the buffer is empty (R433). -/
def waitsEmpty (x : Nat) : Bool :=
  match placeOf x with
  | .reg | .trace _ | .ledger | .flash => true
  | _ => false

/-- The bytes of a load from the place itself: the data cache, or a read. -/
def Dev.coreRead (d : Dev) (c x n : Nat) : Dev × Nat × BErr :=
  let l := d.dcLine c x
  if d.cacheable c x && l != 0 then (d, l / 256 ^ (x % 32) % 256 ^ n, .none)
  else if d.coreUe c x n then (d, 0, .ue)
  else
    match d.readPlace c x n with
    | (d, v, .none) => (if d.cacheable c x then d.dcFill c x else d, v, .none)
    | r => r

/-- A load of `n` bytes at `a` that lies in one word; `cause` is the trap of its bus error. -/
def Dev.loadPart (d : Dev) (c cause a n : Nat) : Except Stop (Dev × Nat) :=
  match d.accessErr c a n false with
  | .none =>
    let x := d.xaddr c a
    match d.forwarded c x n with
    | some v => .ok (d, v)
    | none =>
      let sb := (d.core c).sb
      let d := d.drainMany c (if waitsEmpty x then sb.length else lastOverlap (d.overlaps c x n) sb)
      if d.readWaits c a n then .error .wait
      else
        match d.coreRead c x n with
        | (d, v, .none) => .ok (d, v)
        | (_, _, e) => .error (.trap cause e a false)
  | e => .error (.trap cause e a false)

/-- Bytes of the lower half of an access (R435). -/
def lowHalf (a n : Nat) : Nat := min n (4 - a % 4)

/-- A load of `n` bytes at `a` (R435, R437). -/
def Dev.coreLoad (d : Dev) (c cause a n : Nat) : Except Stop (Dev × Nat) := do
  let k := lowHalf a n
  let (d, v) ← d.loadPart c cause a k
  if k = n then .ok (d, v)
  else do
    let (d, u) ← d.loadPart c cause ((a + k) % 4294967296) (n - k)
    .ok (d, v + 256 ^ k * u)

/-! ### Writes that enter a clasp (spec/11_clasp_transactions.md R368-R370) -/

/-- A register clasp of core `c` is open and belongs to its current bank. -/
def Dev.claspFills (d : Dev) (c : Nat) : Bool :=
  let k := d.clasp c
  k.held && !k.ledger && !k.closed && k.bank == d.curBank c

/-- Byte addresses whose stores enter a clasp: the global TCM view, island and spine peripheral blocks (R368). -/
def claspRange (a : Nat) : Bool := decide (0x20000000 ≤ a ∧ a < 0x20600000) || decide (0x40000000 ≤ a ∧ a < 0x49000000)

/-- A store merged into the entries that hold bytes of it. -/
def entryMerge (w mask val : Nat) : List ClaspEntry → List ClaspEntry
  | [] => []
  | e :: es =>
    let es' := entryMerge w mask val es
    if !e.bit && e.addr == w && e.mask &&& mask != 0 then
      { e with val := (e.val &&& (4294967295 - (mask &&& e.mask))) ||| (val &&& mask &&& e.mask) } :: es'
    else e :: es'

/-- The bytes of a store that no entry holds yet. -/
def entryNew (w mask : Nat) : List ClaspEntry → Nat
  | [] => mask
  | e :: es => entryNew w (if !e.bit && e.addr == w then mask &&& (4294967295 - e.mask) else mask) es

/-- Bytes outside any entry join the first entry that the store covers in part; a store that covers none is an entry of its
own. -/
def entryWiden (w old new val : Nat) : List ClaspEntry → List ClaspEntry
  | [] => []
  | e :: es =>
    if !e.bit && e.addr == w && e.mask &&& old != 0 then { e with mask := e.mask ||| new, val := e.val ||| (val &&& new) } :: es
    else e :: entryWiden w old new val es

/-- An entry joins the clasp; the 257th sets FULL and is discarded (R370). -/
def Dev.claspAppend (d : Dev) (c : Nat) (e : ClaspEntry) : Dev :=
  let k := d.clasp c
  if 256 ≤ k.entries.length then d.claspSet c cFULL
  else
    let es := k.entries ++ [e]
    d.setClasp c { k with entries := es, status := k.status - nfield k.status 8 9 * 256 + es.length * 256 }

/-- A store of bytes `mask` of the word at `w` enters the clasp (R370). -/
def Dev.claspStore (d : Dev) (c w mask val : Nat) : Dev :=
  let k := d.clasp c
  let new := entryNew w mask k.entries
  if new = mask then d.claspAppend c ⟨w, mask, val &&& mask, false⟩
  else d.setClasp c { k with entries := entryWiden w (mask &&& (4294967295 - new)) new val (entryMerge w mask val k.entries) }

/-! ### Stores (R432, R434, R436, R438) -/

/-- The check of a store, or of one half (R434). -/
def Dev.storeErr (d : Dev) (c a n v : Nat) : BErr :=
  match d.accessErr c a n true with
  | .none => if placeOf (d.xaddr c a) = .reg then d.valueErr c (d.xaddr c a) v else .none
  | e => e

/-- A store of core `c` goes into the core-private range: it bypasses the buffer (R432). -/
def privateRange (a : Nat) : Bool := decide (0xE0000000 ≤ a ∧ a < 0xE0100000)

/-- Bits of the bytes `[k, k + n)` of a word. -/
def byteMask (k n : Nat) : Nat := (256 ^ n - 1) * 256 ^ k

/-- A checked store of `n` bytes that lie in one word goes its way; a spill never enters a clasp (R368). -/
def Dev.storePart (d : Dev) (c a n v : Nat) (spill : Bool) : Dev :=
  if !spill && d.claspFills c && claspRange a then
    d.claspStore c (a - a % 4) (byteMask (a % 4) n) (v % 256 ^ n * 256 ^ (a % 4))
  else d.buffer c ⟨a, n, v % 256 ^ n⟩

/-- A store into the core-private range completes at once. -/
def Dev.storePrivate (d : Dev) (c cause a v : Nat) : Except Stop Dev :=
  match d.regDirect c (d.xaddr c a) 4294967295 v with
  | (d, .none) => .ok d
  | (_, e) => .error (.trap cause e a false)

/-- A store of the low `n` bytes of `v` at `a`. -/
def Dev.coreStore (d : Dev) (c cause a n v : Nat) (spill : Bool) : Except Stop Dev :=
  let k := lowHalf a n
  let refused := !spill && d.claspFills c && claspRange a
  match d.storeErr c a k v with
  | .none =>
    if privateRange a then d.storePrivate c cause a v
    else if k = n then .ok (d.storePart c a n v spill)
    else
      let b := (a + k) % 4294967296
      match d.storeErr c b (n - k) v with
      | .none => .ok ((d.storePart c a k v spill).storePart c b (n - k) (v / 256 ^ k) spill)
      | e => .error (.trap cause e b (!spill && d.claspFills c && claspRange b))
  | e => .error (.trap cause e a refused)

/-! ### Bits (spec/01_architecture.md R43-R46, spec/12_instruction_set.md R406-R409) -/

/-- The key of core `c`'s own bit `b`. -/
def ownBit (c b : Nat) : Nat := c * 4096 + b

/-- A read of bit `b` by core `c`; a peripheral bit waits for an empty buffer, as a load does. -/
def Dev.coreBit (d : Dev) (c b : Nat) : Except Stop (Dev × Bool) :=
  if b < 4096 then .ok (d, tabGet false d.bits (ownBit c b))
  else
    match d.bitErr c b false with
    | .none =>
      let d := d.drainAll c
      .ok (d, d.bitValue b)
    | e => .error (.trap tDATA e b false)

/-- A write of bit `b` by core `c`. -/
def Dev.coreBitPut (d : Dev) (c b : Nat) (v : Bool) : Except Stop Dev :=
  if b < 4096 then .ok { d with bits := tabSet false d.bits (ownBit c b) v }
  else
    match d.bitErr c b true with
    | .none =>
      if d.claspFills c then .ok (d.claspAppend c ⟨b, 1, b2n v, true⟩)
      else .ok (d.buffer c ⟨b, 0, b2n v⟩)
    | e => .error (.trap tDATA e b (d.claspFills c))

end Sys2Proof.Machine
end

