-- ==== Sys2Proof/Machine/CoreStack.lean ====
section
/-! DEFINITION. The data and return stacks of a bank, held in its slots and spilled to and filled from memory, and the bank's
flags (spec/12_instruction_set.md R387-R390, spec/13_core_execution.md R441-R444). -/

namespace Sys2Proof.Machine
open Sys2Proof

/-- Groups of dirty bits (R444). -/
def gRET : Nat := 4
def gSTATUS : Nat := 5

/-- Hardware wrote a member of group `g` of core `c`'s current bank (R444). -/
def Dev.dirty (d : Dev) (c g : Nat) : Dev := d.wf (BNK_DIRTY c (d.curBank c)) ⟨g, 1⟩ 1

/-- A field of a status-group word of the current bank, written by hardware. -/
def Dev.bankSet (d : Dev) (c a : Nat) (f : Fld) (v : Nat) : Dev := (d.wf a f v).dirty c gSTATUS

/-! ### Flags (R389) -/

def Dev.flags (d : Dev) (c : Nat) : Fl := flOf (d.f (BNK_STATUS c (d.curBank c)) BNK_STATUS_FLAGS)

def Dev.setFlags (d : Dev) (c : Nat) (f : Fl) : Dev :=
  d.bankSet c (BNK_STATUS c (d.curBank c)) BNK_STATUS_FLAGS (flWord f)

/-- Set P. -/
def Dev.setP (d : Dev) (c : Nat) (p : Bool) : Dev := d.setFlags c { d.flags c with p := p }

/-! ### Data stack -/

def Dev.dDepth (d : Dev) (c : Nat) : Nat := d.f (BNK_DEPTH c (d.curBank c)) BNK_DEPTH_DDEPTH
def Dev.dTos (d : Dev) (c : Nat) : Nat := d.f (BNK_DEPTH c (d.curBank c)) BNK_DEPTH_DTOS

/-- The slot of the entry `k` places below the top (log entry 16). -/
def Dev.dSlot (d : Dev) (c k : Nat) : Nat := (d.dTos c + 16 - k % 16) % 16

/-- The held entry `k` places below the top. -/
def Dev.dAt (d : Dev) (c k : Nat) : Word := d.r (BNK_DATA c (d.curBank c) (d.dSlot c k))

/-- Write data slot `s`. -/
def Dev.dWrite (d : Dev) (c s : Nat) (v : Word) : Dev := (d.w (BNK_DATA c (d.curBank c) s) v).dirty c (s / 4)

/-- Depth and top slot of the data stack. -/
def Dev.setD (d : Dev) (c depth tos : Nat) : Dev :=
  let a := BNK_DEPTH c (d.curBank c)
  (d.bankSet c a BNK_DEPTH_DDEPTH depth).bankSet c a BNK_DEPTH_DTOS tos

/-- The data stack pointer, as a byte address. -/
def Dev.dsp (d : Dev) (c : Nat) : Nat := 4 * d.f (BNK_DSP c (d.curBank c)) BNK_DSP_P
def Dev.setDsp (d : Dev) (c v : Nat) : Dev := d.bankSet c (BNK_DSP c (d.curBank c)) BNK_DSP_P (v / 4)

/-- A fill of the data stack (R442, R443): the entry at DSP joins below the deepest held one. -/
def Dev.dFill (d : Dev) (c : Nat) : Except Stop Dev :=
  let p := d.dsp c
  if p = 4 * d.f (BNK_DTOP c (d.curBank c)) BNK_DTOP_P then .error (.trap tDUNF .none p false)
  else
    match d.coreLoad c tSTACK p 4 with
    | .ok (d, v) =>
      let n := d.dDepth c
      .ok (((d.dWrite c (d.dSlot c n) (wordOf v)).setD c (n + 1) (d.dTos c)).setDsp c (p + 4))
    | .error e => .error e

/-- Entries are filled until `k` are held; `fuel` bounds the fills. -/
def Dev.dNeed (d : Dev) (c k : Nat) : Nat → Except Stop Dev
  | 0 => .ok d
  | fuel + 1 =>
    if k ≤ d.dDepth c then .ok d
    else
      match d.dFill c with
      | .ok d => d.dNeed c k fuel
      | .error e => .error e

/-- Pop an entry of the data stack. -/
def Dev.dPop (d : Dev) (c : Nat) : Except Stop (Dev × Word) :=
  match d.dNeed c 1 1 with
  | .ok d => .ok (d.setD c (d.dDepth c - 1) (d.dSlot c 1), d.dAt c 0)
  | .error e => .error e

/-- An entry goes into the next slot. -/
def Dev.dPut (d : Dev) (c : Nat) (v : Word) : Dev :=
  let t := (d.dTos c + 1) % 16
  (d.dWrite c t v).setD c (d.dDepth c + 1) t

/-- A spill of the deepest data entry (R442, R443). -/
def Dev.dSpill (d : Dev) (c : Nat) : Except Stop Dev :=
  let p := d.dsp c
  if p < 4 * d.f (BNK_DLIM c (d.curBank c)) BNK_DLIM_P + 4 then .error (.trap tDOVF .none (p - 4) false)
  else
    match d.coreStore c tSTACK (p - 4) 4 (d.dAt c 15).toNat true with
    | .ok d => .ok ((d.setDsp c (p - 4)).setD c 15 (d.dTos c))
    | .error e => .error e

/-- Push an entry on the data stack. -/
def Dev.dPush (d : Dev) (c : Nat) (v : Word) : Except Stop Dev :=
  if d.dDepth c < 16 then .ok (d.dPut c v)
  else
    match d.dSpill c with
    | .ok d => .ok (d.dPut c v)
    | .error e => .error e

/-- The entry `k` places below the top, which is filled where it is not held; the stack keeps its entries. -/
def Dev.dPeek (d : Dev) (c k : Nat) : Except Stop (Dev × Word) :=
  match d.dNeed c (k + 1) (k + 1) with
  | .ok d => .ok (d, d.dAt c k)
  | .error e => .error e

/-! ### Return stack -/

def Dev.rDepth (d : Dev) (c : Nat) : Nat := d.f (BNK_DEPTH c (d.curBank c)) BNK_DEPTH_RDEPTH
def Dev.rTos (d : Dev) (c : Nat) : Nat := d.f (BNK_DEPTH c (d.curBank c)) BNK_DEPTH_RTOS
def Dev.rSlot (d : Dev) (c k : Nat) : Nat := (d.rTos c + 8 - k % 8) % 8
def Dev.rAt (d : Dev) (c k : Nat) : Word := d.r (BNK_RET c (d.curBank c) (d.rSlot c k))
def Dev.rWrite (d : Dev) (c s : Nat) (v : Word) : Dev := (d.w (BNK_RET c (d.curBank c) s) v).dirty c gRET

/-- Depth and top slot of the return stack. -/
def Dev.setR (d : Dev) (c depth tos : Nat) : Dev :=
  let a := BNK_DEPTH c (d.curBank c)
  (d.bankSet c a BNK_DEPTH_RDEPTH depth).bankSet c a BNK_DEPTH_RTOS tos

def Dev.rsp (d : Dev) (c : Nat) : Nat := 4 * d.f (BNK_RSP c (d.curBank c)) BNK_RSP_P
def Dev.setRsp (d : Dev) (c v : Nat) : Dev := d.bankSet c (BNK_RSP c (d.curBank c)) BNK_RSP_P (v / 4)

/-- The top entry of the return stack is held: it is filled where it is not (R442, R443). -/
def Dev.rNeed (d : Dev) (c : Nat) : Except Stop Dev :=
  if 1 ≤ d.rDepth c then .ok d
  else
    let p := d.rsp c
    if p = 4 * d.f (BNK_RTOP c (d.curBank c)) BNK_RTOP_P then .error (.trap tRUNF .none p false)
    else
      match d.coreLoad c tSTACK p 4 with
      | .ok (d, v) => .ok (((d.rWrite c (d.rSlot c 0) (wordOf v)).setR c 1 (d.rTos c)).setRsp c (p + 4))
      | .error e => .error e

/-- The top of the return stack, which stays. -/
def Dev.rPeek (d : Dev) (c : Nat) : Except Stop (Dev × Word) :=
  match d.rNeed c with
  | .ok d => .ok (d, d.rAt c 0)
  | .error e => .error e

/-- Pop an entry of the return stack. -/
def Dev.rPop (d : Dev) (c : Nat) : Except Stop (Dev × Word) :=
  match d.rNeed c with
  | .ok d => .ok (d.setR c (d.rDepth c - 1) (d.rSlot c 1), d.rAt c 0)
  | .error e => .error e

/-- An entry goes into the next return slot. -/
def Dev.rPut (d : Dev) (c : Nat) (v : Word) : Dev :=
  let t := (d.rTos c + 1) % 8
  (d.rWrite c t v).setR c (d.rDepth c + 1) t

/-- A spill of the deepest return entry. -/
def Dev.rSpill (d : Dev) (c : Nat) : Except Stop Dev :=
  let p := d.rsp c
  if p < 4 * d.f (BNK_RLIM c (d.curBank c)) BNK_RLIM_P + 4 then .error (.trap tROVF .none (p - 4) false)
  else
    match d.coreStore c tSTACK (p - 4) 4 (d.rAt c 7).toNat true with
    | .ok d => .ok ((d.setRsp c (p - 4)).setR c 7 (d.rTos c))
    | .error e => .error e

/-- Push an entry on the return stack. -/
def Dev.rPush (d : Dev) (c : Nat) (v : Word) : Except Stop Dev :=
  if d.rDepth c < 8 then .ok (d.rPut c v)
  else
    match d.rSpill c with
    | .ok d => .ok (d.rPut c v)
    | .error e => .error e

end Sys2Proof.Machine
end

