-- ==== Sys2Proof/Machine/CoreTrap.lean ====
section
/-! DEFINITION. Entry to a bank by an interrupt or a trap, escalation, exhaustion, lockup, and the return
(spec/13_core_execution.md R451-R458, R463, R464). -/

namespace Sys2Proof.Machine
open Sys2Proof

/-! ### The program counter -/

def Dev.pc (d : Dev) (c : Nat) : Nat := (d.core c).pc
def Dev.setPc (d : Dev) (c v : Nat) : Dev := d.setCore c { d.core c with pc := v % 4294967296 }

/-- The fetch of `n` bytes at `a` comes from the loop buffer (R426). -/
def Dev.inLoop (d : Dev) (c a n : Nat) : Bool :=
  match (d.core c).loop with
  | some (lo, hi) => decide (lo ≤ a ∧ a + n ≤ hi)
  | none => false

/-- The instruction cache of core `c` holds the line of `x`. -/
def Dev.icHolds (d : Dev) (c x : Nat) : Bool := d.cacheable c x && tabGet 0 d.icache (lineKey c x) != 0

/-- The bus error of a fetch of one halfword (R425, R428). -/
def Dev.fetchHalf (d : Dev) (c a : Nat) : BErr :=
  match d.accessErr c a 2 false with
  | .none =>
    let x := d.xaddr c a
    if !(d.icHolds c x) && d.coreUe c x 2 then .ue else .none
  | e => e

/-- The bus error of the fetch of an instruction of `len` bytes at `a`. -/
def Dev.fetchErr (d : Dev) (c a len : Nat) : BErr :=
  if d.inLoop c a len then .none
  else
    match d.fetchHalf c a with
    | .none => if len = 4 then d.fetchHalf c ((a + 2) % 4294967296) else .none
    | e => e

/-- The instruction cache takes the lines that the fetch missed (R421). -/
def Dev.fetched (d : Dev) (c a len : Nat) : Dev :=
  if d.inLoop c a len then d
  else
    let d := d.setCore c { d.core c with loop := none }
    d.each [a, a + len - 1] fun d a =>
      let x := d.xaddr c a
      if d.cacheable c x && !(d.icHolds c x) then d.icFill c x else d

/-! ### Bank entry (R453) -/

/-- Bank `b` becomes current (CORE_STATUS.CUR). -/
def Dev.setBank (d : Dev) (c b : Nat) : Dev := d.wf (CORE_STATUS c) CORE_STATUS_CUR b

/-- A new stream of units begins at `a`: nothing is held off, no loop is captured, the core waits for nothing. -/
def Dev.goTo (d : Dev) (c a : Nat) : Dev :=
  d.setCore c { d.core c with pc := a % 4294967296, rep := 0, hold := 0, wfi := false, loop := none, close := false }

/-- Entry to bank `e` from the current bank with a return address (R453, items 1 to 3). -/
def Dev.enterBank (d : Dev) (c e ret : Nat) : Dev :=
  let b := d.curBank c
  let d := d.bankSet c (BNK_BPC c b) BNK_BPC_PC ret
  let d := d.setBank c e
  let st := BNK_STATUS c e
  let d := (d.bankSet c st BNK_STATUS_PREV b).bankSet c st BNK_STATUS_IEN 0
  if e = 1 then d
  else
    let d := if e = 0 then d else d.bankSet c st BNK_STATUS_LEVEL 1
    let d := ((d.bankSet c st BNK_STATUS_SACT 0).bankSet c st BNK_STATUS_RCNT 0).bankSet c st BNK_STATUS_FLAGS 0
    let d := (d.bankSet c (BNK_DEPTH c e) BNK_DEPTH_DDEPTH 0).bankSet c (BNK_DEPTH c e) BNK_DEPTH_RDEPTH 0
    (d.bankSet c (BNK_DSP c e) BNK_DSP_P (d.f (BNK_DTOP c e) BNK_DTOP_P)).bankSet c (BNK_RSP c e) BNK_RSP_P
      (d.f (BNK_RTOP c e) BNK_RTOP_P)

/-- The cause word (R456). -/
def causeWord (orig : Nat) (err : BErr) (cause : Nat) : Nat := orig * 65536 + berrCode err * 256 + cause

/-- A lockup: the store buffer drains (R458). -/
def Dev.coreLockup (d : Dev) (c : Core) (cause : Nat) : Dev := (d.lockup c cause).drainAll c

/-- Entry to bank 0 by escalation or exhaustion, with the address and cause words (R457). A fetch fault at ESC_PC is a trap
in bank 0 and locks the core up. -/
def Dev.enterZero (d : Dev) (c : Core) (addr cause ret : Nat) (exhausted : Bool) : Dev :=
  let d := d.enterBank c 0 ret
  let sp := d.f (ESC_SP c) ESC_SP_P
  let at_ (k : Nat) : Nat := (sp + 2 ^ 30 - k) % 2 ^ 30
  let d := (d.wf (BNK_DTOP c 0) BNK_DTOP_P sp).bankSet c (BNK_DSP c 0) BNK_DSP_P sp
  let d := (d.wf (BNK_DLIM c 0) BNK_DLIM_P (at_ 256)).wf (BNK_RTOP c 0) BNK_RTOP_P (at_ 256)
  let d := (d.bankSet c (BNK_RSP c 0) BNK_RSP_P (at_ 256)).wf (BNK_RLIM c 0) BNK_RLIM_P (at_ 384)
  let d := (d.dPut c (wordOf addr)).dPut c (wordOf cause)
  let d := d.set1 (CORE_STATUS c) (if exhausted then CORE_STATUS_EXHAUSTED else CORE_STATUS_ESCALATED)
  let d := (d.raise (coreSrc c (b2n !exhausted)) cause).goTo c (4 * d.f (ESC_PC c) ESC_PC_P)
  match d.fetchHalf c (d.pc c) with
  | .none => d
  | e => d.coreLockup c (causeWord 0 e tFETCH)

/-- Escalation with the original cause (R457). -/
def Dev.escalate (d : Dev) (c : Core) (cause : Nat) (err : BErr) (addr ret : Nat) : Dev :=
  d.enterZero c addr (causeWord cause err tESCALATED) ret false

/-- The bank-exhaustion trap (R452). -/
def Dev.exhaust (d : Dev) (c : Core) (ret : Nat) : Dev := d.enterZero c ret (causeWord 0 .none tEXHAUST) ret true

/-- Entry to handler bank `e` that continues at `vec`; a fetch fault there escalates (R457). `words` are the address and
cause words of a trap. -/
def Dev.enterHandler (d : Dev) (c : Core) (e ret vec : Nat) (words : Option (Nat × Nat)) : Dev :=
  let d := d.enterBank c e ret
  let d := match words with
    | some (a, w) => (d.dPut c (wordOf a)).dPut c (wordOf w)
    | none => d
  let d := d.goTo c vec
  match d.fetchHalf c vec with
  | .none => d
  | x => (if x = .ue then d.setCore c { d.core c with ue := none } else d).escalate c tFETCH x vec vec

/-- First handler bank; 0 and 1 act as 2 (CORE_CTL). -/
def Dev.nbase (d : Dev) (c : Nat) : Nat := max 2 (d.f (CORE_CTL c) CORE_CTL_NBASE)

/-- The entry bank of a trap or of an interrupt with FIQ = 0 from bank `b` = 2-14 (R452). -/
def Dev.entryBank (d : Dev) (c b : Nat) : Nat := if b < d.nbase c then d.nbase c else b + 1

/-- A trap is taken (R452, R453). -/
def Dev.takeTrap (d : Dev) (c : Core) (cause : Nat) (err : BErr) (addr ret : Nat) : Dev :=
  match d.curBank c with
  | 0 => d.coreLockup c (causeWord 0 err cause)
  | 1 => d.escalate c cause err addr ret
  | 15 => d.exhaust c ret
  | b => d.enterHandler c (d.entryBank c b) ret (2 * d.f (TVEC c) TVEC_P) (some (addr, causeWord 0 err cause))

/-- The Pendant interrupt is taken from bank 2-15 (R452, R453). -/
def Dev.takeInterrupt (d : Dev) (c : Core) : Dev :=
  let ret := d.pc c
  let b := d.curBank c
  if d.b (CORE_CTL c) CORE_CTL_FIQ then d.enterHandler c 1 ret (2 * d.f (FVEC c) FVEC_P) none
  else if b = 15 then d.exhaust c ret
  else d.enterHandler c (d.entryBank c b) ret (2 * d.f (IVEC c) IVEC_P) none

/-- The return (R455): bank `b` becomes current and continues at its BPC. -/
def Dev.returnTo (d : Dev) (c b : Nat) : Dev := (d.setBank c b).goTo c (d.r (BNK_BPC c b)).toNat

end Sys2Proof.Machine
end

