-- ==== Sys2Proof/Machine/CoreExec.lean ====
section
/-! DEFINITION. One unit of a core: the fetch, the condition, the effect or the trap, repetitions, the next unit
(spec/12_instruction_set.md R390, R395, R410-R413; spec/13_core_execution.md R431, R434, R454, R459, R461). -/

namespace Sys2Proof.Machine
open Sys2Proof

/-- What a meaning answers. -/
abbrev Outcome := Host.Outcome State Fault Refusal

/-- Core `c` can start a unit: it runs, waits neither in WFI nor in CLCLOSE. -/
def Dev.unitReady (d : Dev) (c : Nat) : Bool := d.coreRuns c && !(d.core c).wfi && !(d.core c).close

/-! ### Repetitions (R410-R413) -/

/-- Repetitions not yet completed in the current bank. -/
def Dev.repLeft (d : Dev) (c : Nat) : Nat :=
  if (d.core c).rep = 256 then 256 else d.f (BNK_STATUS c (d.curBank c)) BNK_STATUS_RCNT

/-- A prefix sets up `n` repetitions. A count of 256 does not fit RCNT: what RCNT reads until the first one completes is a
free value. -/
def Dev.repStart (d : Dev) (c n hold : Nat) : Dev :=
  let st := BNK_STATUS c (d.curBank c)
  let d := d.setCore c { d.core c with rep := if n = 256 then 256 else 0, hold := hold }
  if n = 256 then (d.bankSet c st BNK_STATUS_RCNT (d.freeVal % 256)).freeNext else d.bankSet c st BNK_STATUS_RCNT n

/-- An instruction completes: the core goes on at `next`, or repeats it. -/
def Dev.goOn (d : Dev) (c next : Nat) : Dev :=
  let r := d.repLeft c
  if r = 0 then d.setPc c next
  else
    let d := d.bankSet c (BNK_STATUS c (d.curBank c)) BNK_STATUS_RCNT (r - 1)
    let h := d.core c
    if r = 1 then d.setCore c { h with rep := 0, hold := 0, pc := next % 4294967296 }
    else d.setCore c { h with rep := 0, hold := if h.hold = 2 then 2 else 0 }

/-- The end of a unit: after STEP the core halts again (R461). -/
def Dev.unitEnd (d : Dev) (c : Nat) : Dev :=
  let h := d.core c
  if h.step1 && h.hold == 0 && !h.close && d.coreRuns c then d.haltCore c 3 0 else d

/-! ### Units -/

/-- What an instruction does: the device with the address at which the core goes on, where that is not the next
instruction; or what ends it. -/
abbrev Effect := Except Stop (Dev × Option Nat)

/-- The outcome of an executed instruction of `len` bytes; a fault leaves everything as it was (R390), but for the clasp's
REFUSED, and takes its trap. -/
def Dev.unitDone (d : Dev) (c : Core) (len : Nat) : Effect → Dev
  | .ok (d', none) => (d'.goOn c (d.pc c + len)).unitEnd c
  | .ok (d', some a) => (d'.setPc c a).unitEnd c
  | .error .wait => d
  | .error (.trap cause err addr refused) =>
    let d := if err = .ue then d.setCore c { d.core c with ue := none } else d
    let d := if refused then d.claspSet c cREFUSED else d
    (d.takeTrap c cause err addr (if cause = tBREAK then d.pc c + len else d.pc c)).unitEnd c

/-- A unit of core `c`: an instruction of `len` bytes under condition `k` with effect `f`. Before it, the error of a drained
store is trapped (R434). -/
def Dev.unit (d : Dev) (c : Core) (k : Cond) (len : Nat) (f : Dev → Effect) : Dev :=
  if !(d.unitReady c) then d
  else
    match (d.core c).impr with
    | some (a, e) => ((d.setCore c { d.core c with impr := none }).takeTrap c tIMPRECISE e a (d.pc c)).unitEnd c
    | none =>
      match d.fetchErr c (d.pc c) len with
      | .none =>
        let d := d.fetched c (d.pc c) len
        if condHolds k (d.flags c) then d.unitDone c len (f d) else (d.goOn c (d.pc c + len)).unitEnd c
      | e => (d.unitDone c len (.error (.trap tFETCH e (d.pc c) false)))

/-- An instruction that goes on at the next one. -/
def Dev.instr (d : Dev) (c : Core) (k : Cond) (len : Nat) (f : Dev → Except Stop Dev) : Dev :=
  d.unit c k len fun d =>
    match f d with
    | .ok d => .ok (d, none)
    | .error e => .error e

/-! ### Shapes -/

/-- ( a — r ) with flags. -/
def Dev.unary (d : Dev) (c : Nat) (f : Fl → Word → Word × Fl) : Except Stop Dev :=
  match d.dPop c with
  | .ok (d, a) =>
    let r := f (d.flags c) a
    (d.setFlags c r.2).dPush c r.1
  | .error e => .error e

/-- ( a b — r ) with flags. -/
def Dev.binary (d : Dev) (c : Nat) (f : Fl → Word → Word → Word × Fl) : Except Stop Dev :=
  match d.dPop c with
  | .ok (d, b) => d.unary c fun fl a => f fl a b
  | .error e => .error e

/-- ( — r ). -/
def Dev.pushing (d : Dev) (c : Nat) (r : Word) : Except Stop Dev := d.dPush c r

/-! ### Residue checks (R459) -/

/-- The results of a checked instruction: `res` 0 agrees, 1 the repeat agrees, 2 the repeat mismatches too. -/
def Dev.residue (d : Dev) (c : Core) (res : Fin 3) : Dev :=
  if res = 1 then
    ((d.incSat (CORE_STATUS c) CORE_STATUS_RES_TRANS).raise (coreSrc c 3)).diagT 3 c
  else d

/-- An instruction with a residue check; a lasting mismatch locks the core up. -/
def Dev.checked (d : Dev) (c : Core) (k : Cond) (len : Nat) (res : Fin 3) (f : Dev → Except Stop Dev) : Dev :=
  d.unit c k len fun d =>
    match f d with
    | .ok d' => if res = 2 then .ok (d.coreLockup c 0, some (d.pc c)) else .ok (d'.residue c res, none)
    | .error e => .error e

end Sys2Proof.Machine
end

