-- ==== Sys2Proof/Machine/Stack.lean ====
section
/-! DEFINITION. Reckoner constants, stack operations and flag operations (spec/12_instruction_set.md R396, R401). -/

namespace Sys2Proof.Machine
open Sys2Proof

/-- ( … xk … — … xk … xk ): a copy of the entry `k` places below the top. -/
def Dev.copying (d : Dev) (c k : Nat) : Except Stop Dev :=
  match d.dPeek c k with
  | .ok (d, a) => d.dPush c a
  | .error e => .error e

/-- SL: push sext(imm11). -/
def execSl (c : Core) (k : Cond) (imm : BitVec 11) (s : State) : Outcome :=
  s.done fun d => d.instr c k 2 fun d => d.pushing c (sextW imm)

/-- LIT.L: push sext(imm20). -/
def execLitL (c : Core) (k : Cond) (imm : BitVec 20) (s : State) : Outcome :=
  s.done fun d => d.instr c k 4 fun d => d.pushing c (sextW imm)

/-- EXT: ( x — (x << 12) OR imm12 ). -/
def execExt (c : Core) (k : Cond) (imm : BitVec 12) (s : State) : Outcome :=
  s.done fun d => d.instr c k 4 fun d =>
    match d.dPop c with
    | .ok (d, x) => d.dPush c ((x <<< 12) ||| imm.zeroExtend 32)
    | .error e => .error e

/-- NOP. -/
def execNop (c : Core) (k : Cond) (s : State) : Outcome := s.done fun d => d.instr c k 2 fun d => .ok d

/-- DUP: ( a — a a ). -/
def execDup (c : Core) (k : Cond) (s : State) : Outcome := s.done fun d => d.instr c k 2 fun d => d.copying c 0

/-- DROP: ( a — ). -/
def execDrop (c : Core) (k : Cond) (s : State) : Outcome :=
  s.done fun d => d.instr c k 2 fun d =>
    match d.dPop c with
    | .ok (d, _) => .ok d
    | .error e => .error e

/-- SWAP: ( a b — b a ). -/
def execSwap (c : Core) (k : Cond) (s : State) : Outcome :=
  s.done fun d => d.instr c k 2 fun d => do
    let (d, b) ← d.dPop c
    let (d, a) ← d.dPop c
    let d ← d.dPush c b
    d.dPush c a

/-- OVER: ( a b — a b a ). -/
def execOver (c : Core) (k : Cond) (s : State) : Outcome := s.done fun d => d.instr c k 2 fun d => d.copying c 1

/-- ROT: ( a b c — b c a ). -/
def execRot (c : Core) (k : Cond) (s : State) : Outcome :=
  s.done fun d => d.instr c k 2 fun d => do
    let (d, z) ← d.dPop c
    let (d, y) ← d.dPop c
    let (d, x) ← d.dPop c
    let d ← d.dPush c y
    let d ← d.dPush c z
    d.dPush c x

/-- NIP: ( a b — b ). -/
def execNip (c : Core) (k : Cond) (s : State) : Outcome :=
  s.done fun d => d.instr c k 2 fun d => do
    let (d, b) ← d.dPop c
    let (d, _) ← d.dPop c
    d.dPush c b

/-- PICK n: ( xn … x0 — xn … x0 xn ). -/
def execPick (c : Core) (k : Cond) (n : Fin 16) (s : State) : Outcome :=
  s.done fun d => d.instr c k 2 fun d => d.copying c n

/-- TOR: ( a — ) R: ( — a ). -/
def execTor (c : Core) (k : Cond) (s : State) : Outcome :=
  s.done fun d => d.instr c k 2 fun d =>
    match d.dPop c with
    | .ok (d, a) => d.rPush c a
    | .error e => .error e

/-- FROMR: ( — a ) R: ( a — ). -/
def execFromr (c : Core) (k : Cond) (s : State) : Outcome :=
  s.done fun d => d.instr c k 2 fun d =>
    match d.rPop c with
    | .ok (d, a) => d.dPush c a
    | .error e => .error e

/-- RFETCH: ( — a ) R: ( a — a ). -/
def execRfetch (c : Core) (k : Cond) (s : State) : Outcome :=
  s.done fun d => d.instr c k 2 fun d =>
    match d.rPeek c with
    | .ok (d, a) => d.dPush c a
    | .error e => .error e

/-- RDROP: R: ( a — ). -/
def execRdrop (c : Core) (k : Cond) (s : State) : Outcome :=
  s.done fun d => d.instr c k 2 fun d =>
    match d.rPop c with
    | .ok (d, _) => .ok d
    | .error e => .error e

/-- PSET: P ← 1. -/
def execPset (c : Core) (k : Cond) (s : State) : Outcome :=
  s.done fun d => d.instr c k 2 fun d => .ok (d.setP c true)

/-- PCLR: P ← 0. -/
def execPclr (c : Core) (k : Cond) (s : State) : Outcome :=
  s.done fun d => d.instr c k 2 fun d => .ok (d.setP c false)

/-- PNOT: P ← NOT P. -/
def execPnot (c : Core) (k : Cond) (s : State) : Outcome :=
  s.done fun d => d.instr c k 2 fun d => .ok (d.setP c !(d.flags c).p)

/-- PGET: ( — P ). -/
def execPget (c : Core) (k : Cond) (s : State) : Outcome :=
  s.done fun d => d.instr c k 2 fun d => d.pushing c (wordOf (b2n (d.flags c).p))

/-- PPUT: ( x — ); P ← 1 if x ≠ 0, else 0. -/
def execPput (c : Core) (k : Cond) (s : State) : Outcome :=
  s.done fun d => d.instr c k 2 fun d =>
    match d.dPop c with
    | .ok (d, x) => .ok (d.setP c (x != 0))
    | .error e => .error e

/-- FGET: ( — flags ) (R389). -/
def execFget (c : Core) (k : Cond) (s : State) : Outcome :=
  s.done fun d => d.instr c k 2 fun d => d.pushing c (wordOf (flWord (d.flags c)))

/-- FPUT: ( flags — ) (R389). -/
def execFput (c : Core) (k : Cond) (s : State) : Outcome :=
  s.done fun d => d.instr c k 2 fun d =>
    match d.dPop c with
    | .ok (d, x) => .ok (d.setFlags c (flOf x.toNat))
    | .error e => .error e

end Sys2Proof.Machine
end

