-- ==== Sys2Proof/Machine/Alu.lean ====
section
/-! DEFINITION. Reckoner arithmetic, logic, shifts, multiplies, divides and compares (spec/12_instruction_set.md R396-R402). -/

namespace Sys2Proof.Machine
open Sys2Proof

/-! ### Addition and subtraction -/

/-- ADD. -/
def execAdd (c : Core) (k : Cond) (res : Fin 3) (s : State) : Outcome :=
  s.done fun d => d.checked c k 2 res fun d => d.binary c fun f a b => addFl f a b 0

/-- SUB. -/
def execSub (c : Core) (k : Cond) (res : Fin 3) (s : State) : Outcome :=
  s.done fun d => d.checked c k 2 res fun d => d.binary c fun f a b => subFl f a b 0

/-- ADC: a + b + C. -/
def execAdc (c : Core) (k : Cond) (res : Fin 3) (s : State) : Outcome :=
  s.done fun d => d.checked c k 2 res fun d => d.binary c fun f a b => addFl f a b (b2n f.c)

/-- SBC: a - b - (1 - C). -/
def execSbc (c : Core) (k : Cond) (res : Fin 3) (s : State) : Outcome :=
  s.done fun d => d.checked c k 2 res fun d => d.binary c fun f a b => subFl f a b (b2n !f.c)

/-- NEG: 0 - a. -/
def execNeg (c : Core) (k : Cond) (res : Fin 3) (s : State) : Outcome :=
  s.done fun d => d.checked c k 2 res fun d => d.unary c fun f a => subFl f 0 a 0

/-- ADDQ: a + n + 1. -/
def execAddq (c : Core) (k : Cond) (res : Fin 3) (n : Fin 16) (s : State) : Outcome :=
  s.done fun d => d.checked c k 2 res fun d => d.unary c fun f a => addFl f a (wordOf (n + 1)) 0

/-- ADDI: a + sext(imm20). -/
def execAddi (c : Core) (k : Cond) (res : Fin 3) (imm : BitVec 20) (s : State) : Outcome :=
  s.done fun d => d.checked c k 4 res fun d => d.unary c fun f a => addFl f a (sextW imm) 0

/-! ### Logic -/

/-- AND. -/
def execAnd (c : Core) (k : Cond) (s : State) : Outcome :=
  s.done fun d => d.instr c k 2 fun d => d.binary c fun f a b => logicFl f (a &&& b)

/-- OR. -/
def execOr (c : Core) (k : Cond) (s : State) : Outcome :=
  s.done fun d => d.instr c k 2 fun d => d.binary c fun f a b => logicFl f (a ||| b)

/-- XOR. -/
def execXor (c : Core) (k : Cond) (s : State) : Outcome :=
  s.done fun d => d.instr c k 2 fun d => d.binary c fun f a b => logicFl f (a ^^^ b)

/-- NOT. -/
def execNot (c : Core) (k : Cond) (s : State) : Outcome :=
  s.done fun d => d.instr c k 2 fun d => d.unary c fun f a => logicFl f (~~~a)

/-- ANDI: a AND sext(imm20). -/
def execAndi (c : Core) (k : Cond) (imm : BitVec 20) (s : State) : Outcome :=
  s.done fun d => d.instr c k 4 fun d => d.unary c fun f a => logicFl f (a &&& sextW imm)

/-- ORI: a OR zext(imm20). -/
def execOri (c : Core) (k : Cond) (imm : BitVec 20) (s : State) : Outcome :=
  s.done fun d => d.instr c k 4 fun d => d.unary c fun f a => logicFl f (a ||| imm.zeroExtend 32)

/-! ### Absolute value, minimum, maximum -/

/-- ABS: sat32(abs(a)). -/
def execAbs (c : Core) (k : Cond) (s : State) : Outcome :=
  s.done fun d => d.instr c k 2 fun d => d.unary c fun f a => satFl f (sval a).natAbs

/-- MIN, signed. -/
def execMin (c : Core) (k : Cond) (s : State) : Outcome :=
  s.done fun d => d.instr c k 2 fun d => d.binary c fun f a b => znFl f (if sval a ≤ sval b then a else b)

/-- MAX, signed. -/
def execMax (c : Core) (k : Cond) (s : State) : Outcome :=
  s.done fun d => d.instr c k 2 fun d => d.binary c fun f a b => znFl f (if sval a ≤ sval b then b else a)

/-! ### Shifts (R397) -/

/-- A shift of kind `kind`: with the short form's n = 0, the count is popped first. -/
def Dev.shifting (d : Dev) (c : Nat) (kind : ShiftKind) (cnt : ShiftCount) : Except Stop Dev :=
  match cnt with
  | .long i => d.unary c fun f a => shiftFl kind f a i
  | .short n =>
    if n = 0 then d.binary c fun f a b => shiftFl kind f a (b.toNat % 32)
    else d.unary c fun f a => shiftFl kind f a n

/-- SHL. -/
def execShl (c : Core) (k : Cond) (cnt : ShiftCount) (s : State) : Outcome :=
  s.done fun d => d.instr c k (shiftLen cnt) fun d => d.shifting c .shl cnt

/-- SHR. -/
def execShr (c : Core) (k : Cond) (cnt : ShiftCount) (s : State) : Outcome :=
  s.done fun d => d.instr c k (shiftLen cnt) fun d => d.shifting c .shr cnt

/-- ASR. -/
def execAsr (c : Core) (k : Cond) (cnt : ShiftCount) (s : State) : Outcome :=
  s.done fun d => d.instr c k (shiftLen cnt) fun d => d.shifting c .asr cnt

/-- ROR. -/
def execRor (c : Core) (k : Cond) (cnt : ShiftCount) (s : State) : Outcome :=
  s.done fun d => d.instr c k (shiftLen cnt) fun d => d.shifting c .ror cnt

/-! ### Multiplication and division -/

/-- MUL: (a · b)[31:0]. -/
def execMul (c : Core) (k : Cond) (res : Fin 3) (s : State) : Outcome :=
  s.done fun d => d.checked c k 2 res fun d => d.binary c mulFl

/-- MULH: (a · b)[63:32], signed. -/
def execMulh (c : Core) (k : Cond) (res : Fin 3) (s : State) : Outcome :=
  s.done fun d => d.checked c k 2 res fun d => d.binary c fun f a b => znFl f (wordOfInt (sval a * sval b / 4294967296))

/-- MULHU: (a · b)[63:32], unsigned. -/
def execMulhu (c : Core) (k : Cond) (res : Fin 3) (s : State) : Outcome :=
  s.done fun d => d.checked c k 2 res fun d => d.binary c fun f a b => znFl f (wordOf (a.toNat * b.toNat / 4294967296))

/-- MULQ, MULQ.L (R402). -/
def execMulq (c : Core) (k : Cond) (res : Fin 3) (form : Form) (sh : Fin 32) (s : State) : Outcome :=
  s.done fun d => d.checked c k (formLen form) res fun d => d.binary c fun f a b => mulqFl f a b sh

/-- DIV (R399). -/
def execDiv (c : Core) (k : Cond) (res : Fin 3) (s : State) : Outcome :=
  s.done fun d => d.checked c k 2 res fun d => d.binary c divFl

/-- DIVU (R399). -/
def execDivu (c : Core) (k : Cond) (res : Fin 3) (s : State) : Outcome :=
  s.done fun d => d.checked c k 2 res fun d => d.binary c divuFl

/-- REM (R399). -/
def execRem (c : Core) (k : Cond) (res : Fin 3) (s : State) : Outcome :=
  s.done fun d => d.checked c k 2 res fun d => d.binary c remFl

/-- REMU (R399). -/
def execRemu (c : Core) (k : Cond) (res : Fin 3) (s : State) : Outcome :=
  s.done fun d => d.checked c k 2 res fun d => d.binary c remuFl

/-! ### Compares -/

/-- An illegal instruction at the core's pc (R394). -/
def Dev.illegal (d : Dev) (c : Nat) : Stop := .trap tILLEGAL .none (d.pc c) false

/-- The flags of comparing a with b by code `cc`. -/
def Dev.comparing (d : Dev) (c cc : Nat) (a b : Word) : Except Stop Dev :=
  match compares cc a b with
  | some p => .ok (d.setFlags c (cmpFl (d.flags c) a b p))
  | none => .error (d.illegal c)

/-- CMP (R400). -/
def execCmp (c : Core) (k : Cond) (res : Fin 3) (cc : Fin 16) (s : State) : Outcome :=
  s.done fun d => d.checked c k 2 res fun d =>
    if 10 ≤ cc.val then .error (d.illegal c)
    else do
      let (d, b) ← d.dPop c
      let (d, a) ← d.dPop c
      d.comparing c cc a b

/-- CMPI (R400): compares a with sext(imm16). -/
def execCmpi (c : Core) (k : Cond) (res : Fin 3) (cc : Fin 16) (imm : BitVec 16) (s : State) : Outcome :=
  s.done fun d => d.checked c k 4 res fun d =>
    if 10 ≤ cc.val then .error (d.illegal c)
    else
      match d.dPop c with
      | .ok (d, a) => d.comparing c cc a (sextW imm)
      | .error e => .error e

/-- BTST, BTST.L: P ← bit of a; a stays. -/
def execBtst (c : Core) (k : Cond) (form : Form) (bit : Fin 32) (s : State) : Outcome :=
  s.done fun d => d.instr c k (formLen form) fun d =>
    match d.dPeek c 0 with
    | .ok (d, a) => .ok (d.setP c (a.getLsbD bit))
    | .error e => .error e

end Sys2Proof.Machine
end

