-- ==== Sys2Proof/Machine/LoadStore.lean ====
section
/-! DEFINITION. Reckoner loads, stores and stream operations (spec/12_instruction_set.md R396, R401, R403, R404). -/

namespace Sys2Proof.Machine
open Sys2Proof

/-- ( a — value at a ): `n` bytes, extended by `ext`. -/
def Dev.loading (d : Dev) (c n : Nat) (m : MemForm) (ext : Nat → Word) : Except Stop Dev := do
  let (d, a) ← d.dPop c
  let (d, v) ← d.coreLoad c tDATA (memAddr a m).toNat n
  d.dPush c (ext v)

/-- ( x a — ): the low `n` bytes of x go to a. -/
def Dev.storing (d : Dev) (c n : Nat) (m : MemForm) : Except Stop Dev := do
  let (d, a) ← d.dPop c
  let (d, x) ← d.dPop c
  d.coreStore c tDATA (memAddr a m).toNat n x.toNat false

/-- LD.W. -/
def execLdW (c : Core) (k : Cond) (disp : MemForm) (s : State) : Outcome :=
  s.done fun d => d.instr c k (memLen disp) fun d => d.loading c 4 disp wordOf

/-- LD.H: sign-extended. -/
def execLdH (c : Core) (k : Cond) (disp : MemForm) (s : State) : Outcome :=
  s.done fun d => d.instr c k (memLen disp) fun d => d.loading c 2 disp fun v => wordOfInt (sext 16 v)

/-- LD.HU: zero-extended. -/
def execLdHu (c : Core) (k : Cond) (disp : MemForm) (s : State) : Outcome :=
  s.done fun d => d.instr c k (memLen disp) fun d => d.loading c 2 disp wordOf

/-- LD.B: sign-extended. -/
def execLdB (c : Core) (k : Cond) (disp : MemForm) (s : State) : Outcome :=
  s.done fun d => d.instr c k (memLen disp) fun d => d.loading c 1 disp fun v => wordOfInt (sext 8 v)

/-- LD.BU: zero-extended. -/
def execLdBu (c : Core) (k : Cond) (disp : MemForm) (s : State) : Outcome :=
  s.done fun d => d.instr c k (memLen disp) fun d => d.loading c 1 disp wordOf

/-- ST.W. -/
def execStW (c : Core) (k : Cond) (disp : MemForm) (s : State) : Outcome :=
  s.done fun d => d.instr c k (memLen disp) fun d => d.storing c 4 disp

/-- ST.H. -/
def execStH (c : Core) (k : Cond) (disp : MemForm) (s : State) : Outcome :=
  s.done fun d => d.instr c k (memLen disp) fun d => d.storing c 2 disp

/-- ST.B. -/
def execStB (c : Core) (k : Cond) (disp : MemForm) (s : State) : Outcome :=
  s.done fun d => d.instr c k (memLen disp) fun d => d.storing c 1 disp

/-- LDA.W: ( — word at zext(addr20) ). -/
def execLdaW (c : Core) (k : Cond) (addr : BitVec 20) (s : State) : Outcome :=
  s.done fun d => d.instr c k 4 fun d => do
    let (d, v) ← d.coreLoad c tDATA addr.toNat 4
    d.dPush c (wordOf v)

/-- STA.W: ( x — ); word at zext(addr20) ← x. -/
def execStaW (c : Core) (k : Cond) (addr : BitVec 20) (s : State) : Outcome :=
  s.done fun d => d.instr c k 4 fun d => do
    let (d, x) ← d.dPop c
    d.coreStore c tDATA addr.toNat 4 x.toNat false

/-- MOVW: ( s d — s+4 d+4 ); word at d ← word at s. -/
def execMovw (c : Core) (k : Cond) (s : State) : Outcome :=
  s.done fun d => d.instr c k 2 fun d => do
    let (d, dst) ← d.dPop c
    let (d, src) ← d.dPop c
    let (d, v) ← d.coreLoad c tDATA src.toNat 4
    let d ← d.coreStore c tDATA dst.toNat 4 v false
    let d ← d.dPush c (src + 4)
    d.dPush c (dst + 4)

/-- FILLW: ( x d — x d+4 ); word at d ← x. -/
def execFillw (c : Core) (k : Cond) (s : State) : Outcome :=
  s.done fun d => d.instr c k 2 fun d => do
    let (d, dst) ← d.dPop c
    let (d, x) ← d.dPop c
    let d ← d.coreStore c tDATA dst.toNat 4 x.toNat false
    let d ← d.dPush c x
    d.dPush c (dst + 4)

/-- SUMW: ( acc a — acc + word at a, a+4 ). -/
def execSumw (c : Core) (k : Cond) (res : Fin 3) (s : State) : Outcome :=
  s.done fun d => d.checked c k 2 res fun d => do
    let (d, a) ← d.dPop c
    let (d, acc) ← d.dPop c
    let (d, v) ← d.coreLoad c tDATA a.toNat 4
    let r := addFl (d.flags c) acc (wordOf v) 0
    let d ← (d.setFlags c r.2).dPush c r.1
    d.dPush c (a + 4)

/-! ### The store buffer and fences -/

/-- STORE_DRAIN (R432): the oldest buffered store reaches its target; the read of a part-word write may end with UE. -/
def execStoreDrain (c : Core) (ue : Bool) (s : State) : Outcome := s.done fun d => d.drainOne c ue

/-- DFENCE (R419): every earlier store has been written. -/
def execDfence (c : Core) (k : Cond) (s : State) : Outcome :=
  s.done fun d => d.instr c k 2 fun d => .ok (d.drainAll c)

/-- IFENCE (R419, R440): the store buffer and the loop buffer are empty, the instruction cache holds nothing. -/
def execIfence (c : Core) (k : Cond) (s : State) : Outcome :=
  s.done fun d => d.instr c k 2 fun d => .ok (((d.drainAll c).icInv c).loopEmpty c)

end Sys2Proof.Machine
end

