-- ==== Sys2Proof/Machine/BitOps.lean ====
section
/-! DEFINITION. Reckoner bit instructions (spec/12_instruction_set.md R405-R409). -/

namespace Sys2Proof.Machine
open Sys2Proof

/-- P becomes a function of P and the bit. -/
def Dev.bitReading (d : Dev) (c b : Nat) (f : Bool → Bool → Bool) : Except Stop Dev :=
  match d.coreBit c b with
  | .ok (d, v) => .ok (d.setP c (f (d.flags c).p v))
  | .error e => .error e

/-- BLD: P ← bit b. -/
def execBld (c : Core) (k : Cond) (b : BitRef) (s : State) : Outcome :=
  s.done fun d => d.instr c k (bitLen b) fun d => d.bitReading c (bitAddr b) fun _ v => v

/-- BST: ( x — ); bit b ← x[0]. -/
def execBst (c : Core) (k : Cond) (b : BitRef) (s : State) : Outcome :=
  s.done fun d => d.instr c k (bitLen b) fun d =>
    match d.dPop c with
    | .ok (d, x) => d.coreBitPut c (bitAddr b) (x.getLsbD 0)
    | .error e => .error e

/-- BSET: bit b ← 1. -/
def execBset (c : Core) (k : Cond) (b : BitRef) (s : State) : Outcome :=
  s.done fun d => d.instr c k (bitLen b) fun d => d.coreBitPut c (bitAddr b) true

/-- BCLR: bit b ← 0. -/
def execBclr (c : Core) (k : Cond) (b : BitRef) (s : State) : Outcome :=
  s.done fun d => d.instr c k (bitLen b) fun d => d.coreBitPut c (bitAddr b) false

/-- The bit is a W1C bit, on which BTGL has no effect (R407). -/
def bitW1c (b : Nat) : Bool :=
  match bitPlace b with
  | .reg a i => nbit (regMask a .W1C) i
  | _ => false

/-- BTGL: bit b ← NOT bit b (R407). -/
def execBtgl (c : Core) (k : Cond) (b : BitRef) (s : State) : Outcome :=
  s.done fun d => d.instr c k (bitLen b) fun d =>
    match d.coreBit c (bitAddr b) with
    | .ok (d, v) =>
      if decide (4096 ≤ bitAddr b) && bitW1c (bitAddr b) && d.bitErr c (bitAddr b) true == .none then .ok d
      else d.coreBitPut c (bitAddr b) (!v)
    | .error e => .error e

/-- BAND: P ← P AND bit b. -/
def execBand (c : Core) (k : Cond) (b : BitRef) (s : State) : Outcome :=
  s.done fun d => d.instr c k (bitLen b) fun d => d.bitReading c (bitAddr b) fun p v => p && v

/-- BOR: P ← P OR bit b. -/
def execBor (c : Core) (k : Cond) (b : BitRef) (s : State) : Outcome :=
  s.done fun d => d.instr c k (bitLen b) fun d => d.bitReading c (bitAddr b) fun p v => p || v

/-- BSTP: bit b ← P. -/
def execBstp (c : Core) (k : Cond) (b : BitRef) (s : State) : Outcome :=
  s.done fun d => d.instr c k (bitLen b) fun d => d.coreBitPut c (bitAddr b) (d.flags c).p

end Sys2Proof.Machine
end

