-- ==== Sys2Proof/Machine/Control.lean ====
section
/-! DEFINITION. Reckoner branches, calls, prefixes, system calls, banks, interrupts, debug break (spec/12_instruction_set.md
R410-R416, R420; spec/13_core_execution.md R426, R448-R455, R460). -/

namespace Sys2Proof.Machine
open Sys2Proof

/-! ### Branches and calls -/

/-- A taken SJ or BR: a backward jump of at most 128 bytes is captured by the loop buffer (R426). -/
def Dev.branching (d : Dev) (c : Nat) (len target : Nat) : Dev × Option Nat :=
  let p := d.pc c
  if d.b (CORE_CTL c) CORE_CTL_LB_EN && decide (target ≤ p ∧ p - target ≤ 128) then
    (d.setCore c { d.core c with loop := some (target, p + len) }, some target)
  else (d, some target)

/-- A jump to an address from a stack: an odd one traps (R416). -/
def jumping (pc : Nat) (a : Word) (d : Dev) : Effect :=
  if a.getLsbD 0 then .error (.trap tALIGN .none pc false) else .ok (d, some a.toNat)

/-- SJ. -/
def execSj (c : Core) (k : Cond) (off : BitVec 10) (s : State) : Outcome :=
  s.done fun d => d.unit c k 2 fun d => .ok (d.branching c 2 (branchTo (d.pc c) off))

/-- BR. -/
def execBr (c : Core) (k : Cond) (off : BitVec 20) (s : State) : Outcome :=
  s.done fun d => d.unit c k 4 fun d => .ok (d.branching c 4 (branchTo (d.pc c) off))

/-- CALL (R415). -/
def execCall (c : Core) (k : Cond) (off : BitVec 20) (s : State) : Outcome :=
  s.done fun d => d.unit c k 4 fun d =>
    match d.rPush c (wordOf (d.pc c + 4)) with
    | .ok d => .ok (d, some (branchTo (d.pc c) off))
    | .error e => .error e

/-- JMPI. -/
def execJmpi (c : Core) (k : Cond) (s : State) : Outcome :=
  s.done fun d => d.unit c k 2 fun d =>
    match d.dPop c with
    | .ok (d, a) => jumping (d.pc c) a d
    | .error e => .error e

/-- CALLI. -/
def execCalli (c : Core) (k : Cond) (s : State) : Outcome :=
  s.done fun d => d.unit c k 2 fun d => do
    let (d, a) ← d.dPop c
    let d ← d.rPush c (wordOf (d.pc c + 2))
    jumping (d.pc c) a d

/-- RET. -/
def execRet (c : Core) (k : Cond) (s : State) : Outcome :=
  s.done fun d => d.unit c k 2 fun d =>
    match d.rPop c with
    | .ok (d, a) => jumping (d.pc c) a d
    | .error e => .error e

/-! ### Prefixes (R410, R414) -/

/-- A prefix of `len` bytes for `n` repetitions; before an instruction that R414 names it is illegal. -/
def Dev.prefixing (d : Dev) (c len n hold : Nat) (repeatable : Bool) : Effect :=
  if repeatable then .ok (d.repStart c n hold, some (d.pc c + len)) else .error (d.illegal c)

/-- REP: n + 1 repetitions; `repeatable` tells whether the instruction that follows may be repeated. -/
def execRep (c : Core) (k : Cond) (n : Fin 16) (repeatable : Bool) (s : State) : Outcome :=
  s.done fun d => d.unit c k 2 fun d => d.prefixing c 2 (n + 1) 2 repeatable

/-- REPI: n + 1 repetitions. -/
def execRepi (c : Core) (k : Cond) (n : BitVec 8) (repeatable : Bool) (s : State) : Outcome :=
  s.done fun d => d.unit c k 4 fun d => d.prefixing c 4 (n.toNat + 1) 1 repeatable

/-! ### System calls (R448-R450) -/

/-- The level of the current bank changes; bank 0 stays at M. -/
def Dev.setLevel (d : Dev) (c l : Nat) : Dev :=
  if d.curBank c = 0 then d else d.bankSet c (BNK_STATUS c (d.curBank c)) BNK_STATUS_LEVEL l

/-- The present level as STATUS holds it. -/
def Dev.levelField (d : Dev) (c : Nat) : Nat := d.f (BNK_STATUS c (d.curBank c)) BNK_STATUS_LEVEL

/-- SCALL (R449). -/
def execScall (c : Core) (k : Cond) (n : Fin 4) (s : State) : Outcome :=
  s.done fun d => d.unit c k 2 fun d =>
    let st := BNK_STATUS c (d.curBank c)
    if d.b st BNK_STATUS_SACT then .error (.trap tSCALL .none (d.pc c) false)
    else
      let lev := d.levelField c
      let d := d.bankSet c (BNK_SRA c (d.curBank c)) BNK_SRA_PC (d.pc c + 2)
      let d := (d.bankSet c st BNK_STATUS_SLEV lev).bankSet c st BNK_STATUS_SACT 1
      let d := d.setLevel c (if d.b (SENTRY c n) SENTRY_LEVEL then 2 else 1)
      .ok (d, some (2 * d.f (SENTRY c n) SENTRY_ADDR))

/-- The privilege trap of R420. -/
def Dev.privTrap (d : Dev) (c : Nat) : Stop := .trap tPRIV .none (d.pc c) false

/-- SRET (R450). -/
def execSret (c : Core) (k : Cond) (s : State) : Outcome :=
  s.done fun d => d.unit c k 2 fun d =>
    let b := d.curBank c
    let st := BNK_STATUS c b
    if d.level c = 0 then .error (d.privTrap c)
    else if !(d.b st BNK_STATUS_SACT) then .error (d.illegal c)
    else
      let d := (d.setLevel c (d.f st BNK_STATUS_SLEV)).bankSet c st BNK_STATUS_SACT 0
      .ok (d, some (d.r (BNK_SRA c b)).toNat)

/-! ### Banks (R455) -/

/-- IRET (R455): the bank PREV continues at its BPC. -/
def execIret (c : Core) (k : Cond) (s : State) : Outcome :=
  s.done fun d => d.unit c k 2 fun d =>
    if d.level c = 0 then .error (d.privTrap c)
    else
      let d := d.returnTo c (d.f (BNK_STATUS c (d.curBank c)) BNK_STATUS_PREV)
      .ok (d, some (d.pc c))

/-- SWB (R455): bank n continues at its BPC; banks 0 and 1 need level M. -/
def execSwb (c : Core) (k : Cond) (n : Fin 16) (s : State) : Outcome :=
  s.done fun d => d.unit c k 2 fun d =>
    if d.level c = 0 ∨ (n.val < 2 ∧ d.level c ≠ 2) then .error (d.privTrap c)
    else
      let d := d.returnTo c n
      .ok (d, some (d.pc c))

/-! ### Interrupts and debug -/

/-- WFI: the core waits for an interrupt. -/
def execWfi (c : Core) (k : Cond) (s : State) : Outcome :=
  s.done fun d => d.instr c k 2 fun d =>
    if d.level c = 0 then .error (d.privTrap c) else .ok (d.setCore c { d.core c with wfi := true })

/-- BRK (R460): with DBG_EN the core halts; without, it traps. -/
def execBrk (c : Core) (k : Cond) (n : Fin 16) (s : State) : Outcome :=
  s.done fun d => d.instr c k 2 fun d =>
    if d.b (CORE_CTL c) CORE_CTL_DBG_EN then .ok (d.haltCore c 2 n)
    else .error (.trap tBREAK .none (d.pc c) false)

/-- INTERRUPT_ENTRY (R451): the line is asserted, IEN is 1, the current bank is 2 to 15, a unit has ended. The trap of a
drained store is taken first. -/
def execInterruptEntry (c : Core) (s : State) : Outcome :=
  s.done fun d =>
    let b := d.curBank c
    if d.coreRuns c && !(d.core c).close && (d.core c).hold == 0 &&
      d.b (PND_CPU_STATUS c) PND_CPU_STATUS_LINE && decide (2 ≤ b) && d.b (BNK_STATUS c b) BNK_STATUS_IEN then
      match (d.core c).impr with
      | some (a, e) => (d.setCore c { d.core c with impr := none }).takeTrap c tIMPRECISE e a (d.pc c)
      | none => d.takeInterrupt c
    else d

/-- ILLEGAL_INSTRUCTION (R394): a reserved or ill-formed instruction is executed. -/
def execIllegalInstruction (c : Core) (s : State) : Outcome :=
  s.done fun d => d.instr c .al 2 fun d => .error (d.illegal c)

end Sys2Proof.Machine
end

