-- ==== Sys2Proof/Machine/Routing.lean ====
section
/-! DEFINITION. The check of a routing (spec/10_filigree.md R340-R342, R347, R353-R356; spec/01_architecture.md R48). -/

namespace Sys2Proof.Machine
open Sys2Proof

/-! ### Codes -/

/-- A source code of an island names a source (R340). -/
def srcKnown (c : Nat) : Bool :=
  c == 0 ||
  (decide (0x40 ≤ c ∧ c < 0xC0) && decide (c % 8 < 5)) ||
  (decide (0xC0 ≤ c ∧ c < 0x140) && decide (c % 8 < 7)) ||
  decide (0x140 ≤ c ∧ c ≤ 0x160) || decide (0x168 ≤ c ∧ c < 0x178) ||
  (decide (0x178 ≤ c ∧ c < 0x1A0) && decide (c % 4 < 3)) ||
  decide (c = 0x1A0 ∨ c = 0x1A1) || decide (0x200 ≤ c ∧ c < 0x240)

/-- A spine source code (R340; spec/19_chain_and_can.md R617). -/
def spineSrcKnown (c : Nat) : Bool :=
  c == 0 || decide (0x40 ≤ c ∧ c < 0x60) ||
  (decide (0x80 ≤ c ∧ c < 0x90) && decide (c % 4 < 3)) || (decide (0x90 ≤ c ∧ c < 0xA8) && decide (c % 4 < 3))

/-- A level code names a level (R347). -/
def levelKnown (v : Nat) : Bool := decide (v < 0x90) || decide (v = 0xF0 ∨ v = 0xF1)

/-- A consumer input of an island is listed (R342). -/
def inputKnown (x : Nat) : Bool :=
  if x < 0x40 then decide (x % 4 < 3)
  else decide (x < 0x44) || decide (0x48 ≤ x ∧ x < 0x52) || decide (0x58 ≤ x ∧ x < 0x69)

/-- A consumer input of the spine is listed (R342). -/
def spineInputKnown (x : Nat) : Bool := decide (x < 9) || decide (0x10 ≤ x ∧ x < 0x30) || x == 0x3F

/-- The results of the check (R354). -/
def rtLOOP : Nat := 1
def rtTWO : Nat := 2
def rtCROSS : Nat := 3
def rtBAD : Nat := 4

/-- The island of an island channel. -/
def chanIsland (ch : Nat) : Option Nat := if 128 ≤ ch ∧ ch < 896 then some ((ch - 128) / 128) else none

/-! ### The routing registers, read one by one -/

/-- The addresses of the routing registers that do not hold their reset value. -/
def Dev.routeRegs (d : Dev) : List Nat := (d.regs.map fun e => e.1).filter isRoute

/-- Where a routing register lies. -/
inductive RouteReg where
  | chan (n c : Nat) | schan (s : Nat) | wchan (w : Nat)
  | inp (n x : Nat) | sinp (x : Nat)
  | cellIn (n i : Nat) | cellCfg (n i : Nat)
  deriving DecidableEq, Repr

def routeReg (a : Nat) : RouteReg :=
  if a < 0x48000000 then
    let n := (a - 0x40000000) / 0x1000000
    let o := a % 0x10000
    if o < 0x200 then .chan n (o / 4)
    else if o < 0x800 then .inp n ((o - 0x400) / 8)
    else if o % 16 = 8 then .cellCfg n ((o - 0x1000) / 16) else .cellIn n ((o - 0x1000) / 16)
  else
    let o := a % 0x100000
    if o < 0x200 then .schan (o / 4) else if o < 0x400 then .wchan ((o - 0x200) / 4) else .sinp ((o - 0x800) / 8)

/-- The channels that a routing register names as consumer: enabled selects and event inputs. -/
def Dev.regNames (d : Dev) (a : Nat) : List Nat :=
  match routeReg a with
  | .inp .. | .sinp _ => selNames (d.r a)
  | .cellIn .. => cellNames (d.r a)
  | _ => []

/-- A channel that an absent island would hold. -/
def Dev.chanAbsent (d : Dev) (ch : Nat) : Bool :=
  match chanIsland ch with
  | some n => !(d.hasIsl n)
  | none => false

/-- A spine or software channel whose gate stage is on with the gate of an absent island (R338). -/
def Dev.gateAbsent (d : Dev) (a : Nat) : Bool :=
  let g := d.f a FLG_CH_GATE
  d.b a FLG_CH_GATE_EN && decide (g < 6) && !(d.hasIsl g)

/-- A consumer of island `n` (`none`: of the spine) may not name channel `ch` (R48, R341). -/
def crosses (n : Option Nat) (ch : Nat) : Bool :=
  match chanIsland ch with
  | some m => n != some m
  | none => false

/-- The faults of the names of a consumer. -/
def Dev.nameFaults (d : Dev) (n : Option Nat) (known : Bool) (chs : List Nat) : List (Nat × Nat) :=
  (chs.filter (crosses n)).map (fun ch => (rtCROSS, ch)) ++
  (chs.filter fun ch => !known || d.chanAbsent ch).map (fun ch => (rtBAD, ch))

/-- The level codes of a cell input register. -/
def levelCodes (v : Word) : List Nat := [fget FLG_CELL_INA_I0 v, fget FLG_CELL_INA_I1 v].filter fun i => decide (i < 1024)

/-- A cell as WHERE names it. -/
def cellWhere (n i : Nat) : Nat := 0x8000 + 64 * n + i

/-- The faults of one routing register. -/
def Dev.regFaults (d : Dev) (a : Nat) : List (Nat × Nat) :=
  match routeReg a with
  | .chan n c => if srcKnown (d.f a FLG_CH_SRC) then [] else [(rtBAD, 128 + 128 * n + c)]
  | .schan s =>
    let i := d.f a FLG_SCH_ISL
    let x := d.f a FLG_SCH_SRC
    let ok := if i < 6 then srcKnown x && (x == 0 || d.hasIsl i) else if i = 7 then spineSrcKnown x else true
    if ok && !(d.gateAbsent a) then [] else [(rtBAD, s)]
  | .wchan w => if d.gateAbsent a then [(rtBAD, 896 + w)] else []
  | .inp n x => d.nameFaults (some n) (inputKnown x) (d.regNames a)
  | .sinp x => d.nameFaults none (spineInputKnown x) (d.regNames a)
  | .cellIn n i =>
    d.nameFaults (some n) true (d.regNames a) ++
    (if (levelCodes (d.r a)).all levelKnown then [] else [(rtBAD, cellWhere n i)])
  | .cellCfg .. => []

/-! ### Two consumers (R354) -/

def Dev.allNames (d : Dev) : List Nat := (d.routeRegs.map d.regNames).flatten

def Dev.twiceNamed (d : Dev) : List (Nat × Nat) :=
  let l := d.allNames
  (l.filter fun ch => decide (2 ≤ l.count ch)).map fun ch => (rtTWO, ch)

/-! ### Loops (R355) -/

/-- The device cells that have a configuration and are in COMB mode. -/
def Dev.combCells (d : Dev) : List Nat :=
  ((d.routeRegs.filterMap fun a =>
    match routeReg a with
    | .cellIn n i => some (64 * n + i)
    | .cellCfg n i => some (64 * n + i)
    | _ => none).eraseDups).filter fun x => !(d.cellLatch (x / 64) (x % 64))

/-- Event inputs of device cell `x`: the channels they name; its level inputs: their codes. -/
def Dev.cellEvents (d : Dev) (x : Nat) : List Nat :=
  cellNames (d.r (FLG_CELL_INA (x / 64) (x % 64))) ++ cellNames (d.r (FLG_CELL_INB (x / 64) (x % 64)))
def Dev.cellLevels (d : Dev) (x : Nat) : List Nat :=
  levelCodes (d.r (FLG_CELL_INA (x / 64) (x % 64))) ++ levelCodes (d.r (FLG_CELL_INB (x / 64) (x % 64)))

/-- Channel `ch` carries the output event of device cell `x`, or is gated by its O. -/
def Dev.carries (d : Dev) (x ch : Nat) : Bool :=
  let n := x / 64
  let i := x % 64
  let fires := d.f (FLG_CELL_CFG n i) FLG_CELL_CFG_EDGE != 0
  if ch < 128 then fires && d.f (FLG_SCH ch) FLG_SCH_ISL == n && d.f (FLG_SCH ch) FLG_SCH_SRC == 0x200 + i
  else if 128 + 128 * n ≤ ch ∧ ch < 256 + 128 * n then
    let a := FLG_CH n (ch - 128 - 128 * n)
    (fires && d.f a FLG_CH_SRC == 0x200 + i) || (d.b a FLG_CH_GATE_EN && d.f a FLG_CH_GATE == i)
  else false

/-- Device cell `x` links to device cell `y`. -/
def Dev.cellLink (d : Dev) (x y : Nat) : Bool :=
  (d.cellEvents y).any (d.carries x) || (x / 64 == y / 64 && (d.cellLevels y).contains (x % 64))

/-- The cells reached from a set within `k` links. -/
def reaches (l : List Nat) (link : Nat → Nat → Bool) : Nat → List Nat → List Nat
  | 0, s => s
  | k + 1, s => reaches l link k (l.filter fun y => s.contains y || s.any fun x => link x y)

/-- The cells that lie on a loop of COMB cells. -/
def Dev.loopCells (d : Dev) : List Nat :=
  let l := d.combCells
  l.filter fun x => (reaches l d.cellLink l.length (l.filter fun y => d.cellLink x y)).contains x

/-! ### The check -/

/-- One fault lies before another: lowest RESULT, then lowest WHERE (R354). -/
def faultMin : List (Nat × Nat) → Option (Nat × Nat)
  | [] => none
  | f :: fs =>
    match faultMin fs with
    | none => some f
    | some g => if f.1 < g.1 ∨ (f.1 = g.1 ∧ f.2 ≤ g.2) then some f else some g

/-- The fault that the check of the device's whole routing reports. -/
def Dev.routeFault (d : Dev) : Option (Nat × Nat) :=
  faultMin (d.loopCells.map (fun x => (rtLOOP, 0x8000 + x)) ++ d.twiceNamed ++ (d.routeRegs.map d.regFaults).flatten)

end Sys2Proof.Machine
end

