-- ==== Sys2Proof/Machine/Clasp.lean ====
section
/-! DEFINITION. Register clasps: opening, closing, the commit tick, the commit (spec/11_clasp_transactions.md R366-R384;
spec/12_instruction_set.md R417, R418). -/

namespace Sys2Proof.Machine
open Sys2Proof

/-! ### Fields of the mode word (R373) -/

def cmMode (m : Nat) : Nat := nfield m 30 2
def cmKind (m : Nat) : Nat := nfield m 28 2
def cmAbort (m : Nat) : Bool := nbit m 27
def cmNotify (m : Nat) : Bool := nbit m 26
def cmTarget (m : Nat) : Nat := nfield m 16 7

/-- The close commits at a boundary of PAIR, TIMER or FRAME. -/
def atBoundary (m : Nat) : Bool := cmMode m == 2 && cmKind m != 3

/-- The close commits at an event. -/
def atEvent (m : Nat) : Bool := cmMode m == 2 && cmKind m == 3

/-- MODE is 3, or TARGET names what does not exist (R374). -/
def Dev.badMode (d : Dev) (m : Nat) : Bool :=
  let t := cmTarget m
  cmMode m == 3 ||
  (atBoundary m && (if cmKind m = 2 then decide (6 ≤ t) || !(d.hasIsl t) else decide (96 ≤ t) || !(d.hasIsl (t / 16))))

/-! ### Opening -/

/-- Core `c` holds a register clasp that waits to commit. -/
def Dev.claspWaits (d : Dev) (c : Nat) : Bool :=
  let k := d.clasp c
  k.held && k.closed && !k.ledger

/-- The kept status word with BUSY. -/
def Dev.claspBusy (d : Dev) (c : Nat) : Word := wordOf (claspFlag (d.clasp c).status cBUSY)

/-- The status word of core `c`. -/
def Dev.claspWord (d : Dev) (c : Nat) : Word := wordOf (d.clasp c).status

/-- CLOPEN (R367). -/
def execClopen (c : Core) (k : Cond) (s : State) : Outcome :=
  s.done fun d => d.instr c k 2 fun d =>
    if (d.clasp c).held then d.dPush c (d.claspBusy c)
    else
      let d := d.setClasp c { held := true, bank := d.curBank c, status := csOpen }
      d.dPush c (d.claspWord c)

/-- CLSTAT (R417). -/
def execClstat (c : Core) (k : Cond) (s : State) : Outcome :=
  s.done fun d => d.instr c k 2 fun d => d.dPush c (d.claspWord c)

/-! ### Boundaries (R376) -/

/-- Timer `t` of island `n` has a period end on this tick, past or still to come. -/
def Dev.endsNow (d : Dev) (n t : Nat) : Bool :=
  (d.timer n t).endAt == some d.beam || d.wrapsNow n t ||
  (d.linkedOdd n t && d.wrapsNow n (t - 1) && decide ((d.r (TLY_RELOAD n t)).toNat ≤ d.count n t))

/-- Pair `p` of island `n` has a boundary on this tick, past or still to come. -/
def Dev.pairEndsNow (d : Dev) (n p : Nat) : Bool :=
  let h := d.pair n p
  d.pairRuns n p &&
  (h.lastB == some d.beam ||
    (if d.slave n p then
      (h.sched.any fun t => decide (t ≤ d.beam)) ||
        (d.f (PWM_PSYNC n p) PWM_PSYNC_PHASE == 0 && d.endsNow n (d.f (PWM_CTL n p) PWM_CTL_SYNC_TMR))
    else h.lastB.any fun b => decide (b + d.periodLen n p h.k ≤ d.beam)))

/-- The boundary that mode word `m` names falls on this tick. -/
def Dev.targetNow (d : Dev) (m : Nat) : Bool :=
  let t := cmTarget m
  match cmKind m with
  | 0 => d.pairEndsNow (t / 16) (t % 16)
  | 1 => d.endsNow (t / 16) (t % 16)
  | _ => d.endsNow t (d.f (ABX_FRM_CTL t) ABX_FRM_CTL_BND_TMR)

/-! ### The commit tick (R375, R376) -/

/-- The commit tick is decided. -/
def Dev.claspAt (d : Dev) (c : Core) (t : Nat) : Dev :=
  (d.setClasp c { d.clasp c with at_ := some t }).at_ t (.claspCommit c)

/-- The commit is late: LATE is set; with LATE_ABORT the clasp fails. -/
def Dev.claspLate (d : Dev) (c : Nat) : Dev :=
  let d := d.claspSet c cLATE
  if cmAbort (d.clasp c).mode then d.claspFail c else d

/-- A waiting clasp finds its boundary on this tick: it commits, or is late where it is not ready. -/
def Dev.claspSee (d : Dev) (c : Core) : Dev :=
  let k := d.clasp c
  if d.claspWaits c && !d.lost && k.at_.isNone && atBoundary k.mode && d.targetNow k.mode then
    match k.rd with
    | some r => if r ≤ d.beam then d.claspAt c d.beam else d.claspLate c
    | none => d.claspLate c
  else d

/-- A clasp that became ready on tick `rd` gets its commit tick where its mode gives one. -/
def Dev.claspReady (d : Dev) (c : Core) (rd : Nat) : Dev :=
  let d := d.setClasp c { d.clasp c with rd := some rd }
  let k := d.clasp c
  match cmMode k.mode with
  | 0 => d.claspAt c rd
  | 1 =>
    if k.t < rd then
      let d := d.claspLate c
      if d.claspWaits c then d.claspAt c rd else d
    else d.claspAt c k.t
  | _ => d.claspSee c

/-! ### Entries -/

/-- An entry as a register write on commit tick `t`: shadowed fields count as written on t - 1 (R378). -/
def entryWrite (e : ClaspEntry) (t : Nat) : Option RegWr :=
  if e.bit then
    match bitPlace e.addr with
    | .reg a i => some ⟨a, 2 ^ i, e.val * 2 ^ i, t - 1, true⟩
    | _ => none
  else if e.addr < 0x40000000 then none
  else some ⟨e.addr, e.mask, e.val, t - 1, true⟩

/-- The register writes of the clasp: word entries first, then bit entries (R380). -/
def wordsFirst (es : List ClaspEntry) : List ClaspEntry := (es.filter fun e => !e.bit) ++ es.filter fun e => e.bit

/-- The entries that are locked writes on this tick (R379). -/
def Dev.lockedEntries (d : Dev) (c : Nat) : List RegWr :=
  (wordsFirst (d.clasp c).entries).filterMap fun e =>
    (entryWrite e d.beam).filter fun w => d.lockBits w != 0

/-- The clasp holds a routing field (R375). -/
def Dev.routes (d : Dev) (c : Nat) : Bool := (d.clasp c).entries.any fun e => !e.bit && isRoute e.addr

/-! ### Closing (R372, R374) -/

/-- The first entry that the close finds locked by a block that reports by bus error. -/
def Dev.closeLocked (d : Dev) (c : Nat) : Option RegWr := (d.lockedEntries c).find? fun w => d.lockBerr w.x

/-- The close of the clasp of core `c` on tick K, with no locked entry. -/
def Dev.claspClose (d : Dev) (c : Core) (m t : Nat) : Dev :=
  let k := d.clasp c
  if nbit k.status cREFUSED || nbit k.status cFULL then d.claspFail c
  else if d.badMode m then (d.claspSet c cBADMODE).claspFail c
  else
    let d := d.setClasp c { k with closed := true, mode := m, t := t, k := d.beam, status := claspState k.status csPending }
    if d.routes c then
      (((d.wf FLG_ROUTE_STATUS FLG_ROUTE_STATUS_BUSY 1).at_ (d.beam + d.freeVal % 20001) (.routingCheck c)).freeNext).claspSee c
    else d.claspReady c d.beam

/-- The operands of CLCLOSE (R417): the mode word, and T for AT_TICK. -/
def Dev.closePops (d : Dev) (c : Nat) : Except Stop (Dev × Nat × Nat) := do
  let (d, m) ← d.dPop c
  if cmMode m.toNat = 1 then do
    let (d, hi) ← d.dPop c
    let (d, lo) ← d.dPop c
    .ok (d, m.toNat, lo.toNat + 4294967296 * hi.toNat)
  else .ok (d, m.toNat, 0)

/-- A CLCLOSE that closes nothing: its operands go, a status word comes (R372, R418). -/
def Dev.closeNothing (d : Dev) (c : Nat) (w : Word) : Except Stop Dev :=
  match d.closePops c with
  | .ok (d, _, _) => d.dPush c w
  | .error e => .error e

/-- CLCLOSE (R372): with an open clasp of the current bank the core waits until every entry has reached its block, which
CLASP_CLOSE_RECORDED records; otherwise it closes nothing. -/
def execClclose (c : Core) (k : Cond) (s : State) : Outcome :=
  s.done fun d => d.unit c k 2 fun d =>
    if d.claspFills c then .ok (d.setCore c { d.core c with close := true }, some (d.pc c))
    else
      match d.closeNothing c (if (d.clasp c).held then d.claspBusy c else d.claspWord c) with
      | .ok d => .ok (d, none)
      | .error e => .error e

/-- The close is recorded on this tick, tick K; CLCLOSE ends. `d` is the device with the core waiting no longer. -/
def Dev.closeRecorded (d : Dev) (c : Core) : Dev :=
  if !(d.clasp c).held then
    d.unitDone c 2 (match d.closeNothing c (d.claspWord c) with
      | .ok d => .ok (d, none)
      | .error e => .error e)
  else
    let m := (d.dPeek c 0).toOption.elim 0 fun r => r.2.toNat
    let k := d.clasp c
    let stops := nbit k.status cREFUSED || nbit k.status cFULL || d.badMode m
    match (if stops then none else d.closeLocked c) with
    | some w =>
      match d.closePops c with
      | .ok _ => ((d.claspSet c cLOCKED).claspFail c).unitDone c 2 (.error (.trap tDATA .locked w.x false))
      | .error e => d.unitDone c 2 (.error e)
    | none =>
      d.unitDone c 2 (match d.closePops c with
        | .ok (d, m, t) =>
          let d := d.claspClose c m t
          match d.dPush c (d.claspWord c) with
          | .ok d => .ok (d, none)
          | .error e => .error e
        | .error e => .error e)

/-- CLASP_CLOSE_RECORDED (R372): every entry has reached the block that owns it. -/
def execClaspCloseRecorded (c : Core) (s : State) : Outcome :=
  s.done fun d =>
    if (d.core c).close && d.coreRuns c then (d.setCore c { d.core c with close := false }).closeRecorded c else d

/-! ### The routing check (R354, R356) -/

/-- The device with its routing as it would stand after the commit. -/
def Dev.withRouting (d : Dev) (c : Nat) : Dev :=
  d.each ((d.clasp c).entries.filter fun e => !e.bit && isRoute e.addr) fun d e =>
    d.w e.addr (maskWrite (d.r e.addr) (e.mask &&& regMask e.addr .RWL) e.val)

/-- The check ends on this tick with its result. -/
def Dev.routeChecked (d : Dev) (c : Core) : Dev :=
  let d0 := d.wf FLG_ROUTE_STATUS FLG_ROUTE_STATUS_BUSY 0
  match (d.withRouting c).routeFault with
  | none =>
    ((d0.wf FLG_ROUTE_STATUS FLG_ROUTE_STATUS_RESULT 0).wf FLG_ROUTE_STATUS FLG_ROUTE_STATUS_WHERE 0).claspReady c
      (d.beam + 1)
  | some (r, w) =>
    let d := (d0.wf FLG_ROUTE_STATUS FLG_ROUTE_STATUS_RESULT r).wf FLG_ROUTE_STATUS FLG_ROUTE_STATUS_WHERE w
    let d := (d.set1 FLG_SPINE_STATUS FLG_SPINE_STATUS_REFUSED).raise 0x0023
    (d.claspSet c cROUTE).claspFail c

/-- ROUTING_CHECK (R354): the check of the closed clasp of core `c` ends. -/
def execRoutingCheck (c : Core) (s : State) : Outcome :=
  s.done fun d =>
    if d.claspWaits c && (d.clasp c).rd.isNone && d.routes c then d.routeChecked c
    else if (List.finRange 9).any fun (j : Core) => d.claspWaits j && (d.clasp j).rd.isNone && d.routes j then d
    else d.wf FLG_ROUTE_STATUS FLG_ROUTE_STATUS_BUSY 0

/-! ### The commit (R378, R379) -/

/-- The block of a shadow does not run, or has a boundary behind it on this tick; a held PWM group waits (R59, R365,
R378). -/
def Dev.shadowNow (d : Dev) (x : Shadow) : Bool :=
  if x.addr < 0x40000000 ∨ 0x46000000 ≤ x.addr then false
  else
    let n := (x.addr - 0x40000000) / 0x1000000
    let o := x.addr % 0x10000
    let ended (t : Nat) : Bool := (d.timer n t).endAt == some d.beam
    decide (x.tick < d.beam) &&
    (match x.addr % 0x1000000 / 0x10000 with
      | 0 => !(d.timerRuns n (o / 0x40)) || ended (o / 0x40)
      | 1 =>
        let p := o / 0x40
        (!(d.pairRuns n p) || (d.pair n p).lastB == some d.beam) &&
          (match (d.pair n p).held with
            | some (g, _) => !(inGroup n p g x)
            | none => true)
      | 2 => !(d.inRun n) || ended (d.f (ACH_CFG n (o / 0x40)) ACH_CFG_BND_TMR)
      | _ => !(d.abxRuns n) || ended (d.f (ABX_FRM_CTL n) ABX_FRM_CTL_BND_TMR))

/-- Shadows that need wait for no boundary apply. -/
def Dev.shadowsNow (d : Dev) : Dev := d.applyShadow d.shadowNow

/-- Presets that need wait for no boundary apply (R242): of rods of no island, of islands whose block does not run or whose
boundary lies behind on this tick. -/
def Dev.presetsNow (d : Dev) : Dev :=
  d.each ((d.presets.map fun e => e.1 / 32).eraseDups) fun d r =>
    let n := d.rodIsl r
    if 6 ≤ n || !(d.abxRuns n) || (d.timer n (d.f (ABX_FRM_CTL n) ABX_FRM_CTL_BND_TMR)).endAt == some d.beam then
      d.presetApply r
    else d

/-- The clasp writes the period group (`false`) or the duty group (`true`) of a pair. -/
def claspGroup (es : List ClaspEntry) (n p : Nat) (duty : Bool) : Bool :=
  es.any fun e => !e.bit && inGroup n p duty ⟨e.addr, 0, 0, 0⟩ &&
    decide (e.mask &&& groupMask (e.addr % 0x40 / 4) ≠ 0)

/-- Split detection and holding for one pair (spec/04_pwm.md R148). -/
def Dev.claspGroups (d : Dev) (es : List ClaspEntry) (n : Isl) (p : Fin 16) : Dev :=
  let wp := claspGroup es n p false
  let wd := claspGroup es n p true
  if wp && wd then
    (d.setPair n p { d.pair n p with held := none, lastP := some d.beam, lastD := some d.beam }).cancel (.holdExpired n p)
  else if wp then d.groupNoted n p false
  else if wd then d.groupNoted n p true
  else d

/-- The pairs that a clasp addresses. -/
def claspPairs (es : List ClaspEntry) : List (Isl × Fin 16) :=
  (es.filterMap fun e =>
    if !e.bit && decide (0x40000000 ≤ e.addr ∧ e.addr < 0x46000000 ∧ e.addr % 0x1000000 / 0x10000 = 1 ∧
        e.addr % 0x10000 < 0x400) then
      some (Fin.ofNat 6 ((e.addr - 0x40000000) / 0x1000000), Fin.ofNat 16 (e.addr % 0x10000 / 0x40))
    else none).eraseDups

/-- Bytes `mask` of a TCM word take those of `val`. -/
def Dev.tcmWrite (d : Dev) (a mask val : Nat) : Dev :=
  d.each (List.range 4) fun d i => if nbit mask (8 * i) then d.putByte (a + i) (BitVec.ofNat 8 (val / 256 ^ i)) else d

/-- One entry takes effect (R378); a unit that lost its power takes nothing. -/
def Dev.entryCommit (d : Dev) (c : Nat) (e : ClaspEntry) : Dev :=
  match entryWrite e d.beam with
  | some w => if d.unpowered w.x then d else d.regWrite c w
  | none =>
    if e.bit then
      match bitPlace e.addr with
      | .fire ch => if e.val = 1 then d.fireChannel ch else d
      | _ => d
    else if d.unpowered e.addr then d else d.tcmWrite e.addr e.mask e.val

/-- The commit of the clasp of core `c` on this tick. -/
def Dev.claspCommit (d : Dev) (c : Core) : Dev :=
  match d.lockedEntries c with
  | [] =>
    let es := (d.clasp c).entries
    let d := d.each (wordsFirst es) fun d e => d.entryCommit c e
    let d := d.each (claspPairs es) fun d np => d.claspGroups es np.1 np.2
    let d := d.shadowsNow.presetsNow
    let n := cmNotify (d.clasp c).mode
    let d := d.claspEnd c csCommitted
    if n then d.claspRaise c d.beam else d
  | ws =>
    let d := d.each ws fun d w => d.lockReport w.x (w.merged (d.r w.x))
    (d.claspSet c cLOCKED).claspFail c

/-- The commit tick has come. -/
def Dev.commitNow (d : Dev) (c : Nat) : Bool :=
  d.claspWaits c && !d.lost && (d.clasp c).at_.any fun t => decide (t ≤ d.beam)

/-- CLASP_COMMIT (R378): on tick C every entry is committed. -/
def execClaspCommit (c : Core) (s : State) : Outcome :=
  s.done fun d =>
    let d := d.claspSee c
    if d.commitNow c then d.claspCommit c else d

/-- The delay of an event that the commit input of core `c` records on this tick (R377). -/
def Dev.commitDly (d : Dev) (c : Nat) : Nat :=
  if d.claspWaits c && atEvent (d.clasp c).mode then (d.clasp c).mode % 65536 else 0

/-- The pending events of the commit input of core `c`, those recorded by now with their action ticks. -/
def Dev.commitPend (d : Dev) (c : Nat) : List PendEv :=
  recordPend (d.commitDly c) d.beam (tabGet 0 d.inLast (spineKey c)) (d.pendOf (spineKey c))

/-- Events of the commit input of core `c` are recorded; each action waits for its tick. -/
def Dev.commitRecord (d : Dev) (c : Core) : Dev :=
  let ps := d.pendOf (spineKey c)
  let qs := d.commitPend c
  let d := { d with pend := tabSet [] d.pend (spineKey c) qs }
  d.each ((ps.zip qs).filter fun x => x.1.origin.isSome && x.2.origin.isNone && decide (d.beam < x.2.due)) fun d x =>
    d.at_ x.2.due (.claspCommitInput c)

/-- An action of the commit input of core `c` on this tick (R376, R377). -/
def Dev.commitAction (d : Dev) (c : Core) : Dev :=
  let (d, late) := d.takeInput (spineKey c)
  let k := d.clasp c
  if d.claspWaits c && !d.lost && k.at_.isNone && atEvent k.mode && k.rd.any fun r => decide (r ≤ d.beam) then
    let d := if late then d.claspLate c else d
    if d.claspWaits c then d.claspAt c d.beam else d
  else d

/-- CLASP_COMMIT_INPUT (R376, R377): the commit input of core `c` records events and takes an action; where events are
pending, the action is the oldest one's, on its tick. -/
def execClaspCommitInput (c : Core) (s : State) : Outcome :=
  s.done fun d =>
    let d := d.commitRecord c
    match d.pendOf (spineKey c) with
    | e :: _ => if e.origin.isNone && decide (e.due ≤ d.beam) then d.commitAction c else d
    | [] => d.commitAction c

/-! ### Abort (R381) -/

/-- The clasp's commit tick is this one or past, though its commit may still wait for its turn. -/
def Dev.commitDue (d : Dev) (c : Nat) : Bool :=
  let k := d.clasp c
  d.claspWaits c && !d.lost &&
  ((k.at_.any fun t => decide (t ≤ d.beam)) ||
    (k.at_.isNone && (k.rd.any fun r => decide (r ≤ d.beam)) &&
      ((atBoundary k.mode && d.targetNow k.mode) ||
        (atEvent k.mode && (d.commitPend c).any fun e => e.origin.isNone && decide (e.due ≤ d.beam)))))

/-- CLABORT (R381): a register clasp that has not reached its commit tick is discarded. -/
def execClabort (c : Core) (k : Cond) (s : State) : Outcome :=
  s.done fun d => d.instr c k 2 fun d =>
    .ok (if (d.clasp c).held && !(d.clasp c).ledger && !(d.commitDue c) then d.claspEnd c csAborted else d)

end Sys2Proof.Machine
end

