-- ==== Sys2Proof/Machine/Diag.lean ====
section
/-! DEFINITION. The DIAG commands (spec/18_chozer_mailboxes.md R575, R576; spec/21_failure_containment.md R650, R651). -/

namespace Sys2Proof.Machine
open Sys2Proof

/-- A class and instance of DIAG_UNIT that the table names (R650). -/
def diagKnown (c i : Nat) : Bool :=
  match c with
  | 1 => decide (i < 16)
  | 2 => decide (i < 64)
  | 3 => decide (i < 9)
  | 4 => decide (i < 48)
  | 5 | 6 | 7 | 9 => i == 0
  | 8 => decide (i < 11)
  | 10 => decide (i < 6)
  | _ => false

/-- The instance is absent in the variant (R650). -/
def Dev.diagAbsent (d : Dev) (c i : Nat) : Bool :=
  match c with
  | 1 => decide (i < 15) && d.absent (arrayPlace i (arrayBase i))
  | 2 => decide (d.part.rods ≤ i)
  | 3 => !(d.part.hasCore i)
  | 4 => !(d.hasIsl (i / 8))
  | 10 => !(d.hasIsl i)
  | _ => false

/-- The block of DIAG_RDREG and DIAG_WRREG that holds address `a`: ECC 6, ARB 7, SGN 8, PWR 12. -/
def diagBlock (a : Nat) : Option Nat :=
  if 0x48600000 ≤ a ∧ a < 0x48900000 then some (a % 0x1000000 / 0x100000)
  else if 0x48C00000 ≤ a ∧ a < 0x48D00000 then some 12
  else none

/-- Registers lie at `n` words from `a` on. -/
def regsAt (a : Nat) : Nat → Bool
  | 0 => true
  | n + 1 => (findReg a).isSome && regsAt (a + 4) n

/-- The bits of a register that some write changes. -/
def writableBits (x : Nat) : Nat :=
  regMask x .RW ||| regMask x .RWS ||| regMask x .RWL ||| regMask x .W1C ||| regMask x .WO

/-- The register refuses the write (R507, R15). -/
def Dev.regRefuses (d : Dev) (x mask val : Nat) : Bool :=
  let w : RegWr := ⟨x, mask, val, d.beam, false⟩
  if 0x48700000 ≤ x ∧ x < 0x48700040 then
    decide (64 < d.creditSum ((x - 0x48700000) / 4) (fget ARB_CREDIT_CREDIT (w.merged (d.r x))))
  else d.lockBits w != 0

/-- OPEN of DIAG_DEBUG (R576). -/
def Dev.debugOpened (d : Dev) (sess cores : Nat) : Dev :=
  let d := d.each (List.range 8) fun d c => if nbit cores c then d.wf (CORE_CTL c) CORE_CTL_DBG_EN 1 else d
  let d := d.each (List.range 6) fun d n =>
    if nbit cores n then { d with grants := tabSet 0 d.grants n (tabGet 0 d.grants n ||| 2048) } else d
  { d with chozer := { d.chozer with debug := true, debugSess := sess } }

/-! ### Meanings -/

/-- DIAG_UNIT (R650): the counts of a unit. -/
def execDiagUnit (s : State) : Host.Outcome State Fault Refusal :=
  s.done fun d => d.choz 0x700 (lenIs 4) fun d rq =>
    let c := rqw rq 1 / 256
    let i := rqw rq 1 % 256
    if !(diagKnown c i) then ans d stBADARG
    else if d.diagAbsent c i then ans d stABSENT
    else
      let t := d.dget (dkK c i)
      ans d stOK [wordOf (d.dget (dkT c i)), wordOf (d.dget (dkL c i)), wordOf t, wordOf (t / 4294967296)]

/-- DIAG_RDREG: registers of one block. -/
def execDiagRdreg (s : State) : Host.Outcome State Fault Refusal :=
  s.done fun d => d.choz 0x701 (lenIs 8) fun d rq =>
    let a := rqw rq 1
    let n := rqw rq 2
    if decide (a % 4 ≠ 0 ∨ n < 1 ∨ 14 < n) || (diagBlock a).isNone then ans d stBADARG
    else if diagBlock a != diagBlock (a + 4 * (n - 1)) then ans d stDENIED
    else if !(regsAt a n) then ans d stBADARG
    else ans d stOK (wordOf a :: (List.range n).map fun k => (d.regRead 8 (a + 4 * k)).2)

/-- DIAG_WRREG (R575): the bits of MASK of one register, written by core 8. -/
def execDiagWrreg (s : State) : Host.Outcome State Fault Refusal :=
  s.done fun d => d.choz 0x702 (lenIs 12) fun d rq =>
    let a := rqw rq 1
    let v := rqw rq 2
    let m := rqw rq 3
    if decide (a % 4 ≠ 0) || (diagBlock a).isNone || !(regsAt a 1) then ans d stBADARG
    else if diagBlock a = some 12 then ans d stDENIED
    else if m &&& writableBits a ≠ m then ans d stBADARG
    else if d.regRefuses a m v then ans (d.regDirect 8 a m v).1 stBADARG
    else
      match d.regDirect 8 a m v with
      | (d, .none) => ans d stOK [d.regView a]
      | (d, _) => ans d stBADARG

/-- DIAG_DEBUG (R576): a session over the debug port opens or closes the port's access. -/
def execDiagDebug (s : State) : Host.Outcome State Fault Refusal :=
  s.done fun d => d.choz 0x703 (lenIs 4) fun d rq =>
    let v := rqw rq 1
    if !(onlyBits v 0x100FF) then ans d stBADARG
    else if (List.range 8).any fun c => nbit v c && !(d.part.hasCore c) then ans d stABSENT
    else if (d.sess (rq.origin - 16)).link ≠ 10 then ans d stDENIED
    else if nbit v 16 then ans (d.debugOpened (rq.origin - 16) (v % 256)) stOK
    else ans d.debugClose stOK

end Sys2Proof.Machine
end

