-- ==== Sys2Proof/Machine/Dma.lean ====
section
/-! DEFINITION. Services of the DMA engines: triggers, descriptors, beats, halts (spec/16_dma.md R513-R526). -/

namespace Sys2Proof.Machine
open Sys2Proof

/-! ### Fields of the control word of a descriptor (R515) -/

def dwEvt (c : Nat) : Bool := nbit c 28
def dwLast (c : Nat) : Bool := nbit c 27
def dwDinc (c : Nat) : Bool := nbit c 25
def dwSinc (c : Nat) : Bool := nbit c 24
def dwSize (c : Nat) : Nat := 2 ^ nfield c 22 2
def dwBurst (c : Nat) : Nat := nfield c 16 6 + 1
def dwCount (c : Nat) : Nat := c % 65536 + 1

/-! ### Triggers (R517, R518, R520) -/

/-- Engine `e` has power (R526). -/
def Dev.dmaPowered (d : Dev) (e : Nat) : Bool := d.powered (4 + e)

/-- Request line `l` is asserted (R520; spec/09_bead_engines.md BEAD_QLVL). -/
def Dev.dmaLine (d : Dev) (l : Nat) : Bool :=
  let n := l / 16
  let e := l / 2 % 8
  if 96 ≤ l ∨ ¬ d.hasIsl n then false
  else if l % 2 = 0 then
    decide (max 1 (d.f (BEAD_QLVL n e) BEAD_QLVL_TX_THR) ≤ d.txCap n e - (d.bead n e).tx.length)
  else decide (max 1 (d.f (BEAD_QLVL n e) BEAD_QLVL_RX_THR) ≤ (d.bead n e).rx.length)

/-! ### Services (R519, R523) -/

/-- Channel `c` halts by a bus error at `a`, met in direction `dir`: 0 read, 1 write, 2 descriptor (R523). -/
def Dev.dmaHalt (d : Dev) (e c a dir : Nat) (err : BErr) : Dev :=
  let d := (d.w (DMA_ERR_ADDR e c) (wordOf a)).wf (DMA_ERR_DIR e c) DMA_ERR_DIR_DIR dir
  let d := (d.wf (DMA_ERR_DIR e c) DMA_ERR_DIR_BERR (berrCode err)).wf (DMA_CH_CTL e c) DMA_CH_CTL_ARM 0
  let d := (d.set1 (DMA_CH_STATUS e c) DMA_CH_STATUS_ERR).raise (0x70 + e) (c + 256 * berrCode err)
  d.dmaServiceEnd e c

/-- A word of the descriptor at `a`, read at level S by the engine. -/
def Dev.dmaWord (d : Dev) (e a : Nat) (ue : Bool) : Dev × Nat × BErr :=
  match d.busRead (9 + e) a 4 with
  | (d, v, .none) => (d, v, if ue then .ue else .none)
  | r => r

/-- The words of a descriptor from word `i` on, `n` of them, or the first that ends with a bus error (R519). -/
def Dev.dmaWords (d : Dev) (e a : Nat) (ue : Option (Fin 4)) : Nat → Nat → Dev × Except (Nat × BErr) (List Nat)
  | _, 0 => (d, .ok [])
  | i, n + 1 =>
    match d.dmaWord e (a + 4 * i) (ue.any fun k => k.val == i) with
    | (d, v, .none) =>
      match d.dmaWords e a ue (i + 1) n with
      | (d, .ok vs) => (d, .ok (v :: vs))
      | r => r
    | (d, _, x) => (d, .error (a + 4 * i, x))

/-- The descriptor at DMA_CH_CUR is loaded in full (R519). -/
def Dev.dmaLoad (d : Dev) (e c : Nat) (ue : Option (Fin 4)) : Dev :=
  match d.dmaWords e (16 * d.f (DMA_CH_CUR e c) DMA_CH_CUR_ADDR) ue 0 4 with
  | (d, .ok vs) =>
    let w (i : Nat) : Nat := (vs[i]?).getD 0
    let h := { d.dmach e c with loaded := true, src := w 0, dst := w 1, ctl := w 2, next := w 3 / 16,
                                burst := dwBurst (w 2) }
    (d.setDmach e c h).wf (DMA_CH_REM e c) DMA_CH_REM_REM (dwCount (w 2))
  | (d, .error (a, x)) => d.dmaHalt e c a 2 x

/-- A service of channel `c` begins (R519). -/
def Dev.dmaBegin (d : Dev) (e c : Nat) (ue : Option (Fin 4)) : Dev :=
  let d := (d.wf (DMA_CH_STATUS e c) DMA_CH_STATUS_PENDING 0).wf (DMA_CH_STATUS e c) DMA_CH_STATUS_ACTIVE 1
  let d := (d.setDmach e c { d.dmach e c with cfg := d.r (DMA_CH_CFG e c) }).dmaServe e (some c)
  if (d.dmach e c).loaded then d.setDmach e c { d.dmach e c with burst := dwBurst (d.dmach e c).ctl }
  else d.dmaLoad e c ue

/-- The lowest-numbered pending channel. -/
def Dev.dmaLowest (d : Dev) (e : Nat) : Option Nat := (List.range 16).find? fun c => d.dmaPending e c

/-! ### Beats (R516) -/

/-- The place keeps its bytes in an array with ECC. -/
def eccPlace (x : Nat) : Bool :=
  match placeOf x with
  | .mem | .trace _ | .ledger => true
  | _ => false

/-- The read of a beat. -/
def Dev.dmaRead (d : Dev) (q a size : Nat) (ue : Bool) : Dev × Nat × BErr :=
  if a % size ≠ 0 then (d, 0, .decode)
  else
    match d.busRead q a size with
    | (d, v, .none) => (d, v, if ue && eccPlace (d.xaddr q a) then .ue else .none)
    | r => r

/-- The write of a beat; the read of a read-modify-write may end with UE (spec/15_memory_ecc_arbitration.md R496). -/
def Dev.dmaWrite (d : Dev) (q a size v : Nat) (ue : Bool) : Dev × BErr :=
  if a % size ≠ 0 then (d, .decode)
  else if d.accessErr q a size true = .none && ue && decide (size < 8) && eccPlace (d.xaddr q a) then (d, .ue)
  else d.busWrite q a size v

/-- The beat is done: the addresses advance, the counts fall; a LINE service ends with its burst (R515, R517). -/
def Dev.dmaAdvance (d : Dev) (e c : Nat) : Dev :=
  let h := d.dmach e c
  let n := dwSize h.ctl
  let left := d.f (DMA_CH_REM e c) DMA_CH_REM_REM - 1
  let d := d.setDmach e c { h with
    src := if dwSinc h.ctl then (h.src + n) % 4294967296 else h.src
    dst := if dwDinc h.ctl then (h.dst + n) % 4294967296 else h.dst
    burst := h.burst - 1 }
  let d := d.wf (DMA_CH_REM e c) DMA_CH_REM_REM left
  if d.dmaTrig e c = 2 ∧ h.burst ≤ 1 ∧ left ≠ 0 then d.dmaServiceEnd e c else d

/-- One beat of channel `c`. -/
def Dev.dmaBeat (d : Dev) (e c : Nat) (ueRead ueWrite : Bool) : Dev :=
  let h := d.dmach e c
  let n := dwSize h.ctl
  if d.readWaits (9 + e) h.src n then d
  else
    match d.dmaRead (9 + e) h.src n ueRead with
    | (d, v, .none) =>
      match d.dmaWrite (9 + e) h.dst n v ueWrite with
      | (d, .none) => d.dmaAdvance e c
      | (d, x) => d.dmaHalt e c h.dst 1 x
    | (d, _, x) => d.dmaHalt e c h.src 0 x

/-- The descriptor of channel `c` ends (R519, R522). -/
def Dev.dmaDescEnd (d : Dev) (e c : Nat) (ue : Option (Fin 4)) : Dev :=
  let h := d.dmach e c
  let d := if dwEvt h.ctl then d.fire 7 (0x40 + 16 * e + c) else d
  let d := d.setDmach e c { h with loaded := false }
  if dwLast h.ctl then
    ((d.wf (DMA_CH_CTL e c) DMA_CH_CTL_ARM 0).set1 (DMA_CH_STATUS e c) DMA_CH_STATUS_DONE).dmaServiceEnd e c
  else
    let d := d.wf (DMA_CH_CUR e c) DMA_CH_CUR_ADDR h.next
    if d.dmaTrig e c = 2 then d.dmaServiceEnd e c else d.dmaLoad e c ue

/-- The channel that engine `e` serves, its descriptor loaded. -/
def Dev.dmaRunning (d : Dev) (e : Nat) : Option Nat :=
  (d.dmaServed e).filter fun c => d.dmaPowered e && (d.dmach e c).loaded

/-! ### Meanings -/

/-- DMA_EVENT_TRIGGER (R517): an action of spine input 0x10 + 16 e + c. -/
def execDmaEventTrigger (e : Fin 2) (c : Fin 16) (s : State) : Host.Outcome State Fault Refusal :=
  s.done fun d =>
    let d := (d.takeInput (spineKey (0x10 + 16 * e + c))).1
    if d.dmaPowered e && d.dmaTrig e c == 1 then d.dmaTrigger e c else d

/-- DMA_LINE_TRIGGER (R517, R520): an armed LINE channel finds its line asserted. -/
def execDmaLineTrigger (e : Fin 2) (c : Fin 16) (s : State) : Host.Outcome State Fault Refusal :=
  s.done fun d =>
    if d.dmaPowered e && d.dmaArmed e c && d.dmaTrig e c == 2 && !(d.dmaPending e c) && !(d.dmaActive e c) &&
      d.dmaLine (fget DMA_CH_CFG_LINE (d.dmach e c).cfg) then d.dmaTrigger e c
    else d

/-- DMA_SERVICE_START (R519): an engine with no service takes its lowest pending channel; `ue` names the descriptor word
whose read ends with UE. -/
def execDmaServiceStart (e : Fin 2) (ue : Option (Fin 4)) (s : State) : Host.Outcome State Fault Refusal :=
  s.done fun d =>
    match d.dmaServed e, d.dmaLowest e with
    | none, some c => if d.dmaPowered e then d.dmaBegin e c ue else d
    | _, _ => d

/-- DMA_BEAT (R516): a beat of the service; its read or the read of its read-modify-write may end with UE. -/
def execDmaBeat (e : Fin 2) (ueRead ueWrite : Bool) (s : State) : Host.Outcome State Fault Refusal :=
  s.done fun d =>
    match d.dmaRunning e with
    | some c => if d.f (DMA_CH_REM e c) DMA_CH_REM_REM = 0 then d else d.dmaBeat e c ueRead ueWrite
    | none => d

/-- DMA_DESCRIPTOR_END (R519): the beats of the descriptor are done. -/
def execDmaDescriptorEnd (e : Fin 2) (ue : Option (Fin 4)) (s : State) : Host.Outcome State Fault Refusal :=
  s.done fun d =>
    match d.dmaRunning e with
    | some c => if d.f (DMA_CH_REM e c) DMA_CH_REM_REM = 0 then d.dmaDescEnd e c ue else d
    | none => d

end Sys2Proof.Machine
end

