-- ==== Sys2Proof/Machine/Dispatch.lean ====
section
/-! DEFINITION. The meaning of every command: one arm per constructor, each a direct call of its meaning. -/

namespace Sys2Proof.Machine

def exec (i : Instr) (s : State) : Host.Outcome State Fault Refusal :=
  match i with
  | .lastGasp => Sys2Proof.Machine.execLastGasp s
  | .wakeEvent b => Sys2Proof.Machine.execWakeEvent b s
  | .dormantEntry => Sys2Proof.Machine.execDormantEntry s
  | .timerPeriodEnd n t => Sys2Proof.Machine.execTimerPeriodEnd n t s
  | .chainClassAction n t k => Sys2Proof.Machine.execChainClassAction n t k s
  | .timerEventInput n t m => Sys2Proof.Machine.execTimerEventInput n t m s
  | .shortEnd n t => Sys2Proof.Machine.execShortEnd n t s
  | .tlyGoRelease => Sys2Proof.Machine.execTlyGoRelease s
  | .pairBoundary n p => Sys2Proof.Machine.execPairBoundary n p s
  | .holdExpired n p => Sys2Proof.Machine.execHoldExpired n p s
  | .tripRecorded n p => Sys2Proof.Machine.execTripRecorded n p s
  | .blankLong n l => Sys2Proof.Machine.execBlankLong n l s
  | .groupTrigger n g => Sys2Proof.Machine.execGroupTrigger n g s
  | .calCycleStart n => Sys2Proof.Machine.execCalCycleStart n s
  | .comparatorRecorded n c => Sys2Proof.Machine.execComparatorRecorded n c s
  | .sinc3Result n j => Sys2Proof.Machine.execSinc3Result n j s
  | .frameCompletion n => Sys2Proof.Machine.execFrameCompletion n s
  | .rodNop r x => Sys2Proof.Machine.execRodNop r x s
  | .rodMov r x => Sys2Proof.Machine.execRodMov r x s
  | .rodLdi r x => Sys2Proof.Machine.execRodLdi r x s
  | .rodLdiu r x => Sys2Proof.Machine.execRodLdiu r x s
  | .rodLdc r x => Sys2Proof.Machine.execRodLdc r x s
  | .rodLdl r x => Sys2Proof.Machine.execRodLdl r x s
  | .rodMul r x => Sys2Proof.Machine.execRodMul r x s
  | .rodMac r x => Sys2Proof.Machine.execRodMac r x s
  | .rodMsu r x => Sys2Proof.Machine.execRodMsu r x s
  | .rodMulr r x => Sys2Proof.Machine.execRodMulr r x s
  | .rodMacr r x => Sys2Proof.Machine.execRodMacr r x s
  | .rodMsur r x => Sys2Proof.Machine.execRodMsur r x s
  | .rodAccl r x => Sys2Proof.Machine.execRodAccl r x s
  | .rodAcca r x => Sys2Proof.Machine.execRodAcca r x s
  | .rodSta r x => Sys2Proof.Machine.execRodSta r x s
  | .rodAdd r x => Sys2Proof.Machine.execRodAdd r x s
  | .rodSub r x => Sys2Proof.Machine.execRodSub r x s
  | .rodNeg r x => Sys2Proof.Machine.execRodNeg r x s
  | .rodAbs r x => Sys2Proof.Machine.execRodAbs r x s
  | .rodMin r x => Sys2Proof.Machine.execRodMin r x s
  | .rodMax r x => Sys2Proof.Machine.execRodMax r x s
  | .rodShr r x => Sys2Proof.Machine.execRodShr r x s
  | .rodShl r x => Sys2Proof.Machine.execRodShl r x s
  | .rodAnd r x => Sys2Proof.Machine.execRodAnd r x s
  | .rodOr r x => Sys2Proof.Machine.execRodOr r x s
  | .rodXor r x => Sys2Proof.Machine.execRodXor r x s
  | .rodClamp r x => Sys2Proof.Machine.execRodClamp r x s
  | .rodSincos r x => Sys2Proof.Machine.execRodSincos r x s
  | .rodAtan2 r x => Sys2Proof.Machine.execRodAtan2 r x s
  | .rodDiv r x => Sys2Proof.Machine.execRodDiv r x s
  | .rodSqrt r x => Sys2Proof.Machine.execRodSqrt r x s
  | .rodCmp r x => Sys2Proof.Machine.execRodCmp r x s
  | .rodTstb r x => Sys2Proof.Machine.execRodTstb r x s
  | .rodSel r x => Sys2Proof.Machine.execRodSel r x s
  | .rodBr r x => Sys2Proof.Machine.execRodBr r x s
  | .rodEnd r x => Sys2Proof.Machine.execRodEnd r x s
  | .rodOut r x => Sys2Proof.Machine.execRodOut r x s
  | .rodPub r x => Sys2Proof.Machine.execRodPub r x s
  | .traceTriggerInput n => Sys2Proof.Machine.execTraceTriggerInput n s
  | .snap n k => Sys2Proof.Machine.execSnap n k s
  | .snapEntriesRecorded n k => Sys2Proof.Machine.execSnapEntriesRecorded n k s
  | .serialWord n k w tick => Sys2Proof.Machine.execSerialWord n k w tick s
  | .beadStartEvent n e => Sys2Proof.Machine.execBeadStartEvent n e s
  | .beadStop n e => Sys2Proof.Machine.execBeadStop n e s
  | .winEvent n e => Sys2Proof.Machine.execWinEvent n e s
  | .idle n e pins dly => Sys2Proof.Machine.execIdle n e pins dly s
  | .shift n e pins dir ck cnt got => Sys2Proof.Machine.execShift n e pins dir ck cnt got s
  | .take n e pins block => Sys2Proof.Machine.execTake n e pins block s
  | .give n e pins block => Sys2Proof.Machine.execGive n e pins block s
  | .mark n e pins => Sys2Proof.Machine.execMark n e pins s
  | .wait n e pins src level seen => Sys2Proof.Machine.execWait n e pins src level seen s
  | .branch n e pins cond target p0 => Sys2Proof.Machine.execBranch n e pins cond target p0 s
  | .loadx n e pins v => Sys2Proof.Machine.execLoadx n e pins v s
  | .srClr n e pins => Sys2Proof.Machine.execSrClr n e pins s
  | .srX n e pins => Sys2Proof.Machine.execSrX n e pins s
  | .xSr n e pins => Sys2Proof.Machine.execXSr n e pins s
  | .srErr n e pins => Sys2Proof.Machine.execSrErr n e pins s
  | .srAnd n e pins => Sys2Proof.Machine.execSrAnd n e pins s
  | .crcClr n e pins => Sys2Proof.Machine.execCrcClr n e pins s
  | .crcOn n e pins => Sys2Proof.Machine.execCrcOn n e pins s
  | .crcOff n e pins => Sys2Proof.Machine.execCrcOff n e pins s
  | .srRev n e pins => Sys2Proof.Machine.execSrRev n e pins s
  | .signal n e pins irq evt => Sys2Proof.Machine.execSignal n e pins irq evt s
  | .stop n e pins => Sys2Proof.Machine.execStop n e pins s
  | .channelEvent ch late unseen => Sys2Proof.Machine.execChannelEvent ch late unseen s
  | .cellFilterOutput n k => Sys2Proof.Machine.execCellFilterOutput n k s
  | .routingCheck c => Sys2Proof.Machine.execRoutingCheck c s
  | .clopen c k => Sys2Proof.Machine.execClopen c k s
  | .clclose c k => Sys2Proof.Machine.execClclose c k s
  | .clabort c k => Sys2Proof.Machine.execClabort c k s
  | .clstat c k => Sys2Proof.Machine.execClstat c k s
  | .claspCloseRecorded c => Sys2Proof.Machine.execClaspCloseRecorded c s
  | .claspCommit c => Sys2Proof.Machine.execClaspCommit c s
  | .claspCommitInput c => Sys2Proof.Machine.execClaspCommitInput c s
  | .sl c k imm => Sys2Proof.Machine.execSl c k imm s
  | .sj c k off => Sys2Proof.Machine.execSj c k off s
  | .nop c k => Sys2Proof.Machine.execNop c k s
  | .dup c k => Sys2Proof.Machine.execDup c k s
  | .drop c k => Sys2Proof.Machine.execDrop c k s
  | .swap c k => Sys2Proof.Machine.execSwap c k s
  | .over c k => Sys2Proof.Machine.execOver c k s
  | .rot c k => Sys2Proof.Machine.execRot c k s
  | .nip c k => Sys2Proof.Machine.execNip c k s
  | .pick c k n => Sys2Proof.Machine.execPick c k n s
  | .tor c k => Sys2Proof.Machine.execTor c k s
  | .fromr c k => Sys2Proof.Machine.execFromr c k s
  | .rfetch c k => Sys2Proof.Machine.execRfetch c k s
  | .rdrop c k => Sys2Proof.Machine.execRdrop c k s
  | .pset c k => Sys2Proof.Machine.execPset c k s
  | .pclr c k => Sys2Proof.Machine.execPclr c k s
  | .pnot c k => Sys2Proof.Machine.execPnot c k s
  | .pget c k => Sys2Proof.Machine.execPget c k s
  | .pput c k => Sys2Proof.Machine.execPput c k s
  | .fget c k => Sys2Proof.Machine.execFget c k s
  | .fput c k => Sys2Proof.Machine.execFput c k s
  | .add c k res => Sys2Proof.Machine.execAdd c k res s
  | .sub c k res => Sys2Proof.Machine.execSub c k res s
  | .adc c k res => Sys2Proof.Machine.execAdc c k res s
  | .sbc c k res => Sys2Proof.Machine.execSbc c k res s
  | .and c k => Sys2Proof.Machine.execAnd c k s
  | .or c k => Sys2Proof.Machine.execOr c k s
  | .xor c k => Sys2Proof.Machine.execXor c k s
  | .not c k => Sys2Proof.Machine.execNot c k s
  | .neg c k res => Sys2Proof.Machine.execNeg c k res s
  | .abs c k => Sys2Proof.Machine.execAbs c k s
  | .min c k => Sys2Proof.Machine.execMin c k s
  | .max c k => Sys2Proof.Machine.execMax c k s
  | .shl c k cnt => Sys2Proof.Machine.execShl c k cnt s
  | .shr c k cnt => Sys2Proof.Machine.execShr c k cnt s
  | .asr c k cnt => Sys2Proof.Machine.execAsr c k cnt s
  | .ror c k cnt => Sys2Proof.Machine.execRor c k cnt s
  | .mul c k res => Sys2Proof.Machine.execMul c k res s
  | .mulh c k res => Sys2Proof.Machine.execMulh c k res s
  | .mulhu c k res => Sys2Proof.Machine.execMulhu c k res s
  | .mulq c k res form sh => Sys2Proof.Machine.execMulq c k res form sh s
  | .div c k res => Sys2Proof.Machine.execDiv c k res s
  | .divu c k res => Sys2Proof.Machine.execDivu c k res s
  | .rem c k res => Sys2Proof.Machine.execRem c k res s
  | .remu c k res => Sys2Proof.Machine.execRemu c k res s
  | .cmp c k res cc => Sys2Proof.Machine.execCmp c k res cc s
  | .cmpi c k res cc imm => Sys2Proof.Machine.execCmpi c k res cc imm s
  | .btst c k form bit => Sys2Proof.Machine.execBtst c k form bit s
  | .addq c k res n => Sys2Proof.Machine.execAddq c k res n s
  | .movw c k => Sys2Proof.Machine.execMovw c k s
  | .fillw c k => Sys2Proof.Machine.execFillw c k s
  | .sumw c k res => Sys2Proof.Machine.execSumw c k res s
  | .ldW c k disp => Sys2Proof.Machine.execLdW c k disp s
  | .ldH c k disp => Sys2Proof.Machine.execLdH c k disp s
  | .ldHu c k disp => Sys2Proof.Machine.execLdHu c k disp s
  | .ldB c k disp => Sys2Proof.Machine.execLdB c k disp s
  | .ldBu c k disp => Sys2Proof.Machine.execLdBu c k disp s
  | .stW c k disp => Sys2Proof.Machine.execStW c k disp s
  | .stH c k disp => Sys2Proof.Machine.execStH c k disp s
  | .stB c k disp => Sys2Proof.Machine.execStB c k disp s
  | .ldaW c k addr => Sys2Proof.Machine.execLdaW c k addr s
  | .staW c k addr => Sys2Proof.Machine.execStaW c k addr s
  | .litL c k imm => Sys2Proof.Machine.execLitL c k imm s
  | .ext c k imm => Sys2Proof.Machine.execExt c k imm s
  | .addi c k res imm => Sys2Proof.Machine.execAddi c k res imm s
  | .andi c k imm => Sys2Proof.Machine.execAndi c k imm s
  | .ori c k imm => Sys2Proof.Machine.execOri c k imm s
  | .jmpi c k => Sys2Proof.Machine.execJmpi c k s
  | .calli c k => Sys2Proof.Machine.execCalli c k s
  | .ret c k => Sys2Proof.Machine.execRet c k s
  | .br c k off => Sys2Proof.Machine.execBr c k off s
  | .call c k off => Sys2Proof.Machine.execCall c k off s
  | .rep c k n repeatable => Sys2Proof.Machine.execRep c k n repeatable s
  | .repi c k n repeatable => Sys2Proof.Machine.execRepi c k n repeatable s
  | .ifence c k => Sys2Proof.Machine.execIfence c k s
  | .dfence c k => Sys2Proof.Machine.execDfence c k s
  | .scall c k n => Sys2Proof.Machine.execScall c k n s
  | .sret c k => Sys2Proof.Machine.execSret c k s
  | .swb c k n => Sys2Proof.Machine.execSwb c k n s
  | .iret c k => Sys2Proof.Machine.execIret c k s
  | .wfi c k => Sys2Proof.Machine.execWfi c k s
  | .brk c k n => Sys2Proof.Machine.execBrk c k n s
  | .bld c k b => Sys2Proof.Machine.execBld c k b s
  | .bst c k b => Sys2Proof.Machine.execBst c k b s
  | .bset c k b => Sys2Proof.Machine.execBset c k b s
  | .bclr c k b => Sys2Proof.Machine.execBclr c k b s
  | .btgl c k b => Sys2Proof.Machine.execBtgl c k b s
  | .band c k b => Sys2Proof.Machine.execBand c k b s
  | .bor c k b => Sys2Proof.Machine.execBor c k b s
  | .bstp c k b => Sys2Proof.Machine.execBstp c k b s
  | .interruptEntry c => Sys2Proof.Machine.execInterruptEntry c s
  | .storeDrain c ue => Sys2Proof.Machine.execStoreDrain c ue s
  | .recordAppend => Sys2Proof.Machine.execRecordAppend s
  | .coalesceTimeExpiry c => Sys2Proof.Machine.execCoalesceTimeExpiry c s
  | .arbWindowStart => Sys2Proof.Machine.execArbWindowStart s
  | .scrubLate => Sys2Proof.Machine.execScrubLate s
  | .dmaEventTrigger e c => Sys2Proof.Machine.execDmaEventTrigger e c s
  | .dmaLineTrigger e c => Sys2Proof.Machine.execDmaLineTrigger e c s
  | .dmaServiceStart e ue => Sys2Proof.Machine.execDmaServiceStart e ue s
  | .dmaBeat e ueRead ueWrite => Sys2Proof.Machine.execDmaBeat e ueRead ueWrite s
  | .dmaDescriptorEnd e ue => Sys2Proof.Machine.execDmaDescriptorEnd e ue s
  | .ledgerCommitDone readBack => Sys2Proof.Machine.execLedgerCommitDone readBack s
  | .deferredClaspDue k => Sys2Proof.Machine.execDeferredClaspDue k s
  | .holdupRetry => Sys2Proof.Machine.execHoldupRetry s
  | .wearTokenGain => Sys2Proof.Machine.execWearTokenGain s
  | .ledgerWindowRead q a ue => Sys2Proof.Machine.execLedgerWindowRead q a ue s
  | .pwrDomain powerGood => Sys2Proof.Machine.execPwrDomain powerGood s
  | .ldgRead ue => Sys2Proof.Machine.execLdgRead ue s
  | .verifyComplete => Sys2Proof.Machine.execVerifyComplete s
  | .applyComplete readBackOk => Sys2Proof.Machine.execApplyComplete readBackOk s
  | .trialExpiry k => Sys2Proof.Machine.execTrialExpiry k s
  | .externalMessage m => Sys2Proof.Machine.execExternalMessage m s
  | .sessionIdleExpiry k => Sys2Proof.Machine.execSessionIdleExpiry k s
  | .watchdogExpiry => Sys2Proof.Machine.execWatchdogExpiry s
  | .diagCountCommit => Sys2Proof.Machine.execDiagCountCommit s
  | .governorStepDown => Sys2Proof.Machine.execGovernorStepDown s
  | .gateChange p => Sys2Proof.Machine.execGateChange p s
  | .addressAgeOut k => Sys2Proof.Machine.execAddressAgeOut k s
  | .syncTimeout => Sys2Proof.Machine.execSyncTimeout s
  | .helloSend p => Sys2Proof.Machine.execHelloSend p s
  | .helloReceived p ident hop => Sys2Proof.Machine.execHelloReceived p ident hop s
  | .partnerAgeCheck => Sys2Proof.Machine.execPartnerAgeCheck s
  | .canSegmentTimeout c => Sys2Proof.Machine.execCanSegmentTimeout c s
  | .zeroSpeedTimeout n k => Sys2Proof.Machine.execZeroSpeedTimeout n k s
  | .peerDelayInterval p => Sys2Proof.Machine.execPeerDelayInterval p s
  | .illegalInstruction c => Sys2Proof.Machine.execIllegalInstruction c s
  | .rodUnlistedOpcode r x => Sys2Proof.Machine.execRodUnlistedOpcode r x s
  | .beadUndefinedOpcode n e pins => Sys2Proof.Machine.execBeadUndefinedOpcode n e pins s
  | .resetRelease b => Sys2Proof.Machine.execResetRelease b s
  | .porstLow => Sys2Proof.Machine.execPorstLow s
  | .pllLock => Sys2Proof.Machine.execPllLock s
  | .supplyWarning k => Sys2Proof.Machine.execSupplyWarning k s
  | .supplyFault k => Sys2Proof.Machine.execSupplyFault k s
  | .supplyFaultClear k => Sys2Proof.Machine.execSupplyFaultClear k s
  | .supplyLossSignal => Sys2Proof.Machine.execSupplyLossSignal s
  | .wakePin b => Sys2Proof.Machine.execWakePin b s
  | .beamMismatch byOne stalledB => Sys2Proof.Machine.execBeamMismatch byOne stalledB s
  | .ringWindowEnd ticksA ticksB => Sys2Proof.Machine.execRingWindowEnd ticksA ticksB s
  | .beamStall copyB => Sys2Proof.Machine.execBeamStall copyB s
  | .pllLockLost => Sys2Proof.Machine.execPllLockLost s
  | .beamCountRead q => Sys2Proof.Machine.execBeamCountRead q s
  | .beamSwitchRead q => Sys2Proof.Machine.execBeamSwitchRead q s
  | .trainTimeRead q => Sys2Proof.Machine.execTrainTimeRead q s
  | .ttOffsetLoWrite q v => Sys2Proof.Machine.execTtOffsetLoWrite q v s
  | .ttOffsetHiWrite q v => Sys2Proof.Machine.execTtOffsetHiWrite q v s
  | .timerStart q n t => Sys2Proof.Machine.execTimerStart q n t s
  | .timerStop q n t => Sys2Proof.Machine.execTimerStop q n t s
  | .timerMatch n t k => Sys2Proof.Machine.execTimerMatch n t k s
  | .reloadImmediate q n t v => Sys2Proof.Machine.execReloadImmediate q n t v s
  | .linkedPairRead q n j => Sys2Proof.Machine.execLinkedPairRead q n j s
  | .tlyGoStart q atTick => Sys2Proof.Machine.execTlyGoStart q atTick s
  | .tlyGoStop q atTick => Sys2Proof.Machine.execTlyGoStop q atTick s
  | .tlyGoResetStart q atTick => Sys2Proof.Machine.execTlyGoResetStart q atTick s
  | .pairStart q n p => Sys2Proof.Machine.execPairStart q n p s
  | .pairStop q n p => Sys2Proof.Machine.execPairStop q n p s
  | .referenceEdge n p e => Sys2Proof.Machine.execReferenceEdge n p e s
  | .deadTimeEnd n p outB => Sys2Proof.Machine.execDeadTimeEnd n p outB s
  | .pwmTrigger n p k => Sys2Proof.Machine.execPwmTrigger n p k s
  | .pwmGroupWrite q n p reg v => Sys2Proof.Machine.execPwmGroupWrite q n p reg v s
  | .tripLineActive n l => Sys2Proof.Machine.execTripLineActive n l s
  | .tripLineInactive n l => Sys2Proof.Machine.execTripLineInactive n l s
  | .tripClear q n mask => Sys2Proof.Machine.execTripClear q n mask s
  | .tripTsRead q n p => Sys2Proof.Machine.execTripTsRead q n p s
  | .achModeDirectWrite q n c v => Sys2Proof.Machine.execAchModeDirectWrite q n c v s
  | .settlingEnd n c beyond => Sys2Proof.Machine.execSettlingEnd n c beyond s
  | .softwareTrigger q n mask => Sys2Proof.Machine.execSoftwareTrigger q n mask s
  | .conversionResult n c raw => Sys2Proof.Machine.execConversionResult n c raw s
  | .plausRetry n m rawEven rawOdd => Sys2Proof.Machine.execPlausRetry n m rawEven rawOdd s
  | .bankEntryRead q n e frameView => Sys2Proof.Machine.execBankEntryRead q n e frameView s
  | .calStep n c raw => Sys2Proof.Machine.execCalStep n c raw s
  | .comparatorCrossing n c asserted => Sys2Proof.Machine.execComparatorCrossing n c asserted s
  | .overCurrentConfirmed n j => Sys2Proof.Machine.execOverCurrentConfirmed n j s
  | .stuckDetected n j => Sys2Proof.Machine.execStuckDetected n j s
  | .stuckClear n j => Sys2Proof.Machine.execStuckClear n j s
  | .grpAssignWrite q g v => Sys2Proof.Machine.execGrpAssignWrite q g v s
  | .rodPresetWrite q r k v => Sys2Proof.Machine.execRodPresetWrite q r k v s
  | .outmapWrite q n k v => Sys2Proof.Machine.execOutmapWrite q n k v s
  | .traceArm q n => Sys2Proof.Machine.execTraceArm q n s
  | .traceDisarm q n => Sys2Proof.Machine.execTraceDisarm q n s
  | .traceForce q n => Sys2Proof.Machine.execTraceForce q n s
  | .acceptedEdge n k levels => Sys2Proof.Machine.execAcceptedEdge n k levels s
  | .fbkPosRead q n k => Sys2Proof.Machine.execFbkPosRead q n k s
  | .idxArm q n k => Sys2Proof.Machine.execIdxArm q n k s
  | .beadRunStart q n e => Sys2Proof.Machine.execBeadRunStart q n e s
  | .beadStopRequest q n e => Sys2Proof.Machine.execBeadStopRequest q n e s
  | .restart q n e => Sys2Proof.Machine.execRestart q n e s
  | .txflush q n e => Sys2Proof.Machine.execTxflush q n e s
  | .rxflush q n e => Sys2Proof.Machine.execRxflush q n e s
  | .txqWrite q n e v => Sys2Proof.Machine.execTxqWrite q n e v s
  | .rxqRead q n e => Sys2Proof.Machine.execRxqRead q n e s
  | .flgFire q ch => Sys2Proof.Machine.execFlgFire q ch s
  | .routeDirectWrite q a v => Sys2Proof.Machine.execRouteDirectWrite q a v s
  | .rootFault => Sys2Proof.Machine.execRootFault s
  | .haltReq c => Sys2Proof.Machine.execHaltReq c s
  | .resume c => Sys2Proof.Machine.execResume c s
  | .step c => Sys2Proof.Machine.execStep c s
  | .dcinv c => Sys2Proof.Machine.execDcinv c s
  | .icinv c => Sys2Proof.Machine.execIcinv c s
  | .pndDoorbell q payload src => Sys2Proof.Machine.execPndDoorbell q payload src s
  | .pndClaim c damaged => Sys2Proof.Machine.execPndClaim c damaged s
  | .pndEoi c => Sys2Proof.Machine.execPndEoi c s
  | .ringEnable q c => Sys2Proof.Machine.execRingEnable q c s
  | .ringDisable q c => Sys2Proof.Machine.execRingDisable q c s
  | .arrayAccess waiting a => Sys2Proof.Machine.execArrayAccess waiting a s
  | .arbCreditWrite q r v => Sys2Proof.Machine.execArbCreditWrite q r v s
  | .scrubRead first second => Sys2Proof.Machine.execScrubRead first second s
  | .dmaArm q e c => Sys2Proof.Machine.execDmaArm q e c s
  | .dmaDisarm q e c => Sys2Proof.Machine.execDmaDisarm q e c s
  | .dmaGo q e c => Sys2Proof.Machine.execDmaGo q e c s
  | .dmaErrClear q e c => Sys2Proof.Machine.execDmaErrClear q e c s
  | .recordRefresh r => Sys2Proof.Machine.execRecordRefresh r s
  | .capacitanceTestStart v => Sys2Proof.Machine.execCapacitanceTestStart v s
  | .capacitanceTestEnd v dt timeout => Sys2Proof.Machine.execCapacitanceTestEnd v dt timeout s
  | .capacitanceTestRepeat v => Sys2Proof.Machine.execCapacitanceTestRepeat v s
  | .hupTestGo q => Sys2Proof.Machine.execHupTestGo q s
  | .mailboxPost q m hdr => Sys2Proof.Machine.execMailboxPost q m hdr s
  | .sysCaps => Sys2Proof.Machine.execSysCaps s
  | .sysInfo => Sys2Proof.Machine.execSysInfo s
  | .sysMode => Sys2Proof.Machine.execSysMode s
  | .sysGrant => Sys2Proof.Machine.execSysGrant s
  | .sysMbx => Sys2Proof.Machine.execSysMbx s
  | .sysCoreReset => Sys2Proof.Machine.execSysCoreReset s
  | .pwrStatus => Sys2Proof.Machine.execPwrStatus s
  | .pwrGov => Sys2Proof.Machine.execPwrGov s
  | .pwrDormant => Sys2Proof.Machine.execPwrDormant s
  | .ldgOpen => Sys2Proof.Machine.execLdgOpen s
  | .ldgType => Sys2Proof.Machine.execLdgType s
  | .ldgWrite => Sys2Proof.Machine.execLdgWrite s
  | .ldgCommit => Sys2Proof.Machine.execLdgCommit s
  | .ldgAbort => Sys2Proof.Machine.execLdgAbort s
  | .ldgLg => Sys2Proof.Machine.execLdgLg s
  | .ldgLgupd => Sys2Proof.Machine.execLdgLgupd s
  | .ldgStat => Sys2Proof.Machine.execLdgStat s
  | .sesChallenge => Sys2Proof.Machine.execSesChallenge s
  | .sesKey => Sys2Proof.Machine.execSesKey s
  | .sesPass => Sys2Proof.Machine.execSesPass s
  | .sesEnd => Sys2Proof.Machine.execSesEnd s
  | .sesProvision => Sys2Proof.Machine.execSesProvision s
  | .chnPartners => Sys2Proof.Machine.execChnPartners s
  | .chnCfg => Sys2Proof.Machine.execChnCfg s
  | .chnSwitch => Sys2Proof.Machine.execChnSwitch s
  | .chnTime => Sys2Proof.Machine.execChnTime s
  | .updBegin => Sys2Proof.Machine.execUpdBegin s
  | .updData => Sys2Proof.Machine.execUpdData s
  | .updSign => Sys2Proof.Machine.execUpdSign s
  | .updVerify => Sys2Proof.Machine.execUpdVerify s
  | .updApply => Sys2Proof.Machine.execUpdApply s
  | .updConfirm => Sys2Proof.Machine.execUpdConfirm s
  | .updStatus => Sys2Proof.Machine.execUpdStatus s
  | .updAbort => Sys2Proof.Machine.execUpdAbort s
  | .diagUnit => Sys2Proof.Machine.execDiagUnit s
  | .diagRdreg => Sys2Proof.Machine.execDiagRdreg s
  | .diagWrreg => Sys2Proof.Machine.execDiagWrreg s
  | .diagDebug => Sys2Proof.Machine.execDiagDebug s
  | .watchdogKick q => Sys2Proof.Machine.execWatchdogKick q s
  | .voutSettleExpiry acked pecOk reading => Sys2Proof.Machine.execVoutSettleExpiry acked pecOk reading s
  | .txKick q p r => Sys2Proof.Machine.execTxKick q p r s
  | .frameTransmitted p r => Sys2Proof.Machine.execFrameTransmitted p r s
  | .frameReceived p f => Sys2Proof.Machine.execFrameReceived p f s
  | .gclApply q p => Sys2Proof.Machine.execGclApply q p s
  | .linkChange p up => Sys2Proof.Machine.execLinkChange p up s
  | .syncReceived p gm offset => Sys2Proof.Machine.execSyncReceived p gm offset s
  | .canTxreq q c mask => Sys2Proof.Machine.execCanTxreq q c mask s
  | .canTxabort q c mask => Sys2Proof.Machine.execCanTxabort q c mask s
  | .canRxpop q c => Sys2Proof.Machine.execCanRxpop q c s
  | .canFrameReceived c f => Sys2Proof.Machine.execCanFrameReceived c f s
  | .canFrameTransmitted c b => Sys2Proof.Machine.execCanFrameTransmitted c b s
  | .canBusError c lostArb tx b tec rxc => Sys2Proof.Machine.execCanBusError c lostArb tx b tec rxc s
  | .busOffRecovery c => Sys2Proof.Machine.execBusOffRecovery c s
  | .canInitWrite q c v => Sys2Proof.Machine.execCanInitWrite q c v s
  | .registerWrite q a size v => Sys2Proof.Machine.execRegisterWrite q a size v s
  | .sigmaDeltaCapture n j bit => Sys2Proof.Machine.execSigmaDeltaCapture n j bit s
  | .feedbackInputChange n k pin level => Sys2Proof.Machine.execFeedbackInputChange n k pin level s
  | .hupSenseSample v => Sys2Proof.Machine.execHupSenseSample v s
  | .canSynced c => Sys2Proof.Machine.execCanSynced c s

end Sys2Proof.Machine
end

