-- ==== Sys2Proof/Machine/RodCode.lean ====
section
/-! DEFINITION. The encoding of microinstructions, and what the rods of a running frame execute next from the law store
(spec/06_abacus_rods.md R229-R233). -/

namespace Sys2Proof.Machine
open Sys2Proof

/-- The fields of the microinstruction `w`, as one 64-bit number (R229); `res` and `ue` are what the rod finds out. -/
def rodFields (w : Nat) (res : Fin 3) (ue : Bool) : RodX :=
  { dst := BitVec.ofNat 8 (nfield w 50 8), a := BitVec.ofNat 8 (nfield w 42 8), b := BitVec.ofNat 8 (nfield w 34 8),
    cidx := BitVec.ofNat 10 (nfield w 24 10), acc := nbit w 23, cond := BitVec.ofNat 3 (nfield w 20 3),
    imm := BitVec.ofNat 16 (nfield w 0 16), res := res, ue := ue }

/-- The microinstruction of rod `r` that opcode `op` names (R230, R231). -/
def rodOpcode (r : Rod) (x : RodX) : Nat → Instr
  | 0x00 => .rodNop r x
  | 0x01 => .rodMov r x
  | 0x02 => .rodLdi r x
  | 0x03 => .rodLdiu r x
  | 0x04 => .rodLdc r x
  | 0x05 => .rodLdl r x
  | 0x08 => .rodMul r x
  | 0x09 => .rodMac r x
  | 0x0A => .rodMsu r x
  | 0x0B => .rodMulr r x
  | 0x0C => .rodMacr r x
  | 0x0D => .rodMsur r x
  | 0x0E => .rodAccl r x
  | 0x0F => .rodAcca r x
  | 0x10 => .rodSta r x
  | 0x14 => .rodAdd r x
  | 0x15 => .rodSub r x
  | 0x16 => .rodNeg r x
  | 0x17 => .rodAbs r x
  | 0x18 => .rodMin r x
  | 0x19 => .rodMax r x
  | 0x1A => .rodShr r x
  | 0x1B => .rodShl r x
  | 0x1C => .rodAnd r x
  | 0x1D => .rodOr r x
  | 0x1E => .rodXor r x
  | 0x1F => .rodClamp r x
  | 0x20 => .rodSincos r x
  | 0x21 => .rodAtan2 r x
  | 0x22 => .rodDiv r x
  | 0x23 => .rodSqrt r x
  | 0x28 => .rodCmp r x
  | 0x29 => .rodTstb r x
  | 0x2A => .rodSel r x
  | 0x30 => .rodBr r x
  | 0x31 => .rodEnd r x
  | 0x38 => .rodOut r x
  | 0x39 => .rodPub r x
  | _ => .rodUnlistedOpcode r x

/-- The microinstruction of rod `r` that the 64-bit number `w` spells. -/
def rodDecode (r : Rod) (w : Nat) (res : Fin 3 := 0) (ue : Bool := false) : Instr :=
  rodOpcode r (rodFields w res ue) (nfield w 58 6)

/-- Microinstruction `i` of the law store (R233). -/
def Dev.lawAt (d : Dev) (i : Nat) : Nat := (d.r (ABX_LAW (2 * i))).toNat + 4294967296 * (d.r (ABX_LAW (2 * i + 1))).toNat

/-- The fields SRCA and SRCB that an opcode reads (R230). -/
def rodReads (op : Nat) : Bool × Bool :=
  if op = 0x01 ∨ (0x08 ≤ op ∧ op ≤ 0x0A) ∨ op = 0x0E ∨ op = 0x0F ∨ op = 0x16 ∨ op = 0x17 ∨ op = 0x1A ∨ op = 0x1B ∨
      op = 0x1F ∨ op = 0x20 ∨ op = 0x23 ∨ op = 0x29 ∨ op = 0x38 ∨ op = 0x39 then (true, false)
  else if (0x0B ≤ op ∧ op ≤ 0x0D) ∨ op = 0x14 ∨ op = 0x15 ∨ op = 0x18 ∨ op = 0x19 ∨ (0x1C ≤ op ∧ op ≤ 0x1E) ∨
      op = 0x21 ∨ op = 0x22 ∨ op = 0x28 ∨ op = 0x2A then (true, true)
  else (false, false)

/-- Rod `r` of island `n` would wait at microinstruction `w` for an exchange word (R223). -/
def Dev.rodWaits (d : Dev) (n r w : Nat) : Bool :=
  let (ua, ub) := rodReads (nfield w 58 6)
  let x := rodFields w 0 false
  (match d.rodOps n r x ua ub with
    | (.bad, _) => false
    | (_, .bad) => false
    | (.wait, _) => true
    | (_, .wait) => true
    | _ => false)

/-- The next microinstruction of every rod of a frame that started on an earlier tick and does not wait: a rod fetches it
from the law store at its own address. -/
def Dev.rodsDue (d : Dev) : List Instr :=
  (List.finRange 64).filterMap fun (r : Rod) =>
    let n := d.rodIsl r
    let h := d.rod r
    if h.run && decide (n < 6) && decide ((d.frame n).startAt < d.beam) then
      let w := d.lawAt h.pc
      if d.inWindow n h.pc && d.rodWaits n r w then none else some (rodDecode r w)
    else none

end Sys2Proof.Machine
end

