-- ==== Sys2Proof/Machine/Tick.lean ====
section
/-! DEFINITION. What an idle step does: time passes (log entry 1). A tick takes five idle steps, counted by `stage`. Steps
that fall due on a tick are put into the queue as the commands they are, and the idle step goes on when the queue is
empty again.

Stage 0: what begins a tick. Stage 1: the timers advance. Stage 2: MASTER pairs reach their boundaries. Stage 3: the rods
of frames that started on an earlier tick run, one microinstruction of each at a time, until none can go on; then edges,
clocks, filters, events on their way, records. Stage 4: the next tick begins. -/

namespace Sys2Proof.Machine
open Sys2Proof

/-! ### Steps that wait for a tick -/

/-- The command is a commit of a clasp, with its core. -/
def commitOf : Instr → Option Core
  | .claspCommit c => some c
  | _ => none

/-- The waiting steps that have fallen due; clasp commits come last, in rising order of core number. -/
def dueNow (l : List Due) (t : Nat) : List Instr :=
  let now := (l.filter fun x => decide (x.tick ≤ t)).map fun x => x.cmd
  (now.filter fun c => (commitOf c).isNone) ++
    (List.finRange 9).filterMap fun (c : Core) => if now.contains (.claspCommit c) then some (.claspCommit c) else none

/-- The steps that fall due leave the agenda. -/
def Dev.dropDue (d : Dev) : Dev := { d with agenda := d.agenda.filter fun x => decide (d.beam < x.tick) }

/-! ### Requests to Chozer -/

/-- The command that serves a request with code `cmd` (spec/18_chozer_mailboxes.md, command table); what the model does not
decide (a regulator's power-good, a read's error) goes well. -/
def chozCommand : Nat → Option Instr
  | 0x100 => some .sysCaps
  | 0x101 => some .sysInfo
  | 0x102 => some .sysMode
  | 0x103 => some .sysGrant
  | 0x104 => some .sysMbx
  | 0x105 => some .sysCoreReset
  | 0x200 => some .pwrStatus
  | 0x201 => some (.pwrDomain true)
  | 0x202 => some .pwrGov
  | 0x203 => some .pwrDormant
  | 0x300 => some .ldgOpen
  | 0x301 => some .ldgType
  | 0x302 => some .ldgWrite
  | 0x303 => some .ldgCommit
  | 0x304 => some .ldgAbort
  | 0x305 => some .ldgLg
  | 0x306 => some .ldgLgupd
  | 0x307 => some (.ldgRead false)
  | 0x308 => some .ldgStat
  | 0x400 => some .sesChallenge
  | 0x401 => some .sesKey
  | 0x402 => some .sesPass
  | 0x403 => some .sesEnd
  | 0x404 => some .sesProvision
  | 0x500 => some .chnPartners
  | 0x501 => some .chnCfg
  | 0x502 => some .chnSwitch
  | 0x503 => some .chnTime
  | 0x600 => some .updBegin
  | 0x601 => some .updData
  | 0x602 => some .updSign
  | 0x603 => some .updVerify
  | 0x604 => some .updApply
  | 0x605 => some .updConfirm
  | 0x606 => some .updStatus
  | 0x607 => some .updAbort
  | 0x700 => some .diagUnit
  | 0x701 => some .diagRdreg
  | 0x702 => some .diagWrreg
  | 0x703 => some .diagDebug
  | _ => none

/-- The command that serves the front request, when Chozer can serve one (R560, R561). -/
def Dev.chozNext (d : Dev) : Option Instr :=
  match d.chozer.reqs with
  | rq :: _ => if d.chozUp && !d.committing then chozCommand (hdrCmd (rqw rq 0)) else none
  | [] => none

/-- What Chozer and the ledger engine do in the background: a commit ends when its longest time has passed, its slots read
back well (spec/17_signet_ledger.md R539); a verification or an application ends (spec/18_chozer_mailboxes.md R588,
R589). -/
def Dev.backgroundDue (d : Dev) : List Instr :=
  (match d.ledger.active with
    | some (c, _) => if d.ledger.since + 50000 + 12500 * d.slotWrites c ≤ d.beam then [.ledgerCommitDone []] else []
    | none => []) ++
  (if d.chozUp && (d.imgIn uVERIFYING).isSome then [.verifyComplete] else []) ++
  (if d.chozUp && (d.imgIn uAPPLYING).isSome then [.applyComplete true] else [])

/-! ### Stage 0 -/

/-- The beginning of a tick for the device. -/
def Dev.tickBegin (d : Dev) : Dev :=
  let d := d.shadowsNow.presetsNow
  let d := d.each (List.range 6) fun d n => d.softStart n
  d.each (List.finRange 9) fun d c => d.claspSee c

/-- Index of the first learned address that has aged out (spec/19_chain_and_can.md R598). -/
def Dev.agedAddress (d : Dev) : Option Nat :=
  d.net.macs.findIdx? fun e => decide (e.2.2 + max 1 (d.f CHN_SW_AGE CHN_SW_AGE_S) * secTicks ≤ d.beam)

/-- The commands that fall due as a tick begins: a window start (R503), a second's tokens (R548), a late scrub pass (R500), a
gate control instant (R594, R595), an aged address (R598), a request that Chozer serves (R560). -/
def Dev.beginDue (d : Dev) : List Instr :=
  (if d.beam % 128 = 0 then [.arbWindowStart] else []) ++
  (if d.beam % secTicks = 0 ∧ d.b SGN_STATUS SGN_STATUS_READY then [.wearTokenGain] else []) ++
  (if d.scrubLateNow && !(d.b ECC_SCRUB_STATUS ECC_SCRUB_STATUS_SCRUB_LATE) then [.scrubLate] else []) ++
  ((List.finRange 4).filter fun (p : Fin 4) => d.powered (9 + p.val) && d.gateDue p).map (fun p => .gateChange p) ++
  (match d.agedAddress with
    | some i => [.addressAgeOut i]
    | none => []) ++
  d.backgroundDue ++ d.chozNext.toList

/-! ### Stages 1 to 3 -/

/-- Every timer advances that falls due (spec/03_beam_and_tally.md R103). -/
def Dev.timersAdvance (d : Dev) : Dev :=
  d.each (List.finRange 6) fun d n => d.each (List.finRange 16) fun d t => d.timerAdvance n t

/-- The MASTER pairs whose boundary falls due (spec/04_pwm.md R131). -/
def Dev.mastersDue (d : Dev) : List Instr :=
  ((List.finRange 6).map fun (n : Isl) =>
    ((List.finRange 16).filter fun (p : Fin 16) => d.masterDue n p).map fun p => Instr.pairBoundary n p).flatten

/-- Edges and triggers of pairs, modulator clocks, filters that sample on every tick, cells. -/
def Dev.tickEdges (d : Dev) : Dev :=
  (d.each (List.finRange 6) fun d n =>
    let d := d.each (List.range 16) fun d p => d.pairEdges n p
    let d := d.each (List.range 2) fun d k => d.sdClkTick n k
    d.each (List.range 2) fun d k => if d.fbkEveryTick n k then d.fbkSample n k else d).cellsSettle

/-- Interfaces whose zero-speed time has passed (spec/08_feedback.md R295). -/
def Dev.zerosDue (d : Dev) : List Instr :=
  ((List.finRange 6).map fun (n : Isl) =>
    ((List.finRange 2).filter fun (k : Fin 2) =>
      d.fbkOn n k && decide (d.f (FBK_SPD n k) FBK_SPD_ZTO ≠ 0) && !(d.b (FBK_STATUS n k) FBK_STATUS_ZERO) &&
        d.zeroSpeed n k d.beam).map fun k => Instr.zeroSpeedTimeout n k).flatten

/-- The events in transit that reach their gate stage now, `age` ticks or more after their origin: which tick records each,
and how many changes of its gate it misses, are free values. -/
def Dev.eventsDue (d : Dev) (age : Nat) : List Instr :=
  (d.transit.filter fun t => decide (t.origin + age ≤ d.beam)).map fun t =>
    Instr.channelEvent (Fin.ofNat 1024 t.ch) (d.freeVal % 2 == 1) (Config.freeValue (d.free + 1))

/-- The first deferred clasp that may commit (spec/17_signet_ledger.md R546). -/
def Dev.deferredDue (d : Dev) : List Instr :=
  if d.engineFree && decide (d.ledger.retryAt ≤ d.beam) then
    match d.waitingClasps.findIdx? d.claspDue with
    | some i => [.deferredClaspDue i]
    | none => []
  else []

/-- The raised sources go to the Pendant, one append each (spec/14_pendant.md R473). -/
def Dev.recordsDue (d : Dev) : List Instr := d.raised.map fun _ => .recordAppend

/-- The commands that fall due at stage 3. -/
def Dev.edgesDue (d : Dev) : List Instr :=
  d.zerosDue ++ (if d.govDownDue then [.governorStepDown] else []) ++ d.eventsDue 8 ++ d.deferredDue ++ d.recordsDue

/-! ### Stage 4 -/

/-- The lines that drop, and the replies that the mailbox block gives for an expired manager (R483, R645). -/
def Dev.tickEnd (d : Dev) : Dev :=
  (d.each (List.range 9) fun d c =>
    if d.b (PND_CPU_STATUS c) PND_CPU_STATUS_LINE then d.lineDrop c else d).timeoutReplies

/-! ### The idle step -/

/-- The last gasp of a device whose supply is lost (R544, R627), or the entry to DORMANT (R635), when nothing else waits. -/
def Dev.powerDue (d : Dev) : Option Instr :=
  if d.power.losing && d.ledger.active.isNone then some .lastGasp
  else if d.power.dormReq && (d.mode == mSetup || d.mode == mSafe) then some .dormantEntry
  else none

/-- An idle step on a running Beam: the commands that fall due, and the device after it. -/
def Dev.tickStep (d : Dev) : List Instr × Dev :=
  match d.stage with
  | 0 =>
    let d := d.bootStep.tickBegin
    (d.beginDue, { d with stage := 1 })
  | 1 => ([], { d.timersAdvance with stage := 2 })
  | 2 => (d.mastersDue, { d with stage := 3 })
  | 3 =>
    match d.rodsDue with
    | [] =>
      let d := d.tickEdges
      (d.edgesDue, { d.freeNext.freeNext with stage := 4 })
    | l => (l, d)
  | _ => ([], { { d with beam := d.beam + 1, fresh := [] }.tickEnd with stage := 0 })

/-- An idle step after the loss of the Beam (R92): sets of trip latches are still recorded, events still arrive, records are
still appended (spec/04_pwm.md R155; spec/10_filigree.md R360). -/
def Dev.lostStep (d : Dev) : List Instr × Dev :=
  let trip (c : Instr) : Bool := match c with
    | .tripRecorded _ _ => true
    | _ => false
  let now := (d.agenda.filter fun x => trip x.cmd).map fun x => x.cmd
  let d := { d.cellsSettle.tickEnd with fresh := [], agenda := d.agenda.filter fun x => !(trip x.cmd) }
  (now ++ d.eventsDue 0 ++ d.recordsDue, d.freeNext.freeNext)

/-- What an idle step puts into the queue, and the device after it. -/
def Dev.idle (d : Dev) : List Instr × Dev :=
  match d.powerDue with
  | some c => ([c], d)
  | none =>
    if d.ticking then
      match dueNow d.agenda d.beam with
      | [] => d.tickStep
      | l => (l, d.dropDue)
    else if d.lost then d.lostStep
    else ([], d)

/-- The idle step of a block whose queue is empty. -/
def State.idle (s : State) : State := { pending := s.pending ++ s.hw.idle.1, hw := s.hw.idle.2.settle }

end Sys2Proof.Machine
end

