-- ==== Sys2Proof/Safety.lean ====
section
/-! DEFINITION. What counts as a safe run of the block, in the terms the claims use. -/

namespace Sys2Proof.Machine
open Sys2Proof

/-- What every step keeps: memory lies in canonical form, and the Beam count is a 64-bit count
(spec/03_beam_and_tally.md R85). -/
def State.Inv (s : State) : Prop := Memory.wf s.hw.mem = true ∧ s.hw.beam < 2 ^ 64

/-- A run is safe for `k` steps if every one of them answers a next state. -/
def State.safeFor : Nat → State → Prop
  | 0, _ => True
  | k + 1, s => ∃ t, step s = .next t ∧ t.safeFor k

end Sys2Proof.Machine
end

