-- ==== Sys2Proof/Claims.lean ====
section
/-! DEFINITION. The words the statements are written in: a command that completes, what it keeps, and per family what its
effect leaves. -/

namespace Sys2Proof.Machine
open Sys2Proof

/-- Command `i` completes from `s`: `exec` answers a next state with the queue as it was, and `P` holds of its block. -/
def State.Runs (s : State) (i : Instr) (P : Dev → Prop) : Prop :=
  ∃ t, exec i s = .next t ∧ t.pending = s.pending ∧ P t.hw

/-- Every register but those of `l` reads in `d'` as in `d`. -/
def Dev.Keeps (d : Dev) (l : List Nat) (d' : Dev) : Prop := ∀ a, a ∉ l → d'.r a = d.r a

/-- Beside the registers of `l`, set bits of this tick and bus answers, nothing differs between `d` and `d'`. -/
def Dev.Only (d : Dev) (l : List Nat) (d' : Dev) : Prop :=
  d.Keeps l d' ∧ { d' with regs := d.regs, fresh := d.fresh, bus := d.bus } = d

/-- Requester `q` got the answer `v` with bus error `e`. -/
def Dev.Answers (d : Dev) (q : Req) (v : Word) (e : BErr := .none) : Prop := tabGet {} d.bus q = ⟨v, e⟩

/-! ### Rods (spec/06_abacus_rods.md) -/

/-- Rod `r` executes microinstruction `x` without exception: it runs in a frame of its island, its address lies in the law
window, the fetch found a good word and the residue check agrees (R218, R234, R235, R244). -/
structure Dev.RodLive (d : Dev) (r : Rod) (x : RodX) : Prop where
  run : (d.rod r).run = true
  isl : d.rodIsl r < 6
  win : d.inWindow (d.rodIsl r) (d.rod r).pc = true
  ue  : x.ue = false
  res : x.res = 0

/-- Operand address `a` reads as the number `v` (R221, R222). -/
def Dev.RodIs (d : Dev) (r : Rod) (a : BitVec 8) (v : Int) : Prop :=
  ∃ w, d.rodRead (d.rodIsl r) r a.toNat = .val w ∧ sval w = v

/-- Operand address `a` takes a write: W and S words, an exchange word not yet written in this frame, the null address (R221,
R223). -/
def Dev.RodTakes (d : Dev) (r : Rod) (a : BitVec 8) : Prop :=
  a.toNat < 0x40 ∨ (a.toNat < 0x80 ∧ tabGet none (d.frame (d.rodIsl r)).x (a.toNat - 0x40) = none) ∨ a.toNat = 0xF0

/-- What a microinstruction with result `dst`, accumulator value `acc`, predicate `p` and next address `pc` leaves of rod `r`; `sat`
says that a value was limited (R218, R222, R227). -/
structure Dev.RodStep (d : Dev) (r : Rod) (x : RodX) (dst acc : Option Int) (p : Bool) (pc : Nat) (sat : Bool) (d' : Dev) : Prop where
  /-- The destination reads as the result; the null address reads as 0. -/
  dst_eq : ∀ v, dst = some v → d'.rodRead (d.rodIsl r) r x.dst.toNat = .val (if x.dst.toNat = 0xF0 then 0 else wordOfInt v)
  /-- Every other operand address reads as before. -/
  others : ∀ a, dst = none ∨ a ≠ x.dst.toNat → d'.rodRead (d.rodIsl r) r a = d.rodRead (d.rodIsl r) r a
  a0 : (d'.rod r).a0 = if x.acc then (d.rod r).a0 else acc.getD (d.rod r).a0
  a1 : (d'.rod r).a1 = if x.acc then acc.getD (d.rod r).a1 else (d.rod r).a1
  p_eq : (d'.rod r).p = p
  pc_eq : (d'.rod r).pc = pc
  run : (d'.rod r).run = true
  done : (d'.rod r).done = (d.rod r).done
  /-- Without a limit no register of the register map changes. -/
  exact : sat = false → d.Keeps [] d'
  /-- With one, SAT is set and one saturated frame counted, once in a frame. -/
  sat_status : sat = true → d'.r (ABX_ROD_STATUS r) = fput ABX_ROD_STATUS_SAT (d.r (ABX_ROD_STATUS r)) 1
  sat_count : sat = true → d'.f (ABX_ROD_CNT r) ABX_ROD_CNT_SAT_FRAMES =
    if (d.rod r).sat then d.f (ABX_ROD_CNT r) ABX_ROD_CNT_SAT_FRAMES
    else min (d.f (ABX_ROD_CNT r) ABX_ROD_CNT_SAT_FRAMES + 1) 65535
  regs : d.Keeps [ABX_ROD_STATUS r, ABX_ROD_CNT r] d'
  rods : ∀ q, q ≠ r.val → d'.rod q = d.rod q
  frames : ∀ m, m ≠ d.rodIsl r → d'.frame m = d.frame m
  frame : { d'.frame (d.rodIsl r) with x := (d.frame (d.rodIsl r)).x, ops := (d.frame (d.rodIsl r)).ops } = d.frame (d.rodIsl r)
  rest : { d' with regs := d.regs, fresh := d.fresh, rods := d.rods, frames := d.frames } = d

/-- `i` is a microinstruction of rod `r` that writes `y` to its destination, with SAT where `sat`, and goes on. -/
def State.RodGives (s : State) (r : Rod) (x : RodX) (i : Instr) (y : Int) (sat : Bool) : Prop :=
  s.Runs i (s.hw.RodStep r x (some y) none (s.hw.rod r).p ((s.hw.rod r).pc + 1) sat)

/-- The same with `y` limited to 32 bits, SAT where the limit changed it (R225, R227). -/
def State.RodGivesSat (s : State) (r : Rod) (x : RodX) (i : Instr) (y : Int) : Prop :=
  s.RodGives r x i (satInt 32 y) (decide (satInt 32 y ≠ y))

/-- `i` is a microinstruction of rod `r` that puts `y`, limited to 72 bits, in its accumulator, and goes on (R226, R227). -/
def State.RodAccum (s : State) (r : Rod) (x : RodX) (i : Instr) (y : Int) : Prop :=
  s.Runs i (s.hw.RodStep r x none (some (satInt 72 y)) (s.hw.rod r).p ((s.hw.rod r).pc + 1) (decide (satInt 72 y ≠ y)))

/-- `i` is a microinstruction of rod `r` that only sets P and the next address. -/
def State.RodFlow (s : State) (r : Rod) (x : RodX) (i : Instr) (p : Bool) (pc : Nat) : Prop :=
  s.Runs i (s.hw.RodStep r x none none p pc false)

/-- A COND of CMP on two numbers (R231). -/
def rodCond (c : Nat) (a b : Int) : Option Bool :=
  [decide (a = b), decide (a ≠ b), decide (a < b), decide (a ≤ b), decide (a > b), decide (a ≥ b)][c]?

/-- What a rod that stops on an error leaves: the status bit `f`, the address of the microinstruction in ERR_ADDR, the rod's source
raised with cause and address, the rod no longer running or active (R235, R236, R249). -/
structure Dev.RodStops (d : Dev) (r : Rod) (f : Fld) (cause : Nat) (d' : Dev) : Prop where
  status : d'.b (ABX_ROD_STATUS r) f = true
  addr   : d'.f (ABX_ROD_STATUS r) ABX_ROD_STATUS_ERR_ADDR = (d.rod r).pc % 16384
  idle   : d'.b (ABX_ROD_STATUS r) ABX_ROD_STATUS_ACTIVE = false
  rod    : d'.rod r = { d.rod r with run := false }
  raised : d'.raised = d.raised ++
    [⟨abxSrc (d.rodIsl r) (0x40 + r), (cause * 16384 + (d.rod r).pc) % 65536, d.beam, d.routeOf (abxSrc (d.rodIsl r) (0x40 + r))⟩]
  regs   : d.Keeps [ABX_ROD_STATUS r] d'
  rods   : ∀ q, q ≠ r.val → d'.rod q = d.rod q
  rest   : { d' with regs := d.regs, fresh := d.fresh, rods := d.rods, raised := d.raised } = d

/-! ### Cores (spec/12_instruction_set.md, spec/13_core_execution.md) -/

/-- Core `c` executes an instruction of `len` bytes under condition `k`: it runs and waits for nothing, no drained store met an error, the
fetch finds the instruction, the condition holds, the instruction is not repeated and the core does not halt after it. -/
structure Dev.CoreLive (d : Dev) (c : Core) (k : Cond) (len : Nat) : Prop where
  ready : d.unitReady c = true
  impr  : (d.core c).impr = none
  fetch : d.fetchErr c (d.pc c) len = .none
  cond  : condHolds k (d.flags c) = true
  once  : d.repLeft c = 0
  step  : (d.core c).step1 = false

/-- The words of the current bank of core `c` that its stacks and flags write: the status, depth and dirty words and the slots. -/
def Dev.bankWords (d : Dev) (c : Core) : List Nat :=
  BNK_STATUS c (d.curBank c) :: BNK_DEPTH c (d.curBank c) :: BNK_DIRTY c (d.curBank c) ::
    ((List.range 16).map (BNK_DATA c (d.curBank c)) ++ (List.range 8).map (BNK_RET c (d.curBank c)))

/-- What an instruction that changes stacks and flags only leaves: `pops` entries taken, `push` (top first) put in their place, `rpops` and
`rpush` likewise on the return stack, flags `fl`, the core at `pc`; every other register, core and field as before. The instruction
cache may take a line, and the core may leave a captured loop (R421, R426). -/
structure Dev.CoreStep (d : Dev) (c : Core) (pops : Nat) (push : List Word) (rpops : Nat) (rpush : List Word) (fl : Fl) (pc : Nat)
    (d' : Dev) : Prop where
  depth  : d'.dDepth c = d.dDepth c - pops + push.length
  top    : ∀ k v, push[k]? = some v → d'.dAt c k = v
  below  : ∀ k, pops + k < d.dDepth c → d'.dAt c (push.length + k) = d.dAt c (pops + k)
  rdepth : d'.rDepth c = d.rDepth c - rpops + rpush.length
  rtop   : ∀ k v, rpush[k]? = some v → d'.rAt c k = v
  rbelow : ∀ k, rpops + k < d.rDepth c → d'.rAt c (rpush.length + k) = d.rAt c (rpops + k)
  flags  : d'.flags c = fl
  status : ∀ g, g.lo + g.w ≤ 32 → 5 ≤ g.lo → d'.f (BNK_STATUS c (d.curBank c)) g = d.f (BNK_STATUS c (d.curBank c)) g
  pc_eq  : d'.pc c = pc
  core   : { d'.core c with pc := (d.core c).pc, loop := (d.core c).loop } = d.core c
  regs   : d.Keeps (d.bankWords c) d'
  cores  : ∀ x, x ≠ c.val → d'.core x = d.core x
  rest   : { d' with regs := d.regs, cores := d.cores, icache := d.icache, free := d.free } = d

/-- Instruction `i` of core `c` takes `pops` entries, puts `push` and sets flags `fl`, and the core goes on `len` bytes further. -/
def State.CoreDoes (s : State) (c : Core) (i : Instr) (len pops : Nat) (push : List Word) (fl : Fl) : Prop :=
  s.Runs i (s.hw.CoreStep c pops push 0 [] fl ((s.hw.pc c + len) % 4294967296))

/-- Flags with Z and N of a result. -/
def Fl.zn (f : Fl) (r : Word) : Fl := { f with z := decide (r = 0), n := r.getLsbD 31 }

/-- A load of core `c` that lies in one word gives `v`: the access is in order, the place is memory that no cache holds, and the store
buffer is empty or its youngest overlapping store contains the bytes (R433, R437). -/
structure Dev.LoadsPart (d : Dev) (c : Core) (a n v : Nat) : Prop where
  ok   : d.accessErr c a n false = .none
  mem  : placeOf (d.xaddr c a) = .mem
  line : d.cacheable c (d.xaddr c a) = false
  ue   : (d.core c).ue = none
  val  : d.forwarded c (d.xaddr c a) n = some v ∨ ((d.core c).sb = [] ∧ v = d.loadN (d.xaddr c a) n)

/-- A load of `n` bytes at `a`, in one word or split in two (R435). -/
def Dev.Loads (d : Dev) (c : Core) (a n v : Nat) : Prop :=
  if a % 4 + n ≤ 4 then d.LoadsPart c a n v
  else ∃ v1 v2, d.LoadsPart c a (4 - a % 4) v1 ∧ d.LoadsPart c ((a + (4 - a % 4)) % 4294967296) (n - (4 - a % 4)) v2 ∧
    v = v1 + 256 ^ (4 - a % 4) * v2

/-- A store of core `c` that lies in one word passes its check and is for the store buffer, which has room (R432, R434). -/
structure Dev.StoresPart (d : Dev) (c : Core) (a n v : Nat) : Prop where
  ok    : d.storeErr c a n v = .none
  word  : a % 4 + n ≤ 4
  outer : privateRange a = false
  clasp : d.claspFills c = false
  room  : (d.core c).sb.length < 8

/-- The state with one more store in the buffer of core `c`. -/
def Dev.withStore (d : Dev) (c : Core) (a n v : Nat) : Dev :=
  d.setCore c { d.core c with sb := (d.core c).sb ++ [⟨a, n, v % 256 ^ n⟩] }

/-- Core `c` entered handler bank `e` >= 2 from its bank with return address `ret`, with `words` on `e`'s data stack (top first), at
`vec` (R453). -/
structure Dev.Enters (d : Dev) (c : Core) (e ret : Nat) (words : List Word) (vec : Nat) (d' : Dev) : Prop where
  bpc    : d'.r (BNK_BPC c (d.curBank c)) = BitVec.ofNat 32 ret
  bank   : d'.curBank c = e
  prev   : d'.f (BNK_STATUS c e) BNK_STATUS_PREV = d.curBank c
  level  : d'.f (BNK_STATUS c e) BNK_STATUS_LEVEL = 1
  ien    : d'.b (BNK_STATUS c e) BNK_STATUS_IEN = false
  sact   : d'.b (BNK_STATUS c e) BNK_STATUS_SACT = false
  rcnt   : d'.f (BNK_STATUS c e) BNK_STATUS_RCNT = 0
  flags  : d'.flags c = ⟨false, false, false, false, false⟩
  depth  : d'.dDepth c = words.length
  stack  : ∀ k v, words[k]? = some v → d'.dAt c k = v
  rdepth : d'.rDepth c = 0
  dsp    : d'.f (BNK_DSP c e) BNK_DSP_P = d.f (BNK_DTOP c e) BNK_DTOP_P
  rsp    : d'.f (BNK_RSP c e) BNK_RSP_P = d.f (BNK_RTOP c e) BNK_RTOP_P
  pc_eq  : d'.pc c = vec
  /-- Only CORE_STATUS, words of the banks left and entered change; of the bank left, its return address and dirty bits. -/
  regs   : ∀ a, a ≠ CORE_STATUS c → a ≠ BNK_BPC c (d.curBank c) → a ≠ BNK_DIRTY c (d.curBank c) →
    (a < BNK_DATA c e 0 ∨ BNK_DATA c e 64 ≤ a) → d'.r a = d.r a
  cores  : ∀ x, x ≠ c.val → d'.core x = d.core x
  rest   : { d' with regs := d.regs, cores := d.cores, icache := d.icache, free := d.free } = d

/-- Core `c` is in a bank that a trap leaves for a handler bank, whose vector `vec` can be fetched (R452, R457). -/
structure Dev.TrapReady (d : Dev) (c : Core) (vec : Nat) : Prop where
  low  : 2 ≤ d.curBank c
  high : d.curBank c < 15
  vec  : d.fetchHalf c vec = .none
  ue   : (d.core c).ue = none

/-- Instruction `i` of core `c` takes the trap of a cause, with its bus error, address word and return address (R452, R453, R456). -/
def State.CoreTraps (s : State) (c : Core) (i : Instr) (cause err addr ret : Nat) : Prop :=
  s.Runs i (s.hw.Enters c (s.hw.entryBank c (s.hw.curBank c)) ret [BitVec.ofNat 32 (err * 256 + cause), BitVec.ofNat 32 addr]
    (2 * s.hw.f (TVEC c) TVEC_P))

/-! ### Bead engines (spec/09_bead_engines.md) -/

/-- Engine `e` of island `n` executes: it is not stopped and no stop was requested (R324). -/
structure Dev.BeadLive (d : Dev) (n : Isl) (e : Fin 8) : Prop where
  on   : d.beadStopped n e = false
  stop : (d.bead n e).stop = none

/-- What a Bead instruction leaves: the engine's state `h`, its PC, SR, X, CRC register, CRC on or off; nothing else, but that it no
longer waits. -/
structure Dev.BeadGoes (d : Dev) (n : Isl) (e : Fin 8) (h : BeadH) (pc : Nat) (sr x crc : Word) (crcOn : Bool) (d' : Dev) : Prop where
  eng     : d'.bead n e = h
  pc_eq   : d'.f (BEAD_STATE n e) BEAD_STATE_PC = pc
  err_pc  : d'.f (BEAD_STATE n e) BEAD_STATE_ERR_PC = d.f (BEAD_STATE n e) BEAD_STATE_ERR_PC
  sr_eq   : d'.r (BEAD_SR n e) = sr
  x_eq    : d'.r (BEAD_X n e) = x
  crc_eq  : d'.r (BEAD_CRCVAL n e) = crc
  crc_on  : d'.b (BEAD_STAT n e) BEAD_STAT_CRC_ON = crcOn
  waiting : d'.b (BEAD_STAT n e) BEAD_STAT_WAITING = false
  stat    : ∀ i, i < 32 → i ≠ 1 → i ≠ 12 → d'.bit (BEAD_STAT n e) i = d.bit (BEAD_STAT n e) i
  engines : ∀ k, k ≠ uk n e → tabGet {} d'.beads k = tabGet {} d.beads k
  only    : { d with beads := d'.beads }.Only [BEAD_STATE n e, BEAD_STAT n e, BEAD_SR n e, BEAD_X n e, BEAD_CRCVAL n e] d'

/-- The output levels after a PINS action (R312). -/
def BeadH.pins (h : BeadH) (pins : Fin 16) : BeadH :=
  let act (a : Nat) (l : Bool) : Bool := if a = 1 then false else if a = 2 then true else if a = 3 then !l else l
  { h with p1 := act (pins.val / 4) h.p1, p2 := act (pins.val % 4) h.p2 }

/-- Instruction `i` of the engine acts on its pins, passes `k` strobes and goes on at `pc` with these registers. -/
def State.BeadDoes (s : State) (n : Isl) (e : Fin 8) (pins : Fin 16) (i : Instr) (k pc : Nat) (sr x crc : Word) (crcOn : Bool) : Prop :=
  s.Runs i (s.hw.BeadGoes n e { (s.hw.bead n e).pins pins with n := (s.hw.bead n e).n + k } pc sr x crc crcOn)

/-! ### Tally timers (spec/03_beam_and_tally.md) -/

/-- Timer `t` of island `n` stands alone: it is in no linked pair, no block has its boundary on it, it blanks no line, and no write is
pending. -/
structure Dev.LoneTimer (d : Dev) (n : Isl) (t : Fin 16) : Prop where
  odd    : d.linkedOdd n t = false
  link   : d.b (TLY_CTL n t) TLY_CTL_LINK = false
  frame  : d.f (ABX_FRM_CTL n) ABX_FRM_CTL_BND_TMR ≠ t
  pair   : ∀ p : Fin 16, d.slave n p = false ∨ d.f (PWM_CTL n p) PWM_CTL_SYNC_TMR ≠ t
  chan   : ∀ c : Fin 16, d.f (ACH_CFG n c) ACH_CFG_BND_TMR ≠ t
  set    : d.f (ACH_SET_CTL n) ACH_SET_CTL_SET_TMR ≠ t
  clk    : ∀ k : Fin 2, d.f (SDM_CLK n k) SDM_CLK_SYNC_TMR ≠ t
  cal    : d.f (ACH_CAL_CTL n) ACH_CAL_CTL_CAL_TMR ≠ t
  flt    : ∀ k : Fin 2, d.fbkEveryTick n k = true ∨ d.f (FBK_FLT n k) FBK_FLT_SRC ≠ t
  snap   : ∀ k : Fin 2, d.b (FBK_SNAP n k) FBK_SNAP_TMR_EN = false ∨ d.f (FBK_SNAP n k) FBK_SNAP_TMR ≠ t
  line   : ∀ l : Fin 24, d.f (PWM_TLINE n l) PWM_TLINE_BLANK_TMR ≠ t
  shadow : d.shadow = []

/-- The timer's record alone differs beside registers, events and sources. -/
def Dev.OnlyTimer (d : Dev) (n : Isl) (t : Fin 16) (l : List Nat) (d' : Dev) : Prop :=
  { d with timers := d'.timers, transit := d'.transit, raised := d'.raised }.Only l d' ∧
  ∀ k, k ≠ uk n t → tabGet {} d'.timers k = tabGet {} d.timers k

/-- The timer starts: RUN is set and the first advance lies PRESCALE + 1 ticks ahead (R105). -/
structure Dev.TimerStarts (d : Dev) (n : Isl) (t : Fin 16) (d' : Dev) : Prop where
  run   : d'.b (TLY_CTL n t) TLY_CTL_RUN = true
  timer : d'.timer n t = { d.timer n t with startAt := some d.beam, next := d.beam + (d.f (TLY_CTL n t) TLY_CTL_PRESCALE + 1) }
  quiet : d'.transit = d.transit ∧ d'.raised = d.raised
  only  : d.OnlyTimer n t [TLY_CTL n t] d'

/-- The timer stops and holds its count (R106). -/
structure Dev.TimerStops (d : Dev) (n : Isl) (t : Fin 16) (d' : Dev) : Prop where
  run   : d'.b (TLY_CTL n t) TLY_CTL_RUN = false
  timer : d'.timer n t = { d.timer n t with stopAt := some d.beam }
  quiet : d'.transit = d.transit ∧ d'.raised = d.raised
  only  : d.OnlyTimer n t [TLY_CTL n t] d'

/-- The timer's period ends on this tick: count 0, PEND, event and source, the prescaler from 0; a ONE_SHOT timer that did not start on this
tick stops with ONE_DONE (R104, R107, R128, R129). -/
structure Dev.PeriodEnds (d : Dev) (n : Isl) (t : Fin 16) (d' : Dev) : Prop where
  count   : d'.count n t = 0
  pend    : d'.b (TLY_STATUS n t) TLY_STATUS_PEND = true
  next    : (d'.timer n t).next = d.beam + (d.f (TLY_CTL n t) TLY_CTL_PRESCALE + 1)
  endAt   : (d'.timer n t).endAt = some d.beam
  run     : d'.b (TLY_CTL n t) TLY_CTL_RUN = (d.b (TLY_CTL n t) TLY_CTL_RUN &&
    !(d.b (TLY_CTL n t) TLY_CTL_MODE && (d.timer n t).startAt != some d.beam))
  one     : d'.b (TLY_STATUS n t) TLY_STATUS_ONE_DONE = (d.b (TLY_STATUS n t) TLY_STATUS_ONE_DONE ||
    (d.b (TLY_CTL n t) TLY_CTL_MODE && (d.timer n t).startAt != some d.beam))
  transit : d'.transit = (d.fire n (0x40 + 8 * t)).transit
  raised  : d'.raised = if d.bit (TLY_IRQ_EN n t) 0 then (d.raise (islSrc n + 8 * t)).raised else d.raised
  only    : d.OnlyTimer n t [TLY_COUNT n t, TLY_STATUS n t, TLY_CTL n t] d'

/-! ### The sample bank (spec/05_analog_channels.md) -/

/-- Entry `e` of island `n`'s bank took a result: VALUE, CODE, the next SEQ, the flags and the sampling instant (R182). -/
def Dev.Landed (d : Dev) (n : Isl) (e : Nat) (value : Int) (code flags ts : Nat) (d' : Dev) : Prop :=
  d'.r (ACH_BANK n (4 * e)) = wordOfInt value ∧
  d'.r (ACH_BANK n (4 * e + 1)) =
    BitVec.ofNat 32 (code * 65536 + (fget ⟨8, 8⟩ (d.r (ACH_BANK n (4 * e + 1))) + 1) % 256 * 256 + flags) ∧
  d'.r (ACH_BANK n (4 * e + 2)) = BitVec.ofNat 32 ts ∧ d'.r (ACH_BANK n (4 * e + 3)) = BitVec.ofNat 32 (ts / 2 ^ 32)

/-- The words of an entry. -/
def bankEntry (n : Isl) (e : Nat) : List Nat := [ACH_BANK n (4 * e), ACH_BANK n (4 * e + 1), ACH_BANK n (4 * e + 2), ACH_BANK n (4 * e + 3)]

/-! ### Requests to Chozer (spec/18_chozer_mailboxes.md) -/

/-- Chozer has one request to serve: `rq`, command `cmd` with LEN `len` and bits [11:6] 0 in its header; Chozer runs and commits nothing
(R557, R560, R564). -/
structure Dev.Asked (d : Dev) (rq : Request) (cmd len : Nat) : Prop where
  front : d.chozer.reqs = [rq]
  code  : rqw rq 0 / 2 ^ 20 % 2 ^ 12 = cmd
  size  : rqw rq 0 % 2 ^ 12 = len
  fits  : len ≤ 60
  up    : d.chozUp = true
  free  : d.committing = false

/-- The request came through mailbox `m`. -/
def Request.by (rq : Request) (m : Fin 16) : Prop := rq.origin = m ∧ rq.ext = none

/-- Mailbox `m` shows the reply to `rq`: its header with status `st`, payload `pl`, BUSY clear, DONE set, and the raise of its source; no request
waits (R557-R559, R562). -/
structure Dev.Replied (d : Dev) (m : Fin 16) (rq : Request) (st : Nat) (pl : List Word) : Prop where
  header : d.r (MBX_RPL m 0) = BitVec.ofNat 32 (rqw rq 0 / 2 ^ 12 % 2 ^ 20 * 2 ^ 12 + st * 2 ^ 8 + 4 * pl.length)
  words  : ∀ k v, pl[k]? = some v → d.r (MBX_RPL m (k + 1)) = v
  busy   : d.b (MBX_STATUS m) MBX_STATUS_BUSY = false
  done   : d.b (MBX_STATUS m) MBX_STATUS_DONE = true
  raised : ∃ e, e ∈ d.raised ∧ e.src = 0x60 + m ∧ e.payload = (st * 256 + rqw rq 0 / 2 ^ 12 % 2 ^ 8) % 65536 ∧ e.ts = d.beam
  taken  : d.chozer.reqs = []

/-- The registers a reply writes. -/
def replyRegs (m : Fin 16) : List Nat := MBX_STATUS m :: (List.range 16).map (MBX_RPL m)

/-- Command `i` answers the request of mailbox `m`, and `P` holds after it. -/
def State.Replies (s : State) (m : Fin 16) (rq : Request) (i : Instr) (st : Nat) (pl : Dev → List Word) (P : Dev → Prop) : Prop :=
  s.Runs i fun d' => d'.Replied m rq st (pl d') ∧ P d'

/-- Command `i` refuses the request with status `st` and has no other effect on a register or on memory. -/
def State.Refuses (s : State) (m : Fin 16) (rq : Request) (i : Instr) (st : Nat) : Prop :=
  s.Replies m rq i st (fun _ => []) fun d' => s.hw.Keeps (replyRegs m) d' ∧ d'.mem = s.hw.mem

/-- The reply to external message `x` with status `st` and payload `pl`: header, SID, CTR, payload, and the TAG that session token `tok` gives, 0
without one (R577, R578, R580). -/
def replyTo (x : ExtMsg) (tok : Option (List Byte)) (st : Nat) (pl : List Word) : Nat × List Word :=
  let h := x.hdr.toNat / 2 ^ 12 * 2 ^ 12 + st * 2 ^ 8 + 4 * pl.length
  let tag := match tok with
    | some t => sessTag t 0x52 x.sid.toNat x.ctr.toNat h pl
    | none => List.replicate 8 0
  (x.link, BitVec.ofNat 32 h :: x.sid :: x.ctr :: pl ++ [wordOf (leNat (tag.take 4)), wordOf (leNat (tag.drop 4))])

/-- Chozer sent `msg` and has no request left. -/
def Dev.Sent (d d' : Dev) (msg : Nat × List Word) : Prop := d'.chozer.out = d.chozer.out ++ [msg] ∧ d'.chozer.reqs = []

end Sys2Proof.Machine
end

