-- ==== Sys2Proof/Certificates/Slice0/Obligations.lean ====
section
/-! DEFINITION. The statements about the block, for the provers. -/

open Sys2Proof Sys2Proof.Machine

/-! ### Rods (spec/06_abacus_rods.md) -/

/-- ADD, SUB, MIN, MAX, AND, OR, XOR, SEL, DIV: the result in DST, limited to 32 bits with SAT; DIV truncates towards 0, and b = 0 gives
a limit with SAT (R225, R227, R230). -/
def Obligations.RodTwoOperandResults : Prop :=
  ∀ (s : State) (r : Rod) (x : RodX) (a b : Int), s.Inv → s.hw.RodLive r x → s.hw.RodIs r x.a a → s.hw.RodIs r x.b b →
    s.hw.RodTakes r x.dst →
    s.RodGivesSat r x (.rodAdd r x) (a + b) ∧ s.RodGivesSat r x (.rodSub r x) (a - b) ∧
    s.RodGives r x (.rodMin r x) (min a b) false ∧ s.RodGives r x (.rodMax r x) (max a b) false ∧
    s.RodGives r x (.rodAnd r x) (sval (wordOfInt a &&& wordOfInt b)) false ∧
    s.RodGives r x (.rodOr r x) (sval (wordOfInt a ||| wordOfInt b)) false ∧
    s.RodGives r x (.rodXor r x) (sval (wordOfInt a ^^^ wordOfInt b)) false ∧
    s.RodGives r x (.rodSel r x) (if (s.hw.rod r).p then a else b) false ∧
    (b ≠ 0 → s.RodGivesSat r x (.rodDiv r x) ((a * 2 ^ (x.imm.toNat % 32)).tdiv b)) ∧
    (b = 0 → s.RodGives r x (.rodDiv r x) (if a ≥ 0 then 2147483647 else -2147483648) true)

/-- MOV, NEG, ABS, SHR, SHL, SQRT and CLAMP on operand a: the result in DST; SHR rounds halves up; SQRT of a negative number gives 0 with
SAT; CLAMP limits to C[k]..C[k + 1] and sets P where that changed the value (R225, R230). -/
def Obligations.RodOneOperandResults : Prop :=
  ∀ (s : State) (r : Rod) (x : RodX) (a : Int), s.Inv → s.hw.RodLive r x → s.hw.RodIs r x.a a → s.hw.RodTakes r x.dst →
    let sh := x.imm.toNat % 32
    let lim := min (max a (sval (s.hw.r (ABX_COEF (s.hw.rodIsl r) x.cidx.toNat))))
      (sval (s.hw.r (ABX_COEF (s.hw.rodIsl r) (x.cidx.toNat + 1))))
    s.RodGives r x (.rodMov r x) a false ∧ s.RodGivesSat r x (.rodNeg r x) (-a) ∧
    s.RodGivesSat r x (.rodAbs r x) a.natAbs ∧ s.RodGivesSat r x (.rodShl r x) (a * 2 ^ sh) ∧
    (sh = 0 → s.RodGives r x (.rodShr r x) a false) ∧
    (0 < sh → s.RodGives r x (.rodShr r x) ((a + 2 ^ (sh - 1)) / 2 ^ sh) false) ∧
    (a < 0 → s.RodGives r x (.rodSqrt r x) 0 true) ∧
    (0 ≤ a → ∃ q : Nat, (q * q : Int) ≤ a ∧ a < (q + 1) * (q + 1) ∧ s.RodGives r x (.rodSqrt r x) q false) ∧
    (x.cidx.toNat ≠ 1023 →
      s.Runs (.rodClamp r x) (s.hw.RodStep r x (some lim) none (decide (lim ≠ a)) ((s.hw.rod r).pc + 1) false))

/-- LDI, LDIU, LDC, LDL and STA, which read no operand: IMM sign-extended; IMM over the low half of DST (a W or S word); a coefficient; a
link word as applied at the frame's start, with its VALID in P; the accumulator shifted with rounding and limited (R227, R230, R241). -/
def Obligations.RodLoads : Prop :=
  ∀ (s : State) (r : Rod) (x : RodX), s.Inv → s.hw.RodLive r x → s.hw.RodTakes r x.dst →
    let n := s.hw.rodIsl r
    let acc := if x.acc then (s.hw.rod r).a1 else (s.hw.rod r).a0
    let l := x.imm.toNat % 128
    s.RodGives r x (.rodLdi r x) x.imm.toInt false ∧
    (∀ v, s.hw.rodRead n r x.dst.toNat = .val v →
      s.RodGives r x (.rodLdiu r x) (sval (BitVec.ofNat 32 (x.imm.toNat * 65536 + v.toNat % 65536))) false) ∧
    s.RodGives r x (.rodLdc r x) (sval (s.hw.r (ABX_COEF n x.cidx.toNat))) false ∧
    (l < 96 → s.Runs (.rodLdl r x) (s.hw.RodStep r x (some (sval ((s.hw.frame n).links.getD l 0))) none
      (((s.hw.frame n).links.getD (96 + l / 32) 0).getLsbD (l % 32)) ((s.hw.rod r).pc + 1) false)) ∧
    s.RodGivesSat r x (.rodSta r x) (rs acc (x.imm.toNat % 32))

/-- MUL, MAC, MSU with a coefficient and its shift, MULR, MACR, MSUR with two operands and IMM, ACCL and ACCA: the accumulator that ACC
selects takes the rounded product, sum or difference, limited to 72 bits with SAT (R225, R226, R227). -/
def Obligations.RodAccumulates : Prop :=
  ∀ (s : State) (r : Rod) (x : RodX) (a : Int), s.Inv → s.hw.RodLive r x → s.hw.RodIs r x.a a →
    let n := s.hw.rodIsl r
    let acc := if x.acc then (s.hw.rod r).a1 else (s.hw.rod r).a0
    let prod := rs (a * sval (s.hw.r (ABX_COEF n x.cidx.toNat))) (s.hw.f (ABX_COEF_SH n x.cidx.toNat) ABX_COEF_SH_SH)
    let sh := x.imm.toNat % 32
    s.RodAccum r x (.rodMul r x) prod ∧ s.RodAccum r x (.rodMac r x) (acc + prod) ∧
    s.RodAccum r x (.rodMsu r x) (acc - prod) ∧
    s.RodAccum r x (.rodAccl r x) (a * 2 ^ sh) ∧ s.RodAccum r x (.rodAcca r x) (acc + a * 2 ^ sh) ∧
    (∀ b, s.hw.RodIs r x.b b →
      s.RodAccum r x (.rodMulr r x) (rs (a * b) sh) ∧ s.RodAccum r x (.rodMacr r x) (acc + rs (a * b) sh) ∧
      s.RodAccum r x (.rodMsur r x) (acc - rs (a * b) sh))

/-- NOP, CMP, TSTB and BR: P by a signed comparison or a bit of a; a taken branch goes to IMM, past the branch; every other address is the
next one, and nothing else changes (R230, R231, R232). -/
def Obligations.RodFlowControl : Prop :=
  ∀ (s : State) (r : Rod) (x : RodX), s.Inv → s.hw.RodLive r x →
    let pc := (s.hw.rod r).pc
    let p := (s.hw.rod r).p
    s.RodFlow r x (.rodNop r x) p (pc + 1) ∧
    (∀ a b c, s.hw.RodIs r x.a a → s.hw.RodIs r x.b b → rodCond x.cond.toNat a b = some c →
      s.RodFlow r x (.rodCmp r x) c (pc + 1)) ∧
    (∀ a, s.hw.RodIs r x.a a → s.RodFlow r x (.rodTstb r x) ((wordOfInt a).getLsbD (x.imm.toNat % 32)) (pc + 1)) ∧
    (pc < x.imm.toNat % 16384 → x.cond.toNat ≤ 2 →
      s.RodFlow r x (.rodBr r x) p (if x.cond = 0 ∨ (x.cond = 1 ∧ p = true) ∨ (x.cond = 2 ∧ p = false)
        then x.imm.toNat % 16384 else pc + 1))

/-- A microinstruction that the rod cannot execute is a program error: an opcode not in the table, a reserved COND of CMP or BR, a branch
that does not go forward, CLAMP at the last coefficient, an address outside the law window (R231, R232, R234, R236); a fetch with an
uncorrectable error stops the rod with UE (R235). -/
def Obligations.RodErrors : Prop :=
  ∀ (s : State) (r : Rod) (x : RodX), s.Inv → (s.hw.rod r).run = true → s.hw.rodIsl r < 6 →
    (x.ue = true → ∀ i, i ∈ [Instr.rodNop r x, .rodMov r x, .rodAdd r x, .rodMac r x, .rodSta r x, .rodBr r x, .rodEnd r x, .rodOut r x] →
      s.Runs i (s.hw.RodStops r ABX_ROD_STATUS_UE 3)) ∧
    (x.ue = false → s.hw.inWindow (s.hw.rodIsl r) (s.hw.rod r).pc = false →
      ∀ i, i ∈ [Instr.rodNop r x, .rodMov r x, .rodAdd r x, .rodMac r x, .rodSta r x, .rodBr r x, .rodEnd r x, .rodOut r x] →
      s.Runs i (s.hw.RodStops r ABX_ROD_STATUS_PROG_ERR 2)) ∧
    (s.hw.RodLive r x →
      s.Runs (.rodUnlistedOpcode r x) (s.hw.RodStops r ABX_ROD_STATUS_PROG_ERR 2) ∧
      (x.imm.toNat % 16384 ≤ (s.hw.rod r).pc ∨ 2 < x.cond.toNat →
        s.Runs (.rodBr r x) (s.hw.RodStops r ABX_ROD_STATUS_PROG_ERR 2)) ∧
      (∀ a, s.hw.RodIs r x.a a → x.cidx.toNat = 1023 → s.Runs (.rodClamp r x) (s.hw.RodStops r ABX_ROD_STATUS_PROG_ERR 2)) ∧
      (∀ a b, s.hw.RodIs r x.a a → s.hw.RodIs r x.b b → 5 < x.cond.toNat →
        s.Runs (.rodCmp r x) (s.hw.RodStops r ABX_ROD_STATUS_PROG_ERR 2)))

/-- SINCOS and ATAN2: sine to DST and cosine to the address in SRCB, each within 2 units of the exact value rounded; the angle to DST within
4,096 units; ATAN2 of (0, 0) gives 0 with SAT (R230). The reference values are the model's series (log entry 10). -/
def Obligations.RodAngles : Prop :=
  ∀ (s : State) (r : Rod) (x : RodX) (a : Int), s.Inv → s.hw.RodLive r x → s.hw.RodIs r x.a a → s.hw.RodTakes r x.dst →
    (s.hw.RodTakes r x.b → x.b ≠ x.dst → s.Runs (.rodSincos r x) fun d' => ∃ e f : Int, e.natAbs ≤ 2 ∧ f.natAbs ≤ 2 ∧
      d'.rodRead (s.hw.rodIsl r) r x.dst.toNat =
        .val (if x.dst.toNat = 0xF0 then 0 else wordOfInt ((sinCosRef (a % 4294967296).toNat).1 + e)) ∧
      d'.rodRead (s.hw.rodIsl r) r x.b.toNat =
        .val (if x.b.toNat = 0xF0 then 0 else wordOfInt ((sinCosRef (a % 4294967296).toNat).2 + f)) ∧
      (d'.rod r).pc = (s.hw.rod r).pc + 1 ∧ (d'.rod r).p = (s.hw.rod r).p ∧ s.hw.Keeps [] d' ∧
      (∀ q, q ≠ r.val → d'.rod q = s.hw.rod q)) ∧
    (∀ b, s.hw.RodIs r x.b b →
      (a = 0 ∧ b = 0 → s.RodGives r x (.rodAtan2 r x) 0 true) ∧
      (¬(a = 0 ∧ b = 0) → ∃ e : Int, e.natAbs ≤ 4096 ∧ s.RodGives r x (.rodAtan2 r x) (atan2Ref a b + e) false))

/-- OUT and PUB stage a value once per frame, and a second one is a program error; END finishes the rod, and the end of the last FRAME rod
is recorded two or three ticks later; the recorded completion sets DONE and fires FRAME_DONE (R57, R216, R238, R240). -/
def Obligations.RodStaging : Prop :=
  (∀ (s : State) (r : Rod) (x : RodX) (v : Word), s.Inv → s.hw.RodLive r x →
    s.hw.rodRead (s.hw.rodIsl r) r x.a.toNat = .val v →
    let n := s.hw.rodIsl r
    let k := x.imm.toNat % 64
    let j := x.imm.toNat % 16
    let staged (f : FrameH → Tab (Option Word)) (k : Nat) (d' : Dev) : Prop :=
      (∀ i, tabGet none (f (d'.frame n)) i = if i = k then some v else tabGet none (f (s.hw.frame n)) i) ∧
      d'.rod r = { s.hw.rod r with pc := (s.hw.rod r).pc + 1 } ∧ s.hw.Keeps [] d' ∧
      (∀ q, q ≠ r.val → d'.rod q = s.hw.rod q) ∧ (∀ m, m ≠ n → d'.frame m = s.hw.frame m)
    (s.hw.slotTarget n k ≠ none → tabGet none (s.hw.frame n).out k = none → s.Runs (.rodOut r x) (staged FrameH.out k)) ∧
    (s.hw.slotTarget n k = none ∨ tabGet none (s.hw.frame n).out k ≠ none →
      s.Runs (.rodOut r x) (s.hw.RodStops r ABX_ROD_STATUS_PROG_ERR 2)) ∧
    (tabGet none (s.hw.frame n).link j = none → s.Runs (.rodPub r x) (staged FrameH.link j)) ∧
    (tabGet none (s.hw.frame n).link j ≠ none → s.Runs (.rodPub r x) (s.hw.RodStops r ABX_ROD_STATUS_PROG_ERR 2))) ∧
  (∀ (s : State) (r : Rod) (x : RodX), s.Inv → s.hw.RodLive r x → s.Runs (.rodEnd r x) fun d' =>
    (d'.rod r).done = true ∧ (d'.rod r).run = false ∧ d'.b (ABX_ROD_STATUS r) ABX_ROD_STATUS_ACTIVE = false ∧
    s.hw.Keeps [ABX_ROD_STATUS r] d' ∧ (∀ q, q ≠ r.val → d'.rod q = s.hw.rod q) ∧
    (∀ n : Isl, n.val = s.hw.rodIsl r → d'.frameDone n = true → (s.hw.frame n).doneAt = none →
      ∃ t, (t = s.hw.beam + 2 ∨ t = s.hw.beam + 3) ∧ d'.agenda = s.hw.agenda ++ [⟨t, .frameCompletion n⟩]) ∧
    (d'.frameDone (s.hw.rodIsl r) = false → d'.agenda = s.hw.agenda)) ∧
  (∀ (s : State) (n : Isl), s.Inv → s.hw.frameDone n = true → (s.hw.frame n).doneAt = none →
    s.hw.wrapsNow n (s.hw.f (ABX_FRM_CTL n) ABX_FRM_CTL_BND_TMR) = false → s.Runs (.frameCompletion n) fun d' =>
    (d'.frame n).doneAt = some s.hw.beam ∧ d'.b (ABX_FRM_STATUS n) ABX_FRM_STATUS_DONE = true ∧
    d'.b (ABX_FRM_STATUS n) ABX_FRM_STATUS_RUNNING = false ∧ d'.transit = (s.hw.fire n 0x1A0).transit ∧
    (s.hw.b (ABX_FRM_CTL n) ABX_FRM_CTL_DONE_IRQ = true → d'.raised = (s.hw.raise (abxSrc n 3)).raised) ∧
    (s.hw.b (ABX_FRM_CTL n) ABX_FRM_CTL_DONE_IRQ = false → d'.raised = s.hw.raised) ∧
    s.hw.Keeps [ABX_FRM_STATUS n] d' ∧
    { d' with regs := s.hw.regs, fresh := s.hw.fresh, frames := s.hw.frames, transit := s.hw.transit, raised := s.hw.raised } = s.hw)

/-- A microinstruction with a residue check whose repeat agrees goes on with TRANSIENT set and counted (R244); one whose repeat mismatches
too retires the rod: LASTING and RETIRED, no ROLE, its source raised with cause 1; the lowest spare rod takes its role, entry, state and presets (R245,
R246). -/
def Obligations.RodResidue : Prop :=
  ∀ (s : State) (r : Rod) (x : RodX) (a b : Int), s.Inv → s.hw.RodLive r { x with res := 0 } → s.hw.RodIs r x.a a → s.hw.RodIs r x.b b →
    ∀ i, i ∈ [Instr.rodMul r x, .rodMac r x, .rodMsu r x, .rodMulr r x, .rodMacr r x, .rodMsur r x, .rodAccl r x, .rodAcca r x] →
    (x.res = 1 → s.Runs i fun d' =>
      d'.b (ABX_ROD_STATUS r) ABX_ROD_STATUS_TRANSIENT = true ∧
      d'.f (ABX_ROD_CNT r) ABX_ROD_CNT_TRANSIENT = min (s.hw.f (ABX_ROD_CNT r) ABX_ROD_CNT_TRANSIENT + 1) 65535 ∧
      (d'.rod r).run = true ∧ (d'.rod r).pc = (s.hw.rod r).pc + 1 ∧ s.hw.Keeps [ABX_ROD_STATUS r, ABX_ROD_CNT r] d') ∧
    (∀ (q : Rod) (l : List Rod), x.res = 2 → s.hw.rodsOf (s.hw.rodIsl r) 2 = q :: l → q ≠ r → s.Runs i fun d' =>
      d'.b (ABX_ROD_STATUS r) ABX_ROD_STATUS_LASTING = true ∧ d'.b (ABX_ROD_STATUS r) ABX_ROD_STATUS_RETIRED = true ∧
      (d'.rod r).run = false ∧ d'.rodRole r = 0 ∧ d'.rodRole q = 1 ∧
      d'.f (ABX_ROD_CFG q) ABX_ROD_CFG_ENTRY = s.hw.f (ABX_ROD_CFG r) ABX_ROD_CFG_ENTRY ∧
      (∀ k, k < 32 → d'.r (ABX_ROD_S q k) = s.hw.r (ABX_ROD_S r k)) ∧ d'.r (ABX_ROD_PEND q) = s.hw.r (ABX_ROD_PEND r))

/-! ### Reckoner instructions (spec/12_instruction_set.md) -/

/-- ADD, SUB, ADC, SBC, NEG, ADDQ, ADDI on held entries: the result modulo 2^32, Z and N of it, C the carry (for a subtraction, no borrow), V
where the signed result does not fit (R396, R398). -/
def Obligations.CoreAddition : Prop :=
  ∀ (s : State) (c : Core) (k : Cond), s.Inv →
    let d := s.hw
    let b := d.dAt c 0
    let a := d.dAt c 1
    let f := d.flags c
    let add (x y : Word) (ci : Nat) : Fl := { f.zn (x + y + BitVec.ofNat 32 ci) with
      c := decide (2 ^ 32 ≤ x.toNat + y.toNat + ci), v := decide ((x + y + BitVec.ofNat 32 ci).toInt ≠ x.toInt + y.toInt + ci) }
    let sub (x y : Word) (bi : Nat) : Fl := { f.zn (x - y - BitVec.ofNat 32 bi) with
      c := decide (y.toNat + bi ≤ x.toNat), v := decide ((x - y - BitVec.ofNat 32 bi).toInt ≠ x.toInt - y.toInt - bi) }
    let ci := if f.c then 1 else 0
    (d.CoreLive c k 2 → d.dDepth c ≤ 16 →
      (2 ≤ d.dDepth c →
        s.CoreDoes c (.add c k 0) 2 2 [a + b] (add a b 0) ∧ s.CoreDoes c (.sub c k 0) 2 2 [a - b] (sub a b 0) ∧
        s.CoreDoes c (.adc c k 0) 2 2 [a + b + BitVec.ofNat 32 ci] (add a b ci) ∧
        s.CoreDoes c (.sbc c k 0) 2 2 [a - b - BitVec.ofNat 32 (1 - ci)] (sub a b (1 - ci))) ∧
      (1 ≤ d.dDepth c →
        s.CoreDoes c (.neg c k 0) 2 1 [0 - b] (sub 0 b 0) ∧
        ∀ n : Fin 16, s.CoreDoes c (.addq c k 0 n) 2 1 [b + BitVec.ofNat 32 (n + 1)] (add b (BitVec.ofNat 32 (n + 1)) 0))) ∧
    (d.CoreLive c k 4 → d.dDepth c ≤ 16 → 1 ≤ d.dDepth c →
      ∀ i : BitVec 20, s.CoreDoes c (.addi c k 0 i) 4 1 [b + i.signExtend 32] (add b (i.signExtend 32) 0))

/-- AND, OR, XOR, NOT, ANDI, ORI, ABS, MIN, MAX and the shifts SHL, SHR, ASR, ROR in every form on held entries: the result, Z and N of it, V 0
(of ABS: the limit; MIN and MAX leave it), and of a shift by s > 0 the last bit shifted or rotated out in C; a short form with count 0 takes
its count from the stack (R396, R397, R402). -/
def Obligations.CoreLogicAndShifts : Prop :=
  ∀ (s : State) (c : Core) (k : Cond), s.Inv →
    let d := s.hw
    let b := d.dAt c 0
    let a := d.dAt c 1
    let f := d.flags c
    let v0 (r : Word) : Fl := { f.zn r with v := false }
    let shf (r : Word) (n : Nat) (out : Bool) : Fl := { v0 r with c := if n = 0 then f.c else out }
    (d.CoreLive c k 2 → d.dDepth c ≤ 16 →
      (2 ≤ d.dDepth c →
        let n := b.toNat % 32
        s.CoreDoes c (.and c k) 2 2 [a &&& b] (v0 (a &&& b)) ∧ s.CoreDoes c (.or c k) 2 2 [a ||| b] (v0 (a ||| b)) ∧
        s.CoreDoes c (.xor c k) 2 2 [a ^^^ b] (v0 (a ^^^ b)) ∧
        s.CoreDoes c (.min c k) 2 2 [if a.toInt ≤ b.toInt then a else b] (f.zn (if a.toInt ≤ b.toInt then a else b)) ∧
        s.CoreDoes c (.max c k) 2 2 [if a.toInt ≤ b.toInt then b else a] (f.zn (if a.toInt ≤ b.toInt then b else a)) ∧
        s.CoreDoes c (.shl c k (.short 0)) 2 2 [a <<< n] (shf (a <<< n) n (a.getLsbD (32 - n))) ∧
        s.CoreDoes c (.shr c k (.short 0)) 2 2 [a >>> n] (shf (a >>> n) n (a.getLsbD (n - 1))) ∧
        s.CoreDoes c (.asr c k (.short 0)) 2 2 [a.sshiftRight n] (shf (a.sshiftRight n) n (a.getLsbD (n - 1))) ∧
        s.CoreDoes c (.ror c k (.short 0)) 2 2 [a.rotateRight n] (shf (a.rotateRight n) n (a.getLsbD (n - 1)))) ∧
      (1 ≤ d.dDepth c →
        s.CoreDoes c (.not c k) 2 1 [~~~b] (v0 (~~~b)) ∧
        (b ≠ 0x80000000 → s.CoreDoes c (.abs c k) 2 1 [if b.toInt < 0 then -b else b] (v0 (if b.toInt < 0 then -b else b))) ∧
        (b = 0x80000000 → s.CoreDoes c (.abs c k) 2 1 [0x7FFFFFFF] { f.zn 0x7FFFFFFF with v := true }) ∧
        ∀ n : Fin 16, n ≠ 0 →
          s.CoreDoes c (.shl c k (.short n)) 2 1 [b <<< n.val] (shf (b <<< n.val) n (b.getLsbD (32 - n))) ∧
          s.CoreDoes c (.shr c k (.short n)) 2 1 [b >>> n.val] (shf (b >>> n.val) n (b.getLsbD (n - 1))) ∧
          s.CoreDoes c (.asr c k (.short n)) 2 1 [b.sshiftRight n] (shf (b.sshiftRight n) n (b.getLsbD (n - 1))) ∧
          s.CoreDoes c (.ror c k (.short n)) 2 1 [b.rotateRight n] (shf (b.rotateRight n) n (b.getLsbD (n - 1))))) ∧
    (d.CoreLive c k 4 → d.dDepth c ≤ 16 → 1 ≤ d.dDepth c →
      (∀ i : BitVec 20, s.CoreDoes c (.andi c k i) 4 1 [b &&& i.signExtend 32] (v0 (b &&& i.signExtend 32)) ∧
        s.CoreDoes c (.ori c k i) 4 1 [b ||| i.zeroExtend 32] (v0 (b ||| i.zeroExtend 32))) ∧
      ∀ n : Fin 32,
        s.CoreDoes c (.shl c k (.long n)) 4 1 [b <<< n.val] (shf (b <<< n.val) n (b.getLsbD (32 - n))) ∧
        s.CoreDoes c (.shr c k (.long n)) 4 1 [b >>> n.val] (shf (b >>> n.val) n (b.getLsbD (n - 1))) ∧
        s.CoreDoes c (.asr c k (.long n)) 4 1 [b.sshiftRight n] (shf (b.sshiftRight n) n (b.getLsbD (n - 1))) ∧
        s.CoreDoes c (.ror c k (.long n)) 4 1 [b.rotateRight n] (shf (b.rotateRight n) n (b.getLsbD (n - 1))))

/-- MUL, MULH, MULHU, MULQ, DIV, DIVU, REM, REMU, CMP, CMPI and BTST on held entries: the low and the high word of the product, the product
rounded at the shift and limited; quotients truncated towards 0 and remainders with the sign of a; a divisor 0 and a quotient that does not
fit set V and give the values of R399; comparisons set P, and Z N C V of a - b; BTST keeps its operand (R398, R399, R400, R402). -/
def Obligations.CoreProductsAndCompares : Prop :=
  ∀ (s : State) (c : Core) (k : Cond), s.Inv →
    let d := s.hw
    let b := d.dAt c 0
    let a := d.dAt c 1
    let f := d.flags c
    let p := a.toInt * b.toInt
    let znv (r : Word) (v : Bool) : Fl := { f.zn r with v := v }
    let cmp (x y : Word) (t : Bool) : Fl := { f.zn (x - y) with
      c := decide (y.toNat ≤ x.toNat), v := decide ((x - y).toInt ≠ x.toInt - y.toInt), p := t }
    let q := satInt 32 (a.toInt.tdiv b.toInt)
    (d.CoreLive c k 2 → d.dDepth c ≤ 16 →
      (2 ≤ d.dDepth c →
        s.CoreDoes c (.mul c k 0) 2 2 [a * b] (znv (a * b) (decide ((a * b).toInt ≠ p))) ∧
        s.CoreDoes c (.mulh c k 0) 2 2 [BitVec.ofInt 32 (p / 2 ^ 32)] (f.zn (BitVec.ofInt 32 (p / 2 ^ 32))) ∧
        s.CoreDoes c (.mulhu c k 0) 2 2 [BitVec.ofNat 32 (a.toNat * b.toNat / 2 ^ 32)] (f.zn (BitVec.ofNat 32 (a.toNat * b.toNat / 2 ^ 32))) ∧
        (∀ sh : Fin 32, let r := BitVec.ofInt 32 (satInt 32 (rs p sh))
          s.CoreDoes c (.mulq c k 0 .short sh) 2 2 [r] (znv r (decide (satInt 32 (rs p sh) ≠ rs p sh)))) ∧
        (b ≠ 0 →
          s.CoreDoes c (.div c k 0) 2 2 [BitVec.ofInt 32 q] (znv (BitVec.ofInt 32 q) (decide (q ≠ a.toInt.tdiv b.toInt))) ∧
          s.CoreDoes c (.divu c k 0) 2 2 [a / b] (znv (a / b) false) ∧
          s.CoreDoes c (.rem c k 0) 2 2 [BitVec.ofInt 32 (a.toInt.tmod b.toInt)]
            (znv (BitVec.ofInt 32 (a.toInt.tmod b.toInt)) (decide (q ≠ a.toInt.tdiv b.toInt))) ∧
          s.CoreDoes c (.remu c k 0) 2 2 [a % b] (znv (a % b) false)) ∧
        (b = 0 →
          s.CoreDoes c (.div c k 0) 2 2 [if a.toInt < 0 then 0x80000000 else 0x7FFFFFFF]
            (znv (if a.toInt < 0 then 0x80000000 else 0x7FFFFFFF) true) ∧
          s.CoreDoes c (.divu c k 0) 2 2 [0xFFFFFFFF] (znv 0xFFFFFFFF true) ∧
          s.CoreDoes c (.rem c k 0) 2 2 [a] (znv a true) ∧ s.CoreDoes c (.remu c k 0) 2 2 [a] (znv a true)) ∧
        (∀ cc : Fin 16, ∀ t, compares cc a b = some t → s.CoreDoes c (.cmp c k 0 cc) 2 2 [] (cmp a b t))) ∧
      (1 ≤ d.dDepth c → ∀ i : Fin 32, s.CoreDoes c (.btst c k .short i) 2 0 [] { f with p := b.getLsbD i })) ∧
    (d.CoreLive c k 4 → d.dDepth c ≤ 16 →
      (2 ≤ d.dDepth c → ∀ sh : Fin 32, let r := BitVec.ofInt 32 (satInt 32 (rs p sh))
        s.CoreDoes c (.mulq c k 0 .long sh) 4 2 [r] (znv r (decide (satInt 32 (rs p sh) ≠ rs p sh)))) ∧
      (1 ≤ d.dDepth c →
        (∀ (cc : Fin 16) (i : BitVec 16) (t : Bool), compares cc b (i.signExtend 32) = some t →
          s.CoreDoes c (.cmpi c k 0 cc i) 4 1 [] (cmp b (i.signExtend 32) t)) ∧
        ∀ i : Fin 32, s.CoreDoes c (.btst c k .long i) 4 0 [] { f with p := b.getLsbD i }))

/-- SL, LIT.L, EXT, NOP, DUP, DROP, SWAP, OVER, ROT, NIP, PICK, PSET, PCLR, PNOT, PGET, PPUT, FGET, FPUT on held entries: the stack effects of
the tables, all operands popped before a result is pushed, and the flags word P V C N Z (R387, R389, R396, R401). -/
def Obligations.CoreDataStack : Prop :=
  ∀ (s : State) (c : Core) (k : Cond), s.Inv →
    let d := s.hw
    let x (i : Nat) := d.dAt c i
    let f := d.flags c
    (d.CoreLive c k 2 → d.dDepth c ≤ 15 →
      (∀ i : BitVec 11, s.CoreDoes c (.sl c k i) 2 0 [i.signExtend 32] f) ∧ s.CoreDoes c (.nop c k) 2 0 [] f ∧
      s.CoreDoes c (.pset c k) 2 0 [] { f with p := true } ∧ s.CoreDoes c (.pclr c k) 2 0 [] { f with p := false } ∧
      s.CoreDoes c (.pnot c k) 2 0 [] { f with p := !f.p } ∧ s.CoreDoes c (.pget c k) 2 0 [if f.p then 1 else 0] f ∧
      s.CoreDoes c (.fget c k) 2 0 [BitVec.ofNat 32 (f.z.toNat + 2 * f.n.toNat + 4 * f.c.toNat + 8 * f.v.toNat + 16 * f.p.toNat)] f ∧
      (1 ≤ d.dDepth c → s.CoreDoes c (.dup c k) 2 1 [x 0, x 0] f ∧ s.CoreDoes c (.drop c k) 2 1 [] f ∧
        s.CoreDoes c (.pput c k) 2 1 [] { f with p := decide (x 0 ≠ 0) } ∧
        s.CoreDoes c (.fput c k) 2 1 [] ⟨(x 0).getLsbD 0, (x 0).getLsbD 1, (x 0).getLsbD 2, (x 0).getLsbD 3, (x 0).getLsbD 4⟩) ∧
      (2 ≤ d.dDepth c → s.CoreDoes c (.swap c k) 2 2 [x 1, x 0] f ∧ s.CoreDoes c (.over c k) 2 2 [x 1, x 0, x 1] f ∧
        s.CoreDoes c (.nip c k) 2 2 [x 0] f) ∧
      (3 ≤ d.dDepth c → s.CoreDoes c (.rot c k) 2 3 [x 2, x 0, x 1] f) ∧
      ∀ n : Fin 16, n < d.dDepth c → s.CoreDoes c (.pick c k n) 2 0 [x n] f) ∧
    (d.CoreLive c k 4 → d.dDepth c ≤ 15 →
      (∀ i : BitVec 20, s.CoreDoes c (.litL c k i) 4 0 [i.signExtend 32] f) ∧
      (1 ≤ d.dDepth c → ∀ i : BitVec 12, s.CoreDoes c (.ext c k i) 4 1 [x 0 <<< 12 ||| i.zeroExtend 32] f))

/-- TOR, FROMR, RFETCH, RDROP on held entries move, copy and drop the top of the return stack (R387, R396). -/
def Obligations.CoreReturnStack : Prop :=
  ∀ (s : State) (c : Core) (k : Cond), s.Inv → s.hw.CoreLive c k 2 → s.hw.dDepth c ≤ 15 → s.hw.rDepth c ≤ 7 →
    let d := s.hw
    let f := d.flags c
    let pc := (d.pc c + 2) % 4294967296
    (1 ≤ d.dDepth c → s.Runs (.tor c k) (d.CoreStep c 1 [] 0 [d.dAt c 0] f pc)) ∧
    (1 ≤ d.rDepth c →
      s.Runs (.fromr c k) (d.CoreStep c 0 [d.rAt c 0] 1 [] f pc) ∧ s.Runs (.rfetch c k) (d.CoreStep c 0 [d.rAt c 0] 0 [] f pc) ∧
      s.Runs (.rdrop c k) (d.CoreStep c 0 [] 1 [] f pc))

/-- LD.W, LD.H, LD.HU, LD.B, LD.BU in both forms, LDA.W and SUMW on held entries: the bytes at the address, little-endian, sign- or
zero-extended, in one word or split in two; SUMW adds the word and steps the address (R396, R401, R403, R404, R435). -/
def Obligations.CoreLoads : Prop :=
  ∀ (s : State) (c : Core) (k : Cond), s.Inv →
    let d := s.hw
    let f := d.flags c
    (d.dDepth c ≤ 16 → 1 ≤ d.dDepth c → ∀ (m : MemForm) (v : Nat), d.CoreLive c k (memLen m) →
      let a := (memAddr (d.dAt c 0) m).toNat
      (d.Loads c a 4 v → s.CoreDoes c (.ldW c k m) (memLen m) 1 [BitVec.ofNat 32 v] f) ∧
      (d.Loads c a 2 v → s.CoreDoes c (.ldH c k m) (memLen m) 1 [(BitVec.ofNat 16 v).signExtend 32] f ∧
        s.CoreDoes c (.ldHu c k m) (memLen m) 1 [(BitVec.ofNat 16 v).zeroExtend 32] f) ∧
      (d.Loads c a 1 v → s.CoreDoes c (.ldB c k m) (memLen m) 1 [(BitVec.ofNat 8 v).signExtend 32] f ∧
        s.CoreDoes c (.ldBu c k m) (memLen m) 1 [(BitVec.ofNat 8 v).zeroExtend 32] f)) ∧
    (d.dDepth c ≤ 15 → d.CoreLive c k 4 → ∀ (a : BitVec 20) (v : Nat), d.Loads c a.toNat 4 v →
      s.CoreDoes c (.ldaW c k a) 4 0 [BitVec.ofNat 32 v] f) ∧
    (d.dDepth c ≤ 16 → 2 ≤ d.dDepth c → d.CoreLive c k 2 → ∀ v, d.Loads c (d.dAt c 0).toNat 4 v →
      let x := d.dAt c 1
      let y := BitVec.ofNat 32 v
      s.CoreDoes c (.sumw c k 0) 2 2 [d.dAt c 0 + 4, x + y] { f.zn (x + y) with
        c := decide (2 ^ 32 ≤ x.toNat + y.toNat), v := decide ((x + y).toInt ≠ x.toInt + y.toInt) })

/-- ST.W, ST.H, ST.B in both forms, STA.W, FILLW and MOVW on held entries: the low bytes of x enter the store buffer at the address; the
stream operations step their addresses by 4 (R387, R396, R401, R403, R404, R432). -/
def Obligations.CoreStores : Prop :=
  ∀ (s : State) (c : Core) (k : Cond), s.Inv →
    let d := s.hw
    let f := d.flags c
    let x := (d.dAt c 1).toNat
    let stores (a n v : Nat) (i : Instr) (len pops : Nat) (push : List Word) : Prop :=
      d.StoresPart c a n v →
        s.Runs i ((d.withStore c a n v).CoreStep c pops push 0 [] f ((d.pc c + len) % 4294967296))
    d.dDepth c ≤ 16 →
    (2 ≤ d.dDepth c → ∀ m : MemForm, d.CoreLive c k (memLen m) →
      let a := (memAddr (d.dAt c 0) m).toNat
      stores a 4 x (.stW c k m) (memLen m) 2 [] ∧ stores a 2 x (.stH c k m) (memLen m) 2 [] ∧
      stores a 1 x (.stB c k m) (memLen m) 2 []) ∧
    (1 ≤ d.dDepth c → d.CoreLive c k 4 → ∀ a : BitVec 20,
      stores a.toNat 4 (d.dAt c 0).toNat (.staW c k a) 4 1 []) ∧
    (2 ≤ d.dDepth c → d.CoreLive c k 2 →
      stores (d.dAt c 0).toNat 4 x (.fillw c k) 2 2 [d.dAt c 0 + 4, d.dAt c 1] ∧
      ∀ v, d.LoadsPart c x 4 v → stores (d.dAt c 0).toNat 4 v (.movw c k) 2 2 [d.dAt c 0 + 4, d.dAt c 1 + 4])

/-- STORE_DRAIN, DFENCE and IFENCE with buffered stores to memory that no data cache holds: the oldest store, or every one, reaches memory
little-endian and leaves the buffer; IFENCE leaves nothing in the instruction cache and no captured loop. A drain that ends with UE writes
nothing, and its error waits for the next unit unless one waits already (R419, R432, R434, R440). -/
def Obligations.CoreStoreBuffer : Prop :=
  ∀ (s : State) (c : Core), s.Inv → s.hw.dcache = [] → (s.hw.core c).ue = none →
    (∀ e, e ∈ (s.hw.core c).sb → 0 < e.size ∧ s.hw.unpowered (s.hw.xaddr c e.addr) = false ∧ placeOf (s.hw.xaddr c e.addr) = .mem) →
    let d := s.hw
    let put (d : Dev) (e : SbEntry) := d.storeN (d.xaddr c e.addr) e.val e.size
    let empty := d.setCore c { d.core c with sb := [] }
    let all := (d.core c).sb.foldl put empty
    (∀ e es, (d.core c).sb = e :: es →
      s.Runs (.storeDrain c false) (fun d' => d' = put (d.setCore c { d.core c with sb := es }) e) ∧
      s.Runs (.storeDrain c true) (fun d' => d' = d.setCore c
        { d.core c with sb := es, impr := if (d.core c).impr.isSome then (d.core c).impr else some (e.addr, .ue) })) ∧
    (∀ k, d.CoreLive c k 2 →
      s.Runs (.dfence c k) (all.CoreStep c 0 [] 0 [] (d.flags c) ((d.pc c + 2) % 4294967296)) ∧
      s.Runs (.ifence c k) (fun d' => all.CoreStep c 0 [] 0 [] (d.flags c) ((d.pc c + 2) % 4294967296) d' ∧
        (d'.core c).loop = none ∧ ∀ x, tabGet 0 d'.icache (lineKey c x) = 0))

/-- BLD, BAND, BOR, BST, BSET, BCLR, BTGL, BSTP on a core-private bit, in both forms, and on a peripheral bit that the core may reach with
nothing buffered and no clasp open, where the writes enter the store buffer and BTGL leaves a W1C bit alone (R405-R408). -/
def Obligations.CoreBits : Prop :=
  ∀ (s : State) (c : Core) (k : Cond) (b : BitRef), s.Inv → s.hw.CoreLive c k (bitLen b) →
    let d := s.hw
    let f := d.flags c
    let n := bitAddr b
    let pc := (d.pc c + bitLen b) % 4294967296
    let reads (v : Bool) : Prop :=
      s.Runs (.bld c k b) (d.CoreStep c 0 [] 0 [] { f with p := v } pc) ∧
      s.Runs (.band c k b) (d.CoreStep c 0 [] 0 [] { f with p := f.p && v } pc) ∧
      s.Runs (.bor c k b) (d.CoreStep c 0 [] 0 [] { f with p := f.p || v } pc)
    let writes (put : Bool → Dev) (v : Bool) : Prop :=
      s.Runs (.bset c k b) ((put true).CoreStep c 0 [] 0 [] f pc) ∧ s.Runs (.bclr c k b) ((put false).CoreStep c 0 [] 0 [] f pc) ∧
      s.Runs (.bstp c k b) ((put f.p).CoreStep c 0 [] 0 [] f pc) ∧
      s.Runs (.btgl c k b) ((if 4096 ≤ n ∧ bitW1c n then d else put !v).CoreStep c 0 [] 0 [] f pc) ∧
      (1 ≤ d.dDepth c → d.dDepth c ≤ 16 →
        s.Runs (.bst c k b) ((put ((d.dAt c 0).getLsbD 0)).CoreStep c 1 [] 0 [] f pc))
    (n < 4096 → reads (tabGet false d.bits (c * 4096 + n)) ∧
      writes (fun v => { d with bits := tabSet false d.bits (c * 4096 + n) v }) (tabGet false d.bits (c * 4096 + n))) ∧
    (4096 ≤ n → (d.core c).sb = [] → d.claspFills c = false → d.bitErr c n false = .none →
      reads (d.bitValue n) ∧ (d.bitErr c n true = .none →
        writes (fun v => d.setCore c { d.core c with sb := [⟨n, 0, if v then 1 else 0⟩] }) (d.bitValue n)))

/-- SJ, BR, CALL, JMPI, CALLI, RET: the target is the branch's address plus twice its offset, or an even address from a stack; a call pushes the
address after it; stacks and flags are otherwise as they were (R396, R401, R415, R416). -/
def Obligations.CoreBranches : Prop :=
  ∀ (s : State) (c : Core) (k : Cond), s.Inv → s.hw.dDepth c ≤ 16 → s.hw.rDepth c ≤ 7 →
    let d := s.hw
    let f := d.flags c
    let pc : Int := d.pc c
    let x := d.dAt c 0
    (d.CoreLive c k 2 →
      (∀ o : BitVec 10, s.Runs (.sj c k o) (d.CoreStep c 0 [] 0 [] f ((pc + 2 * o.toInt) % 4294967296).toNat)) ∧
      (1 ≤ d.dDepth c → x.getLsbD 0 = false → s.Runs (.jmpi c k) (d.CoreStep c 1 [] 0 [] f x.toNat) ∧
        s.Runs (.calli c k) (d.CoreStep c 1 [] 0 [BitVec.ofNat 32 (d.pc c + 2)] f x.toNat)) ∧
      (1 ≤ d.rDepth c → (d.rAt c 0).getLsbD 0 = false → s.Runs (.ret c k) (d.CoreStep c 0 [] 1 [] f (d.rAt c 0).toNat))) ∧
    (d.CoreLive c k 4 → ∀ o : BitVec 20,
      s.Runs (.br c k o) (d.CoreStep c 0 [] 0 [] f ((pc + 2 * o.toInt) % 4294967296).toNat) ∧
      s.Runs (.call c k o) (d.CoreStep c 0 [] 0 [BitVec.ofNat 32 (d.pc c + 4)] f ((pc + 2 * o.toInt) % 4294967296).toNat))

/-- REP and REPI set up n + 1 repetitions of the next instruction; an instruction with repetitions left counts one, also where its condition
is false, and stays until the last one (R410, R411, R412). -/
def Obligations.CoreRepeats : Prop :=
  ∀ (s : State) (c : Core) (k : Cond), s.Inv →
    let d := s.hw
    let st := BNK_STATUS c (d.curBank c)
    let counted (n : Nat) (pc : Nat) (d' : Dev) : Prop :=
      d'.repLeft c = n ∧ d'.pc c = pc ∧ d'.dDepth c = d.dDepth c ∧ d'.flags c = d.flags c ∧
      (∀ g : Fld, g.lo + g.w ≤ 32 → 16 ≤ g.lo → d'.f st g = d.f st g) ∧ d.Keeps [st, BNK_DIRTY c (d.curBank c)] d' ∧
      (∀ x, x ≠ c.val → d'.core x = d.core x) ∧
      { d' with regs := d.regs, cores := d.cores, icache := d.icache, free := d'.free } = { d with free := d'.free }
    (d.CoreLive c k 2 → ∀ n : Fin 16, s.Runs (.rep c k n true) (counted (n + 1) ((d.pc c + 2) % 4294967296))) ∧
    (d.CoreLive c k 4 → ∀ n : BitVec 8, s.Runs (.repi c k n true) (counted (n.toNat + 1) ((d.pc c + 4) % 4294967296))) ∧
    (∀ n, d.repLeft c = n + 1 → d.unitReady c = true → (d.core c).impr = none → d.fetchErr c (d.pc c) 2 = .none → (d.core c).step1 = false →
      let pc := if n = 0 then (d.pc c + 2) % 4294967296 else d.pc c
      s.Runs (.nop c .al) (counted n pc) ∧ (condHolds k (d.flags c) = false → s.Runs (.dup c k) (counted n pc)))

/-- SCALL, SRET, IRET, SWB, WFI and BRK with debug enabled: the entry point and level of SENTRY with the return address in SRA; the saved level;
the bank PREV or n at its BPC; a core that waits; a core halted with REASON 2 and its code (R449, R450, R455, R460). -/
def Obligations.CoreSystem : Prop :=
  ∀ (s : State) (c : Core) (k : Cond), s.Inv → s.hw.CoreLive c k 2 →
    let d := s.hw
    let b := d.curBank c
    let st := BNK_STATUS c b
    let bank (q : Nat) (d' : Dev) : Prop :=
      d'.curBank c = q ∧ d'.pc c = (d.r (BNK_BPC c q)).toNat ∧ d.Keeps [CORE_STATUS c] d' ∧
      { d' with regs := d.regs, cores := d.cores, icache := d.icache, free := d.free } = d
    (∀ n : Fin 4, d.b st BNK_STATUS_SACT = false → s.Runs (.scall c k n) fun d' =>
      d'.r (BNK_SRA c b) = BitVec.ofNat 32 (d.pc c + 2) ∧ d'.f st BNK_STATUS_SLEV = d.f st BNK_STATUS_LEVEL ∧
      d'.b st BNK_STATUS_SACT = true ∧ d'.pc c = 2 * d.f (SENTRY c n) SENTRY_ADDR ∧ d'.curBank c = b ∧
      d'.level c = (if b = 0 ∨ d.b (SENTRY c n) SENTRY_LEVEL then 2 else 1) ∧ d'.flags c = d.flags c ∧
      d.Keeps [st, BNK_SRA c b, BNK_DIRTY c b] d') ∧
    (d.level c ≠ 0 → d.b st BNK_STATUS_SACT = true → s.Runs (.sret c k) fun d' =>
      d'.pc c = (d.r (BNK_SRA c b)).toNat ∧ d'.b st BNK_STATUS_SACT = false ∧ d'.flags c = d.flags c ∧
      (b ≠ 0 → d'.f st BNK_STATUS_LEVEL = d.f st BNK_STATUS_SLEV) ∧ d.Keeps [st, BNK_DIRTY c b] d') ∧
    (d.level c ≠ 0 →
      s.Runs (.iret c k) (bank (d.f st BNK_STATUS_PREV)) ∧
      (∀ n : Fin 16, 2 ≤ n.val ∨ d.level c = 2 → s.Runs (.swb c k n) (bank n)) ∧
      s.Runs (.wfi c k) fun d' => (d'.core c).wfi = true ∧ d'.pc c = (d.pc c + 2) % 4294967296 ∧ d.Keeps [] d') ∧
    (∀ n : Fin 16, d.b (CORE_CTL c) CORE_CTL_DBG_EN = true → s.Runs (.brk c k n) fun d' =>
      d'.b (DBG_STATUS c) DBG_STATUS_HALTED = true ∧ d'.f (DBG_STATUS c) DBG_STATUS_REASON = 2 ∧
      d'.f (DBG_STATUS c) DBG_STATUS_CODE = n ∧ d'.b (CORE_STATUS c) CORE_STATUS_HALTED = true ∧
      d'.pc c = (d.pc c + 2) % 4294967296 ∧ (d.mode = mSetup ∨ d.mode = mRun ∨ d.mode = mSafe → d'.mode = mHalt))

/-- From banks 2 to 14: illegal instructions (R394, R400, R414), odd jump addresses (R416), a nested SCALL (R449), privileged instructions at level U
(R420), SWB to bank 0 or 1 below level M (R455), BRK without debug (R460), a load with a bus error (R403) and a pop with nothing left (R443) take
their traps; the Pendant interrupt enters at IVEC (R451-R454). From bank 0 a trap locks the core up (R458). -/
def Obligations.CoreTraps : Prop :=
  ∀ (s : State) (c : Core) (k : Cond), s.Inv →
    let d := s.hw
    let pc := d.pc c
    (d.TrapReady c (2 * d.f (TVEC c) TVEC_P) →
      (d.CoreLive c .al 2 → s.CoreTraps c (.illegalInstruction c) 0x01 0 pc pc) ∧
      (d.CoreLive c k 2 →
        (∀ n, s.CoreTraps c (.rep c k n false) 0x01 0 pc pc) ∧
        (∀ r cc, 10 ≤ cc.val → s.CoreTraps c (.cmp c k r cc) 0x01 0 pc pc) ∧
        (1 ≤ d.dDepth c → (d.dAt c 0).getLsbD 0 = true →
          s.CoreTraps c (.jmpi c k) 0x04 0 pc pc ∧ (d.rDepth c ≤ 7 → s.CoreTraps c (.calli c k) 0x04 0 pc pc)) ∧
        (1 ≤ d.rDepth c → (d.rAt c 0).getLsbD 0 = true → s.CoreTraps c (.ret c k) 0x04 0 pc pc) ∧
        (d.b (BNK_STATUS c (d.curBank c)) BNK_STATUS_SACT = true → ∀ n, s.CoreTraps c (.scall c k n) 0x0C 0 pc pc) ∧
        (d.level c = 0 → s.CoreTraps c (.sret c k) 0x02 0 pc pc ∧ s.CoreTraps c (.iret c k) 0x02 0 pc pc ∧
          s.CoreTraps c (.wfi c k) 0x02 0 pc pc ∧ ∀ n, s.CoreTraps c (.swb c k n) 0x02 0 pc pc) ∧
        (d.level c ≠ 2 → ∀ n, n.val < 2 → s.CoreTraps c (.swb c k n) 0x02 0 pc pc) ∧
        (d.b (CORE_CTL c) CORE_CTL_DBG_EN = false → ∀ n, s.CoreTraps c (.brk c k n) 0x0D 0 pc (pc + 2)) ∧
        (1 ≤ d.dDepth c → d.dDepth c ≤ 16 → (d.dAt c 0).toNat % 4 = 0 → d.accessErr c (d.dAt c 0).toNat 4 false = .decode →
          s.CoreTraps c (.ldW c k .short) 0x03 4 (d.dAt c 0).toNat pc) ∧
        (d.dDepth c = 0 → d.f (BNK_DSP c (d.curBank c)) BNK_DSP_P = d.f (BNK_DTOP c (d.curBank c)) BNK_DTOP_P →
          s.CoreTraps c (.drop c k) 0x07 0 (d.dsp c) pc))) ∧
    (d.TrapReady c (2 * d.f (IVEC c) IVEC_P) → d.coreRuns c = true → (d.core c).close = false → (d.core c).hold = 0 → (d.core c).impr = none →
      d.b (PND_CPU_STATUS c) PND_CPU_STATUS_LINE = true → d.b (BNK_STATUS c (d.curBank c)) BNK_STATUS_IEN = true →
      d.b (CORE_CTL c) CORE_CTL_FIQ = false →
      s.Runs (.interruptEntry c) (d.Enters c (d.entryBank c (d.curBank c)) pc [] (2 * d.f (IVEC c) IVEC_P))) ∧
    (d.CoreLive c .al 2 → d.curBank c = 0 → (d.core c).sb = [] → s.Runs (.illegalInstruction c) fun d' => d'.b (CORE_STATUS c) CORE_STATUS_LOCKUP = true)

/-- A false condition leaves an instruction without any effect (R395); a push onto 16 held entries spills the deepest one to memory below DSP, and
a pop with none held fills the entry at DSP (R388, R442); the sum of an ADD whose repeat agrees is counted and reported, one whose repeat
mismatches too locks the core up (R459). -/
def Obligations.CoreSkipsSpillsResidue : Prop :=
  ∀ (s : State) (c : Core) (k : Cond), s.Inv →
    let d := s.hw
    let f := d.flags c
    let pc := (d.pc c + 2) % 4294967296
    let b := d.curBank c
    (d.unitReady c = true → (d.core c).impr = none → d.fetchErr c (d.pc c) 2 = .none → condHolds k f = false → d.repLeft c = 0 →
      (d.core c).step1 = false →
      ∀ i, i ∈ [Instr.add c k 0, .drop c k, .ldW c k .short, .stW c k .short, .fput c k, .jmpi c k, .ret c k, .scall c k 0, .wfi c k,
        .brk c k 0, .clopen c k, .clclose c k, .clabort c k] →
      s.Runs i (d.CoreStep c 0 [] 0 [] f pc)) ∧
    (d.CoreLive c k 2 → d.dDepth c = 16 → 4 * d.f (BNK_DLIM c b) BNK_DLIM_P + 4 ≤ d.dsp c →
      d.storeErr c (d.dsp c - 4) 4 (d.dAt c 15).toNat = .none → privateRange (d.dsp c - 4) = false → (d.core c).sb.length < 8 →
      ∀ i : BitVec 11, s.Runs (.sl c k i) fun d' =>
        d'.dDepth c = 16 ∧ d'.dAt c 0 = i.signExtend 32 ∧ (∀ j, j < 15 → d'.dAt c (j + 1) = d.dAt c j) ∧ d'.dsp c = d.dsp c - 4 ∧
        (d'.core c).sb = (d.core c).sb ++ [⟨d.dsp c - 4, 4, (d.dAt c 15).toNat⟩] ∧ d'.flags c = f ∧ d'.pc c = pc ∧
        d.Keeps (BNK_DSP c b :: d.bankWords c) d') ∧
    (∀ v, d.CoreLive c k 2 → d.dDepth c = 0 → d.dsp c ≠ 4 * d.f (BNK_DTOP c b) BNK_DTOP_P → d.Loads c (d.dsp c) 4 v →
      s.Runs (.not c k) fun d' => d'.dDepth c = 1 ∧ d'.dAt c 0 = ~~~(BitVec.ofNat 32 v) ∧ d'.dsp c = (d.dsp c + 4) % 4294967296 ∧
        d'.pc c = pc ∧ d.Keeps (BNK_DSP c b :: d.bankWords c) d') ∧
    (d.CoreLive c k 2 → 2 ≤ d.dDepth c → d.dDepth c ≤ 16 →
      (s.Runs (.add c k 1) fun d' => d'.dAt c 0 = d.dAt c 1 + d.dAt c 0 ∧ d'.dDepth c = d.dDepth c - 1 ∧ d'.pc c = pc ∧
        d'.f (CORE_STATUS c) CORE_STATUS_RES_TRANS = min (d.f (CORE_STATUS c) CORE_STATUS_RES_TRANS + 1) 65535 ∧
        d'.raised = (d.raise (coreSrc c 3)).raised ∧ d.Keeps (CORE_STATUS c :: d.bankWords c) d') ∧
      ((d.core c).sb = [] → s.Runs (.add c k 2) fun d' => d'.b (CORE_STATUS c) CORE_STATUS_LOCKUP = true ∧ d'.pc c = d.pc c % 4294967296))

/-! ### Clasps (spec/11_clasp_transactions.md) -/

/-- CLOPEN opens a clasp of the current bank and pushes its status word, or pushes the held one's with BUSY; CLSTAT pushes the kept word;
CLCLOSE waits for its recording, closes nothing where no clasp is open; the recorded close takes the mode word (and T), decides the
commit tick for IMMEDIATE and AT_TICK, LATE where T lies behind, and fails with REFUSED set (R366, R367, R372, R374-R376, R417, R418). -/
def Obligations.ClaspOpenClose : Prop :=
  ∀ (s : State) (c : Core) (k : Cond), s.Inv → s.hw.dDepth c ≤ 15 →
    let d := s.hw
    let h := d.clasp c
    let f := d.flags c
    let pc := (d.pc c + 2) % 4294967296
    (d.CoreLive c k 2 →
      (h.held = false → s.Runs (.clopen c k)
        ((d.setClasp c { held := true, bank := d.curBank c, status := 1 }).CoreStep c 0 [1] 0 [] f pc)) ∧
      (h.held = true → s.CoreDoes c (.clopen c k) 2 0 [BitVec.ofNat 32 (claspFlag h.status 29)] f) ∧
      s.CoreDoes c (.clstat c k) 2 0 [BitVec.ofNat 32 h.status] f ∧
      (d.claspFills c = true → s.Runs (.clclose c k) fun d' =>
        { d'.core c with loop := (d.core c).loop } = { d.core c with close := true, pc := d.pc c % 4294967296 } ∧ d.Keeps [] d' ∧
        { d' with cores := d.cores, icache := d.icache, free := d.free } = d) ∧
      (h.held = false → 1 ≤ d.dDepth c → cmMode (d.dAt c 0).toNat ≠ 1 →
        s.CoreDoes c (.clclose c k) 2 1 [BitVec.ofNat 32 h.status] f) ∧
      (h.held = true → d.claspFills c = false → 1 ≤ d.dDepth c → cmMode (d.dAt c 0).toNat ≠ 1 →
        s.CoreDoes c (.clclose c k) 2 1 [BitVec.ofNat 32 (claspFlag h.status 29)] f)) ∧
    (d.coreRuns c = true → (d.core c).close = true → d.repLeft c = 0 → (d.core c).step1 = false → h.held = true → h.ledger = false →
      h.closed = false → d.routes c = false → d.closeLocked c = none →
      let m := (d.dAt c 0).toNat
      let open_ := d.setCore c { d.core c with close := false }
      let closed (t at_ status : Nat) : Dev :=
        (open_.setClasp c { h with closed := true, mode := m, t := t, k := d.beam, rd := some d.beam, at_ := some at_,
                                   status := status }).at_ at_ (.claspCommit c)
      let pending := claspState h.status 2
      (1 ≤ d.dDepth c → cmMode m ≠ 1 → nbit h.status 25 = true → s.Runs (.claspCloseRecorded c) fun d' =>
        d'.clasp c = { status := claspState h.status 5 } ∧ d'.raised = (open_.raise (0x40 + c)
          (nfield (claspState h.status 5) 24 8 * 256 + nfield (claspState h.status 5) 0 8)).raised ∧
        d'.dAt c 0 = BitVec.ofNat 32 (claspState h.status 5) ∧ d'.dDepth c = d.dDepth c ∧ d'.pc c = pc) ∧
      (nbit h.status 25 = false → nbit h.status 26 = false →
        (1 ≤ d.dDepth c → cmMode m = 0 → s.Runs (.claspCloseRecorded c)
          ((closed 0 d.beam pending).CoreStep c 1 [BitVec.ofNat 32 pending] 0 [] f pc)) ∧
        (3 ≤ d.dDepth c → cmMode m = 1 →
          let t := (d.dAt c 2).toNat + 4294967296 * (d.dAt c 1).toNat
          (d.beam ≤ t → s.Runs (.claspCloseRecorded c)
            ((closed t t pending).CoreStep c 3 [BitVec.ofNat 32 pending] 0 [] f pc)) ∧
          (t < d.beam → cmAbort m = false → s.Runs (.claspCloseRecorded c)
            ((closed t d.beam (claspFlag pending 24)).CoreStep c 3 [BitVec.ofNat 32 (claspFlag pending 24)] 0 [] f pc)))))

/-- A routing check that finds no fault makes the clasp ready on the next tick, and one that does fails it with ROUTE; the commit of a waiting
clasp on its tick writes its memory entries and ends COMMITTED, raising its source with NOTIFY; an action of the commit input commits a
ready clasp that waits for EVENT; CLABORT before the commit tick discards the clasp (R354, R375-R379, R381, R383, R384). -/
def Obligations.ClaspCommits : Prop :=
  ∀ (s : State) (c : Core), s.Inv →
    let d := s.hw
    let h := d.clasp c
    let ends (x : Nat) : Dev := d.setClasp c { status := claspState h.status x }
    (d.claspWaits c = true → h.rd = none → d.routes c = true →
      ((d.withRouting c).routeFault = none → cmMode h.mode = 0 → s.Runs (.routingCheck c) fun d' =>
        d'.clasp c = { h with rd := some (d.beam + 1), at_ := some (d.beam + 1) } ∧ d'.agenda = d.agenda ++ [⟨d.beam + 1, .claspCommit c⟩] ∧
        d'.f FLG_ROUTE_STATUS FLG_ROUTE_STATUS_RESULT = 0 ∧ d'.b FLG_ROUTE_STATUS FLG_ROUTE_STATUS_BUSY = false ∧
        d.Keeps [FLG_ROUTE_STATUS] d' ∧ { d' with regs := d.regs, clasps := d.clasps, agenda := d.agenda } = d) ∧
      (∀ r w, r < 16 → w < 65536 → (d.withRouting c).routeFault = some (r, w) → s.Runs (.routingCheck c) fun d' =>
        d'.clasp c = { status := claspState (claspFlag h.status 28) 5 } ∧ d'.f FLG_ROUTE_STATUS FLG_ROUTE_STATUS_RESULT = r ∧
        d'.f FLG_ROUTE_STATUS FLG_ROUTE_STATUS_WHERE = w ∧ d'.b FLG_SPINE_STATUS FLG_SPINE_STATUS_REFUSED = true ∧
        d.Keeps [FLG_ROUTE_STATUS, FLG_SPINE_STATUS] d' ∧
        { d' with regs := d.regs, fresh := d.fresh, clasps := d.clasps, raised := d.raised } = d)) ∧
    (d.claspWaits c = true → d.lost = false → (∃ t, h.at_ = some t ∧ t ≤ d.beam) → d.shadow = [] → d.presets = [] →
      (∀ e, e ∈ h.entries → e.bit = false ∧ e.addr < 0x40000000 ∧ d.unpowered e.addr = false) →
      let done := (h.entries.foldl (fun d e => d.tcmWrite e.addr e.mask e.val) d).setClasp c { status := claspState h.status 3 }
      s.Runs (.claspCommit c) fun d' =>
        d' = if cmNotify h.mode then done.claspRaise c d.beam else done) ∧
    (d.claspWaits c = true → d.lost = false → h.at_ = none → atEvent h.mode = true → (∃ r, h.rd = some r ∧ r ≤ d.beam) →
      d.pendOf (spineKey c) = [] → s.Runs (.claspCommitInput c) fun d' =>
        d'.clasp c = { h with at_ := some d.beam } ∧ d'.agenda = d.agenda ++ [⟨d.beam, .claspCommit c⟩] ∧ d.Keeps [] d') ∧
    (∀ k, d.CoreLive c k 2 →
      s.Runs (.clabort c k) ((if h.held && !h.ledger && !(d.commitDue c) then ends 4 else d).CoreStep c 0 [] 0 []
        (d.flags c) ((d.pc c + 2) % 4294967296)))

/-! ### Bead engines (spec/09_bead_engines.md) -/

/-- IDLE, LOADX, the MOVE variants, MARK and BRANCH of a running engine: the PINS action, the strobes, the next address modulo 64, and what the
tables give SR, X, the CRC register and the capture tick; a taken branch goes to its target, and DECNZ decrements X in every case (R311, R312,
R317, R321). -/
def Obligations.BeadInstructions : Prop :=
  ∀ (s : State) (n : Isl) (e : Fin 8) (pins : Fin 16), s.Inv → s.hw.BeadLive n e →
    let d := s.hw
    let pc := (d.beadPC n e + 1) % 64
    let sr := d.r (BEAD_SR n e)
    let x := d.r (BEAD_X n e)
    let crc := d.r (BEAD_CRCVAL n e)
    let on := d.b (BEAD_STAT n e) BEAD_STAT_CRC_ON
    let mask := d.r (BEAD_CMP_MASK n e)
    let eq := decide ((sr ^^^ d.r (BEAD_CMP n e)) &&& mask = 0)
    (∀ dly : Fin 1024, s.BeadDoes n e pins (.idle n e pins dly) (dly + 1) pc sr x crc on) ∧
    (∀ v : BitVec 16, s.BeadDoes n e pins (.loadx n e pins v) 1 pc sr (v.zeroExtend 32) crc on) ∧
    s.BeadDoes n e pins (.srClr n e pins) 1 pc 0 x crc on ∧ s.BeadDoes n e pins (.srX n e pins) 1 pc x x crc on ∧
    s.BeadDoes n e pins (.xSr n e pins) 1 pc sr (sr &&& 0xFFFF) crc on ∧
    s.BeadDoes n e pins (.srErr n e pins) 1 pc (sr ||| 0x80000000) x crc on ∧
    s.BeadDoes n e pins (.srAnd n e pins) 1 pc (sr &&& mask) x crc on ∧
    s.BeadDoes n e pins (.crcClr n e pins) 1 pc sr x (d.r (BEAD_CRC_INIT n e)) on ∧
    s.BeadDoes n e pins (.crcOn n e pins) 1 pc sr x crc true ∧ s.BeadDoes n e pins (.crcOff n e pins) 1 pc sr x crc false ∧
    s.BeadDoes n e pins (.srRev n e pins) 1 pc sr.reverse x crc on ∧
    s.Runs (.mark n e pins) (d.BeadGoes n e
      { (d.bead n e).pins pins with n := (d.bead n e).n + 1, mark := some (d.beadStrobe n e) } pc sr x crc on) ∧
    (∀ (cond : Fin 8) (target : Fin 64) (p0 : Bool),
      let x' := if cond = 1 then (x - 1) &&& 0xFFFF else x
      let holds := [true, decide (x' ≠ 0), decide (x = 0), eq, !eq, p0 != d.b (BEAD_PIN n e) BEAD_PIN_P0_INV, decide (crc = 0),
        decide (crc ≠ 0)].getD cond false
      s.BeadDoes n e pins (.branch n e pins cond target p0) 1 (if holds then target else pc) sr x' crc on)

/-- SHIFT, TAKE, GIVE, WAIT, SIGNAL, STOP and the queue commands: a bit moves SR by SHDIR, with CK on its trailing strobe; TAKE and GIVE move
words between SR and the queues, wait or go stale; a wait ends on the strobe whose level fits; SIGNAL and STOP fire and raise; queue writes and
reads append and remove, and a full or empty queue sets its flag (R312-R315, R318-R321, R324, R331, R332). -/
def Obligations.BeadShiftsAndQueues : Prop :=
  ∀ (s : State) (n : Isl) (e : Fin 8) (pins : Fin 16), s.Inv →
    let d := s.hw
    let h := d.bead n e
    let pc := (d.beadPC n e + 1) % 64
    let sr := d.r (BEAD_SR n e)
    let st := BEAD_STAT n e
    let right := d.b (BEAD_CTL n e) BEAD_CTL_SHDIR
    let goes (g : BeadH) (sr' : Word) : Dev → Prop :=
      d.BeadGoes n e g pc sr' (d.r (BEAD_X n e)) (d.r (BEAD_CRCVAL n e)) (d.b st BEAD_STAT_CRC_ON)
    (d.BeadLive n e →
      (∀ p0 : Bool, h.shift = false → h.half = false → d.b st BEAD_STAT_CRC_ON = false →
        let inp := p0 != d.b (BEAD_PIN n e) BEAD_PIN_P0_INV
        let bit (b : Bool) : Word := if b then 1 else 0
        let moved (b : Bool) : Word := if right then sr >>> 1 ||| bit b <<< 31 else sr <<< 1 ||| bit b
        let out := if right then sr.getLsbD 0 else sr.getLsbD 31
        s.Runs (.shift n e pins 0 false 0 [p0]) (goes { h.pins pins with n := h.n + 1 } (moved inp)) ∧
        s.Runs (.shift n e pins 1 false 0 [p0]) (goes { h with p1 := (h.pins pins).p1, p2 := out, n := h.n + 1 } (moved false)) ∧
        s.Runs (.shift n e pins 2 false 0 [p0]) (goes { h with p1 := (h.pins pins).p1, p2 := out, n := h.n + 1 } (moved inp)) ∧
        s.Runs (.shift n e pins 3 false 0 [p0]) (goes { h.pins pins with n := h.n + 1 } sr) ∧
        s.Runs (.shift n e pins 0 true 0 [p0]) (goes { h with p1 := d.b (BEAD_CTL n e) BEAD_CTL_CPOL, p2 := (h.pins pins).p2, n := h.n + 2 }
          (moved inp))) ∧
      (∀ w ws, h.tx = w :: ws → d.txCap n e ≠ 0 → d.b st BEAD_STAT_WAITING = false → ∀ block,
        s.Runs (.take n e pins block) (goes { h.pins pins with tx := ws, taken := w, n := h.n + 1 } w)) ∧
      (h.tx = [] → d.txCap n e ≠ 0 → s.Runs (.take n e pins true) fun d' =>
        d'.b st BEAD_STAT_WAITING = true ∧ (d'.bead n e).n = h.n + 1 ∧ d'.beadPC n e = d.beadPC n e ∧ d.Keeps [st] d') ∧
      (h.tx = [] → d.txCap n e ≠ 0 → s.Runs (.take n e pins false) fun d' =>
        d'.r (BEAD_SR n e) = h.taken ∧ d'.b st BEAD_STAT_STALE = true ∧
        d'.f (BEAD_CNT n e) BEAD_CNT_STALE = min (d.f (BEAD_CNT n e) BEAD_CNT_STALE + 1) 65535 ∧ d'.beadPC n e = pc) ∧
      (d.b (BEAD_CTL n e) BEAD_CTL_RXDST = false → h.rx.length < 12 - d.txCap n e → ∀ block, s.Runs (.give n e pins block) fun d' =>
        (d'.bead n e).rx = h.rx ++ [(sr, h.mark.getD (d.beadStrobe n e))] ∧ (d'.bead n e).mark = none ∧
        d'.transit = (d.fireAt n (0x181 + 4 * e) (d.beadStrobe n e)).transit ∧ d'.beadPC n e = pc ∧ d.Keeps [st, BEAD_STATE n e] d') ∧
      (∀ (src : Fin 2) (level pin : Bool),
        let fits := (pin != (src == 0 && d.b (BEAD_PIN n e) BEAD_PIN_P0_INV)) == level
        s.Runs (.wait n e pins (src.castLE (by decide)) level pin) fun d' =>
          d'.b st BEAD_STAT_WAITING = !fits ∧ (d'.bead n e).n = h.n + 1 ∧ d'.beadPC n e = (if fits then pc else d.beadPC n e) ∧
          d.Keeps [st, BEAD_STATE n e] d') ∧
      (∀ irq evt, s.Runs (.signal n e pins irq evt) fun d' =>
        d'.transit = (if evt then (d.fireAt n (0x180 + 4 * e) (d.beadStrobe n e)).transit else d.transit) ∧
        d'.raised = (if irq && d.bit (BEAD_IRQ_EN n e) 0 then (d.raise (islSrc n + 0x200 + 8 * e)).raised else d.raised) ∧
        d'.beadPC n e = pc ∧ d.Keeps [st, BEAD_STATE n e] d') ∧
      (s.Runs (.stop n e pins) fun d' =>
        d'.beadStopped n e = true ∧ d'.b st BEAD_STAT_SELF_STOP = true ∧ d'.b (BEAD_CTL n e) BEAD_CTL_RUN = false ∧ d'.beadPC n e = pc ∧
        d'.transit = (d.fireAt n (0x182 + 4 * e) (d.beadStrobe n e)).transit ∧ d.Keeps [st, BEAD_STATE n e, BEAD_CTL n e] d') ∧
      (s.Runs (.beadUndefinedOpcode n e pins) fun d' =>
        d'.beadStopped n e = true ∧ d'.b st BEAD_STAT_PROG_ERR = true ∧ d'.f (BEAD_STATE n e) BEAD_STATE_ERR_PC = d.beadPC n e ∧
        (d'.bead n e).p1 = h.p1 ∧ (d'.bead n e).p2 = h.p2 ∧ d.Keeps [st, BEAD_STATE n e, BEAD_CTL n e] d')) ∧
    (∀ q : Req,
      (d.accessErr q (BEAD_TXQ n e) 4 true = .none → ∀ v, s.Runs (.txqWrite q n e v) fun d' => d'.Answers q 0 ∧
        (h.tx.length < d.txCap n e → d'.bead n e = { h with tx := h.tx ++ [v] } ∧ d.Keeps [] d') ∧
        (d.txCap n e ≤ h.tx.length → d'.bead n e = h ∧ d'.b st BEAD_STAT_TX_OVF = true ∧ d.Keeps [st] d')) ∧
      (d.accessErr q (BEAD_RXQ n e) 4 false = .none →
        (∀ v t rest, h.rx = (v, t) :: rest → s.Runs (.rxqRead q n e) fun d' => d'.Answers q v ∧ d'.bead n e = { h with rx := rest } ∧
          d'.r (BEAD_RXTS_LO n e) = BitVec.ofNat 32 t ∧ d'.r (BEAD_RXTS_HI n e) = BitVec.ofNat 32 (t / 2 ^ 32) ∧
          d.Keeps [BEAD_RXTS_LO n e, BEAD_RXTS_HI n e] d') ∧
        (h.rx = [] → s.Runs (.rxqRead q n e) fun d' => d'.Answers q 0 ∧ d'.b st BEAD_STAT_RX_UNF = true ∧ d.Keeps [st] d')) ∧
      (d.accessErr q (BEAD_CMD n e) 4 true = .none →
        s.Runs (.txflush q n e) (fun d' => d'.Answers q 0 ∧ d'.bead n e = { h with tx := [] } ∧ { d with beads := d'.beads }.Only [] d') ∧
        s.Runs (.rxflush q n e) (fun d' => d'.Answers q 0 ∧ d'.bead n e = { h with rx := [] } ∧ { d with beads := d'.beads }.Only [] d')))

/-- Starting and stopping: RUN = 1 places strobe 0 four ticks later, START on its action tick; RUN = 0 stops the engine on a later strobe outside a
CK bit; RESTART clears a stopped engine; WIN restarts the divider of a synchronised WAIT WIN or is kept pending (R323, R324, R326, R328). -/
def Obligations.BeadControl : Prop :=
  ∀ (s : State) (n : Isl) (e : Fin 8) (q : Req), s.Inv →
    let d := s.hw
    let h := d.bead n e
    let st := BEAD_STAT n e
    let ctl := BEAD_CTL n e
    (d.accessErr q ctl 4 true = .none →
      (d.beadStopped n e = true → h.shift = false → s.Runs (.beadRunStart q n e) fun d' => d'.Answers q 0 ∧
        d'.bead n e = { h with s0 := d.beam + 4, n := 0, safe := false, stop := none } ∧ d'.beadStopped n e = false ∧
        d'.b ctl BEAD_CTL_RUN = true ∧ { d with beads := d'.beads }.Only [st, ctl] d') ∧
      (d.beadStopped n e = false → s.Runs (.beadStopRequest q n e) fun d' => d'.Answers q 0 ∧
        d'.bead n e = { h with stop := some d.beam } ∧ d'.b ctl BEAD_CTL_RUN = false ∧ { d with beads := d'.beads }.Only [ctl] d')) ∧
    (d.ticking = true → d.beadStopped n e = true → h.shift = false → d.pendOf (inKey n (0x58 + 2 * e)) = [] →
      s.Runs (.beadStartEvent n e) fun d' => d'.bead n e = { h with s0 := d.beam, n := 0, safe := false, stop := none } ∧
        d'.beadStopped n e = false ∧ d'.b ctl BEAD_CTL_RUN = true ∧ d.Keeps [st, ctl] d') ∧
    (∀ t, h.stop = some t → t < d.beam → h.half = false → d.beadStopped n e = false → s.Runs (.beadStop n e) fun d' =>
      d'.beadStopped n e = true ∧ d'.b ctl BEAD_CTL_RUN = false ∧ d'.bead n e = { h with stop := none, wwin := false } ∧
      d'.transit = (d.fireAt n (0x182 + 4 * e) (d.beadStrobe n e)).transit ∧ d.Keeps [st, ctl] d') ∧
    (d.accessErr q (BEAD_CMD n e) 4 true = .none → d.beadStopped n e = true → s.Runs (.restart q n e) fun d' => d'.Answers q 0 ∧
      d'.beadPC n e = 0 ∧ d'.f (BEAD_STATE n e) BEAD_STATE_BITCNT = 0 ∧ d'.r (BEAD_X n e) = 0 ∧ d'.r (BEAD_SR n e) = 0 ∧
      d'.r (BEAD_CRCVAL n e) = d.r (BEAD_CRC_INIT n e) ∧ d'.b st BEAD_STAT_CRC_ON = false ∧ d'.b st BEAD_STAT_WIN_PEND = false ∧
      d'.beadStopped n e = true ∧ (d'.bead n e).taken = 0 ∧ (d'.bead n e).p1 = d.b (BEAD_PIN n e) BEAD_PIN_P1_INIT ∧
      (d'.bead n e).p2 = d.b (BEAD_PIN n e) BEAD_PIN_P2_INIT ∧ (d'.bead n e).tx = h.tx ∧ (d'.bead n e).rx = h.rx ∧
      d.Keeps [BEAD_STATE n e, BEAD_X n e, BEAD_SR n e, BEAD_CRCVAL n e, st] d') ∧
    (d.ticking = true → d.pendOf (inKey n (0x59 + 2 * e)) = [] →
      (h.wwin = true → d.b ctl BEAD_CTL_WSYNC = true → s.Runs (.winEvent n e) fun d' =>
        d'.bead n e = { h with s0 := d.beam, n := 1, wwin := false } ∧ d'.beadPC n e = (d.beadPC n e + 1) % 64 ∧
        d.Keeps [st, BEAD_STATE n e] d') ∧
      (h.wwin = false → s.Runs (.winEvent n e) fun d' =>
        d'.b st BEAD_STAT_WIN_PEND = true ∧
        d'.b st BEAD_STAT_WIN_OVR = (d.b st BEAD_STAT_WIN_OVR || d.b st BEAD_STAT_WIN_PEND) ∧ d'.bead n e = h ∧ d.Keeps [st] d'))

/-! ### Beam and Tally (spec/03_beam_and_tally.md) -/

/-- Lock, mismatch, ring windows, stalls and loss of lock: the first lock starts the count at 0; a mismatch with Beam B sound retires Beam A and
records the tick; a plausible window only shows its counts; a stall of the copy not in use clears B_OK; every other finding loses the
Beam, with the first finding's cause, every island out of RUN and the count kept (R86, R88-R92, R94, R673, R674). -/
def Obligations.BeamFindings : Prop :=
  ∀ s : State, s.Inv →
    let d := s.hw
    let on (f : Fld) := d.b BEAM_STATUS f
    let lost (cause : Nat) (d' : Dev) : Prop :=
      d'.lost = true ∧ d'.f BEAM_STATUS BEAM_STATUS_CAUSE = cause ∧ d'.b BEAM_STATUS BEAM_STATUS_A_OK = false ∧
      d'.b BEAM_STATUS BEAM_STATUS_B_OK = false ∧ (∀ n, d'.inRun n = false) ∧ d'.beam = d.beam ∧
      ∃ r, r ∈ d'.raised ∧ r.src = 0x0011 ∧ r.payload = cause ∧ r.ts = d.beam
    (on BEAM_STATUS_PLL_LOCK = false → d.lost = false → d.power.resetHeld = false → s.Runs .pllLock fun d' =>
      d'.beam = 0 ∧ d'.b BEAM_STATUS BEAM_STATUS_PLL_LOCK = true ∧ d'.b BEAM_STATUS BEAM_STATUS_A_OK = true ∧
      d'.b BEAM_STATUS BEAM_STATUS_B_OK = true ∧ d.Keeps [BEAM_STATUS, PWR_BOOT] d' ∧ d'.mem = d.mem ∧ d'.raised = d.raised) ∧
    (d.ticking = true → on BEAM_STATUS_SOLE_B = false →
      (d.power.plausB = true → s.Runs (.beamMismatch true false) fun d' =>
        d'.b BEAM_STATUS BEAM_STATUS_SOLE_B = true ∧ d'.b BEAM_STATUS BEAM_STATUS_A_OK = false ∧
        d'.r BEAM_SWITCH_LO = BitVec.ofNat 32 d.beam ∧ d'.r BEAM_SWITCH_HI = BitVec.ofNat 32 (d.beam / 2 ^ 32) ∧
        d'.raised = (d.raise 0x0010).raised ∧
        { d with raised := d'.raised }.Only [BEAM_STATUS, BEAM_SWITCH_LO, BEAM_SWITCH_HI] d') ∧
      (∀ byOne stalled, ¬(d.power.plausB = true ∧ byOne = true ∧ stalled = false) →
        s.Runs (.beamMismatch byOne stalled) (lost 3)) ∧
      s.Runs (.beamStall true) (fun d' => d'.b BEAM_STATUS BEAM_STATUS_B_OK = false ∧ d.Only [BEAM_STATUS] d') ∧
      s.Runs (.beamStall false) (lost 1)) ∧
    (d.lost = false → on BEAM_STATUS_PLL_LOCK = true → ∀ a b : Fin 1024,
      let good (x : Fin 1024) := decide (d.f BEAM_RING_LIM BEAM_RING_LIM_MIN ≤ x ∧ x.val ≤ d.f BEAM_RING_LIM BEAM_RING_LIM_MAX)
      ((if on BEAM_STATUS_SOLE_B then good b else good a) = true → s.Runs (.ringWindowEnd a b) fun d' =>
        d'.f BEAM_RING BEAM_RING_LAST_A = a ∧ d'.f BEAM_RING BEAM_RING_LAST_B = b ∧ d'.power.plausB = good b ∧
        d'.b BEAM_STATUS BEAM_STATUS_A_OK = (good a && !(on BEAM_STATUS_SOLE_B)) ∧ d'.b BEAM_STATUS BEAM_STATUS_B_OK = good b ∧
        { d with power := d'.power }.Only [BEAM_RING, BEAM_STATUS] d') ∧
      ((if on BEAM_STATUS_SOLE_B then good b else good a) = false → s.Runs (.ringWindowEnd a b) (lost 2))) ∧
    (d.lost = false → on BEAM_STATUS_PLL_LOCK = true → s.Runs .pllLockLost fun d' =>
      lost 4 d' ∧ d'.b BEAM_STATUS BEAM_STATUS_PLL_LOCK = false)

/-- Reads of the count, of the switch tick and of train time answer bits [31:0] and latch bits [63:32] for their requester only; the offset is held
by its low half and applied by its high half, with TT_STEP for a later step above 1,000 ns (R90, R95, R96, R99-R101). -/
def Obligations.BeamReads : Prop :=
  ∀ (s : State) (q : Req), s.Inv →
    let d := s.hw
    let latched (kind : Nat) (v : Nat) (d' : Dev) : Prop :=
      d'.Answers q (BitVec.ofNat 32 v) ∧ d'.lat kind q = v / 2 ^ 32 % 2 ^ 32 ∧
      (∀ k, k ≠ latchKey kind q → tabGet 0 d'.latch k = tabGet 0 d.latch k) ∧ { d with latch := d'.latch }.Only [] d'
    (d.accessErr q BEAM_COUNT_LO 4 false = .none → s.Runs (.beamCountRead q) (latched latCount d.beam)) ∧
    (d.regRead q BEAM_COUNT_HI).2 = BitVec.ofNat 32 (d.lat latCount q) ∧ (d.regRead q BEAM_COUNT_HI).1 = d ∧
    (d.accessErr q BEAM_SWITCH_LO 4 false = .none → s.Runs (.beamSwitchRead q)
      (latched latCount ((d.r BEAM_SWITCH_LO).toNat + 2 ^ 32 * (d.r BEAM_SWITCH_HI).toNat))) ∧
    (d.accessErr q BEAM_TT_LO 4 false = .none → s.Runs (.trainTimeRead q)
      (latched latTT ((2 * d.beam + d.ttOffset) % 2 ^ 64))) ∧
    (∀ v, d.accessErr q BEAM_TT_OFS_LO 4 true = .none → s.Runs (.ttOffsetLoWrite q v) fun d' =>
      d'.Answers q 0 ∧ d'.r BEAM_TT_OFS_LO = v ∧ d'.ttOffset = d.ttOffset ∧ d.Only [BEAM_TT_OFS_LO] d') ∧
    (∀ v : Word, d.accessErr q BEAM_TT_OFS_HI 4 true = .none → s.Runs (.ttOffsetHiWrite q v) fun d' =>
      let new := (d.r BEAM_TT_OFS_LO).toNat + v.toNat * 2 ^ 32
      let steps := d.b BEAM_STATUS BEAM_STATUS_TT_VALID && decide (1000 < (sext 64 new - sext 64 d.ttOffset).natAbs)
      d'.Answers q 0 ∧ d'.ttOffset = new ∧ d'.b BEAM_STATUS BEAM_STATUS_TT_VALID = true ∧
      d'.b BEAM_STATUS BEAM_STATUS_TT_STEP = (d.b BEAM_STATUS BEAM_STATUS_TT_STEP || steps) ∧
      d'.raised = (if steps then (d.raise 0x0012).raised else d.raised) ∧ d.Keeps [BEAM_STATUS, BEAM_TT_OFS_HI] d')

/-- Starts, stops, period ends, matches, chain-class actions, event inputs, TLY_RELOAD writes and reads of a timer that stands alone
(R104-R112, R115, R117, R119, R120). -/
def Obligations.TallyTimers : Prop :=
  ∀ (s : State) (n : Isl) (t : Fin 16) (q : Req), s.Inv → s.hw.LoneTimer n t →
    let d := s.hw
    let h := d.timer n t
    let on := d.b (TLY_CTL n t) TLY_CTL_RUN
    let st := TLY_STATUS n t
    let reset (d : Dev) := d.setTimer n t { d.timer n t with resetAt := some d.beam }
    let open_ := decide (on = false ∧ h.stopAt ≠ some d.beam ∧ h.resetAt ≠ some d.beam)
    let nonzero := ∀ k, k < 4 → d.compare n t k ≠ 0
    (d.accessErr q (TLY_CTL n t) 4 true = .none →
      (open_ = true → s.Runs (.timerStart q n t) fun d' => d'.Answers q 0 ∧ d.TimerStarts n t d') ∧
      s.Runs (.timerStop q n t) fun d' => d'.Answers q 0 ∧ d.TimerStops n t d') ∧
    (d.ticking = true → on = true → nonzero → s.Runs (.timerPeriodEnd n t) (d.PeriodEnds n t)) ∧
    (∀ k : Fin 4, d.ticking = true → on = true → d.compare n t k = d.count n t → d.compare n t k ≤ (d.r (TLY_RELOAD n t)).toNat →
      s.Runs (.timerMatch n t k) fun d' =>
        d'.bit st (2 + k) = true ∧ d'.transit = (d.fire n (0x41 + 8 * t + k)).transit ∧
        d'.raised = (if d.bit (TLY_IRQ_EN n t) (1 + k) then (d.raise (islSrc n + 8 * t + 1 + k)).raised else d.raised) ∧
        (k < 2 → (k = 0 → d.compare n t 1 ≠ d.count n t) → d'.agenda = d.agenda ∧ d'.b st TLY_STATUS_LEVEL =
          (match d.f (TLY_ACT n t) (if k = 0 then TLY_ACT_PM0_ACT else TLY_ACT_PM1_ACT) with
            | 1 => true | 2 => false | 3 => !(d.b st TLY_STATUS_LEVEL) | _ => d.b st TLY_STATUS_LEVEL)) ∧
        (k = 2 → d'.agenda = d.agenda ++ [⟨d.beam + 1, .chainClassAction n t 0⟩]) ∧
        (k = 3 → d'.agenda = d.agenda ++ [⟨d.beam + 1, .chainClassAction n t 1⟩]) ∧ d.Keeps [st] d') ∧
    (∀ k : Fin 2, d.ticking = true → d.b (TLY_ACT n t) (if k = 0 then TLY_ACT_CM0_TGT else TLY_ACT_CM1_TGT) = false →
      let act := d.f (TLY_ACT n t) (if k = 0 then TLY_ACT_CM0_ACT else TLY_ACT_CM1_ACT)
      (act = 0 → s.Runs (.chainClassAction n t k) fun d' => d' = d) ∧
      (act = 1 → on = false → s.Runs (.chainClassAction n t k) fun d' => d'.count n t = 0 ∧ d.Keeps [TLY_COUNT n t] d') ∧
      (act = 1 → on = true → h.endAt ≠ some d.beam → nonzero → s.Runs (.chainClassAction n t k) ((reset d).PeriodEnds n t)) ∧
      (act = 2 → open_ = true → s.Runs (.chainClassAction n t k) (d.TimerStarts n t))) ∧
    (∀ m : Fin 3, d.ticking = true → d.pendOf (inKey n (4 * t + m)) = [] →
      let taken := { d with inLast := tabSet 0 d.inLast (inKey n (4 * t + m)) d.beam }
      (m = 0 → open_ = true → s.Runs (.timerEventInput n t m) (taken.TimerStarts n t)) ∧
      (m = 1 → s.Runs (.timerEventInput n t m) (taken.TimerStops n t)) ∧
      (m = 2 → on = true → h.endAt ≠ some d.beam → nonzero → s.Runs (.timerEventInput n t m) ((reset taken).PeriodEnds n t))) ∧
    (∀ v : Word, d.accessErr q (TLY_RELOAD n t) 4 true = .none →
      (d.b (TLY_CTL n t) TLY_CTL_RELOAD_IMM = false → s.Runs (.reloadImmediate q n t v) fun d' =>
        d'.Answers q 0 ∧ d'.shadow = [⟨TLY_RELOAD n t, 4294967295, v.toNat, d.beam⟩] ∧ { d with shadow := d'.shadow }.Only [] d') ∧
      (d.b (TLY_CTL n t) TLY_CTL_RELOAD_IMM = true → on = false ∨ (d.beam < h.next ∧ d.count n t ≤ v.toNat) →
        s.Runs (.reloadImmediate q n t v) fun d' => d'.Answers q 0 ∧ d'.r (TLY_RELOAD n t) = v ∧ d.Only [TLY_RELOAD n t] d') ∧
      (d.b (TLY_CTL n t) TLY_CTL_RELOAD_IMM = true → on = true → d.beam < h.next → v.toNat < d.count n t →
        s.Runs (.reloadImmediate q n t v) fun d' => d'.Answers q 0 ∧ d'.r (TLY_RELOAD n t) = v ∧
          d'.agenda = d.agenda ++ [⟨d.beam + 1, .shortEnd n t⟩] ∧ d.Keeps [TLY_RELOAD n t] d')) ∧
    (d.ticking = true → on = true → (d.r (TLY_RELOAD n t)).toNat < d.count n t → nonzero →
      s.Runs (.shortEnd n t) fun d' => ((d.set1 st TLY_STATUS_SHORT).tlyRaise n t 5).PeriodEnds n t d' ∧ d'.b st TLY_STATUS_SHORT = true) ∧
    (∀ j : Fin 8, t.val = 2 * j.val → d.accessErr q (TLY_COUNT n t) 4 false = .none → on = false →
      s.Runs (.linkedPairRead q n j) fun d' => d'.Answers q (d.r (TLY_COUNT n t)) ∧ d.Only [] d')

/-- TLY_GO: START, STOP and RESET_START wait for their release tick, eight ticks ahead or the tick of AT; a past one is LATE, one while another
waits is REFUSED; the release acts on the selected timers and skips those of an island the requester may not write (R121-R123). -/
def Obligations.TallyGo : Prop :=
  ∀ (s : State) (q : Req), s.Inv →
    let d := s.hw
    let want := (d.r TLY_GO_AT_LO).toNat + (d.r TLY_GO_AT_HI).toNat * 2 ^ 32
    let sel := (d.r TLY_GO0).toNat + (d.r TLY_GO1).toNat * 2 ^ 32 + (d.r TLY_GO2).toNat * 2 ^ 64
    (d.accessErr q TLY_GO_CMD 4 true = .none → ∀ c, c ∈ [(1, Instr.tlyGoStart q), (2, Instr.tlyGoStop q), (3, Instr.tlyGoResetStart q)] →
      ∀ at_ : Bool,
      (d.b TLY_GO_STATUS TLY_GO_STATUS_PENDING = false → s.Runs (c.2 at_) fun d' =>
        let late := at_ && decide (want < d.beam + 8)
        let rel := if at_ && !late then want else d.beam + 8
        d'.Answers q 0 ∧ d'.go = some ⟨c.1, rel, sel, q⟩ ∧ d'.agenda = d.agenda ++ [⟨rel, .tlyGoRelease⟩] ∧
        d'.b TLY_GO_STATUS TLY_GO_STATUS_PENDING = true ∧
        d'.b TLY_GO_STATUS TLY_GO_STATUS_LATE = (d.b TLY_GO_STATUS TLY_GO_STATUS_LATE || late) ∧
        d'.raised = (if late then (d.raise 0x0018).raised else d.raised) ∧
        { d with go := d'.go, agenda := d'.agenda, raised := d'.raised }.Only [TLY_GO_STATUS] d') ∧
      (d.b TLY_GO_STATUS TLY_GO_STATUS_PENDING = true → s.Runs (c.2 at_) fun d' =>
        d'.Answers q 0 ∧ d'.b TLY_GO_STATUS TLY_GO_STATUS_REFUSED = true ∧ d.Only [TLY_GO_STATUS] d')) ∧
    (∀ g n t, d.ticking = true → d.go = some g → g.tick ≤ d.beam → d.goTimers g.sel = [(n, t)] → d.LoneTimer n t →
      let none_ := { d with go := none }.clr TLY_GO_STATUS TLY_GO_STATUS_PENDING
      let h := d.timer n t
      (d.mayWrite g.req n = true →
        (g.cmd = 1 → d.b (TLY_CTL n t) TLY_CTL_RUN = false → h.stopAt ≠ some d.beam → h.resetAt ≠ some d.beam →
          s.Runs .tlyGoRelease (none_.TimerStarts n t)) ∧
        (g.cmd = 2 → s.Runs .tlyGoRelease (none_.TimerStops n t))) ∧
      (d.mayWrite g.req n = false → s.Runs .tlyGoRelease fun d' =>
        d'.go = none ∧ d'.b TLY_GO_STATUS TLY_GO_STATUS_SKIPPED = true ∧ d'.raised = (d.raise 0x0018).raised ∧
        { d with go := d'.go, raised := d'.raised }.Only [TLY_GO_STATUS] d'))

/-! ### PWM (spec/04_pwm.md) -/

/-- A pair that starts as MASTER has a boundary on that tick, as SLAVE waits for one; one that stops has inactive outputs. A boundary applies the
pair's shadows of earlier ticks, fires BOUNDARY, and resumes a pair whose trip was cleared before it. A reference edge starts the turn-on's dead
time and ends the other output, or turns its output off at once; the end of the dead time turns the output on; two outputs of INDEPENDENT mode due
on one fine step both stay off with OVERLAP. A trigger fires its event, an expired hold releases its group alone (R130-R142, R147, R162). -/
def Obligations.PwmPairs : Prop :=
  ∀ (s : State) (n : Isl) (p : Fin 16) (q : Req), s.Inv →
    let d := s.hw
    let h := d.pair n p
    let st := PWM_STATUS n p
    let raised (k : Nat) : List RaiseEv :=
      if d.bit (PWM_IRQ_EN n p) k then (d.raise (islSrc n + 0x80 + 6 * p + k)).raised else d.raised
    let boundary := (d.fire n (0xC0 + 8 * p)).transit
    let off (d' : Dev) : Prop := d'.pwmLevel n p false = false ∧ d'.pwmLevel n p true = false
    (d.accessErr q (PWM_CTL n p) 4 true = .none →
      (d.pairRuns n p = false → d.slave n p = true → s.Runs (.pairStart q n p) fun d' => d'.Answers q 0 ∧
        d'.pairRuns n p = true ∧ (d'.pair n p).blocked = true ∧ (d'.pair n p).lastB = none ∧
        { d with pairs := d'.pairs }.Only [PWM_CTL n p] d') ∧
      (d.pairRuns n p = false → d.slave n p = false → d.shadow = [] → h.latch = none → d.b st PWM_STATUS_RESUME_PEND = false →
        s.Runs (.pairStart q n p) fun d' => d'.Answers q 0 ∧ d'.pairRuns n p = true ∧ (d'.pair n p).blocked = false ∧
          (d'.pair n p).lastB = some d.beam ∧ (d'.pair n p).k = 0 ∧ off d' ∧ d'.transit = boundary ∧ d'.raised = raised 4 ∧
          { d with pairs := d'.pairs, transit := d'.transit, raised := d'.raised }.Only [PWM_CTL n p, st] d') ∧
      s.Runs (.pairStop q n p) fun d' => d'.Answers q 0 ∧ d'.pairRuns n p = false ∧ off d' ∧ (d'.pair n p).onA = none ∧
        (d'.pair n p).onB = none ∧ { d with pairs := d'.pairs }.Only [PWM_CTL n p, st] d') ∧
    (d.ticking = true → d.pairRuns n p = true →
      (d.shadow = [] → h.blocked = false → h.forced = false → d.b st PWM_STATUS_RESUME_PEND = false →
        s.Runs (.pairBoundary n p) fun d' => (d'.pair n p).lastB = some d.beam ∧
          (d'.pair n p).k = (if h.lastB = none then 0 else h.k + 1) ∧ d'.transit = boundary ∧ d'.raised = raised 4 ∧
          { d with pairs := d'.pairs, transit := d'.transit, raised := d'.raised }.Only [] d') ∧
      (∀ x, d.shadow = [x] → PWM_PERIOD n p ≤ x.addr → x.addr ≤ PWM_FALL_B n p → x.tick < d.beam → h.held = none →
        s.Runs (.pairBoundary n p) fun d' => d'.r x.addr = maskWrite (d.r x.addr) x.mask x.val ∧ d'.shadow = [] ∧
          (d'.pair n p).lastB = some d.beam ∧ d'.transit = boundary ∧ d.Keeps [x.addr, st] d') ∧
      (d.shadow = [] → d.b st PWM_STATUS_RESUME_PEND = true → h.latch = none → h.clearAt ≠ some d.beam →
        s.Runs (.pairBoundary n p) fun d' => d'.b st PWM_STATUS_RESUME_PEND = false ∧ off d' ∧ (d'.pair n p).blocked = false ∧
          d'.transit = boundary ∧ d'.raised = (if d.bit (PWM_IRQ_EN n p) 5 then
            raised 5 ++ (if d.bit (PWM_IRQ_EN n p) 4 then [⟨islSrc n + 0x80 + 6 * p + 4, 0, d.beam, d.routeOf (islSrc n + 0x80 + 6 * p + 4)⟩]
              else []) else raised 4) ∧ d.Keeps [st] d')) ∧
    (d.ticking = true → d.genHeld n p = false →
      let lvl (o : Bool) := d.pwmLevel n p o
      let edge (o on : Bool) := if nbit (d.f (PWM_CTL n p) PWM_CTL_EDGE_SEL) (2 * b2n o + b2n !on) then (d.fire n (0xC0 + 8 * p + 5)).transit
        else d.transit
      (∀ e : Fin 4, (d.r (PWM_EDGE n p e)).toNat / 64 ≠ 0x3FFFFFF →
        let t := d.beam * 64 + (d.r (PWM_EDGE n p e)).toNat % 64
        (d.independent n p = false → e = 0 → d.r (PWM_RISE_A n p) ≠ d.r (PWM_FALL_A n p) → h.refA = false →
          s.Runs (.referenceEdge n p e) fun d' => (d'.pair n p).refA = true ∧ (d'.pair n p).onA = some (t + d.f (PWM_DT n p) PWM_DT_DT_RISE) ∧
            (d'.pair n p).onB = none ∧ d'.pwmLevel n p false = lvl false ∧ d'.pwmLevel n p true = false ∧
            d'.transit = (if lvl true then edge true false else d.transit) ∧ d.Keeps [st] d') ∧
        (d.independent n p = false → e = 1 → h.refA = true → s.Runs (.referenceEdge n p e) fun d' => (d'.pair n p).refA = false ∧
          (d'.pair n p).onB = some (t + d.f (PWM_DT n p) PWM_DT_DT_FALL) ∧ (d'.pair n p).onA = none ∧ d'.pwmLevel n p false = false ∧
          d'.pwmLevel n p true = lvl true ∧ d'.transit = (if lvl false then edge false false else d.transit) ∧ d.Keeps [st] d') ∧
        (d.independent n p = true → e = 2 → d.r (PWM_RISE_B n p) ≠ d.r (PWM_FALL_B n p) → h.refB = false → lvl false = false →
          s.Runs (.referenceEdge n p e) fun d' => (d'.pair n p).refB = true ∧
            (d'.pair n p).onB = some (max t (h.offA + d.f (PWM_DT n p) PWM_DT_DT_FALL)) ∧ { d with pairs := d'.pairs }.Only [] d') ∧
        (d.independent n p = true → e = 3 → h.refB = true → lvl true = true → lvl false = false →
          s.Runs (.referenceEdge n p e) fun d' => (d'.pair n p).refB = false ∧ d'.pwmLevel n p true = false ∧ (d'.pair n p).offB = t ∧
            d'.transit = edge true false ∧ d.Keeps [st] d')) ∧
      (∀ t, d.independent n p = false →
        (h.onA = some t → h.refA = true → s.Runs (.deadTimeEnd n p false) fun d' => d'.pwmLevel n p false = true ∧ (d'.pair n p).onA = none ∧
          d'.pwmLevel n p true = lvl true ∧ d'.transit = edge false true ∧ d.Keeps [st] d') ∧
        (h.onB = some t → h.refA = false → s.Runs (.deadTimeEnd n p true) fun d' => d'.pwmLevel n p true = true ∧ (d'.pair n p).onB = none ∧
          d'.pwmLevel n p false = lvl false ∧ d'.transit = edge true true ∧ d.Keeps [st] d')) ∧
      (∀ t o, d.independent n p = true → h.onA = some t → h.onB = some t → h.refA = true → h.refB = true → h.wantA = true → h.wantB = true →
        lvl false = false → lvl true = false → s.Runs (.deadTimeEnd n p o) fun d' => off d' ∧ d'.b st PWM_STATUS_OVERLAP = true ∧
          (d'.pair n p).onA = none ∧ (d'.pair n p).onB = none ∧ d.Keeps [st] d')) ∧
    (∀ k : Fin 4, d.ticking = true → d.pairRuns n p = true → d.r (PWM_TRG n p k) ≠ 0xFFFFFFFF → s.Runs (.pwmTrigger n p k) fun d' =>
      d' = d.fire n (0xC1 + 8 * p + k)) ∧
    (∀ g e, h.held = some (g, e) → e < d.beam → s.Runs (.holdExpired n p) fun d' => (d'.pair n p).held = none ∧
      d'.b st PWM_STATUS_HOLD_EXPIRED = true ∧ d'.raised = raised 2 ∧
      d'.shadow = d.shadow.map (fun x => if inGroup n p g x then { x with tick := d.beam } else x) ∧ d.Keeps [st] d')

/-- An unblanked active line trips every pair whose mask holds it, whose outputs go high-impedance at once; a blanked one only shows ACTIVE. The
recorded trip sets TRIP, the first line and the tick, fires TRIP and raises its source. A window of 4,096 ticks is cut, and a line still active then
trips. A clear is refused while a masked line is active, and makes a running pair wait for its boundary. The trip time is read with its high half
latched (R149-R162). -/
def Obligations.PwmTrips : Prop :=
  ∀ (s : State) (n : Isl) (q : Req), s.Inv →
    let d := s.hw
    let masked (p : Fin 16) (l : Nat) := nbit (d.f (PWM_TRIP_MASK n p) PWM_TRIP_MASK_MASK) l
    let tripped (l : Nat) (d' : Dev) : Prop := ∀ p : Fin 16,
      (masked p l = true → (d.pair n p).latch = none → (d'.pair n p).latch = some (d.beam, l) ∧ (d'.pair n p).onA = none ∧
        (d'.pair n p).onB = none ∧ d'.b (PWM_STATUS n p) PWM_STATUS_RESUME_PEND = false ∧ ∀ o, d'.pwmPin n p o = none) ∧
      (masked p l = false → d'.pair n p = d.pair n p ∧ d'.r (PWM_STATUS n p) = d.r (PWM_STATUS n p))
    let others (a : Nat) (d' : Dev) : Prop := ∀ x, x ≠ a → (∀ p : Fin 16, x ≠ PWM_STATUS n p) → d'.r x = d.r x
    (∀ l : Fin 24,
      (d.blanked n l = false → s.Runs (.tripLineActive n l) fun d' =>
        (l < 20 → d'.lineActive n l = true) ∧ tripped l d' ∧ others (PWM_TLINE n l) d') ∧
      (d.blanked n l = true → l < 20 → s.Runs (.tripLineActive n l) fun d' => d'.lineActive n l = true ∧ d.Only [PWM_TLINE n l] d') ∧
      (s.Runs (.tripLineInactive n l) fun d' => d'.lineActive n l = false ∧ d.Only [PWM_TLINE n l] d') ∧
      (∀ t, (d.line n l).since = some t → t + 4096 ≤ d.beam → d.blanked n l = true → s.Runs (.blankLong n l) fun d' =>
        d'.b (PWM_TLINE n l) PWM_TLINE_BLANK_LONG = true ∧ d'.blanked n l = false ∧ d'.raised = (d.raise (islSrc n + 0xE0 + l)).raised ∧
        (d.lineActive n l = true → tripped l d') ∧ (d.lineActive n l = false → d.Keeps [PWM_TLINE n l] d' ∧ d'.pairs = d.pairs) ∧
        others (PWM_TLINE n l) d')) ∧
    (∀ (p : Fin 16) (t : Nat) (l : Fin 24), (d.pair n p).latch = some (t, l.val) → d.b (PWM_STATUS n p) PWM_STATUS_TRIP = false →
      s.Runs (.tripRecorded n p) fun d' => d'.b (PWM_STATUS n p) PWM_STATUS_TRIP = true ∧
        d'.f (PWM_STATUS n p) PWM_STATUS_FIRST_LINE = l ∧ d'.raised = (d.raise (islSrc n + 0x80 + 6 * p)).raised ∧
        (d.lost = false → d'.r (PWM_TRIP_TS_LO n p) = BitVec.ofNat 32 d.beam ∧ d'.r (PWM_TRIP_TS_HI n p) = BitVec.ofNat 32 (d.beam / 2 ^ 32) ∧
          d'.transit = (d.fire n (0xC6 + 8 * p)).transit) ∧
        (d.lost = true → d.Keeps [PWM_STATUS n p] d' ∧ d'.transit = d.transit) ∧
        { d with transit := d'.transit, raised := d'.raised }.Only [PWM_STATUS n p, PWM_TRIP_TS_LO n p, PWM_TRIP_TS_HI n p] d') ∧
    (∀ mask : BitVec 16, d.accessErr q (PWM_TRIP_CLR n) 4 true = .none → s.Runs (.tripClear q n mask) fun d' => d'.Answers q 0 ∧
      others (PWM_STATUS n 0) d' ∧ ∀ p : Fin 16,
        let st := PWM_STATUS n p
        let clears := mask.getLsbD p && d.b st PWM_STATUS_TRIP
        (clears = false → d'.r st = d.r st ∧ d'.pair n p = d.pair n p) ∧
        (clears = true → d.tripActive n p = true → d'.b st PWM_STATUS_TRIP = true ∧ d'.b st PWM_STATUS_CLR_REFUSED = true ∧
          d'.pair n p = d.pair n p) ∧
        (clears = true → d.tripActive n p = false → d'.b st PWM_STATUS_TRIP = false ∧ (d'.pair n p).latch = none ∧
          (d.pairRuns n p = true → d'.b st PWM_STATUS_RESUME_PEND = true ∧ ∀ o, d'.pwmPin n p o = none) ∧
          (d.pairRuns n p = false → d'.pwmLevel n p false = false ∧ d'.pwmLevel n p true = false))) ∧
    (∀ p : Fin 16, d.accessErr q (PWM_TRIP_TS_LO n p) 4 false = .none → s.Runs (.tripTsRead q n p) fun d' =>
      d'.Answers q (d.r (PWM_TRIP_TS_LO n p)) ∧ d'.lat (latTrip n) q = (d.r (PWM_TRIP_TS_HI n p)).toNat ∧
      { d with latch := d'.latch }.Only [] d')

/-! ### Analog channels and sigma-delta inputs (spec/05_analog_channels.md) -/

/-- A direct write of ACH_MODE only sets its flag. A trigger starts acquisition on the channels of its group that are in ADC mode and free, sets
OVERRUN on busy ones and IGNORED on others; a software trigger is kept for the next tick. A result with a sampling instant enters the bank corrected by
gain, offset and zero, and completes the set whose last member it is; a retried pair lands both its results, with PLAUS_RETRY or PLAUS_FAIL.
Word 0 of an entry is read with the other words latched (R171-R179, R182-R189). -/
def Obligations.AnalogResults : Prop :=
  ∀ (s : State) (n : Isl) (q : Req), s.Inv →
    let d := s.hw
    let raisedBy (c k : Nat) : List RaiseEv :=
      if d.bit (ACH_IRQ_EN n c) k then (d.raise (islSrc n + 0x100 + 6 * c + k)).raised else d.raised
    let code (c raw : Nat) : Int := roundAway (((raw : Int) - sext 16 (d.f (ACH_CAL n c) ACH_CAL_OFS)) * d.f (ACH_CAL n c) ACH_CAL_GAIN) 32768
    let lands (c raw : Nat) (good : Bool) (more ts : Nat) (d' : Dev) : Prop :=
      let x := clampInt 0 65535 (code c raw)
      d.Landed n c (x - d.f (ACH_ZERO n c) ACH_ZERO_ZERO) x.toNat ((if d.settlingAt n c ts then 2 else if good then 1 else 0) +
        (if code c raw = x then 0 else 16) + more) ts d' ∧
      (d'.chan n c).acq = none ∧ d'.b (ACH_STATUS n c) ACH_STATUS_CLIP = (d.b (ACH_STATUS n c) ACH_STATUS_CLIP || decide (code c raw ≠ x))
    (∀ (c : Fin 16) (v : Word), d.accessErr q (ACH_MODE n c) 4 true = .none → s.Runs (.achModeDirectWrite q n c v) fun d' => d'.Answers q 0 ∧
      d'.b (ACH_BLK_STATUS n) ACH_BLK_STATUS_MODE_DIRECT = true ∧ d'.raised = (d.raise (islSrc n + 0x163)).raised ∧
      { d with raised := d'.raised }.Only [ACH_BLK_STATUS n] d') ∧
    (∀ g : Fin 8, d.ticking = true → s.Runs (.groupTrigger n g) fun d' =>
      let late := (d.takeInput (inKey n (0x48 + g))).2
      (∀ a, (∀ c : Fin 16, a ≠ ACH_STATUS n c ∧ a ≠ ACH_CNT n c) → d'.r a = d.r a) ∧ ∀ c : Fin 16,
        let h := d.chan n c
        let st := ACH_STATUS n c
        (d.f (ACH_CFG n c) ACH_CFG_GROUP ≠ g → d'.chan n c = h ∧ d'.r st = d.r st ∧ d'.r (ACH_CNT n c) = d.r (ACH_CNT n c)) ∧
        (d.f (ACH_CFG n c) ACH_CFG_GROUP = g → d'.b st ACH_STATUS_LATE = (d.b st ACH_STATUS_LATE || late) ∧
          (d.achMode n c ≠ achAdc → d'.b st ACH_STATUS_IGNORED = true ∧ d'.chan n c = h) ∧
          (d.achMode n c = achAdc → h.acq ≠ some d.beam →
            (h.busyEnd ≤ d.beam → d'.chan n c = { h with acq := some d.beam, busyEnd := d.beam + max 15 (d.f (ACH_CFG n c) ACH_CFG_ACQ) + 35,
                                                         first := none, retry := false }) ∧
            (d.beam < h.busyEnd → d'.chan n c = h ∧ d'.b st ACH_STATUS_OVERRUN = true ∧
              d'.f (ACH_CNT n c) ACH_CNT_DROP = min (d.f (ACH_CNT n c) ACH_CNT_DROP + 1) 255)))) ∧
    (∀ mask : BitVec 8, d.accessErr q (ACH_SWTRIG n) 4 true = .none → (d.sset n).sw = 0 ∨ (d.sset n).swAt = d.beam →
      s.Runs (.softwareTrigger q n mask) fun d' => d'.Answers q 0 ∧
        d'.sset n = { d.sset n with sw := (d.sset n).sw ||| mask.toNat, swAt := d.beam } ∧ { d with sets := d'.sets }.Only [] d') ∧
    (∀ (c : Fin 16) (raw : Fin 65536) (t : Nat), d.achMode n c = achAdc → (d.chan n c).acq = some t → t + d.acqTicks n c ≤ d.beam →
      d.b (ACH_PLAUS n (c - c % 2 : Nat)) ACH_PLAUS_EN = false →
      ((d.sset n).opened = false → s.Runs (.conversionResult n c raw) fun d' => lands c raw true 0 (t + d.acqTicks n c) d' ∧
        d'.transit = (d.fire n (0x140 + 2 * c)).transit ∧ d'.raised = raisedBy c 0 ∧ d.Keeps (ACH_STATUS n c :: bankEntry n c) d') ∧
      ((d.sset n).opened = true → d.waiting n = 2 ^ c.val → (d.sset n).at_ ≤ t + d.acqTicks n c →
        d.wrapsNow n (d.f (ACH_SET_CTL n) ACH_SET_CTL_SET_TMR) = false → s.Runs (.conversionResult n c raw) fun d' =>
          lands c raw true 0 (t + d.acqTicks n c) d' ∧ (d'.sset n).opened = false ∧ d'.b (ACH_SET_STATUS n) ACH_SET_STATUS_DONE = true ∧
          (∀ w : Fin 112, d'.r (ACH_FRAMEVIEW n w) = d'.r (ACH_BANK n w)))) ∧
    (∀ (c o : Fin 16) (raw : Fin 65536) (t : Nat), o.val = (if c.val % 2 = 0 then c.val + 1 else c.val - 1) → d.achMode n c = achAdc →
      (d.chan n c).acq = some t → t + d.acqTicks n c ≤ d.beam → d.b (ACH_PLAUS n (c - c % 2 : Nat)) ACH_PLAUS_EN = true →
      (d.chan n o).first = none →
      let ts := t + d.acqTicks n c
      let twin := decide (d.achMode n o = achAdc ∧ ∃ u, (d.chan n o).acq = some u ∧ u + d.acqTicks n o = ts)
      (twin = true → s.Runs (.conversionResult n c raw) fun d' => d'.chan n c = { d.chan n c with
          first := some ((clampInt 0 65535 (code c raw)).toNat, decide (clampInt 0 65535 (code c raw) ≠ code c raw), ts) } ∧
        { d with chans := d'.chans }.Only [] d') ∧
      (twin = false → (d.sset n).opened = false → s.Runs (.conversionResult n c raw) fun d' => lands c raw true 32 ts d' ∧
        d'.b (ACH_STATUS n c) ACH_STATUS_PLAUS_SKIP = true ∧ d.Keeps (ACH_STATUS n c :: bankEntry n c) d')) ∧
    (∀ (m : Fin 8) (e o : Fin 16) (a b : Fin 65536) (t : Nat), e.val = 2 * m → o.val = 2 * m + 1 → (d.sset n).opened = false →
      (d.chan n e).retry = true → (d.chan n o).retry = true → (d.chan n e).acq = some t → t + d.acqTicks n e ≤ d.beam →
      let ts := t + d.acqTicks n e
      let x := clampInt 0 65535 (code e a)
      let y := clampInt 0 65535 (code o b)
      let diff := if d.b (ACH_PLAUS n e) ACH_PLAUS_PMODE then x + y - 65536 else x - y
      (diff.natAbs ≤ d.f (ACH_PLAUS n e) ACH_PLAUS_TOL → s.Runs (.plausRetry n m a b) fun d' => lands e a true 4 ts d' ∧ lands o b true 4 ts d' ∧
        d'.b (ACH_STATUS n e) ACH_STATUS_PLAUS_RETRY = true ∧ d'.b (ACH_STATUS n o) ACH_STATUS_PLAUS_RETRY = true ∧
        d'.f (ACH_CNT n e) ACH_CNT_TRANSIENT = min (d.f (ACH_CNT n e) ACH_CNT_TRANSIENT + 1) 65535 ∧
        d.Keeps (ACH_STATUS n e :: ACH_STATUS n o :: ACH_CNT n e :: (bankEntry n e ++ bankEntry n o)) d') ∧
      (d.f (ACH_PLAUS n e) ACH_PLAUS_TOL < diff.natAbs → s.Runs (.plausRetry n m a b) fun d' => lands e a false 8 ts d' ∧ lands o b false 8 ts d' ∧
        d'.b (ACH_STATUS n e) ACH_STATUS_PLAUS_FAIL = true ∧ d'.b (ACH_STATUS n o) ACH_STATUS_PLAUS_FAIL = true ∧
        d'.f (ACH_CNT n e) ACH_CNT_LASTING = min (d.f (ACH_CNT n e) ACH_CNT_LASTING + 1) 255 ∧
        d.Keeps (ACH_STATUS n e :: ACH_STATUS n o :: ACH_CNT n e :: (bankEntry n e ++ bankEntry n o)) d')) ∧
    (∀ (e : Fin 28) (view : Bool),
      let a (w : Nat) := if view then ACH_FRAMEVIEW n (4 * e + w) else ACH_BANK n (4 * e + w)
      d.accessErr q (a 0) 4 false = .none → s.Runs (.bankEntryRead q n e view) fun d' => d'.Answers q (d.r (a 0)) ∧
        (∀ w, 1 ≤ w → w ≤ 3 → d'.lat (latBank n w) q = (d.r (a w)).toNat) ∧ { d with latch := d'.latch }.Only [] d')

/-- Settling ends 1,000 ticks after a mode change; a comparator follows its crossings outside settling, asserts its trip line and is recorded two or
three ticks later with its event and source. A calibration cycle takes sixteen conversions of each reference and ends with GAIN and OFS as a shadow
of the channel, or with CAL_FAIL where they moved too far (R172, R193-R198). -/
def Obligations.AnalogLevels : Prop :=
  ∀ (s : State) (n : Isl) (c : Fin 16), s.Inv →
    let d := s.hw
    let h := d.chan n c
    let st := ACH_STATUS n c
    let raised (k : Nat) : List RaiseEv :=
      if d.bit (ACH_IRQ_EN n c) k then (d.raise (islSrc n + 0x100 + 6 * c + k)).raised else d.raised
    let asserts (d' : Dev) : Prop := (d'.chan n c).cmp = true ∧ (d'.chan n c).cmpPend = true ∧ (d'.chan n c).compHold = false ∧
      d'.lineActive n (c + 4) = true ∧ (∃ k : Fin 2, ⟨d.beam + 2 + k, .comparatorRecorded n c⟩ ∈ d'.agenda) ∧ d'.r st = d.r st
    (∀ t beyond, h.settle = some t → t + 1000 ≤ d.beam →
      (d.achMode n c = achComp → h.compHold = true → h.cmp = false → beyond = true → s.Runs (.settlingEnd n c beyond) asserts) ∧
      (d.achMode n c ≠ achComp ∨ beyond = false → s.Runs (.settlingEnd n c beyond) fun d' =>
        d'.chan n c = { h with compHold := false } ∧ { d with chans := d'.chans }.Only [] d')) ∧
    (d.achMode n c = achComp → h.compHold = false →
      (h.cmp = false → s.Runs (.comparatorCrossing n c true) asserts) ∧
      (h.cmp = true → s.Runs (.comparatorCrossing n c false) fun d' => d'.chan n c = { h with cmp := false } ∧
        d'.b st ACH_STATUS_CMP = false ∧ d'.lineActive n (c + 4) = false ∧
        { d with chans := d'.chans }.Only [st, PWM_TLINE n (c + 4)] d')) ∧
    (d.achMode n c = achComp → h.compHold = true → ∀ on, s.Runs (.comparatorCrossing n c on) fun d' => d' = d) ∧
    (d.ticking = true → h.cmpPend = true → s.Runs (.comparatorRecorded n c) fun d' => d'.chan n c = { h with cmpPend := false } ∧
      d'.b st ACH_STATUS_CMP = h.cmp ∧ d'.b st ACH_STATUS_CMP_EVT = true ∧ d'.transit = (d.fire n (0x141 + 2 * c)).transit ∧
      d'.raised = raised 1 ∧ { d with chans := d'.chans, transit := d'.transit, raised := d'.raised }.Only [st] d') ∧
    (d.b (ACH_CAL_CTL n) ACH_CAL_CTL_EN = true → s.Runs (.calCycleStart n) fun d' =>
      (∀ k : Fin 16, d'.chan n k = if d.achMode n k = achOff ∨ d.achMode n k = achAdc then { d.chan n k with cal := some {} } else d.chan n k) ∧
      { d with chans := d'.chans }.Only [] d') ∧
    (∀ (k : CalH) (raw : Fin 65536), h.cal = some k → d.achMode n c = achOff ∨ d.achMode n c = achAdc → h.busyEnd ≤ d.beam →
      (k.step < 31 → s.Runs (.calStep n c raw) fun d' => d'.chan n c = { h with cal := some (if k.step < 16 then
          { k with step := k.step + 1, sumLo := k.sumLo + raw } else { k with step := k.step + 1, sumHi := k.sumHi + raw }) } ∧
        { d with chans := d'.chans }.Only [] d') ∧
      (k.step = 31 →
        let lo := (k.sumLo + 8) / 16
        let hi := (k.sumHi + raw + 8) / 16
        let gain := roundAway (57344 * 32768) ((hi : Int) - lo)
        let ofs := (lo : Int) - roundAway (4096 * 32768) gain
        let fits := decide (lo < hi ∧ gain ≤ 65535 ∧ (gain - d.f (ACH_CAL n c) ACH_CAL_GAIN).natAbs ≤ 164 ∧
          (ofs - sext 16 (d.f (ACH_CAL n c) ACH_CAL_OFS)).natAbs ≤ 64)
        (fits = true → d.shadow = [] → s.Runs (.calStep n c raw) fun d' => d'.chan n c = { h with cal := none } ∧
          d'.shadow = [⟨ACH_CAL n c, 0xFFFFFFFF, gain.toNat * 65536 + (ofs % 65536).toNat, d.beam⟩] ∧
          { d with chans := d'.chans, shadow := d'.shadow }.Only [] d') ∧
        (fits = false → s.Runs (.calStep n c raw) fun d' => d'.chan n c = { h with cal := none } ∧ d'.b st ACH_STATUS_CAL_FAIL = true ∧
          d'.raised = raised 5 ∧ { d with chans := d'.chans, raised := d'.raised }.Only [st] d')))

/-- One captured bit moves the sinc3 integrators, the sinc1 sum and the run of equal bits, closes a window after OSR bits, confirms an over-current
after CONFIRM + 1 captures beyond a limit, and finds the input stuck after 256 equal bits. The result of a window lands shifted, rounded and limited to
16 bits in CODE, with its event, source and flags (R200-R205, R209). -/
def Obligations.SigmaDeltaResults : Prop :=
  ∀ (s : State) (n : Isl) (j : Fin 8), s.Inv →
    let d := s.hw
    let h := d.sdm n j
    let st := SDM_STATUS n j
    let raised (k : Nat) : List RaiseEv :=
      if d.bit (SDM_IRQ_EN n j) k then (d.raise (islSrc n + 0x180 + 4 * j + k)).raised else d.raised
    (∀ bit : Bool, d.ticking = true → d.sdmOn n j = true →
      let x : Int := if bit then 1 else -1
      let recent := (bit :: h.recent).take 32
      let flips := h.recent.head?.any (· != bit)
      let sum := (recent.take (max 4 (min 32 (d.f (SDM_OC n j) SDM_OC_W)))).foldl (fun a (b : Bool) => if b then a + 1 else a - 1) (0 : Int)
      let beyond := d.b (SDM_OC n j) SDM_OC_OC_EN && decide (sext 8 (d.f (SDM_OC n j) SDM_OC_OC_HI) ≤ sum ∨ sum ≤ sext 8 (d.f (SDM_OC n j) SDM_OC_OC_LO))
      let closes := d.closesWindow n j
      s.Runs (.sigmaDeltaCapture n j bit) fun d' =>
        let g := d'.sdm n j
        g.i1 = h.i1 + x ∧ g.i2 = h.i2 + g.i1 ∧ g.i3 = h.i3 + g.i2 ∧ g.recent = recent ∧ g.conf = (if beyond then h.conf + 1 else 0) ∧
        g.run = (if flips then 1 else min (h.run + 1) 256) ∧ d'.f st SDM_STATUS_SINC1 = (sum % 256).toNat ∧ d'.b st SDM_STATUS_OC = beyond ∧
        (closes = false → g.bits = h.bits + 1 ∧ g.closed = h.closed ∧ d'.agenda = d.agenda) ∧
        (closes = true → g.bits = 0 ∧ g.closed = some (g.i3 - h.c1 - h.c2 - h.c3, d.beam) ∧ g.c1 = g.i3 ∧ g.c2 = g.i3 - h.c1 ∧
          g.c3 = g.i3 - h.c1 - h.c2 ∧ ∃ k : Fin 13, d'.agenda = d.agenda ++ [⟨d.beam + k, .sinc3Result n j⟩]) ∧
        d'.b st SDM_STATUS_OC_EVT = (d.b st SDM_STATUS_OC_EVT || decide (g.conf = d.f (SDM_OC n j) SDM_OC_CONFIRM + 1)) ∧
        d'.b st SDM_STATUS_STUCK = ((d.b st SDM_STATUS_STUCK && !flips) || decide (h.run = 255 ∧ flips = false)) ∧ d.Keeps [st] d') ∧
    (∀ f ts, h.closed = some (f, ts) → (d.sset n).opened = false → s.Runs (.sinc3Result n j) fun d' =>
      let sh := min 24 (d.f (SDM_CFG n j) SDM_CFG_SHIFT)
      let v := if sh = 0 then f else (f + 2 ^ (sh - 1)) / 2 ^ sh
      let code := satInt 16 v
      let stuck := d.b st SDM_STATUS_STUCK
      d.Landed n (16 + j) v (code % 65536).toNat ((if h.settle = 0 then if stuck then 0 else 1 else 2) + (if code = v then 0 else 64) +
        (if stuck then 128 else 0)) ts d' ∧
      d'.sdm n j = { h with closed := none, settle := h.settle - 1 } ∧ d'.b st SDM_STATUS_OVF = (d.b st SDM_STATUS_OVF || decide (code ≠ v)) ∧
      d'.transit = (d.fire n (0x168 + 2 * j)).transit ∧ d'.raised = raised 0 ∧ d.Keeps (st :: bankEntry n (16 + j)) d') ∧
    (d.sdmOn n j = true → d.b (SDM_OC n j) SDM_OC_OC_EN = true → s.Runs (.overCurrentConfirmed n j) fun d' =>
      d'.b st SDM_STATUS_OC_EVT = true ∧ d'.transit = (d.fire n (0x169 + 2 * j)).transit ∧ d'.raised = raised 1 ∧
      { d with transit := d'.transit, raised := d'.raised }.Only [st] d') ∧
    (d.sdmOn n j = true → s.Runs (.stuckDetected n j) fun d' => d'.b st SDM_STATUS_STUCK = true ∧ d'.b st SDM_STATUS_STUCK_EVT = true ∧
      d'.raised = raised 2 ∧ { d with raised := d'.raised }.Only [st] d') ∧
    (d.b st SDM_STATUS_STUCK = true → s.Runs (.stuckClear n j) fun d' => d'.b st SDM_STATUS_STUCK = false ∧
      d'.sdm n j = { h with settle := 3 } ∧ { d with sdms := d'.sdms }.Only [st] d')

/-! ### Feedback (spec/08_feedback.md) -/

/-- Accepted edges count by the interface's source with turns carried, and enter the speed window; both quadrature inputs at once are an error; an index
acts by its mode. A snap takes position and speed, one within 12 ticks of the last is an overrun; its entries land with the snap's tick. A serial word
sets the position the shorter way round. Arming, input changes, the zero timeout and the position read (R284-R302). -/
def Obligations.FeedbackEdges : Prop :=
  ∀ (s : State) (n : Isl) (k : Fin 2) (q : Req), s.Inv →
    let d := s.hw
    let h := d.fbk n k
    let st := FBK_STATUS n k
    let cnt := FBK_CNT n k
    let pos := d.pos n k
    let c := d.cpr n k
    let fire (m : Nat) := (d.fire n (0x178 + 4 * k + m)).transit
    let raised (j : Nat) : List RaiseEv :=
      if d.bit (FBK_IRQ_EN n k) j then (d.raise (islSrc n + 0x1C0 + 16 * k + j)).raised else d.raised
    let enters (time : Nat) (delta : Int) (neg : Bool) (d' : Dev) : Prop :=
      (d'.fbk n k).win = ((time, delta) :: (if h.neg = some !neg then [] else h.win)).take (d.f (FBK_SPD n k) FBK_SPD_AVG + 2) ∧
      (d'.fbk n k).neg = some neg ∧ (d'.fbk n k).newest = some time ∧ d'.b st FBK_STATUS_DIR = neg ∧ d'.b st FBK_STATUS_ZERO = false ∧
      d'.transit = (if h.neg = some !neg then fire 1 else d.transit)
    let counts (up sel : Bool) (time : Nat) (d' : Dev) : Prop :=
      let fwd := up != d.b (FBK_CFG n k) FBK_CFG_DIR_INV
      d'.pos n k = (if fwd then if c ≤ pos + 1 then 0 else pos + 1 else if pos = 0 then c - 1 else pos - 1) ∧
      d'.r (FBK_TURNS n k) = d.r (FBK_TURNS n k) + (if fwd ∧ c ≤ pos + 1 then 1 else if fwd = false ∧ pos = 0 then -1 else 0) ∧
      (sel = true → enters time (if fwd then 1 else -1) (!fwd) d') ∧ (sel = false → (d'.fbk n k).win = h.win ∧ d'.transit = d.transit) ∧
      d'.raised = d.raised ∧ d.Keeps [FBK_POS n k, FBK_TURNS n k, st] d'
    (∀ lv : BitVec 6, d.fbkOn n k = true → h.known = 63 → pos < c →
      let new (i : Nat) := nbit lv.toNat i
      let edge (i : Nat) := nbit h.acc i != new i
      let at_ (i : Nat) := tabGet 0 h.chg i
      (d.fbkSrc n k = 0 → edge 2 = false →
        (edge 0 != edge 1 → s.Runs (.acceptedEdge n k lv)
          (counts ((quadPlace lv.toNat + 4 - quadPlace h.acc) % 4 == 1) (!(d.b (FBK_SPD n k) FBK_SPD_SEL) || edge 0 && new 0)
            (if edge 0 then at_ 0 else at_ 1))) ∧
        (edge 0 = true → edge 1 = true → s.Runs (.acceptedEdge n k lv) fun d' => (d'.fbk n k).win = [] ∧ (d'.fbk n k).bad = true ∧
          d'.b st FBK_STATUS_QERR = true ∧ d'.f cnt FBK_CNT_ERR = min (d.f cnt FBK_CNT_ERR + 1) (2 ^ FBK_CNT_ERR.w - 1) ∧
          d'.raised = raised 2 ∧ d.Keeps [st, cnt] d')) ∧
      (d.fbkSrc n k = 1 → edge 2 = false → edge 0 = true → new 0 = true → s.Runs (.acceptedEdge n k lv) (counts (!(new 1)) true (at_ 0))) ∧
      (d.fbkSrc n k = 2 → edge 2 = false → edge 1 = false → edge 0 = true → new 0 = true →
        s.Runs (.acceptedEdge n k lv) (counts true true (at_ 0))) ∧
      (d.fbkSrc n k = 3 → edge 2 = false → ∀ a b, hallPlace (nfield h.acc 3 3) = some a → hallPlace (nfield lv.toNat 3 3) = some b →
        (b + 6 - a) % 6 = 1 ∨ (b + 6 - a) % 6 = 5 → s.Runs (.acceptedEdge n k lv)
          (counts (((b + 6 - a) % 6 == 1) != d.b (FBK_CFG n k) FBK_CFG_HALL_REV) true
            (max (if edge 3 then at_ 3 else 0) (max (if edge 4 then at_ 4 else 0) (if edge 5 then at_ 5 else 0))))) ∧
      (d.fbkSrc n k = 0 → edge 0 = false → edge 1 = false → edge 2 = true → new 2 = true → d.b (FBK_IDX_CTL n k) FBK_IDX_CTL_QUAL_EN = false →
        d.b st FBK_STATUS_REF = false → s.Runs (.acceptedEdge n k lv) fun d' => d'.b st FBK_STATUS_IDX_EVT = true ∧ d'.transit = fire 0 ∧
          d'.raised = raised 1 ∧ d.Keeps [st, FBK_POS n k, FBK_IDX_LATCH n k, FBK_IDX_CTL n k] d' ∧
          (d.f (FBK_IDX_CTL n k) FBK_IDX_CTL_MODE = 0 → d'.pos n k = pos) ∧
          (d.f (FBK_IDX_CTL n k) FBK_IDX_CTL_MODE = 1 → d'.r (FBK_POS n k) = d.r (FBK_IDX_POS n k) ∧ d'.b st FBK_STATUS_REF = true) ∧
          (d.f (FBK_IDX_CTL n k) FBK_IDX_CTL_MODE = 2 → d'.r (FBK_IDX_LATCH n k) = d.r (FBK_POS n k) ∧ d'.pos n k = pos) ∧
          (d.f (FBK_IDX_CTL n k) FBK_IDX_CTL_MODE = 3 → d.b (FBK_IDX_CTL n k) FBK_IDX_CTL_ARM = true →
            d'.r (FBK_POS n k) = d.r (FBK_IDX_POS n k) ∧ d'.b (FBK_IDX_CTL n k) FBK_IDX_CTL_ARM = false))) ∧
    (d.fbkOn n k = true → d.pendOf (inKey n (0x50 + k)) = [] →
      ((∀ p, h.snap = some p → p + 12 ≤ d.beam) → d.zeroSpeed n k d.beam = false → d.fbkSrc n k ≠ 4 → s.Runs (.snap n k) fun d' =>
        let j := h.win.length - 1
        let m : Int := (d.r (FBK_SPD_SCALE n k)).toNat * 2 ^ d.f (FBK_SPD n k) FBK_SPD_SH
        let sgn : Int := if d.b st FBK_STATUS_DIR then -1 else 1
        let age : Int := (d.beam : Int) - h.newest.getD d.beam
        let span : Int := ((h.win.head?.map (·.1)).getD 0 : Nat) - ((h.win.getLast?.map (·.1)).getD 0 : Nat)
        let raw : Int := if j = 0 then 0 else if span < age * j then sgn * (m / age) else sgn * (j * m / span)
        let v := clampInt (-2147483647) 2147483647 raw
        let base := (if d.fbkSettling n k then 2 else if h.bad then 0 else 1) + (if h.bad then 8 else 0) + 64 * d.f st FBK_STATUS_DIR
        d'.fbk n k = { h with snap := some d.beam, bad := false, idxBad := false, ent :=
          [pos, (d.r (FBK_TURNS n k)).toNat % 65536, (base + (if h.idxBad then 4 else 0) + 128 * d.f st FBK_STATUS_REF : Nat), v, j,
            (base + (if v = raw then 0 else 16) + (if j ≠ 0 ∧ span < age * j then 32 else 0) : Nat)] } ∧
        (∃ w : Fin 5, d'.agenda = d.agenda ++ [⟨d.beam + w, .snapEntriesRecorded n k⟩]) ∧ d.Keeps [] d') ∧
      ((∀ p, h.snap = some p → p + 12 ≤ d.beam) → d.zeroSpeed n k d.beam = true → s.Runs (.snap n k) fun d' =>
        d'.b st FBK_STATUS_ZERO = true ∧ (d'.fbk n k).win = [] ∧ (d'.fbk n k).snap = some d.beam ∧
        (d'.fbk n k).ent.drop 3 = [0, 0, (((if d.fbkSettling n k then 2 else if h.bad then 0 else 1) + (if h.bad then 8 else 0) +
          64 * d.f st FBK_STATUS_DIR + 128 : Nat) : Int)] ∧ d.Keeps [st] d') ∧
      (∀ p, h.snap = some p → p ≠ d.beam → d.beam < p + 12 → s.Runs (.snap n k) fun d' => d'.fbk n k = h ∧
        d'.b st FBK_STATUS_OVERRUN = true ∧ d'.f cnt FBK_CNT_OVERRUN = min (d.f cnt FBK_CNT_OVERRUN + 1) (2 ^ FBK_CNT_OVERRUN.w - 1) ∧
        d'.raised = raised 6 ∧ d.Keeps [st, cnt] d')) ∧
    (∀ (pv sv : Int) (pc pf sc sf t : Nat), h.ent = [pv, (pc : Int), (pf : Int), sv, (sc : Int), (sf : Int)] → h.snap = some t →
      (d.sset n).opened = false → s.Runs (.snapEntriesRecorded n k) fun d' =>
        d.Landed n (24 + 2 * k) pv (pc % 65536) (pf % 256) t d' ∧ d.Landed n (25 + 2 * k) sv (sc % 65536) (sf % 256) t d' ∧
        d'.fbk n k = { h with ent := [] } ∧ d'.transit = fire 2 ∧ d'.raised = raised 0 ∧
        d.Keeps (bankEntry n (24 + 2 * k) ++ bankEntry n (25 + 2 * k)) d') ∧
    (d.accessErr q (FBK_POS n k) 4 false = .none → s.Runs (.fbkPosRead q n k) fun d' => d'.Answers q (d.r (FBK_POS n k)) ∧
      d'.lat (latTurn n k) q = (d.r (FBK_TURNS n k)).toNat ∧ { d with latch := d'.latch }.Only [] d') ∧
    (∀ (w : Word) (t : Nat), d.fbkOn n k = true → d.fbkSrc n k = 4 →
      (w.getLsbD 31 = true → s.Runs (.serialWord n k w t) fun d' => d'.b st FBK_STATUS_SER_ERR = true ∧ (d'.fbk n k).bad = true ∧
        d'.f cnt FBK_CNT_ERR = min (d.f cnt FBK_CNT_ERR + 1) (2 ^ FBK_CNT_ERR.w - 1) ∧ d'.raised = raised 5 ∧ d.Keeps [st, cnt] d') ∧
      (w.getLsbD 31 = false → s.Runs (.serialWord n k w t) fun d' =>
        let bits := d.f (FBK_SER n k) FBK_SER_BITS
        let new := w.toNat % 2 ^ (if 1 ≤ bits ∧ bits ≤ 31 then bits else 31) % c
        let turn : Int := if 2 * new + c < 2 * pos then 1 else if 2 * pos + c < 2 * new then -1 else 0
        let delta : Int := (new : Int) - pos + turn * c
        d'.pos n k = new ∧ d'.r (FBK_TURNS n k) = d.r (FBK_TURNS n k) + wordOfInt turn ∧
        enters t delta (if delta = 0 then h.neg.getD false else decide (delta < 0)) d' ∧ d.Keeps [FBK_POS n k, FBK_TURNS n k, st] d')) ∧
    (d.accessErr q (FBK_IDX_CTL n k) 4 true = .none → s.Runs (.idxArm q n k) fun d' => d'.Answers q 0 ∧
      d'.b (FBK_IDX_CTL n k) FBK_IDX_CTL_ARM = true ∧ d'.b st FBK_STATUS_REF = false ∧ d.Only [FBK_IDX_CTL n k, st] d') ∧
    (∀ (pin : Fin 6) (lv : Bool), nbit h.rec_ pin ≠ lv → s.Runs (.feedbackInputChange n k pin lv) fun d' =>
      d'.fbk n k = { h with rec_ := nbitSet h.rec_ pin lv, chg := tabSet 0 h.chg pin d.beam, smp := tabSet 0 h.smp pin 0 } ∧
      { d with fbks := d'.fbks }.Only [] d') ∧
    (d.fbkOn n k = true → d.f (FBK_SPD n k) FBK_SPD_ZTO ≠ 0 → (∀ e, h.newest = some e → e + d.f (FBK_SPD n k) FBK_SPD_ZTO * 65536 ≤ d.beam) →
      s.Runs (.zeroSpeedTimeout n k) fun d' => d'.b st FBK_STATUS_ZERO = true ∧ d'.fbk n k = { h with win := [] } ∧
        d'.raised = (if d.b st FBK_STATUS_ZERO then d.raised else raised 4) ∧ { d with fbks := d'.fbks, raised := d'.raised }.Only [st] d')

/-! ### Filigree (spec/10_filigree.md) and the trace (spec/07_abacus_laws.md) -/

/-- The earliest event of a channel is stopped by its gate with GATED, by the spacing check with DROPPED and a count, or is delivered: a tick input
queues it with the tick of its action, or overruns at 15; a Filigree trip line acts at once; a commit input keeps its origin; a cell in latch
mode takes its table's value (R333-R351, R359). -/
def Obligations.FiligreeDelivery : Prop :=
  ∀ (s : State) (ch : Fin 1024) (late : Bool) (unseen : Nat) (t : Transit), s.Inv → s.hw.transitMin ch = some t → s.hw.lost = false →
    s.hw.b FLG_SPINE_STATUS FLG_SPINE_STATUS_ROOT_FAULT = false →
    let d := s.hw
    let o := t.origin
    let rec_ := d.beam + 2 + (if late then 1 else 0)
    let gone : Dev := { d with transit := dropFirst t d.transit }
    let sent : Dev := { gone with chLast := tabSet 0 d.chLast ch (o + 1) }
    let runs (P : Dev → Prop) := s.Runs (.channelEvent ch late unseen) P
    (d.gatePass ch o unseen = false → runs fun d' => d'.b (chanStat ch) FLG_CHS_GATED = true ∧ gone.Only [chanStat ch] d') ∧
    (d.gatePass ch o unseen = true → o + 1 < tabGet 0 d.chLast ch + 4 → runs fun d' => d'.b (chanStat ch) FLG_CHS_DROPPED = true ∧
      d'.f (chanStat ch) FLG_CHS_DROPS = min (d.f (chanStat ch) FLG_CHS_DROPS + 1) (2 ^ FLG_CHS_DROPS.w - 1) ∧
      { gone with raised := d'.raised }.Only [chanStat ch] d') ∧
    (d.gatePass ch o unseen = true → tabGet 0 d.chLast ch + 4 ≤ o + 1 →
      (d.islandConsumers ch = [] → d.spineConsumers ch = [] → d.cellConsumers ch = [] → runs fun d' => d' = sent) ∧
      (∀ (n : Isl) (k : Fin 16) (m : Fin 3), d.islandConsumers ch = [(n, 4 * k.val + m.val)] → d.spineConsumers ch = [] → d.cellConsumers ch = [] →
        d.unpowered (TLY_CTL n 0) = false →
        let key := inKey n (4 * k + m)
        let ps := d.pendOf key
        let dly := d.f (TLY_INDLY n k) TLY_INDLY_DLY
        (ps.length < 15 → runs fun d' =>
          let own := if dly = 0 then rec_ + 1 else if rec_ ≤ o + dly then o + dly else rec_ + 1
          let due := max own ((match ps.getLast? with | some e => e.due | none => tabGet 0 d.inLast key) + 1)
          d'.pendOf key = ps ++ [⟨due, decide (dly ≠ 0 ∧ o + dly < rec_), none⟩] ∧
          d'.agenda = d.agenda ++ [⟨due, .timerEventInput n k m⟩] ∧ { sent with pend := d'.pend, agenda := d'.agenda }.Only [] d') ∧
        (15 ≤ ps.length → runs fun d' => d'.b (FLG_IN_STATUS n (4 * k + m)) FLG_IN_STATUS_OVERRUN = true ∧
          { sent with raised := d'.raised }.Only [FLG_IN_STATUS n (4 * k + m)] d')) ∧
      (∀ (n : Isl) (f : Fin 4), d.islandConsumers ch = [(n, 0x40 + f.val)] → d.spineConsumers ch = [] → d.cellConsumers ch = [] →
        d.unpowered (PWM_TLINE n 0) = false → runs fun d' => d' = sent.lineOn n (20 + f)) ∧
      (∀ c : Core, d.islandConsumers ch = [] → d.spineConsumers ch = [c.val] → d.cellConsumers ch = [] → (d.pendOf (spineKey c)).length < 15 →
        runs fun d' => d'.pendOf (spineKey c) = d.pendOf (spineKey c) ++ [⟨rec_, false, some o⟩] ∧
          d'.agenda = d.agenda ++ [⟨rec_, .claspCommitInput c⟩] ∧ { sent with pend := d'.pend, agenda := d'.agenda }.Only [] d') ∧
      (∀ (n : Isl) (i : Fin 64), d.islandConsumers ch = [] → d.spineConsumers ch = [] → d.cellConsumers ch = [(n, i)] → d.cellLatch n i = true →
        d.f (FLG_CELL_CFG n i) FLG_CELL_CFG_FILT = 0 → runs fun d' => d'.b (FLG_CELL_CTL n i) FLG_CELL_CTL_Q = d.cellF n i (some ch) ∧
          (d.b (FLG_CELL_CTL n i) FLG_CELL_CTL_Q ≠ d.cellF n i (some ch) → d'.b (FLG_CELL_CTL n i) FLG_CELL_CTL_O = d.cellF n i (some ch)) ∧
          d.Keeps [FLG_CELL_CTL n i] d'))

/-- A cell's filter passes a change that lasted, with its output event and source by EDGE; FLG_FIRE puts an event on the named channel, or answers
the bus error of a channel the requester may not fire; a root fault sends every island to SAFE. Arming clears the trace's pointer and flags, disarming only
ARM; FORCE and the TTRIG input make a trigger pending in an armed trace (R49, R276, R277, R280, R333, R345, R350, R359). -/
def Obligations.FiligreeAndTrace : Prop :=
  ∀ (s : State) (n : Isl) (q : Req), s.Inv →
    let d := s.hw
    let ctl := ABX_TRC_CTL n
    let flags := ABX_TRC_STATUS n
    (∀ (i : Fin 64) (t : Nat) (v : Bool) (o : Nat), (d.cell n i).due = some (t, v, o) → t ≤ d.beam → d.lost = false →
      d.b (FLG_CELL_CTL n i) FLG_CELL_CTL_O ≠ v → s.Runs (.cellFilterOutput n i) fun d' =>
        let e := d.f (FLG_CELL_CFG n i) FLG_CELL_CFG_EDGE
        let out := decide (e = 3 ∨ e = (if v then 1 else 2))
        d'.b (FLG_CELL_CTL n i) FLG_CELL_CTL_O = v ∧ d'.cell n i = {} ∧
        d'.transit = (if out then (d.fireAt n (0x200 + i) t).transit else d.transit) ∧
        d'.raised = (if out && d.b (FLG_CELL_CTL n i) FLG_CELL_CTL_IRQ_EN then (d.raise (islSrc n + 0x280 + i)).raised else d.raised) ∧
        { d with cells := d'.cells, transit := d'.transit, raised := d'.raised, gateHist := d'.gateHist }.Only [FLG_CELL_CTL n i] d') ∧
    (∀ ch : Fin 1024, d.accessErr q FLG_FIRE 4 true = .none →
      (d.fireErr q ch = .none → s.Runs (.flgFire q ch) fun d' => d'.Answers q 0 ∧ d'.transit = d.transit ++ [⟨ch, d.beam⟩] ∧
        { d with transit := d'.transit }.Only [] d') ∧
      (d.fireErr q ch ≠ .none → s.Runs (.flgFire q ch) fun d' => d'.Answers q 0 (d.fireErr q ch) ∧ d.Only [] d')) ∧
    (d.b FLG_SPINE_STATUS FLG_SPINE_STATUS_ROOT_FAULT = false → s.Runs .rootFault fun d' =>
      d'.b FLG_SPINE_STATUS FLG_SPINE_STATUS_ROOT_FAULT = true ∧ (∀ m, d'.inRun m = false) ∧
      ∃ r, r ∈ d'.raised ∧ r.src = 0x0020 ∧ r.ts = d.beam) ∧
    (d.accessErr q ctl 4 true = .none →
      (d.armed n = false → s.Runs (.traceArm q n) fun d' => d'.Answers q 0 ∧ d'.armed n = true ∧
        d'.f (ABX_TRC_PTR n) ABX_TRC_PTR_WPTR = 0 ∧ d'.b flags ABX_TRC_STATUS_TRIGGERED = false ∧ d'.b flags ABX_TRC_STATUS_WRAPPED = false ∧
        d'.trace n = { seq := (d.trace n).seq } ∧ { d with traces := d'.traces }.Only [ctl, flags, ABX_TRC_PTR n] d') ∧
      s.Runs (.traceDisarm q n) fun d' => d'.Answers q 0 ∧ d'.armed n = false ∧ d.Only [ctl] d') ∧
    (let pending (d' : Dev) : Prop := d'.trace n = { d.trace n with trig := true }
     d.armed n = true → d.b flags ABX_TRC_STATUS_TRIGGERED = false →
      (d.accessErr q (ABX_TRC_CMD n) 4 true = .none → s.Runs (.traceForce q n) fun d' => d'.Answers q 0 ∧ pending d' ∧
        { d with traces := d'.traces }.Only [] d') ∧
      (d.traceSel n 0 = true → s.Runs (.traceTriggerInput n) fun d' => pending d' ∧ d.Keeps [] d'))

/-! ### The Pendant (spec/14_pendant.md) -/

/-- A doorbell raises its source from 0x8000 on. The next raise in order is written to the ring that its routing entry owns, counted as a drop where
the ring has no room, and as unrouted where no entry takes it. A claim answers the oldest record of the highest priority above the running one and
pushes its priority, an EOI pops; the time condition asserts the line; enabling and disabling a ring empty it (R465, R468-R482). -/
def Obligations.PendantRecords : Prop :=
  ∀ (s : State) (c : Core) (q : Req), s.Inv →
    let d := s.hw
    let g := d.ring c
    let cfg := PND_RING_CFG c
    let head := d.f (PND_RING_PTR c) PND_RING_PTR_HEAD
    let size := 2 ^ d.f cfg PND_RING_CFG_LOG2SIZE
    let base := 16 * d.f (PND_RING_BASE c) PND_RING_BASE_BASE
    let cpu := PND_CPU_STATUS c
    let shows (st : List Nat) (d' : Dev) : Prop := (d'.ring c).stack = st ∧
      d'.r (PND_RPRIO c) = BitVec.ofNat 32 (st.foldl (fun m p => m ||| 2 ^ p) 0 * 65536 + st.length * 256 + st.headD 16)
    (∀ pay src : BitVec 16, d.accessErr q PND_DOORBELL 4 true = .none →
      (0x8000 ≤ src.toNat → s.Runs (.pndDoorbell q pay src) fun d' => d'.Answers q 0 ∧
        d'.raised = d.raised ++ [⟨src.toNat, pay.toNat, d.beam, d.routeOf src.toNat⟩] ∧ { d with raised := d'.raised }.Only [] d') ∧
      (src.toNat < 0x8000 → s.Runs (.pndDoorbell q pay src) fun d' => d'.Answers q 0 .priv ∧ d.Only [] d')) ∧
    (∀ e rest, firstRaise d.raised = some (e, rest) →
      (e.route / 256 % 2 = 1 → e.route % 16 = c → d.b cfg PND_RING_CFG_EN = true → g.recs.length < size → placeOf (base + 16 * head) = .mem →
        s.Runs .recordAppend fun d' =>
          let a := base + 16 * head
          let prio := e.route / 16 % 16
          let next := (head + 1) % size
          d'.loadN a 4 = ((if g.lap then 0x100000 else 0) + prio * 0x10000 + e.src) % 2 ^ 32 ∧
          d'.loadN (a + 4) 4 = (e.payload * 65536 + e.ts / 2 ^ 32 % 65536) % 2 ^ 32 ∧ d'.loadN (a + 8) 4 = e.ts % 2 ^ 32 ∧
          d'.loadN (a + 12) 4 = g.before % 2 ^ 32 ∧ (∀ x, x < a ∨ a + 16 ≤ x → d'.byte x = d.byte x) ∧
          d'.ring c = { g with recs := g.recs ++ [⟨head, e.src, prio, e.ts, false⟩], lap := if next = 0 then !g.lap else g.lap, before := 0,
                               reported := false } ∧
          d'.f (PND_RING_PTR c) PND_RING_PTR_HEAD = next % 65536 ∧ d'.f (PND_RING_FILL c) PND_RING_FILL_FILL = (g.recs.length + 1) % 2 ^ 17 ∧
          d'.f cpu PND_CPU_STATUS_CLAIMABLE = (d'.claimable c).length % 2 ^ 17 ∧ d'.raised = rest ∧
          d.Keeps [PND_RING_PTR c, PND_RING_FILL c, cpu] d') ∧
      (e.route / 256 % 2 = 1 → e.route % 16 = c → d.b cfg PND_RING_CFG_EN = false ∨ size ≤ g.recs.length → s.Runs .recordAppend fun d' =>
        d'.r (PND_DROPS c) = (if d.r (PND_DROPS c) = 0xFFFFFFFF then 0xFFFFFFFF else d.r (PND_DROPS c) + 1) ∧
        d'.ring c = { g with before := min (g.before + 1) 65535, reported := true } ∧
        d'.raised = (if g.reported then rest else rest ++ [⟨0x0030, c, d.beam, d.routeOf 0x0030⟩]) ∧
        { d with rings := d'.rings, raised := d'.raised }.Only [PND_DROPS c] d') ∧
      (e.route / 256 % 2 = 0 ∨ 9 ≤ e.route % 16 → s.Runs .recordAppend fun d' =>
        d'.r PND_UNROUTED = (if d.r PND_UNROUTED = 0xFFFFFFFF then 0xFFFFFFFF else d.r PND_UNROUTED + 1) ∧
        d'.f PND_BLK_STATUS PND_BLK_STATUS_LAST_UNROUTED = e.src % 65536 ∧ d'.b PND_BLK_STATUS PND_BLK_STATUS_UNROUTED = true ∧
        d'.raised = (if e.src = 0x0031 then rest else rest ++ [⟨0x0031, 0, d.beam, d.routeOf 0x0031⟩]) ∧
        { d with raised := d'.raised }.Only [PND_UNROUTED, PND_BLK_STATUS] d')) ∧
    (let rs := d.claimable c
     let time := d.f (PND_COAL c) PND_COAL_TIME
     let wanted := decide (rs ≠ []) && (decide (max 1 (d.f (PND_COAL c) PND_COAL_COUNT) ≤ rs.length) || decide (time = 0) ||
       rs.head?.any (fun r => decide (r.ts + 500 * min time 1000 ≤ d.beam)) ||
       (d.b (PND_COAL c) PND_COAL_URG_EN && rs.any fun r => decide (d.f (PND_COAL c) PND_COAL_URGENT ≤ r.prio)))
     wanted = true → s.Runs (.coalesceTimeExpiry c) fun d' => d'.b cpu PND_CPU_STATUS_LINE = true ∧
       d'.f cpu PND_CPU_STATUS_CLAIMABLE = rs.length % 2 ^ 17 ∧ d.Only [cpu] d') ∧
    (d.accessErr c 0xE0000000 4 false = .none →
      (d.claimable c = [] → ∀ bad, s.Runs (.pndClaim c bad) fun d' => d'.Answers (c.castLE (by decide)) 0x80000000 ∧ d.Only [] d') ∧
      (∀ r bad, bestRec (d.claimable c) = some r → s.Runs (.pndClaim c bad) fun d' =>
        let w (k : Nat) : Word := if bad then 0 else BitVec.ofNat 32 (d.loadN (base + 16 * r.idx + k) 4)
        d'.Answers (c.castLE (by decide)) (BitVec.ofNat 32 ((if bad then 0x40000000 else 0) + (if d.recLap c r.idx then 0x100000 else 0) +
          r.prio * 0x10000 + r.src)) ∧
        d'.r (PND_CLM_W1 c) = w 4 ∧ d'.r (PND_CLM_W2 c) = w 8 ∧ d'.r (PND_CLM_W3 c) = w 12 ∧ shows (r.prio :: g.stack) d' ∧
        (d'.ring c).recs = dropClaimed (g.recs.map fun x => if x.idx = r.idx then { x with claimed := true } else x) ∧
        d'.f (PND_RING_FILL c) PND_RING_FILL_FILL = (d'.ring c).recs.length % 2 ^ 17 ∧
        d'.f (PND_RING_PTR c) PND_RING_PTR_TAIL = (match (d'.ring c).recs with | x :: _ => x.idx | [] => head) % 65536 ∧
        d.Keeps [PND_CLM_W1 c, PND_CLM_W2 c, PND_CLM_W3 c, PND_RPRIO c, PND_RING_PTR c, PND_RING_FILL c, cpu] d')) ∧
    (d.accessErr c 0xE0000010 4 true = .none →
      (∀ p st, g.stack = p :: st → s.Runs (.pndEoi c) fun d' => d'.Answers (c.castLE (by decide)) 0 ∧ shows st d' ∧
        (d'.ring c).recs = g.recs ∧ d.Keeps [PND_RPRIO c, cpu] d') ∧
      (g.stack = [] → s.Runs (.pndEoi c) fun d' => d'.Answers (c.castLE (by decide)) 0 ∧ d'.r cpu = fput PND_CPU_STATUS_EOI_EMPTY (d.r cpu) 1 ∧ d.Only [cpu] d')) ∧
    (d.accessErr q cfg 4 true = .none →
      (d.b cfg PND_RING_CFG_EN = false → s.Runs (.ringEnable q c) fun d' => d'.Answers q 0 ∧ d'.b cfg PND_RING_CFG_EN = true ∧
        d'.ring c = { g with recs := [], lap := true } ∧ d'.r (PND_RING_PTR c) = 0 ∧ d'.f (PND_RING_FILL c) PND_RING_FILL_FILL = 0 ∧
        { d with rings := d'.rings }.Only [cfg, PND_RING_PTR c, PND_RING_FILL c, cpu] d') ∧
      s.Runs (.ringDisable q c) fun d' => d'.Answers q 0 ∧ d'.b cfg PND_RING_CFG_EN = false ∧ d'.ring c = { g with recs := [] } ∧
        d'.f (PND_RING_PTR c) PND_RING_PTR_TAIL = head ∧ d'.f (PND_RING_FILL c) PND_RING_FILL_FILL = 0 ∧
        { d with rings := d'.rings }.Only [cfg, PND_RING_PTR c, PND_RING_FILL c, cpu] d')

/-! ### Arrays, scrubbing and arbitration (spec/15_memory_ecc_arbitration.md) -/

/-- One slot at a spine port goes to the requester with the higher credit counter, ties to the lower number; the loser backs off. A read that finds a
correctable error is counted and logged, an uncorrectable one is read again and counted as transient or lasting, which ends with UE. A window
refills the counters; a credit is refused above a sum of 64. The scrubber reads word by word as requester 15 and reports a pass
(R487, R492-R497, R499-R507). -/
def Obligations.ArraysAndArbiter : Prop :=
  ∀ (s : State) (q : Req), s.Inv →
    let d := s.hw
    let finds (a : Fin 15) (x : Word) (req : Nat) (e1 e2 : Ecc) (d' : Dev) : Prop :=
      let ce := d.f (ECC_CE_CNT a) ECC_CE_CNT_CE
      (e1 = .clean → d'.r (ECC_CE_CNT a) = d.r (ECC_CE_CNT a) ∧ d'.r (ECC_UE_CNT a) = d.r (ECC_UE_CNT a) ∧ d'.raised = d.raised) ∧
      (e1 = .bits1 ∨ e1 = .bits2 → d'.f (ECC_CE_CNT a) ECC_CE_CNT_CE = min (ce + 1) 4294967295 ∧
        (d.f (ECC_CE_THR a) ECC_CE_THR_THR = 0 → d'.raised = d.raised) ∧
        (ce < 4294967295 → d.f (ECC_CE_THR a) ECC_CE_THR_THR ≠ 0 → (ce + 1) % d.f (ECC_CE_THR a) ECC_CE_THR_THR = 0 →
          d'.raised = (d.raise 0x0008 a).raised)) ∧
      (e1 = .uncorrectable → e2 = .uncorrectable → d'.f (ECC_UE_CNT a) ECC_UE_CNT_LASTING = min (d.f (ECC_UE_CNT a) ECC_UE_CNT_LASTING + 1) 65535 ∧
        d'.f (ECC_UE_ADDR a) ECC_UE_ADDR_ADDR = x.toNat / 8 ∧ d'.bit ECC_STATUS (16 + a) = true ∧
        d'.raised = (d.raise 0x000A (req * 256 + a)).raised) ∧
      (e1 = .uncorrectable → e2 ≠ .uncorrectable → d'.f (ECC_UE_CNT a) ECC_UE_CNT_TRANSIENT = min (d.f (ECC_UE_CNT a) ECC_UE_CNT_TRANSIENT + 1) 65535 ∧
        d'.raised = (d.raise 0x0009 (req * 256 + a)).raised) ∧
      (∀ e, (e1 = .bits1 ∨ e1 = .bits2 ∨ e1 = .uncorrectable ∧ e2 ≠ .uncorrectable) → d.eccEntry a x.toNat = none → d.eccFree a = some e →
        d'.b (ECC_LOG_ADDR a e) ECC_LOG_ADDR_VALID = true ∧ d'.f (ECC_LOG_ADDR a e) ECC_LOG_ADDR_ADDR = x.toNat / 8 ∧
        d'.f (ECC_LOG_INFO a e) ECC_LOG_INFO_HITS = 1 ∧ d'.f (ECC_LOG_INFO a e) ECC_LOG_INFO_REQ = req ∧
        d'.f (ECC_LOG_INFO a e) ECC_LOG_INFO_BITS = (if e1 = .bits1 then 1 else if e1 = .bits2 then 2 else 3)) ∧
      ((e1 = .bits1 ∨ e1 = .bits2) → d.eccEntry a x.toNat = none → d.eccFree a = none → d'.bit ECC_STATUS a = true)
    let eccRegs (a : Nat) : List Nat := [ECC_CE_CNT a, ECC_UE_CNT a, ECC_UE_ADDR a, ECC_STATUS] ++
      ((List.range 16).map (ECC_LOG_ADDR a) ++ (List.range 16).map (ECC_LOG_INFO a))
    (∀ (a : Fin 15) (x : Word) (w : Fin 16) (waited : Nat) (e1 e2 : Ecc),
      let p := portOf a x.toNat
      let acc : ArrayAcc := ⟨a, x, .read, false, waited, e1, e2⟩
      d.backedOff p w = false → s.Runs (.arrayAccess [w] acc) fun d' => finds a x w e1 e2 d' ∧
        d'.counter p w = d.counter p w - (if e1 = .uncorrectable then 2 else 1) ∧
        d'.f (ARB_GRANTS w) ARB_GRANTS_CNT = min (d.f (ARB_GRANTS w) ARB_GRANTS_CNT + 1) 4294967295 ∧
        d'.f (ARB_MAXWAIT w) ARB_MAXWAIT_CNT = max waited (d.f (ARB_MAXWAIT w) ARB_MAXWAIT_CNT) % 4294967296 ∧
        (e1 = .uncorrectable → e2 = .uncorrectable → w < 12 → tabGet {} d'.bus w = ⟨0, .ue⟩) ∧
        d.Keeps (ARB_GRANTS w :: ARB_MAXWAIT w :: eccRegs a) d') ∧
    (∀ (a : Fin 15) (x : Word) (w l : Fin 16) (waited : Nat),
      let p := portOf a x.toNat
      w ≠ l → d.backedOff p w = false → d.backedOff p l = false → d.counter p l < d.counter p w ∨ d.counter p l = d.counter p w ∧ w < l →
        ∀ waiting, waiting ∈ [[w, l], [l, w]] → s.Runs (.arrayAccess waiting ⟨a, x, .read, false, waited, .clean, .clean⟩) fun d' =>
          d'.counter p w = d.counter p w - 1 ∧ d'.counter p l = d.counter p l ∧
          tabGet 0 d'.backoff (portKey p l) = min 64 (2 ^ tabGet 0 d.losses (portKey p l)) ∧ d'.backedOff p w = false ∧
          d.Keeps [ARB_GRANTS w, ARB_MAXWAIT w] d') ∧
    (∀ (a : Fin 15) (x : Word) (e1 e2 : Ecc), a.val < 6 ∨ a.val = 14 → s.Runs (.arrayAccess [] ⟨a, x, .read, false, 0, e1, e2⟩) fun d' =>
      finds a x (if a.val < 6 then a else 8) e1 e2 d' ∧ d.Keeps (eccRegs a) d') ∧
    (d.ticking = true → d.beam % 128 = 0 → s.Runs .arbWindowStart fun d' => (∀ (p : Nat) (r : Fin 16), 1 ≤ p →
      d'.counter p r = d.f (ARB_CREDIT r) ARB_CREDIT_CREDIT ∧ d'.backedOff p r = false) ∧
      { d with credits := d'.credits, losses := d'.losses, backoff := d'.backoff }.Only [] d') ∧
    (∀ (r : Fin 16) (v : BitVec 8), d.accessErr q (ARB_CREDIT r) 4 true = .none →
      let sum := ((List.range 16).map fun i => if i = r.val then v.toNat else d.f (ARB_CREDIT i) ARB_CREDIT_CREDIT).sum
      (sum ≤ 64 → s.Runs (.arbCreditWrite q r v) fun d' => d'.Answers q 0 ∧ d'.f (ARB_CREDIT r) ARB_CREDIT_CREDIT = v.toNat ∧
        d'.f ARB_STATUS ARB_STATUS_SUM = sum ∧ d.Only [ARB_CREDIT r, ARB_STATUS] d') ∧
      (64 < sum → s.Runs (.arbCreditWrite q r v) fun d' => d'.Answers q 0 ∧ d'.r ARB_STATUS = fput ARB_STATUS_BAD_SUM (d.r ARB_STATUS) 1 ∧
        d.Only [ARB_STATUS] d')) ∧
    (∀ (a : Fin 15) (x : Word) (e1 e2 : Ecc), d.b ECC_SCRUB_CTL ECC_SCRUB_CTL_EN = true → d.scrubPos = some (a.val, x.toNat) →
      d.unpowered (arrayPlace a x.toNat) = false →
      (x.toNat + 8 < arrayBase a + arraySize a → s.Runs (.scrubRead e1 e2) fun d' => finds a x 15 e1 e2 d' ∧
        d'.f ECC_SCRUB_STATUS ECC_SCRUB_STATUS_ARRAY = a ∧ d'.r ECC_SCRUB_POS = x + 8 ∧
        d.Keeps (ECC_SCRUB_STATUS :: ECC_SCRUB_POS :: eccRegs a) d') ∧
      (arrayBase a + arraySize a ≤ x.toNat + 8 → d.scrubNext (a + 1) = none → s.Runs (.scrubRead .clean .clean) fun d' =>
        let n := min (d.f ECC_SCRUB_STATUS ECC_SCRUB_STATUS_PASSES + 1) 65535
        d'.f ECC_SCRUB_STATUS ECC_SCRUB_STATUS_PASSES = n ∧ d'.raised = (d.raise 0x000B n).raised ∧ d'.scrubAt = d.beam ∧
        d.Keeps [ECC_SCRUB_STATUS, ECC_SCRUB_POS] d')) ∧
    (d.b ECC_SCRUB_CTL ECC_SCRUB_CTL_EN = true →
      d.scrubAt + min 604800 (max 1 (d.f ECC_SCRUB_CTL ECC_SCRUB_CTL_INT)) * 500000000 ≤ d.beam → s.Runs .scrubLate fun d' =>
        d'.b ECC_SCRUB_STATUS ECC_SCRUB_STATUS_SCRUB_LATE = true ∧ d.Only [ECC_SCRUB_STATUS] d')

/-! ### DMA (spec/16_dma.md) and the debug registers of the cores (spec/13_core_execution.md) -/

/-- Arming takes the descriptor pointer, a trigger makes an armed idle channel pending or sets TRG_OVR, disarming ends a service with STOPPED. An idle
engine takes its lowest pending channel and loads its descriptor; a beat copies its bytes and advances, one with a misaligned or refused access halts
the channel with the error's address, direction and code; the end of a descriptor ends the service with DONE or goes on with the next
(R513-R525). -/
def Obligations.DmaTransfers : Prop :=
  ∀ (s : State) (e : Fin 2) (c : Fin 16) (q : Req), s.Inv →
    let d := s.hw
    let h := d.dmach e c
    let r : Req := if e = 0 then 9 else 10
    let ctl := DMA_CH_CTL e c
    let st := DMA_CH_STATUS e c
    let cur := DMA_CH_CUR e c
    let eng := DMA_ENG_STATUS e
    let armed := d.b ctl DMA_CH_CTL_ARM
    let trig := if fget DMA_CH_CFG_TRIG h.cfg = 3 then 0 else fget DMA_CH_CFG_TRIG h.cfg
    let idle := !(d.b st DMA_CH_STATUS_PENDING) && !(d.b st DMA_CH_STATUS_ACTIVE)
    let triggered (d' : Dev) : Prop :=
      if armed && idle then d'.b st DMA_CH_STATUS_PENDING = true ∧ d'.b st DMA_CH_STATUS_TRG_OVR = d.b st DMA_CH_STATUS_TRG_OVR
      else d'.b st DMA_CH_STATUS_PENDING = d.b st DMA_CH_STATUS_PENDING ∧ d'.b st DMA_CH_STATUS_TRG_OVR = true
    let ended (d' : Dev) : Prop := d'.b st DMA_CH_STATUS_ACTIVE = false ∧ d'.dmaServed e = none ∧ d'.r eng = 0
    let readable (a : Nat) : Prop := ∀ k : Fin 4, d.accessErr r (a + 4 * k) 4 false = .none ∧ placeOf (d.xaddr r (a + 4 * k)) = .mem
    let word (a k : Nat) : Nat := d.loadN (d.xaddr r (a + 4 * k)) 4
    let loads (cfg : Word) (a : Nat) (d' : Dev) : Prop := d'.dmach e c = ⟨cfg, true, word a 0, word a 1, word a 2, word a 3 / 16,
      word a 2 / 2 ^ 16 % 64 + 1⟩ ∧ d'.f (DMA_CH_REM e c) DMA_CH_REM_REM = word a 2 % 65536 + 1
    (d.accessErr q ctl 4 true = .none →
      (armed = false → d.b st DMA_CH_STATUS_ERR = false → s.Runs (.dmaArm q e c) fun d' => d'.Answers q 0 ∧ d'.b ctl DMA_CH_CTL_ARM = true ∧
        d'.f cur DMA_CH_CUR_ADDR = d.f (DMA_CH_DESC e c) DMA_CH_DESC_ADDR ∧ d'.dmach e c = { cfg := d.r (DMA_CH_CFG e c) } ∧
        { d with dma := d'.dma }.Only [ctl, cur] d') ∧
      (s.Runs (.dmaDisarm q e c) fun d' => d'.Answers q 0 ∧ d'.b ctl DMA_CH_CTL_ARM = false ∧
        (d.b st DMA_CH_STATUS_ACTIVE = true → ended d' ∧ d'.b st DMA_CH_STATUS_STOPPED = true) ∧
        (d.b st DMA_CH_STATUS_ACTIVE = false → d'.b st DMA_CH_STATUS_PENDING = false) ∧
        { d with dmaBusy := d'.dmaBusy }.Only [ctl, st, eng] d') ∧
      s.Runs (.dmaGo q e c) fun d' => d'.Answers q 0 ∧ triggered d' ∧ d.Only [st] d') ∧
    (d.accessErr q st 4 true = .none → s.Runs (.dmaErrClear q e c) fun d' => d'.Answers q 0 ∧ d'.b st DMA_CH_STATUS_ERR = false ∧
      d'.r (DMA_ERR_ADDR e c) = 0 ∧ d'.r (DMA_ERR_DIR e c) = 0 ∧ d.Only [st, DMA_ERR_ADDR e c, DMA_ERR_DIR e c] d') ∧
    (d.powered (4 + e) = true →
      (trig = 1 → d.pendOf (spineKey (0x10 + 16 * e + c)) = [] → s.Runs (.dmaEventTrigger e c) fun d' => triggered d' ∧ d.Keeps [st] d') ∧
      (trig = 2 → armed = true → idle = true → d.dmaLine (fget DMA_CH_CFG_LINE h.cfg) = true → s.Runs (.dmaLineTrigger e c) fun d' =>
        d'.b st DMA_CH_STATUS_PENDING = true ∧ d.Only [st] d') ∧
      (d.dmaServed e = none → d.b st DMA_CH_STATUS_PENDING = true → (∀ k : Fin 16, k < c → d.b (DMA_CH_STATUS e k) DMA_CH_STATUS_PENDING = false) →
        let a := 16 * d.f cur DMA_CH_CUR_ADDR
        h.loaded = false → readable a → s.Runs (.dmaServiceStart e none) fun d' => loads (d.r (DMA_CH_CFG e c)) a d' ∧
          d'.b st DMA_CH_STATUS_PENDING = false ∧ d'.b st DMA_CH_STATUS_ACTIVE = true ∧ d'.dmaServed e = some c.val ∧
          d'.b eng DMA_ENG_STATUS_BUSY = true ∧ d'.f eng DMA_ENG_STATUS_CH = c ∧
          { d with dma := d'.dma, dmaBusy := d'.dmaBusy }.Only [st, eng, DMA_CH_REM e c] d') ∧
      (d.dmaServed e = some c.val → h.loaded = true →
        let n := 2 ^ (h.ctl / 2 ^ 22 % 4)
        let left := d.f (DMA_CH_REM e c) DMA_CH_REM_REM
        let sx := d.xaddr r h.src
        let dx := d.xaddr r h.dst
        (left ≠ 0 → h.src % n = 0 → d.accessErr r h.src n false = .none → placeOf sx = .mem →
          (h.dst % n = 0 → d.accessErr r h.dst n true = .none → placeOf dx = .mem → s.Runs (.dmaBeat e false false) fun d' =>
            d'.mem = (d.storeN dx (d.loadN sx n) n).mem ∧ d'.f (DMA_CH_REM e c) DMA_CH_REM_REM = left - 1 ∧
            d'.dmach e c = { h with src := if nbit h.ctl 24 then (h.src + n) % 2 ^ 32 else h.src,
                                    dst := if nbit h.ctl 25 then (h.dst + n) % 2 ^ 32 else h.dst, burst := h.burst - 1 } ∧
            (trig = 2 ∧ h.burst ≤ 1 ∧ left ≠ 1 → ended d') ∧
            (¬(trig = 2 ∧ h.burst ≤ 1 ∧ left ≠ 1) → d'.r st = d.r st ∧ d'.r eng = d.r eng) ∧
            { d with mem := d'.mem, dma := d'.dma, dmaBusy := d'.dmaBusy }.Only [DMA_CH_REM e c, st, eng] d') ∧
          (∀ x, x ≠ .none → (if h.dst % n ≠ 0 then .decode else d.accessErr r h.dst n true) = x → s.Runs (.dmaBeat e false false) fun d' =>
            d'.b st DMA_CH_STATUS_ERR = true ∧ d'.b ctl DMA_CH_CTL_ARM = false ∧ ended d' ∧ d'.r (DMA_ERR_ADDR e c) = BitVec.ofNat 32 h.dst ∧
            d'.f (DMA_ERR_DIR e c) DMA_ERR_DIR_DIR = 1 ∧ d'.f (DMA_ERR_DIR e c) DMA_ERR_DIR_BERR = berrCode x ∧
            d'.raised = (d.raise (0x70 + e) (c + 256 * berrCode x)).raised ∧ d'.mem = d.mem ∧
            d.Keeps [st, ctl, eng, DMA_ERR_ADDR e c, DMA_ERR_DIR e c] d')) ∧
        (left = 0 →
          let fires (d' : Dev) : Prop := d'.transit = if nbit h.ctl 28 then (d.fire 7 (0x40 + 16 * e + c)).transit else d.transit
          (nbit h.ctl 27 = true → s.Runs (.dmaDescriptorEnd e none) fun d' => fires d' ∧ d'.b ctl DMA_CH_CTL_ARM = false ∧
            d'.b st DMA_CH_STATUS_DONE = true ∧ ended d' ∧ d'.dmach e c = { h with loaded := false } ∧ d.Keeps [ctl, st, eng] d') ∧
          (nbit h.ctl 27 = false → trig = 2 → s.Runs (.dmaDescriptorEnd e none) fun d' => fires d' ∧ ended d' ∧
            d'.f cur DMA_CH_CUR_ADDR = h.next % 2 ^ 28 ∧ d'.dmach e c = { h with loaded := false } ∧ d.Keeps [cur, st, eng] d') ∧
          (nbit h.ctl 27 = false → trig ≠ 2 → h.next < 2 ^ 28 → readable (16 * h.next) → s.Runs (.dmaDescriptorEnd e none) fun d' => fires d' ∧
            d'.f cur DMA_CH_CUR_ADDR = h.next ∧ loads h.cfg (16 * h.next) d' ∧ d.Keeps [cur, DMA_CH_REM e c] d'))))

/-- HALT_REQ halts a running core that the debug port may address and puts the device in HALT with a record of its mode; RESUME and STEP let a
halted core execute, STEP for one unit; DCINV and ICINV empty the core's own cache and its loop buffer (R423, R427, R460, R461, R619, R624). -/
def Obligations.CoreDebug : Prop :=
  ∀ (s : State) (c : Core), s.Inv →
    let d := s.hw
    let dbg := DBG_STATUS c
    let free (d' : Dev) : Prop := d'.halted c = false ∧ d'.b (CORE_STATUS c) CORE_STATUS_HALTED = false ∧ d'.pc c = d.pc c
    (d.debugOpen c = true →
      (d.coreRuns c = true → d.mode = mRun ∨ d.mode = mSetup ∨ d.mode = mSafe → s.Runs (.haltReq c) fun d' => d'.halted c = true ∧
        d'.f dbg DBG_STATUS_REASON = 1 ∧ d'.b (CORE_STATUS c) CORE_STATUS_HALTED = true ∧ d'.mode = mHalt ∧
        d'.power.rec_ = some (d.mode, d.safeMask) ∧ d'.pc c = d.pc c ∧ (∀ n, d'.inRun n = false)) ∧
      (d.halted c = true →
        s.Runs (.resume c) (fun d' => free d' ∧ (d'.core c).step1 = (d.core c).step1) ∧
        s.Runs (.step c) (fun d' => free d' ∧ (d'.core c).step1 = true) ∧
        (∀ m, d.mode = mHalt → d.power.rec_ = some (m, d.safeMask) → (∀ k : Core, k ≠ c → d.halted k = false) → m < 5 →
          s.Runs (.resume c) fun d' => d'.mode = m ∧ d'.power.rec_ = none))) ∧
    (d.debugOpen c = false → s.Runs (.haltReq c) (fun d' => d' = d) ∧ s.Runs (.resume c) (fun d' => d' = d) ∧ s.Runs (.step c) fun d' => d' = d) ∧
    (d.accessErr c 0xE0002000 4 true = .none →
      s.Runs (.dcinv c) (fun d' => (∀ x, tabGet 0 d'.dcache (latchKey x c) = 0) ∧
        (∀ (k : Core) x, k ≠ c → tabGet 0 d'.dcache (latchKey x k) = tabGet 0 d.dcache (latchKey x k)) ∧ (d'.core c).loop = none ∧ d.Keeps [] d') ∧
      s.Runs (.icinv c) (fun d' => (∀ x, tabGet 0 d'.icache (latchKey x c) = 0) ∧
        (∀ (k : Core) x, k ≠ c → tabGet 0 d'.icache (latchKey x k) = tabGet 0 d.icache (latchKey x k)) ∧ (d'.core c).loop = none ∧ d.Keeps [] d'))

/-! ### Register writes (spec/00_scope.md, spec/02_timing_model.md) -/

/-- A refused write only answers its bus error. Memory takes the bytes; an RW field takes its value; a W1C bit clears unless it was set on this tick;
an RWS register becomes pending, a group of a holding pair is held for its window and joined by the other, and groups that a boundary parts are reported as
split; a locked write keeps the RWL field and is reported, or answers LOCKED (R3, R13-R16, R59, R145-R147). -/
def Obligations.RegisterWrites : Prop :=
  ∀ (s : State) (q : Req), s.Inv →
    let d := s.hw
    (∀ (a : Nat) (size : Fin 9) (v : Word),
      (∀ x, x ≠ .none → d.accessErr q a size true = x → s.Runs (.registerWrite q a size v) fun d' => d'.Answers q 0 x ∧ d.Only [] d') ∧
      (d.accessErr q a size true = .none → placeOf (d.xaddr q a) = .mem → s.Runs (.registerWrite q a size v) fun d' => d'.Answers q 0 ∧
        d'.mem = (d.storeN (d.xaddr q a) v.toNat size).mem ∧ { d with mem := d'.mem, dcache := d'.dcache }.Only [] d' ∧
        (9 ≤ q.val → d'.dcache = d.dcache))) ∧
    (∀ (k : Fin 16) (v : Word), d.accessErr q (ECC_CE_THR k) 4 true = .none → s.Runs (.registerWrite q (ECC_CE_THR k) 4 v) fun d' => d'.Answers q 0 ∧
      d'.f (ECC_CE_THR k) ECC_CE_THR_THR = v.toNat % 65536 ∧ d.Only [ECC_CE_THR k] d') ∧
    (∀ (n : Isl) (t : Fin 16) (v : Word), d.accessErr q (TLY_STATUS n t) 4 true = .none → s.Runs (.registerWrite q (TLY_STATUS n t) 4 v) fun d' =>
      d'.Answers q 0 ∧ d.Only [TLY_STATUS n t] d' ∧ ∀ i : Fin 32, d'.bit (TLY_STATUS n t) i = (d.bit (TLY_STATUS n t) i &&
        !(decide (1 ≤ i.val ∧ i.val ≤ 8) && v.getLsbD i && !(nbit (tabGet 0 d.fresh (TLY_STATUS n t)) i)))) ∧
    (∀ (n : Isl) (p : Fin 16) (reg : Fin 6) (v : Word), d.accessErr q (groupReg n p reg) 4 true = .none → d.frameOwned n (groupReg n p reg) = false →
      d.shadow = [] →
      let a := groupReg n p reg
      let duty := decide (2 ≤ reg.val)
      let h := d.pair n p
      let w := d.f (PWM_SPLIT n p) PWM_SPLIT_WIN
      let other := if duty then h.lastP else h.lastD
      let noted : PairH := if duty then { h with lastD := some d.beam } else { h with lastP := some d.beam }
      let writes (P : Dev → Prop) := s.Runs (.pwmGroupWrite q n p reg v) fun d' => d'.Answers q 0 ∧ P d'
      (reg.val ≠ 1 →
        (w = 0 → writes fun d' => d'.shadow = [⟨a, 0xFFFFFFFF, v.toNat, d.beam⟩] ∧ d'.pair n p = noted ∧
          { d with pairs := d'.pairs, shadow := d'.shadow }.Only [] d') ∧
        (w ≠ 0 → d.b (PWM_SPLIT n p) PWM_SPLIT_SPLIT_HOLD = true →
          (h.held = none → writes fun d' => d'.shadow = [⟨a, 0xFFFFFFFF, v.toNat, d.beam⟩] ∧
            d'.pair n p = { noted with held := some (duty, d.beam + w) } ∧
            d'.agenda = d.agenda ++ [⟨d.beam + w + 1, .holdExpired n p⟩] ∧ d.Keeps [] d') ∧
          (∀ e, h.held = some (!duty, e) → writes fun d' => (d'.pair n p).held = none ∧ (∀ x, x ∈ d'.agenda → x.cmd ≠ .holdExpired n p) ∧
            d'.shadow = [⟨a, 0xFFFFFFFF, v.toNat, d.beam⟩] ∧ d.Keeps [] d')) ∧
        (∀ u b, w ≠ 0 → d.b (PWM_SPLIT n p) PWM_SPLIT_SPLIT_HOLD = false → other = some u → h.lastB = some b →
          let split := decide (d.beam ≤ u + w ∧ u < b ∧ b ≤ d.beam)
          writes fun d' => d'.b (PWM_STATUS n p) PWM_STATUS_SPLIT = (d.b (PWM_STATUS n p) PWM_STATUS_SPLIT || split) ∧ d'.pair n p = noted ∧
            d'.raised = (if split && d.bit (PWM_IRQ_EN n p) 2 then (d.raise (islSrc n + 0x80 + 6 * p + 2)).raised else d.raised) ∧
            d.Keeps [PWM_STATUS n p] d')) ∧
      (reg.val = 1 → d.pairRuns n p = true → v.toNat / 256 ≠ d.f a PWM_PSYNC_PHASE → w = 0 →
        (d.b (PWM_OPT n) PWM_OPT_LOCK_BERR = true → s.Runs (.pwmGroupWrite q n p reg v) fun d' => d'.Answers q 0 .locked ∧ d.Only [] d') ∧
        (d.b (PWM_OPT n) PWM_OPT_LOCK_BERR = false → writes fun d' => d'.f a PWM_PSYNC_PHASE = d.f a PWM_PSYNC_PHASE ∧
          d'.b (PWM_BLK_STATUS n) PWM_BLK_STATUS_CFG_LOCKED_WRITE = true ∧ d'.f (PWM_BLK_STATUS n) PWM_BLK_STATUS_LOCK_PAIR = p ∧
          d'.b (PWM_BLK_STATUS n) PWM_BLK_STATUS_LOCK_BLK = false ∧ d'.raised = (d.raise (islSrc n + 0xF8)).raised ∧
          d'.shadow = [⟨a, 0x3F, v.toNat, d.beam⟩] ∧ d.Keeps [PWM_BLK_STATUS n] d')))

/-- A new assignment of a rod group sets its rods' states to zero and cancels their presets; a preset becomes pending, but not for a retired rod;
an output slot takes a permitted target that no other enabled slot names and otherwise sets OUTMAP_BAD; a direct write of a routing field is ignored and
reported (R212, R237, R242, R353). -/
def Obligations.AbacusAndRouteWrites : Prop :=
  ∀ (s : State) (q : Req) (v : Word), s.Inv →
    let d := s.hw
    (∀ g : Fin 16, d.accessErr q (ABX_GRP_ASSIGN g) 4 true = .none →
      let a := ABX_GRP_ASSIGN g
      let old := d.f a ABX_GRP_ASSIGN_ISLAND
      let new := v.toNat % 8
      let mine (r : Nat) := decide (4 * g.val ≤ r ∧ r < 4 * g.val + 4)
      (old = new → s.Runs (.grpAssignWrite q g v) fun d' => d'.Answers q 0 ∧ d.Only [] d') ∧
      (old ≠ new → d.inRun old = false → d.inRun new = false → s.Runs (.grpAssignWrite q g v) fun d' => d'.Answers q 0 ∧
        d'.f a ABX_GRP_ASSIGN_ISLAND = new ∧
        (∀ (r : Rod) (k : Fin 32), mine r = true → d'.r (ABX_ROD_S r k) = if d.retired r then d.r (ABX_ROD_S r k) else 0) ∧
        (∀ r : Rod, mine r = true → d'.r (ABX_ROD_PEND r) = 0) ∧ d'.presets = d.presets.filter (fun e => !(mine (e.1 / 32))) ∧
        (∀ x, x ≠ a → (∀ r : Rod, mine r = true → x ≠ ABX_ROD_PEND r ∧ ∀ k : Fin 32, x ≠ ABX_ROD_S r k) → d'.r x = d.r x))) ∧
    (∀ (r : Rod) (k : Fin 32), d.accessErr q (ABX_ROD_PRESET r k) 4 true = .none →
      (d.retired r = false → s.Runs (.rodPresetWrite q r k v) fun d' => d'.Answers q 0 ∧ d'.preset r k = (v, d.beam) ∧
        d'.bit (ABX_ROD_PEND r) k = true ∧ { d with presets := d'.presets }.Only [ABX_ROD_PEND r] d') ∧
      (d.retired r = true → s.Runs (.rodPresetWrite q r k v) fun d' => d'.Answers q 0 ∧ d.Only [] d')) ∧
    (∀ (n : Isl) (k : Fin 64), d.accessErr q (ABX_OUTMAP n k) 4 true = .none → d.abxRuns n = false →
      let tgt := 4 * fget ABX_OUTMAP_TARGET v
      let bad := decide (fget ABX_OUTMAP_EN v = 1 ∧ (slotMask tgt = none ∨ ∃ j : Fin 64, j ≠ k ∧ d.slotTarget n j = some tgt))
      (bad = false → s.Runs (.outmapWrite q n k v) fun d' => d'.Answers q 0 ∧ d'.f (ABX_OUTMAP n k) ABX_OUTMAP_TARGET = fget ABX_OUTMAP_TARGET v ∧
        d'.f (ABX_OUTMAP n k) ABX_OUTMAP_EN = fget ABX_OUTMAP_EN v ∧ d.Only [ABX_OUTMAP n k] d') ∧
      (bad = true → s.Runs (.outmapWrite q n k v) fun d' => d'.Answers q 0 ∧ d'.b (ABX_BLK_STATUS n) ABX_BLK_STATUS_OUTMAP_BAD = true ∧
        d.Only [ABX_BLK_STATUS n] d')) ∧
    (∀ (n : Isl) (c : Fin 128), d.accessErr q (FLG_CH n c) 4 true = .none → s.Runs (.routeDirectWrite q (FLG_CH n c) v) fun d' => d'.Answers q 0 ∧
      d'.b (FLG_BLK_STATUS n) FLG_BLK_STATUS_ROUTE_DIRECT = true ∧ d'.raised = (d.raise (islSrc n + 0x2C3)).raised ∧
      { d with raised := d'.raised }.Only [FLG_BLK_STATUS n] d') ∧
    (∀ c : Fin 128, d.accessErr q (FLG_SCH c) 4 true = .none → s.Runs (.routeDirectWrite q (FLG_SCH c) v) fun d' => d'.Answers q 0 ∧
      d'.b FLG_SPINE_STATUS FLG_SPINE_STATUS_ROUTE_DIRECT = true ∧ d'.raised = (d.raise 0x0024).raised ∧
      { d with raised := d'.raised }.Only [FLG_SPINE_STATUS] d')

/-! ### Power, modes, the governor and the watchdog (spec/02_timing_model.md, spec/20_modes_power_boot.md, spec/21_failure_containment.md) -/

/-- Release of reset starts START at step 1 with the always-on domains powered; a power-on reset leaves every register at its reset value but the cause,
memory empty, and keeps the ledger array; warnings and faults set their bits, and a fault puts the device in SAFE; supply loss leaves domains 0, 1
and 2, the last gasp a reset; DORMANT leaves the always-on domains, and a wake goes to step 2 of START, or is held during entry
(R625-R628, R632, R635, R636). -/
def Obligations.PowerAndModes : Prop :=
  ∀ (s : State) (b : BootInfo), s.Inv →
    let d := s.hw
    let sup := PWR_SUP_STATUS
    let fresh (cause : Fld) (d' : Dev) : Prop :=
      (∀ a, a ≠ PWR_RST_CAUSE → d'.r a = resetVal a) ∧ d'.r PWR_RST_CAUSE = fput cause 0 1 ∧ d'.mem = [] ∧ d'.beam = 0 ∧ d'.power = {} ∧
      d'.cores = [] ∧ d'.raised = [] ∧ d'.agenda = [] ∧ d'.transit = [] ∧ d'.chozer.creds = d.chozer.creds ∧ d'.chozer.imgs = d.chozer.imgs
    let woken (by_ : Fld) (d' : Dev) : Prop := d'.mode = mStart ∧ d'.f PWR_BOOT PWR_BOOT_STAGE = 2 ∧ d'.b PWR_WAKE by_ = true ∧
      d'.b PWR_RST_CAUSE PWR_RST_CAUSE_WAKE = true ∧ d'.power.boot = some b ∧ d'.beam = d.beam ∧ d'.ledger = d.ledger
    let held (w : Nat) (d' : Dev) : Prop := d'.power = { d.power with boot := some b, wake := w } ∧ d.Keeps [] d'
    (d.power.resetHeld = true → s.Runs (.resetRelease b) fun d' => d'.power.resetHeld = false ∧ d'.power.boot = some b ∧ d'.mode = mStart ∧
      d'.f PWR_BOOT PWR_BOOT_STAGE = 1 ∧ (∀ k : Fin 124, alwaysOn k = true → d.hasDomain k = true → d'.powered k = true) ∧
      d'.r BEAM_RING_LIM = 0x016800AA ∧ (d.r PWR_RST_CAUSE = 0 → d'.b PWR_RST_CAUSE PWR_RST_CAUSE_POR = true) ∧ d'.beam = d.beam ∧ d'.mem = d.mem) ∧
    (d.power.resetHeld = false → s.Runs (.resetRelease b) fun d' => d' = d) ∧
    (s.Runs .porstLow fun d' => fresh PWR_RST_CAUSE_PIN d' ∧ d'.ledger.slots = d.ledger.slots ∧ d'.ledger.recs = d.ledger.recs) ∧
    (∀ i : Fin 12, d.power.resetHeld = false →
      let bit (lo : Nat) := if i.val < 4 then lo + i.val else if lo = 0 then 8 + min 3 (i.val - 4) else lo + i.val
      (i ≠ 0 ∨ d.anyRun = true → s.Runs (.supplyWarning i) fun d' => d'.bit sup (bit 0) = true ∧ d'.raised = (d.raise 0x0001 (bit 0)).raised ∧
        { d with raised := d'.raised }.Only [sup] d') ∧
      (s.Runs (.supplyFault i) fun d' => d'.bit sup (bit 12) = true ∧ (∃ r, r ∈ d'.raised ∧ r.src = 0x0002 ∧ r.payload = bit 12) ∧
        (d.mode = mRun ∨ d.mode = mSetup → d'.mode = mSafe ∧ d'.safeMask = d.present % 64) ∧ ∀ n, d'.inRun n = false) ∧
      s.Runs (.supplyFaultClear i) fun d' => d'.bit sup (bit 12) = false ∧ d.Only [sup] d') ∧
    (d.power.resetHeld = false → d.power.losing = false → s.Runs .supplyLossSignal fun d' => d'.b sup PWR_SUP_STATUS_PFAIL = true ∧
      d'.power.losing = true ∧ (d.mode = mRun ∨ d.mode = mSetup → d'.mode = mSafe) ∧ (∀ n, d'.inRun n = false) ∧
      (∀ k : Fin 128, 3 ≤ k.val → d'.powered k = false) ∧ ∀ k : Fin 3, d'.powered k = d.powered k) ∧
    (d.power.losing = true → d.ledger.active = none → s.Runs .lastGasp fun d' => fresh PWR_RST_CAUSE_POR d' ∧ d'.ledger.slots = d.gasp.ledger.slots) ∧
    (d.b PWR_WAKE PWR_WAKE_PIN_EN = true → (d.mode = mDormant → s.Runs (.wakePin b) (woken PWR_WAKE_BY_PIN)) ∧
      (d.mode ≠ mDormant → d.power.dormReq = true → s.Runs (.wakePin b) (held 1)) ∧
      (d.mode ≠ mDormant → d.power.dormReq = false → s.Runs (.wakePin b) fun d' => d' = d)) ∧
    (d.pendOf (spineKey 0x3F) = [] → (d.mode = mDormant → s.Runs (.wakeEvent b) (woken PWR_WAKE_BY_EVENT)) ∧
      (d.mode ≠ mDormant → d.power.dormReq = true → s.Runs (.wakeEvent b) (held 2)) ∧
      (d.mode ≠ mDormant → d.power.dormReq = false → s.Runs (.wakeEvent b) fun d' =>
        d'.b FLG_SPINE_STATUS FLG_SPINE_STATUS_WAKE = true ∧ d'.raised = (d.raise 0x0025).raised ∧ d.Keeps [FLG_SPINE_STATUS] d')) ∧
    (d.power.dormReq = true → d.mode = mSetup ∨ d.mode = mSafe → d.power.wake = 0 → s.Runs .dormantEntry fun d' => d'.mode = mDormant ∧
      d'.power.dormReq = false ∧ (∀ k : Fin 128, d'.powered k = (alwaysOn k && d.powered k)) ∧ (∀ c : Core, (d'.core c).run = false) ∧
      d'.net.partners = [] ∧ d'.beam = d.beam)

/-- The end of a settling wait ends BUSY where the regulator answered and is within 15 mV, takes a pending step up, retries once and then holds TARGET
with PMB_ERR; a step down follows a quiet interval with slack, never below FLOOR. The watchdog expires 50,000,000 ticks after its last kick: EXPIRED,
routes to the alternate owner, SAFE everywhere; a kick starts its time again and restores the routes. Transient counts are committed every 600 s
(R64, R76-R81, R643-R646, R651). -/
def Obligations.GovernorAndWatchdog : Prop :=
  ∀ (s : State) (q : Req), s.Inv →
    let d := s.hw
    let st := PWR_GOV_STATUS
    let on (f : Fld) := d.b st f
    let t := d.f st PWR_GOV_STATUS_TARGET
    let ceil := d.f PWR_GOV_LIMITS PWR_GOV_LIMITS_CEIL
    let floor := d.f PWR_GOV_LIMITS PWR_GOV_LIMITS_FLOOR
    let stp := d.f PWR_GOV_CTL PWR_GOV_CTL_STEP
    let wst := PWR_WDOG_STATUS
    let due := d.b PWR_WDOG_CTL PWR_WDOG_CTL_EN && !(d.b wst PWR_WDOG_STATUS_PAUSED) && !(d.b wst PWR_WDOG_STATUS_EXPIRED) &&
      decide (d.power.kick + 50000000 ≤ d.beam)
    (∀ (acked pec : Bool) (mv : Nat), on PWR_GOV_STATUS_BUSY = true →
      let ok := acked && pec && decide (mv ≤ t + 15 ∧ t ≤ mv + 15)
      (ok = true → d.power.upPend = false → s.Runs (.voutSettleExpiry acked pec mv) fun d' => d'.b st PWR_GOV_STATUS_BUSY = false ∧
        d'.f st PWR_GOV_STATUS_TARGET = t ∧ d'.power = { d.power with tries := 0 } ∧ d.Keeps [st] d') ∧
      (ok = true → d.power.upPend = true → t ≠ ceil → s.Runs (.voutSettleExpiry acked pec mv) fun d' => d'.b st PWR_GOV_STATUS_BUSY = true ∧
        d'.f st PWR_GOV_STATUS_TARGET = max (min (t + stp) ceil) floor % 2 ^ PWR_GOV_STATUS_TARGET.w ∧ d'.power.upPend = false ∧
        d'.raised = (d.raise 0x0034).raised ∧ d.Keeps [st] d') ∧
      (ok = false → d.power.tries = 0 → s.Runs (.voutSettleExpiry acked pec mv) fun d' => d'.power = { d.power with tries := 1 } ∧ d.Keeps [] d') ∧
      (ok = false → d.power.tries ≠ 0 → s.Runs (.voutSettleExpiry acked pec mv) fun d' => d'.b st PWR_GOV_STATUS_PMB_ERR = true ∧
        d'.b st PWR_GOV_STATUS_BUSY = false ∧ d'.f st PWR_GOV_STATUS_TARGET = t ∧ d'.raised = (d.raise 0x0035).raised ∧
        d'.dget (dkL 6 0) = min 4294967295 (d.dget (dkL 6 0) + 1) ∧ d.Keeps [st] d')) ∧
    (d.b PWR_GOV_CTL PWR_GOV_CTL_EN = true → on PWR_GOV_STATUS_FMT_ERR = false → on PWR_GOV_STATUS_PMB_ERR = false → on PWR_GOV_STATUS_BUSY = false →
      d.b PWR_GOV_CTL PWR_GOV_CTL_SLACK_DOWN = true → d.power.quiet + max 1 (d.f PWR_GOV_CTL PWR_GOV_CTL_QUIET) * 500000 ≤ d.beam →
      (∀ n : Isl, d.inRun n = true → d.periodTicks n ≤ 4 * (d.r (ABX_SLACK_MIN n)).toNat) → floor < t → s.Runs .governorStepDown fun d' =>
        d'.f st PWR_GOV_STATUS_TARGET = max (t - stp) floor % 2 ^ PWR_GOV_STATUS_TARGET.w ∧ d'.b st PWR_GOV_STATUS_BUSY = true ∧
        d'.power = { d.power with quiet := d.beam, tries := 0 } ∧ { d with power := d'.power }.Only [st] d') ∧
    (due = true → s.Runs .watchdogExpiry fun d' => d'.b wst PWR_WDOG_STATUS_EXPIRED = true ∧
      d'.f wst PWR_WDOG_STATUS_EXPIRIES = min (d.f wst PWR_WDOG_STATUS_EXPIRIES + 1) (2 ^ PWR_WDOG_STATUS_EXPIRIES.w - 1) ∧
      (∀ x, x = 0x0038 ∨ x = 0x0039 → d'.r (PND_ROUTE x) = BitVec.ofNat 32 (0x1F0 + d.f PWR_WDOG_CTL PWR_WDOG_CTL_ALT_OWNER)) ∧
      (∃ e, e ∈ d'.raised ∧ e.src = 0x0039 ∧ e.payload = d.runMask % 65536) ∧ ∀ n, d'.inRun n = false) ∧
    (due = false →
      (s.Runs .watchdogExpiry fun d' => d' = d) ∧
      (d.accessErr q PWR_WDOG_KICK 4 true = .none → d.b PWR_WDOG_CTL PWR_WDOG_CTL_EN = true →
        let again (d' : Dev) : Prop := d'.Answers q 0 ∧ d'.power.kick = d.beam ∧ d'.b wst PWR_WDOG_STATUS_EXPIRED = false ∧
          d'.agenda = d.agenda.filter (fun x => decide (x.cmd ≠ .watchdogExpiry)) ++ [⟨d.beam + 50000000, .watchdogExpiry⟩]
        (d.b wst PWR_WDOG_STATUS_EXPIRED = false → s.Runs (.watchdogKick q) fun d' => again d' ∧ d.Keeps [wst] d') ∧
        (d.b wst PWR_WDOG_STATUS_EXPIRED = true → s.Runs (.watchdogKick q) fun d' => again d' ∧
          ∀ x, x = 0x0038 ∨ x = 0x0039 → d'.r (PND_ROUTE x) = 0x188))) ∧
    (d.managerUp = true → s.Runs .diagCountCommit fun d' => d.Keeps [] d' ∧ (∀ c i v : Fin 256, d.diag = [(dkT c i, v.val)] →
        d'.dget (dkC c i) = v ∧ d'.dget (dkT c i) = v) ∧
      d'.agenda = d.agenda.filter (fun x => decide (x.cmd ≠ .diagCountCommit)) ++ [⟨d.beam + 300000000000, .diagCountCommit⟩])

/-! ### Chozer's commands (spec/18_chozer_mailboxes.md) -/

/-- A post in a free mailbox waits for Chozer, an unknown CMD is answered BAD_ARG, a post in a busy one sets OVERRUN. SYS_CAPS and SYS_INFO answer
their words; SYS_MODE moves islands to RUN where nothing forbids it, to SAFE, or the device to SETUP; SYS_GRANT and SYS_MBX act in SETUP only;
SYS_CORE_RESET restarts a locked-up core (R34-R36, R556-R562, R564, R618-R623, R629, R637). -/
def Obligations.ChozerSystem : Prop :=
  ∀ (s : State) (m : Fin 16) (rq : Request), s.Inv →
    let d := s.hw
    let v := rqw rq 1
    let none_ : Dev → List Word := fun _ => []
    let quiet (d' : Dev) : Prop := d.Keeps (replyRegs m) d' ∧ d'.mem = d.mem
    (∀ (q : Req) (hdr : Word), d.accessErr q (MBX_REQ m 0) 4 true = .none → d.chozer.reqs = [] →
      let words := hdr :: (List.range 15).map fun k => d.r (MBX_REQ m (k + 1))
      (d.b (MBX_STATUS m) MBX_STATUS_BUSY = false → knownCmd (hdr.toNat / 2 ^ 20) = true → s.Runs (.mailboxPost q m hdr) fun d' =>
        d'.Answers q 0 ∧ d'.chozer.reqs = [⟨m, words, d.beam, none⟩] ∧ d'.b (MBX_STATUS m) MBX_STATUS_BUSY = true ∧
        d'.b (MBX_STATUS m) MBX_STATUS_DONE = false ∧ d'.r (MBX_REQ m 0) = hdr ∧
        { d with chozer := d'.chozer }.Only [MBX_REQ m 0, MBX_STATUS m] d') ∧
      (d.b (MBX_STATUS m) MBX_STATUS_BUSY = false → knownCmd (hdr.toNat / 2 ^ 20) = false → d.chozUp = true → d.committing = false →
        s.Runs (.mailboxPost q m hdr) fun d' => d'.Replied m ⟨m, words, d.beam, none⟩ stBADARG []) ∧
      (d.b (MBX_STATUS m) MBX_STATUS_BUSY = true → s.Runs (.mailboxPost q m hdr) fun d' => d'.Answers q 0 ∧
        d'.b (MBX_STATUS m) MBX_STATUS_OVERRUN = true ∧ d.Only [MBX_STATUS m] d')) ∧
    (rq.by m →
      (d.Asked rq 0x100 0 → s.Replies m rq .sysCaps stOK (fun _ => (List.range 15).map d.capWord) quiet) ∧
      (d.Asked rq 0x101 0 → s.Replies m rq .sysInfo stOK (fun _ => [Config.chozerVersion, BitVec.ofNat 32 (fget ⟨8, 8⟩ Config.capStep),
        BitVec.ofNat 32 Config.identity, BitVec.ofNat 32 (Config.identity / 2 ^ 32),
        BitVec.ofNat 32 (((List.range 8).map fun i => (if (d.img i).runB then 2 ^ i else 0) + (if (d.img i).state = 6 then 2 ^ (8 + i) else 0)).sum),
        0x9600]) quiet) ∧
      (d.Asked rq 0x102 4 → onlyBits v 0x3F07 = true →
        let isl := v / 2 ^ 8 % 2 ^ 6
        let all := d.present
        let shows (d' : Dev) : List Word := [BitVec.ofNat 32 (d'.mode + d'.safeMask * 0x100 + d'.runMask * 0x10000)]
        let sel := if isl = 0 then all else isl
        isl &&& all = isl →
        (v % 8 = mRun → d.mode ≠ mHalt → d.mayRun sel = true → d.applying = false → (∀ n : Isl, tabGet 0 d.fresh (PWR_SAFE_CAUSE n) = 0) →
          s.Replies m rq .sysMode stOK shows fun d' => d'.mode = mRun ∧ ∀ n : Isl, d'.inRun n = (d.hasIsl n && (nbit sel n || d.inRun n))) ∧
        (v % 8 = mRun → d.mode ≠ mHalt → d.mayRun sel = false → s.Refuses m rq .sysMode stDENIED) ∧
        (v % 8 = mSafe → d.mode = mRun → s.Replies m rq .sysMode stOK shows fun d' =>
          d'.mode = (if isl = 0 then mSafe else mRun) ∧ ∀ n : Isl, d'.inRun n = (d.inRun n && !(nbit sel n))) ∧
        (v % 8 = mSetup → d.mode = mRun ∨ d.mode = mSafe → s.Replies m rq .sysMode stOK shows fun d' => d'.mode = mSetup ∧ d'.safeMask = 0) ∧
        (2 ≤ v % 8 → v % 8 ≤ 4 → d.mode = mHalt → s.Refuses m rq .sysMode stBUSY)) ∧
      (d.Asked rq 0x103 4 → onlyBits v 0x70FFF = true → ∀ n : Isl, v / 2 ^ 16 = n → d.hasIsl n = true →
        (d.mode = mSetup → s.Replies m rq .sysGrant stOK (fun d' => [BitVec.ofNat 32 (d'.grant n)]) fun d' => quiet d' ∧
          (∀ q : Req, q ≠ 11 → d'.mayWrite q n = (decide (q.val = n.val ∨ q = 8) || nbit v q)) ∧ d'.mayWrite 11 n = d.mayWrite 11 n ∧
          ∀ (k : Isl) (q : Req), k ≠ n → d'.mayWrite q k = d.mayWrite q k) ∧
        (d.mode ≠ mSetup → s.Refuses m rq .sysGrant stDENIED)) ∧
      (d.Asked rq 0x104 4 → onlyBits v 0x70F = true → d.part.hasCore (v / 2 ^ 8) = true → ∀ k : Fin 16, v % 16 = k →
        (d.mode = mSetup → d.b (MBX_STATUS k) MBX_STATUS_BUSY = false → s.Replies m rq .sysMbx stOK none_ fun d' =>
          d'.f (MBX_OWNER k) MBX_OWNER_OWNER = v / 2 ^ 8 ∧ (∀ j : Fin 16, d'.r (PND_ROUTE (0x60 + j)) =
            BitVec.ofNat 32 (0x180 + d'.f (MBX_OWNER j) MBX_OWNER_OWNER)) ∧
          ∀ a, a ∉ replyRegs m → a ≠ MBX_OWNER k → (∀ j : Fin 16, a ≠ PND_ROUTE (0x60 + j)) → d'.r a = d.r a) ∧
        (d.mode ≠ mSetup → s.Refuses m rq .sysMbx stDENIED)) ∧
      (d.Asked rq 0x105 4 → ∀ c : Core, v = c → c ≠ 8 → d.part.hasCore c = true →
        (d.lockedUp c = true ∨ d.mode = mSetup → d.bit PWR_BOOT (24 + c) = false → s.Replies m rq .sysCoreReset stOK none_ fun d' =>
          d'.core c = { run := true, pc := (d.r (RESET_PC c)).toNat } ∧ d'.r (RESET_PC c) = d.r (RESET_PC c) ∧ d'.lockedUp c = false ∧
          d'.curBank c = 0 ∧ d'.dDepth c = 0 ∧ d'.rDepth c = 0) ∧
        (d.lockedUp c = false → d.mode ≠ mSetup → nbit d.safeMask c = false → s.Refuses m rq .sysCoreReset stDENIED)))

/-- PWR_STATUS answers modes, supplies, governor and domains; PWR_DOMAIN powers a domain that serves no island in RUN up or down, a powered-down
domain's registers and memory losing their contents; PWR_GOV changes the governor's registers; PWR_DORMANT answers before the entry. DIAG_UNIT answers a
unit's counts, DIAG_RDREG registers of one block, DIAG_WRREG changes the masked bits of one (R75, R567, R575, R630, R631, R635, R650). -/
def Obligations.ChozerPowerAndDiag : Prop :=
  ∀ (s : State) (m : Fin 16) (rq : Request), s.Inv → rq.by m →
    let d := s.hw
    let v := rqw rq 1
    let quiet (d' : Dev) : Prop := d.Keeps (replyRegs m) d' ∧ d'.mem = d.mem
    let gov (d' : Dev) : List Word := [d'.r PWR_GOV_CTL, d'.r PWR_GOV_LIMITS, d'.govStatus]
    (d.Asked rq 0x200 0 → s.Replies m rq .pwrStatus stOK (fun _ => [BitVec.ofNat 32 (d.mode + d.safeMask * 0x100 + d.runMask * 0x10000),
      d.r PWR_SUP_STATUS, d.govStatus, d.r (PWR_DOM 0), d.r (PWR_DOM 1), d.r (PWR_DOM 2), d.r (PWR_DOM 3)]) quiet) ∧
    (d.Asked rq 0x201 4 → onlyBits v 0x17F = true → ∀ (k : Fin 124) (good : Bool), v % 128 = k → switched k = true → d.hasDomain k = true →
      (d.domainServes k = false →
        (nbit v 8 = false → s.Replies m rq (.pwrDomain good) stOK (fun _ => [0]) fun d' => d'.powered k = false ∧
          (∀ a, domainOf a = k → d'.r a = resetVal a ∧ d'.byte a = 0) ∧
          ∀ a, domainOf a ≠ k → d'.byte a = d.byte a) ∧
        (nbit v 8 = true → d.powered k = false → good = true → s.Replies m rq (.pwrDomain good) stOK (fun _ => [1]) fun d' =>
          d'.powered k = true ∧ ∀ a, domainOf a = k → d'.byte a = 0) ∧
        (nbit v 8 = true → d.powered k = true → s.Replies m rq (.pwrDomain good) stOK (fun _ => [1]) quiet) ∧
        (nbit v 8 = true → d.powered k = false → good = false → s.Refuses m rq (.pwrDomain good) stTIMEOUT)) ∧
      (d.domainServes k = true → s.Refuses m rq (.pwrDomain good) stDENIED)) ∧
    (d.Asked rq 0x202 12 →
      let c := rqw rq 2
      let l := rqw rq 3
      let ceil := min (l / 2 ^ 16) 950
      let floor := min 950 (max (if d.anyRun then 750 else 650) (l % 2 ^ 16))
      (v = 0 → s.Replies m rq .pwrGov stOK gov quiet) ∧
      (v = 1 → onlyBits c 0xFFFF7F07 = true → c / 2 ^ 8 % 2 ^ 7 = d.f PWR_GOV_CTL PWR_GOV_CTL_PMB_ADDR ∨ d.mode = mSetup →
        s.Replies m rq .pwrGov stOK gov fun d' => d.Keeps (PWR_GOV_CTL :: replyRegs m) d' ∧
          d'.f PWR_GOV_CTL PWR_GOV_CTL_STEP = min 50 (max 5 (c / 2 ^ 16 % 2 ^ 8)) ∧ d'.f PWR_GOV_CTL PWR_GOV_CTL_QUIET = max 1 (c / 2 ^ 24 % 2 ^ 8) ∧
          d'.f PWR_GOV_CTL PWR_GOV_CTL_PMB_ADDR = c / 2 ^ 8 % 2 ^ 7 ∧ ∀ i : Fin 3, d'.bit PWR_GOV_CTL i = nbit c i) ∧
      (v = 2 → onlyBits l 0x03FF03FF = true → floor ≤ ceil → s.Replies m rq .pwrGov stOK gov fun d' =>
        d.Keeps (PWR_GOV_LIMITS :: replyRegs m) d' ∧ d'.f PWR_GOV_LIMITS PWR_GOV_LIMITS_CEIL = ceil ∧
        d'.f PWR_GOV_LIMITS PWR_GOV_LIMITS_FLOOR = floor) ∧
      (v = 2 → onlyBits l 0x03FF03FF = true → ceil < floor → s.Replies m rq .pwrGov stBADARG (fun _ => []) fun d' =>
        d'.b PWR_GOV_STATUS PWR_GOV_STATUS_BAD_LIMIT = true ∧ d.Keeps (PWR_GOV_STATUS :: replyRegs m) d')) ∧
    (d.Asked rq 0x203 0 → (d.mode = mSetup ∨ d.mode = mSafe → s.Replies m rq .pwrDormant stOK (fun _ => []) fun d' =>
        d'.power = { d.power with dormReq := true } ∧ quiet d') ∧
      (d.mode ≠ mSetup → d.mode ≠ mSafe → s.Refuses m rq .pwrDormant stDENIED)) ∧
    (d.Asked rq 0x700 4 → ∀ c i : Fin 256, v = c * 256 + i → diagKnown c i = true →
      (d.diagAbsent c i = false → s.Replies m rq .diagUnit stOK (fun _ => [BitVec.ofNat 32 (d.dget (dkT c i)), BitVec.ofNat 32 (d.dget (dkL c i)),
        BitVec.ofNat 32 (d.dget (dkK c i)), BitVec.ofNat 32 (d.dget (dkK c i) / 2 ^ 32)]) quiet) ∧
      (d.diagAbsent c i = true → s.Refuses m rq .diagUnit stABSENT)) ∧
    (d.Asked rq 0x701 8 → ∀ n : Fin 15, rqw rq 2 = n → 1 ≤ n.val → v % 4 = 0 → diagBlock v ≠ none →
      diagBlock v = diagBlock (v + 4 * (n - 1)) → regsAt v n = true → s.Replies m rq .diagRdreg stOK
        (fun _ => BitVec.ofNat 32 v :: (List.range n).map fun k => (d.regRead 8 (v + 4 * k)).2) quiet) ∧
    (d.Asked rq 0x702 12 → ∀ k : Fin 16, v = ECC_CE_THR k →
      let val := rqw rq 2
      let mask := rqw rq 3
      (mask < 65536 → s.Replies m rq .diagWrreg stOK (fun d' => [d'.r v]) fun d' => d.Keeps (v :: replyRegs m) d' ∧
        ∀ i : Fin 16, d'.bit v i = if nbit mask i then nbit val i else d.bit v i) ∧
      (65536 ≤ mask → mask < 2 ^ 32 → s.Refuses m rq .diagWrreg stBADARG))

/-- The LDG commands: LDG_OPEN opens the owner's clasp, LDG_TYPE and LDG_WRITE enter a record write into it, or start a commit of their own without
one, LDG_COMMIT starts the clasp's commit, defers it, or keeps it for want of energy, LDG_ABORT drops it. LDG_LG changes the last-gasp set and its
buffer, LDG_LGUPD the buffer alone; LDG_READ answers a record's version and 32 bytes, LDG_STAT the engine's registers (R385, R528, R543, R546, R566-R572;
the merging of the two log halves: log entry 60). -/
def Obligations.LedgerCommands : Prop :=
  ∀ (s : State) (m : Fin 16) (rq : Request), s.Inv → rq.by m →
    let d := s.hw
    let r := rqw rq 1
    let v := rqw rq 2
    let o := d.f (MBX_OWNER m) MBX_OWNER_OWNER
    let top := d.part.records - 8192
    let none_ : Dev → List Word := fun _ => []
    let quiet (d' : Dev) : Prop := d.Keeps (replyRegs m) d' ∧ d'.mem = d.mem
    let same (d' : Dev) : Prop := quiet d' ∧ { d'.ledger with held := [], log0 := [] } = { d.ledger with held := [], log0 := [] } ∧
      ∀ k, k ≠ o → d'.ldgHeld k = d.ldgHeld k
    let enters (d' : Dev) (ws : List LWrite) : Prop := same d' ∧ (d'.ldgHeld o).map (fun c => c.writes) = some ws
    let ready (c : LClasp) : Prop := d.engineFree = true ∧ d.b SGN_STATUS SGN_STATUS_DEVICE_WORN = false ∧
      d.ledger.cache.all (fun x => !(sharesRec c x)) = true
    let starts (c : LClasp) (d' : Dev) : Prop := d'.ledger.active = some (c, false) ∧ d'.ledger.since = d.beam ∧ d'.chozer.reqs = [rq] ∧
      d'.b SGN_STATUS SGN_STATUS_BUSY = true ∧ d'.ledger.recs = d.ledger.recs ∧ d'.ledger.cache = d.ledger.cache ∧ d'.mem = d.mem ∧
      d.Keeps [SGN_STATUS, SGN_HUP_E, SGN_LG] d'
    (d.Asked rq 0x300 0 →
      (d.holdsAny o = false → s.Replies m rq .ldgOpen stOK none_ fun d' => enters d' [] ∧ (d'.clasp o).held = true ∧ (d'.clasp o).ledger = true) ∧
      (d.holdsAny o = true → s.Refuses m rq .ldgOpen stBUSY)) ∧
    (d.Asked rq 0x301 20 → onlyBits v 0xFFFF00FF = true → v % 256 ≤ 3 → r < 262144 → rqw rq 4 < 262144 → rqw rq 5 < 8192 →
      (v % 256 = 3 → rqw rq 5 ≠ 0 ∧ rqw rq 5 ≤ 4096 ∧ rqw rq 4 + rqw rq 5 ≤ top) →
      let w : LWrite := { rec_ := r, op := 0, val := v, layout := rqw rq 3, group := rqw rq 4, gcount := rqw rq 5 }
      (∀ cl, r < top → d.ldgHeld o = some cl → cl.writes.length < 256 → s.Replies m rq .ldgType stOK none_ fun d' => enters d' (cl.writes ++ [w])) ∧
      (r < top → d.ldgHeld o = none → ready ⟨[m], [w]⟩ → d.claspDue ⟨[m], [w]⟩ = true → d.hupEnough 1 = true →
        s.Runs .ldgType (starts ⟨[m], [w]⟩)) ∧
      (top ≤ r → r < d.part.records → s.Refuses m rq .ldgType stDENIED) ∧
      (d.part.records ≤ r → s.Refuses m rq .ldgType stABSENT)) ∧
    (∀ (k : Fin 8), r < top →
      (∀ cl, d.ldgHeld o = some cl →
        (d.typeIn cl.writes r = 1 → cl.writes.length < 256 → d.Asked rq 0x302 16 →
          (v = 0x10000000 + k * 0x10000 → s.Replies m rq .ldgWrite stOK none_ fun d' =>
            enters d' (cl.writes ++ [{ rec_ := r, op := 1, k := k, val := rqw rq 3 + rqw rq 4 * 2 ^ 32 }])) ∧
          (v = 0x20000000 + k * 0x10000 → s.Replies m rq .ldgWrite stOK none_ fun d' => ∃ x, enters d' (cl.writes ++ [{ rec_ := r, op := 2, k := k, val := x }]) ∧
            sext 128 x = sext 64 (rqw rq 3 + rqw rq 4 * 2 ^ 32))) ∧
        (d.typeIn cl.writes r = 2 → cl.writes.length < 256 → ∀ n off : Fin 64, 1 ≤ n.val → n ≤ 48 → off + n.val ≤ 64 → d.Asked rq 0x302 (8 + n) →
          v = 0x30000000 + off * 0x100 + n → s.Replies m rq .ldgWrite stOK none_ fun d' => ∃ bs, slice bs off n = rqBytes rq n ∧
            enters d' (cl.writes ++ [{ rec_ := r, op := 3, val := (2 ^ n.val - 1) * 2 ^ off.val, bytes := bs }])) ∧
        (d.typeIn cl.writes r = 3 → d.Asked rq 0x302 40 → v = 0x50000000 → ∀ ws x, cl.writes = ws ++ [x] → ws.all (fun y => y.rec_ != r) = true →
          x = { rec_ := r, op := 4, bytes := x.bytes } → cl.writes.length ≤ 256 →
          s.Replies m rq .ldgWrite stOK none_ fun d' => enters d' (ws ++ [{ rec_ := r, op := 6, bytes := x.bytes ++ rqBytes rq 32 }])) ∧
        (d.typeIn cl.writes r = 1 → cl.writes.length = 256 → d.Asked rq 0x302 16 → v = 0x10000000 + k * 0x10000 → s.Refuses m rq .ldgWrite stBADARG)) ∧
      (d.ldgHeld o = none →
        (d.Asked rq 0x302 16 → v = 0x10000000 + k * 0x10000 → (d.lrec r).type = 1 →
          let c : LClasp := ⟨[m], [{ rec_ := r, op := 1, k := k, val := rqw rq 3 + rqw rq 4 * 2 ^ 32 }]⟩
          ready c → d.claspDue c = true → d.hupEnough 1 = true → s.Runs .ldgWrite (starts c)) ∧
        (d.Asked rq 0x302 40 → v = 0x40000000 → (d.lrec r).type = 3 → s.Replies m rq .ldgWrite stOK none_ fun d' => same d' ∧
          tabFind d'.ledger.log0 o = some { rec_ := r, op := 4, bytes := rqBytes rq 32 }) ∧
        (∀ x : LWrite, d.Asked rq 0x302 40 → v = 0x50000000 → (d.lrec r).type = 3 → tabFind d.ledger.log0 o = some x → x.rec_ = r →
          let c : LClasp := ⟨[m], [{ rec_ := r, op := 6, bytes := x.bytes ++ rqBytes rq 32 }]⟩
          ready c → d.queued r = [] → d.claspDue c = true → d.hupEnough (d.slotWrites c) = true → s.Runs .ldgWrite (starts c)))) ∧
    (d.Asked rq 0x303 0 →
      (∀ cl, d.ldgHeld o = some cl → cl.writes.all (fun w => decide (w.op < 4)) = true →
        let c : LClasp := ⟨[m], normWrites cl.writes⟩
        ready c →
        (d.claspDue c = true → d.hupEnough (d.slotWrites c) = true → s.Runs .ldgCommit fun d' => starts c d' ∧ d'.ldgHeld o = some cl) ∧
        (d.claspDue c = true → d.hupEnough (d.slotWrites c) = false → s.Replies m rq .ldgCommit stHOLDUP none_ fun d' =>
          d'.ldgHeld o = some cl ∧ d'.ledger.active = none ∧ d'.f SGN_CNT SGN_CNT_HOLDUP_REFUSED = min 65535 (d.f SGN_CNT SGN_CNT_HOLDUP_REFUSED + 1) ∧
          d'.ledger.recs = d.ledger.recs) ∧
        (d.claspDue c = false → (d.ledger.cache ++ [c]).foldl (fun n x => n + x.writes.length) 0 ≤ 1024 → s.Replies m rq .ldgCommit stRATE none_ fun d' =>
          d'.ldgHeld o = none ∧ d'.ledger.cache = d.ledger.cache ++ [claspMerge [c]] ∧ d'.ledger.active = none ∧ d'.ledger.recs = d.ledger.recs)) ∧
      (∀ cl, d.ldgHeld o = some cl → cl.writes.any (fun w => decide (w.op = 4)) = true → s.Replies m rq .ldgCommit stBADARG none_ fun d' =>
        d'.ldgHeld o = some cl ∧ same d') ∧
      (d.ldgHeld o = none → s.Refuses m rq .ldgCommit stDENIED)) ∧
    (d.Asked rq 0x304 0 → s.Replies m rq .ldgAbort stOK none_ fun d' => same d' ∧ d'.ldgHeld o = none) ∧
    (∀ n : Fin 14, d.Asked rq 0x305 (4 + 4 * n) →
      let rs := (List.range n).map fun i => rqw rq (2 + i)
      (∀ act : Fin 3, r = act + n * 0x100 → rs.all (fun k => decide (k < top)) = true → rs.all (fun k => (d.lrec k).type != 0) = true → d.ledger.lg.length + n ≤ 128 →
        (d.mode = mSetup → s.Replies m rq .ldgLg stOK (fun d' => BitVec.ofNat 32 d'.ledger.lg.length :: (d'.ledger.lg.take 14).map (BitVec.ofNat 32)) fun d' =>
          (∀ k, k ∈ d'.ledger.lg ↔ if act = 0 then k ∈ d.ledger.lg ∨ k ∈ rs else if act = 1 then k ∈ d.ledger.lg ∧ k ∉ rs else False) ∧
          (∀ k, k ∈ d'.ledger.lg → tabGet [] d'.ledger.buf k = if k ∈ d.ledger.lg then tabGet [] d.ledger.buf k else (d.lrec k).data) ∧
          d'.ledger.recs = d.ledger.recs ∧ d'.f SGN_LG SGN_LG_M = d'.ledger.lg.length % 256 ∧ d.Keeps ([SGN_HUP_E, SGN_LG, SGN_STATUS] ++ replyRegs m) d') ∧
        (d.mode ≠ mSetup → s.Refuses m rq .ldgLg stDENIED))) ∧
    (∀ k : Fin 8, d.Asked rq 0x306 16 → v = 0x10000000 + k * 0x10000 → r < top →
      (r ∈ d.ledger.lg → (d.lrec r).type = 1 → s.Replies m rq .ldgLgupd stOK none_ fun d' => quiet d' ∧
        tabGet [] d'.ledger.buf r = overwrite (tabGet [] d.ledger.buf r) (8 * k) (leBytes (rqw rq 3 + rqw rq 4 * 2 ^ 32) 8) ∧
        (∀ x, x ≠ r → tabGet [] d'.ledger.buf x = tabGet [] d.ledger.buf x) ∧ d'.ledger.recs = d.ledger.recs ∧ d'.ledger.held = d.ledger.held) ∧
      (r ∉ d.ledger.lg → s.Refuses m rq .ldgLgupd stDENIED)) ∧
    (d.Asked rq 0x307 8 → v ≤ 1 →
      (∀ ue : Bool, r < top → ue = false ∨ (d.lrec r).slot = none → (d.lrec r).damaged = false → s.Replies m rq (.ldgRead ue) stOK
        (fun _ => BitVec.ofNat 32 (d.lrec r).version :: BitVec.ofNat 32 ((d.lrec r).version / 2 ^ 32) ::
          (List.range 8).map fun i => BitVec.ofNat 32 (leNat (slice (d.lrec r).data (32 * v + 4 * i) 4))) same) ∧
      (∀ k, r < top → (d.lrec r).slot = some k → d.versions r = [(k, d.slot k)] → s.Runs (.ldgRead true) fun d' => (d'.lrec r).damaged = true ∧
        d'.chozer.reqs = [] ∧ d'.raised.any (fun e => e.src == 0x29 && e.payload == 0xFFFF) = true) ∧
      (∀ ue : Bool, top ≤ r → r < d.part.records → s.Refuses m rq (.ldgRead ue) stDENIED)) ∧
    (d.Asked rq 0x308 0 → s.Replies m rq .ldgStat stOK (fun _ => [SGN_STATUS, SGN_HUP_V, SGN_HUP_C, SGN_HUP_E, SGN_LG, SGN_BUCKET, SGN_FREE,
      SGN_RETIRED, SGN_WEAR_MAX].map d.r) same)

/-- A ledger commit of one record write (LEDGER_COMMIT_DONE): the record shows its new data under the next sequence number, in a slot written with it, one
token is taken and the request is answered with the number; with two read-backs that differ the commit fails and the record stays. A waiting clasp starts when
due, stays for want of energy and is tried 10 ms later. The bucket gains RATE; a refresh rewrites a version without a token; the window shows data and
descriptor; a store sample sets E and HUP_LOW; the capacitance test's two attempts (R528, R530-R532, R534, R537-R542, R546-R549, R551, R571). -/
def Obligations.LedgerEngine : Prop :=
  ∀ (s : State), s.Inv →
    let d := s.hw
    let next := (d.seq + 1) % 2 ^ 48
    let fresh : Prop := (d.leastFree next).isSome = true ∧ d.ledger.moveW < 16 ∧
      (∀ k, (d.slot k).writes + 1 < (d.r SGN_WEAR_LIMIT).toNat) ∧ d.ledger.slots.all (fun e => !e.2.bad) = true
    let energy (v : Nat) (x : Dev) : Nat := ((x.r SGN_HUP_C).toNat * (v * v - x.f SGN_HUP_VMIN SGN_HUP_VMIN_VMIN * x.f SGN_HUP_VMIN SGN_HUP_VMIN_VMIN) + 1999999) / 2000000
    let shown (x : Dev) : Prop := x.r SGN_HUP_E = BitVec.ofNat 32 (energy (x.f SGN_HUP_V SGN_HUP_V_V) x) ∧
      x.b SGN_STATUS SGN_STATUS_HUP_LOW = decide (energy (x.f SGN_HUP_V SGN_HUP_V_V) x < x.eReq 1 + x.eLg)
    (∀ (m : Fin 16) (rq : Request) (w : LWrite), rq.by m → d.chozer.reqs = [rq] → d.chozUp = true → rqw rq 0 / 2 ^ 20 = 0x302 →
      d.ledger.active = some (⟨[m], [w]⟩, false) → 1 ≤ w.op → w.op ≤ 3 → fresh →
      (s.Replies m rq (.ledgerCommitDone []) stOK (fun _ => [BitVec.ofNat 32 next, BitVec.ofNat 32 (next / 2 ^ 32)]) fun d' =>
        (d'.lrec w.rec_).data = lwApply (d.lrec w.rec_).data w ∧ (d'.lrec w.rec_).version = next ∧ (d'.lrec w.rec_).last = some d.beam ∧
        (d'.lrec w.rec_).commits = min 4294967295 ((d.lrec w.rec_).commits + 1) ∧ d'.seq = next ∧
        (∃ k, (d'.lrec w.rec_).slot = some k ∧ d.slotUsed k = false ∧ (d'.slot k).kind = kSOLO ∧ (d'.slot k).seq = next ∧ (d'.slot k).record = w.rec_ ∧
          (d'.slot k).data = (d'.lrec w.rec_).data ∧ (d'.slot k).writes = (d.slot k).writes + 1) ∧
        (∀ k, k ≠ w.rec_ → d'.lrec k = d.lrec k) ∧ (d'.r SGN_BUCKET).toNat = (d.r SGN_BUCKET).toNat - 1 ∧ d'.ledger.active = none ∧
        d'.b SGN_STATUS SGN_STATUS_BUSY = false) ∧
      (s.Replies m rq (.ledgerCommitDone [2]) stFAILED (fun _ => []) fun d' => d'.ledger.recs = d.ledger.recs ∧ d'.ledger.active = none ∧
        d'.b SGN_STATUS SGN_STATUS_BUSY = false)) ∧
    (∀ (i : Nat) (c : LClasp), d.waitingClasps[i]? = some c → d.engineFree = true → d.ledger.retryAt ≤ d.beam →
      let goes (d' : Dev) : Prop := d'.ledger.active = some (c, true) ∧ d'.b SGN_STATUS SGN_STATUS_BUSY = true ∧ d'.ledger.recs = d.ledger.recs ∧
        d'.ledger.cache.length + d'.ledger.logq.length + 1 = d.ledger.cache.length + d.ledger.logq.length
      let stays (d' : Dev) : Prop := d'.ledger.cache = d.ledger.cache ∧ d'.ledger.logq = d.ledger.logq ∧ d'.ledger.retryAt = d.beam + 10 * msTicks ∧
        d'.ledger.active = none ∧ d'.f SGN_CNT SGN_CNT_HOLDUP_REFUSED = min 65535 (d.f SGN_CNT SGN_CNT_HOLDUP_REFUSED + 1)
      d.b SGN_STATUS SGN_STATUS_DEVICE_WORN = false →
      (d.claspDue c = true →
        (d.hupEnough (d.slotWrites c) = true → s.Runs (.deferredClaspDue i) goes ∧ (i = 0 → s.Runs .holdupRetry goes)) ∧
        (d.hupEnough (d.slotWrites c) = false → s.Runs (.deferredClaspDue i) stays ∧ (i = 0 → s.Runs .holdupRetry stays))) ∧
      (d.claspDue c = false → s.Runs (.deferredClaspDue i) fun d' => d'.ledger = d.ledger ∧ d.Keeps [] d')) ∧
    s.Runs .wearTokenGain (fun d' =>
      let n := min 16777216 ((d.r SGN_BUCKET).toNat + d.f SGN_BUDGET SGN_BUDGET_RATE)
      d'.r SGN_BUCKET = BitVec.ofNat 32 n ∧ d'.b SGN_STATUS SGN_STATUS_BUDGET_EMPTY = decide (n < 257) ∧ d.Only [SGN_BUCKET, SGN_STATUS] d') ∧
    (∀ r : Fin 262144, (d.lrec r).slot.isSome = true → d.b SGN_STATUS SGN_STATUS_READY = true → fresh → s.Runs (.recordRefresh r) fun d' =>
      (d'.lrec r).data = (d.lrec r).data ∧ (d'.lrec r).version = next ∧ (d'.lrec r).commits = (d.lrec r).commits ∧
      (∃ k, (d'.lrec r).slot = some k ∧ d.slotUsed k = false ∧ (d'.slot k).kind = kREFRESH ∧ (d'.slot k).data = (d.lrec r).data) ∧
      (∀ k, k ≠ r.val → d'.lrec k = d.lrec k) ∧ d'.r SGN_BUCKET = d.r SGN_BUCKET ∧
      d'.b SGN_STATUS SGN_STATUS_REFRESH_LATE = (d.b SGN_STATUS SGN_STATUS_REFRESH_LATE || decide (730 ≤ d.age r))) ∧
    (∀ (q : Req) (r : Fin 262144) (i : Fin 16), d.b SGN_STATUS SGN_STATUS_READY = true →
      (d.accessErr q (0x60000000 + r * 0x40 + i * 4) 4 false = .none → (d.lrec r).damaged = false →
        s.Runs (.ledgerWindowRead q (0x60000000 + r * 0x40 + i * 4) false) fun d' => d'.Answers q
          (if d.part.records - 8192 ≤ r then 0 else BitVec.ofNat 32 (leNat (slice (d.lrec r).data (4 * i) 4))) ∧ d'.ledger = d.ledger ∧ d.Keeps [] d') ∧
      (d.accessErr q (0x61000000 + r * 0x40 + i * 4) 4 false = .none → r < d.part.records - 8192 →
        s.Runs (.ledgerWindowRead q (0x61000000 + r * 0x40 + i * 4) false) fun d' => let x := (tabGet {} d'.bus q).data; d'.Answers q x ∧ d'.ledger = d.ledger ∧
          (i = 0 → x.toNat % 256 = (d.lrec r).type % 256 ∧ x.toNat / 65536 = (d.lrec r).minInt % 65536) ∧
          (i = 1 → x = BitVec.ofNat 32 (d.lrec r).layout) ∧ (i = 4 → x = BitVec.ofNat 32 (d.lrec r).version) ∧
          (i = 5 → x = BitVec.ofNat 32 ((d.lrec r).version / 2 ^ 32)) ∧ (i = 6 → x = BitVec.ofNat 32 (d.lrec r).commits))) ∧
    (∀ (q : Req) (a : Nat) (ue : Bool), placeOf a = .ledger → d.accessErr q a 4 false = .none → d.b SGN_STATUS SGN_STATUS_READY = false →
      s.Runs (.ledgerWindowRead q a ue) fun d' => d'.bus = d.bus ∧ d'.ledger = d.ledger ∧ d.Keeps [] d') ∧
    (∀ v : BitVec 16, s.Runs (.hupSenseSample v) fun d' => d'.f SGN_HUP_V SGN_HUP_V_V = v.toNat ∧ shown d' ∧ d.Keeps [SGN_HUP_V, SGN_HUP_E, SGN_LG, SGN_STATUS] d') ∧
    (∀ q : Req, d.accessErr q SGN_HUP_TEST 4 true = .none → s.Runs (.hupTestGo q) fun d' => d'.Answers q 0 ∧ d.Keeps [] d' ∧
      d'.ledger = { d.ledger with test := if d.ledger.test = 0 then 1 else d.ledger.test }) ∧
    (∀ v : BitVec 16, let drop := v.toNat - d.f SGN_HUP_TLIM SGN_HUP_TLIM_TEST_DV
      let lets : Prop := d.ledger.active = none ∧ (d.r SGN_HUP_C = 0 ∨ d.eReq 257 + d.eLg ≤ energy drop d)
      let starts (k : Nat) (d' : Dev) : Prop := d'.b SGN_STATUS SGN_STATUS_TESTING = true ∧ d'.f SGN_HUP_V SGN_HUP_V_V = v.toNat ∧ shown d' ∧
        d'.ledger = { d.ledger with test := k, v1 := v.toNat, testAt := d.ledger.powered + d.beam }
      (d.ledger.test = 1 → lets → s.Runs (.capacitanceTestStart v) (starts 2)) ∧
      (d.ledger.test = 0 → d.ledger.testAt + max 1 (d.f SGN_HUP_TEST SGN_HUP_TEST_TEST_DAYS) * (86400 * 1000 * msTicks) ≤ d.ledger.powered + d.beam → lets →
        s.Runs (.capacitanceTestStart v) (starts 2)) ∧
      (d.ledger.test = 3 → d.ledger.testAt + 10000 * msTicks ≤ d.ledger.powered + d.beam → lets → s.Runs (.capacitanceTestRepeat v) (starts 4))) ∧
    (∀ (v : BitVec 16) (dt : Nat) (late : Bool), d.b SGN_STATUS SGN_STATUS_TESTING = true → d.ledger.test = 2 ∨ d.ledger.test = 4 →
      let c := d.f SGN_HUP_TEST SGN_HUP_TEST_I_MA * dt / (d.ledger.v1 - v.toNat)
      let old := (d.r SGN_HUP_C).toNat
      let passes : Prop := late = false ∧ v.toNat < d.ledger.v1 ∧ (old = 0 ∨ 4 * (max c old - min c old) ≤ old)
      (passes → s.Runs (.capacitanceTestEnd v dt late) fun d' => d'.r SGN_HUP_C = BitVec.ofNat 32 c ∧ d'.b SGN_STATUS SGN_STATUS_TESTING = false ∧
        d'.ledger = { d.ledger with test := 0 } ∧ d'.raised.any (fun e => e.src == 4 && e.payload == 0) = true) ∧
      (¬ passes → d.ledger.test = 2 → s.Runs (.capacitanceTestEnd v dt late) fun d' => d'.r SGN_HUP_C = d.r SGN_HUP_C ∧
        d'.b SGN_STATUS SGN_STATUS_TESTING = false ∧ d'.ledger = { d.ledger with test := 3, testAt := d.ledger.powered + d.beam }) ∧
      (¬ passes → d.ledger.test = 4 → s.Runs (.capacitanceTestEnd v dt late) fun d' => d'.r SGN_HUP_C = d.r SGN_HUP_C ∧
        d'.b SGN_STATUS SGN_STATUS_TESTING = false ∧ d'.b SGN_STATUS SGN_STATUS_HUP_FAIL = true ∧ d'.ledger = { d.ledger with test := 0 } ∧
        d'.raised.any (fun e => e.src == 4 && e.payload == 1) = true))

/-- A challenge gives an SID, the device's nonce and, for PASS, salt and ITER; a locked credential or eight open sessions refuse it. The right proof in
time opens a session with the slot's role, a wrong one counts and from the fifth locks the credential. SES_END and 60 s without an accepted request end a
session with its clasp; SES_PROVISION sets a credential; a message is taken by its SID, TAG and CTR; DIAG_DEBUG opens and closes the debug port
(R573, R576, R578-R583; SID and nonce are free values: log entry 5). -/
def Obligations.SessionCommands : Prop :=
  ∀ (s : State) (rq : Request), s.Inv →
    let d := s.hw
    let v := rqw rq 1
    let sec := 1000 * msTicks
    let now := d.ledger.powered + d.beam
    let still (d' : Dev) : Prop := d.Keeps [] d' ∧ d'.mem = d.mem
    let cr (x : Sess) : Nat := (if x.pass then 8 else 0) + x.slot
    let ended (i : Fin 8) (d' : Dev) : Prop := d'.sess i = {} ∧ d'.ldgHeld (16 + i) = none ∧ ∀ j, j ≠ i.val → d'.sess j = d.sess j
    let answer (pass : Bool) (k : Nat) (x : ExtMsg) : Prop := rq.origin = 32 + k ∧ rq.ext = some x ∧ 8 ≤ k ∧ (d.sess k).used = false ∧
      (d.sess k).pass = pass ∧ (d.sess k).slot < 8
    let proved (k : Nat) (i : Fin 8) : Prop := d.beam ≤ (d.sess k).at_ + 5 * sec ∧ (d.cred (cr (d.sess k))).value ≠ [] ∧
      rqHash rq 1 = proofC (d.cred (cr (d.sess k))).value (d.sess k) ∧ (d.sess i).opened = false ∧ ∀ j : Fin 8, j < i → (d.sess j).opened = true
    let opens (k : Nat) (i : Fin 8) (x : ExtMsg) (d' : Dev) : Prop :=
      let c := d.cred (cr (d.sess k))
      let y := d.sess k
      d.Sent d' (replyTo x none stOK (BitVec.ofNat 32 c.role :: bytesWords 8 (proofD c.value y))) ∧
      d'.sess i = { opened := true, sid := y.sid, link := y.link, src := y.src, role := c.role, token := tokenOf c.value y, last := d.beam } ∧
      d'.sess k = {} ∧ d'.cred (cr y) = { c with fails := 0 }
    let wrong (k : Nat) : Prop := d.beam ≤ (d.sess k).at_ + 5 * sec ∧ rqHash rq 1 ≠ proofC (d.cred (cr (d.sess k))).value (d.sess k)
    let fails (k : Nat) (x : ExtMsg) (d' : Dev) : Prop :=
      let c := d.cred (cr (d.sess k))
      d.Sent d' (replyTo x none stDENIED []) ∧ d'.sess k = { d.sess k with used := true } ∧ (d'.cred (cr (d.sess k))).fails = c.fails + 1 ∧
      (d'.cred (cr (d.sess k))).until_ = (if 4 ≤ c.fails then now + min 65536 (2 ^ (c.fails - 4)) * sec else c.until_)
    (∀ x : ExtMsg, rq.origin = 24 → rq.ext = some x → d.Asked rq 0x400 36 → onlyBits v 0x107 = true →
      let c := d.cred (v / 256 * 8 + v % 8)
      let room : Prop := ((List.finRange 8).any fun i => !(d.sess i).opened) = true
      (c.until_ ≤ now → room → s.Runs .sesChallenge fun d' => still d' ∧ ∃ k, 8 ≤ k ∧ tabFind d.chozer.sess k = none ∧
        let y := d'.sess k
        y = { sid := y.sid, nd := y.nd, link := x.link, src := x.src.toNat, pass := nbit v 8, slot := v % 8, nc := rqHash rq 2, used := false, at_ := d.beam } ∧
        d.Sent d' (replyTo x none stOK (BitVec.ofNat 32 y.sid :: bytesWords 8 y.nd ++
          if nbit v 8 then (List.range 4).map (fun j => (c.salt[j]?).getD 0) ++ [BitVec.ofNat 32 c.iter] else []))) ∧
      (now < c.until_ → s.Runs .sesChallenge fun d' => still d' ∧ d'.chozer.sess = d.chozer.sess ∧
        d.Sent d' (replyTo x none stDENIED [BitVec.ofNat 32 ((c.until_ - now + (sec - 1)) / sec)])) ∧
      (c.until_ ≤ now → ¬ room → s.Runs .sesChallenge fun d' => still d' ∧ d'.chozer.sess = d.chozer.sess ∧ d.Sent d' (replyTo x none stBUSY []))) ∧
    (∀ (k : Nat) (i : Fin 8) (x : ExtMsg),
      (d.Asked rq 0x401 32 → answer false k x → (proved k i → s.Runs .sesKey (opens k i x)) ∧ (wrong k → s.Runs .sesKey (fails k x)) ∧
        ((d.sess k).at_ + 5 * sec < d.beam → s.Runs .sesKey fun d' => d.Sent d' (replyTo x none stTIMEOUT []) ∧ d'.chozer.creds = d.chozer.creds)) ∧
      (d.Asked rq 0x402 32 → answer true k x → (proved k i → s.Runs .sesPass (opens k i x)) ∧ (wrong k → s.Runs .sesPass (fails k x)) ∧
        ((d.sess k).at_ + 5 * sec < d.beam → s.Runs .sesPass fun d' => d.Sent d' (replyTo x none stTIMEOUT []) ∧ d'.chozer.creds = d.chozer.creds))) ∧
    (∀ (i : Fin 8) (x : ExtMsg), rq.origin = 16 + i → rq.ext = some x → (d.sess i).opened = true →
      (d.Asked rq 0x403 0 → s.Runs .sesEnd fun d' => ended i d' ∧ d.Sent d' (replyTo x (some (d.sess i).token) stOK [])) ∧
      (d.Asked rq 0x703 4 → (d.sess i).role = 2 →
        (∀ cores : Fin 256, v = 0x10000 + cores → (∀ c : Fin 8, nbit cores c = true → d.part.hasCore c = true) → (d.sess i).link = 10 →
          s.Runs .diagDebug fun d' => d.Sent d' (replyTo x (some (d.sess i).token) stOK []) ∧ d'.chozer.debug = true ∧
            (∀ c : Fin 8, d'.b (CORE_CTL c) CORE_CTL_DBG_EN = (nbit cores c || d.b (CORE_CTL c) CORE_CTL_DBG_EN)) ∧
            ∀ n : Isl, d'.mayWrite 11 n = (nbit cores n || d.mayWrite 11 n)) ∧
        (v = 0 → (d.sess i).link = 10 → d.chozer.debug = true → s.Runs .diagDebug fun d' => d.Sent d' (replyTo x (some (d.sess i).token) stOK []) ∧
          d'.chozer.debug = false ∧ (∀ c : Core, d'.b (CORE_CTL c) CORE_CTL_DBG_EN = false) ∧ ∀ n : Isl, d'.mayWrite 11 n = false) ∧
        (v = 0x10000 → (d.sess i).link ≠ 10 → s.Runs .diagDebug fun d' => d.Sent d' (replyTo x (some (d.sess i).token) stDENIED []) ∧ still d'))) ∧
    (∀ i : Fin 8, (d.sess i).opened = true → (d.sess i).last + 60 * sec ≤ d.beam → s.Runs (.sessionIdleExpiry i) (ended i)) ∧
    (∀ i : Fin 8, d.beam < (d.sess i).last + 60 * sec → s.Runs (.sessionIdleExpiry i) fun d' => d'.chozer = d.chozer ∧ still d') ∧
    (∀ m : Fin 16, rq.by m → ∀ k role : Fin 8,
      (role ≤ 2 → d.Asked rq 0x404 36 → v = k * 0x100 + role * 0x10000 → d.b SGN_STATUS SGN_STATUS_DEVICE_WORN = false → d.hupEnough 1 = true →
        (d.mode = mSetup → s.Replies m rq .sesProvision stOK (fun _ => []) fun d' =>
          d'.cred k = { d.cred k with value := if (List.range 8).all (fun j => rqw rq (2 + j) == 0) then [] else rqHash rq 2, role := role, fails := 0 } ∧
          (∀ j, j ≠ k.val → d'.cred j = d.cred j) ∧ d.Keeps ([SGN_HUP_E, SGN_LG, SGN_STATUS] ++ replyRegs m) d') ∧
        (d.mode ≠ mSetup → s.Refuses m rq .sesProvision stDENIED)) ∧
      (role ≤ 1 → d.Asked rq 0x404 56 → v = 1 + k * 0x100 + role * 0x10000 → 10000 ≤ rqw rq 6 → rqw rq 6 ≤ 1000000 →
        d.b SGN_STATUS SGN_STATUS_DEVICE_WORN = false → d.hupEnough 1 = true → d.mode = mSetup → s.Replies m rq .sesProvision stOK (fun _ => []) fun d' =>
          (d'.cred (8 + k)).role = role ∧ (d'.cred (8 + k)).iter = rqw rq 6 ∧ (d'.cred (8 + k)).fails = 0 ∧
          (d'.cred (8 + k)).value = (if (List.range 8).all (fun j => rqw rq (7 + j) == 0) then [] else rqHash rq 7) ∧
          (d'.cred (8 + k)).salt = (List.range 4).map fun j => BitVec.ofNat 32 (rqw rq (2 + j)))) ∧
    (∀ x : ExtMsg, d.chozUp = true → d.committing = false → d.chozer.reqs = [] →
      let cmd := x.hdr.toNat / 2 ^ 20
      let took (o : Nat) (d' : Dev) : Prop := d'.chozer.reqs = [⟨o, x.hdr :: x.payload, d.beam, some x⟩] ∧ d'.chozer.out = d.chozer.out ∧ still d'
      (x.sid = 0 → cmd = 0x400 → s.Runs (.externalMessage x) (took 24)) ∧
      (x.sid = 0 → cmd ≠ 0x400 → s.Runs (.externalMessage x) fun d' => d.Sent d' (replyTo x none stNOSESS []) ∧ still d') ∧
      (∀ i : Fin 8, x.sid ≠ 0 → d.sidKey x.sid.toNat = some i.val → (d.sess i).opened = true → (d.sess i).link = x.link → (d.sess i).src = x.src.toNat →
        let tag := sessTag (d.sess i).token 0x51 x.sid.toNat x.ctr.toNat x.hdr.toNat x.payload
        (leBytes x.tag.toNat 8 = tag → (d.sess i).ctr < x.ctr.toNat → knownCmd cmd = true → s.Runs (.externalMessage x) fun d' => took (16 + i) d' ∧
          d'.sess i = { d.sess i with ctr := x.ctr.toNat, discards := 0, last := d.beam }) ∧
        (leBytes x.tag.toNat 8 ≠ tag ∨ x.ctr.toNat ≤ (d.sess i).ctr → s.Runs (.externalMessage x) fun d' => d'.chozer.reqs = [] ∧ d'.chozer.out = d.chozer.out ∧
          if (d.sess i).discards = 4 then d'.sess i = {} else d'.sess i = { d.sess i with discards := (d.sess i).discards + 1 })))

/-- The update states of an image: UPD_BEGIN starts staging, UPD_DATA stores bytes, UPD_SIGN half a signature, UPD_VERIFY starts verification of a whole
staging, VERIFY_COMPLETE and APPLY_COMPLETE judge it by key, header and FLOOR, UPD_APPLY needs no island in RUN, UPD_CONFIRM makes the trial's slot active
and raises FLOOR on request, an expired trial falls back, UPD_STATUS answers the image's state, UPD_ABORT gives the update up; every change of state raises
source 0x003A (R585-R589; the verdict of the signature is open: log entry 9). -/
def Obligations.UpdateStates : Prop :=
  ∀ (s : State) (m : Fin 16) (rq : Request), s.Inv → rq.by m →
    let d := s.hw
    let v := rqw rq 1
    let none_ : Dev → List Word := fun _ => []
    let others (i : Fin 8) (d' : Dev) : Prop := ∀ j : Fin 8, j ≠ i → d'.img j = d.img j
    let still (d' : Dev) : Prop := d'.mem = d.mem ∧ d.Keeps (replyRegs m) d'
    let becomes (i : Fin 8) (x : Img) (d' : Dev) : Prop := d'.img i = x ∧ others i d' ∧ d'.mem = d.mem ∧
      d'.raised.any (fun e => e.src == 0x3A && e.payload == i * 256 + x.state) = true
    let only (i : Fin 8) (x : Nat) : Prop := (d.img i).state = x ∧ ∀ j : Fin 8, j ≠ i → (d.img j).state ≠ x
    let key (i : Fin 8) : List Byte := if i = 0 then Config.vendorKey else wordBytes d.chozer.updX ++ wordBytes d.chozer.updY
    let sound (i : Fin 8) : Bool :=
      let x := d.img i
      (i == 0 || !(key i).all (fun b => b == 0)) && Config.ecdsaOk (stagedBytes x) (key i) (wordBytes x.sigR ++ wordBytes x.sigS) &&
        stagedWord x 0 == i && stagedWord x 8 == x.len && decide (x.floor ≤ stagedWord x 4)
    (d.Asked rq 0x600 8 → ∀ i : Fin 8, v = i →
      let n := rqw rq 2
      let idle : Prop := ∀ j : Fin 8, (d.img j).state = 0 ∨ 4 < (d.img j).state
      (64 ≤ n → n ≤ 491520 → n % 16 = 0 → (d.img i).state ∈ [0, 7, 8, 9] → idle → s.Replies m rq .updBegin stOK none_ fun d' => still d' ∧
        becomes i { d.img i with state := 1, len := n, staged := [], got := [], sigR := [], sigS := [] } d') ∧
      (64 ≤ n → n ≤ 491520 → n % 16 = 0 → (d.img i).state ∈ [0, 7, 8, 9] → ¬ idle → s.Refuses m rq .updBegin stBUSY) ∧
      (n < 64 ∨ 491520 < n ∨ n % 16 ≠ 0 → s.Refuses m rq .updBegin stBADARG)) ∧
    (∀ (i : Fin 8) (n : Fin 49), only i 1 → n.val ∈ [16, 32, 48] → d.Asked rq 0x601 (8 + n) → rqw rq 2 = n → v % 16 = 0 →
      (v + n ≤ (d.img i).len → d.b SGN_STATUS SGN_STATUS_DEVICE_WORN = false → d.hupEnough 1 = true →
        s.Replies m rq .updData stOK none_ fun d' => others i d' ∧ (d'.img i).state = 1 ∧
          (∀ k, tabGet 0 (d'.img i).staged k = if v ≤ k ∧ k < v + n then (rqBytes rq n).getD (k - v) 0 else tabGet 0 (d.img i).staged k) ∧
          ∀ k, tabGet false (d'.img i).got k = (decide (v ≤ k ∧ k < v + n) || tabGet false (d.img i).got k)) ∧
      ((d.img i).len < v + n → s.Refuses m rq .updData stDENIED)) ∧
    (∀ i : Fin 8, only i 1 →
      let w := (List.range 8).map fun k => BitVec.ofNat 32 (rqw rq (2 + k))
      (d.Asked rq 0x602 36 → (v = 0 → s.Replies m rq .updSign stOK none_ fun d' => still d' ∧ others i d' ∧ d'.img i = { d.img i with sigR := w }) ∧
        (v = 1 → s.Replies m rq .updSign stOK none_ fun d' => still d' ∧ others i d' ∧ d'.img i = { d.img i with sigS := w })) ∧
      (d.Asked rq 0x603 0 →
        ((d.img i).len ≤ (d.img i).got.length → (d.img i).sigR ≠ [] → (d.img i).sigS ≠ [] → s.Replies m rq .updVerify stOK none_ fun d' =>
          still d' ∧ becomes i { d.img i with state := 2 } d') ∧
        ((d.img i).got.length < (d.img i).len → s.Refuses m rq .updVerify stDENIED))) ∧
    (∀ i : Fin 8, only i 2 → s.Runs .verifyComplete (becomes i { d.img i with state := if sound i then 3 else 9 })) ∧
    (∀ i : Fin 8, only i 3 → d.Asked rq 0x604 4 → 10 ≤ v → v ≤ 3600 →
      ((∀ n : Isl, d.inRun n = false) → s.Replies m rq .updApply stOK none_ fun d' => still d' ∧ becomes i { d.img i with trialS := v, state := 4 } d') ∧
      ((∃ n : Isl, d.inRun n = true) → s.Refuses m rq .updApply stDENIED)) ∧
    (∀ (i : Fin 8) (ok : Bool), only i 4 → s.Runs (.applyComplete ok) (becomes i (if ok && sound i then
      { d.img i with state := 5, verOth := stagedWord (d.img i) 4, raise_ := nbit (stagedWord (d.img i) 12) 0 } else { d.img i with state := 9 }))) ∧
    (∀ i : Fin 8, d.Asked rq 0x605 4 → v = i →
      let x := d.img i
      (x.state = 6 → s.Replies m rq .updConfirm stOK none_ fun d' => still d' ∧
        becomes i { x with state := 7, slotB := !x.slotB, verAct := x.verOth, verOth := x.verAct, floor := if x.raise_ then x.verOth else x.floor } d') ∧
      (x.state ≠ 6 → s.Refuses m rq .updConfirm stDENIED)) ∧
    (∀ i : Fin 8, (d.img i).state = 6 →
      ((d.img i).trialEnd ≤ d.beam → s.Runs (.trialExpiry i) (becomes i { d.img i with state := 8 })) ∧
      (d.beam < (d.img i).trialEnd → s.Runs (.trialExpiry i) fun d' => d'.chozer = d.chozer ∧ still d')) ∧
    (∀ i : Fin 8, d.Asked rq 0x606 4 → v = i →
      let x := d.img i
      s.Replies m rq .updStatus stOK (fun _ => [BitVec.ofNat 32 (x.state + if x.slotB then 256 else 0), BitVec.ofNat 32 x.verAct, BitVec.ofNat 32 x.verOth,
        BitVec.ofNat 32 x.floor, BitVec.ofNat 32 x.got.length,
        BitVec.ofNat 32 (if x.state = 6 then (x.trialEnd - d.beam + 499999999) / 500000000 else 0)]) still) ∧
    (d.Asked rq 0x607 0 →
      (∀ i : Fin 8, only i 1 ∨ only i 3 → (∀ j : Fin 8, j ≠ i → (d.img j).state = 0 ∨ 4 < (d.img j).state) →
        s.Replies m rq .updAbort stOK none_ fun d' => still d' ∧ becomes i { d.img i with state := 0 } d') ∧
      (∀ i : Fin 8, only i 2 ∨ only i 4 → s.Refuses m rq .updAbort stBUSY))

/-- Chain ports: CHN_PARTNERS, CHN_CFG, CHN_SWITCH and CHN_TIME answer and set; a kick scans the ring, a sent frame is written back with its tick, a received
one is stored with its tick or sets RX_OVF; the switch forwards and learns, a learned address ages out; a gate list is applied, swapped and starts its
cycle; a link change shows; Sync drives the servo and its absence stops it; hellos build the partner table, silence frees an entry; peer delay
exchanges run (R574, R591-R608, R616; hello contents: log entry 61). -/
def Obligations.ChainTraffic : Prop :=
  ∀ (s : State) (p : Fin 4), s.Inv →
    let d := s.hw
    let still (d' : Dev) : Prop := d.Keeps [] d' ∧ d'.mem = d.mem
    let port : Prop := d.portUp p = true ∧ d.swOn = false
    let words (i : Nat) : List Word := match d.partner i with
      | some x => [BitVec.ofNat 32 x.ident, BitVec.ofNat 32 (x.ident / 2 ^ 32),
          BitVec.ofNat 32 (x.port + (if x.rear then 2 ^ 8 else 0) + x.hop % 256 * 2 ^ 16 + 2 ^ 24), BitVec.ofNat 32 ((d.beam - x.seen) / msTicks)]
      | none => [0, 0, 0, 0]
    let fires (k : Nat) (d' : Dev) : Prop := d'.transit = (d.fire 7 (0x80 + 4 * p + k)).transit
    (∀ (m : Fin 16) (rq : Request), rq.by m →
      let v := rqw rq 1
      let set (d' : Dev) : Prop := d.Keeps ([SGN_HUP_E, SGN_LG, SGN_STATUS, CHN_SW_CTL] ++ replyRegs m) d' ∧ d'.mem = d.mem
      (d.Asked rq 0x500 4 → v ≤ 63 → s.Replies m rq .chnPartners stOK (fun _ =>
        BitVec.ofNat 32 ((List.range 64).countP fun i => (d.partner i).isSome) :: (words v ++ words (v + 1) ++ words (v + 2))) fun d' => d.Keeps (replyRegs m) d') ∧
      (∀ a b c : Bool, d.Asked rq 0x501 4 → v = p + (if a then 2 ^ 8 else 0) + (if b then 2 ^ 9 else 0) + (if c then 2 ^ 10 else 0) →
        (d.mode = mSetup → d.b SGN_STATUS SGN_STATUS_DEVICE_WORN = false → d.hupEnough 1 = true → s.Replies m rq .chnCfg stOK (fun _ => []) fun d' =>
          set d' ∧ d'.portCfg p = ⟨a, b, c⟩ ∧ ∀ k : Fin 4, k ≠ p → d'.portCfg k = d.portCfg k) ∧
        (d.mode ≠ mSetup → s.Refuses m rq .chnCfg stDENIED)) ∧
      (∀ a b : Bool, d.Asked rq 0x502 4 → v = (if a then 1 else 0) + (if b then 2 else 0) → d.part.hasSwitch = true →
        (d.mode = mSetup → (a = false ∨ d.net.seen0 = []) → d.b SGN_STATUS SGN_STATUS_DEVICE_WORN = false → d.hupEnough 1 = true →
          s.Replies m rq .chnSwitch stOK (fun _ => []) fun d' => set d' ∧ d'.r CHN_SW_CTL = BitVec.ofNat 32 v ∧ d'.net.swEn = a ∧ d'.net.swSafe = b) ∧
        (∀ id t, d.mode = mSetup → a = true → (id, t) ∈ d.net.seen0 → d.seenBoth id = true → s.Refuses m rq .chnSwitch stLOOP) ∧
        (d.mode ≠ mSetup → s.Refuses m rq .chnSwitch stDENIED)) ∧
      (d.Asked rq 0x503 0 → s.Replies m rq .chnTime stOK (fun _ => [BitVec.ofNat 32 d.ttOffset, BitVec.ofNat 32 (d.ttOffset / 2 ^ 32), BitVec.ofNat 32 d.net.servo,
        BitVec.ofInt 32 (max (-2147483648) (min 2147483647 d.net.err)), BitVec.ofNat 32 d.net.gm, BitVec.ofNat 32 (d.net.gm / 2 ^ 32)]) fun d' => d.Keeps (replyRegs m) d')) ∧
    (∀ (q : Req) (r : Fin 8), d.accessErr q (CHN_TXR_KICK p r) 4 true = .none → d.portUp p = true →
      let a := d.txDesc p r
      (d.dmaReach a = true → d.dmaReach (d.loadN a 4) = true → s.Runs (.txKick q p r) fun d' => d'.Answers q 0 ∧ still d' ∧
        tabGet false d'.net.scan (p * 8 + r) = nbit (d.loadN (a + 4) 4) 31) ∧
      (d.dmaReach a = false → s.Runs (.txKick q p r) fun d' => d'.Answers q 0 ∧ d'.b (CHN_STATUS p) CHN_STATUS_TX_ERR = true ∧
        tabGet false d'.net.scan (p * 8 + r) = false ∧ d.Keeps [CHN_STATUS p] d')) ∧
    (∀ r : Fin 8, port →
      let a := d.txDesc p r
      let w1 := d.loadN (a + 4) 4
      let f := d.loadBytes (d.loadN a 4) (w1 % 2 ^ 14)
      let f := f ++ List.replicate (60 - f.length) 0
      tabGet false d.net.scan (p * 8 + r) = true → d.dmaReach a = true → d.gateAllows p r f.length = true → s.Runs (.frameTransmitted p r) fun d' =>
        d'.net.sent = d.net.sent ++ [(p.val, f, true)] ∧ d'.loadN a 4 = d.loadN a 4 ∧ d'.loadN (a + 4) 4 = w1 % 2 ^ 31 ∧ d'.loadN (a + 8) 8 = d.beam ∧
        (∀ x, x < a + 4 ∨ a + 16 ≤ x → d'.byte x = d.byte x) ∧ fires 1 d' ∧
        d'.f (CHN_TXR_PTR p r) CHN_TXR_PTR_PTR = (d.f (CHN_TXR_PTR p r) CHN_TXR_PTR_PTR + 1) % descCount (d.f (CHN_TXR_CFG p r) CHN_TXR_CFG_LOG2) ∧
        d.Keeps [CHN_TXR_PTR p r, CHN_STATUS p] d') ∧
    (∀ f : NetFrame, 60 ≤ f.bytes.length → f.bytes.length ≤ 1518 → f.fcsOk = true →
      let i := d.f (CHN_RXR_PTR p) CHN_RXR_PTR_PTR
      let k := d.f (CHN_RXR_CFG p) CHN_RXR_CFG_LOG2
      let a := descAddr (d.r (CHN_RXR_BASE p)).toNat k i
      let buf := d.loadN a 4
      let w1 := d.loadN (a + 4) 4
      let n := min f.bytes.length (w1 % 2 ^ 14)
      (port → d.accepts p f.bytes = true → d.dmaReach a = true → nbit w1 31 = true → d.dmaReach buf = true → buf + n ≤ a ∨ a + 16 ≤ buf →
        s.Runs (.frameReceived p f) fun d' => (∀ j, j < n → d'.byte (buf + j) = f.bytes.getD j 0) ∧
          d'.loadN (a + 4) 4 = n + (if n < f.bytes.length then 2 ^ 30 else 0) ∧ d'.loadN (a + 8) 8 = d.beam ∧
          (∀ x, x < a + 4 ∨ a + 16 ≤ x → x < buf ∨ buf + n ≤ x → d'.byte x = d.byte x) ∧ fires 0 d' ∧
          d'.f (CHN_RXR_PTR p) CHN_RXR_PTR_PTR = (i + 1) % descCount k ∧ d.Keeps [CHN_RXR_PTR p] d') ∧
      (port → d.accepts p f.bytes = true → d.dmaReach a = true → nbit w1 31 = false → s.Runs (.frameReceived p f) fun d' =>
        d'.b (CHN_STATUS p) CHN_STATUS_RX_OVF = true ∧ d.Keeps [CHN_STATUS p] d' ∧ d'.mem = d.mem) ∧
      (p < 2 → d.portUp p = true → d.portUp (1 - p) = true → d.swOn = true → d.chnFwd = true → d.b CHN_SW_CTL CHN_SW_CTL_BLOCK1 = false →
        nbit (fbyte f.bytes 0) 0 = false → d.net.macs = [(leNat (f.bytes.take 6), 1 - p.val, d.beam)] → nbit (fbyte f.bytes 6) 0 = false →
        leNat (slice f.bytes 6 6) ≠ leNat (f.bytes.take 6) →
        d.chozFrame 1 f.bytes = false → etype f.bytes ≠ 0x88F7 → s.Runs (.frameReceived p f) fun d' => d'.net.sent = d.net.sent ++ [(1 - p.val, f.bytes, true)] ∧
          (leNat (slice f.bytes 6 6), p.val, d.beam) ∈ d'.net.macs ∧ d'.mem = d.mem)) ∧
    (∀ q : Req, d.accessErr q (CHN_GCL_CTL p) 4 true = .none →
      let base := (d.r (CHN_GCL_BASE_LO p)).toNat + (d.r (CHN_GCL_BASE_HI p)).toNat * 2 ^ 32
      let cyc := max 1 (d.f (CHN_GCL_CYCLE p) CHN_GCL_CYCLE_CYCLE)
      (d.b (CHN_GCL_CTL p) CHN_GCL_CTL_PENDING = false → d.gating p = false → s.Runs (.gclApply q p) fun d' => d'.Answers q 0 ∧
        d'.b (CHN_GCL_CTL p) CHN_GCL_CTL_PENDING = true ∧ d'.gcl p = { d.gcl p with swap := (d'.gcl p).swap } ∧ d.Only [CHN_GCL_CTL p] { d' with bus := d.bus, net := d.net } ∧
        (if d.trainTime < base then (d'.gcl p).swap = base
         else d.trainTime < (d'.gcl p).swap ∧ (d'.gcl p).swap ≤ d.trainTime + cyc ∧ ((d'.gcl p).swap - base) % cyc = 0)) ∧
      (d.b (CHN_GCL_CTL p) CHN_GCL_CTL_PENDING = true → s.Runs (.gclApply q p) fun d' => d'.Answers q 0 ∧ d'.net = d.net ∧ d.Keeps [] d')) ∧
    (d.ticking = true → d.powered (9 + p) = true →
      (d.b (CHN_GCL_CTL p) CHN_GCL_CTL_PENDING = true → (d.gcl p).swap ≤ d.trainTime → s.Runs (.gateChange p) fun d' =>
        (d'.gcl p).cycle = d.f (CHN_GCL_CYCLE p) CHN_GCL_CYCLE_CYCLE ∧ (d'.gcl p).len = d.f (CHN_GCL_LEN p) CHN_GCL_LEN_LEN ∧
        (d'.gcl p).base = (d.r (CHN_GCL_BASE_LO p)).toNat + (d.r (CHN_GCL_BASE_HI p)).toNat * 2 ^ 32 ∧
        (d'.gcl p).ents = (List.range 64).map (fun i => (d.r (CHN_GCL p i)).toNat) ∧ d'.b (CHN_GCL_CTL p) CHN_GCL_CTL_PENDING = false ∧
        d.Keeps [CHN_GCL_CTL p, CHN_STATUS p] d') ∧
      (d.b (CHN_GCL_CTL p) CHN_GCL_CTL_PENDING = false → d.gating p = true → (d.gcl p).base ≤ d.trainTime →
        let cs := d.trainTime - (d.trainTime - (d.gcl p).base) % max 1 (d.gcl p).cycle
        d.trainTime < cs + 2 → (d.gcl p).start ≠ cs → s.Runs (.gateChange p) fun d' => fires 2 d' ∧ d'.gcl p = { d.gcl p with start := cs } ∧
          (gclOver (d.gcl p) = true → d'.b (CHN_STATUS p) CHN_STATUS_GCL_ERR = true))) ∧
    (∀ (i : Nat) (e : Nat × Nat × Nat), d.net.macs[i]? = some e →
      (e.2.2 + max 1 (d.f CHN_SW_AGE CHN_SW_AGE_S) * (1000 * msTicks) ≤ d.beam → s.Runs (.addressAgeOut i) fun d' => still d' ∧
        d'.net = { d.net with macs := d.net.macs.take i ++ d.net.macs.drop (i + 1) }) ∧
      (d.beam < e.2.2 + max 1 (d.f CHN_SW_AGE CHN_SW_AGE_S) * (1000 * msTicks) → s.Runs (.addressAgeOut i) fun d' => still d' ∧ d'.net = d.net)) ∧
    (∀ up : Bool, d.powered (9 + p) = true → d.b (CHN_STATUS p) CHN_STATUS_LINK ≠ up → s.Runs (.linkChange p up) fun d' =>
      d'.b (CHN_STATUS p) CHN_STATUS_LINK = up ∧ d.Keeps [CHN_STATUS p] d' ∧
      (d'.raised = if d.bit (CHN_IRQ_EN p) 0 then (d.raise (0x100 + 8 * p)).raised else d.raised)) ∧
    (∀ gm e : BitVec 64, d.chozUp = true → (d.portCfg p).tsync = true → d.portUp p = true → d.lost = false → s.Runs (.syncReceived p gm e) fun d' =>
      (d'.ttOffset : Int) = (d.ttOffset - e.toInt) % 2 ^ 64 ∧ d'.net.err = e.toInt ∧ d'.net.gm = gm.toNat ∧ d'.net.lastSync = d.beam ∧
      d'.b BEAM_STATUS BEAM_STATUS_TT_VALID = true ∧
      d'.net.servo = (if d.net.servo = 0 then 1 else if d.net.servo = 1 then (if e.toInt.natAbs < 100 ∧ 7 ≤ d.net.good then 2 else 1)
        else if 1000 < e.toInt.natAbs then 1 else d.net.servo)) ∧
    (d.net.lastSync + 3000 * msTicks ≤ d.beam → s.Runs .syncTimeout fun d' => d'.net = { d.net with servo := 0, good := 0 } ∧
      d'.raised = (if d.net.servo = 2 then (d.raise 0x125).raised else d.raised) ∧ still d') ∧
    (d.beam < d.net.lastSync + 3000 * msTicks → s.Runs .syncTimeout fun d' => d'.net = d.net ∧ still d') ∧
    ((d.portCfg p).disc = true → d.managerUp = true → d.portUp p = true → d.mode ≠ mDormant → s.Runs (.helloSend p) fun d' => still d' ∧
      ∃ f, d'.net.sent = d.net.sent ++ [(p.val, f, true)] ∧ f.length = 60 ∧ f.take 6 = [0x03, 0x00, 0x47, 0x56, 0x5A, 0x01] ∧ slice f 6 6 = d.macBytes p ∧
        beNat (slice f 12 2) = d.f CHN_ETYPE CHN_ETYPE_T ∧ slice f 14 3 = [1, 1, 0] ∧ leNat (slice f 18 8) = Config.identity % 2 ^ 64) ∧
    (∀ (id : BitVec 64) (hop : Fin 256), d.chozUp = true →
      (id.toNat = Config.identity % 2 ^ 64 → s.Runs (.helloReceived p id hop) fun d' => d'.b CHN_SW_STATUS CHN_SW_STATUS_LOOP = true ∧ d'.net.partners = d.net.partners ∧
        (d.swOn = true → d'.b CHN_SW_CTL CHN_SW_CTL_BLOCK1 = true)) ∧
      (∀ i : Fin 64, id.toNat ≠ Config.identity % 2 ^ 64 →
        ((∀ j : Fin 64, (d.partner j).map (fun x => x.ident) ≠ some id.toNat) → d.partner i = none → (∀ j : Fin 64, j < i → (d.partner j).isSome = true) →
          s.Runs (.helloReceived p id hop) fun d' => (∀ j : Fin 64, j ≠ i → d'.partner j = d.partner j) ∧
            d'.partner i = some { ident := id.toNat, port := p, rear := (d.portCfg p).rear, hop := hop, seen := d.beam } ∧
            d'.raised.any (fun e => e.src == 0x120 && e.payload == i + p * 64 + (if (d.portCfg p).rear then 256 else 0) + hop.val % 64 * 512) = true) ∧
        (∀ x, d.partner i = some x → x.ident = id.toNat → (∀ j : Fin 64, j < i → (d.partner j).map (fun x => x.ident) ≠ some id.toNat) → x.port = p → hop ≤ x.hop →
          s.Runs (.helloReceived p id hop) fun d' => d'.partner i = some { x with hop := hop, seen := d.beam, rear := (d.portCfg p).rear } ∧
            ∀ j : Fin 64, j ≠ i → d'.partner j = d.partner j))) ∧
    (d.chozUp = true → s.Runs .partnerAgeCheck fun d' => still d' ∧ ∀ i : Fin 64, d'.partner i = (match d.partner i with
      | some x => if x.seen + 330 * msTicks < d.beam then none else some x
      | none => none)) ∧
    (d.chozUp = true → (d.portCfg p).tsync = true → d.portUp p = true → s.Runs (.peerDelayInterval p) fun d' => still d' ∧ tabGet 0 d'.net.peer p = d.beam ∧
      ∀ k : Fin 4, k ≠ p → tabGet 0 d'.net.peer k = tabGet 0 d.net.peer k)

/-- CAN FD: a request sets TXPEND and the pending buffer with the lowest identifier enters arbitration; an abort clears it unless the buffer is on the bus;
a sent buffer clears its bit; a received frame that an enabled filter admits enters the FIFO with its tick, or sets RX_OVF; a management segment is assembled
and dropped after 50 ms; errors set the counters and go bus-off at 256; recovery, INIT and SYNCED (R609, R610, R612, R613, R616; abort on the bus: log
entry 5; counter thresholds: log entry 62). -/
def Obligations.CanFrames : Prop :=
  ∀ (s : State) (c : Fin 6), s.Inv →
    let d := s.hw
    let x := d.canc c
    let still (d' : Dev) : Prop := d.Keeps [] d' ∧ d'.mem = d.mem
    let live : Prop := d.canOn c = true ∧ d.b (CAN_CTL c) CAN_CTL_LISTEN = false
    let first (d' : Dev) (b : Fin 16) : Prop := d'.bit (CAN_TXPEND c) b = true ∧
      ∀ k : Fin 16, d'.bit (CAN_TXPEND c) k = true → d.txId c b < d.txId c k ∨ (d.txId c b = d.txId c k ∧ b ≤ k)
    let picks (d' : Dev) : Prop := ((∃ b : Fin 16, (d'.canc c).pick = some b.val ∧ first d' b) ∨
      ((d'.canc c).pick = none ∧ ∀ k : Fin 16, d'.bit (CAN_TXPEND c) k = false))
    let raises (k : Nat) (d' : Dev) : Prop := d'.raised = if d.bit (CAN_IRQ_EN c) k then (d.raise (0x140 + 8 * c + k)).raised else d.raised
    (∀ (q : Req) (mask : BitVec 16), d.accessErr q (CAN_TXREQ c) 4 true = .none → live → x.pick = none → s.Runs (.canTxreq q c mask) fun d' =>
      d'.Answers q 0 ∧ (∀ b : Fin 16, d'.bit (CAN_TXPEND c) b = (mask.getLsb b || d.bit (CAN_TXPEND c) b)) ∧ picks d' ∧ d.Keeps [CAN_TXPEND c] d') ∧
    (∀ (q : Req) (mask : BitVec 16), d.accessErr q (CAN_TXABORT c) 4 true = .none → live → s.Runs (.canTxabort q c mask) fun d' => d'.Answers q 0 ∧
      (∀ b : Fin 16, x.pick ≠ some b.val → d'.bit (CAN_TXPEND c) b = (!mask.getLsb b && d.bit (CAN_TXPEND c) b)) ∧
      (∀ b : Fin 16, x.pick = some b.val → mask.getLsb b = true → ((d'.canc c).pick = some b.val ∧ d'.bit (CAN_TXPEND c) b = d.bit (CAN_TXPEND c) b) ∨
        ((d'.canc c).pick ≠ some b.val ∧ d'.bit (CAN_TXPEND c) b = false)) ∧ d.Keeps [CAN_TXPEND c] d') ∧
    (∀ b : Fin 16, live → x.pick = some b.val → s.Runs (.canFrameTransmitted c b) fun d' => (d'.canc c).sent = x.sent ++ [d.canFrameOf c b] ∧
      (∀ k : Fin 16, d'.bit (CAN_TXPEND c) k = (k != b && d.bit (CAN_TXPEND c) k)) ∧ picks d' ∧ raises 1 d' ∧
      d'.transit = (d.fire 7 (0x91 + 4 * c)).transit ∧ d.Keeps [CAN_TXPEND c] d') ∧
    (∀ f : CanFrame, d.canOn c = true → f.fdf = false ∨ d.b (CAN_CTL c) CAN_CTL_FD_EN = true →
      let mgmt : Prop := d.b (CAN_MGMT c) CAN_MGMT_EN = true ∧ f.ide = true ∧ f.fdf = true ∧ f.id.toNat = d.f (CAN_MGMT c) CAN_MGMT_ID
      let on (k : Fin 16) : Bool := d.b (CAN_FLT_ID c k) CAN_FLT_ID_EN
      let pass (k : Fin 16) : Prop := on k = true ∧ d.bit (CAN_FLT_ID c k) 30 = f.ide ∧
        ∀ i : Fin 29, (nbit (d.f (CAN_FLT_MASK c k) CAN_FLT_MASK_M) i = true → d.bit (CAN_FLT_ID c k) i = f.id.getLsb i)
      let stored (k : Nat) (d' : Dev) : Prop := (if x.fifo.length < 32 then d'.canc c = { x with fifo := x.fifo ++ [(f, d.beam, k)] } ∧ raises 0 d' ∧
          d'.transit = (d.fire 7 (0x90 + 4 * c)).transit ∧ d.Keeps [] d'
        else d'.canc c = x ∧ d'.b (CAN_STATUS c) CAN_STATUS_RX_OVF = true ∧ d.Keeps [CAN_STATUS c] d')
      (∀ k : Fin 16, ¬ mgmt → pass k → (∀ j : Fin 16, j < k → ¬ pass j) → s.Runs (.canFrameReceived c f) (stored k)) ∧
      (¬ mgmt → (∀ k : Fin 16, on k = false) → s.Runs (.canFrameReceived c f) (stored 0)) ∧
      (¬ mgmt → (∃ k : Fin 16, on k = true) → (∀ k : Fin 16, ¬ pass k) → s.Runs (.canFrameReceived c f) fun d' => d'.canc c = x ∧ still d') ∧
      (mgmt → x.segNo = fbyte f.data 0 → x.segNo < 128 → x.segNo = 0 ∨ d.beam ≤ x.segAt + 50 * msTicks → s.Runs (.canFrameReceived c f) fun d' =>
        d'.canc c = { x with seg := x.seg ++ f.data.drop 1, segNo := x.segNo + 1, segAt := d.beam } ∧ still d')) ∧
    (x.segNo ≠ 0 → (x.segAt + 50 * msTicks < d.beam → s.Runs (.canSegmentTimeout c) fun d' => d'.canc c = { x with seg := [], segNo := 0 } ∧ still d') ∧
      (d.beam ≤ x.segAt + 50 * msTicks → s.Runs (.canSegmentTimeout c) fun d' => d'.canc c = x ∧ still d')) ∧
    (∀ q : Req, d.accessErr q (CAN_RXPOP c) 4 true = .none → s.Runs (.canRxpop q c) fun d' => d'.Answers q 0 ∧ d'.canc c = { x with fifo := x.fifo.drop 1 } ∧ still d') ∧
    (∀ (b : Fin 16) (tec rxc : Fin 512), live → x.pick = some b.val →
      let again : Prop := d.b (CAN_CTL c) CAN_CTL_ONE_SHOT = false
      (again → s.Runs (.canBusError c true true b tec rxc) fun d' => d'.r (CAN_ERRCNT c) = d.r (CAN_ERRCNT c) ∧ picks d' ∧
        (∀ k : Fin 16, d'.bit (CAN_TXPEND c) k = d.bit (CAN_TXPEND c) k)) ∧
      (¬ again → s.Runs (.canBusError c true true b tec rxc) fun d' => picks d' ∧ ∀ k : Fin 16, d'.bit (CAN_TXPEND c) k = (k != b && d.bit (CAN_TXPEND c) k)) ∧
      (tec < 256 → s.Runs (.canBusError c false true b tec rxc) fun d' => d'.f (CAN_ERRCNT c) CAN_ERRCNT_TEC = tec % 256 ∧
        d'.f (CAN_ERRCNT c) CAN_ERRCNT_REC = min 255 rxc.val ∧ d'.b (CAN_STATUS c) CAN_STATUS_PASSIVE = decide (128 ≤ tec ∨ 128 ≤ rxc) ∧
        d'.b (CAN_STATUS c) CAN_STATUS_WARN = decide (96 ≤ tec ∨ 96 ≤ rxc) ∧ d'.b (CAN_STATUS c) CAN_STATUS_BUS_OFF = false) ∧
      (256 ≤ tec → s.Runs (.canBusError c false true b tec rxc) fun d' => d'.b (CAN_STATUS c) CAN_STATUS_BUS_OFF = true ∧ (d'.canc c).pick = none ∧
        d'.b (CAN_STATUS c) CAN_STATUS_SYNCED = false ∧ d'.transit = (d.fire 7 (0x92 + 4 * c)).transit)) ∧
    (d.powered (14 + c) = true → d.b (CAN_STATUS c) CAN_STATUS_BUS_OFF = true → d.b (CAN_CTL c) CAN_CTL_INIT = false →
      (d.b (CAN_CTL c) CAN_CTL_AUTO_RECOV = true ∨ x.recov = true → s.Runs (.busOffRecovery c) fun d' => d'.b (CAN_STATUS c) CAN_STATUS_BUS_OFF = false ∧
        d'.f (CAN_ERRCNT c) CAN_ERRCNT_TEC = 0 ∧ d'.f (CAN_ERRCNT c) CAN_ERRCNT_REC = 0 ∧ d.Keeps [CAN_STATUS c, CAN_ERRCNT c] d') ∧
      (d.b (CAN_CTL c) CAN_CTL_AUTO_RECOV = false → x.recov = false → s.Runs (.busOffRecovery c) fun d' => d'.canc c = x ∧ still d')) ∧
    (∀ q : Req, d.accessErr q (CAN_CTL c) 4 true = .none →
      s.Runs (.canInitWrite q c true) (fun d' => d'.Answers q 0 ∧ d'.b (CAN_CTL c) CAN_CTL_INIT = true ∧ d'.b (CAN_STATUS c) CAN_STATUS_SYNCED = false ∧
        (d'.canc c).pick = none ∧ d.Keeps [CAN_CTL c, CAN_STATUS c] d') ∧
      s.Runs (.canInitWrite q c false) fun d' => d'.Answers q 0 ∧ d'.b (CAN_CTL c) CAN_CTL_INIT = false ∧ d.Keeps [CAN_CTL c] d' ∧
        (d'.canc c).recov = (x.recov || (d.b (CAN_CTL c) CAN_CTL_INIT && d.b (CAN_STATUS c) CAN_STATUS_BUS_OFF))) ∧
    (d.canOn c = true → s.Runs (.canSynced c) fun d' => d'.b (CAN_STATUS c) CAN_STATUS_SYNCED = true ∧ d.Only [CAN_STATUS c] d')

/-! ### The whole block -/

/-- A step with a command at the front of the queue is exec of it on the state with the queue's rest; with an empty queue time passes (spec/00_scope.md;
the idle step is the model's choice: log entry 1). -/
def Obligations.StepRunsFront : Prop :=
  (∀ (c : Instr) (rest : List Instr) (h : Dev), step ⟨c :: rest, h⟩ = exec c ⟨rest, h⟩) ∧
  ∀ h : Dev, h.idle.1 = [] → ∃ t : State, step ⟨[], h⟩ = .next t ∧ t.pending = [] ∧ t.hw = h.idle.2.settle

/-- No command and no idle step ends the block's run: every step answers a next state; memory stays in its canonical form and the Beam count a 64-bit
count; a command takes itself from the queue and nothing else, whatever it does (R85; the canonical form: log entry 11). -/
def Obligations.StepKeepsInv : Prop :=
  ∀ s : State, s.Inv →
    (∃ t, step s = .next t ∧ t.Inv ∧ ∀ c rest, s.pending = c :: rest → t.pending = rest) ∧
    ∀ c : Instr, ∃ t, exec c s = .next t ∧ t.pending = s.pending ∧ t.Inv

/-- The state after reset meets the invariant that every step keeps, and no command waits in it. -/
def Obligations.ResetInv : Prop := State.reset.Inv ∧ State.reset.pending = []

/-- The state after reset: every latch, bit variable and law-store word reads 0, the write grants are the fixed bits alone, the Beam counts from 0, no core runs,
no clasp is held, no request waits, power-on reset is held and the mode is START; one register of each block at the value of its table (R8, R36, R44, R86, R96,
R233, R626; memory with nothing listed reads 0 by the model's choice: log entry 11). -/
def Obligations.ResetValues : Prop :=
  let d := State.reset.hw
  d.beam = 0 ∧ d.mode = mStart ∧ d.power.resetHeld = true ∧ (∀ (k : Nat) (q : Req), d.lat k q = 0) ∧ (∀ k, tabGet false d.bits k = false) ∧
  (∀ (n : Isl) (q : Req), d.mayWrite q n = decide (q.val = n.val ∨ q = 8)) ∧ (∀ a, d.byte a = 0) ∧ d.chozer.reqs = [] ∧ d.raised = [] ∧
  (∀ c : Core, (d.core c).run = false ∧ (d.clasp c).held = false ∧ d.r (CORE_CTL c) = 0x202 ∧ d.r (PND_RING_CFG c) = 0x600 ∧ d.r (PND_CLAIM c) = 0x80000000) ∧
  (∀ i : Fin 16384, d.r (0x48280000 + 8 * i) = 0 ∧ d.r (0x48280004 + 8 * i) = 0) ∧
  (∀ n : Isl, (∀ t : Fin 16, d.r (TLY_CTL n t) = 0x20 ∧ d.r (TLY_RELOAD n t) = 0xFFFFFFFF ∧ d.count n t = 0 ∧ d.r (PWM_CTL n t) = 0x5000 ∧ d.r (ACH_CFG n t) = 0x200FF0) ∧
    (∀ j : Fin 8, d.r (SDM_CFG n j) = 0x4000 ∧ d.r (BEAD_CTL n j) = 0x2060) ∧ (∀ k : Fin 2, d.r (FBK_FLT n k) = 0x10010) ∧ d.r (ABX_FRM_CTL n) = 0x300) ∧
  (∀ p : Fin 4, d.r (CHN_PCPMAP p) = 0x76543210) ∧ (∀ c : Fin 6, d.r (CAN_NBT c) = 0x4F141400) ∧
  d.r ECC_SCRUB_CTL = 0x15180001 ∧ d.r SGN_HUP_TLIM = 0x01F407D0 ∧ d.r SGN_REFRESH = 0x16D ∧ d.r PWR_GOV_CTL = 0x640A0000 ∧ d.r PWR_MODE = 1
end

