-- ==== Sys2Proof/Laws/Bits.lean ====
section
/-! SUPPORT. Facts about bits, fields and integer roots. -/

namespace Sys2Proof.Machine
open Sys2Proof

theorem nbit_eq_testBit (x i : Nat) : nbit x i = x.testBit i := by
  simp [nbit, Nat.testBit_eq_decide_div_mod_eq, BEq.beq]

theorem b2n_lt (b : Bool) : b2n b < 2 := by cases b <;> decide

theorem fget_lt (f : Fld) (x : Word) : fget f x < 2 ^ f.w := Nat.mod_lt _ (Nat.two_pow_pos _)

theorem fput_toNat (f : Fld) (x : Word) (v : Nat) (h : f.lo + f.w ≤ 32) :
    (fput f x v).toNat = x.toNat % 2 ^ f.lo + v % 2 ^ f.w * 2 ^ f.lo + x.toNat / 2 ^ (f.lo + f.w) * 2 ^ (f.lo + f.w) := by
  unfold fput
  rw [BitVec.toNat_ofNat, Nat.mod_eq_of_lt]
  have hx := x.isLt
  have ha : x.toNat % 2 ^ f.lo < 2 ^ f.lo := Nat.mod_lt _ (Nat.two_pow_pos _)
  have hb : v % 2 ^ f.w < 2 ^ f.w := Nat.mod_lt _ (Nat.two_pow_pos _)
  have hlow : x.toNat % 2 ^ f.lo + v % 2 ^ f.w * 2 ^ f.lo < 2 ^ (f.lo + f.w) := by
    rw [Nat.pow_add, Nat.mul_comm (2 ^ f.lo)]
    calc _ < 2 ^ f.lo + v % 2 ^ f.w * 2 ^ f.lo := Nat.add_lt_add_right ha _
      _ = (v % 2 ^ f.w + 1) * 2 ^ f.lo := by rw [Nat.add_mul, Nat.one_mul, Nat.add_comm]
      _ ≤ 2 ^ f.w * 2 ^ f.lo := Nat.mul_le_mul_right _ hb
  have hd : x.toNat / 2 ^ (f.lo + f.w) < 2 ^ (32 - (f.lo + f.w)) := by
    rw [Nat.div_lt_iff_lt_mul (Nat.two_pow_pos _), ← Nat.pow_add, Nat.sub_add_cancel h]; exact hx
  calc _ < 2 ^ (f.lo + f.w) + x.toNat / 2 ^ (f.lo + f.w) * 2 ^ (f.lo + f.w) := Nat.add_lt_add_right hlow _
    _ = (x.toNat / 2 ^ (f.lo + f.w) + 1) * 2 ^ (f.lo + f.w) := by rw [Nat.add_mul, Nat.one_mul, Nat.add_comm]
    _ ≤ 2 ^ (32 - (f.lo + f.w)) * 2 ^ (f.lo + f.w) := Nat.mul_le_mul_right _ hd
    _ = 2 ^ 32 := by rw [← Nat.pow_add, Nat.sub_add_cancel h]

/-- Bits of a word with field `f` set to `v`. -/
theorem fput_testBit (f : Fld) (x : Word) (v i : Nat) (h : f.lo + f.w ≤ 32) :
    (fput f x v).toNat.testBit i =
      if i < f.lo then x.toNat.testBit i else if i < f.lo + f.w then v.testBit (i - f.lo) else x.toNat.testBit i := by
  have e : (fput f x v).toNat = x.toNat / 2 ^ (f.lo + f.w) * 2 ^ (f.lo + f.w) + (v % 2 ^ f.w * 2 ^ f.lo + x.toNat % 2 ^ f.lo) := by
    rw [fput_toNat f x v h]; omega
  have ha : x.toNat % 2 ^ f.lo < 2 ^ f.lo := Nat.mod_lt _ (Nat.two_pow_pos _)
  have hb : v % 2 ^ f.w * 2 ^ f.lo + x.toNat % 2 ^ f.lo < 2 ^ (f.lo + f.w) := by
    have hb : v % 2 ^ f.w < 2 ^ f.w := Nat.mod_lt _ (Nat.two_pow_pos _)
    rw [Nat.pow_add, Nat.mul_comm (2 ^ f.lo)]
    calc _ < v % 2 ^ f.w * 2 ^ f.lo + 2 ^ f.lo := Nat.add_lt_add_left ha _
      _ = (v % 2 ^ f.w + 1) * 2 ^ f.lo := by rw [Nat.add_mul, Nat.one_mul]
      _ ≤ 2 ^ f.w * 2 ^ f.lo := Nat.mul_le_mul_right _ hb
  rw [e, Nat.mul_comm (_ / _), Nat.testBit_two_pow_mul_add _ hb, Nat.mul_comm (v % _), Nat.testBit_two_pow_mul_add _ ha]
  by_cases h1 : i < f.lo
  · simp [h1, show i < f.lo + f.w by omega, Nat.testBit_mod_two_pow]
  · by_cases h2 : i < f.lo + f.w
    · simp [h1, h2, Nat.testBit_mod_two_pow, show i - f.lo < f.w by omega]
    · simp only [h1, h2, if_false]
      rw [Nat.testBit_div_two_pow]
      congr 1
      omega

/-- A field reads as the low bits of what was put into it. -/
theorem fget_fput_same (f : Fld) (x : Word) (v : Nat) (h : f.lo + f.w ≤ 32) : fget f (fput f x v) = v % 2 ^ f.w := by
  unfold fget
  apply Nat.eq_of_testBit_eq
  intro i
  simp only [Nat.testBit_mod_two_pow, Nat.testBit_div_two_pow, fput_testBit f x v _ h]
  by_cases hi : i < f.w
  · rw [if_neg (by omega), if_pos (by omega), Nat.add_sub_cancel]
  · simp [hi]

/-- A field reads as before where another field was set. -/
theorem fget_fput_ne (f g : Fld) (x : Word) (v : Nat) (h : f.lo + f.w ≤ 32) (hd : g.lo + g.w ≤ f.lo ∨ f.lo + f.w ≤ g.lo) :
    fget g (fput f x v) = fget g x := by
  unfold fget
  apply Nat.eq_of_testBit_eq
  intro i
  simp only [Nat.testBit_mod_two_pow, Nat.testBit_div_two_pow, fput_testBit f x v _ h]
  by_cases hi : i < g.w
  · rcases hd with hd | hd
    · rw [if_pos (by omega)]
    · rw [if_neg (by omega), if_neg (by omega)]
  · simp [hi]

/-- Setting a field to the value it has changes nothing. -/
theorem fput_self (f : Fld) (x : Word) (h : f.lo + f.w ≤ 32) : fput f x (fget f x) = x := by
  apply BitVec.eq_of_toNat_eq
  apply Nat.eq_of_testBit_eq
  intro i
  rw [fput_testBit f x _ _ h]
  split
  · rfl
  split
  · unfold fget
    simp only [Nat.testBit_mod_two_pow, Nat.testBit_div_two_pow]
    rw [show i - f.lo + f.lo = i by omega, show decide (i - f.lo < f.w) = true by simp; omega, Bool.true_and]
  · rfl

theorem isqrtBits_spec (k x r : Nat) : r * r ≤ x → x < (r + 2 ^ k) * (r + 2 ^ k) →
    isqrtBits k x r * isqrtBits k x r ≤ x ∧ x < (isqrtBits k x r + 1) * (isqrtBits k x r + 1) := by
  induction k generalizing r with
  | zero => intro h1 h2; exact ⟨h1, by simpa [isqrtBits] using h2⟩
  | succ k ih =>
    intro h1 h2
    simp only [isqrtBits]
    split
    · next h => exact ih _ h (by rw [show r + 2 ^ k + 2 ^ k = r + 2 ^ (k + 1) by rw [Nat.pow_succ]; omega]; exact h2)
    · next h => exact ih r h1 (by omega)

/-- The integer square root of a number below 2^64. -/
theorem isqrt_spec (x : Nat) (h : x < 2 ^ 64) : isqrt x * isqrt x ≤ x ∧ x < (isqrt x + 1) * (isqrt x + 1) :=
  isqrtBits_spec 32 x 0 (by omega) (by simpa using h)

theorem sval_lt (w : Word) : sval w < 2 ^ 31 := by
  unfold sval sext; simp only; split <;> omega

theorem sval_ge (w : Word) : -(2 ^ 31) ≤ sval w := by
  have := w.isLt
  unfold sval sext; simp only; split <;> omega

/-- The signed reading is the signed value of the bit vector. -/
theorem sval_eq_toInt (w : Word) : sval w = w.toInt := by
  have := w.isLt
  unfold sval sext; rw [BitVec.toInt_eq_toNat_cond]; simp only
  rw [Nat.mod_eq_of_lt this]; split <;> split <;> omega

end Sys2Proof.Machine
end

