-- ==== Sys2Proof/Laws/Tab.lean ====
section
/-! SUPPORT. Laws of tables and of memory: what a read gives after a write, and that every operation keeps the canonical
form. -/

namespace Sys2Proof.Machine
open Sys2Proof

section
variable {α : Type}

/-! ### Reads after writes -/

@[simp] theorem tabFind_tabDel_same (t : Tab α) (k : Nat) : tabFind (tabDel t k) k = none := by
  induction t with
  | nil => rfl
  | cons e t ih =>
    obtain ⟨j, v⟩ := e
    by_cases h : j = k <;> simp [tabDel, tabFind, h, ih]

theorem tabFind_tabDel_ne (t : Tab α) {j k : Nat} (h : j ≠ k) : tabFind (tabDel t k) j = tabFind t j := by
  induction t with
  | nil => rfl
  | cons e t ih =>
    obtain ⟨i, v⟩ := e
    by_cases hk : i = k
    · have hj : k ≠ j := fun e => h e.symm
      simp [tabDel, tabFind, hk, ih, hj]
    · rw [tabDel, if_neg hk]; simp only [tabFind, ih]

theorem tabFind_tabIns_same (k : Nat) (v : α) (t : Tab α) (h : tabFind t k = none) : tabFind (tabIns k v t) k = some v := by
  induction t with
  | nil => simp [tabIns, tabFind]
  | cons e t ih =>
    obtain ⟨j, w⟩ := e
    by_cases hj : j = k
    · simp [tabFind, hj] at h
    · have ht : tabFind t k = none := by simpa [tabFind, hj] using h
      by_cases hk : k < j
      · simp [tabIns, tabFind, hk]
      · simp [tabIns, tabFind, hk, hj, ih ht]

theorem tabFind_tabIns_ne (v : α) (t : Tab α) {j k : Nat} (h : j ≠ k) : tabFind (tabIns k v t) j = tabFind t j := by
  have hk : k ≠ j := fun e => h e.symm
  induction t with
  | nil => simp [tabIns, tabFind, hk]
  | cons e t ih =>
    obtain ⟨i, w⟩ := e
    by_cases hl : k < i
    · simp [tabIns, tabFind, hl, hk]
    · rw [tabIns, if_neg hl]; simp only [tabFind, ih]

variable [DecidableEq α]

/-- A key reads as what was written to it. -/
@[simp] theorem tabGet_tabSet_same (dflt : α) (t : Tab α) (k : Nat) (v : α) : tabGet dflt (tabSet dflt t k v) k = v := by
  unfold tabSet tabGet
  by_cases h : v = dflt
  · simp [h]
  · simp [h, tabFind_tabIns_same]

/-- Every other key reads as before, whatever its own default. -/
theorem tabGet_tabSet_ne (dflt d' : α) (t : Tab α) {j k : Nat} (v : α) (h : j ≠ k) :
    tabGet d' (tabSet dflt t k v) j = tabGet d' t j := by
  unfold tabSet tabGet
  by_cases hv : v = dflt
  · simp [hv, tabFind_tabDel_ne t h]
  · simp [hv, tabFind_tabIns_ne _ _ h, tabFind_tabDel_ne t h]

/-- A read after a write, in one equation. -/
theorem tabGet_tabSet (dflt d' : α) (t : Tab α) (j k : Nat) (v : α) (hd : j = k → d' = dflt) :
    tabGet d' (tabSet dflt t k v) j = if j = k then v else tabGet d' t j := by
  by_cases h : j = k
  · subst h; simp [hd rfl]
  · simp [h, tabGet_tabSet_ne]

end

/-! ### The canonical form -/

section
variable {α : Type}

theorem tabRising_mono {t : Tab α} {lo lo' : Nat} (h : lo' ≤ lo) (ht : tabRising lo t = true) : tabRising lo' t = true := by
  cases t with
  | nil => rfl
  | cons e t =>
    obtain ⟨j, v⟩ := e
    simp only [tabRising, Bool.and_eq_true, decide_eq_true_eq] at *
    exact ⟨by omega, ht.2⟩

theorem tabRising_tabDel {t : Tab α} {lo : Nat} (k : Nat) (ht : tabRising lo t = true) : tabRising lo (tabDel t k) = true := by
  induction t generalizing lo with
  | nil => rfl
  | cons e t ih =>
    obtain ⟨j, v⟩ := e
    simp only [tabRising, Bool.and_eq_true, decide_eq_true_eq] at ht
    by_cases h : j = k
    · rw [tabDel, if_pos h]; exact ih (tabRising_mono (by omega) ht.2)
    · rw [tabDel, if_neg h]; simp only [tabRising, Bool.and_eq_true, decide_eq_true_eq]; exact ⟨ht.1, ih ht.2⟩

theorem tabRising_tabIns {t : Tab α} {lo k : Nat} (v : α) (hk : lo ≤ k) (hn : tabFind t k = none)
    (ht : tabRising lo t = true) : tabRising lo (tabIns k v t) = true := by
  induction t generalizing lo with
  | nil => simp [tabIns, tabRising, hk]
  | cons e t ih =>
    obtain ⟨j, w⟩ := e
    simp only [tabRising, Bool.and_eq_true, decide_eq_true_eq] at ht
    by_cases hj : j = k
    · simp [tabFind, hj] at hn
    · have hn' : tabFind t k = none := by simpa [tabFind, hj] using hn
      by_cases hl : k < j
      · simp only [tabIns, if_pos hl, tabRising, Bool.and_eq_true, decide_eq_true_eq]
        exact ⟨hk, by omega, ht.2⟩
      · simp only [tabIns, if_neg hl, tabRising, Bool.and_eq_true, decide_eq_true_eq]
        exact ⟨ht.1, ih (by omega) hn' ht.2⟩

theorem all_tabDel {t : Tab α} {p : Nat × α → Bool} (k : Nat) (h : t.all p = true) : (tabDel t k).all p = true := by
  induction t with
  | nil => rfl
  | cons e t ih =>
    obtain ⟨j, v⟩ := e
    simp only [List.all_cons, Bool.and_eq_true] at h
    by_cases hj : j = k
    · rw [tabDel, if_pos hj]; exact ih h.2
    · rw [tabDel, if_neg hj]; simp only [List.all_cons, Bool.and_eq_true]; exact ⟨h.1, ih h.2⟩

theorem all_tabIns {t : Tab α} {p : Nat × α → Bool} (k : Nat) (v : α) (hv : p (k, v) = true) (h : t.all p = true) :
    (tabIns k v t).all p = true := by
  induction t with
  | nil => simp [tabIns, hv]
  | cons e t ih =>
    obtain ⟨j, w⟩ := e
    simp only [List.all_cons, Bool.and_eq_true] at h
    by_cases hl : k < j
    · simp only [tabIns, if_pos hl, List.all_cons, Bool.and_eq_true]; exact ⟨hv, h.1, h.2⟩
    · simp only [tabIns, if_neg hl, List.all_cons, Bool.and_eq_true]; exact ⟨h.1, ih h.2⟩

variable [DecidableEq α]

/-- A write keeps the canonical form. -/
theorem tabWf_tabSet {dflt : Nat → α} {t : Tab α} (k : Nat) (v : α) (h : tabWf dflt t = true) :
    tabWf dflt (tabSet (dflt k) t k v) = true := by
  unfold tabWf at *
  rw [Bool.and_eq_true] at *
  unfold tabSet
  by_cases hv : v = dflt k
  · rw [if_pos hv]; exact ⟨tabRising_tabDel k h.1, all_tabDel k h.2⟩
  · rw [if_neg hv]
    exact ⟨tabRising_tabIns v (Nat.zero_le _) (tabFind_tabDel_same t k) (tabRising_tabDel k h.1),
      all_tabIns k v (by simp [hv]) (all_tabDel k h.2)⟩

end

/-! ### Memory -/

theorem memPut_wf {m : List Host.Cell} (a : Nat) (v : Byte) (h : Memory.wf m = true) : Memory.wf (memPut m a v) = true :=
  tabWf_tabSet (dflt := fun _ => (0 : Byte)) a v h

theorem memBuild_wf (m : List Host.Cell) : Memory.wf (memBuild m) = true := by
  induction m with
  | nil => rfl
  | cons e m ih => exact memPut_wf e.1 e.2 ih

theorem memCanon_wf (m : List Host.Cell) : Memory.wf (memCanon m) = true := by
  unfold memCanon
  split
  · assumption
  · exact memBuild_wf m

theorem memCanon_of_wf {m : List Host.Cell} (h : Memory.wf m = true) : memCanon m = m := by simp [memCanon, h]

@[simp] theorem memGet_memPut_same (m : List Host.Cell) (a : Nat) (v : Byte) : memGet (memPut m a v) a = v := by
  simp [memGet, memPut]

theorem memGet_memPut_ne (m : List Host.Cell) {a b : Nat} (v : Byte) (h : b ≠ a) : memGet (memPut m a v) b = memGet m b := by
  simp [memGet, memPut, tabGet_tabSet_ne _ _ _ _ h]

theorem storeN_wf (d : Dev) (a v n : Nat) (h : Memory.wf d.mem = true) : Memory.wf (d.storeN a v n).mem = true := by
  induction n generalizing d a v with
  | zero => exact h
  | succ n ih => exact ih _ _ _ (memPut_wf _ _ h)

theorem storeBytes_wf (d : Dev) (a : Nat) (l : List Byte) (h : Memory.wf d.mem = true) :
    Memory.wf (d.storeBytes a l).mem = true := by
  induction l generalizing d a with
  | nil => exact h
  | cons b l ih => exact ih _ _ (memPut_wf _ _ h)

theorem tabRising_filter {m : List Host.Cell} {lo : Nat} (p : Host.Cell → Bool) (h : tabRising lo m = true) :
    tabRising lo (m.filter p) = true := by
  induction m generalizing lo with
  | nil => rfl
  | cons e m ih =>
    obtain ⟨j, v⟩ := e
    simp only [tabRising, Bool.and_eq_true, decide_eq_true_eq] at h
    by_cases hp : p (j, v) = true
    · simp only [List.filter_cons, hp, if_true, tabRising, Bool.and_eq_true, decide_eq_true_eq]; exact ⟨h.1, ih h.2⟩
    · simp only [List.filter_cons, hp, if_false, Bool.false_eq_true]; exact ih (tabRising_mono (by omega) h.2)

theorem clearMem_wf (d : Dev) (lo hi : Nat) (h : Memory.wf d.mem = true) : Memory.wf (d.clearMem lo hi).mem = true := by
  unfold Memory.wf tabWf at *
  rw [Bool.and_eq_true] at *
  refine ⟨tabRising_filter _ h.1, ?_⟩
  have := h.2
  simp only [List.all_eq_true] at this ⊢
  exact fun x hx => this x (List.mem_filter.mp hx).1

/-- A byte outside the stored range reads as before; one inside reads as stored. -/
theorem byte_storeN (d : Dev) (a v n x : Nat) :
    (d.storeN a v n).byte x = if a ≤ x ∧ x < a + n then BitVec.ofNat 8 (v / 256 ^ (x - a)) else d.byte x := by
  induction n generalizing d a v with
  | zero => rw [if_neg (by omega)]; rfl
  | succ n ih =>
    rw [show (d.storeN a v (n + 1)) = (d.putByte a (BitVec.ofNat 8 v)).storeN (a + 1) (v / 256) n from rfl, ih]
    by_cases h : x = a
    · subst h
      rw [if_neg (by omega), if_pos (by omega)]
      simp [Dev.byte, Dev.putByte]
    · have hb : (d.putByte a (BitVec.ofNat 8 v)).byte x = d.byte x := by
        simp [Dev.byte, Dev.putByte, memGet_memPut_ne _ _ h]
      rw [hb]
      by_cases h' : a + 1 ≤ x ∧ x < a + 1 + n
      · rw [if_pos h', if_pos (by omega), show x - a = (x - (a + 1)) + 1 by omega, Nat.pow_succ', Nat.div_div_eq_div_mul]
      · rw [if_neg h', if_neg (by omega)]

theorem settle_wf (d : Dev) : Memory.wf d.settle.mem = true := memCanon_wf _

/-- A device in the form that every step leaves settles to itself. -/
theorem settle_eq {d : Dev} (h : Memory.wf d.mem = true) (hb : d.beam < 2 ^ 64) : d.settle = d := by
  unfold Dev.settle
  rw [memCanon_of_wf h, Nat.mod_eq_of_lt (by omega)]

end Sys2Proof.Machine
end

