-- ==== Sys2Proof/Laws/State.lean ====
section
/-! SUPPORT. What the updates of the state leave alone: one lemma per field per update, each true by `rfl`; what a register
or a unit reads as after a write. -/

namespace Sys2Proof.Machine
open Sys2Proof

/-! ### Fields -/

@[simp] theorem Dev.w_part (d : Dev) (a : Nat) (v : Word) : (d.w a v).part = d.part := (rfl)
@[simp] theorem Dev.w_beam (d : Dev) (a : Nat) (v : Word) : (d.w a v).beam = d.beam := (rfl)
@[simp] theorem Dev.w_stage (d : Dev) (a : Nat) (v : Word) : (d.w a v).stage = d.stage := (rfl)
@[simp] theorem Dev.w_free (d : Dev) (a : Nat) (v : Word) : (d.w a v).free = d.free := (rfl)
@[simp] theorem Dev.w_mem (d : Dev) (a : Nat) (v : Word) : (d.w a v).mem = d.mem := (rfl)
@[simp] theorem Dev.w_fresh (d : Dev) (a : Nat) (v : Word) : (d.w a v).fresh = d.fresh := (rfl)
@[simp] theorem Dev.w_shadow (d : Dev) (a : Nat) (v : Word) : (d.w a v).shadow = d.shadow := (rfl)
@[simp] theorem Dev.w_agenda (d : Dev) (a : Nat) (v : Word) : (d.w a v).agenda = d.agenda := (rfl)
@[simp] theorem Dev.w_bus (d : Dev) (a : Nat) (v : Word) : (d.w a v).bus = d.bus := (rfl)
@[simp] theorem Dev.w_latch (d : Dev) (a : Nat) (v : Word) : (d.w a v).latch = d.latch := (rfl)
@[simp] theorem Dev.w_bits (d : Dev) (a : Nat) (v : Word) : (d.w a v).bits = d.bits := (rfl)
@[simp] theorem Dev.w_grants (d : Dev) (a : Nat) (v : Word) : (d.w a v).grants = d.grants := (rfl)
@[simp] theorem Dev.w_raised (d : Dev) (a : Nat) (v : Word) : (d.w a v).raised = d.raised := (rfl)
@[simp] theorem Dev.w_routeWas (d : Dev) (a : Nat) (v : Word) : (d.w a v).routeWas = d.routeWas := (rfl)
@[simp] theorem Dev.w_rings (d : Dev) (a : Nat) (v : Word) : (d.w a v).rings = d.rings := (rfl)
@[simp] theorem Dev.w_transit (d : Dev) (a : Nat) (v : Word) : (d.w a v).transit = d.transit := (rfl)
@[simp] theorem Dev.w_chLast (d : Dev) (a : Nat) (v : Word) : (d.w a v).chLast = d.chLast := (rfl)
@[simp] theorem Dev.w_pend (d : Dev) (a : Nat) (v : Word) : (d.w a v).pend = d.pend := (rfl)
@[simp] theorem Dev.w_inLast (d : Dev) (a : Nat) (v : Word) : (d.w a v).inLast = d.inLast := (rfl)
@[simp] theorem Dev.w_gateHist (d : Dev) (a : Nat) (v : Word) : (d.w a v).gateHist = d.gateHist := (rfl)
@[simp] theorem Dev.w_cells (d : Dev) (a : Nat) (v : Word) : (d.w a v).cells = d.cells := (rfl)
@[simp] theorem Dev.w_timers (d : Dev) (a : Nat) (v : Word) : (d.w a v).timers = d.timers := (rfl)
@[simp] theorem Dev.w_go (d : Dev) (a : Nat) (v : Word) : (d.w a v).go = d.go := (rfl)
@[simp] theorem Dev.w_pairs (d : Dev) (a : Nat) (v : Word) : (d.w a v).pairs = d.pairs := (rfl)
@[simp] theorem Dev.w_lines (d : Dev) (a : Nat) (v : Word) : (d.w a v).lines = d.lines := (rfl)
@[simp] theorem Dev.w_chans (d : Dev) (a : Nat) (v : Word) : (d.w a v).chans = d.chans := (rfl)
@[simp] theorem Dev.w_sets (d : Dev) (a : Nat) (v : Word) : (d.w a v).sets = d.sets := (rfl)
@[simp] theorem Dev.w_sdms (d : Dev) (a : Nat) (v : Word) : (d.w a v).sdms = d.sdms := (rfl)
@[simp] theorem Dev.w_sdclks (d : Dev) (a : Nat) (v : Word) : (d.w a v).sdclks = d.sdclks := (rfl)
@[simp] theorem Dev.w_rods (d : Dev) (a : Nat) (v : Word) : (d.w a v).rods = d.rods := (rfl)
@[simp] theorem Dev.w_frames (d : Dev) (a : Nat) (v : Word) : (d.w a v).frames = d.frames := (rfl)
@[simp] theorem Dev.w_presets (d : Dev) (a : Nat) (v : Word) : (d.w a v).presets = d.presets := (rfl)
@[simp] theorem Dev.w_traces (d : Dev) (a : Nat) (v : Word) : (d.w a v).traces = d.traces := (rfl)
@[simp] theorem Dev.w_fbks (d : Dev) (a : Nat) (v : Word) : (d.w a v).fbks = d.fbks := (rfl)
@[simp] theorem Dev.w_beads (d : Dev) (a : Nat) (v : Word) : (d.w a v).beads = d.beads := (rfl)
@[simp] theorem Dev.w_clasps (d : Dev) (a : Nat) (v : Word) : (d.w a v).clasps = d.clasps := (rfl)
@[simp] theorem Dev.w_cores (d : Dev) (a : Nat) (v : Word) : (d.w a v).cores = d.cores := (rfl)
@[simp] theorem Dev.w_icache (d : Dev) (a : Nat) (v : Word) : (d.w a v).icache = d.icache := (rfl)
@[simp] theorem Dev.w_dcache (d : Dev) (a : Nat) (v : Word) : (d.w a v).dcache = d.dcache := (rfl)
@[simp] theorem Dev.w_dma (d : Dev) (a : Nat) (v : Word) : (d.w a v).dma = d.dma := (rfl)
@[simp] theorem Dev.w_dmaBusy (d : Dev) (a : Nat) (v : Word) : (d.w a v).dmaBusy = d.dmaBusy := (rfl)
@[simp] theorem Dev.w_credits (d : Dev) (a : Nat) (v : Word) : (d.w a v).credits = d.credits := (rfl)
@[simp] theorem Dev.w_losses (d : Dev) (a : Nat) (v : Word) : (d.w a v).losses = d.losses := (rfl)
@[simp] theorem Dev.w_backoff (d : Dev) (a : Nat) (v : Word) : (d.w a v).backoff = d.backoff := (rfl)
@[simp] theorem Dev.w_ledger (d : Dev) (a : Nat) (v : Word) : (d.w a v).ledger = d.ledger := (rfl)
@[simp] theorem Dev.w_chozer (d : Dev) (a : Nat) (v : Word) : (d.w a v).chozer = d.chozer := (rfl)
@[simp] theorem Dev.w_net (d : Dev) (a : Nat) (v : Word) : (d.w a v).net = d.net := (rfl)
@[simp] theorem Dev.w_can (d : Dev) (a : Nat) (v : Word) : (d.w a v).can = d.can := (rfl)
@[simp] theorem Dev.w_power (d : Dev) (a : Nat) (v : Word) : (d.w a v).power = d.power := (rfl)
@[simp] theorem Dev.w_diag (d : Dev) (a : Nat) (v : Word) : (d.w a v).diag = d.diag := (rfl)
@[simp] theorem Dev.w_scrubAt (d : Dev) (a : Nat) (v : Word) : (d.w a v).scrubAt = d.scrubAt := (rfl)
@[simp] theorem Dev.wf_part (d : Dev) (a : Nat) (f : Fld) (v : Nat) : (d.wf a f v).part = d.part := (rfl)
@[simp] theorem Dev.wf_beam (d : Dev) (a : Nat) (f : Fld) (v : Nat) : (d.wf a f v).beam = d.beam := (rfl)
@[simp] theorem Dev.wf_stage (d : Dev) (a : Nat) (f : Fld) (v : Nat) : (d.wf a f v).stage = d.stage := (rfl)
@[simp] theorem Dev.wf_free (d : Dev) (a : Nat) (f : Fld) (v : Nat) : (d.wf a f v).free = d.free := (rfl)
@[simp] theorem Dev.wf_mem (d : Dev) (a : Nat) (f : Fld) (v : Nat) : (d.wf a f v).mem = d.mem := (rfl)
@[simp] theorem Dev.wf_fresh (d : Dev) (a : Nat) (f : Fld) (v : Nat) : (d.wf a f v).fresh = d.fresh := (rfl)
@[simp] theorem Dev.wf_shadow (d : Dev) (a : Nat) (f : Fld) (v : Nat) : (d.wf a f v).shadow = d.shadow := (rfl)
@[simp] theorem Dev.wf_agenda (d : Dev) (a : Nat) (f : Fld) (v : Nat) : (d.wf a f v).agenda = d.agenda := (rfl)
@[simp] theorem Dev.wf_bus (d : Dev) (a : Nat) (f : Fld) (v : Nat) : (d.wf a f v).bus = d.bus := (rfl)
@[simp] theorem Dev.wf_latch (d : Dev) (a : Nat) (f : Fld) (v : Nat) : (d.wf a f v).latch = d.latch := (rfl)
@[simp] theorem Dev.wf_bits (d : Dev) (a : Nat) (f : Fld) (v : Nat) : (d.wf a f v).bits = d.bits := (rfl)
@[simp] theorem Dev.wf_grants (d : Dev) (a : Nat) (f : Fld) (v : Nat) : (d.wf a f v).grants = d.grants := (rfl)
@[simp] theorem Dev.wf_raised (d : Dev) (a : Nat) (f : Fld) (v : Nat) : (d.wf a f v).raised = d.raised := (rfl)
@[simp] theorem Dev.wf_routeWas (d : Dev) (a : Nat) (f : Fld) (v : Nat) : (d.wf a f v).routeWas = d.routeWas := (rfl)
@[simp] theorem Dev.wf_rings (d : Dev) (a : Nat) (f : Fld) (v : Nat) : (d.wf a f v).rings = d.rings := (rfl)
@[simp] theorem Dev.wf_transit (d : Dev) (a : Nat) (f : Fld) (v : Nat) : (d.wf a f v).transit = d.transit := (rfl)
@[simp] theorem Dev.wf_chLast (d : Dev) (a : Nat) (f : Fld) (v : Nat) : (d.wf a f v).chLast = d.chLast := (rfl)
@[simp] theorem Dev.wf_pend (d : Dev) (a : Nat) (f : Fld) (v : Nat) : (d.wf a f v).pend = d.pend := (rfl)
@[simp] theorem Dev.wf_inLast (d : Dev) (a : Nat) (f : Fld) (v : Nat) : (d.wf a f v).inLast = d.inLast := (rfl)
@[simp] theorem Dev.wf_gateHist (d : Dev) (a : Nat) (f : Fld) (v : Nat) : (d.wf a f v).gateHist = d.gateHist := (rfl)
@[simp] theorem Dev.wf_cells (d : Dev) (a : Nat) (f : Fld) (v : Nat) : (d.wf a f v).cells = d.cells := (rfl)
@[simp] theorem Dev.wf_timers (d : Dev) (a : Nat) (f : Fld) (v : Nat) : (d.wf a f v).timers = d.timers := (rfl)
@[simp] theorem Dev.wf_go (d : Dev) (a : Nat) (f : Fld) (v : Nat) : (d.wf a f v).go = d.go := (rfl)
@[simp] theorem Dev.wf_pairs (d : Dev) (a : Nat) (f : Fld) (v : Nat) : (d.wf a f v).pairs = d.pairs := (rfl)
@[simp] theorem Dev.wf_lines (d : Dev) (a : Nat) (f : Fld) (v : Nat) : (d.wf a f v).lines = d.lines := (rfl)
@[simp] theorem Dev.wf_chans (d : Dev) (a : Nat) (f : Fld) (v : Nat) : (d.wf a f v).chans = d.chans := (rfl)
@[simp] theorem Dev.wf_sets (d : Dev) (a : Nat) (f : Fld) (v : Nat) : (d.wf a f v).sets = d.sets := (rfl)
@[simp] theorem Dev.wf_sdms (d : Dev) (a : Nat) (f : Fld) (v : Nat) : (d.wf a f v).sdms = d.sdms := (rfl)
@[simp] theorem Dev.wf_sdclks (d : Dev) (a : Nat) (f : Fld) (v : Nat) : (d.wf a f v).sdclks = d.sdclks := (rfl)
@[simp] theorem Dev.wf_rods (d : Dev) (a : Nat) (f : Fld) (v : Nat) : (d.wf a f v).rods = d.rods := (rfl)
@[simp] theorem Dev.wf_frames (d : Dev) (a : Nat) (f : Fld) (v : Nat) : (d.wf a f v).frames = d.frames := (rfl)
@[simp] theorem Dev.wf_presets (d : Dev) (a : Nat) (f : Fld) (v : Nat) : (d.wf a f v).presets = d.presets := (rfl)
@[simp] theorem Dev.wf_traces (d : Dev) (a : Nat) (f : Fld) (v : Nat) : (d.wf a f v).traces = d.traces := (rfl)
@[simp] theorem Dev.wf_fbks (d : Dev) (a : Nat) (f : Fld) (v : Nat) : (d.wf a f v).fbks = d.fbks := (rfl)
@[simp] theorem Dev.wf_beads (d : Dev) (a : Nat) (f : Fld) (v : Nat) : (d.wf a f v).beads = d.beads := (rfl)
@[simp] theorem Dev.wf_clasps (d : Dev) (a : Nat) (f : Fld) (v : Nat) : (d.wf a f v).clasps = d.clasps := (rfl)
@[simp] theorem Dev.wf_cores (d : Dev) (a : Nat) (f : Fld) (v : Nat) : (d.wf a f v).cores = d.cores := (rfl)
@[simp] theorem Dev.wf_icache (d : Dev) (a : Nat) (f : Fld) (v : Nat) : (d.wf a f v).icache = d.icache := (rfl)
@[simp] theorem Dev.wf_dcache (d : Dev) (a : Nat) (f : Fld) (v : Nat) : (d.wf a f v).dcache = d.dcache := (rfl)
@[simp] theorem Dev.wf_dma (d : Dev) (a : Nat) (f : Fld) (v : Nat) : (d.wf a f v).dma = d.dma := (rfl)
@[simp] theorem Dev.wf_dmaBusy (d : Dev) (a : Nat) (f : Fld) (v : Nat) : (d.wf a f v).dmaBusy = d.dmaBusy := (rfl)
@[simp] theorem Dev.wf_credits (d : Dev) (a : Nat) (f : Fld) (v : Nat) : (d.wf a f v).credits = d.credits := (rfl)
@[simp] theorem Dev.wf_losses (d : Dev) (a : Nat) (f : Fld) (v : Nat) : (d.wf a f v).losses = d.losses := (rfl)
@[simp] theorem Dev.wf_backoff (d : Dev) (a : Nat) (f : Fld) (v : Nat) : (d.wf a f v).backoff = d.backoff := (rfl)
@[simp] theorem Dev.wf_ledger (d : Dev) (a : Nat) (f : Fld) (v : Nat) : (d.wf a f v).ledger = d.ledger := (rfl)
@[simp] theorem Dev.wf_chozer (d : Dev) (a : Nat) (f : Fld) (v : Nat) : (d.wf a f v).chozer = d.chozer := (rfl)
@[simp] theorem Dev.wf_net (d : Dev) (a : Nat) (f : Fld) (v : Nat) : (d.wf a f v).net = d.net := (rfl)
@[simp] theorem Dev.wf_can (d : Dev) (a : Nat) (f : Fld) (v : Nat) : (d.wf a f v).can = d.can := (rfl)
@[simp] theorem Dev.wf_power (d : Dev) (a : Nat) (f : Fld) (v : Nat) : (d.wf a f v).power = d.power := (rfl)
@[simp] theorem Dev.wf_diag (d : Dev) (a : Nat) (f : Fld) (v : Nat) : (d.wf a f v).diag = d.diag := (rfl)
@[simp] theorem Dev.wf_scrubAt (d : Dev) (a : Nat) (f : Fld) (v : Nat) : (d.wf a f v).scrubAt = d.scrubAt := (rfl)
@[simp] theorem Dev.clr_part (d : Dev) (a : Nat) (f : Fld) : (d.clr a f).part = d.part := (rfl)
@[simp] theorem Dev.clr_beam (d : Dev) (a : Nat) (f : Fld) : (d.clr a f).beam = d.beam := (rfl)
@[simp] theorem Dev.clr_stage (d : Dev) (a : Nat) (f : Fld) : (d.clr a f).stage = d.stage := (rfl)
@[simp] theorem Dev.clr_free (d : Dev) (a : Nat) (f : Fld) : (d.clr a f).free = d.free := (rfl)
@[simp] theorem Dev.clr_mem (d : Dev) (a : Nat) (f : Fld) : (d.clr a f).mem = d.mem := (rfl)
@[simp] theorem Dev.clr_fresh (d : Dev) (a : Nat) (f : Fld) : (d.clr a f).fresh = d.fresh := (rfl)
@[simp] theorem Dev.clr_shadow (d : Dev) (a : Nat) (f : Fld) : (d.clr a f).shadow = d.shadow := (rfl)
@[simp] theorem Dev.clr_agenda (d : Dev) (a : Nat) (f : Fld) : (d.clr a f).agenda = d.agenda := (rfl)
@[simp] theorem Dev.clr_bus (d : Dev) (a : Nat) (f : Fld) : (d.clr a f).bus = d.bus := (rfl)
@[simp] theorem Dev.clr_latch (d : Dev) (a : Nat) (f : Fld) : (d.clr a f).latch = d.latch := (rfl)
@[simp] theorem Dev.clr_bits (d : Dev) (a : Nat) (f : Fld) : (d.clr a f).bits = d.bits := (rfl)
@[simp] theorem Dev.clr_grants (d : Dev) (a : Nat) (f : Fld) : (d.clr a f).grants = d.grants := (rfl)
@[simp] theorem Dev.clr_raised (d : Dev) (a : Nat) (f : Fld) : (d.clr a f).raised = d.raised := (rfl)
@[simp] theorem Dev.clr_routeWas (d : Dev) (a : Nat) (f : Fld) : (d.clr a f).routeWas = d.routeWas := (rfl)
@[simp] theorem Dev.clr_rings (d : Dev) (a : Nat) (f : Fld) : (d.clr a f).rings = d.rings := (rfl)
@[simp] theorem Dev.clr_transit (d : Dev) (a : Nat) (f : Fld) : (d.clr a f).transit = d.transit := (rfl)
@[simp] theorem Dev.clr_chLast (d : Dev) (a : Nat) (f : Fld) : (d.clr a f).chLast = d.chLast := (rfl)
@[simp] theorem Dev.clr_pend (d : Dev) (a : Nat) (f : Fld) : (d.clr a f).pend = d.pend := (rfl)
@[simp] theorem Dev.clr_inLast (d : Dev) (a : Nat) (f : Fld) : (d.clr a f).inLast = d.inLast := (rfl)
@[simp] theorem Dev.clr_gateHist (d : Dev) (a : Nat) (f : Fld) : (d.clr a f).gateHist = d.gateHist := (rfl)
@[simp] theorem Dev.clr_cells (d : Dev) (a : Nat) (f : Fld) : (d.clr a f).cells = d.cells := (rfl)
@[simp] theorem Dev.clr_timers (d : Dev) (a : Nat) (f : Fld) : (d.clr a f).timers = d.timers := (rfl)
@[simp] theorem Dev.clr_go (d : Dev) (a : Nat) (f : Fld) : (d.clr a f).go = d.go := (rfl)
@[simp] theorem Dev.clr_pairs (d : Dev) (a : Nat) (f : Fld) : (d.clr a f).pairs = d.pairs := (rfl)
@[simp] theorem Dev.clr_lines (d : Dev) (a : Nat) (f : Fld) : (d.clr a f).lines = d.lines := (rfl)
@[simp] theorem Dev.clr_chans (d : Dev) (a : Nat) (f : Fld) : (d.clr a f).chans = d.chans := (rfl)
@[simp] theorem Dev.clr_sets (d : Dev) (a : Nat) (f : Fld) : (d.clr a f).sets = d.sets := (rfl)
@[simp] theorem Dev.clr_sdms (d : Dev) (a : Nat) (f : Fld) : (d.clr a f).sdms = d.sdms := (rfl)
@[simp] theorem Dev.clr_sdclks (d : Dev) (a : Nat) (f : Fld) : (d.clr a f).sdclks = d.sdclks := (rfl)
@[simp] theorem Dev.clr_rods (d : Dev) (a : Nat) (f : Fld) : (d.clr a f).rods = d.rods := (rfl)
@[simp] theorem Dev.clr_frames (d : Dev) (a : Nat) (f : Fld) : (d.clr a f).frames = d.frames := (rfl)
@[simp] theorem Dev.clr_presets (d : Dev) (a : Nat) (f : Fld) : (d.clr a f).presets = d.presets := (rfl)
@[simp] theorem Dev.clr_traces (d : Dev) (a : Nat) (f : Fld) : (d.clr a f).traces = d.traces := (rfl)
@[simp] theorem Dev.clr_fbks (d : Dev) (a : Nat) (f : Fld) : (d.clr a f).fbks = d.fbks := (rfl)
@[simp] theorem Dev.clr_beads (d : Dev) (a : Nat) (f : Fld) : (d.clr a f).beads = d.beads := (rfl)
@[simp] theorem Dev.clr_clasps (d : Dev) (a : Nat) (f : Fld) : (d.clr a f).clasps = d.clasps := (rfl)
@[simp] theorem Dev.clr_cores (d : Dev) (a : Nat) (f : Fld) : (d.clr a f).cores = d.cores := (rfl)
@[simp] theorem Dev.clr_icache (d : Dev) (a : Nat) (f : Fld) : (d.clr a f).icache = d.icache := (rfl)
@[simp] theorem Dev.clr_dcache (d : Dev) (a : Nat) (f : Fld) : (d.clr a f).dcache = d.dcache := (rfl)
@[simp] theorem Dev.clr_dma (d : Dev) (a : Nat) (f : Fld) : (d.clr a f).dma = d.dma := (rfl)
@[simp] theorem Dev.clr_dmaBusy (d : Dev) (a : Nat) (f : Fld) : (d.clr a f).dmaBusy = d.dmaBusy := (rfl)
@[simp] theorem Dev.clr_credits (d : Dev) (a : Nat) (f : Fld) : (d.clr a f).credits = d.credits := (rfl)
@[simp] theorem Dev.clr_losses (d : Dev) (a : Nat) (f : Fld) : (d.clr a f).losses = d.losses := (rfl)
@[simp] theorem Dev.clr_backoff (d : Dev) (a : Nat) (f : Fld) : (d.clr a f).backoff = d.backoff := (rfl)
@[simp] theorem Dev.clr_ledger (d : Dev) (a : Nat) (f : Fld) : (d.clr a f).ledger = d.ledger := (rfl)
@[simp] theorem Dev.clr_chozer (d : Dev) (a : Nat) (f : Fld) : (d.clr a f).chozer = d.chozer := (rfl)
@[simp] theorem Dev.clr_net (d : Dev) (a : Nat) (f : Fld) : (d.clr a f).net = d.net := (rfl)
@[simp] theorem Dev.clr_can (d : Dev) (a : Nat) (f : Fld) : (d.clr a f).can = d.can := (rfl)
@[simp] theorem Dev.clr_power (d : Dev) (a : Nat) (f : Fld) : (d.clr a f).power = d.power := (rfl)
@[simp] theorem Dev.clr_diag (d : Dev) (a : Nat) (f : Fld) : (d.clr a f).diag = d.diag := (rfl)
@[simp] theorem Dev.clr_scrubAt (d : Dev) (a : Nat) (f : Fld) : (d.clr a f).scrubAt = d.scrubAt := (rfl)
@[simp] theorem Dev.incSat_part (d : Dev) (a : Nat) (f : Fld) (n : Nat) : (d.incSat a f n).part = d.part := (rfl)
@[simp] theorem Dev.incSat_beam (d : Dev) (a : Nat) (f : Fld) (n : Nat) : (d.incSat a f n).beam = d.beam := (rfl)
@[simp] theorem Dev.incSat_stage (d : Dev) (a : Nat) (f : Fld) (n : Nat) : (d.incSat a f n).stage = d.stage := (rfl)
@[simp] theorem Dev.incSat_free (d : Dev) (a : Nat) (f : Fld) (n : Nat) : (d.incSat a f n).free = d.free := (rfl)
@[simp] theorem Dev.incSat_mem (d : Dev) (a : Nat) (f : Fld) (n : Nat) : (d.incSat a f n).mem = d.mem := (rfl)
@[simp] theorem Dev.incSat_fresh (d : Dev) (a : Nat) (f : Fld) (n : Nat) : (d.incSat a f n).fresh = d.fresh := (rfl)
@[simp] theorem Dev.incSat_shadow (d : Dev) (a : Nat) (f : Fld) (n : Nat) : (d.incSat a f n).shadow = d.shadow := (rfl)
@[simp] theorem Dev.incSat_agenda (d : Dev) (a : Nat) (f : Fld) (n : Nat) : (d.incSat a f n).agenda = d.agenda := (rfl)
@[simp] theorem Dev.incSat_bus (d : Dev) (a : Nat) (f : Fld) (n : Nat) : (d.incSat a f n).bus = d.bus := (rfl)
@[simp] theorem Dev.incSat_latch (d : Dev) (a : Nat) (f : Fld) (n : Nat) : (d.incSat a f n).latch = d.latch := (rfl)
@[simp] theorem Dev.incSat_bits (d : Dev) (a : Nat) (f : Fld) (n : Nat) : (d.incSat a f n).bits = d.bits := (rfl)
@[simp] theorem Dev.incSat_grants (d : Dev) (a : Nat) (f : Fld) (n : Nat) : (d.incSat a f n).grants = d.grants := (rfl)
@[simp] theorem Dev.incSat_raised (d : Dev) (a : Nat) (f : Fld) (n : Nat) : (d.incSat a f n).raised = d.raised := (rfl)
@[simp] theorem Dev.incSat_routeWas (d : Dev) (a : Nat) (f : Fld) (n : Nat) : (d.incSat a f n).routeWas = d.routeWas := (rfl)
@[simp] theorem Dev.incSat_rings (d : Dev) (a : Nat) (f : Fld) (n : Nat) : (d.incSat a f n).rings = d.rings := (rfl)
@[simp] theorem Dev.incSat_transit (d : Dev) (a : Nat) (f : Fld) (n : Nat) : (d.incSat a f n).transit = d.transit := (rfl)
@[simp] theorem Dev.incSat_chLast (d : Dev) (a : Nat) (f : Fld) (n : Nat) : (d.incSat a f n).chLast = d.chLast := (rfl)
@[simp] theorem Dev.incSat_pend (d : Dev) (a : Nat) (f : Fld) (n : Nat) : (d.incSat a f n).pend = d.pend := (rfl)
@[simp] theorem Dev.incSat_inLast (d : Dev) (a : Nat) (f : Fld) (n : Nat) : (d.incSat a f n).inLast = d.inLast := (rfl)
@[simp] theorem Dev.incSat_gateHist (d : Dev) (a : Nat) (f : Fld) (n : Nat) : (d.incSat a f n).gateHist = d.gateHist := (rfl)
@[simp] theorem Dev.incSat_cells (d : Dev) (a : Nat) (f : Fld) (n : Nat) : (d.incSat a f n).cells = d.cells := (rfl)
@[simp] theorem Dev.incSat_timers (d : Dev) (a : Nat) (f : Fld) (n : Nat) : (d.incSat a f n).timers = d.timers := (rfl)
@[simp] theorem Dev.incSat_go (d : Dev) (a : Nat) (f : Fld) (n : Nat) : (d.incSat a f n).go = d.go := (rfl)
@[simp] theorem Dev.incSat_pairs (d : Dev) (a : Nat) (f : Fld) (n : Nat) : (d.incSat a f n).pairs = d.pairs := (rfl)
@[simp] theorem Dev.incSat_lines (d : Dev) (a : Nat) (f : Fld) (n : Nat) : (d.incSat a f n).lines = d.lines := (rfl)
@[simp] theorem Dev.incSat_chans (d : Dev) (a : Nat) (f : Fld) (n : Nat) : (d.incSat a f n).chans = d.chans := (rfl)
@[simp] theorem Dev.incSat_sets (d : Dev) (a : Nat) (f : Fld) (n : Nat) : (d.incSat a f n).sets = d.sets := (rfl)
@[simp] theorem Dev.incSat_sdms (d : Dev) (a : Nat) (f : Fld) (n : Nat) : (d.incSat a f n).sdms = d.sdms := (rfl)
@[simp] theorem Dev.incSat_sdclks (d : Dev) (a : Nat) (f : Fld) (n : Nat) : (d.incSat a f n).sdclks = d.sdclks := (rfl)
@[simp] theorem Dev.incSat_rods (d : Dev) (a : Nat) (f : Fld) (n : Nat) : (d.incSat a f n).rods = d.rods := (rfl)
@[simp] theorem Dev.incSat_frames (d : Dev) (a : Nat) (f : Fld) (n : Nat) : (d.incSat a f n).frames = d.frames := (rfl)
@[simp] theorem Dev.incSat_presets (d : Dev) (a : Nat) (f : Fld) (n : Nat) : (d.incSat a f n).presets = d.presets := (rfl)
@[simp] theorem Dev.incSat_traces (d : Dev) (a : Nat) (f : Fld) (n : Nat) : (d.incSat a f n).traces = d.traces := (rfl)
@[simp] theorem Dev.incSat_fbks (d : Dev) (a : Nat) (f : Fld) (n : Nat) : (d.incSat a f n).fbks = d.fbks := (rfl)
@[simp] theorem Dev.incSat_beads (d : Dev) (a : Nat) (f : Fld) (n : Nat) : (d.incSat a f n).beads = d.beads := (rfl)
@[simp] theorem Dev.incSat_clasps (d : Dev) (a : Nat) (f : Fld) (n : Nat) : (d.incSat a f n).clasps = d.clasps := (rfl)
@[simp] theorem Dev.incSat_cores (d : Dev) (a : Nat) (f : Fld) (n : Nat) : (d.incSat a f n).cores = d.cores := (rfl)
@[simp] theorem Dev.incSat_icache (d : Dev) (a : Nat) (f : Fld) (n : Nat) : (d.incSat a f n).icache = d.icache := (rfl)
@[simp] theorem Dev.incSat_dcache (d : Dev) (a : Nat) (f : Fld) (n : Nat) : (d.incSat a f n).dcache = d.dcache := (rfl)
@[simp] theorem Dev.incSat_dma (d : Dev) (a : Nat) (f : Fld) (n : Nat) : (d.incSat a f n).dma = d.dma := (rfl)
@[simp] theorem Dev.incSat_dmaBusy (d : Dev) (a : Nat) (f : Fld) (n : Nat) : (d.incSat a f n).dmaBusy = d.dmaBusy := (rfl)
@[simp] theorem Dev.incSat_credits (d : Dev) (a : Nat) (f : Fld) (n : Nat) : (d.incSat a f n).credits = d.credits := (rfl)
@[simp] theorem Dev.incSat_losses (d : Dev) (a : Nat) (f : Fld) (n : Nat) : (d.incSat a f n).losses = d.losses := (rfl)
@[simp] theorem Dev.incSat_backoff (d : Dev) (a : Nat) (f : Fld) (n : Nat) : (d.incSat a f n).backoff = d.backoff := (rfl)
@[simp] theorem Dev.incSat_ledger (d : Dev) (a : Nat) (f : Fld) (n : Nat) : (d.incSat a f n).ledger = d.ledger := (rfl)
@[simp] theorem Dev.incSat_chozer (d : Dev) (a : Nat) (f : Fld) (n : Nat) : (d.incSat a f n).chozer = d.chozer := (rfl)
@[simp] theorem Dev.incSat_net (d : Dev) (a : Nat) (f : Fld) (n : Nat) : (d.incSat a f n).net = d.net := (rfl)
@[simp] theorem Dev.incSat_can (d : Dev) (a : Nat) (f : Fld) (n : Nat) : (d.incSat a f n).can = d.can := (rfl)
@[simp] theorem Dev.incSat_power (d : Dev) (a : Nat) (f : Fld) (n : Nat) : (d.incSat a f n).power = d.power := (rfl)
@[simp] theorem Dev.incSat_diag (d : Dev) (a : Nat) (f : Fld) (n : Nat) : (d.incSat a f n).diag = d.diag := (rfl)
@[simp] theorem Dev.incSat_scrubAt (d : Dev) (a : Nat) (f : Fld) (n : Nat) : (d.incSat a f n).scrubAt = d.scrubAt := (rfl)
@[simp] theorem Dev.mark_part (d : Dev) (a m : Nat) : (d.mark a m).part = d.part := (rfl)
@[simp] theorem Dev.mark_beam (d : Dev) (a m : Nat) : (d.mark a m).beam = d.beam := (rfl)
@[simp] theorem Dev.mark_stage (d : Dev) (a m : Nat) : (d.mark a m).stage = d.stage := (rfl)
@[simp] theorem Dev.mark_free (d : Dev) (a m : Nat) : (d.mark a m).free = d.free := (rfl)
@[simp] theorem Dev.mark_regs (d : Dev) (a m : Nat) : (d.mark a m).regs = d.regs := (rfl)
@[simp] theorem Dev.mark_mem (d : Dev) (a m : Nat) : (d.mark a m).mem = d.mem := (rfl)
@[simp] theorem Dev.mark_shadow (d : Dev) (a m : Nat) : (d.mark a m).shadow = d.shadow := (rfl)
@[simp] theorem Dev.mark_agenda (d : Dev) (a m : Nat) : (d.mark a m).agenda = d.agenda := (rfl)
@[simp] theorem Dev.mark_bus (d : Dev) (a m : Nat) : (d.mark a m).bus = d.bus := (rfl)
@[simp] theorem Dev.mark_latch (d : Dev) (a m : Nat) : (d.mark a m).latch = d.latch := (rfl)
@[simp] theorem Dev.mark_bits (d : Dev) (a m : Nat) : (d.mark a m).bits = d.bits := (rfl)
@[simp] theorem Dev.mark_grants (d : Dev) (a m : Nat) : (d.mark a m).grants = d.grants := (rfl)
@[simp] theorem Dev.mark_raised (d : Dev) (a m : Nat) : (d.mark a m).raised = d.raised := (rfl)
@[simp] theorem Dev.mark_routeWas (d : Dev) (a m : Nat) : (d.mark a m).routeWas = d.routeWas := (rfl)
@[simp] theorem Dev.mark_rings (d : Dev) (a m : Nat) : (d.mark a m).rings = d.rings := (rfl)
@[simp] theorem Dev.mark_transit (d : Dev) (a m : Nat) : (d.mark a m).transit = d.transit := (rfl)
@[simp] theorem Dev.mark_chLast (d : Dev) (a m : Nat) : (d.mark a m).chLast = d.chLast := (rfl)
@[simp] theorem Dev.mark_pend (d : Dev) (a m : Nat) : (d.mark a m).pend = d.pend := (rfl)
@[simp] theorem Dev.mark_inLast (d : Dev) (a m : Nat) : (d.mark a m).inLast = d.inLast := (rfl)
@[simp] theorem Dev.mark_gateHist (d : Dev) (a m : Nat) : (d.mark a m).gateHist = d.gateHist := (rfl)
@[simp] theorem Dev.mark_cells (d : Dev) (a m : Nat) : (d.mark a m).cells = d.cells := (rfl)
@[simp] theorem Dev.mark_timers (d : Dev) (a m : Nat) : (d.mark a m).timers = d.timers := (rfl)
@[simp] theorem Dev.mark_go (d : Dev) (a m : Nat) : (d.mark a m).go = d.go := (rfl)
@[simp] theorem Dev.mark_pairs (d : Dev) (a m : Nat) : (d.mark a m).pairs = d.pairs := (rfl)
@[simp] theorem Dev.mark_lines (d : Dev) (a m : Nat) : (d.mark a m).lines = d.lines := (rfl)
@[simp] theorem Dev.mark_chans (d : Dev) (a m : Nat) : (d.mark a m).chans = d.chans := (rfl)
@[simp] theorem Dev.mark_sets (d : Dev) (a m : Nat) : (d.mark a m).sets = d.sets := (rfl)
@[simp] theorem Dev.mark_sdms (d : Dev) (a m : Nat) : (d.mark a m).sdms = d.sdms := (rfl)
@[simp] theorem Dev.mark_sdclks (d : Dev) (a m : Nat) : (d.mark a m).sdclks = d.sdclks := (rfl)
@[simp] theorem Dev.mark_rods (d : Dev) (a m : Nat) : (d.mark a m).rods = d.rods := (rfl)
@[simp] theorem Dev.mark_frames (d : Dev) (a m : Nat) : (d.mark a m).frames = d.frames := (rfl)
@[simp] theorem Dev.mark_presets (d : Dev) (a m : Nat) : (d.mark a m).presets = d.presets := (rfl)
@[simp] theorem Dev.mark_traces (d : Dev) (a m : Nat) : (d.mark a m).traces = d.traces := (rfl)
@[simp] theorem Dev.mark_fbks (d : Dev) (a m : Nat) : (d.mark a m).fbks = d.fbks := (rfl)
@[simp] theorem Dev.mark_beads (d : Dev) (a m : Nat) : (d.mark a m).beads = d.beads := (rfl)
@[simp] theorem Dev.mark_clasps (d : Dev) (a m : Nat) : (d.mark a m).clasps = d.clasps := (rfl)
@[simp] theorem Dev.mark_cores (d : Dev) (a m : Nat) : (d.mark a m).cores = d.cores := (rfl)
@[simp] theorem Dev.mark_icache (d : Dev) (a m : Nat) : (d.mark a m).icache = d.icache := (rfl)
@[simp] theorem Dev.mark_dcache (d : Dev) (a m : Nat) : (d.mark a m).dcache = d.dcache := (rfl)
@[simp] theorem Dev.mark_dma (d : Dev) (a m : Nat) : (d.mark a m).dma = d.dma := (rfl)
@[simp] theorem Dev.mark_dmaBusy (d : Dev) (a m : Nat) : (d.mark a m).dmaBusy = d.dmaBusy := (rfl)
@[simp] theorem Dev.mark_credits (d : Dev) (a m : Nat) : (d.mark a m).credits = d.credits := (rfl)
@[simp] theorem Dev.mark_losses (d : Dev) (a m : Nat) : (d.mark a m).losses = d.losses := (rfl)
@[simp] theorem Dev.mark_backoff (d : Dev) (a m : Nat) : (d.mark a m).backoff = d.backoff := (rfl)
@[simp] theorem Dev.mark_ledger (d : Dev) (a m : Nat) : (d.mark a m).ledger = d.ledger := (rfl)
@[simp] theorem Dev.mark_chozer (d : Dev) (a m : Nat) : (d.mark a m).chozer = d.chozer := (rfl)
@[simp] theorem Dev.mark_net (d : Dev) (a m : Nat) : (d.mark a m).net = d.net := (rfl)
@[simp] theorem Dev.mark_can (d : Dev) (a m : Nat) : (d.mark a m).can = d.can := (rfl)
@[simp] theorem Dev.mark_power (d : Dev) (a m : Nat) : (d.mark a m).power = d.power := (rfl)
@[simp] theorem Dev.mark_diag (d : Dev) (a m : Nat) : (d.mark a m).diag = d.diag := (rfl)
@[simp] theorem Dev.mark_scrubAt (d : Dev) (a m : Nat) : (d.mark a m).scrubAt = d.scrubAt := (rfl)
@[simp] theorem Dev.set1_part (d : Dev) (a : Nat) (f : Fld) : (d.set1 a f).part = d.part := (rfl)
@[simp] theorem Dev.set1_beam (d : Dev) (a : Nat) (f : Fld) : (d.set1 a f).beam = d.beam := (rfl)
@[simp] theorem Dev.set1_stage (d : Dev) (a : Nat) (f : Fld) : (d.set1 a f).stage = d.stage := (rfl)
@[simp] theorem Dev.set1_free (d : Dev) (a : Nat) (f : Fld) : (d.set1 a f).free = d.free := (rfl)
@[simp] theorem Dev.set1_mem (d : Dev) (a : Nat) (f : Fld) : (d.set1 a f).mem = d.mem := (rfl)
@[simp] theorem Dev.set1_shadow (d : Dev) (a : Nat) (f : Fld) : (d.set1 a f).shadow = d.shadow := (rfl)
@[simp] theorem Dev.set1_agenda (d : Dev) (a : Nat) (f : Fld) : (d.set1 a f).agenda = d.agenda := (rfl)
@[simp] theorem Dev.set1_bus (d : Dev) (a : Nat) (f : Fld) : (d.set1 a f).bus = d.bus := (rfl)
@[simp] theorem Dev.set1_latch (d : Dev) (a : Nat) (f : Fld) : (d.set1 a f).latch = d.latch := (rfl)
@[simp] theorem Dev.set1_bits (d : Dev) (a : Nat) (f : Fld) : (d.set1 a f).bits = d.bits := (rfl)
@[simp] theorem Dev.set1_grants (d : Dev) (a : Nat) (f : Fld) : (d.set1 a f).grants = d.grants := (rfl)
@[simp] theorem Dev.set1_raised (d : Dev) (a : Nat) (f : Fld) : (d.set1 a f).raised = d.raised := (rfl)
@[simp] theorem Dev.set1_routeWas (d : Dev) (a : Nat) (f : Fld) : (d.set1 a f).routeWas = d.routeWas := (rfl)
@[simp] theorem Dev.set1_rings (d : Dev) (a : Nat) (f : Fld) : (d.set1 a f).rings = d.rings := (rfl)
@[simp] theorem Dev.set1_transit (d : Dev) (a : Nat) (f : Fld) : (d.set1 a f).transit = d.transit := (rfl)
@[simp] theorem Dev.set1_chLast (d : Dev) (a : Nat) (f : Fld) : (d.set1 a f).chLast = d.chLast := (rfl)
@[simp] theorem Dev.set1_pend (d : Dev) (a : Nat) (f : Fld) : (d.set1 a f).pend = d.pend := (rfl)
@[simp] theorem Dev.set1_inLast (d : Dev) (a : Nat) (f : Fld) : (d.set1 a f).inLast = d.inLast := (rfl)
@[simp] theorem Dev.set1_gateHist (d : Dev) (a : Nat) (f : Fld) : (d.set1 a f).gateHist = d.gateHist := (rfl)
@[simp] theorem Dev.set1_cells (d : Dev) (a : Nat) (f : Fld) : (d.set1 a f).cells = d.cells := (rfl)
@[simp] theorem Dev.set1_timers (d : Dev) (a : Nat) (f : Fld) : (d.set1 a f).timers = d.timers := (rfl)
@[simp] theorem Dev.set1_go (d : Dev) (a : Nat) (f : Fld) : (d.set1 a f).go = d.go := (rfl)
@[simp] theorem Dev.set1_pairs (d : Dev) (a : Nat) (f : Fld) : (d.set1 a f).pairs = d.pairs := (rfl)
@[simp] theorem Dev.set1_lines (d : Dev) (a : Nat) (f : Fld) : (d.set1 a f).lines = d.lines := (rfl)
@[simp] theorem Dev.set1_chans (d : Dev) (a : Nat) (f : Fld) : (d.set1 a f).chans = d.chans := (rfl)
@[simp] theorem Dev.set1_sets (d : Dev) (a : Nat) (f : Fld) : (d.set1 a f).sets = d.sets := (rfl)
@[simp] theorem Dev.set1_sdms (d : Dev) (a : Nat) (f : Fld) : (d.set1 a f).sdms = d.sdms := (rfl)
@[simp] theorem Dev.set1_sdclks (d : Dev) (a : Nat) (f : Fld) : (d.set1 a f).sdclks = d.sdclks := (rfl)
@[simp] theorem Dev.set1_rods (d : Dev) (a : Nat) (f : Fld) : (d.set1 a f).rods = d.rods := (rfl)
@[simp] theorem Dev.set1_frames (d : Dev) (a : Nat) (f : Fld) : (d.set1 a f).frames = d.frames := (rfl)
@[simp] theorem Dev.set1_presets (d : Dev) (a : Nat) (f : Fld) : (d.set1 a f).presets = d.presets := (rfl)
@[simp] theorem Dev.set1_traces (d : Dev) (a : Nat) (f : Fld) : (d.set1 a f).traces = d.traces := (rfl)
@[simp] theorem Dev.set1_fbks (d : Dev) (a : Nat) (f : Fld) : (d.set1 a f).fbks = d.fbks := (rfl)
@[simp] theorem Dev.set1_beads (d : Dev) (a : Nat) (f : Fld) : (d.set1 a f).beads = d.beads := (rfl)
@[simp] theorem Dev.set1_clasps (d : Dev) (a : Nat) (f : Fld) : (d.set1 a f).clasps = d.clasps := (rfl)
@[simp] theorem Dev.set1_cores (d : Dev) (a : Nat) (f : Fld) : (d.set1 a f).cores = d.cores := (rfl)
@[simp] theorem Dev.set1_icache (d : Dev) (a : Nat) (f : Fld) : (d.set1 a f).icache = d.icache := (rfl)
@[simp] theorem Dev.set1_dcache (d : Dev) (a : Nat) (f : Fld) : (d.set1 a f).dcache = d.dcache := (rfl)
@[simp] theorem Dev.set1_dma (d : Dev) (a : Nat) (f : Fld) : (d.set1 a f).dma = d.dma := (rfl)
@[simp] theorem Dev.set1_dmaBusy (d : Dev) (a : Nat) (f : Fld) : (d.set1 a f).dmaBusy = d.dmaBusy := (rfl)
@[simp] theorem Dev.set1_credits (d : Dev) (a : Nat) (f : Fld) : (d.set1 a f).credits = d.credits := (rfl)
@[simp] theorem Dev.set1_losses (d : Dev) (a : Nat) (f : Fld) : (d.set1 a f).losses = d.losses := (rfl)
@[simp] theorem Dev.set1_backoff (d : Dev) (a : Nat) (f : Fld) : (d.set1 a f).backoff = d.backoff := (rfl)
@[simp] theorem Dev.set1_ledger (d : Dev) (a : Nat) (f : Fld) : (d.set1 a f).ledger = d.ledger := (rfl)
@[simp] theorem Dev.set1_chozer (d : Dev) (a : Nat) (f : Fld) : (d.set1 a f).chozer = d.chozer := (rfl)
@[simp] theorem Dev.set1_net (d : Dev) (a : Nat) (f : Fld) : (d.set1 a f).net = d.net := (rfl)
@[simp] theorem Dev.set1_can (d : Dev) (a : Nat) (f : Fld) : (d.set1 a f).can = d.can := (rfl)
@[simp] theorem Dev.set1_power (d : Dev) (a : Nat) (f : Fld) : (d.set1 a f).power = d.power := (rfl)
@[simp] theorem Dev.set1_diag (d : Dev) (a : Nat) (f : Fld) : (d.set1 a f).diag = d.diag := (rfl)
@[simp] theorem Dev.set1_scrubAt (d : Dev) (a : Nat) (f : Fld) : (d.set1 a f).scrubAt = d.scrubAt := (rfl)
@[simp] theorem Dev.setTimer_part (d : Dev) (n t : Nat) (x : TimerH) : (d.setTimer n t x).part = d.part := (rfl)
@[simp] theorem Dev.setTimer_beam (d : Dev) (n t : Nat) (x : TimerH) : (d.setTimer n t x).beam = d.beam := (rfl)
@[simp] theorem Dev.setTimer_stage (d : Dev) (n t : Nat) (x : TimerH) : (d.setTimer n t x).stage = d.stage := (rfl)
@[simp] theorem Dev.setTimer_free (d : Dev) (n t : Nat) (x : TimerH) : (d.setTimer n t x).free = d.free := (rfl)
@[simp] theorem Dev.setTimer_regs (d : Dev) (n t : Nat) (x : TimerH) : (d.setTimer n t x).regs = d.regs := (rfl)
@[simp] theorem Dev.setTimer_mem (d : Dev) (n t : Nat) (x : TimerH) : (d.setTimer n t x).mem = d.mem := (rfl)
@[simp] theorem Dev.setTimer_fresh (d : Dev) (n t : Nat) (x : TimerH) : (d.setTimer n t x).fresh = d.fresh := (rfl)
@[simp] theorem Dev.setTimer_shadow (d : Dev) (n t : Nat) (x : TimerH) : (d.setTimer n t x).shadow = d.shadow := (rfl)
@[simp] theorem Dev.setTimer_agenda (d : Dev) (n t : Nat) (x : TimerH) : (d.setTimer n t x).agenda = d.agenda := (rfl)
@[simp] theorem Dev.setTimer_bus (d : Dev) (n t : Nat) (x : TimerH) : (d.setTimer n t x).bus = d.bus := (rfl)
@[simp] theorem Dev.setTimer_latch (d : Dev) (n t : Nat) (x : TimerH) : (d.setTimer n t x).latch = d.latch := (rfl)
@[simp] theorem Dev.setTimer_bits (d : Dev) (n t : Nat) (x : TimerH) : (d.setTimer n t x).bits = d.bits := (rfl)
@[simp] theorem Dev.setTimer_grants (d : Dev) (n t : Nat) (x : TimerH) : (d.setTimer n t x).grants = d.grants := (rfl)
@[simp] theorem Dev.setTimer_raised (d : Dev) (n t : Nat) (x : TimerH) : (d.setTimer n t x).raised = d.raised := (rfl)
@[simp] theorem Dev.setTimer_routeWas (d : Dev) (n t : Nat) (x : TimerH) : (d.setTimer n t x).routeWas = d.routeWas := (rfl)
@[simp] theorem Dev.setTimer_rings (d : Dev) (n t : Nat) (x : TimerH) : (d.setTimer n t x).rings = d.rings := (rfl)
@[simp] theorem Dev.setTimer_transit (d : Dev) (n t : Nat) (x : TimerH) : (d.setTimer n t x).transit = d.transit := (rfl)
@[simp] theorem Dev.setTimer_chLast (d : Dev) (n t : Nat) (x : TimerH) : (d.setTimer n t x).chLast = d.chLast := (rfl)
@[simp] theorem Dev.setTimer_pend (d : Dev) (n t : Nat) (x : TimerH) : (d.setTimer n t x).pend = d.pend := (rfl)
@[simp] theorem Dev.setTimer_inLast (d : Dev) (n t : Nat) (x : TimerH) : (d.setTimer n t x).inLast = d.inLast := (rfl)
@[simp] theorem Dev.setTimer_gateHist (d : Dev) (n t : Nat) (x : TimerH) : (d.setTimer n t x).gateHist = d.gateHist := (rfl)
@[simp] theorem Dev.setTimer_cells (d : Dev) (n t : Nat) (x : TimerH) : (d.setTimer n t x).cells = d.cells := (rfl)
@[simp] theorem Dev.setTimer_go (d : Dev) (n t : Nat) (x : TimerH) : (d.setTimer n t x).go = d.go := (rfl)
@[simp] theorem Dev.setTimer_pairs (d : Dev) (n t : Nat) (x : TimerH) : (d.setTimer n t x).pairs = d.pairs := (rfl)
@[simp] theorem Dev.setTimer_lines (d : Dev) (n t : Nat) (x : TimerH) : (d.setTimer n t x).lines = d.lines := (rfl)
@[simp] theorem Dev.setTimer_chans (d : Dev) (n t : Nat) (x : TimerH) : (d.setTimer n t x).chans = d.chans := (rfl)
@[simp] theorem Dev.setTimer_sets (d : Dev) (n t : Nat) (x : TimerH) : (d.setTimer n t x).sets = d.sets := (rfl)
@[simp] theorem Dev.setTimer_sdms (d : Dev) (n t : Nat) (x : TimerH) : (d.setTimer n t x).sdms = d.sdms := (rfl)
@[simp] theorem Dev.setTimer_sdclks (d : Dev) (n t : Nat) (x : TimerH) : (d.setTimer n t x).sdclks = d.sdclks := (rfl)
@[simp] theorem Dev.setTimer_rods (d : Dev) (n t : Nat) (x : TimerH) : (d.setTimer n t x).rods = d.rods := (rfl)
@[simp] theorem Dev.setTimer_frames (d : Dev) (n t : Nat) (x : TimerH) : (d.setTimer n t x).frames = d.frames := (rfl)
@[simp] theorem Dev.setTimer_presets (d : Dev) (n t : Nat) (x : TimerH) : (d.setTimer n t x).presets = d.presets := (rfl)
@[simp] theorem Dev.setTimer_traces (d : Dev) (n t : Nat) (x : TimerH) : (d.setTimer n t x).traces = d.traces := (rfl)
@[simp] theorem Dev.setTimer_fbks (d : Dev) (n t : Nat) (x : TimerH) : (d.setTimer n t x).fbks = d.fbks := (rfl)
@[simp] theorem Dev.setTimer_beads (d : Dev) (n t : Nat) (x : TimerH) : (d.setTimer n t x).beads = d.beads := (rfl)
@[simp] theorem Dev.setTimer_clasps (d : Dev) (n t : Nat) (x : TimerH) : (d.setTimer n t x).clasps = d.clasps := (rfl)
@[simp] theorem Dev.setTimer_cores (d : Dev) (n t : Nat) (x : TimerH) : (d.setTimer n t x).cores = d.cores := (rfl)
@[simp] theorem Dev.setTimer_icache (d : Dev) (n t : Nat) (x : TimerH) : (d.setTimer n t x).icache = d.icache := (rfl)
@[simp] theorem Dev.setTimer_dcache (d : Dev) (n t : Nat) (x : TimerH) : (d.setTimer n t x).dcache = d.dcache := (rfl)
@[simp] theorem Dev.setTimer_dma (d : Dev) (n t : Nat) (x : TimerH) : (d.setTimer n t x).dma = d.dma := (rfl)
@[simp] theorem Dev.setTimer_dmaBusy (d : Dev) (n t : Nat) (x : TimerH) : (d.setTimer n t x).dmaBusy = d.dmaBusy := (rfl)
@[simp] theorem Dev.setTimer_credits (d : Dev) (n t : Nat) (x : TimerH) : (d.setTimer n t x).credits = d.credits := (rfl)
@[simp] theorem Dev.setTimer_losses (d : Dev) (n t : Nat) (x : TimerH) : (d.setTimer n t x).losses = d.losses := (rfl)
@[simp] theorem Dev.setTimer_backoff (d : Dev) (n t : Nat) (x : TimerH) : (d.setTimer n t x).backoff = d.backoff := (rfl)
@[simp] theorem Dev.setTimer_ledger (d : Dev) (n t : Nat) (x : TimerH) : (d.setTimer n t x).ledger = d.ledger := (rfl)
@[simp] theorem Dev.setTimer_chozer (d : Dev) (n t : Nat) (x : TimerH) : (d.setTimer n t x).chozer = d.chozer := (rfl)
@[simp] theorem Dev.setTimer_net (d : Dev) (n t : Nat) (x : TimerH) : (d.setTimer n t x).net = d.net := (rfl)
@[simp] theorem Dev.setTimer_can (d : Dev) (n t : Nat) (x : TimerH) : (d.setTimer n t x).can = d.can := (rfl)
@[simp] theorem Dev.setTimer_power (d : Dev) (n t : Nat) (x : TimerH) : (d.setTimer n t x).power = d.power := (rfl)
@[simp] theorem Dev.setTimer_diag (d : Dev) (n t : Nat) (x : TimerH) : (d.setTimer n t x).diag = d.diag := (rfl)
@[simp] theorem Dev.setTimer_scrubAt (d : Dev) (n t : Nat) (x : TimerH) : (d.setTimer n t x).scrubAt = d.scrubAt := (rfl)
@[simp] theorem Dev.setPair_part (d : Dev) (n p : Nat) (x : PairH) : (d.setPair n p x).part = d.part := (rfl)
@[simp] theorem Dev.setPair_beam (d : Dev) (n p : Nat) (x : PairH) : (d.setPair n p x).beam = d.beam := (rfl)
@[simp] theorem Dev.setPair_stage (d : Dev) (n p : Nat) (x : PairH) : (d.setPair n p x).stage = d.stage := (rfl)
@[simp] theorem Dev.setPair_free (d : Dev) (n p : Nat) (x : PairH) : (d.setPair n p x).free = d.free := (rfl)
@[simp] theorem Dev.setPair_regs (d : Dev) (n p : Nat) (x : PairH) : (d.setPair n p x).regs = d.regs := (rfl)
@[simp] theorem Dev.setPair_mem (d : Dev) (n p : Nat) (x : PairH) : (d.setPair n p x).mem = d.mem := (rfl)
@[simp] theorem Dev.setPair_fresh (d : Dev) (n p : Nat) (x : PairH) : (d.setPair n p x).fresh = d.fresh := (rfl)
@[simp] theorem Dev.setPair_shadow (d : Dev) (n p : Nat) (x : PairH) : (d.setPair n p x).shadow = d.shadow := (rfl)
@[simp] theorem Dev.setPair_agenda (d : Dev) (n p : Nat) (x : PairH) : (d.setPair n p x).agenda = d.agenda := (rfl)
@[simp] theorem Dev.setPair_bus (d : Dev) (n p : Nat) (x : PairH) : (d.setPair n p x).bus = d.bus := (rfl)
@[simp] theorem Dev.setPair_latch (d : Dev) (n p : Nat) (x : PairH) : (d.setPair n p x).latch = d.latch := (rfl)
@[simp] theorem Dev.setPair_bits (d : Dev) (n p : Nat) (x : PairH) : (d.setPair n p x).bits = d.bits := (rfl)
@[simp] theorem Dev.setPair_grants (d : Dev) (n p : Nat) (x : PairH) : (d.setPair n p x).grants = d.grants := (rfl)
@[simp] theorem Dev.setPair_raised (d : Dev) (n p : Nat) (x : PairH) : (d.setPair n p x).raised = d.raised := (rfl)
@[simp] theorem Dev.setPair_routeWas (d : Dev) (n p : Nat) (x : PairH) : (d.setPair n p x).routeWas = d.routeWas := (rfl)
@[simp] theorem Dev.setPair_rings (d : Dev) (n p : Nat) (x : PairH) : (d.setPair n p x).rings = d.rings := (rfl)
@[simp] theorem Dev.setPair_transit (d : Dev) (n p : Nat) (x : PairH) : (d.setPair n p x).transit = d.transit := (rfl)
@[simp] theorem Dev.setPair_chLast (d : Dev) (n p : Nat) (x : PairH) : (d.setPair n p x).chLast = d.chLast := (rfl)
@[simp] theorem Dev.setPair_pend (d : Dev) (n p : Nat) (x : PairH) : (d.setPair n p x).pend = d.pend := (rfl)
@[simp] theorem Dev.setPair_inLast (d : Dev) (n p : Nat) (x : PairH) : (d.setPair n p x).inLast = d.inLast := (rfl)
@[simp] theorem Dev.setPair_gateHist (d : Dev) (n p : Nat) (x : PairH) : (d.setPair n p x).gateHist = d.gateHist := (rfl)
@[simp] theorem Dev.setPair_cells (d : Dev) (n p : Nat) (x : PairH) : (d.setPair n p x).cells = d.cells := (rfl)
@[simp] theorem Dev.setPair_timers (d : Dev) (n p : Nat) (x : PairH) : (d.setPair n p x).timers = d.timers := (rfl)
@[simp] theorem Dev.setPair_go (d : Dev) (n p : Nat) (x : PairH) : (d.setPair n p x).go = d.go := (rfl)
@[simp] theorem Dev.setPair_lines (d : Dev) (n p : Nat) (x : PairH) : (d.setPair n p x).lines = d.lines := (rfl)
@[simp] theorem Dev.setPair_chans (d : Dev) (n p : Nat) (x : PairH) : (d.setPair n p x).chans = d.chans := (rfl)
@[simp] theorem Dev.setPair_sets (d : Dev) (n p : Nat) (x : PairH) : (d.setPair n p x).sets = d.sets := (rfl)
@[simp] theorem Dev.setPair_sdms (d : Dev) (n p : Nat) (x : PairH) : (d.setPair n p x).sdms = d.sdms := (rfl)
@[simp] theorem Dev.setPair_sdclks (d : Dev) (n p : Nat) (x : PairH) : (d.setPair n p x).sdclks = d.sdclks := (rfl)
@[simp] theorem Dev.setPair_rods (d : Dev) (n p : Nat) (x : PairH) : (d.setPair n p x).rods = d.rods := (rfl)
@[simp] theorem Dev.setPair_frames (d : Dev) (n p : Nat) (x : PairH) : (d.setPair n p x).frames = d.frames := (rfl)
@[simp] theorem Dev.setPair_presets (d : Dev) (n p : Nat) (x : PairH) : (d.setPair n p x).presets = d.presets := (rfl)
@[simp] theorem Dev.setPair_traces (d : Dev) (n p : Nat) (x : PairH) : (d.setPair n p x).traces = d.traces := (rfl)
@[simp] theorem Dev.setPair_fbks (d : Dev) (n p : Nat) (x : PairH) : (d.setPair n p x).fbks = d.fbks := (rfl)
@[simp] theorem Dev.setPair_beads (d : Dev) (n p : Nat) (x : PairH) : (d.setPair n p x).beads = d.beads := (rfl)
@[simp] theorem Dev.setPair_clasps (d : Dev) (n p : Nat) (x : PairH) : (d.setPair n p x).clasps = d.clasps := (rfl)
@[simp] theorem Dev.setPair_cores (d : Dev) (n p : Nat) (x : PairH) : (d.setPair n p x).cores = d.cores := (rfl)
@[simp] theorem Dev.setPair_icache (d : Dev) (n p : Nat) (x : PairH) : (d.setPair n p x).icache = d.icache := (rfl)
@[simp] theorem Dev.setPair_dcache (d : Dev) (n p : Nat) (x : PairH) : (d.setPair n p x).dcache = d.dcache := (rfl)
@[simp] theorem Dev.setPair_dma (d : Dev) (n p : Nat) (x : PairH) : (d.setPair n p x).dma = d.dma := (rfl)
@[simp] theorem Dev.setPair_dmaBusy (d : Dev) (n p : Nat) (x : PairH) : (d.setPair n p x).dmaBusy = d.dmaBusy := (rfl)
@[simp] theorem Dev.setPair_credits (d : Dev) (n p : Nat) (x : PairH) : (d.setPair n p x).credits = d.credits := (rfl)
@[simp] theorem Dev.setPair_losses (d : Dev) (n p : Nat) (x : PairH) : (d.setPair n p x).losses = d.losses := (rfl)
@[simp] theorem Dev.setPair_backoff (d : Dev) (n p : Nat) (x : PairH) : (d.setPair n p x).backoff = d.backoff := (rfl)
@[simp] theorem Dev.setPair_ledger (d : Dev) (n p : Nat) (x : PairH) : (d.setPair n p x).ledger = d.ledger := (rfl)
@[simp] theorem Dev.setPair_chozer (d : Dev) (n p : Nat) (x : PairH) : (d.setPair n p x).chozer = d.chozer := (rfl)
@[simp] theorem Dev.setPair_net (d : Dev) (n p : Nat) (x : PairH) : (d.setPair n p x).net = d.net := (rfl)
@[simp] theorem Dev.setPair_can (d : Dev) (n p : Nat) (x : PairH) : (d.setPair n p x).can = d.can := (rfl)
@[simp] theorem Dev.setPair_power (d : Dev) (n p : Nat) (x : PairH) : (d.setPair n p x).power = d.power := (rfl)
@[simp] theorem Dev.setPair_diag (d : Dev) (n p : Nat) (x : PairH) : (d.setPair n p x).diag = d.diag := (rfl)
@[simp] theorem Dev.setPair_scrubAt (d : Dev) (n p : Nat) (x : PairH) : (d.setPair n p x).scrubAt = d.scrubAt := (rfl)
@[simp] theorem Dev.setLine_part (d : Dev) (n l : Nat) (x : LineH) : (d.setLine n l x).part = d.part := (rfl)
@[simp] theorem Dev.setLine_beam (d : Dev) (n l : Nat) (x : LineH) : (d.setLine n l x).beam = d.beam := (rfl)
@[simp] theorem Dev.setLine_stage (d : Dev) (n l : Nat) (x : LineH) : (d.setLine n l x).stage = d.stage := (rfl)
@[simp] theorem Dev.setLine_free (d : Dev) (n l : Nat) (x : LineH) : (d.setLine n l x).free = d.free := (rfl)
@[simp] theorem Dev.setLine_regs (d : Dev) (n l : Nat) (x : LineH) : (d.setLine n l x).regs = d.regs := (rfl)
@[simp] theorem Dev.setLine_mem (d : Dev) (n l : Nat) (x : LineH) : (d.setLine n l x).mem = d.mem := (rfl)
@[simp] theorem Dev.setLine_fresh (d : Dev) (n l : Nat) (x : LineH) : (d.setLine n l x).fresh = d.fresh := (rfl)
@[simp] theorem Dev.setLine_shadow (d : Dev) (n l : Nat) (x : LineH) : (d.setLine n l x).shadow = d.shadow := (rfl)
@[simp] theorem Dev.setLine_agenda (d : Dev) (n l : Nat) (x : LineH) : (d.setLine n l x).agenda = d.agenda := (rfl)
@[simp] theorem Dev.setLine_bus (d : Dev) (n l : Nat) (x : LineH) : (d.setLine n l x).bus = d.bus := (rfl)
@[simp] theorem Dev.setLine_latch (d : Dev) (n l : Nat) (x : LineH) : (d.setLine n l x).latch = d.latch := (rfl)
@[simp] theorem Dev.setLine_bits (d : Dev) (n l : Nat) (x : LineH) : (d.setLine n l x).bits = d.bits := (rfl)
@[simp] theorem Dev.setLine_grants (d : Dev) (n l : Nat) (x : LineH) : (d.setLine n l x).grants = d.grants := (rfl)
@[simp] theorem Dev.setLine_raised (d : Dev) (n l : Nat) (x : LineH) : (d.setLine n l x).raised = d.raised := (rfl)
@[simp] theorem Dev.setLine_routeWas (d : Dev) (n l : Nat) (x : LineH) : (d.setLine n l x).routeWas = d.routeWas := (rfl)
@[simp] theorem Dev.setLine_rings (d : Dev) (n l : Nat) (x : LineH) : (d.setLine n l x).rings = d.rings := (rfl)
@[simp] theorem Dev.setLine_transit (d : Dev) (n l : Nat) (x : LineH) : (d.setLine n l x).transit = d.transit := (rfl)
@[simp] theorem Dev.setLine_chLast (d : Dev) (n l : Nat) (x : LineH) : (d.setLine n l x).chLast = d.chLast := (rfl)
@[simp] theorem Dev.setLine_pend (d : Dev) (n l : Nat) (x : LineH) : (d.setLine n l x).pend = d.pend := (rfl)
@[simp] theorem Dev.setLine_inLast (d : Dev) (n l : Nat) (x : LineH) : (d.setLine n l x).inLast = d.inLast := (rfl)
@[simp] theorem Dev.setLine_gateHist (d : Dev) (n l : Nat) (x : LineH) : (d.setLine n l x).gateHist = d.gateHist := (rfl)
@[simp] theorem Dev.setLine_cells (d : Dev) (n l : Nat) (x : LineH) : (d.setLine n l x).cells = d.cells := (rfl)
@[simp] theorem Dev.setLine_timers (d : Dev) (n l : Nat) (x : LineH) : (d.setLine n l x).timers = d.timers := (rfl)
@[simp] theorem Dev.setLine_go (d : Dev) (n l : Nat) (x : LineH) : (d.setLine n l x).go = d.go := (rfl)
@[simp] theorem Dev.setLine_pairs (d : Dev) (n l : Nat) (x : LineH) : (d.setLine n l x).pairs = d.pairs := (rfl)
@[simp] theorem Dev.setLine_chans (d : Dev) (n l : Nat) (x : LineH) : (d.setLine n l x).chans = d.chans := (rfl)
@[simp] theorem Dev.setLine_sets (d : Dev) (n l : Nat) (x : LineH) : (d.setLine n l x).sets = d.sets := (rfl)
@[simp] theorem Dev.setLine_sdms (d : Dev) (n l : Nat) (x : LineH) : (d.setLine n l x).sdms = d.sdms := (rfl)
@[simp] theorem Dev.setLine_sdclks (d : Dev) (n l : Nat) (x : LineH) : (d.setLine n l x).sdclks = d.sdclks := (rfl)
@[simp] theorem Dev.setLine_rods (d : Dev) (n l : Nat) (x : LineH) : (d.setLine n l x).rods = d.rods := (rfl)
@[simp] theorem Dev.setLine_frames (d : Dev) (n l : Nat) (x : LineH) : (d.setLine n l x).frames = d.frames := (rfl)
@[simp] theorem Dev.setLine_presets (d : Dev) (n l : Nat) (x : LineH) : (d.setLine n l x).presets = d.presets := (rfl)
@[simp] theorem Dev.setLine_traces (d : Dev) (n l : Nat) (x : LineH) : (d.setLine n l x).traces = d.traces := (rfl)
@[simp] theorem Dev.setLine_fbks (d : Dev) (n l : Nat) (x : LineH) : (d.setLine n l x).fbks = d.fbks := (rfl)
@[simp] theorem Dev.setLine_beads (d : Dev) (n l : Nat) (x : LineH) : (d.setLine n l x).beads = d.beads := (rfl)
@[simp] theorem Dev.setLine_clasps (d : Dev) (n l : Nat) (x : LineH) : (d.setLine n l x).clasps = d.clasps := (rfl)
@[simp] theorem Dev.setLine_cores (d : Dev) (n l : Nat) (x : LineH) : (d.setLine n l x).cores = d.cores := (rfl)
@[simp] theorem Dev.setLine_icache (d : Dev) (n l : Nat) (x : LineH) : (d.setLine n l x).icache = d.icache := (rfl)
@[simp] theorem Dev.setLine_dcache (d : Dev) (n l : Nat) (x : LineH) : (d.setLine n l x).dcache = d.dcache := (rfl)
@[simp] theorem Dev.setLine_dma (d : Dev) (n l : Nat) (x : LineH) : (d.setLine n l x).dma = d.dma := (rfl)
@[simp] theorem Dev.setLine_dmaBusy (d : Dev) (n l : Nat) (x : LineH) : (d.setLine n l x).dmaBusy = d.dmaBusy := (rfl)
@[simp] theorem Dev.setLine_credits (d : Dev) (n l : Nat) (x : LineH) : (d.setLine n l x).credits = d.credits := (rfl)
@[simp] theorem Dev.setLine_losses (d : Dev) (n l : Nat) (x : LineH) : (d.setLine n l x).losses = d.losses := (rfl)
@[simp] theorem Dev.setLine_backoff (d : Dev) (n l : Nat) (x : LineH) : (d.setLine n l x).backoff = d.backoff := (rfl)
@[simp] theorem Dev.setLine_ledger (d : Dev) (n l : Nat) (x : LineH) : (d.setLine n l x).ledger = d.ledger := (rfl)
@[simp] theorem Dev.setLine_chozer (d : Dev) (n l : Nat) (x : LineH) : (d.setLine n l x).chozer = d.chozer := (rfl)
@[simp] theorem Dev.setLine_net (d : Dev) (n l : Nat) (x : LineH) : (d.setLine n l x).net = d.net := (rfl)
@[simp] theorem Dev.setLine_can (d : Dev) (n l : Nat) (x : LineH) : (d.setLine n l x).can = d.can := (rfl)
@[simp] theorem Dev.setLine_power (d : Dev) (n l : Nat) (x : LineH) : (d.setLine n l x).power = d.power := (rfl)
@[simp] theorem Dev.setLine_diag (d : Dev) (n l : Nat) (x : LineH) : (d.setLine n l x).diag = d.diag := (rfl)
@[simp] theorem Dev.setLine_scrubAt (d : Dev) (n l : Nat) (x : LineH) : (d.setLine n l x).scrubAt = d.scrubAt := (rfl)
@[simp] theorem Dev.setChan_part (d : Dev) (n c : Nat) (x : ChanH) : (d.setChan n c x).part = d.part := (rfl)
@[simp] theorem Dev.setChan_beam (d : Dev) (n c : Nat) (x : ChanH) : (d.setChan n c x).beam = d.beam := (rfl)
@[simp] theorem Dev.setChan_stage (d : Dev) (n c : Nat) (x : ChanH) : (d.setChan n c x).stage = d.stage := (rfl)
@[simp] theorem Dev.setChan_free (d : Dev) (n c : Nat) (x : ChanH) : (d.setChan n c x).free = d.free := (rfl)
@[simp] theorem Dev.setChan_regs (d : Dev) (n c : Nat) (x : ChanH) : (d.setChan n c x).regs = d.regs := (rfl)
@[simp] theorem Dev.setChan_mem (d : Dev) (n c : Nat) (x : ChanH) : (d.setChan n c x).mem = d.mem := (rfl)
@[simp] theorem Dev.setChan_fresh (d : Dev) (n c : Nat) (x : ChanH) : (d.setChan n c x).fresh = d.fresh := (rfl)
@[simp] theorem Dev.setChan_shadow (d : Dev) (n c : Nat) (x : ChanH) : (d.setChan n c x).shadow = d.shadow := (rfl)
@[simp] theorem Dev.setChan_agenda (d : Dev) (n c : Nat) (x : ChanH) : (d.setChan n c x).agenda = d.agenda := (rfl)
@[simp] theorem Dev.setChan_bus (d : Dev) (n c : Nat) (x : ChanH) : (d.setChan n c x).bus = d.bus := (rfl)
@[simp] theorem Dev.setChan_latch (d : Dev) (n c : Nat) (x : ChanH) : (d.setChan n c x).latch = d.latch := (rfl)
@[simp] theorem Dev.setChan_bits (d : Dev) (n c : Nat) (x : ChanH) : (d.setChan n c x).bits = d.bits := (rfl)
@[simp] theorem Dev.setChan_grants (d : Dev) (n c : Nat) (x : ChanH) : (d.setChan n c x).grants = d.grants := (rfl)
@[simp] theorem Dev.setChan_raised (d : Dev) (n c : Nat) (x : ChanH) : (d.setChan n c x).raised = d.raised := (rfl)
@[simp] theorem Dev.setChan_routeWas (d : Dev) (n c : Nat) (x : ChanH) : (d.setChan n c x).routeWas = d.routeWas := (rfl)
@[simp] theorem Dev.setChan_rings (d : Dev) (n c : Nat) (x : ChanH) : (d.setChan n c x).rings = d.rings := (rfl)
@[simp] theorem Dev.setChan_transit (d : Dev) (n c : Nat) (x : ChanH) : (d.setChan n c x).transit = d.transit := (rfl)
@[simp] theorem Dev.setChan_chLast (d : Dev) (n c : Nat) (x : ChanH) : (d.setChan n c x).chLast = d.chLast := (rfl)
@[simp] theorem Dev.setChan_pend (d : Dev) (n c : Nat) (x : ChanH) : (d.setChan n c x).pend = d.pend := (rfl)
@[simp] theorem Dev.setChan_inLast (d : Dev) (n c : Nat) (x : ChanH) : (d.setChan n c x).inLast = d.inLast := (rfl)
@[simp] theorem Dev.setChan_gateHist (d : Dev) (n c : Nat) (x : ChanH) : (d.setChan n c x).gateHist = d.gateHist := (rfl)
@[simp] theorem Dev.setChan_cells (d : Dev) (n c : Nat) (x : ChanH) : (d.setChan n c x).cells = d.cells := (rfl)
@[simp] theorem Dev.setChan_timers (d : Dev) (n c : Nat) (x : ChanH) : (d.setChan n c x).timers = d.timers := (rfl)
@[simp] theorem Dev.setChan_go (d : Dev) (n c : Nat) (x : ChanH) : (d.setChan n c x).go = d.go := (rfl)
@[simp] theorem Dev.setChan_pairs (d : Dev) (n c : Nat) (x : ChanH) : (d.setChan n c x).pairs = d.pairs := (rfl)
@[simp] theorem Dev.setChan_lines (d : Dev) (n c : Nat) (x : ChanH) : (d.setChan n c x).lines = d.lines := (rfl)
@[simp] theorem Dev.setChan_sets (d : Dev) (n c : Nat) (x : ChanH) : (d.setChan n c x).sets = d.sets := (rfl)
@[simp] theorem Dev.setChan_sdms (d : Dev) (n c : Nat) (x : ChanH) : (d.setChan n c x).sdms = d.sdms := (rfl)
@[simp] theorem Dev.setChan_sdclks (d : Dev) (n c : Nat) (x : ChanH) : (d.setChan n c x).sdclks = d.sdclks := (rfl)
@[simp] theorem Dev.setChan_rods (d : Dev) (n c : Nat) (x : ChanH) : (d.setChan n c x).rods = d.rods := (rfl)
@[simp] theorem Dev.setChan_frames (d : Dev) (n c : Nat) (x : ChanH) : (d.setChan n c x).frames = d.frames := (rfl)
@[simp] theorem Dev.setChan_presets (d : Dev) (n c : Nat) (x : ChanH) : (d.setChan n c x).presets = d.presets := (rfl)
@[simp] theorem Dev.setChan_traces (d : Dev) (n c : Nat) (x : ChanH) : (d.setChan n c x).traces = d.traces := (rfl)
@[simp] theorem Dev.setChan_fbks (d : Dev) (n c : Nat) (x : ChanH) : (d.setChan n c x).fbks = d.fbks := (rfl)
@[simp] theorem Dev.setChan_beads (d : Dev) (n c : Nat) (x : ChanH) : (d.setChan n c x).beads = d.beads := (rfl)
@[simp] theorem Dev.setChan_clasps (d : Dev) (n c : Nat) (x : ChanH) : (d.setChan n c x).clasps = d.clasps := (rfl)
@[simp] theorem Dev.setChan_cores (d : Dev) (n c : Nat) (x : ChanH) : (d.setChan n c x).cores = d.cores := (rfl)
@[simp] theorem Dev.setChan_icache (d : Dev) (n c : Nat) (x : ChanH) : (d.setChan n c x).icache = d.icache := (rfl)
@[simp] theorem Dev.setChan_dcache (d : Dev) (n c : Nat) (x : ChanH) : (d.setChan n c x).dcache = d.dcache := (rfl)
@[simp] theorem Dev.setChan_dma (d : Dev) (n c : Nat) (x : ChanH) : (d.setChan n c x).dma = d.dma := (rfl)
@[simp] theorem Dev.setChan_dmaBusy (d : Dev) (n c : Nat) (x : ChanH) : (d.setChan n c x).dmaBusy = d.dmaBusy := (rfl)
@[simp] theorem Dev.setChan_credits (d : Dev) (n c : Nat) (x : ChanH) : (d.setChan n c x).credits = d.credits := (rfl)
@[simp] theorem Dev.setChan_losses (d : Dev) (n c : Nat) (x : ChanH) : (d.setChan n c x).losses = d.losses := (rfl)
@[simp] theorem Dev.setChan_backoff (d : Dev) (n c : Nat) (x : ChanH) : (d.setChan n c x).backoff = d.backoff := (rfl)
@[simp] theorem Dev.setChan_ledger (d : Dev) (n c : Nat) (x : ChanH) : (d.setChan n c x).ledger = d.ledger := (rfl)
@[simp] theorem Dev.setChan_chozer (d : Dev) (n c : Nat) (x : ChanH) : (d.setChan n c x).chozer = d.chozer := (rfl)
@[simp] theorem Dev.setChan_net (d : Dev) (n c : Nat) (x : ChanH) : (d.setChan n c x).net = d.net := (rfl)
@[simp] theorem Dev.setChan_can (d : Dev) (n c : Nat) (x : ChanH) : (d.setChan n c x).can = d.can := (rfl)
@[simp] theorem Dev.setChan_power (d : Dev) (n c : Nat) (x : ChanH) : (d.setChan n c x).power = d.power := (rfl)
@[simp] theorem Dev.setChan_diag (d : Dev) (n c : Nat) (x : ChanH) : (d.setChan n c x).diag = d.diag := (rfl)
@[simp] theorem Dev.setChan_scrubAt (d : Dev) (n c : Nat) (x : ChanH) : (d.setChan n c x).scrubAt = d.scrubAt := (rfl)
@[simp] theorem Dev.setSset_part (d : Dev) (n : Nat) (x : SetH) : (d.setSset n x).part = d.part := (rfl)
@[simp] theorem Dev.setSset_beam (d : Dev) (n : Nat) (x : SetH) : (d.setSset n x).beam = d.beam := (rfl)
@[simp] theorem Dev.setSset_stage (d : Dev) (n : Nat) (x : SetH) : (d.setSset n x).stage = d.stage := (rfl)
@[simp] theorem Dev.setSset_free (d : Dev) (n : Nat) (x : SetH) : (d.setSset n x).free = d.free := (rfl)
@[simp] theorem Dev.setSset_regs (d : Dev) (n : Nat) (x : SetH) : (d.setSset n x).regs = d.regs := (rfl)
@[simp] theorem Dev.setSset_mem (d : Dev) (n : Nat) (x : SetH) : (d.setSset n x).mem = d.mem := (rfl)
@[simp] theorem Dev.setSset_fresh (d : Dev) (n : Nat) (x : SetH) : (d.setSset n x).fresh = d.fresh := (rfl)
@[simp] theorem Dev.setSset_shadow (d : Dev) (n : Nat) (x : SetH) : (d.setSset n x).shadow = d.shadow := (rfl)
@[simp] theorem Dev.setSset_agenda (d : Dev) (n : Nat) (x : SetH) : (d.setSset n x).agenda = d.agenda := (rfl)
@[simp] theorem Dev.setSset_bus (d : Dev) (n : Nat) (x : SetH) : (d.setSset n x).bus = d.bus := (rfl)
@[simp] theorem Dev.setSset_latch (d : Dev) (n : Nat) (x : SetH) : (d.setSset n x).latch = d.latch := (rfl)
@[simp] theorem Dev.setSset_bits (d : Dev) (n : Nat) (x : SetH) : (d.setSset n x).bits = d.bits := (rfl)
@[simp] theorem Dev.setSset_grants (d : Dev) (n : Nat) (x : SetH) : (d.setSset n x).grants = d.grants := (rfl)
@[simp] theorem Dev.setSset_raised (d : Dev) (n : Nat) (x : SetH) : (d.setSset n x).raised = d.raised := (rfl)
@[simp] theorem Dev.setSset_routeWas (d : Dev) (n : Nat) (x : SetH) : (d.setSset n x).routeWas = d.routeWas := (rfl)
@[simp] theorem Dev.setSset_rings (d : Dev) (n : Nat) (x : SetH) : (d.setSset n x).rings = d.rings := (rfl)
@[simp] theorem Dev.setSset_transit (d : Dev) (n : Nat) (x : SetH) : (d.setSset n x).transit = d.transit := (rfl)
@[simp] theorem Dev.setSset_chLast (d : Dev) (n : Nat) (x : SetH) : (d.setSset n x).chLast = d.chLast := (rfl)
@[simp] theorem Dev.setSset_pend (d : Dev) (n : Nat) (x : SetH) : (d.setSset n x).pend = d.pend := (rfl)
@[simp] theorem Dev.setSset_inLast (d : Dev) (n : Nat) (x : SetH) : (d.setSset n x).inLast = d.inLast := (rfl)
@[simp] theorem Dev.setSset_gateHist (d : Dev) (n : Nat) (x : SetH) : (d.setSset n x).gateHist = d.gateHist := (rfl)
@[simp] theorem Dev.setSset_cells (d : Dev) (n : Nat) (x : SetH) : (d.setSset n x).cells = d.cells := (rfl)
@[simp] theorem Dev.setSset_timers (d : Dev) (n : Nat) (x : SetH) : (d.setSset n x).timers = d.timers := (rfl)
@[simp] theorem Dev.setSset_go (d : Dev) (n : Nat) (x : SetH) : (d.setSset n x).go = d.go := (rfl)
@[simp] theorem Dev.setSset_pairs (d : Dev) (n : Nat) (x : SetH) : (d.setSset n x).pairs = d.pairs := (rfl)
@[simp] theorem Dev.setSset_lines (d : Dev) (n : Nat) (x : SetH) : (d.setSset n x).lines = d.lines := (rfl)
@[simp] theorem Dev.setSset_chans (d : Dev) (n : Nat) (x : SetH) : (d.setSset n x).chans = d.chans := (rfl)
@[simp] theorem Dev.setSset_sdms (d : Dev) (n : Nat) (x : SetH) : (d.setSset n x).sdms = d.sdms := (rfl)
@[simp] theorem Dev.setSset_sdclks (d : Dev) (n : Nat) (x : SetH) : (d.setSset n x).sdclks = d.sdclks := (rfl)
@[simp] theorem Dev.setSset_rods (d : Dev) (n : Nat) (x : SetH) : (d.setSset n x).rods = d.rods := (rfl)
@[simp] theorem Dev.setSset_frames (d : Dev) (n : Nat) (x : SetH) : (d.setSset n x).frames = d.frames := (rfl)
@[simp] theorem Dev.setSset_presets (d : Dev) (n : Nat) (x : SetH) : (d.setSset n x).presets = d.presets := (rfl)
@[simp] theorem Dev.setSset_traces (d : Dev) (n : Nat) (x : SetH) : (d.setSset n x).traces = d.traces := (rfl)
@[simp] theorem Dev.setSset_fbks (d : Dev) (n : Nat) (x : SetH) : (d.setSset n x).fbks = d.fbks := (rfl)
@[simp] theorem Dev.setSset_beads (d : Dev) (n : Nat) (x : SetH) : (d.setSset n x).beads = d.beads := (rfl)
@[simp] theorem Dev.setSset_clasps (d : Dev) (n : Nat) (x : SetH) : (d.setSset n x).clasps = d.clasps := (rfl)
@[simp] theorem Dev.setSset_cores (d : Dev) (n : Nat) (x : SetH) : (d.setSset n x).cores = d.cores := (rfl)
@[simp] theorem Dev.setSset_icache (d : Dev) (n : Nat) (x : SetH) : (d.setSset n x).icache = d.icache := (rfl)
@[simp] theorem Dev.setSset_dcache (d : Dev) (n : Nat) (x : SetH) : (d.setSset n x).dcache = d.dcache := (rfl)
@[simp] theorem Dev.setSset_dma (d : Dev) (n : Nat) (x : SetH) : (d.setSset n x).dma = d.dma := (rfl)
@[simp] theorem Dev.setSset_dmaBusy (d : Dev) (n : Nat) (x : SetH) : (d.setSset n x).dmaBusy = d.dmaBusy := (rfl)
@[simp] theorem Dev.setSset_credits (d : Dev) (n : Nat) (x : SetH) : (d.setSset n x).credits = d.credits := (rfl)
@[simp] theorem Dev.setSset_losses (d : Dev) (n : Nat) (x : SetH) : (d.setSset n x).losses = d.losses := (rfl)
@[simp] theorem Dev.setSset_backoff (d : Dev) (n : Nat) (x : SetH) : (d.setSset n x).backoff = d.backoff := (rfl)
@[simp] theorem Dev.setSset_ledger (d : Dev) (n : Nat) (x : SetH) : (d.setSset n x).ledger = d.ledger := (rfl)
@[simp] theorem Dev.setSset_chozer (d : Dev) (n : Nat) (x : SetH) : (d.setSset n x).chozer = d.chozer := (rfl)
@[simp] theorem Dev.setSset_net (d : Dev) (n : Nat) (x : SetH) : (d.setSset n x).net = d.net := (rfl)
@[simp] theorem Dev.setSset_can (d : Dev) (n : Nat) (x : SetH) : (d.setSset n x).can = d.can := (rfl)
@[simp] theorem Dev.setSset_power (d : Dev) (n : Nat) (x : SetH) : (d.setSset n x).power = d.power := (rfl)
@[simp] theorem Dev.setSset_diag (d : Dev) (n : Nat) (x : SetH) : (d.setSset n x).diag = d.diag := (rfl)
@[simp] theorem Dev.setSset_scrubAt (d : Dev) (n : Nat) (x : SetH) : (d.setSset n x).scrubAt = d.scrubAt := (rfl)
@[simp] theorem Dev.setSdm_part (d : Dev) (n j : Nat) (x : SdmH) : (d.setSdm n j x).part = d.part := (rfl)
@[simp] theorem Dev.setSdm_beam (d : Dev) (n j : Nat) (x : SdmH) : (d.setSdm n j x).beam = d.beam := (rfl)
@[simp] theorem Dev.setSdm_stage (d : Dev) (n j : Nat) (x : SdmH) : (d.setSdm n j x).stage = d.stage := (rfl)
@[simp] theorem Dev.setSdm_free (d : Dev) (n j : Nat) (x : SdmH) : (d.setSdm n j x).free = d.free := (rfl)
@[simp] theorem Dev.setSdm_regs (d : Dev) (n j : Nat) (x : SdmH) : (d.setSdm n j x).regs = d.regs := (rfl)
@[simp] theorem Dev.setSdm_mem (d : Dev) (n j : Nat) (x : SdmH) : (d.setSdm n j x).mem = d.mem := (rfl)
@[simp] theorem Dev.setSdm_fresh (d : Dev) (n j : Nat) (x : SdmH) : (d.setSdm n j x).fresh = d.fresh := (rfl)
@[simp] theorem Dev.setSdm_shadow (d : Dev) (n j : Nat) (x : SdmH) : (d.setSdm n j x).shadow = d.shadow := (rfl)
@[simp] theorem Dev.setSdm_agenda (d : Dev) (n j : Nat) (x : SdmH) : (d.setSdm n j x).agenda = d.agenda := (rfl)
@[simp] theorem Dev.setSdm_bus (d : Dev) (n j : Nat) (x : SdmH) : (d.setSdm n j x).bus = d.bus := (rfl)
@[simp] theorem Dev.setSdm_latch (d : Dev) (n j : Nat) (x : SdmH) : (d.setSdm n j x).latch = d.latch := (rfl)
@[simp] theorem Dev.setSdm_bits (d : Dev) (n j : Nat) (x : SdmH) : (d.setSdm n j x).bits = d.bits := (rfl)
@[simp] theorem Dev.setSdm_grants (d : Dev) (n j : Nat) (x : SdmH) : (d.setSdm n j x).grants = d.grants := (rfl)
@[simp] theorem Dev.setSdm_raised (d : Dev) (n j : Nat) (x : SdmH) : (d.setSdm n j x).raised = d.raised := (rfl)
@[simp] theorem Dev.setSdm_routeWas (d : Dev) (n j : Nat) (x : SdmH) : (d.setSdm n j x).routeWas = d.routeWas := (rfl)
@[simp] theorem Dev.setSdm_rings (d : Dev) (n j : Nat) (x : SdmH) : (d.setSdm n j x).rings = d.rings := (rfl)
@[simp] theorem Dev.setSdm_transit (d : Dev) (n j : Nat) (x : SdmH) : (d.setSdm n j x).transit = d.transit := (rfl)
@[simp] theorem Dev.setSdm_chLast (d : Dev) (n j : Nat) (x : SdmH) : (d.setSdm n j x).chLast = d.chLast := (rfl)
@[simp] theorem Dev.setSdm_pend (d : Dev) (n j : Nat) (x : SdmH) : (d.setSdm n j x).pend = d.pend := (rfl)
@[simp] theorem Dev.setSdm_inLast (d : Dev) (n j : Nat) (x : SdmH) : (d.setSdm n j x).inLast = d.inLast := (rfl)
@[simp] theorem Dev.setSdm_gateHist (d : Dev) (n j : Nat) (x : SdmH) : (d.setSdm n j x).gateHist = d.gateHist := (rfl)
@[simp] theorem Dev.setSdm_cells (d : Dev) (n j : Nat) (x : SdmH) : (d.setSdm n j x).cells = d.cells := (rfl)
@[simp] theorem Dev.setSdm_timers (d : Dev) (n j : Nat) (x : SdmH) : (d.setSdm n j x).timers = d.timers := (rfl)
@[simp] theorem Dev.setSdm_go (d : Dev) (n j : Nat) (x : SdmH) : (d.setSdm n j x).go = d.go := (rfl)
@[simp] theorem Dev.setSdm_pairs (d : Dev) (n j : Nat) (x : SdmH) : (d.setSdm n j x).pairs = d.pairs := (rfl)
@[simp] theorem Dev.setSdm_lines (d : Dev) (n j : Nat) (x : SdmH) : (d.setSdm n j x).lines = d.lines := (rfl)
@[simp] theorem Dev.setSdm_chans (d : Dev) (n j : Nat) (x : SdmH) : (d.setSdm n j x).chans = d.chans := (rfl)
@[simp] theorem Dev.setSdm_sets (d : Dev) (n j : Nat) (x : SdmH) : (d.setSdm n j x).sets = d.sets := (rfl)
@[simp] theorem Dev.setSdm_sdclks (d : Dev) (n j : Nat) (x : SdmH) : (d.setSdm n j x).sdclks = d.sdclks := (rfl)
@[simp] theorem Dev.setSdm_rods (d : Dev) (n j : Nat) (x : SdmH) : (d.setSdm n j x).rods = d.rods := (rfl)
@[simp] theorem Dev.setSdm_frames (d : Dev) (n j : Nat) (x : SdmH) : (d.setSdm n j x).frames = d.frames := (rfl)
@[simp] theorem Dev.setSdm_presets (d : Dev) (n j : Nat) (x : SdmH) : (d.setSdm n j x).presets = d.presets := (rfl)
@[simp] theorem Dev.setSdm_traces (d : Dev) (n j : Nat) (x : SdmH) : (d.setSdm n j x).traces = d.traces := (rfl)
@[simp] theorem Dev.setSdm_fbks (d : Dev) (n j : Nat) (x : SdmH) : (d.setSdm n j x).fbks = d.fbks := (rfl)
@[simp] theorem Dev.setSdm_beads (d : Dev) (n j : Nat) (x : SdmH) : (d.setSdm n j x).beads = d.beads := (rfl)
@[simp] theorem Dev.setSdm_clasps (d : Dev) (n j : Nat) (x : SdmH) : (d.setSdm n j x).clasps = d.clasps := (rfl)
@[simp] theorem Dev.setSdm_cores (d : Dev) (n j : Nat) (x : SdmH) : (d.setSdm n j x).cores = d.cores := (rfl)
@[simp] theorem Dev.setSdm_icache (d : Dev) (n j : Nat) (x : SdmH) : (d.setSdm n j x).icache = d.icache := (rfl)
@[simp] theorem Dev.setSdm_dcache (d : Dev) (n j : Nat) (x : SdmH) : (d.setSdm n j x).dcache = d.dcache := (rfl)
@[simp] theorem Dev.setSdm_dma (d : Dev) (n j : Nat) (x : SdmH) : (d.setSdm n j x).dma = d.dma := (rfl)
@[simp] theorem Dev.setSdm_dmaBusy (d : Dev) (n j : Nat) (x : SdmH) : (d.setSdm n j x).dmaBusy = d.dmaBusy := (rfl)
@[simp] theorem Dev.setSdm_credits (d : Dev) (n j : Nat) (x : SdmH) : (d.setSdm n j x).credits = d.credits := (rfl)
@[simp] theorem Dev.setSdm_losses (d : Dev) (n j : Nat) (x : SdmH) : (d.setSdm n j x).losses = d.losses := (rfl)
@[simp] theorem Dev.setSdm_backoff (d : Dev) (n j : Nat) (x : SdmH) : (d.setSdm n j x).backoff = d.backoff := (rfl)
@[simp] theorem Dev.setSdm_ledger (d : Dev) (n j : Nat) (x : SdmH) : (d.setSdm n j x).ledger = d.ledger := (rfl)
@[simp] theorem Dev.setSdm_chozer (d : Dev) (n j : Nat) (x : SdmH) : (d.setSdm n j x).chozer = d.chozer := (rfl)
@[simp] theorem Dev.setSdm_net (d : Dev) (n j : Nat) (x : SdmH) : (d.setSdm n j x).net = d.net := (rfl)
@[simp] theorem Dev.setSdm_can (d : Dev) (n j : Nat) (x : SdmH) : (d.setSdm n j x).can = d.can := (rfl)
@[simp] theorem Dev.setSdm_power (d : Dev) (n j : Nat) (x : SdmH) : (d.setSdm n j x).power = d.power := (rfl)
@[simp] theorem Dev.setSdm_diag (d : Dev) (n j : Nat) (x : SdmH) : (d.setSdm n j x).diag = d.diag := (rfl)
@[simp] theorem Dev.setSdm_scrubAt (d : Dev) (n j : Nat) (x : SdmH) : (d.setSdm n j x).scrubAt = d.scrubAt := (rfl)
@[simp] theorem Dev.setSdclk_part (d : Dev) (n k : Nat) (x : SdClkH) : (d.setSdclk n k x).part = d.part := (rfl)
@[simp] theorem Dev.setSdclk_beam (d : Dev) (n k : Nat) (x : SdClkH) : (d.setSdclk n k x).beam = d.beam := (rfl)
@[simp] theorem Dev.setSdclk_stage (d : Dev) (n k : Nat) (x : SdClkH) : (d.setSdclk n k x).stage = d.stage := (rfl)
@[simp] theorem Dev.setSdclk_free (d : Dev) (n k : Nat) (x : SdClkH) : (d.setSdclk n k x).free = d.free := (rfl)
@[simp] theorem Dev.setSdclk_regs (d : Dev) (n k : Nat) (x : SdClkH) : (d.setSdclk n k x).regs = d.regs := (rfl)
@[simp] theorem Dev.setSdclk_mem (d : Dev) (n k : Nat) (x : SdClkH) : (d.setSdclk n k x).mem = d.mem := (rfl)
@[simp] theorem Dev.setSdclk_fresh (d : Dev) (n k : Nat) (x : SdClkH) : (d.setSdclk n k x).fresh = d.fresh := (rfl)
@[simp] theorem Dev.setSdclk_shadow (d : Dev) (n k : Nat) (x : SdClkH) : (d.setSdclk n k x).shadow = d.shadow := (rfl)
@[simp] theorem Dev.setSdclk_agenda (d : Dev) (n k : Nat) (x : SdClkH) : (d.setSdclk n k x).agenda = d.agenda := (rfl)
@[simp] theorem Dev.setSdclk_bus (d : Dev) (n k : Nat) (x : SdClkH) : (d.setSdclk n k x).bus = d.bus := (rfl)
@[simp] theorem Dev.setSdclk_latch (d : Dev) (n k : Nat) (x : SdClkH) : (d.setSdclk n k x).latch = d.latch := (rfl)
@[simp] theorem Dev.setSdclk_bits (d : Dev) (n k : Nat) (x : SdClkH) : (d.setSdclk n k x).bits = d.bits := (rfl)
@[simp] theorem Dev.setSdclk_grants (d : Dev) (n k : Nat) (x : SdClkH) : (d.setSdclk n k x).grants = d.grants := (rfl)
@[simp] theorem Dev.setSdclk_raised (d : Dev) (n k : Nat) (x : SdClkH) : (d.setSdclk n k x).raised = d.raised := (rfl)
@[simp] theorem Dev.setSdclk_routeWas (d : Dev) (n k : Nat) (x : SdClkH) : (d.setSdclk n k x).routeWas = d.routeWas := (rfl)
@[simp] theorem Dev.setSdclk_rings (d : Dev) (n k : Nat) (x : SdClkH) : (d.setSdclk n k x).rings = d.rings := (rfl)
@[simp] theorem Dev.setSdclk_transit (d : Dev) (n k : Nat) (x : SdClkH) : (d.setSdclk n k x).transit = d.transit := (rfl)
@[simp] theorem Dev.setSdclk_chLast (d : Dev) (n k : Nat) (x : SdClkH) : (d.setSdclk n k x).chLast = d.chLast := (rfl)
@[simp] theorem Dev.setSdclk_pend (d : Dev) (n k : Nat) (x : SdClkH) : (d.setSdclk n k x).pend = d.pend := (rfl)
@[simp] theorem Dev.setSdclk_inLast (d : Dev) (n k : Nat) (x : SdClkH) : (d.setSdclk n k x).inLast = d.inLast := (rfl)
@[simp] theorem Dev.setSdclk_gateHist (d : Dev) (n k : Nat) (x : SdClkH) : (d.setSdclk n k x).gateHist = d.gateHist := (rfl)
@[simp] theorem Dev.setSdclk_cells (d : Dev) (n k : Nat) (x : SdClkH) : (d.setSdclk n k x).cells = d.cells := (rfl)
@[simp] theorem Dev.setSdclk_timers (d : Dev) (n k : Nat) (x : SdClkH) : (d.setSdclk n k x).timers = d.timers := (rfl)
@[simp] theorem Dev.setSdclk_go (d : Dev) (n k : Nat) (x : SdClkH) : (d.setSdclk n k x).go = d.go := (rfl)
@[simp] theorem Dev.setSdclk_pairs (d : Dev) (n k : Nat) (x : SdClkH) : (d.setSdclk n k x).pairs = d.pairs := (rfl)
@[simp] theorem Dev.setSdclk_lines (d : Dev) (n k : Nat) (x : SdClkH) : (d.setSdclk n k x).lines = d.lines := (rfl)
@[simp] theorem Dev.setSdclk_chans (d : Dev) (n k : Nat) (x : SdClkH) : (d.setSdclk n k x).chans = d.chans := (rfl)
@[simp] theorem Dev.setSdclk_sets (d : Dev) (n k : Nat) (x : SdClkH) : (d.setSdclk n k x).sets = d.sets := (rfl)
@[simp] theorem Dev.setSdclk_sdms (d : Dev) (n k : Nat) (x : SdClkH) : (d.setSdclk n k x).sdms = d.sdms := (rfl)
@[simp] theorem Dev.setSdclk_rods (d : Dev) (n k : Nat) (x : SdClkH) : (d.setSdclk n k x).rods = d.rods := (rfl)
@[simp] theorem Dev.setSdclk_frames (d : Dev) (n k : Nat) (x : SdClkH) : (d.setSdclk n k x).frames = d.frames := (rfl)
@[simp] theorem Dev.setSdclk_presets (d : Dev) (n k : Nat) (x : SdClkH) : (d.setSdclk n k x).presets = d.presets := (rfl)
@[simp] theorem Dev.setSdclk_traces (d : Dev) (n k : Nat) (x : SdClkH) : (d.setSdclk n k x).traces = d.traces := (rfl)
@[simp] theorem Dev.setSdclk_fbks (d : Dev) (n k : Nat) (x : SdClkH) : (d.setSdclk n k x).fbks = d.fbks := (rfl)
@[simp] theorem Dev.setSdclk_beads (d : Dev) (n k : Nat) (x : SdClkH) : (d.setSdclk n k x).beads = d.beads := (rfl)
@[simp] theorem Dev.setSdclk_clasps (d : Dev) (n k : Nat) (x : SdClkH) : (d.setSdclk n k x).clasps = d.clasps := (rfl)
@[simp] theorem Dev.setSdclk_cores (d : Dev) (n k : Nat) (x : SdClkH) : (d.setSdclk n k x).cores = d.cores := (rfl)
@[simp] theorem Dev.setSdclk_icache (d : Dev) (n k : Nat) (x : SdClkH) : (d.setSdclk n k x).icache = d.icache := (rfl)
@[simp] theorem Dev.setSdclk_dcache (d : Dev) (n k : Nat) (x : SdClkH) : (d.setSdclk n k x).dcache = d.dcache := (rfl)
@[simp] theorem Dev.setSdclk_dma (d : Dev) (n k : Nat) (x : SdClkH) : (d.setSdclk n k x).dma = d.dma := (rfl)
@[simp] theorem Dev.setSdclk_dmaBusy (d : Dev) (n k : Nat) (x : SdClkH) : (d.setSdclk n k x).dmaBusy = d.dmaBusy := (rfl)
@[simp] theorem Dev.setSdclk_credits (d : Dev) (n k : Nat) (x : SdClkH) : (d.setSdclk n k x).credits = d.credits := (rfl)
@[simp] theorem Dev.setSdclk_losses (d : Dev) (n k : Nat) (x : SdClkH) : (d.setSdclk n k x).losses = d.losses := (rfl)
@[simp] theorem Dev.setSdclk_backoff (d : Dev) (n k : Nat) (x : SdClkH) : (d.setSdclk n k x).backoff = d.backoff := (rfl)
@[simp] theorem Dev.setSdclk_ledger (d : Dev) (n k : Nat) (x : SdClkH) : (d.setSdclk n k x).ledger = d.ledger := (rfl)
@[simp] theorem Dev.setSdclk_chozer (d : Dev) (n k : Nat) (x : SdClkH) : (d.setSdclk n k x).chozer = d.chozer := (rfl)
@[simp] theorem Dev.setSdclk_net (d : Dev) (n k : Nat) (x : SdClkH) : (d.setSdclk n k x).net = d.net := (rfl)
@[simp] theorem Dev.setSdclk_can (d : Dev) (n k : Nat) (x : SdClkH) : (d.setSdclk n k x).can = d.can := (rfl)
@[simp] theorem Dev.setSdclk_power (d : Dev) (n k : Nat) (x : SdClkH) : (d.setSdclk n k x).power = d.power := (rfl)
@[simp] theorem Dev.setSdclk_diag (d : Dev) (n k : Nat) (x : SdClkH) : (d.setSdclk n k x).diag = d.diag := (rfl)
@[simp] theorem Dev.setSdclk_scrubAt (d : Dev) (n k : Nat) (x : SdClkH) : (d.setSdclk n k x).scrubAt = d.scrubAt := (rfl)
@[simp] theorem Dev.setRod_part (d : Dev) (r : Nat) (x : RodH) : (d.setRod r x).part = d.part := (rfl)
@[simp] theorem Dev.setRod_beam (d : Dev) (r : Nat) (x : RodH) : (d.setRod r x).beam = d.beam := (rfl)
@[simp] theorem Dev.setRod_stage (d : Dev) (r : Nat) (x : RodH) : (d.setRod r x).stage = d.stage := (rfl)
@[simp] theorem Dev.setRod_free (d : Dev) (r : Nat) (x : RodH) : (d.setRod r x).free = d.free := (rfl)
@[simp] theorem Dev.setRod_regs (d : Dev) (r : Nat) (x : RodH) : (d.setRod r x).regs = d.regs := (rfl)
@[simp] theorem Dev.setRod_mem (d : Dev) (r : Nat) (x : RodH) : (d.setRod r x).mem = d.mem := (rfl)
@[simp] theorem Dev.setRod_fresh (d : Dev) (r : Nat) (x : RodH) : (d.setRod r x).fresh = d.fresh := (rfl)
@[simp] theorem Dev.setRod_shadow (d : Dev) (r : Nat) (x : RodH) : (d.setRod r x).shadow = d.shadow := (rfl)
@[simp] theorem Dev.setRod_agenda (d : Dev) (r : Nat) (x : RodH) : (d.setRod r x).agenda = d.agenda := (rfl)
@[simp] theorem Dev.setRod_bus (d : Dev) (r : Nat) (x : RodH) : (d.setRod r x).bus = d.bus := (rfl)
@[simp] theorem Dev.setRod_latch (d : Dev) (r : Nat) (x : RodH) : (d.setRod r x).latch = d.latch := (rfl)
@[simp] theorem Dev.setRod_bits (d : Dev) (r : Nat) (x : RodH) : (d.setRod r x).bits = d.bits := (rfl)
@[simp] theorem Dev.setRod_grants (d : Dev) (r : Nat) (x : RodH) : (d.setRod r x).grants = d.grants := (rfl)
@[simp] theorem Dev.setRod_raised (d : Dev) (r : Nat) (x : RodH) : (d.setRod r x).raised = d.raised := (rfl)
@[simp] theorem Dev.setRod_routeWas (d : Dev) (r : Nat) (x : RodH) : (d.setRod r x).routeWas = d.routeWas := (rfl)
@[simp] theorem Dev.setRod_rings (d : Dev) (r : Nat) (x : RodH) : (d.setRod r x).rings = d.rings := (rfl)
@[simp] theorem Dev.setRod_transit (d : Dev) (r : Nat) (x : RodH) : (d.setRod r x).transit = d.transit := (rfl)
@[simp] theorem Dev.setRod_chLast (d : Dev) (r : Nat) (x : RodH) : (d.setRod r x).chLast = d.chLast := (rfl)
@[simp] theorem Dev.setRod_pend (d : Dev) (r : Nat) (x : RodH) : (d.setRod r x).pend = d.pend := (rfl)
@[simp] theorem Dev.setRod_inLast (d : Dev) (r : Nat) (x : RodH) : (d.setRod r x).inLast = d.inLast := (rfl)
@[simp] theorem Dev.setRod_gateHist (d : Dev) (r : Nat) (x : RodH) : (d.setRod r x).gateHist = d.gateHist := (rfl)
@[simp] theorem Dev.setRod_cells (d : Dev) (r : Nat) (x : RodH) : (d.setRod r x).cells = d.cells := (rfl)
@[simp] theorem Dev.setRod_timers (d : Dev) (r : Nat) (x : RodH) : (d.setRod r x).timers = d.timers := (rfl)
@[simp] theorem Dev.setRod_go (d : Dev) (r : Nat) (x : RodH) : (d.setRod r x).go = d.go := (rfl)
@[simp] theorem Dev.setRod_pairs (d : Dev) (r : Nat) (x : RodH) : (d.setRod r x).pairs = d.pairs := (rfl)
@[simp] theorem Dev.setRod_lines (d : Dev) (r : Nat) (x : RodH) : (d.setRod r x).lines = d.lines := (rfl)
@[simp] theorem Dev.setRod_chans (d : Dev) (r : Nat) (x : RodH) : (d.setRod r x).chans = d.chans := (rfl)
@[simp] theorem Dev.setRod_sets (d : Dev) (r : Nat) (x : RodH) : (d.setRod r x).sets = d.sets := (rfl)
@[simp] theorem Dev.setRod_sdms (d : Dev) (r : Nat) (x : RodH) : (d.setRod r x).sdms = d.sdms := (rfl)
@[simp] theorem Dev.setRod_sdclks (d : Dev) (r : Nat) (x : RodH) : (d.setRod r x).sdclks = d.sdclks := (rfl)
@[simp] theorem Dev.setRod_frames (d : Dev) (r : Nat) (x : RodH) : (d.setRod r x).frames = d.frames := (rfl)
@[simp] theorem Dev.setRod_presets (d : Dev) (r : Nat) (x : RodH) : (d.setRod r x).presets = d.presets := (rfl)
@[simp] theorem Dev.setRod_traces (d : Dev) (r : Nat) (x : RodH) : (d.setRod r x).traces = d.traces := (rfl)
@[simp] theorem Dev.setRod_fbks (d : Dev) (r : Nat) (x : RodH) : (d.setRod r x).fbks = d.fbks := (rfl)
@[simp] theorem Dev.setRod_beads (d : Dev) (r : Nat) (x : RodH) : (d.setRod r x).beads = d.beads := (rfl)
@[simp] theorem Dev.setRod_clasps (d : Dev) (r : Nat) (x : RodH) : (d.setRod r x).clasps = d.clasps := (rfl)
@[simp] theorem Dev.setRod_cores (d : Dev) (r : Nat) (x : RodH) : (d.setRod r x).cores = d.cores := (rfl)
@[simp] theorem Dev.setRod_icache (d : Dev) (r : Nat) (x : RodH) : (d.setRod r x).icache = d.icache := (rfl)
@[simp] theorem Dev.setRod_dcache (d : Dev) (r : Nat) (x : RodH) : (d.setRod r x).dcache = d.dcache := (rfl)
@[simp] theorem Dev.setRod_dma (d : Dev) (r : Nat) (x : RodH) : (d.setRod r x).dma = d.dma := (rfl)
@[simp] theorem Dev.setRod_dmaBusy (d : Dev) (r : Nat) (x : RodH) : (d.setRod r x).dmaBusy = d.dmaBusy := (rfl)
@[simp] theorem Dev.setRod_credits (d : Dev) (r : Nat) (x : RodH) : (d.setRod r x).credits = d.credits := (rfl)
@[simp] theorem Dev.setRod_losses (d : Dev) (r : Nat) (x : RodH) : (d.setRod r x).losses = d.losses := (rfl)
@[simp] theorem Dev.setRod_backoff (d : Dev) (r : Nat) (x : RodH) : (d.setRod r x).backoff = d.backoff := (rfl)
@[simp] theorem Dev.setRod_ledger (d : Dev) (r : Nat) (x : RodH) : (d.setRod r x).ledger = d.ledger := (rfl)
@[simp] theorem Dev.setRod_chozer (d : Dev) (r : Nat) (x : RodH) : (d.setRod r x).chozer = d.chozer := (rfl)
@[simp] theorem Dev.setRod_net (d : Dev) (r : Nat) (x : RodH) : (d.setRod r x).net = d.net := (rfl)
@[simp] theorem Dev.setRod_can (d : Dev) (r : Nat) (x : RodH) : (d.setRod r x).can = d.can := (rfl)
@[simp] theorem Dev.setRod_power (d : Dev) (r : Nat) (x : RodH) : (d.setRod r x).power = d.power := (rfl)
@[simp] theorem Dev.setRod_diag (d : Dev) (r : Nat) (x : RodH) : (d.setRod r x).diag = d.diag := (rfl)
@[simp] theorem Dev.setRod_scrubAt (d : Dev) (r : Nat) (x : RodH) : (d.setRod r x).scrubAt = d.scrubAt := (rfl)
@[simp] theorem Dev.setFrame_part (d : Dev) (n : Nat) (x : FrameH) : (d.setFrame n x).part = d.part := (rfl)
@[simp] theorem Dev.setFrame_beam (d : Dev) (n : Nat) (x : FrameH) : (d.setFrame n x).beam = d.beam := (rfl)
@[simp] theorem Dev.setFrame_stage (d : Dev) (n : Nat) (x : FrameH) : (d.setFrame n x).stage = d.stage := (rfl)
@[simp] theorem Dev.setFrame_free (d : Dev) (n : Nat) (x : FrameH) : (d.setFrame n x).free = d.free := (rfl)
@[simp] theorem Dev.setFrame_regs (d : Dev) (n : Nat) (x : FrameH) : (d.setFrame n x).regs = d.regs := (rfl)
@[simp] theorem Dev.setFrame_mem (d : Dev) (n : Nat) (x : FrameH) : (d.setFrame n x).mem = d.mem := (rfl)
@[simp] theorem Dev.setFrame_fresh (d : Dev) (n : Nat) (x : FrameH) : (d.setFrame n x).fresh = d.fresh := (rfl)
@[simp] theorem Dev.setFrame_shadow (d : Dev) (n : Nat) (x : FrameH) : (d.setFrame n x).shadow = d.shadow := (rfl)
@[simp] theorem Dev.setFrame_agenda (d : Dev) (n : Nat) (x : FrameH) : (d.setFrame n x).agenda = d.agenda := (rfl)
@[simp] theorem Dev.setFrame_bus (d : Dev) (n : Nat) (x : FrameH) : (d.setFrame n x).bus = d.bus := (rfl)
@[simp] theorem Dev.setFrame_latch (d : Dev) (n : Nat) (x : FrameH) : (d.setFrame n x).latch = d.latch := (rfl)
@[simp] theorem Dev.setFrame_bits (d : Dev) (n : Nat) (x : FrameH) : (d.setFrame n x).bits = d.bits := (rfl)
@[simp] theorem Dev.setFrame_grants (d : Dev) (n : Nat) (x : FrameH) : (d.setFrame n x).grants = d.grants := (rfl)
@[simp] theorem Dev.setFrame_raised (d : Dev) (n : Nat) (x : FrameH) : (d.setFrame n x).raised = d.raised := (rfl)
@[simp] theorem Dev.setFrame_routeWas (d : Dev) (n : Nat) (x : FrameH) : (d.setFrame n x).routeWas = d.routeWas := (rfl)
@[simp] theorem Dev.setFrame_rings (d : Dev) (n : Nat) (x : FrameH) : (d.setFrame n x).rings = d.rings := (rfl)
@[simp] theorem Dev.setFrame_transit (d : Dev) (n : Nat) (x : FrameH) : (d.setFrame n x).transit = d.transit := (rfl)
@[simp] theorem Dev.setFrame_chLast (d : Dev) (n : Nat) (x : FrameH) : (d.setFrame n x).chLast = d.chLast := (rfl)
@[simp] theorem Dev.setFrame_pend (d : Dev) (n : Nat) (x : FrameH) : (d.setFrame n x).pend = d.pend := (rfl)
@[simp] theorem Dev.setFrame_inLast (d : Dev) (n : Nat) (x : FrameH) : (d.setFrame n x).inLast = d.inLast := (rfl)
@[simp] theorem Dev.setFrame_gateHist (d : Dev) (n : Nat) (x : FrameH) : (d.setFrame n x).gateHist = d.gateHist := (rfl)
@[simp] theorem Dev.setFrame_cells (d : Dev) (n : Nat) (x : FrameH) : (d.setFrame n x).cells = d.cells := (rfl)
@[simp] theorem Dev.setFrame_timers (d : Dev) (n : Nat) (x : FrameH) : (d.setFrame n x).timers = d.timers := (rfl)
@[simp] theorem Dev.setFrame_go (d : Dev) (n : Nat) (x : FrameH) : (d.setFrame n x).go = d.go := (rfl)
@[simp] theorem Dev.setFrame_pairs (d : Dev) (n : Nat) (x : FrameH) : (d.setFrame n x).pairs = d.pairs := (rfl)
@[simp] theorem Dev.setFrame_lines (d : Dev) (n : Nat) (x : FrameH) : (d.setFrame n x).lines = d.lines := (rfl)
@[simp] theorem Dev.setFrame_chans (d : Dev) (n : Nat) (x : FrameH) : (d.setFrame n x).chans = d.chans := (rfl)
@[simp] theorem Dev.setFrame_sets (d : Dev) (n : Nat) (x : FrameH) : (d.setFrame n x).sets = d.sets := (rfl)
@[simp] theorem Dev.setFrame_sdms (d : Dev) (n : Nat) (x : FrameH) : (d.setFrame n x).sdms = d.sdms := (rfl)
@[simp] theorem Dev.setFrame_sdclks (d : Dev) (n : Nat) (x : FrameH) : (d.setFrame n x).sdclks = d.sdclks := (rfl)
@[simp] theorem Dev.setFrame_rods (d : Dev) (n : Nat) (x : FrameH) : (d.setFrame n x).rods = d.rods := (rfl)
@[simp] theorem Dev.setFrame_presets (d : Dev) (n : Nat) (x : FrameH) : (d.setFrame n x).presets = d.presets := (rfl)
@[simp] theorem Dev.setFrame_traces (d : Dev) (n : Nat) (x : FrameH) : (d.setFrame n x).traces = d.traces := (rfl)
@[simp] theorem Dev.setFrame_fbks (d : Dev) (n : Nat) (x : FrameH) : (d.setFrame n x).fbks = d.fbks := (rfl)
@[simp] theorem Dev.setFrame_beads (d : Dev) (n : Nat) (x : FrameH) : (d.setFrame n x).beads = d.beads := (rfl)
@[simp] theorem Dev.setFrame_clasps (d : Dev) (n : Nat) (x : FrameH) : (d.setFrame n x).clasps = d.clasps := (rfl)
@[simp] theorem Dev.setFrame_cores (d : Dev) (n : Nat) (x : FrameH) : (d.setFrame n x).cores = d.cores := (rfl)
@[simp] theorem Dev.setFrame_icache (d : Dev) (n : Nat) (x : FrameH) : (d.setFrame n x).icache = d.icache := (rfl)
@[simp] theorem Dev.setFrame_dcache (d : Dev) (n : Nat) (x : FrameH) : (d.setFrame n x).dcache = d.dcache := (rfl)
@[simp] theorem Dev.setFrame_dma (d : Dev) (n : Nat) (x : FrameH) : (d.setFrame n x).dma = d.dma := (rfl)
@[simp] theorem Dev.setFrame_dmaBusy (d : Dev) (n : Nat) (x : FrameH) : (d.setFrame n x).dmaBusy = d.dmaBusy := (rfl)
@[simp] theorem Dev.setFrame_credits (d : Dev) (n : Nat) (x : FrameH) : (d.setFrame n x).credits = d.credits := (rfl)
@[simp] theorem Dev.setFrame_losses (d : Dev) (n : Nat) (x : FrameH) : (d.setFrame n x).losses = d.losses := (rfl)
@[simp] theorem Dev.setFrame_backoff (d : Dev) (n : Nat) (x : FrameH) : (d.setFrame n x).backoff = d.backoff := (rfl)
@[simp] theorem Dev.setFrame_ledger (d : Dev) (n : Nat) (x : FrameH) : (d.setFrame n x).ledger = d.ledger := (rfl)
@[simp] theorem Dev.setFrame_chozer (d : Dev) (n : Nat) (x : FrameH) : (d.setFrame n x).chozer = d.chozer := (rfl)
@[simp] theorem Dev.setFrame_net (d : Dev) (n : Nat) (x : FrameH) : (d.setFrame n x).net = d.net := (rfl)
@[simp] theorem Dev.setFrame_can (d : Dev) (n : Nat) (x : FrameH) : (d.setFrame n x).can = d.can := (rfl)
@[simp] theorem Dev.setFrame_power (d : Dev) (n : Nat) (x : FrameH) : (d.setFrame n x).power = d.power := (rfl)
@[simp] theorem Dev.setFrame_diag (d : Dev) (n : Nat) (x : FrameH) : (d.setFrame n x).diag = d.diag := (rfl)
@[simp] theorem Dev.setFrame_scrubAt (d : Dev) (n : Nat) (x : FrameH) : (d.setFrame n x).scrubAt = d.scrubAt := (rfl)
@[simp] theorem Dev.setTrace_part (d : Dev) (n : Nat) (x : TraceH) : (d.setTrace n x).part = d.part := (rfl)
@[simp] theorem Dev.setTrace_beam (d : Dev) (n : Nat) (x : TraceH) : (d.setTrace n x).beam = d.beam := (rfl)
@[simp] theorem Dev.setTrace_stage (d : Dev) (n : Nat) (x : TraceH) : (d.setTrace n x).stage = d.stage := (rfl)
@[simp] theorem Dev.setTrace_free (d : Dev) (n : Nat) (x : TraceH) : (d.setTrace n x).free = d.free := (rfl)
@[simp] theorem Dev.setTrace_regs (d : Dev) (n : Nat) (x : TraceH) : (d.setTrace n x).regs = d.regs := (rfl)
@[simp] theorem Dev.setTrace_mem (d : Dev) (n : Nat) (x : TraceH) : (d.setTrace n x).mem = d.mem := (rfl)
@[simp] theorem Dev.setTrace_fresh (d : Dev) (n : Nat) (x : TraceH) : (d.setTrace n x).fresh = d.fresh := (rfl)
@[simp] theorem Dev.setTrace_shadow (d : Dev) (n : Nat) (x : TraceH) : (d.setTrace n x).shadow = d.shadow := (rfl)
@[simp] theorem Dev.setTrace_agenda (d : Dev) (n : Nat) (x : TraceH) : (d.setTrace n x).agenda = d.agenda := (rfl)
@[simp] theorem Dev.setTrace_bus (d : Dev) (n : Nat) (x : TraceH) : (d.setTrace n x).bus = d.bus := (rfl)
@[simp] theorem Dev.setTrace_latch (d : Dev) (n : Nat) (x : TraceH) : (d.setTrace n x).latch = d.latch := (rfl)
@[simp] theorem Dev.setTrace_bits (d : Dev) (n : Nat) (x : TraceH) : (d.setTrace n x).bits = d.bits := (rfl)
@[simp] theorem Dev.setTrace_grants (d : Dev) (n : Nat) (x : TraceH) : (d.setTrace n x).grants = d.grants := (rfl)
@[simp] theorem Dev.setTrace_raised (d : Dev) (n : Nat) (x : TraceH) : (d.setTrace n x).raised = d.raised := (rfl)
@[simp] theorem Dev.setTrace_routeWas (d : Dev) (n : Nat) (x : TraceH) : (d.setTrace n x).routeWas = d.routeWas := (rfl)
@[simp] theorem Dev.setTrace_rings (d : Dev) (n : Nat) (x : TraceH) : (d.setTrace n x).rings = d.rings := (rfl)
@[simp] theorem Dev.setTrace_transit (d : Dev) (n : Nat) (x : TraceH) : (d.setTrace n x).transit = d.transit := (rfl)
@[simp] theorem Dev.setTrace_chLast (d : Dev) (n : Nat) (x : TraceH) : (d.setTrace n x).chLast = d.chLast := (rfl)
@[simp] theorem Dev.setTrace_pend (d : Dev) (n : Nat) (x : TraceH) : (d.setTrace n x).pend = d.pend := (rfl)
@[simp] theorem Dev.setTrace_inLast (d : Dev) (n : Nat) (x : TraceH) : (d.setTrace n x).inLast = d.inLast := (rfl)
@[simp] theorem Dev.setTrace_gateHist (d : Dev) (n : Nat) (x : TraceH) : (d.setTrace n x).gateHist = d.gateHist := (rfl)
@[simp] theorem Dev.setTrace_cells (d : Dev) (n : Nat) (x : TraceH) : (d.setTrace n x).cells = d.cells := (rfl)
@[simp] theorem Dev.setTrace_timers (d : Dev) (n : Nat) (x : TraceH) : (d.setTrace n x).timers = d.timers := (rfl)
@[simp] theorem Dev.setTrace_go (d : Dev) (n : Nat) (x : TraceH) : (d.setTrace n x).go = d.go := (rfl)
@[simp] theorem Dev.setTrace_pairs (d : Dev) (n : Nat) (x : TraceH) : (d.setTrace n x).pairs = d.pairs := (rfl)
@[simp] theorem Dev.setTrace_lines (d : Dev) (n : Nat) (x : TraceH) : (d.setTrace n x).lines = d.lines := (rfl)
@[simp] theorem Dev.setTrace_chans (d : Dev) (n : Nat) (x : TraceH) : (d.setTrace n x).chans = d.chans := (rfl)
@[simp] theorem Dev.setTrace_sets (d : Dev) (n : Nat) (x : TraceH) : (d.setTrace n x).sets = d.sets := (rfl)
@[simp] theorem Dev.setTrace_sdms (d : Dev) (n : Nat) (x : TraceH) : (d.setTrace n x).sdms = d.sdms := (rfl)
@[simp] theorem Dev.setTrace_sdclks (d : Dev) (n : Nat) (x : TraceH) : (d.setTrace n x).sdclks = d.sdclks := (rfl)
@[simp] theorem Dev.setTrace_rods (d : Dev) (n : Nat) (x : TraceH) : (d.setTrace n x).rods = d.rods := (rfl)
@[simp] theorem Dev.setTrace_frames (d : Dev) (n : Nat) (x : TraceH) : (d.setTrace n x).frames = d.frames := (rfl)
@[simp] theorem Dev.setTrace_presets (d : Dev) (n : Nat) (x : TraceH) : (d.setTrace n x).presets = d.presets := (rfl)
@[simp] theorem Dev.setTrace_fbks (d : Dev) (n : Nat) (x : TraceH) : (d.setTrace n x).fbks = d.fbks := (rfl)
@[simp] theorem Dev.setTrace_beads (d : Dev) (n : Nat) (x : TraceH) : (d.setTrace n x).beads = d.beads := (rfl)
@[simp] theorem Dev.setTrace_clasps (d : Dev) (n : Nat) (x : TraceH) : (d.setTrace n x).clasps = d.clasps := (rfl)
@[simp] theorem Dev.setTrace_cores (d : Dev) (n : Nat) (x : TraceH) : (d.setTrace n x).cores = d.cores := (rfl)
@[simp] theorem Dev.setTrace_icache (d : Dev) (n : Nat) (x : TraceH) : (d.setTrace n x).icache = d.icache := (rfl)
@[simp] theorem Dev.setTrace_dcache (d : Dev) (n : Nat) (x : TraceH) : (d.setTrace n x).dcache = d.dcache := (rfl)
@[simp] theorem Dev.setTrace_dma (d : Dev) (n : Nat) (x : TraceH) : (d.setTrace n x).dma = d.dma := (rfl)
@[simp] theorem Dev.setTrace_dmaBusy (d : Dev) (n : Nat) (x : TraceH) : (d.setTrace n x).dmaBusy = d.dmaBusy := (rfl)
@[simp] theorem Dev.setTrace_credits (d : Dev) (n : Nat) (x : TraceH) : (d.setTrace n x).credits = d.credits := (rfl)
@[simp] theorem Dev.setTrace_losses (d : Dev) (n : Nat) (x : TraceH) : (d.setTrace n x).losses = d.losses := (rfl)
@[simp] theorem Dev.setTrace_backoff (d : Dev) (n : Nat) (x : TraceH) : (d.setTrace n x).backoff = d.backoff := (rfl)
@[simp] theorem Dev.setTrace_ledger (d : Dev) (n : Nat) (x : TraceH) : (d.setTrace n x).ledger = d.ledger := (rfl)
@[simp] theorem Dev.setTrace_chozer (d : Dev) (n : Nat) (x : TraceH) : (d.setTrace n x).chozer = d.chozer := (rfl)
@[simp] theorem Dev.setTrace_net (d : Dev) (n : Nat) (x : TraceH) : (d.setTrace n x).net = d.net := (rfl)
@[simp] theorem Dev.setTrace_can (d : Dev) (n : Nat) (x : TraceH) : (d.setTrace n x).can = d.can := (rfl)
@[simp] theorem Dev.setTrace_power (d : Dev) (n : Nat) (x : TraceH) : (d.setTrace n x).power = d.power := (rfl)
@[simp] theorem Dev.setTrace_diag (d : Dev) (n : Nat) (x : TraceH) : (d.setTrace n x).diag = d.diag := (rfl)
@[simp] theorem Dev.setTrace_scrubAt (d : Dev) (n : Nat) (x : TraceH) : (d.setTrace n x).scrubAt = d.scrubAt := (rfl)
@[simp] theorem Dev.setFbk_part (d : Dev) (n k : Nat) (x : FbkH) : (d.setFbk n k x).part = d.part := (rfl)
@[simp] theorem Dev.setFbk_beam (d : Dev) (n k : Nat) (x : FbkH) : (d.setFbk n k x).beam = d.beam := (rfl)
@[simp] theorem Dev.setFbk_stage (d : Dev) (n k : Nat) (x : FbkH) : (d.setFbk n k x).stage = d.stage := (rfl)
@[simp] theorem Dev.setFbk_free (d : Dev) (n k : Nat) (x : FbkH) : (d.setFbk n k x).free = d.free := (rfl)
@[simp] theorem Dev.setFbk_regs (d : Dev) (n k : Nat) (x : FbkH) : (d.setFbk n k x).regs = d.regs := (rfl)
@[simp] theorem Dev.setFbk_mem (d : Dev) (n k : Nat) (x : FbkH) : (d.setFbk n k x).mem = d.mem := (rfl)
@[simp] theorem Dev.setFbk_fresh (d : Dev) (n k : Nat) (x : FbkH) : (d.setFbk n k x).fresh = d.fresh := (rfl)
@[simp] theorem Dev.setFbk_shadow (d : Dev) (n k : Nat) (x : FbkH) : (d.setFbk n k x).shadow = d.shadow := (rfl)
@[simp] theorem Dev.setFbk_agenda (d : Dev) (n k : Nat) (x : FbkH) : (d.setFbk n k x).agenda = d.agenda := (rfl)
@[simp] theorem Dev.setFbk_bus (d : Dev) (n k : Nat) (x : FbkH) : (d.setFbk n k x).bus = d.bus := (rfl)
@[simp] theorem Dev.setFbk_latch (d : Dev) (n k : Nat) (x : FbkH) : (d.setFbk n k x).latch = d.latch := (rfl)
@[simp] theorem Dev.setFbk_bits (d : Dev) (n k : Nat) (x : FbkH) : (d.setFbk n k x).bits = d.bits := (rfl)
@[simp] theorem Dev.setFbk_grants (d : Dev) (n k : Nat) (x : FbkH) : (d.setFbk n k x).grants = d.grants := (rfl)
@[simp] theorem Dev.setFbk_raised (d : Dev) (n k : Nat) (x : FbkH) : (d.setFbk n k x).raised = d.raised := (rfl)
@[simp] theorem Dev.setFbk_routeWas (d : Dev) (n k : Nat) (x : FbkH) : (d.setFbk n k x).routeWas = d.routeWas := (rfl)
@[simp] theorem Dev.setFbk_rings (d : Dev) (n k : Nat) (x : FbkH) : (d.setFbk n k x).rings = d.rings := (rfl)
@[simp] theorem Dev.setFbk_transit (d : Dev) (n k : Nat) (x : FbkH) : (d.setFbk n k x).transit = d.transit := (rfl)
@[simp] theorem Dev.setFbk_chLast (d : Dev) (n k : Nat) (x : FbkH) : (d.setFbk n k x).chLast = d.chLast := (rfl)
@[simp] theorem Dev.setFbk_pend (d : Dev) (n k : Nat) (x : FbkH) : (d.setFbk n k x).pend = d.pend := (rfl)
@[simp] theorem Dev.setFbk_inLast (d : Dev) (n k : Nat) (x : FbkH) : (d.setFbk n k x).inLast = d.inLast := (rfl)
@[simp] theorem Dev.setFbk_gateHist (d : Dev) (n k : Nat) (x : FbkH) : (d.setFbk n k x).gateHist = d.gateHist := (rfl)
@[simp] theorem Dev.setFbk_cells (d : Dev) (n k : Nat) (x : FbkH) : (d.setFbk n k x).cells = d.cells := (rfl)
@[simp] theorem Dev.setFbk_timers (d : Dev) (n k : Nat) (x : FbkH) : (d.setFbk n k x).timers = d.timers := (rfl)
@[simp] theorem Dev.setFbk_go (d : Dev) (n k : Nat) (x : FbkH) : (d.setFbk n k x).go = d.go := (rfl)
@[simp] theorem Dev.setFbk_pairs (d : Dev) (n k : Nat) (x : FbkH) : (d.setFbk n k x).pairs = d.pairs := (rfl)
@[simp] theorem Dev.setFbk_lines (d : Dev) (n k : Nat) (x : FbkH) : (d.setFbk n k x).lines = d.lines := (rfl)
@[simp] theorem Dev.setFbk_chans (d : Dev) (n k : Nat) (x : FbkH) : (d.setFbk n k x).chans = d.chans := (rfl)
@[simp] theorem Dev.setFbk_sets (d : Dev) (n k : Nat) (x : FbkH) : (d.setFbk n k x).sets = d.sets := (rfl)
@[simp] theorem Dev.setFbk_sdms (d : Dev) (n k : Nat) (x : FbkH) : (d.setFbk n k x).sdms = d.sdms := (rfl)
@[simp] theorem Dev.setFbk_sdclks (d : Dev) (n k : Nat) (x : FbkH) : (d.setFbk n k x).sdclks = d.sdclks := (rfl)
@[simp] theorem Dev.setFbk_rods (d : Dev) (n k : Nat) (x : FbkH) : (d.setFbk n k x).rods = d.rods := (rfl)
@[simp] theorem Dev.setFbk_frames (d : Dev) (n k : Nat) (x : FbkH) : (d.setFbk n k x).frames = d.frames := (rfl)
@[simp] theorem Dev.setFbk_presets (d : Dev) (n k : Nat) (x : FbkH) : (d.setFbk n k x).presets = d.presets := (rfl)
@[simp] theorem Dev.setFbk_traces (d : Dev) (n k : Nat) (x : FbkH) : (d.setFbk n k x).traces = d.traces := (rfl)
@[simp] theorem Dev.setFbk_beads (d : Dev) (n k : Nat) (x : FbkH) : (d.setFbk n k x).beads = d.beads := (rfl)
@[simp] theorem Dev.setFbk_clasps (d : Dev) (n k : Nat) (x : FbkH) : (d.setFbk n k x).clasps = d.clasps := (rfl)
@[simp] theorem Dev.setFbk_cores (d : Dev) (n k : Nat) (x : FbkH) : (d.setFbk n k x).cores = d.cores := (rfl)
@[simp] theorem Dev.setFbk_icache (d : Dev) (n k : Nat) (x : FbkH) : (d.setFbk n k x).icache = d.icache := (rfl)
@[simp] theorem Dev.setFbk_dcache (d : Dev) (n k : Nat) (x : FbkH) : (d.setFbk n k x).dcache = d.dcache := (rfl)
@[simp] theorem Dev.setFbk_dma (d : Dev) (n k : Nat) (x : FbkH) : (d.setFbk n k x).dma = d.dma := (rfl)
@[simp] theorem Dev.setFbk_dmaBusy (d : Dev) (n k : Nat) (x : FbkH) : (d.setFbk n k x).dmaBusy = d.dmaBusy := (rfl)
@[simp] theorem Dev.setFbk_credits (d : Dev) (n k : Nat) (x : FbkH) : (d.setFbk n k x).credits = d.credits := (rfl)
@[simp] theorem Dev.setFbk_losses (d : Dev) (n k : Nat) (x : FbkH) : (d.setFbk n k x).losses = d.losses := (rfl)
@[simp] theorem Dev.setFbk_backoff (d : Dev) (n k : Nat) (x : FbkH) : (d.setFbk n k x).backoff = d.backoff := (rfl)
@[simp] theorem Dev.setFbk_ledger (d : Dev) (n k : Nat) (x : FbkH) : (d.setFbk n k x).ledger = d.ledger := (rfl)
@[simp] theorem Dev.setFbk_chozer (d : Dev) (n k : Nat) (x : FbkH) : (d.setFbk n k x).chozer = d.chozer := (rfl)
@[simp] theorem Dev.setFbk_net (d : Dev) (n k : Nat) (x : FbkH) : (d.setFbk n k x).net = d.net := (rfl)
@[simp] theorem Dev.setFbk_can (d : Dev) (n k : Nat) (x : FbkH) : (d.setFbk n k x).can = d.can := (rfl)
@[simp] theorem Dev.setFbk_power (d : Dev) (n k : Nat) (x : FbkH) : (d.setFbk n k x).power = d.power := (rfl)
@[simp] theorem Dev.setFbk_diag (d : Dev) (n k : Nat) (x : FbkH) : (d.setFbk n k x).diag = d.diag := (rfl)
@[simp] theorem Dev.setFbk_scrubAt (d : Dev) (n k : Nat) (x : FbkH) : (d.setFbk n k x).scrubAt = d.scrubAt := (rfl)
@[simp] theorem Dev.setBead_part (d : Dev) (n e : Nat) (x : BeadH) : (d.setBead n e x).part = d.part := (rfl)
@[simp] theorem Dev.setBead_beam (d : Dev) (n e : Nat) (x : BeadH) : (d.setBead n e x).beam = d.beam := (rfl)
@[simp] theorem Dev.setBead_stage (d : Dev) (n e : Nat) (x : BeadH) : (d.setBead n e x).stage = d.stage := (rfl)
@[simp] theorem Dev.setBead_free (d : Dev) (n e : Nat) (x : BeadH) : (d.setBead n e x).free = d.free := (rfl)
@[simp] theorem Dev.setBead_regs (d : Dev) (n e : Nat) (x : BeadH) : (d.setBead n e x).regs = d.regs := (rfl)
@[simp] theorem Dev.setBead_mem (d : Dev) (n e : Nat) (x : BeadH) : (d.setBead n e x).mem = d.mem := (rfl)
@[simp] theorem Dev.setBead_fresh (d : Dev) (n e : Nat) (x : BeadH) : (d.setBead n e x).fresh = d.fresh := (rfl)
@[simp] theorem Dev.setBead_shadow (d : Dev) (n e : Nat) (x : BeadH) : (d.setBead n e x).shadow = d.shadow := (rfl)
@[simp] theorem Dev.setBead_agenda (d : Dev) (n e : Nat) (x : BeadH) : (d.setBead n e x).agenda = d.agenda := (rfl)
@[simp] theorem Dev.setBead_bus (d : Dev) (n e : Nat) (x : BeadH) : (d.setBead n e x).bus = d.bus := (rfl)
@[simp] theorem Dev.setBead_latch (d : Dev) (n e : Nat) (x : BeadH) : (d.setBead n e x).latch = d.latch := (rfl)
@[simp] theorem Dev.setBead_bits (d : Dev) (n e : Nat) (x : BeadH) : (d.setBead n e x).bits = d.bits := (rfl)
@[simp] theorem Dev.setBead_grants (d : Dev) (n e : Nat) (x : BeadH) : (d.setBead n e x).grants = d.grants := (rfl)
@[simp] theorem Dev.setBead_raised (d : Dev) (n e : Nat) (x : BeadH) : (d.setBead n e x).raised = d.raised := (rfl)
@[simp] theorem Dev.setBead_routeWas (d : Dev) (n e : Nat) (x : BeadH) : (d.setBead n e x).routeWas = d.routeWas := (rfl)
@[simp] theorem Dev.setBead_rings (d : Dev) (n e : Nat) (x : BeadH) : (d.setBead n e x).rings = d.rings := (rfl)
@[simp] theorem Dev.setBead_transit (d : Dev) (n e : Nat) (x : BeadH) : (d.setBead n e x).transit = d.transit := (rfl)
@[simp] theorem Dev.setBead_chLast (d : Dev) (n e : Nat) (x : BeadH) : (d.setBead n e x).chLast = d.chLast := (rfl)
@[simp] theorem Dev.setBead_pend (d : Dev) (n e : Nat) (x : BeadH) : (d.setBead n e x).pend = d.pend := (rfl)
@[simp] theorem Dev.setBead_inLast (d : Dev) (n e : Nat) (x : BeadH) : (d.setBead n e x).inLast = d.inLast := (rfl)
@[simp] theorem Dev.setBead_gateHist (d : Dev) (n e : Nat) (x : BeadH) : (d.setBead n e x).gateHist = d.gateHist := (rfl)
@[simp] theorem Dev.setBead_cells (d : Dev) (n e : Nat) (x : BeadH) : (d.setBead n e x).cells = d.cells := (rfl)
@[simp] theorem Dev.setBead_timers (d : Dev) (n e : Nat) (x : BeadH) : (d.setBead n e x).timers = d.timers := (rfl)
@[simp] theorem Dev.setBead_go (d : Dev) (n e : Nat) (x : BeadH) : (d.setBead n e x).go = d.go := (rfl)
@[simp] theorem Dev.setBead_pairs (d : Dev) (n e : Nat) (x : BeadH) : (d.setBead n e x).pairs = d.pairs := (rfl)
@[simp] theorem Dev.setBead_lines (d : Dev) (n e : Nat) (x : BeadH) : (d.setBead n e x).lines = d.lines := (rfl)
@[simp] theorem Dev.setBead_chans (d : Dev) (n e : Nat) (x : BeadH) : (d.setBead n e x).chans = d.chans := (rfl)
@[simp] theorem Dev.setBead_sets (d : Dev) (n e : Nat) (x : BeadH) : (d.setBead n e x).sets = d.sets := (rfl)
@[simp] theorem Dev.setBead_sdms (d : Dev) (n e : Nat) (x : BeadH) : (d.setBead n e x).sdms = d.sdms := (rfl)
@[simp] theorem Dev.setBead_sdclks (d : Dev) (n e : Nat) (x : BeadH) : (d.setBead n e x).sdclks = d.sdclks := (rfl)
@[simp] theorem Dev.setBead_rods (d : Dev) (n e : Nat) (x : BeadH) : (d.setBead n e x).rods = d.rods := (rfl)
@[simp] theorem Dev.setBead_frames (d : Dev) (n e : Nat) (x : BeadH) : (d.setBead n e x).frames = d.frames := (rfl)
@[simp] theorem Dev.setBead_presets (d : Dev) (n e : Nat) (x : BeadH) : (d.setBead n e x).presets = d.presets := (rfl)
@[simp] theorem Dev.setBead_traces (d : Dev) (n e : Nat) (x : BeadH) : (d.setBead n e x).traces = d.traces := (rfl)
@[simp] theorem Dev.setBead_fbks (d : Dev) (n e : Nat) (x : BeadH) : (d.setBead n e x).fbks = d.fbks := (rfl)
@[simp] theorem Dev.setBead_clasps (d : Dev) (n e : Nat) (x : BeadH) : (d.setBead n e x).clasps = d.clasps := (rfl)
@[simp] theorem Dev.setBead_cores (d : Dev) (n e : Nat) (x : BeadH) : (d.setBead n e x).cores = d.cores := (rfl)
@[simp] theorem Dev.setBead_icache (d : Dev) (n e : Nat) (x : BeadH) : (d.setBead n e x).icache = d.icache := (rfl)
@[simp] theorem Dev.setBead_dcache (d : Dev) (n e : Nat) (x : BeadH) : (d.setBead n e x).dcache = d.dcache := (rfl)
@[simp] theorem Dev.setBead_dma (d : Dev) (n e : Nat) (x : BeadH) : (d.setBead n e x).dma = d.dma := (rfl)
@[simp] theorem Dev.setBead_dmaBusy (d : Dev) (n e : Nat) (x : BeadH) : (d.setBead n e x).dmaBusy = d.dmaBusy := (rfl)
@[simp] theorem Dev.setBead_credits (d : Dev) (n e : Nat) (x : BeadH) : (d.setBead n e x).credits = d.credits := (rfl)
@[simp] theorem Dev.setBead_losses (d : Dev) (n e : Nat) (x : BeadH) : (d.setBead n e x).losses = d.losses := (rfl)
@[simp] theorem Dev.setBead_backoff (d : Dev) (n e : Nat) (x : BeadH) : (d.setBead n e x).backoff = d.backoff := (rfl)
@[simp] theorem Dev.setBead_ledger (d : Dev) (n e : Nat) (x : BeadH) : (d.setBead n e x).ledger = d.ledger := (rfl)
@[simp] theorem Dev.setBead_chozer (d : Dev) (n e : Nat) (x : BeadH) : (d.setBead n e x).chozer = d.chozer := (rfl)
@[simp] theorem Dev.setBead_net (d : Dev) (n e : Nat) (x : BeadH) : (d.setBead n e x).net = d.net := (rfl)
@[simp] theorem Dev.setBead_can (d : Dev) (n e : Nat) (x : BeadH) : (d.setBead n e x).can = d.can := (rfl)
@[simp] theorem Dev.setBead_power (d : Dev) (n e : Nat) (x : BeadH) : (d.setBead n e x).power = d.power := (rfl)
@[simp] theorem Dev.setBead_diag (d : Dev) (n e : Nat) (x : BeadH) : (d.setBead n e x).diag = d.diag := (rfl)
@[simp] theorem Dev.setBead_scrubAt (d : Dev) (n e : Nat) (x : BeadH) : (d.setBead n e x).scrubAt = d.scrubAt := (rfl)
@[simp] theorem Dev.setCell_part (d : Dev) (n i : Nat) (x : CellH) : (d.setCell n i x).part = d.part := (rfl)
@[simp] theorem Dev.setCell_beam (d : Dev) (n i : Nat) (x : CellH) : (d.setCell n i x).beam = d.beam := (rfl)
@[simp] theorem Dev.setCell_stage (d : Dev) (n i : Nat) (x : CellH) : (d.setCell n i x).stage = d.stage := (rfl)
@[simp] theorem Dev.setCell_free (d : Dev) (n i : Nat) (x : CellH) : (d.setCell n i x).free = d.free := (rfl)
@[simp] theorem Dev.setCell_regs (d : Dev) (n i : Nat) (x : CellH) : (d.setCell n i x).regs = d.regs := (rfl)
@[simp] theorem Dev.setCell_mem (d : Dev) (n i : Nat) (x : CellH) : (d.setCell n i x).mem = d.mem := (rfl)
@[simp] theorem Dev.setCell_fresh (d : Dev) (n i : Nat) (x : CellH) : (d.setCell n i x).fresh = d.fresh := (rfl)
@[simp] theorem Dev.setCell_shadow (d : Dev) (n i : Nat) (x : CellH) : (d.setCell n i x).shadow = d.shadow := (rfl)
@[simp] theorem Dev.setCell_agenda (d : Dev) (n i : Nat) (x : CellH) : (d.setCell n i x).agenda = d.agenda := (rfl)
@[simp] theorem Dev.setCell_bus (d : Dev) (n i : Nat) (x : CellH) : (d.setCell n i x).bus = d.bus := (rfl)
@[simp] theorem Dev.setCell_latch (d : Dev) (n i : Nat) (x : CellH) : (d.setCell n i x).latch = d.latch := (rfl)
@[simp] theorem Dev.setCell_bits (d : Dev) (n i : Nat) (x : CellH) : (d.setCell n i x).bits = d.bits := (rfl)
@[simp] theorem Dev.setCell_grants (d : Dev) (n i : Nat) (x : CellH) : (d.setCell n i x).grants = d.grants := (rfl)
@[simp] theorem Dev.setCell_raised (d : Dev) (n i : Nat) (x : CellH) : (d.setCell n i x).raised = d.raised := (rfl)
@[simp] theorem Dev.setCell_routeWas (d : Dev) (n i : Nat) (x : CellH) : (d.setCell n i x).routeWas = d.routeWas := (rfl)
@[simp] theorem Dev.setCell_rings (d : Dev) (n i : Nat) (x : CellH) : (d.setCell n i x).rings = d.rings := (rfl)
@[simp] theorem Dev.setCell_transit (d : Dev) (n i : Nat) (x : CellH) : (d.setCell n i x).transit = d.transit := (rfl)
@[simp] theorem Dev.setCell_chLast (d : Dev) (n i : Nat) (x : CellH) : (d.setCell n i x).chLast = d.chLast := (rfl)
@[simp] theorem Dev.setCell_pend (d : Dev) (n i : Nat) (x : CellH) : (d.setCell n i x).pend = d.pend := (rfl)
@[simp] theorem Dev.setCell_inLast (d : Dev) (n i : Nat) (x : CellH) : (d.setCell n i x).inLast = d.inLast := (rfl)
@[simp] theorem Dev.setCell_gateHist (d : Dev) (n i : Nat) (x : CellH) : (d.setCell n i x).gateHist = d.gateHist := (rfl)
@[simp] theorem Dev.setCell_timers (d : Dev) (n i : Nat) (x : CellH) : (d.setCell n i x).timers = d.timers := (rfl)
@[simp] theorem Dev.setCell_go (d : Dev) (n i : Nat) (x : CellH) : (d.setCell n i x).go = d.go := (rfl)
@[simp] theorem Dev.setCell_pairs (d : Dev) (n i : Nat) (x : CellH) : (d.setCell n i x).pairs = d.pairs := (rfl)
@[simp] theorem Dev.setCell_lines (d : Dev) (n i : Nat) (x : CellH) : (d.setCell n i x).lines = d.lines := (rfl)
@[simp] theorem Dev.setCell_chans (d : Dev) (n i : Nat) (x : CellH) : (d.setCell n i x).chans = d.chans := (rfl)
@[simp] theorem Dev.setCell_sets (d : Dev) (n i : Nat) (x : CellH) : (d.setCell n i x).sets = d.sets := (rfl)
@[simp] theorem Dev.setCell_sdms (d : Dev) (n i : Nat) (x : CellH) : (d.setCell n i x).sdms = d.sdms := (rfl)
@[simp] theorem Dev.setCell_sdclks (d : Dev) (n i : Nat) (x : CellH) : (d.setCell n i x).sdclks = d.sdclks := (rfl)
@[simp] theorem Dev.setCell_rods (d : Dev) (n i : Nat) (x : CellH) : (d.setCell n i x).rods = d.rods := (rfl)
@[simp] theorem Dev.setCell_frames (d : Dev) (n i : Nat) (x : CellH) : (d.setCell n i x).frames = d.frames := (rfl)
@[simp] theorem Dev.setCell_presets (d : Dev) (n i : Nat) (x : CellH) : (d.setCell n i x).presets = d.presets := (rfl)
@[simp] theorem Dev.setCell_traces (d : Dev) (n i : Nat) (x : CellH) : (d.setCell n i x).traces = d.traces := (rfl)
@[simp] theorem Dev.setCell_fbks (d : Dev) (n i : Nat) (x : CellH) : (d.setCell n i x).fbks = d.fbks := (rfl)
@[simp] theorem Dev.setCell_beads (d : Dev) (n i : Nat) (x : CellH) : (d.setCell n i x).beads = d.beads := (rfl)
@[simp] theorem Dev.setCell_clasps (d : Dev) (n i : Nat) (x : CellH) : (d.setCell n i x).clasps = d.clasps := (rfl)
@[simp] theorem Dev.setCell_cores (d : Dev) (n i : Nat) (x : CellH) : (d.setCell n i x).cores = d.cores := (rfl)
@[simp] theorem Dev.setCell_icache (d : Dev) (n i : Nat) (x : CellH) : (d.setCell n i x).icache = d.icache := (rfl)
@[simp] theorem Dev.setCell_dcache (d : Dev) (n i : Nat) (x : CellH) : (d.setCell n i x).dcache = d.dcache := (rfl)
@[simp] theorem Dev.setCell_dma (d : Dev) (n i : Nat) (x : CellH) : (d.setCell n i x).dma = d.dma := (rfl)
@[simp] theorem Dev.setCell_dmaBusy (d : Dev) (n i : Nat) (x : CellH) : (d.setCell n i x).dmaBusy = d.dmaBusy := (rfl)
@[simp] theorem Dev.setCell_credits (d : Dev) (n i : Nat) (x : CellH) : (d.setCell n i x).credits = d.credits := (rfl)
@[simp] theorem Dev.setCell_losses (d : Dev) (n i : Nat) (x : CellH) : (d.setCell n i x).losses = d.losses := (rfl)
@[simp] theorem Dev.setCell_backoff (d : Dev) (n i : Nat) (x : CellH) : (d.setCell n i x).backoff = d.backoff := (rfl)
@[simp] theorem Dev.setCell_ledger (d : Dev) (n i : Nat) (x : CellH) : (d.setCell n i x).ledger = d.ledger := (rfl)
@[simp] theorem Dev.setCell_chozer (d : Dev) (n i : Nat) (x : CellH) : (d.setCell n i x).chozer = d.chozer := (rfl)
@[simp] theorem Dev.setCell_net (d : Dev) (n i : Nat) (x : CellH) : (d.setCell n i x).net = d.net := (rfl)
@[simp] theorem Dev.setCell_can (d : Dev) (n i : Nat) (x : CellH) : (d.setCell n i x).can = d.can := (rfl)
@[simp] theorem Dev.setCell_power (d : Dev) (n i : Nat) (x : CellH) : (d.setCell n i x).power = d.power := (rfl)
@[simp] theorem Dev.setCell_diag (d : Dev) (n i : Nat) (x : CellH) : (d.setCell n i x).diag = d.diag := (rfl)
@[simp] theorem Dev.setCell_scrubAt (d : Dev) (n i : Nat) (x : CellH) : (d.setCell n i x).scrubAt = d.scrubAt := (rfl)
@[simp] theorem Dev.setClasp_part (d : Dev) (c : Nat) (x : ClaspH) : (d.setClasp c x).part = d.part := (rfl)
@[simp] theorem Dev.setClasp_beam (d : Dev) (c : Nat) (x : ClaspH) : (d.setClasp c x).beam = d.beam := (rfl)
@[simp] theorem Dev.setClasp_stage (d : Dev) (c : Nat) (x : ClaspH) : (d.setClasp c x).stage = d.stage := (rfl)
@[simp] theorem Dev.setClasp_free (d : Dev) (c : Nat) (x : ClaspH) : (d.setClasp c x).free = d.free := (rfl)
@[simp] theorem Dev.setClasp_regs (d : Dev) (c : Nat) (x : ClaspH) : (d.setClasp c x).regs = d.regs := (rfl)
@[simp] theorem Dev.setClasp_mem (d : Dev) (c : Nat) (x : ClaspH) : (d.setClasp c x).mem = d.mem := (rfl)
@[simp] theorem Dev.setClasp_fresh (d : Dev) (c : Nat) (x : ClaspH) : (d.setClasp c x).fresh = d.fresh := (rfl)
@[simp] theorem Dev.setClasp_shadow (d : Dev) (c : Nat) (x : ClaspH) : (d.setClasp c x).shadow = d.shadow := (rfl)
@[simp] theorem Dev.setClasp_agenda (d : Dev) (c : Nat) (x : ClaspH) : (d.setClasp c x).agenda = d.agenda := (rfl)
@[simp] theorem Dev.setClasp_bus (d : Dev) (c : Nat) (x : ClaspH) : (d.setClasp c x).bus = d.bus := (rfl)
@[simp] theorem Dev.setClasp_latch (d : Dev) (c : Nat) (x : ClaspH) : (d.setClasp c x).latch = d.latch := (rfl)
@[simp] theorem Dev.setClasp_bits (d : Dev) (c : Nat) (x : ClaspH) : (d.setClasp c x).bits = d.bits := (rfl)
@[simp] theorem Dev.setClasp_grants (d : Dev) (c : Nat) (x : ClaspH) : (d.setClasp c x).grants = d.grants := (rfl)
@[simp] theorem Dev.setClasp_raised (d : Dev) (c : Nat) (x : ClaspH) : (d.setClasp c x).raised = d.raised := (rfl)
@[simp] theorem Dev.setClasp_routeWas (d : Dev) (c : Nat) (x : ClaspH) : (d.setClasp c x).routeWas = d.routeWas := (rfl)
@[simp] theorem Dev.setClasp_rings (d : Dev) (c : Nat) (x : ClaspH) : (d.setClasp c x).rings = d.rings := (rfl)
@[simp] theorem Dev.setClasp_transit (d : Dev) (c : Nat) (x : ClaspH) : (d.setClasp c x).transit = d.transit := (rfl)
@[simp] theorem Dev.setClasp_chLast (d : Dev) (c : Nat) (x : ClaspH) : (d.setClasp c x).chLast = d.chLast := (rfl)
@[simp] theorem Dev.setClasp_pend (d : Dev) (c : Nat) (x : ClaspH) : (d.setClasp c x).pend = d.pend := (rfl)
@[simp] theorem Dev.setClasp_inLast (d : Dev) (c : Nat) (x : ClaspH) : (d.setClasp c x).inLast = d.inLast := (rfl)
@[simp] theorem Dev.setClasp_gateHist (d : Dev) (c : Nat) (x : ClaspH) : (d.setClasp c x).gateHist = d.gateHist := (rfl)
@[simp] theorem Dev.setClasp_cells (d : Dev) (c : Nat) (x : ClaspH) : (d.setClasp c x).cells = d.cells := (rfl)
@[simp] theorem Dev.setClasp_timers (d : Dev) (c : Nat) (x : ClaspH) : (d.setClasp c x).timers = d.timers := (rfl)
@[simp] theorem Dev.setClasp_go (d : Dev) (c : Nat) (x : ClaspH) : (d.setClasp c x).go = d.go := (rfl)
@[simp] theorem Dev.setClasp_pairs (d : Dev) (c : Nat) (x : ClaspH) : (d.setClasp c x).pairs = d.pairs := (rfl)
@[simp] theorem Dev.setClasp_lines (d : Dev) (c : Nat) (x : ClaspH) : (d.setClasp c x).lines = d.lines := (rfl)
@[simp] theorem Dev.setClasp_chans (d : Dev) (c : Nat) (x : ClaspH) : (d.setClasp c x).chans = d.chans := (rfl)
@[simp] theorem Dev.setClasp_sets (d : Dev) (c : Nat) (x : ClaspH) : (d.setClasp c x).sets = d.sets := (rfl)
@[simp] theorem Dev.setClasp_sdms (d : Dev) (c : Nat) (x : ClaspH) : (d.setClasp c x).sdms = d.sdms := (rfl)
@[simp] theorem Dev.setClasp_sdclks (d : Dev) (c : Nat) (x : ClaspH) : (d.setClasp c x).sdclks = d.sdclks := (rfl)
@[simp] theorem Dev.setClasp_rods (d : Dev) (c : Nat) (x : ClaspH) : (d.setClasp c x).rods = d.rods := (rfl)
@[simp] theorem Dev.setClasp_frames (d : Dev) (c : Nat) (x : ClaspH) : (d.setClasp c x).frames = d.frames := (rfl)
@[simp] theorem Dev.setClasp_presets (d : Dev) (c : Nat) (x : ClaspH) : (d.setClasp c x).presets = d.presets := (rfl)
@[simp] theorem Dev.setClasp_traces (d : Dev) (c : Nat) (x : ClaspH) : (d.setClasp c x).traces = d.traces := (rfl)
@[simp] theorem Dev.setClasp_fbks (d : Dev) (c : Nat) (x : ClaspH) : (d.setClasp c x).fbks = d.fbks := (rfl)
@[simp] theorem Dev.setClasp_beads (d : Dev) (c : Nat) (x : ClaspH) : (d.setClasp c x).beads = d.beads := (rfl)
@[simp] theorem Dev.setClasp_cores (d : Dev) (c : Nat) (x : ClaspH) : (d.setClasp c x).cores = d.cores := (rfl)
@[simp] theorem Dev.setClasp_icache (d : Dev) (c : Nat) (x : ClaspH) : (d.setClasp c x).icache = d.icache := (rfl)
@[simp] theorem Dev.setClasp_dcache (d : Dev) (c : Nat) (x : ClaspH) : (d.setClasp c x).dcache = d.dcache := (rfl)
@[simp] theorem Dev.setClasp_dma (d : Dev) (c : Nat) (x : ClaspH) : (d.setClasp c x).dma = d.dma := (rfl)
@[simp] theorem Dev.setClasp_dmaBusy (d : Dev) (c : Nat) (x : ClaspH) : (d.setClasp c x).dmaBusy = d.dmaBusy := (rfl)
@[simp] theorem Dev.setClasp_credits (d : Dev) (c : Nat) (x : ClaspH) : (d.setClasp c x).credits = d.credits := (rfl)
@[simp] theorem Dev.setClasp_losses (d : Dev) (c : Nat) (x : ClaspH) : (d.setClasp c x).losses = d.losses := (rfl)
@[simp] theorem Dev.setClasp_backoff (d : Dev) (c : Nat) (x : ClaspH) : (d.setClasp c x).backoff = d.backoff := (rfl)
@[simp] theorem Dev.setClasp_ledger (d : Dev) (c : Nat) (x : ClaspH) : (d.setClasp c x).ledger = d.ledger := (rfl)
@[simp] theorem Dev.setClasp_chozer (d : Dev) (c : Nat) (x : ClaspH) : (d.setClasp c x).chozer = d.chozer := (rfl)
@[simp] theorem Dev.setClasp_net (d : Dev) (c : Nat) (x : ClaspH) : (d.setClasp c x).net = d.net := (rfl)
@[simp] theorem Dev.setClasp_can (d : Dev) (c : Nat) (x : ClaspH) : (d.setClasp c x).can = d.can := (rfl)
@[simp] theorem Dev.setClasp_power (d : Dev) (c : Nat) (x : ClaspH) : (d.setClasp c x).power = d.power := (rfl)
@[simp] theorem Dev.setClasp_diag (d : Dev) (c : Nat) (x : ClaspH) : (d.setClasp c x).diag = d.diag := (rfl)
@[simp] theorem Dev.setClasp_scrubAt (d : Dev) (c : Nat) (x : ClaspH) : (d.setClasp c x).scrubAt = d.scrubAt := (rfl)
@[simp] theorem Dev.setCore_part (d : Dev) (c : Nat) (x : CoreH) : (d.setCore c x).part = d.part := (rfl)
@[simp] theorem Dev.setCore_beam (d : Dev) (c : Nat) (x : CoreH) : (d.setCore c x).beam = d.beam := (rfl)
@[simp] theorem Dev.setCore_stage (d : Dev) (c : Nat) (x : CoreH) : (d.setCore c x).stage = d.stage := (rfl)
@[simp] theorem Dev.setCore_free (d : Dev) (c : Nat) (x : CoreH) : (d.setCore c x).free = d.free := (rfl)
@[simp] theorem Dev.setCore_regs (d : Dev) (c : Nat) (x : CoreH) : (d.setCore c x).regs = d.regs := (rfl)
@[simp] theorem Dev.setCore_mem (d : Dev) (c : Nat) (x : CoreH) : (d.setCore c x).mem = d.mem := (rfl)
@[simp] theorem Dev.setCore_fresh (d : Dev) (c : Nat) (x : CoreH) : (d.setCore c x).fresh = d.fresh := (rfl)
@[simp] theorem Dev.setCore_shadow (d : Dev) (c : Nat) (x : CoreH) : (d.setCore c x).shadow = d.shadow := (rfl)
@[simp] theorem Dev.setCore_agenda (d : Dev) (c : Nat) (x : CoreH) : (d.setCore c x).agenda = d.agenda := (rfl)
@[simp] theorem Dev.setCore_bus (d : Dev) (c : Nat) (x : CoreH) : (d.setCore c x).bus = d.bus := (rfl)
@[simp] theorem Dev.setCore_latch (d : Dev) (c : Nat) (x : CoreH) : (d.setCore c x).latch = d.latch := (rfl)
@[simp] theorem Dev.setCore_bits (d : Dev) (c : Nat) (x : CoreH) : (d.setCore c x).bits = d.bits := (rfl)
@[simp] theorem Dev.setCore_grants (d : Dev) (c : Nat) (x : CoreH) : (d.setCore c x).grants = d.grants := (rfl)
@[simp] theorem Dev.setCore_raised (d : Dev) (c : Nat) (x : CoreH) : (d.setCore c x).raised = d.raised := (rfl)
@[simp] theorem Dev.setCore_routeWas (d : Dev) (c : Nat) (x : CoreH) : (d.setCore c x).routeWas = d.routeWas := (rfl)
@[simp] theorem Dev.setCore_rings (d : Dev) (c : Nat) (x : CoreH) : (d.setCore c x).rings = d.rings := (rfl)
@[simp] theorem Dev.setCore_transit (d : Dev) (c : Nat) (x : CoreH) : (d.setCore c x).transit = d.transit := (rfl)
@[simp] theorem Dev.setCore_chLast (d : Dev) (c : Nat) (x : CoreH) : (d.setCore c x).chLast = d.chLast := (rfl)
@[simp] theorem Dev.setCore_pend (d : Dev) (c : Nat) (x : CoreH) : (d.setCore c x).pend = d.pend := (rfl)
@[simp] theorem Dev.setCore_inLast (d : Dev) (c : Nat) (x : CoreH) : (d.setCore c x).inLast = d.inLast := (rfl)
@[simp] theorem Dev.setCore_gateHist (d : Dev) (c : Nat) (x : CoreH) : (d.setCore c x).gateHist = d.gateHist := (rfl)
@[simp] theorem Dev.setCore_cells (d : Dev) (c : Nat) (x : CoreH) : (d.setCore c x).cells = d.cells := (rfl)
@[simp] theorem Dev.setCore_timers (d : Dev) (c : Nat) (x : CoreH) : (d.setCore c x).timers = d.timers := (rfl)
@[simp] theorem Dev.setCore_go (d : Dev) (c : Nat) (x : CoreH) : (d.setCore c x).go = d.go := (rfl)
@[simp] theorem Dev.setCore_pairs (d : Dev) (c : Nat) (x : CoreH) : (d.setCore c x).pairs = d.pairs := (rfl)
@[simp] theorem Dev.setCore_lines (d : Dev) (c : Nat) (x : CoreH) : (d.setCore c x).lines = d.lines := (rfl)
@[simp] theorem Dev.setCore_chans (d : Dev) (c : Nat) (x : CoreH) : (d.setCore c x).chans = d.chans := (rfl)
@[simp] theorem Dev.setCore_sets (d : Dev) (c : Nat) (x : CoreH) : (d.setCore c x).sets = d.sets := (rfl)
@[simp] theorem Dev.setCore_sdms (d : Dev) (c : Nat) (x : CoreH) : (d.setCore c x).sdms = d.sdms := (rfl)
@[simp] theorem Dev.setCore_sdclks (d : Dev) (c : Nat) (x : CoreH) : (d.setCore c x).sdclks = d.sdclks := (rfl)
@[simp] theorem Dev.setCore_rods (d : Dev) (c : Nat) (x : CoreH) : (d.setCore c x).rods = d.rods := (rfl)
@[simp] theorem Dev.setCore_frames (d : Dev) (c : Nat) (x : CoreH) : (d.setCore c x).frames = d.frames := (rfl)
@[simp] theorem Dev.setCore_presets (d : Dev) (c : Nat) (x : CoreH) : (d.setCore c x).presets = d.presets := (rfl)
@[simp] theorem Dev.setCore_traces (d : Dev) (c : Nat) (x : CoreH) : (d.setCore c x).traces = d.traces := (rfl)
@[simp] theorem Dev.setCore_fbks (d : Dev) (c : Nat) (x : CoreH) : (d.setCore c x).fbks = d.fbks := (rfl)
@[simp] theorem Dev.setCore_beads (d : Dev) (c : Nat) (x : CoreH) : (d.setCore c x).beads = d.beads := (rfl)
@[simp] theorem Dev.setCore_clasps (d : Dev) (c : Nat) (x : CoreH) : (d.setCore c x).clasps = d.clasps := (rfl)
@[simp] theorem Dev.setCore_icache (d : Dev) (c : Nat) (x : CoreH) : (d.setCore c x).icache = d.icache := (rfl)
@[simp] theorem Dev.setCore_dcache (d : Dev) (c : Nat) (x : CoreH) : (d.setCore c x).dcache = d.dcache := (rfl)
@[simp] theorem Dev.setCore_dma (d : Dev) (c : Nat) (x : CoreH) : (d.setCore c x).dma = d.dma := (rfl)
@[simp] theorem Dev.setCore_dmaBusy (d : Dev) (c : Nat) (x : CoreH) : (d.setCore c x).dmaBusy = d.dmaBusy := (rfl)
@[simp] theorem Dev.setCore_credits (d : Dev) (c : Nat) (x : CoreH) : (d.setCore c x).credits = d.credits := (rfl)
@[simp] theorem Dev.setCore_losses (d : Dev) (c : Nat) (x : CoreH) : (d.setCore c x).losses = d.losses := (rfl)
@[simp] theorem Dev.setCore_backoff (d : Dev) (c : Nat) (x : CoreH) : (d.setCore c x).backoff = d.backoff := (rfl)
@[simp] theorem Dev.setCore_ledger (d : Dev) (c : Nat) (x : CoreH) : (d.setCore c x).ledger = d.ledger := (rfl)
@[simp] theorem Dev.setCore_chozer (d : Dev) (c : Nat) (x : CoreH) : (d.setCore c x).chozer = d.chozer := (rfl)
@[simp] theorem Dev.setCore_net (d : Dev) (c : Nat) (x : CoreH) : (d.setCore c x).net = d.net := (rfl)
@[simp] theorem Dev.setCore_can (d : Dev) (c : Nat) (x : CoreH) : (d.setCore c x).can = d.can := (rfl)
@[simp] theorem Dev.setCore_power (d : Dev) (c : Nat) (x : CoreH) : (d.setCore c x).power = d.power := (rfl)
@[simp] theorem Dev.setCore_diag (d : Dev) (c : Nat) (x : CoreH) : (d.setCore c x).diag = d.diag := (rfl)
@[simp] theorem Dev.setCore_scrubAt (d : Dev) (c : Nat) (x : CoreH) : (d.setCore c x).scrubAt = d.scrubAt := (rfl)
@[simp] theorem Dev.setRing_part (d : Dev) (c : Nat) (x : RingH) : (d.setRing c x).part = d.part := (rfl)
@[simp] theorem Dev.setRing_beam (d : Dev) (c : Nat) (x : RingH) : (d.setRing c x).beam = d.beam := (rfl)
@[simp] theorem Dev.setRing_stage (d : Dev) (c : Nat) (x : RingH) : (d.setRing c x).stage = d.stage := (rfl)
@[simp] theorem Dev.setRing_free (d : Dev) (c : Nat) (x : RingH) : (d.setRing c x).free = d.free := (rfl)
@[simp] theorem Dev.setRing_regs (d : Dev) (c : Nat) (x : RingH) : (d.setRing c x).regs = d.regs := (rfl)
@[simp] theorem Dev.setRing_mem (d : Dev) (c : Nat) (x : RingH) : (d.setRing c x).mem = d.mem := (rfl)
@[simp] theorem Dev.setRing_fresh (d : Dev) (c : Nat) (x : RingH) : (d.setRing c x).fresh = d.fresh := (rfl)
@[simp] theorem Dev.setRing_shadow (d : Dev) (c : Nat) (x : RingH) : (d.setRing c x).shadow = d.shadow := (rfl)
@[simp] theorem Dev.setRing_agenda (d : Dev) (c : Nat) (x : RingH) : (d.setRing c x).agenda = d.agenda := (rfl)
@[simp] theorem Dev.setRing_bus (d : Dev) (c : Nat) (x : RingH) : (d.setRing c x).bus = d.bus := (rfl)
@[simp] theorem Dev.setRing_latch (d : Dev) (c : Nat) (x : RingH) : (d.setRing c x).latch = d.latch := (rfl)
@[simp] theorem Dev.setRing_bits (d : Dev) (c : Nat) (x : RingH) : (d.setRing c x).bits = d.bits := (rfl)
@[simp] theorem Dev.setRing_grants (d : Dev) (c : Nat) (x : RingH) : (d.setRing c x).grants = d.grants := (rfl)
@[simp] theorem Dev.setRing_raised (d : Dev) (c : Nat) (x : RingH) : (d.setRing c x).raised = d.raised := (rfl)
@[simp] theorem Dev.setRing_routeWas (d : Dev) (c : Nat) (x : RingH) : (d.setRing c x).routeWas = d.routeWas := (rfl)
@[simp] theorem Dev.setRing_transit (d : Dev) (c : Nat) (x : RingH) : (d.setRing c x).transit = d.transit := (rfl)
@[simp] theorem Dev.setRing_chLast (d : Dev) (c : Nat) (x : RingH) : (d.setRing c x).chLast = d.chLast := (rfl)
@[simp] theorem Dev.setRing_pend (d : Dev) (c : Nat) (x : RingH) : (d.setRing c x).pend = d.pend := (rfl)
@[simp] theorem Dev.setRing_inLast (d : Dev) (c : Nat) (x : RingH) : (d.setRing c x).inLast = d.inLast := (rfl)
@[simp] theorem Dev.setRing_gateHist (d : Dev) (c : Nat) (x : RingH) : (d.setRing c x).gateHist = d.gateHist := (rfl)
@[simp] theorem Dev.setRing_cells (d : Dev) (c : Nat) (x : RingH) : (d.setRing c x).cells = d.cells := (rfl)
@[simp] theorem Dev.setRing_timers (d : Dev) (c : Nat) (x : RingH) : (d.setRing c x).timers = d.timers := (rfl)
@[simp] theorem Dev.setRing_go (d : Dev) (c : Nat) (x : RingH) : (d.setRing c x).go = d.go := (rfl)
@[simp] theorem Dev.setRing_pairs (d : Dev) (c : Nat) (x : RingH) : (d.setRing c x).pairs = d.pairs := (rfl)
@[simp] theorem Dev.setRing_lines (d : Dev) (c : Nat) (x : RingH) : (d.setRing c x).lines = d.lines := (rfl)
@[simp] theorem Dev.setRing_chans (d : Dev) (c : Nat) (x : RingH) : (d.setRing c x).chans = d.chans := (rfl)
@[simp] theorem Dev.setRing_sets (d : Dev) (c : Nat) (x : RingH) : (d.setRing c x).sets = d.sets := (rfl)
@[simp] theorem Dev.setRing_sdms (d : Dev) (c : Nat) (x : RingH) : (d.setRing c x).sdms = d.sdms := (rfl)
@[simp] theorem Dev.setRing_sdclks (d : Dev) (c : Nat) (x : RingH) : (d.setRing c x).sdclks = d.sdclks := (rfl)
@[simp] theorem Dev.setRing_rods (d : Dev) (c : Nat) (x : RingH) : (d.setRing c x).rods = d.rods := (rfl)
@[simp] theorem Dev.setRing_frames (d : Dev) (c : Nat) (x : RingH) : (d.setRing c x).frames = d.frames := (rfl)
@[simp] theorem Dev.setRing_presets (d : Dev) (c : Nat) (x : RingH) : (d.setRing c x).presets = d.presets := (rfl)
@[simp] theorem Dev.setRing_traces (d : Dev) (c : Nat) (x : RingH) : (d.setRing c x).traces = d.traces := (rfl)
@[simp] theorem Dev.setRing_fbks (d : Dev) (c : Nat) (x : RingH) : (d.setRing c x).fbks = d.fbks := (rfl)
@[simp] theorem Dev.setRing_beads (d : Dev) (c : Nat) (x : RingH) : (d.setRing c x).beads = d.beads := (rfl)
@[simp] theorem Dev.setRing_clasps (d : Dev) (c : Nat) (x : RingH) : (d.setRing c x).clasps = d.clasps := (rfl)
@[simp] theorem Dev.setRing_cores (d : Dev) (c : Nat) (x : RingH) : (d.setRing c x).cores = d.cores := (rfl)
@[simp] theorem Dev.setRing_icache (d : Dev) (c : Nat) (x : RingH) : (d.setRing c x).icache = d.icache := (rfl)
@[simp] theorem Dev.setRing_dcache (d : Dev) (c : Nat) (x : RingH) : (d.setRing c x).dcache = d.dcache := (rfl)
@[simp] theorem Dev.setRing_dma (d : Dev) (c : Nat) (x : RingH) : (d.setRing c x).dma = d.dma := (rfl)
@[simp] theorem Dev.setRing_dmaBusy (d : Dev) (c : Nat) (x : RingH) : (d.setRing c x).dmaBusy = d.dmaBusy := (rfl)
@[simp] theorem Dev.setRing_credits (d : Dev) (c : Nat) (x : RingH) : (d.setRing c x).credits = d.credits := (rfl)
@[simp] theorem Dev.setRing_losses (d : Dev) (c : Nat) (x : RingH) : (d.setRing c x).losses = d.losses := (rfl)
@[simp] theorem Dev.setRing_backoff (d : Dev) (c : Nat) (x : RingH) : (d.setRing c x).backoff = d.backoff := (rfl)
@[simp] theorem Dev.setRing_ledger (d : Dev) (c : Nat) (x : RingH) : (d.setRing c x).ledger = d.ledger := (rfl)
@[simp] theorem Dev.setRing_chozer (d : Dev) (c : Nat) (x : RingH) : (d.setRing c x).chozer = d.chozer := (rfl)
@[simp] theorem Dev.setRing_net (d : Dev) (c : Nat) (x : RingH) : (d.setRing c x).net = d.net := (rfl)
@[simp] theorem Dev.setRing_can (d : Dev) (c : Nat) (x : RingH) : (d.setRing c x).can = d.can := (rfl)
@[simp] theorem Dev.setRing_power (d : Dev) (c : Nat) (x : RingH) : (d.setRing c x).power = d.power := (rfl)
@[simp] theorem Dev.setRing_diag (d : Dev) (c : Nat) (x : RingH) : (d.setRing c x).diag = d.diag := (rfl)
@[simp] theorem Dev.setRing_scrubAt (d : Dev) (c : Nat) (x : RingH) : (d.setRing c x).scrubAt = d.scrubAt := (rfl)
@[simp] theorem Dev.setDmach_part (d : Dev) (e c : Nat) (x : DmaH) : (d.setDmach e c x).part = d.part := (rfl)
@[simp] theorem Dev.setDmach_beam (d : Dev) (e c : Nat) (x : DmaH) : (d.setDmach e c x).beam = d.beam := (rfl)
@[simp] theorem Dev.setDmach_stage (d : Dev) (e c : Nat) (x : DmaH) : (d.setDmach e c x).stage = d.stage := (rfl)
@[simp] theorem Dev.setDmach_free (d : Dev) (e c : Nat) (x : DmaH) : (d.setDmach e c x).free = d.free := (rfl)
@[simp] theorem Dev.setDmach_regs (d : Dev) (e c : Nat) (x : DmaH) : (d.setDmach e c x).regs = d.regs := (rfl)
@[simp] theorem Dev.setDmach_mem (d : Dev) (e c : Nat) (x : DmaH) : (d.setDmach e c x).mem = d.mem := (rfl)
@[simp] theorem Dev.setDmach_fresh (d : Dev) (e c : Nat) (x : DmaH) : (d.setDmach e c x).fresh = d.fresh := (rfl)
@[simp] theorem Dev.setDmach_shadow (d : Dev) (e c : Nat) (x : DmaH) : (d.setDmach e c x).shadow = d.shadow := (rfl)
@[simp] theorem Dev.setDmach_agenda (d : Dev) (e c : Nat) (x : DmaH) : (d.setDmach e c x).agenda = d.agenda := (rfl)
@[simp] theorem Dev.setDmach_bus (d : Dev) (e c : Nat) (x : DmaH) : (d.setDmach e c x).bus = d.bus := (rfl)
@[simp] theorem Dev.setDmach_latch (d : Dev) (e c : Nat) (x : DmaH) : (d.setDmach e c x).latch = d.latch := (rfl)
@[simp] theorem Dev.setDmach_bits (d : Dev) (e c : Nat) (x : DmaH) : (d.setDmach e c x).bits = d.bits := (rfl)
@[simp] theorem Dev.setDmach_grants (d : Dev) (e c : Nat) (x : DmaH) : (d.setDmach e c x).grants = d.grants := (rfl)
@[simp] theorem Dev.setDmach_raised (d : Dev) (e c : Nat) (x : DmaH) : (d.setDmach e c x).raised = d.raised := (rfl)
@[simp] theorem Dev.setDmach_routeWas (d : Dev) (e c : Nat) (x : DmaH) : (d.setDmach e c x).routeWas = d.routeWas := (rfl)
@[simp] theorem Dev.setDmach_rings (d : Dev) (e c : Nat) (x : DmaH) : (d.setDmach e c x).rings = d.rings := (rfl)
@[simp] theorem Dev.setDmach_transit (d : Dev) (e c : Nat) (x : DmaH) : (d.setDmach e c x).transit = d.transit := (rfl)
@[simp] theorem Dev.setDmach_chLast (d : Dev) (e c : Nat) (x : DmaH) : (d.setDmach e c x).chLast = d.chLast := (rfl)
@[simp] theorem Dev.setDmach_pend (d : Dev) (e c : Nat) (x : DmaH) : (d.setDmach e c x).pend = d.pend := (rfl)
@[simp] theorem Dev.setDmach_inLast (d : Dev) (e c : Nat) (x : DmaH) : (d.setDmach e c x).inLast = d.inLast := (rfl)
@[simp] theorem Dev.setDmach_gateHist (d : Dev) (e c : Nat) (x : DmaH) : (d.setDmach e c x).gateHist = d.gateHist := (rfl)
@[simp] theorem Dev.setDmach_cells (d : Dev) (e c : Nat) (x : DmaH) : (d.setDmach e c x).cells = d.cells := (rfl)
@[simp] theorem Dev.setDmach_timers (d : Dev) (e c : Nat) (x : DmaH) : (d.setDmach e c x).timers = d.timers := (rfl)
@[simp] theorem Dev.setDmach_go (d : Dev) (e c : Nat) (x : DmaH) : (d.setDmach e c x).go = d.go := (rfl)
@[simp] theorem Dev.setDmach_pairs (d : Dev) (e c : Nat) (x : DmaH) : (d.setDmach e c x).pairs = d.pairs := (rfl)
@[simp] theorem Dev.setDmach_lines (d : Dev) (e c : Nat) (x : DmaH) : (d.setDmach e c x).lines = d.lines := (rfl)
@[simp] theorem Dev.setDmach_chans (d : Dev) (e c : Nat) (x : DmaH) : (d.setDmach e c x).chans = d.chans := (rfl)
@[simp] theorem Dev.setDmach_sets (d : Dev) (e c : Nat) (x : DmaH) : (d.setDmach e c x).sets = d.sets := (rfl)
@[simp] theorem Dev.setDmach_sdms (d : Dev) (e c : Nat) (x : DmaH) : (d.setDmach e c x).sdms = d.sdms := (rfl)
@[simp] theorem Dev.setDmach_sdclks (d : Dev) (e c : Nat) (x : DmaH) : (d.setDmach e c x).sdclks = d.sdclks := (rfl)
@[simp] theorem Dev.setDmach_rods (d : Dev) (e c : Nat) (x : DmaH) : (d.setDmach e c x).rods = d.rods := (rfl)
@[simp] theorem Dev.setDmach_frames (d : Dev) (e c : Nat) (x : DmaH) : (d.setDmach e c x).frames = d.frames := (rfl)
@[simp] theorem Dev.setDmach_presets (d : Dev) (e c : Nat) (x : DmaH) : (d.setDmach e c x).presets = d.presets := (rfl)
@[simp] theorem Dev.setDmach_traces (d : Dev) (e c : Nat) (x : DmaH) : (d.setDmach e c x).traces = d.traces := (rfl)
@[simp] theorem Dev.setDmach_fbks (d : Dev) (e c : Nat) (x : DmaH) : (d.setDmach e c x).fbks = d.fbks := (rfl)
@[simp] theorem Dev.setDmach_beads (d : Dev) (e c : Nat) (x : DmaH) : (d.setDmach e c x).beads = d.beads := (rfl)
@[simp] theorem Dev.setDmach_clasps (d : Dev) (e c : Nat) (x : DmaH) : (d.setDmach e c x).clasps = d.clasps := (rfl)
@[simp] theorem Dev.setDmach_cores (d : Dev) (e c : Nat) (x : DmaH) : (d.setDmach e c x).cores = d.cores := (rfl)
@[simp] theorem Dev.setDmach_icache (d : Dev) (e c : Nat) (x : DmaH) : (d.setDmach e c x).icache = d.icache := (rfl)
@[simp] theorem Dev.setDmach_dcache (d : Dev) (e c : Nat) (x : DmaH) : (d.setDmach e c x).dcache = d.dcache := (rfl)
@[simp] theorem Dev.setDmach_dmaBusy (d : Dev) (e c : Nat) (x : DmaH) : (d.setDmach e c x).dmaBusy = d.dmaBusy := (rfl)
@[simp] theorem Dev.setDmach_credits (d : Dev) (e c : Nat) (x : DmaH) : (d.setDmach e c x).credits = d.credits := (rfl)
@[simp] theorem Dev.setDmach_losses (d : Dev) (e c : Nat) (x : DmaH) : (d.setDmach e c x).losses = d.losses := (rfl)
@[simp] theorem Dev.setDmach_backoff (d : Dev) (e c : Nat) (x : DmaH) : (d.setDmach e c x).backoff = d.backoff := (rfl)
@[simp] theorem Dev.setDmach_ledger (d : Dev) (e c : Nat) (x : DmaH) : (d.setDmach e c x).ledger = d.ledger := (rfl)
@[simp] theorem Dev.setDmach_chozer (d : Dev) (e c : Nat) (x : DmaH) : (d.setDmach e c x).chozer = d.chozer := (rfl)
@[simp] theorem Dev.setDmach_net (d : Dev) (e c : Nat) (x : DmaH) : (d.setDmach e c x).net = d.net := (rfl)
@[simp] theorem Dev.setDmach_can (d : Dev) (e c : Nat) (x : DmaH) : (d.setDmach e c x).can = d.can := (rfl)
@[simp] theorem Dev.setDmach_power (d : Dev) (e c : Nat) (x : DmaH) : (d.setDmach e c x).power = d.power := (rfl)
@[simp] theorem Dev.setDmach_diag (d : Dev) (e c : Nat) (x : DmaH) : (d.setDmach e c x).diag = d.diag := (rfl)
@[simp] theorem Dev.setDmach_scrubAt (d : Dev) (e c : Nat) (x : DmaH) : (d.setDmach e c x).scrubAt = d.scrubAt := (rfl)
@[simp] theorem Dev.setCanc_part (d : Dev) (c : Nat) (x : CanH) : (d.setCanc c x).part = d.part := (rfl)
@[simp] theorem Dev.setCanc_beam (d : Dev) (c : Nat) (x : CanH) : (d.setCanc c x).beam = d.beam := (rfl)
@[simp] theorem Dev.setCanc_stage (d : Dev) (c : Nat) (x : CanH) : (d.setCanc c x).stage = d.stage := (rfl)
@[simp] theorem Dev.setCanc_free (d : Dev) (c : Nat) (x : CanH) : (d.setCanc c x).free = d.free := (rfl)
@[simp] theorem Dev.setCanc_regs (d : Dev) (c : Nat) (x : CanH) : (d.setCanc c x).regs = d.regs := (rfl)
@[simp] theorem Dev.setCanc_mem (d : Dev) (c : Nat) (x : CanH) : (d.setCanc c x).mem = d.mem := (rfl)
@[simp] theorem Dev.setCanc_fresh (d : Dev) (c : Nat) (x : CanH) : (d.setCanc c x).fresh = d.fresh := (rfl)
@[simp] theorem Dev.setCanc_shadow (d : Dev) (c : Nat) (x : CanH) : (d.setCanc c x).shadow = d.shadow := (rfl)
@[simp] theorem Dev.setCanc_agenda (d : Dev) (c : Nat) (x : CanH) : (d.setCanc c x).agenda = d.agenda := (rfl)
@[simp] theorem Dev.setCanc_bus (d : Dev) (c : Nat) (x : CanH) : (d.setCanc c x).bus = d.bus := (rfl)
@[simp] theorem Dev.setCanc_latch (d : Dev) (c : Nat) (x : CanH) : (d.setCanc c x).latch = d.latch := (rfl)
@[simp] theorem Dev.setCanc_bits (d : Dev) (c : Nat) (x : CanH) : (d.setCanc c x).bits = d.bits := (rfl)
@[simp] theorem Dev.setCanc_grants (d : Dev) (c : Nat) (x : CanH) : (d.setCanc c x).grants = d.grants := (rfl)
@[simp] theorem Dev.setCanc_raised (d : Dev) (c : Nat) (x : CanH) : (d.setCanc c x).raised = d.raised := (rfl)
@[simp] theorem Dev.setCanc_routeWas (d : Dev) (c : Nat) (x : CanH) : (d.setCanc c x).routeWas = d.routeWas := (rfl)
@[simp] theorem Dev.setCanc_rings (d : Dev) (c : Nat) (x : CanH) : (d.setCanc c x).rings = d.rings := (rfl)
@[simp] theorem Dev.setCanc_transit (d : Dev) (c : Nat) (x : CanH) : (d.setCanc c x).transit = d.transit := (rfl)
@[simp] theorem Dev.setCanc_chLast (d : Dev) (c : Nat) (x : CanH) : (d.setCanc c x).chLast = d.chLast := (rfl)
@[simp] theorem Dev.setCanc_pend (d : Dev) (c : Nat) (x : CanH) : (d.setCanc c x).pend = d.pend := (rfl)
@[simp] theorem Dev.setCanc_inLast (d : Dev) (c : Nat) (x : CanH) : (d.setCanc c x).inLast = d.inLast := (rfl)
@[simp] theorem Dev.setCanc_gateHist (d : Dev) (c : Nat) (x : CanH) : (d.setCanc c x).gateHist = d.gateHist := (rfl)
@[simp] theorem Dev.setCanc_cells (d : Dev) (c : Nat) (x : CanH) : (d.setCanc c x).cells = d.cells := (rfl)
@[simp] theorem Dev.setCanc_timers (d : Dev) (c : Nat) (x : CanH) : (d.setCanc c x).timers = d.timers := (rfl)
@[simp] theorem Dev.setCanc_go (d : Dev) (c : Nat) (x : CanH) : (d.setCanc c x).go = d.go := (rfl)
@[simp] theorem Dev.setCanc_pairs (d : Dev) (c : Nat) (x : CanH) : (d.setCanc c x).pairs = d.pairs := (rfl)
@[simp] theorem Dev.setCanc_lines (d : Dev) (c : Nat) (x : CanH) : (d.setCanc c x).lines = d.lines := (rfl)
@[simp] theorem Dev.setCanc_chans (d : Dev) (c : Nat) (x : CanH) : (d.setCanc c x).chans = d.chans := (rfl)
@[simp] theorem Dev.setCanc_sets (d : Dev) (c : Nat) (x : CanH) : (d.setCanc c x).sets = d.sets := (rfl)
@[simp] theorem Dev.setCanc_sdms (d : Dev) (c : Nat) (x : CanH) : (d.setCanc c x).sdms = d.sdms := (rfl)
@[simp] theorem Dev.setCanc_sdclks (d : Dev) (c : Nat) (x : CanH) : (d.setCanc c x).sdclks = d.sdclks := (rfl)
@[simp] theorem Dev.setCanc_rods (d : Dev) (c : Nat) (x : CanH) : (d.setCanc c x).rods = d.rods := (rfl)
@[simp] theorem Dev.setCanc_frames (d : Dev) (c : Nat) (x : CanH) : (d.setCanc c x).frames = d.frames := (rfl)
@[simp] theorem Dev.setCanc_presets (d : Dev) (c : Nat) (x : CanH) : (d.setCanc c x).presets = d.presets := (rfl)
@[simp] theorem Dev.setCanc_traces (d : Dev) (c : Nat) (x : CanH) : (d.setCanc c x).traces = d.traces := (rfl)
@[simp] theorem Dev.setCanc_fbks (d : Dev) (c : Nat) (x : CanH) : (d.setCanc c x).fbks = d.fbks := (rfl)
@[simp] theorem Dev.setCanc_beads (d : Dev) (c : Nat) (x : CanH) : (d.setCanc c x).beads = d.beads := (rfl)
@[simp] theorem Dev.setCanc_clasps (d : Dev) (c : Nat) (x : CanH) : (d.setCanc c x).clasps = d.clasps := (rfl)
@[simp] theorem Dev.setCanc_cores (d : Dev) (c : Nat) (x : CanH) : (d.setCanc c x).cores = d.cores := (rfl)
@[simp] theorem Dev.setCanc_icache (d : Dev) (c : Nat) (x : CanH) : (d.setCanc c x).icache = d.icache := (rfl)
@[simp] theorem Dev.setCanc_dcache (d : Dev) (c : Nat) (x : CanH) : (d.setCanc c x).dcache = d.dcache := (rfl)
@[simp] theorem Dev.setCanc_dma (d : Dev) (c : Nat) (x : CanH) : (d.setCanc c x).dma = d.dma := (rfl)
@[simp] theorem Dev.setCanc_dmaBusy (d : Dev) (c : Nat) (x : CanH) : (d.setCanc c x).dmaBusy = d.dmaBusy := (rfl)
@[simp] theorem Dev.setCanc_credits (d : Dev) (c : Nat) (x : CanH) : (d.setCanc c x).credits = d.credits := (rfl)
@[simp] theorem Dev.setCanc_losses (d : Dev) (c : Nat) (x : CanH) : (d.setCanc c x).losses = d.losses := (rfl)
@[simp] theorem Dev.setCanc_backoff (d : Dev) (c : Nat) (x : CanH) : (d.setCanc c x).backoff = d.backoff := (rfl)
@[simp] theorem Dev.setCanc_ledger (d : Dev) (c : Nat) (x : CanH) : (d.setCanc c x).ledger = d.ledger := (rfl)
@[simp] theorem Dev.setCanc_chozer (d : Dev) (c : Nat) (x : CanH) : (d.setCanc c x).chozer = d.chozer := (rfl)
@[simp] theorem Dev.setCanc_net (d : Dev) (c : Nat) (x : CanH) : (d.setCanc c x).net = d.net := (rfl)
@[simp] theorem Dev.setCanc_power (d : Dev) (c : Nat) (x : CanH) : (d.setCanc c x).power = d.power := (rfl)
@[simp] theorem Dev.setCanc_diag (d : Dev) (c : Nat) (x : CanH) : (d.setCanc c x).diag = d.diag := (rfl)
@[simp] theorem Dev.setCanc_scrubAt (d : Dev) (c : Nat) (x : CanH) : (d.setCanc c x).scrubAt = d.scrubAt := (rfl)
@[simp] theorem Dev.setSess_part (d : Dev) (i : Nat) (x : Sess) : (d.setSess i x).part = d.part := (rfl)
@[simp] theorem Dev.setSess_beam (d : Dev) (i : Nat) (x : Sess) : (d.setSess i x).beam = d.beam := (rfl)
@[simp] theorem Dev.setSess_stage (d : Dev) (i : Nat) (x : Sess) : (d.setSess i x).stage = d.stage := (rfl)
@[simp] theorem Dev.setSess_free (d : Dev) (i : Nat) (x : Sess) : (d.setSess i x).free = d.free := (rfl)
@[simp] theorem Dev.setSess_regs (d : Dev) (i : Nat) (x : Sess) : (d.setSess i x).regs = d.regs := (rfl)
@[simp] theorem Dev.setSess_mem (d : Dev) (i : Nat) (x : Sess) : (d.setSess i x).mem = d.mem := (rfl)
@[simp] theorem Dev.setSess_fresh (d : Dev) (i : Nat) (x : Sess) : (d.setSess i x).fresh = d.fresh := (rfl)
@[simp] theorem Dev.setSess_shadow (d : Dev) (i : Nat) (x : Sess) : (d.setSess i x).shadow = d.shadow := (rfl)
@[simp] theorem Dev.setSess_agenda (d : Dev) (i : Nat) (x : Sess) : (d.setSess i x).agenda = d.agenda := (rfl)
@[simp] theorem Dev.setSess_bus (d : Dev) (i : Nat) (x : Sess) : (d.setSess i x).bus = d.bus := (rfl)
@[simp] theorem Dev.setSess_latch (d : Dev) (i : Nat) (x : Sess) : (d.setSess i x).latch = d.latch := (rfl)
@[simp] theorem Dev.setSess_bits (d : Dev) (i : Nat) (x : Sess) : (d.setSess i x).bits = d.bits := (rfl)
@[simp] theorem Dev.setSess_grants (d : Dev) (i : Nat) (x : Sess) : (d.setSess i x).grants = d.grants := (rfl)
@[simp] theorem Dev.setSess_raised (d : Dev) (i : Nat) (x : Sess) : (d.setSess i x).raised = d.raised := (rfl)
@[simp] theorem Dev.setSess_routeWas (d : Dev) (i : Nat) (x : Sess) : (d.setSess i x).routeWas = d.routeWas := (rfl)
@[simp] theorem Dev.setSess_rings (d : Dev) (i : Nat) (x : Sess) : (d.setSess i x).rings = d.rings := (rfl)
@[simp] theorem Dev.setSess_transit (d : Dev) (i : Nat) (x : Sess) : (d.setSess i x).transit = d.transit := (rfl)
@[simp] theorem Dev.setSess_chLast (d : Dev) (i : Nat) (x : Sess) : (d.setSess i x).chLast = d.chLast := (rfl)
@[simp] theorem Dev.setSess_pend (d : Dev) (i : Nat) (x : Sess) : (d.setSess i x).pend = d.pend := (rfl)
@[simp] theorem Dev.setSess_inLast (d : Dev) (i : Nat) (x : Sess) : (d.setSess i x).inLast = d.inLast := (rfl)
@[simp] theorem Dev.setSess_gateHist (d : Dev) (i : Nat) (x : Sess) : (d.setSess i x).gateHist = d.gateHist := (rfl)
@[simp] theorem Dev.setSess_cells (d : Dev) (i : Nat) (x : Sess) : (d.setSess i x).cells = d.cells := (rfl)
@[simp] theorem Dev.setSess_timers (d : Dev) (i : Nat) (x : Sess) : (d.setSess i x).timers = d.timers := (rfl)
@[simp] theorem Dev.setSess_go (d : Dev) (i : Nat) (x : Sess) : (d.setSess i x).go = d.go := (rfl)
@[simp] theorem Dev.setSess_pairs (d : Dev) (i : Nat) (x : Sess) : (d.setSess i x).pairs = d.pairs := (rfl)
@[simp] theorem Dev.setSess_lines (d : Dev) (i : Nat) (x : Sess) : (d.setSess i x).lines = d.lines := (rfl)
@[simp] theorem Dev.setSess_chans (d : Dev) (i : Nat) (x : Sess) : (d.setSess i x).chans = d.chans := (rfl)
@[simp] theorem Dev.setSess_sets (d : Dev) (i : Nat) (x : Sess) : (d.setSess i x).sets = d.sets := (rfl)
@[simp] theorem Dev.setSess_sdms (d : Dev) (i : Nat) (x : Sess) : (d.setSess i x).sdms = d.sdms := (rfl)
@[simp] theorem Dev.setSess_sdclks (d : Dev) (i : Nat) (x : Sess) : (d.setSess i x).sdclks = d.sdclks := (rfl)
@[simp] theorem Dev.setSess_rods (d : Dev) (i : Nat) (x : Sess) : (d.setSess i x).rods = d.rods := (rfl)
@[simp] theorem Dev.setSess_frames (d : Dev) (i : Nat) (x : Sess) : (d.setSess i x).frames = d.frames := (rfl)
@[simp] theorem Dev.setSess_presets (d : Dev) (i : Nat) (x : Sess) : (d.setSess i x).presets = d.presets := (rfl)
@[simp] theorem Dev.setSess_traces (d : Dev) (i : Nat) (x : Sess) : (d.setSess i x).traces = d.traces := (rfl)
@[simp] theorem Dev.setSess_fbks (d : Dev) (i : Nat) (x : Sess) : (d.setSess i x).fbks = d.fbks := (rfl)
@[simp] theorem Dev.setSess_beads (d : Dev) (i : Nat) (x : Sess) : (d.setSess i x).beads = d.beads := (rfl)
@[simp] theorem Dev.setSess_clasps (d : Dev) (i : Nat) (x : Sess) : (d.setSess i x).clasps = d.clasps := (rfl)
@[simp] theorem Dev.setSess_cores (d : Dev) (i : Nat) (x : Sess) : (d.setSess i x).cores = d.cores := (rfl)
@[simp] theorem Dev.setSess_icache (d : Dev) (i : Nat) (x : Sess) : (d.setSess i x).icache = d.icache := (rfl)
@[simp] theorem Dev.setSess_dcache (d : Dev) (i : Nat) (x : Sess) : (d.setSess i x).dcache = d.dcache := (rfl)
@[simp] theorem Dev.setSess_dma (d : Dev) (i : Nat) (x : Sess) : (d.setSess i x).dma = d.dma := (rfl)
@[simp] theorem Dev.setSess_dmaBusy (d : Dev) (i : Nat) (x : Sess) : (d.setSess i x).dmaBusy = d.dmaBusy := (rfl)
@[simp] theorem Dev.setSess_credits (d : Dev) (i : Nat) (x : Sess) : (d.setSess i x).credits = d.credits := (rfl)
@[simp] theorem Dev.setSess_losses (d : Dev) (i : Nat) (x : Sess) : (d.setSess i x).losses = d.losses := (rfl)
@[simp] theorem Dev.setSess_backoff (d : Dev) (i : Nat) (x : Sess) : (d.setSess i x).backoff = d.backoff := (rfl)
@[simp] theorem Dev.setSess_ledger (d : Dev) (i : Nat) (x : Sess) : (d.setSess i x).ledger = d.ledger := (rfl)
@[simp] theorem Dev.setSess_net (d : Dev) (i : Nat) (x : Sess) : (d.setSess i x).net = d.net := (rfl)
@[simp] theorem Dev.setSess_can (d : Dev) (i : Nat) (x : Sess) : (d.setSess i x).can = d.can := (rfl)
@[simp] theorem Dev.setSess_power (d : Dev) (i : Nat) (x : Sess) : (d.setSess i x).power = d.power := (rfl)
@[simp] theorem Dev.setSess_diag (d : Dev) (i : Nat) (x : Sess) : (d.setSess i x).diag = d.diag := (rfl)
@[simp] theorem Dev.setSess_scrubAt (d : Dev) (i : Nat) (x : Sess) : (d.setSess i x).scrubAt = d.scrubAt := (rfl)
@[simp] theorem Dev.setCred_part (d : Dev) (i : Nat) (x : Cred) : (d.setCred i x).part = d.part := (rfl)
@[simp] theorem Dev.setCred_beam (d : Dev) (i : Nat) (x : Cred) : (d.setCred i x).beam = d.beam := (rfl)
@[simp] theorem Dev.setCred_stage (d : Dev) (i : Nat) (x : Cred) : (d.setCred i x).stage = d.stage := (rfl)
@[simp] theorem Dev.setCred_free (d : Dev) (i : Nat) (x : Cred) : (d.setCred i x).free = d.free := (rfl)
@[simp] theorem Dev.setCred_regs (d : Dev) (i : Nat) (x : Cred) : (d.setCred i x).regs = d.regs := (rfl)
@[simp] theorem Dev.setCred_mem (d : Dev) (i : Nat) (x : Cred) : (d.setCred i x).mem = d.mem := (rfl)
@[simp] theorem Dev.setCred_fresh (d : Dev) (i : Nat) (x : Cred) : (d.setCred i x).fresh = d.fresh := (rfl)
@[simp] theorem Dev.setCred_shadow (d : Dev) (i : Nat) (x : Cred) : (d.setCred i x).shadow = d.shadow := (rfl)
@[simp] theorem Dev.setCred_agenda (d : Dev) (i : Nat) (x : Cred) : (d.setCred i x).agenda = d.agenda := (rfl)
@[simp] theorem Dev.setCred_bus (d : Dev) (i : Nat) (x : Cred) : (d.setCred i x).bus = d.bus := (rfl)
@[simp] theorem Dev.setCred_latch (d : Dev) (i : Nat) (x : Cred) : (d.setCred i x).latch = d.latch := (rfl)
@[simp] theorem Dev.setCred_bits (d : Dev) (i : Nat) (x : Cred) : (d.setCred i x).bits = d.bits := (rfl)
@[simp] theorem Dev.setCred_grants (d : Dev) (i : Nat) (x : Cred) : (d.setCred i x).grants = d.grants := (rfl)
@[simp] theorem Dev.setCred_raised (d : Dev) (i : Nat) (x : Cred) : (d.setCred i x).raised = d.raised := (rfl)
@[simp] theorem Dev.setCred_routeWas (d : Dev) (i : Nat) (x : Cred) : (d.setCred i x).routeWas = d.routeWas := (rfl)
@[simp] theorem Dev.setCred_rings (d : Dev) (i : Nat) (x : Cred) : (d.setCred i x).rings = d.rings := (rfl)
@[simp] theorem Dev.setCred_transit (d : Dev) (i : Nat) (x : Cred) : (d.setCred i x).transit = d.transit := (rfl)
@[simp] theorem Dev.setCred_chLast (d : Dev) (i : Nat) (x : Cred) : (d.setCred i x).chLast = d.chLast := (rfl)
@[simp] theorem Dev.setCred_pend (d : Dev) (i : Nat) (x : Cred) : (d.setCred i x).pend = d.pend := (rfl)
@[simp] theorem Dev.setCred_inLast (d : Dev) (i : Nat) (x : Cred) : (d.setCred i x).inLast = d.inLast := (rfl)
@[simp] theorem Dev.setCred_gateHist (d : Dev) (i : Nat) (x : Cred) : (d.setCred i x).gateHist = d.gateHist := (rfl)
@[simp] theorem Dev.setCred_cells (d : Dev) (i : Nat) (x : Cred) : (d.setCred i x).cells = d.cells := (rfl)
@[simp] theorem Dev.setCred_timers (d : Dev) (i : Nat) (x : Cred) : (d.setCred i x).timers = d.timers := (rfl)
@[simp] theorem Dev.setCred_go (d : Dev) (i : Nat) (x : Cred) : (d.setCred i x).go = d.go := (rfl)
@[simp] theorem Dev.setCred_pairs (d : Dev) (i : Nat) (x : Cred) : (d.setCred i x).pairs = d.pairs := (rfl)
@[simp] theorem Dev.setCred_lines (d : Dev) (i : Nat) (x : Cred) : (d.setCred i x).lines = d.lines := (rfl)
@[simp] theorem Dev.setCred_chans (d : Dev) (i : Nat) (x : Cred) : (d.setCred i x).chans = d.chans := (rfl)
@[simp] theorem Dev.setCred_sets (d : Dev) (i : Nat) (x : Cred) : (d.setCred i x).sets = d.sets := (rfl)
@[simp] theorem Dev.setCred_sdms (d : Dev) (i : Nat) (x : Cred) : (d.setCred i x).sdms = d.sdms := (rfl)
@[simp] theorem Dev.setCred_sdclks (d : Dev) (i : Nat) (x : Cred) : (d.setCred i x).sdclks = d.sdclks := (rfl)
@[simp] theorem Dev.setCred_rods (d : Dev) (i : Nat) (x : Cred) : (d.setCred i x).rods = d.rods := (rfl)
@[simp] theorem Dev.setCred_frames (d : Dev) (i : Nat) (x : Cred) : (d.setCred i x).frames = d.frames := (rfl)
@[simp] theorem Dev.setCred_presets (d : Dev) (i : Nat) (x : Cred) : (d.setCred i x).presets = d.presets := (rfl)
@[simp] theorem Dev.setCred_traces (d : Dev) (i : Nat) (x : Cred) : (d.setCred i x).traces = d.traces := (rfl)
@[simp] theorem Dev.setCred_fbks (d : Dev) (i : Nat) (x : Cred) : (d.setCred i x).fbks = d.fbks := (rfl)
@[simp] theorem Dev.setCred_beads (d : Dev) (i : Nat) (x : Cred) : (d.setCred i x).beads = d.beads := (rfl)
@[simp] theorem Dev.setCred_clasps (d : Dev) (i : Nat) (x : Cred) : (d.setCred i x).clasps = d.clasps := (rfl)
@[simp] theorem Dev.setCred_cores (d : Dev) (i : Nat) (x : Cred) : (d.setCred i x).cores = d.cores := (rfl)
@[simp] theorem Dev.setCred_icache (d : Dev) (i : Nat) (x : Cred) : (d.setCred i x).icache = d.icache := (rfl)
@[simp] theorem Dev.setCred_dcache (d : Dev) (i : Nat) (x : Cred) : (d.setCred i x).dcache = d.dcache := (rfl)
@[simp] theorem Dev.setCred_dma (d : Dev) (i : Nat) (x : Cred) : (d.setCred i x).dma = d.dma := (rfl)
@[simp] theorem Dev.setCred_dmaBusy (d : Dev) (i : Nat) (x : Cred) : (d.setCred i x).dmaBusy = d.dmaBusy := (rfl)
@[simp] theorem Dev.setCred_credits (d : Dev) (i : Nat) (x : Cred) : (d.setCred i x).credits = d.credits := (rfl)
@[simp] theorem Dev.setCred_losses (d : Dev) (i : Nat) (x : Cred) : (d.setCred i x).losses = d.losses := (rfl)
@[simp] theorem Dev.setCred_backoff (d : Dev) (i : Nat) (x : Cred) : (d.setCred i x).backoff = d.backoff := (rfl)
@[simp] theorem Dev.setCred_ledger (d : Dev) (i : Nat) (x : Cred) : (d.setCred i x).ledger = d.ledger := (rfl)
@[simp] theorem Dev.setCred_net (d : Dev) (i : Nat) (x : Cred) : (d.setCred i x).net = d.net := (rfl)
@[simp] theorem Dev.setCred_can (d : Dev) (i : Nat) (x : Cred) : (d.setCred i x).can = d.can := (rfl)
@[simp] theorem Dev.setCred_power (d : Dev) (i : Nat) (x : Cred) : (d.setCred i x).power = d.power := (rfl)
@[simp] theorem Dev.setCred_diag (d : Dev) (i : Nat) (x : Cred) : (d.setCred i x).diag = d.diag := (rfl)
@[simp] theorem Dev.setCred_scrubAt (d : Dev) (i : Nat) (x : Cred) : (d.setCred i x).scrubAt = d.scrubAt := (rfl)
@[simp] theorem Dev.setImg_part (d : Dev) (i : Nat) (x : Img) : (d.setImg i x).part = d.part := (rfl)
@[simp] theorem Dev.setImg_beam (d : Dev) (i : Nat) (x : Img) : (d.setImg i x).beam = d.beam := (rfl)
@[simp] theorem Dev.setImg_stage (d : Dev) (i : Nat) (x : Img) : (d.setImg i x).stage = d.stage := (rfl)
@[simp] theorem Dev.setImg_free (d : Dev) (i : Nat) (x : Img) : (d.setImg i x).free = d.free := (rfl)
@[simp] theorem Dev.setImg_regs (d : Dev) (i : Nat) (x : Img) : (d.setImg i x).regs = d.regs := (rfl)
@[simp] theorem Dev.setImg_mem (d : Dev) (i : Nat) (x : Img) : (d.setImg i x).mem = d.mem := (rfl)
@[simp] theorem Dev.setImg_fresh (d : Dev) (i : Nat) (x : Img) : (d.setImg i x).fresh = d.fresh := (rfl)
@[simp] theorem Dev.setImg_shadow (d : Dev) (i : Nat) (x : Img) : (d.setImg i x).shadow = d.shadow := (rfl)
@[simp] theorem Dev.setImg_agenda (d : Dev) (i : Nat) (x : Img) : (d.setImg i x).agenda = d.agenda := (rfl)
@[simp] theorem Dev.setImg_bus (d : Dev) (i : Nat) (x : Img) : (d.setImg i x).bus = d.bus := (rfl)
@[simp] theorem Dev.setImg_latch (d : Dev) (i : Nat) (x : Img) : (d.setImg i x).latch = d.latch := (rfl)
@[simp] theorem Dev.setImg_bits (d : Dev) (i : Nat) (x : Img) : (d.setImg i x).bits = d.bits := (rfl)
@[simp] theorem Dev.setImg_grants (d : Dev) (i : Nat) (x : Img) : (d.setImg i x).grants = d.grants := (rfl)
@[simp] theorem Dev.setImg_raised (d : Dev) (i : Nat) (x : Img) : (d.setImg i x).raised = d.raised := (rfl)
@[simp] theorem Dev.setImg_routeWas (d : Dev) (i : Nat) (x : Img) : (d.setImg i x).routeWas = d.routeWas := (rfl)
@[simp] theorem Dev.setImg_rings (d : Dev) (i : Nat) (x : Img) : (d.setImg i x).rings = d.rings := (rfl)
@[simp] theorem Dev.setImg_transit (d : Dev) (i : Nat) (x : Img) : (d.setImg i x).transit = d.transit := (rfl)
@[simp] theorem Dev.setImg_chLast (d : Dev) (i : Nat) (x : Img) : (d.setImg i x).chLast = d.chLast := (rfl)
@[simp] theorem Dev.setImg_pend (d : Dev) (i : Nat) (x : Img) : (d.setImg i x).pend = d.pend := (rfl)
@[simp] theorem Dev.setImg_inLast (d : Dev) (i : Nat) (x : Img) : (d.setImg i x).inLast = d.inLast := (rfl)
@[simp] theorem Dev.setImg_gateHist (d : Dev) (i : Nat) (x : Img) : (d.setImg i x).gateHist = d.gateHist := (rfl)
@[simp] theorem Dev.setImg_cells (d : Dev) (i : Nat) (x : Img) : (d.setImg i x).cells = d.cells := (rfl)
@[simp] theorem Dev.setImg_timers (d : Dev) (i : Nat) (x : Img) : (d.setImg i x).timers = d.timers := (rfl)
@[simp] theorem Dev.setImg_go (d : Dev) (i : Nat) (x : Img) : (d.setImg i x).go = d.go := (rfl)
@[simp] theorem Dev.setImg_pairs (d : Dev) (i : Nat) (x : Img) : (d.setImg i x).pairs = d.pairs := (rfl)
@[simp] theorem Dev.setImg_lines (d : Dev) (i : Nat) (x : Img) : (d.setImg i x).lines = d.lines := (rfl)
@[simp] theorem Dev.setImg_chans (d : Dev) (i : Nat) (x : Img) : (d.setImg i x).chans = d.chans := (rfl)
@[simp] theorem Dev.setImg_sets (d : Dev) (i : Nat) (x : Img) : (d.setImg i x).sets = d.sets := (rfl)
@[simp] theorem Dev.setImg_sdms (d : Dev) (i : Nat) (x : Img) : (d.setImg i x).sdms = d.sdms := (rfl)
@[simp] theorem Dev.setImg_sdclks (d : Dev) (i : Nat) (x : Img) : (d.setImg i x).sdclks = d.sdclks := (rfl)
@[simp] theorem Dev.setImg_rods (d : Dev) (i : Nat) (x : Img) : (d.setImg i x).rods = d.rods := (rfl)
@[simp] theorem Dev.setImg_frames (d : Dev) (i : Nat) (x : Img) : (d.setImg i x).frames = d.frames := (rfl)
@[simp] theorem Dev.setImg_presets (d : Dev) (i : Nat) (x : Img) : (d.setImg i x).presets = d.presets := (rfl)
@[simp] theorem Dev.setImg_traces (d : Dev) (i : Nat) (x : Img) : (d.setImg i x).traces = d.traces := (rfl)
@[simp] theorem Dev.setImg_fbks (d : Dev) (i : Nat) (x : Img) : (d.setImg i x).fbks = d.fbks := (rfl)
@[simp] theorem Dev.setImg_beads (d : Dev) (i : Nat) (x : Img) : (d.setImg i x).beads = d.beads := (rfl)
@[simp] theorem Dev.setImg_clasps (d : Dev) (i : Nat) (x : Img) : (d.setImg i x).clasps = d.clasps := (rfl)
@[simp] theorem Dev.setImg_cores (d : Dev) (i : Nat) (x : Img) : (d.setImg i x).cores = d.cores := (rfl)
@[simp] theorem Dev.setImg_icache (d : Dev) (i : Nat) (x : Img) : (d.setImg i x).icache = d.icache := (rfl)
@[simp] theorem Dev.setImg_dcache (d : Dev) (i : Nat) (x : Img) : (d.setImg i x).dcache = d.dcache := (rfl)
@[simp] theorem Dev.setImg_dma (d : Dev) (i : Nat) (x : Img) : (d.setImg i x).dma = d.dma := (rfl)
@[simp] theorem Dev.setImg_dmaBusy (d : Dev) (i : Nat) (x : Img) : (d.setImg i x).dmaBusy = d.dmaBusy := (rfl)
@[simp] theorem Dev.setImg_credits (d : Dev) (i : Nat) (x : Img) : (d.setImg i x).credits = d.credits := (rfl)
@[simp] theorem Dev.setImg_losses (d : Dev) (i : Nat) (x : Img) : (d.setImg i x).losses = d.losses := (rfl)
@[simp] theorem Dev.setImg_backoff (d : Dev) (i : Nat) (x : Img) : (d.setImg i x).backoff = d.backoff := (rfl)
@[simp] theorem Dev.setImg_ledger (d : Dev) (i : Nat) (x : Img) : (d.setImg i x).ledger = d.ledger := (rfl)
@[simp] theorem Dev.setImg_net (d : Dev) (i : Nat) (x : Img) : (d.setImg i x).net = d.net := (rfl)
@[simp] theorem Dev.setImg_can (d : Dev) (i : Nat) (x : Img) : (d.setImg i x).can = d.can := (rfl)
@[simp] theorem Dev.setImg_power (d : Dev) (i : Nat) (x : Img) : (d.setImg i x).power = d.power := (rfl)
@[simp] theorem Dev.setImg_diag (d : Dev) (i : Nat) (x : Img) : (d.setImg i x).diag = d.diag := (rfl)
@[simp] theorem Dev.setImg_scrubAt (d : Dev) (i : Nat) (x : Img) : (d.setImg i x).scrubAt = d.scrubAt := (rfl)
@[simp] theorem Dev.setLrec_part (d : Dev) (r : Nat) (x : LRec) : (d.setLrec r x).part = d.part := (rfl)
@[simp] theorem Dev.setLrec_beam (d : Dev) (r : Nat) (x : LRec) : (d.setLrec r x).beam = d.beam := (rfl)
@[simp] theorem Dev.setLrec_stage (d : Dev) (r : Nat) (x : LRec) : (d.setLrec r x).stage = d.stage := (rfl)
@[simp] theorem Dev.setLrec_free (d : Dev) (r : Nat) (x : LRec) : (d.setLrec r x).free = d.free := (rfl)
@[simp] theorem Dev.setLrec_regs (d : Dev) (r : Nat) (x : LRec) : (d.setLrec r x).regs = d.regs := (rfl)
@[simp] theorem Dev.setLrec_mem (d : Dev) (r : Nat) (x : LRec) : (d.setLrec r x).mem = d.mem := (rfl)
@[simp] theorem Dev.setLrec_fresh (d : Dev) (r : Nat) (x : LRec) : (d.setLrec r x).fresh = d.fresh := (rfl)
@[simp] theorem Dev.setLrec_shadow (d : Dev) (r : Nat) (x : LRec) : (d.setLrec r x).shadow = d.shadow := (rfl)
@[simp] theorem Dev.setLrec_agenda (d : Dev) (r : Nat) (x : LRec) : (d.setLrec r x).agenda = d.agenda := (rfl)
@[simp] theorem Dev.setLrec_bus (d : Dev) (r : Nat) (x : LRec) : (d.setLrec r x).bus = d.bus := (rfl)
@[simp] theorem Dev.setLrec_latch (d : Dev) (r : Nat) (x : LRec) : (d.setLrec r x).latch = d.latch := (rfl)
@[simp] theorem Dev.setLrec_bits (d : Dev) (r : Nat) (x : LRec) : (d.setLrec r x).bits = d.bits := (rfl)
@[simp] theorem Dev.setLrec_grants (d : Dev) (r : Nat) (x : LRec) : (d.setLrec r x).grants = d.grants := (rfl)
@[simp] theorem Dev.setLrec_raised (d : Dev) (r : Nat) (x : LRec) : (d.setLrec r x).raised = d.raised := (rfl)
@[simp] theorem Dev.setLrec_routeWas (d : Dev) (r : Nat) (x : LRec) : (d.setLrec r x).routeWas = d.routeWas := (rfl)
@[simp] theorem Dev.setLrec_rings (d : Dev) (r : Nat) (x : LRec) : (d.setLrec r x).rings = d.rings := (rfl)
@[simp] theorem Dev.setLrec_transit (d : Dev) (r : Nat) (x : LRec) : (d.setLrec r x).transit = d.transit := (rfl)
@[simp] theorem Dev.setLrec_chLast (d : Dev) (r : Nat) (x : LRec) : (d.setLrec r x).chLast = d.chLast := (rfl)
@[simp] theorem Dev.setLrec_pend (d : Dev) (r : Nat) (x : LRec) : (d.setLrec r x).pend = d.pend := (rfl)
@[simp] theorem Dev.setLrec_inLast (d : Dev) (r : Nat) (x : LRec) : (d.setLrec r x).inLast = d.inLast := (rfl)
@[simp] theorem Dev.setLrec_gateHist (d : Dev) (r : Nat) (x : LRec) : (d.setLrec r x).gateHist = d.gateHist := (rfl)
@[simp] theorem Dev.setLrec_cells (d : Dev) (r : Nat) (x : LRec) : (d.setLrec r x).cells = d.cells := (rfl)
@[simp] theorem Dev.setLrec_timers (d : Dev) (r : Nat) (x : LRec) : (d.setLrec r x).timers = d.timers := (rfl)
@[simp] theorem Dev.setLrec_go (d : Dev) (r : Nat) (x : LRec) : (d.setLrec r x).go = d.go := (rfl)
@[simp] theorem Dev.setLrec_pairs (d : Dev) (r : Nat) (x : LRec) : (d.setLrec r x).pairs = d.pairs := (rfl)
@[simp] theorem Dev.setLrec_lines (d : Dev) (r : Nat) (x : LRec) : (d.setLrec r x).lines = d.lines := (rfl)
@[simp] theorem Dev.setLrec_chans (d : Dev) (r : Nat) (x : LRec) : (d.setLrec r x).chans = d.chans := (rfl)
@[simp] theorem Dev.setLrec_sets (d : Dev) (r : Nat) (x : LRec) : (d.setLrec r x).sets = d.sets := (rfl)
@[simp] theorem Dev.setLrec_sdms (d : Dev) (r : Nat) (x : LRec) : (d.setLrec r x).sdms = d.sdms := (rfl)
@[simp] theorem Dev.setLrec_sdclks (d : Dev) (r : Nat) (x : LRec) : (d.setLrec r x).sdclks = d.sdclks := (rfl)
@[simp] theorem Dev.setLrec_rods (d : Dev) (r : Nat) (x : LRec) : (d.setLrec r x).rods = d.rods := (rfl)
@[simp] theorem Dev.setLrec_frames (d : Dev) (r : Nat) (x : LRec) : (d.setLrec r x).frames = d.frames := (rfl)
@[simp] theorem Dev.setLrec_presets (d : Dev) (r : Nat) (x : LRec) : (d.setLrec r x).presets = d.presets := (rfl)
@[simp] theorem Dev.setLrec_traces (d : Dev) (r : Nat) (x : LRec) : (d.setLrec r x).traces = d.traces := (rfl)
@[simp] theorem Dev.setLrec_fbks (d : Dev) (r : Nat) (x : LRec) : (d.setLrec r x).fbks = d.fbks := (rfl)
@[simp] theorem Dev.setLrec_beads (d : Dev) (r : Nat) (x : LRec) : (d.setLrec r x).beads = d.beads := (rfl)
@[simp] theorem Dev.setLrec_clasps (d : Dev) (r : Nat) (x : LRec) : (d.setLrec r x).clasps = d.clasps := (rfl)
@[simp] theorem Dev.setLrec_cores (d : Dev) (r : Nat) (x : LRec) : (d.setLrec r x).cores = d.cores := (rfl)
@[simp] theorem Dev.setLrec_icache (d : Dev) (r : Nat) (x : LRec) : (d.setLrec r x).icache = d.icache := (rfl)
@[simp] theorem Dev.setLrec_dcache (d : Dev) (r : Nat) (x : LRec) : (d.setLrec r x).dcache = d.dcache := (rfl)
@[simp] theorem Dev.setLrec_dma (d : Dev) (r : Nat) (x : LRec) : (d.setLrec r x).dma = d.dma := (rfl)
@[simp] theorem Dev.setLrec_dmaBusy (d : Dev) (r : Nat) (x : LRec) : (d.setLrec r x).dmaBusy = d.dmaBusy := (rfl)
@[simp] theorem Dev.setLrec_credits (d : Dev) (r : Nat) (x : LRec) : (d.setLrec r x).credits = d.credits := (rfl)
@[simp] theorem Dev.setLrec_losses (d : Dev) (r : Nat) (x : LRec) : (d.setLrec r x).losses = d.losses := (rfl)
@[simp] theorem Dev.setLrec_backoff (d : Dev) (r : Nat) (x : LRec) : (d.setLrec r x).backoff = d.backoff := (rfl)
@[simp] theorem Dev.setLrec_chozer (d : Dev) (r : Nat) (x : LRec) : (d.setLrec r x).chozer = d.chozer := (rfl)
@[simp] theorem Dev.setLrec_net (d : Dev) (r : Nat) (x : LRec) : (d.setLrec r x).net = d.net := (rfl)
@[simp] theorem Dev.setLrec_can (d : Dev) (r : Nat) (x : LRec) : (d.setLrec r x).can = d.can := (rfl)
@[simp] theorem Dev.setLrec_power (d : Dev) (r : Nat) (x : LRec) : (d.setLrec r x).power = d.power := (rfl)
@[simp] theorem Dev.setLrec_diag (d : Dev) (r : Nat) (x : LRec) : (d.setLrec r x).diag = d.diag := (rfl)
@[simp] theorem Dev.setLrec_scrubAt (d : Dev) (r : Nat) (x : LRec) : (d.setLrec r x).scrubAt = d.scrubAt := (rfl)
@[simp] theorem Dev.setLat_part (d : Dev) (k q v : Nat) : (d.setLat k q v).part = d.part := (rfl)
@[simp] theorem Dev.setLat_beam (d : Dev) (k q v : Nat) : (d.setLat k q v).beam = d.beam := (rfl)
@[simp] theorem Dev.setLat_stage (d : Dev) (k q v : Nat) : (d.setLat k q v).stage = d.stage := (rfl)
@[simp] theorem Dev.setLat_free (d : Dev) (k q v : Nat) : (d.setLat k q v).free = d.free := (rfl)
@[simp] theorem Dev.setLat_regs (d : Dev) (k q v : Nat) : (d.setLat k q v).regs = d.regs := (rfl)
@[simp] theorem Dev.setLat_mem (d : Dev) (k q v : Nat) : (d.setLat k q v).mem = d.mem := (rfl)
@[simp] theorem Dev.setLat_fresh (d : Dev) (k q v : Nat) : (d.setLat k q v).fresh = d.fresh := (rfl)
@[simp] theorem Dev.setLat_shadow (d : Dev) (k q v : Nat) : (d.setLat k q v).shadow = d.shadow := (rfl)
@[simp] theorem Dev.setLat_agenda (d : Dev) (k q v : Nat) : (d.setLat k q v).agenda = d.agenda := (rfl)
@[simp] theorem Dev.setLat_bus (d : Dev) (k q v : Nat) : (d.setLat k q v).bus = d.bus := (rfl)
@[simp] theorem Dev.setLat_bits (d : Dev) (k q v : Nat) : (d.setLat k q v).bits = d.bits := (rfl)
@[simp] theorem Dev.setLat_grants (d : Dev) (k q v : Nat) : (d.setLat k q v).grants = d.grants := (rfl)
@[simp] theorem Dev.setLat_raised (d : Dev) (k q v : Nat) : (d.setLat k q v).raised = d.raised := (rfl)
@[simp] theorem Dev.setLat_routeWas (d : Dev) (k q v : Nat) : (d.setLat k q v).routeWas = d.routeWas := (rfl)
@[simp] theorem Dev.setLat_rings (d : Dev) (k q v : Nat) : (d.setLat k q v).rings = d.rings := (rfl)
@[simp] theorem Dev.setLat_transit (d : Dev) (k q v : Nat) : (d.setLat k q v).transit = d.transit := (rfl)
@[simp] theorem Dev.setLat_chLast (d : Dev) (k q v : Nat) : (d.setLat k q v).chLast = d.chLast := (rfl)
@[simp] theorem Dev.setLat_pend (d : Dev) (k q v : Nat) : (d.setLat k q v).pend = d.pend := (rfl)
@[simp] theorem Dev.setLat_inLast (d : Dev) (k q v : Nat) : (d.setLat k q v).inLast = d.inLast := (rfl)
@[simp] theorem Dev.setLat_gateHist (d : Dev) (k q v : Nat) : (d.setLat k q v).gateHist = d.gateHist := (rfl)
@[simp] theorem Dev.setLat_cells (d : Dev) (k q v : Nat) : (d.setLat k q v).cells = d.cells := (rfl)
@[simp] theorem Dev.setLat_timers (d : Dev) (k q v : Nat) : (d.setLat k q v).timers = d.timers := (rfl)
@[simp] theorem Dev.setLat_go (d : Dev) (k q v : Nat) : (d.setLat k q v).go = d.go := (rfl)
@[simp] theorem Dev.setLat_pairs (d : Dev) (k q v : Nat) : (d.setLat k q v).pairs = d.pairs := (rfl)
@[simp] theorem Dev.setLat_lines (d : Dev) (k q v : Nat) : (d.setLat k q v).lines = d.lines := (rfl)
@[simp] theorem Dev.setLat_chans (d : Dev) (k q v : Nat) : (d.setLat k q v).chans = d.chans := (rfl)
@[simp] theorem Dev.setLat_sets (d : Dev) (k q v : Nat) : (d.setLat k q v).sets = d.sets := (rfl)
@[simp] theorem Dev.setLat_sdms (d : Dev) (k q v : Nat) : (d.setLat k q v).sdms = d.sdms := (rfl)
@[simp] theorem Dev.setLat_sdclks (d : Dev) (k q v : Nat) : (d.setLat k q v).sdclks = d.sdclks := (rfl)
@[simp] theorem Dev.setLat_rods (d : Dev) (k q v : Nat) : (d.setLat k q v).rods = d.rods := (rfl)
@[simp] theorem Dev.setLat_frames (d : Dev) (k q v : Nat) : (d.setLat k q v).frames = d.frames := (rfl)
@[simp] theorem Dev.setLat_presets (d : Dev) (k q v : Nat) : (d.setLat k q v).presets = d.presets := (rfl)
@[simp] theorem Dev.setLat_traces (d : Dev) (k q v : Nat) : (d.setLat k q v).traces = d.traces := (rfl)
@[simp] theorem Dev.setLat_fbks (d : Dev) (k q v : Nat) : (d.setLat k q v).fbks = d.fbks := (rfl)
@[simp] theorem Dev.setLat_beads (d : Dev) (k q v : Nat) : (d.setLat k q v).beads = d.beads := (rfl)
@[simp] theorem Dev.setLat_clasps (d : Dev) (k q v : Nat) : (d.setLat k q v).clasps = d.clasps := (rfl)
@[simp] theorem Dev.setLat_cores (d : Dev) (k q v : Nat) : (d.setLat k q v).cores = d.cores := (rfl)
@[simp] theorem Dev.setLat_icache (d : Dev) (k q v : Nat) : (d.setLat k q v).icache = d.icache := (rfl)
@[simp] theorem Dev.setLat_dcache (d : Dev) (k q v : Nat) : (d.setLat k q v).dcache = d.dcache := (rfl)
@[simp] theorem Dev.setLat_dma (d : Dev) (k q v : Nat) : (d.setLat k q v).dma = d.dma := (rfl)
@[simp] theorem Dev.setLat_dmaBusy (d : Dev) (k q v : Nat) : (d.setLat k q v).dmaBusy = d.dmaBusy := (rfl)
@[simp] theorem Dev.setLat_credits (d : Dev) (k q v : Nat) : (d.setLat k q v).credits = d.credits := (rfl)
@[simp] theorem Dev.setLat_losses (d : Dev) (k q v : Nat) : (d.setLat k q v).losses = d.losses := (rfl)
@[simp] theorem Dev.setLat_backoff (d : Dev) (k q v : Nat) : (d.setLat k q v).backoff = d.backoff := (rfl)
@[simp] theorem Dev.setLat_ledger (d : Dev) (k q v : Nat) : (d.setLat k q v).ledger = d.ledger := (rfl)
@[simp] theorem Dev.setLat_chozer (d : Dev) (k q v : Nat) : (d.setLat k q v).chozer = d.chozer := (rfl)
@[simp] theorem Dev.setLat_net (d : Dev) (k q v : Nat) : (d.setLat k q v).net = d.net := (rfl)
@[simp] theorem Dev.setLat_can (d : Dev) (k q v : Nat) : (d.setLat k q v).can = d.can := (rfl)
@[simp] theorem Dev.setLat_power (d : Dev) (k q v : Nat) : (d.setLat k q v).power = d.power := (rfl)
@[simp] theorem Dev.setLat_diag (d : Dev) (k q v : Nat) : (d.setLat k q v).diag = d.diag := (rfl)
@[simp] theorem Dev.setLat_scrubAt (d : Dev) (k q v : Nat) : (d.setLat k q v).scrubAt = d.scrubAt := (rfl)
@[simp] theorem Dev.freeNext_part (d : Dev) : (d.freeNext).part = d.part := (rfl)
@[simp] theorem Dev.freeNext_beam (d : Dev) : (d.freeNext).beam = d.beam := (rfl)
@[simp] theorem Dev.freeNext_stage (d : Dev) : (d.freeNext).stage = d.stage := (rfl)
@[simp] theorem Dev.freeNext_regs (d : Dev) : (d.freeNext).regs = d.regs := (rfl)
@[simp] theorem Dev.freeNext_mem (d : Dev) : (d.freeNext).mem = d.mem := (rfl)
@[simp] theorem Dev.freeNext_fresh (d : Dev) : (d.freeNext).fresh = d.fresh := (rfl)
@[simp] theorem Dev.freeNext_shadow (d : Dev) : (d.freeNext).shadow = d.shadow := (rfl)
@[simp] theorem Dev.freeNext_agenda (d : Dev) : (d.freeNext).agenda = d.agenda := (rfl)
@[simp] theorem Dev.freeNext_bus (d : Dev) : (d.freeNext).bus = d.bus := (rfl)
@[simp] theorem Dev.freeNext_latch (d : Dev) : (d.freeNext).latch = d.latch := (rfl)
@[simp] theorem Dev.freeNext_bits (d : Dev) : (d.freeNext).bits = d.bits := (rfl)
@[simp] theorem Dev.freeNext_grants (d : Dev) : (d.freeNext).grants = d.grants := (rfl)
@[simp] theorem Dev.freeNext_raised (d : Dev) : (d.freeNext).raised = d.raised := (rfl)
@[simp] theorem Dev.freeNext_routeWas (d : Dev) : (d.freeNext).routeWas = d.routeWas := (rfl)
@[simp] theorem Dev.freeNext_rings (d : Dev) : (d.freeNext).rings = d.rings := (rfl)
@[simp] theorem Dev.freeNext_transit (d : Dev) : (d.freeNext).transit = d.transit := (rfl)
@[simp] theorem Dev.freeNext_chLast (d : Dev) : (d.freeNext).chLast = d.chLast := (rfl)
@[simp] theorem Dev.freeNext_pend (d : Dev) : (d.freeNext).pend = d.pend := (rfl)
@[simp] theorem Dev.freeNext_inLast (d : Dev) : (d.freeNext).inLast = d.inLast := (rfl)
@[simp] theorem Dev.freeNext_gateHist (d : Dev) : (d.freeNext).gateHist = d.gateHist := (rfl)
@[simp] theorem Dev.freeNext_cells (d : Dev) : (d.freeNext).cells = d.cells := (rfl)
@[simp] theorem Dev.freeNext_timers (d : Dev) : (d.freeNext).timers = d.timers := (rfl)
@[simp] theorem Dev.freeNext_go (d : Dev) : (d.freeNext).go = d.go := (rfl)
@[simp] theorem Dev.freeNext_pairs (d : Dev) : (d.freeNext).pairs = d.pairs := (rfl)
@[simp] theorem Dev.freeNext_lines (d : Dev) : (d.freeNext).lines = d.lines := (rfl)
@[simp] theorem Dev.freeNext_chans (d : Dev) : (d.freeNext).chans = d.chans := (rfl)
@[simp] theorem Dev.freeNext_sets (d : Dev) : (d.freeNext).sets = d.sets := (rfl)
@[simp] theorem Dev.freeNext_sdms (d : Dev) : (d.freeNext).sdms = d.sdms := (rfl)
@[simp] theorem Dev.freeNext_sdclks (d : Dev) : (d.freeNext).sdclks = d.sdclks := (rfl)
@[simp] theorem Dev.freeNext_rods (d : Dev) : (d.freeNext).rods = d.rods := (rfl)
@[simp] theorem Dev.freeNext_frames (d : Dev) : (d.freeNext).frames = d.frames := (rfl)
@[simp] theorem Dev.freeNext_presets (d : Dev) : (d.freeNext).presets = d.presets := (rfl)
@[simp] theorem Dev.freeNext_traces (d : Dev) : (d.freeNext).traces = d.traces := (rfl)
@[simp] theorem Dev.freeNext_fbks (d : Dev) : (d.freeNext).fbks = d.fbks := (rfl)
@[simp] theorem Dev.freeNext_beads (d : Dev) : (d.freeNext).beads = d.beads := (rfl)
@[simp] theorem Dev.freeNext_clasps (d : Dev) : (d.freeNext).clasps = d.clasps := (rfl)
@[simp] theorem Dev.freeNext_cores (d : Dev) : (d.freeNext).cores = d.cores := (rfl)
@[simp] theorem Dev.freeNext_icache (d : Dev) : (d.freeNext).icache = d.icache := (rfl)
@[simp] theorem Dev.freeNext_dcache (d : Dev) : (d.freeNext).dcache = d.dcache := (rfl)
@[simp] theorem Dev.freeNext_dma (d : Dev) : (d.freeNext).dma = d.dma := (rfl)
@[simp] theorem Dev.freeNext_dmaBusy (d : Dev) : (d.freeNext).dmaBusy = d.dmaBusy := (rfl)
@[simp] theorem Dev.freeNext_credits (d : Dev) : (d.freeNext).credits = d.credits := (rfl)
@[simp] theorem Dev.freeNext_losses (d : Dev) : (d.freeNext).losses = d.losses := (rfl)
@[simp] theorem Dev.freeNext_backoff (d : Dev) : (d.freeNext).backoff = d.backoff := (rfl)
@[simp] theorem Dev.freeNext_ledger (d : Dev) : (d.freeNext).ledger = d.ledger := (rfl)
@[simp] theorem Dev.freeNext_chozer (d : Dev) : (d.freeNext).chozer = d.chozer := (rfl)
@[simp] theorem Dev.freeNext_net (d : Dev) : (d.freeNext).net = d.net := (rfl)
@[simp] theorem Dev.freeNext_can (d : Dev) : (d.freeNext).can = d.can := (rfl)
@[simp] theorem Dev.freeNext_power (d : Dev) : (d.freeNext).power = d.power := (rfl)
@[simp] theorem Dev.freeNext_diag (d : Dev) : (d.freeNext).diag = d.diag := (rfl)
@[simp] theorem Dev.freeNext_scrubAt (d : Dev) : (d.freeNext).scrubAt = d.scrubAt := (rfl)
@[simp] theorem Dev.resp_part (d : Dev) (q : Nat) (v : Word) (e : BErr) : (d.resp q v e).part = d.part := (rfl)
@[simp] theorem Dev.resp_beam (d : Dev) (q : Nat) (v : Word) (e : BErr) : (d.resp q v e).beam = d.beam := (rfl)
@[simp] theorem Dev.resp_stage (d : Dev) (q : Nat) (v : Word) (e : BErr) : (d.resp q v e).stage = d.stage := (rfl)
@[simp] theorem Dev.resp_free (d : Dev) (q : Nat) (v : Word) (e : BErr) : (d.resp q v e).free = d.free := (rfl)
@[simp] theorem Dev.resp_regs (d : Dev) (q : Nat) (v : Word) (e : BErr) : (d.resp q v e).regs = d.regs := (rfl)
@[simp] theorem Dev.resp_mem (d : Dev) (q : Nat) (v : Word) (e : BErr) : (d.resp q v e).mem = d.mem := (rfl)
@[simp] theorem Dev.resp_fresh (d : Dev) (q : Nat) (v : Word) (e : BErr) : (d.resp q v e).fresh = d.fresh := (rfl)
@[simp] theorem Dev.resp_shadow (d : Dev) (q : Nat) (v : Word) (e : BErr) : (d.resp q v e).shadow = d.shadow := (rfl)
@[simp] theorem Dev.resp_agenda (d : Dev) (q : Nat) (v : Word) (e : BErr) : (d.resp q v e).agenda = d.agenda := (rfl)
@[simp] theorem Dev.resp_latch (d : Dev) (q : Nat) (v : Word) (e : BErr) : (d.resp q v e).latch = d.latch := (rfl)
@[simp] theorem Dev.resp_bits (d : Dev) (q : Nat) (v : Word) (e : BErr) : (d.resp q v e).bits = d.bits := (rfl)
@[simp] theorem Dev.resp_grants (d : Dev) (q : Nat) (v : Word) (e : BErr) : (d.resp q v e).grants = d.grants := (rfl)
@[simp] theorem Dev.resp_raised (d : Dev) (q : Nat) (v : Word) (e : BErr) : (d.resp q v e).raised = d.raised := (rfl)
@[simp] theorem Dev.resp_routeWas (d : Dev) (q : Nat) (v : Word) (e : BErr) : (d.resp q v e).routeWas = d.routeWas := (rfl)
@[simp] theorem Dev.resp_rings (d : Dev) (q : Nat) (v : Word) (e : BErr) : (d.resp q v e).rings = d.rings := (rfl)
@[simp] theorem Dev.resp_transit (d : Dev) (q : Nat) (v : Word) (e : BErr) : (d.resp q v e).transit = d.transit := (rfl)
@[simp] theorem Dev.resp_chLast (d : Dev) (q : Nat) (v : Word) (e : BErr) : (d.resp q v e).chLast = d.chLast := (rfl)
@[simp] theorem Dev.resp_pend (d : Dev) (q : Nat) (v : Word) (e : BErr) : (d.resp q v e).pend = d.pend := (rfl)
@[simp] theorem Dev.resp_inLast (d : Dev) (q : Nat) (v : Word) (e : BErr) : (d.resp q v e).inLast = d.inLast := (rfl)
@[simp] theorem Dev.resp_gateHist (d : Dev) (q : Nat) (v : Word) (e : BErr) : (d.resp q v e).gateHist = d.gateHist := (rfl)
@[simp] theorem Dev.resp_cells (d : Dev) (q : Nat) (v : Word) (e : BErr) : (d.resp q v e).cells = d.cells := (rfl)
@[simp] theorem Dev.resp_timers (d : Dev) (q : Nat) (v : Word) (e : BErr) : (d.resp q v e).timers = d.timers := (rfl)
@[simp] theorem Dev.resp_go (d : Dev) (q : Nat) (v : Word) (e : BErr) : (d.resp q v e).go = d.go := (rfl)
@[simp] theorem Dev.resp_pairs (d : Dev) (q : Nat) (v : Word) (e : BErr) : (d.resp q v e).pairs = d.pairs := (rfl)
@[simp] theorem Dev.resp_lines (d : Dev) (q : Nat) (v : Word) (e : BErr) : (d.resp q v e).lines = d.lines := (rfl)
@[simp] theorem Dev.resp_chans (d : Dev) (q : Nat) (v : Word) (e : BErr) : (d.resp q v e).chans = d.chans := (rfl)
@[simp] theorem Dev.resp_sets (d : Dev) (q : Nat) (v : Word) (e : BErr) : (d.resp q v e).sets = d.sets := (rfl)
@[simp] theorem Dev.resp_sdms (d : Dev) (q : Nat) (v : Word) (e : BErr) : (d.resp q v e).sdms = d.sdms := (rfl)
@[simp] theorem Dev.resp_sdclks (d : Dev) (q : Nat) (v : Word) (e : BErr) : (d.resp q v e).sdclks = d.sdclks := (rfl)
@[simp] theorem Dev.resp_rods (d : Dev) (q : Nat) (v : Word) (e : BErr) : (d.resp q v e).rods = d.rods := (rfl)
@[simp] theorem Dev.resp_frames (d : Dev) (q : Nat) (v : Word) (e : BErr) : (d.resp q v e).frames = d.frames := (rfl)
@[simp] theorem Dev.resp_presets (d : Dev) (q : Nat) (v : Word) (e : BErr) : (d.resp q v e).presets = d.presets := (rfl)
@[simp] theorem Dev.resp_traces (d : Dev) (q : Nat) (v : Word) (e : BErr) : (d.resp q v e).traces = d.traces := (rfl)
@[simp] theorem Dev.resp_fbks (d : Dev) (q : Nat) (v : Word) (e : BErr) : (d.resp q v e).fbks = d.fbks := (rfl)
@[simp] theorem Dev.resp_beads (d : Dev) (q : Nat) (v : Word) (e : BErr) : (d.resp q v e).beads = d.beads := (rfl)
@[simp] theorem Dev.resp_clasps (d : Dev) (q : Nat) (v : Word) (e : BErr) : (d.resp q v e).clasps = d.clasps := (rfl)
@[simp] theorem Dev.resp_cores (d : Dev) (q : Nat) (v : Word) (e : BErr) : (d.resp q v e).cores = d.cores := (rfl)
@[simp] theorem Dev.resp_icache (d : Dev) (q : Nat) (v : Word) (e : BErr) : (d.resp q v e).icache = d.icache := (rfl)
@[simp] theorem Dev.resp_dcache (d : Dev) (q : Nat) (v : Word) (e : BErr) : (d.resp q v e).dcache = d.dcache := (rfl)
@[simp] theorem Dev.resp_dma (d : Dev) (q : Nat) (v : Word) (e : BErr) : (d.resp q v e).dma = d.dma := (rfl)
@[simp] theorem Dev.resp_dmaBusy (d : Dev) (q : Nat) (v : Word) (e : BErr) : (d.resp q v e).dmaBusy = d.dmaBusy := (rfl)
@[simp] theorem Dev.resp_credits (d : Dev) (q : Nat) (v : Word) (e : BErr) : (d.resp q v e).credits = d.credits := (rfl)
@[simp] theorem Dev.resp_losses (d : Dev) (q : Nat) (v : Word) (e : BErr) : (d.resp q v e).losses = d.losses := (rfl)
@[simp] theorem Dev.resp_backoff (d : Dev) (q : Nat) (v : Word) (e : BErr) : (d.resp q v e).backoff = d.backoff := (rfl)
@[simp] theorem Dev.resp_ledger (d : Dev) (q : Nat) (v : Word) (e : BErr) : (d.resp q v e).ledger = d.ledger := (rfl)
@[simp] theorem Dev.resp_chozer (d : Dev) (q : Nat) (v : Word) (e : BErr) : (d.resp q v e).chozer = d.chozer := (rfl)
@[simp] theorem Dev.resp_net (d : Dev) (q : Nat) (v : Word) (e : BErr) : (d.resp q v e).net = d.net := (rfl)
@[simp] theorem Dev.resp_can (d : Dev) (q : Nat) (v : Word) (e : BErr) : (d.resp q v e).can = d.can := (rfl)
@[simp] theorem Dev.resp_power (d : Dev) (q : Nat) (v : Word) (e : BErr) : (d.resp q v e).power = d.power := (rfl)
@[simp] theorem Dev.resp_diag (d : Dev) (q : Nat) (v : Word) (e : BErr) : (d.resp q v e).diag = d.diag := (rfl)
@[simp] theorem Dev.resp_scrubAt (d : Dev) (q : Nat) (v : Word) (e : BErr) : (d.resp q v e).scrubAt = d.scrubAt := (rfl)
@[simp] theorem Dev.putByte_part (d : Dev) (a : Nat) (v : Byte) : (d.putByte a v).part = d.part := (rfl)
@[simp] theorem Dev.putByte_beam (d : Dev) (a : Nat) (v : Byte) : (d.putByte a v).beam = d.beam := (rfl)
@[simp] theorem Dev.putByte_stage (d : Dev) (a : Nat) (v : Byte) : (d.putByte a v).stage = d.stage := (rfl)
@[simp] theorem Dev.putByte_free (d : Dev) (a : Nat) (v : Byte) : (d.putByte a v).free = d.free := (rfl)
@[simp] theorem Dev.putByte_regs (d : Dev) (a : Nat) (v : Byte) : (d.putByte a v).regs = d.regs := (rfl)
@[simp] theorem Dev.putByte_fresh (d : Dev) (a : Nat) (v : Byte) : (d.putByte a v).fresh = d.fresh := (rfl)
@[simp] theorem Dev.putByte_shadow (d : Dev) (a : Nat) (v : Byte) : (d.putByte a v).shadow = d.shadow := (rfl)
@[simp] theorem Dev.putByte_agenda (d : Dev) (a : Nat) (v : Byte) : (d.putByte a v).agenda = d.agenda := (rfl)
@[simp] theorem Dev.putByte_bus (d : Dev) (a : Nat) (v : Byte) : (d.putByte a v).bus = d.bus := (rfl)
@[simp] theorem Dev.putByte_latch (d : Dev) (a : Nat) (v : Byte) : (d.putByte a v).latch = d.latch := (rfl)
@[simp] theorem Dev.putByte_bits (d : Dev) (a : Nat) (v : Byte) : (d.putByte a v).bits = d.bits := (rfl)
@[simp] theorem Dev.putByte_grants (d : Dev) (a : Nat) (v : Byte) : (d.putByte a v).grants = d.grants := (rfl)
@[simp] theorem Dev.putByte_raised (d : Dev) (a : Nat) (v : Byte) : (d.putByte a v).raised = d.raised := (rfl)
@[simp] theorem Dev.putByte_routeWas (d : Dev) (a : Nat) (v : Byte) : (d.putByte a v).routeWas = d.routeWas := (rfl)
@[simp] theorem Dev.putByte_rings (d : Dev) (a : Nat) (v : Byte) : (d.putByte a v).rings = d.rings := (rfl)
@[simp] theorem Dev.putByte_transit (d : Dev) (a : Nat) (v : Byte) : (d.putByte a v).transit = d.transit := (rfl)
@[simp] theorem Dev.putByte_chLast (d : Dev) (a : Nat) (v : Byte) : (d.putByte a v).chLast = d.chLast := (rfl)
@[simp] theorem Dev.putByte_pend (d : Dev) (a : Nat) (v : Byte) : (d.putByte a v).pend = d.pend := (rfl)
@[simp] theorem Dev.putByte_inLast (d : Dev) (a : Nat) (v : Byte) : (d.putByte a v).inLast = d.inLast := (rfl)
@[simp] theorem Dev.putByte_gateHist (d : Dev) (a : Nat) (v : Byte) : (d.putByte a v).gateHist = d.gateHist := (rfl)
@[simp] theorem Dev.putByte_cells (d : Dev) (a : Nat) (v : Byte) : (d.putByte a v).cells = d.cells := (rfl)
@[simp] theorem Dev.putByte_timers (d : Dev) (a : Nat) (v : Byte) : (d.putByte a v).timers = d.timers := (rfl)
@[simp] theorem Dev.putByte_go (d : Dev) (a : Nat) (v : Byte) : (d.putByte a v).go = d.go := (rfl)
@[simp] theorem Dev.putByte_pairs (d : Dev) (a : Nat) (v : Byte) : (d.putByte a v).pairs = d.pairs := (rfl)
@[simp] theorem Dev.putByte_lines (d : Dev) (a : Nat) (v : Byte) : (d.putByte a v).lines = d.lines := (rfl)
@[simp] theorem Dev.putByte_chans (d : Dev) (a : Nat) (v : Byte) : (d.putByte a v).chans = d.chans := (rfl)
@[simp] theorem Dev.putByte_sets (d : Dev) (a : Nat) (v : Byte) : (d.putByte a v).sets = d.sets := (rfl)
@[simp] theorem Dev.putByte_sdms (d : Dev) (a : Nat) (v : Byte) : (d.putByte a v).sdms = d.sdms := (rfl)
@[simp] theorem Dev.putByte_sdclks (d : Dev) (a : Nat) (v : Byte) : (d.putByte a v).sdclks = d.sdclks := (rfl)
@[simp] theorem Dev.putByte_rods (d : Dev) (a : Nat) (v : Byte) : (d.putByte a v).rods = d.rods := (rfl)
@[simp] theorem Dev.putByte_frames (d : Dev) (a : Nat) (v : Byte) : (d.putByte a v).frames = d.frames := (rfl)
@[simp] theorem Dev.putByte_presets (d : Dev) (a : Nat) (v : Byte) : (d.putByte a v).presets = d.presets := (rfl)
@[simp] theorem Dev.putByte_traces (d : Dev) (a : Nat) (v : Byte) : (d.putByte a v).traces = d.traces := (rfl)
@[simp] theorem Dev.putByte_fbks (d : Dev) (a : Nat) (v : Byte) : (d.putByte a v).fbks = d.fbks := (rfl)
@[simp] theorem Dev.putByte_beads (d : Dev) (a : Nat) (v : Byte) : (d.putByte a v).beads = d.beads := (rfl)
@[simp] theorem Dev.putByte_clasps (d : Dev) (a : Nat) (v : Byte) : (d.putByte a v).clasps = d.clasps := (rfl)
@[simp] theorem Dev.putByte_cores (d : Dev) (a : Nat) (v : Byte) : (d.putByte a v).cores = d.cores := (rfl)
@[simp] theorem Dev.putByte_icache (d : Dev) (a : Nat) (v : Byte) : (d.putByte a v).icache = d.icache := (rfl)
@[simp] theorem Dev.putByte_dcache (d : Dev) (a : Nat) (v : Byte) : (d.putByte a v).dcache = d.dcache := (rfl)
@[simp] theorem Dev.putByte_dma (d : Dev) (a : Nat) (v : Byte) : (d.putByte a v).dma = d.dma := (rfl)
@[simp] theorem Dev.putByte_dmaBusy (d : Dev) (a : Nat) (v : Byte) : (d.putByte a v).dmaBusy = d.dmaBusy := (rfl)
@[simp] theorem Dev.putByte_credits (d : Dev) (a : Nat) (v : Byte) : (d.putByte a v).credits = d.credits := (rfl)
@[simp] theorem Dev.putByte_losses (d : Dev) (a : Nat) (v : Byte) : (d.putByte a v).losses = d.losses := (rfl)
@[simp] theorem Dev.putByte_backoff (d : Dev) (a : Nat) (v : Byte) : (d.putByte a v).backoff = d.backoff := (rfl)
@[simp] theorem Dev.putByte_ledger (d : Dev) (a : Nat) (v : Byte) : (d.putByte a v).ledger = d.ledger := (rfl)
@[simp] theorem Dev.putByte_chozer (d : Dev) (a : Nat) (v : Byte) : (d.putByte a v).chozer = d.chozer := (rfl)
@[simp] theorem Dev.putByte_net (d : Dev) (a : Nat) (v : Byte) : (d.putByte a v).net = d.net := (rfl)
@[simp] theorem Dev.putByte_can (d : Dev) (a : Nat) (v : Byte) : (d.putByte a v).can = d.can := (rfl)
@[simp] theorem Dev.putByte_power (d : Dev) (a : Nat) (v : Byte) : (d.putByte a v).power = d.power := (rfl)
@[simp] theorem Dev.putByte_diag (d : Dev) (a : Nat) (v : Byte) : (d.putByte a v).diag = d.diag := (rfl)
@[simp] theorem Dev.putByte_scrubAt (d : Dev) (a : Nat) (v : Byte) : (d.putByte a v).scrubAt = d.scrubAt := (rfl)
@[simp] theorem Dev.clearMem_part (d : Dev) (lo hi : Nat) : (d.clearMem lo hi).part = d.part := (rfl)
@[simp] theorem Dev.clearMem_beam (d : Dev) (lo hi : Nat) : (d.clearMem lo hi).beam = d.beam := (rfl)
@[simp] theorem Dev.clearMem_stage (d : Dev) (lo hi : Nat) : (d.clearMem lo hi).stage = d.stage := (rfl)
@[simp] theorem Dev.clearMem_free (d : Dev) (lo hi : Nat) : (d.clearMem lo hi).free = d.free := (rfl)
@[simp] theorem Dev.clearMem_regs (d : Dev) (lo hi : Nat) : (d.clearMem lo hi).regs = d.regs := (rfl)
@[simp] theorem Dev.clearMem_fresh (d : Dev) (lo hi : Nat) : (d.clearMem lo hi).fresh = d.fresh := (rfl)
@[simp] theorem Dev.clearMem_shadow (d : Dev) (lo hi : Nat) : (d.clearMem lo hi).shadow = d.shadow := (rfl)
@[simp] theorem Dev.clearMem_agenda (d : Dev) (lo hi : Nat) : (d.clearMem lo hi).agenda = d.agenda := (rfl)
@[simp] theorem Dev.clearMem_bus (d : Dev) (lo hi : Nat) : (d.clearMem lo hi).bus = d.bus := (rfl)
@[simp] theorem Dev.clearMem_latch (d : Dev) (lo hi : Nat) : (d.clearMem lo hi).latch = d.latch := (rfl)
@[simp] theorem Dev.clearMem_bits (d : Dev) (lo hi : Nat) : (d.clearMem lo hi).bits = d.bits := (rfl)
@[simp] theorem Dev.clearMem_grants (d : Dev) (lo hi : Nat) : (d.clearMem lo hi).grants = d.grants := (rfl)
@[simp] theorem Dev.clearMem_raised (d : Dev) (lo hi : Nat) : (d.clearMem lo hi).raised = d.raised := (rfl)
@[simp] theorem Dev.clearMem_routeWas (d : Dev) (lo hi : Nat) : (d.clearMem lo hi).routeWas = d.routeWas := (rfl)
@[simp] theorem Dev.clearMem_rings (d : Dev) (lo hi : Nat) : (d.clearMem lo hi).rings = d.rings := (rfl)
@[simp] theorem Dev.clearMem_transit (d : Dev) (lo hi : Nat) : (d.clearMem lo hi).transit = d.transit := (rfl)
@[simp] theorem Dev.clearMem_chLast (d : Dev) (lo hi : Nat) : (d.clearMem lo hi).chLast = d.chLast := (rfl)
@[simp] theorem Dev.clearMem_pend (d : Dev) (lo hi : Nat) : (d.clearMem lo hi).pend = d.pend := (rfl)
@[simp] theorem Dev.clearMem_inLast (d : Dev) (lo hi : Nat) : (d.clearMem lo hi).inLast = d.inLast := (rfl)
@[simp] theorem Dev.clearMem_gateHist (d : Dev) (lo hi : Nat) : (d.clearMem lo hi).gateHist = d.gateHist := (rfl)
@[simp] theorem Dev.clearMem_cells (d : Dev) (lo hi : Nat) : (d.clearMem lo hi).cells = d.cells := (rfl)
@[simp] theorem Dev.clearMem_timers (d : Dev) (lo hi : Nat) : (d.clearMem lo hi).timers = d.timers := (rfl)
@[simp] theorem Dev.clearMem_go (d : Dev) (lo hi : Nat) : (d.clearMem lo hi).go = d.go := (rfl)
@[simp] theorem Dev.clearMem_pairs (d : Dev) (lo hi : Nat) : (d.clearMem lo hi).pairs = d.pairs := (rfl)
@[simp] theorem Dev.clearMem_lines (d : Dev) (lo hi : Nat) : (d.clearMem lo hi).lines = d.lines := (rfl)
@[simp] theorem Dev.clearMem_chans (d : Dev) (lo hi : Nat) : (d.clearMem lo hi).chans = d.chans := (rfl)
@[simp] theorem Dev.clearMem_sets (d : Dev) (lo hi : Nat) : (d.clearMem lo hi).sets = d.sets := (rfl)
@[simp] theorem Dev.clearMem_sdms (d : Dev) (lo hi : Nat) : (d.clearMem lo hi).sdms = d.sdms := (rfl)
@[simp] theorem Dev.clearMem_sdclks (d : Dev) (lo hi : Nat) : (d.clearMem lo hi).sdclks = d.sdclks := (rfl)
@[simp] theorem Dev.clearMem_rods (d : Dev) (lo hi : Nat) : (d.clearMem lo hi).rods = d.rods := (rfl)
@[simp] theorem Dev.clearMem_frames (d : Dev) (lo hi : Nat) : (d.clearMem lo hi).frames = d.frames := (rfl)
@[simp] theorem Dev.clearMem_presets (d : Dev) (lo hi : Nat) : (d.clearMem lo hi).presets = d.presets := (rfl)
@[simp] theorem Dev.clearMem_traces (d : Dev) (lo hi : Nat) : (d.clearMem lo hi).traces = d.traces := (rfl)
@[simp] theorem Dev.clearMem_fbks (d : Dev) (lo hi : Nat) : (d.clearMem lo hi).fbks = d.fbks := (rfl)
@[simp] theorem Dev.clearMem_beads (d : Dev) (lo hi : Nat) : (d.clearMem lo hi).beads = d.beads := (rfl)
@[simp] theorem Dev.clearMem_clasps (d : Dev) (lo hi : Nat) : (d.clearMem lo hi).clasps = d.clasps := (rfl)
@[simp] theorem Dev.clearMem_cores (d : Dev) (lo hi : Nat) : (d.clearMem lo hi).cores = d.cores := (rfl)
@[simp] theorem Dev.clearMem_icache (d : Dev) (lo hi : Nat) : (d.clearMem lo hi).icache = d.icache := (rfl)
@[simp] theorem Dev.clearMem_dcache (d : Dev) (lo hi : Nat) : (d.clearMem lo hi).dcache = d.dcache := (rfl)
@[simp] theorem Dev.clearMem_dma (d : Dev) (lo hi : Nat) : (d.clearMem lo hi).dma = d.dma := (rfl)
@[simp] theorem Dev.clearMem_dmaBusy (d : Dev) (lo hi : Nat) : (d.clearMem lo hi).dmaBusy = d.dmaBusy := (rfl)
@[simp] theorem Dev.clearMem_credits (d : Dev) (lo hi : Nat) : (d.clearMem lo hi).credits = d.credits := (rfl)
@[simp] theorem Dev.clearMem_losses (d : Dev) (lo hi : Nat) : (d.clearMem lo hi).losses = d.losses := (rfl)
@[simp] theorem Dev.clearMem_backoff (d : Dev) (lo hi : Nat) : (d.clearMem lo hi).backoff = d.backoff := (rfl)
@[simp] theorem Dev.clearMem_ledger (d : Dev) (lo hi : Nat) : (d.clearMem lo hi).ledger = d.ledger := (rfl)
@[simp] theorem Dev.clearMem_chozer (d : Dev) (lo hi : Nat) : (d.clearMem lo hi).chozer = d.chozer := (rfl)
@[simp] theorem Dev.clearMem_net (d : Dev) (lo hi : Nat) : (d.clearMem lo hi).net = d.net := (rfl)
@[simp] theorem Dev.clearMem_can (d : Dev) (lo hi : Nat) : (d.clearMem lo hi).can = d.can := (rfl)
@[simp] theorem Dev.clearMem_power (d : Dev) (lo hi : Nat) : (d.clearMem lo hi).power = d.power := (rfl)
@[simp] theorem Dev.clearMem_diag (d : Dev) (lo hi : Nat) : (d.clearMem lo hi).diag = d.diag := (rfl)
@[simp] theorem Dev.clearMem_scrubAt (d : Dev) (lo hi : Nat) : (d.clearMem lo hi).scrubAt = d.scrubAt := (rfl)
@[simp] theorem Dev.pushShadow_part (d : Dev) (a mask v tick : Nat) : (d.pushShadow a mask v tick).part = d.part := (rfl)
@[simp] theorem Dev.pushShadow_beam (d : Dev) (a mask v tick : Nat) : (d.pushShadow a mask v tick).beam = d.beam := (rfl)
@[simp] theorem Dev.pushShadow_stage (d : Dev) (a mask v tick : Nat) : (d.pushShadow a mask v tick).stage = d.stage := (rfl)
@[simp] theorem Dev.pushShadow_free (d : Dev) (a mask v tick : Nat) : (d.pushShadow a mask v tick).free = d.free := (rfl)
@[simp] theorem Dev.pushShadow_regs (d : Dev) (a mask v tick : Nat) : (d.pushShadow a mask v tick).regs = d.regs := (rfl)
@[simp] theorem Dev.pushShadow_mem (d : Dev) (a mask v tick : Nat) : (d.pushShadow a mask v tick).mem = d.mem := (rfl)
@[simp] theorem Dev.pushShadow_fresh (d : Dev) (a mask v tick : Nat) : (d.pushShadow a mask v tick).fresh = d.fresh := (rfl)
@[simp] theorem Dev.pushShadow_agenda (d : Dev) (a mask v tick : Nat) : (d.pushShadow a mask v tick).agenda = d.agenda := (rfl)
@[simp] theorem Dev.pushShadow_bus (d : Dev) (a mask v tick : Nat) : (d.pushShadow a mask v tick).bus = d.bus := (rfl)
@[simp] theorem Dev.pushShadow_latch (d : Dev) (a mask v tick : Nat) : (d.pushShadow a mask v tick).latch = d.latch := (rfl)
@[simp] theorem Dev.pushShadow_bits (d : Dev) (a mask v tick : Nat) : (d.pushShadow a mask v tick).bits = d.bits := (rfl)
@[simp] theorem Dev.pushShadow_grants (d : Dev) (a mask v tick : Nat) : (d.pushShadow a mask v tick).grants = d.grants := (rfl)
@[simp] theorem Dev.pushShadow_raised (d : Dev) (a mask v tick : Nat) : (d.pushShadow a mask v tick).raised = d.raised := (rfl)
@[simp] theorem Dev.pushShadow_routeWas (d : Dev) (a mask v tick : Nat) : (d.pushShadow a mask v tick).routeWas = d.routeWas := (rfl)
@[simp] theorem Dev.pushShadow_rings (d : Dev) (a mask v tick : Nat) : (d.pushShadow a mask v tick).rings = d.rings := (rfl)
@[simp] theorem Dev.pushShadow_transit (d : Dev) (a mask v tick : Nat) : (d.pushShadow a mask v tick).transit = d.transit := (rfl)
@[simp] theorem Dev.pushShadow_chLast (d : Dev) (a mask v tick : Nat) : (d.pushShadow a mask v tick).chLast = d.chLast := (rfl)
@[simp] theorem Dev.pushShadow_pend (d : Dev) (a mask v tick : Nat) : (d.pushShadow a mask v tick).pend = d.pend := (rfl)
@[simp] theorem Dev.pushShadow_inLast (d : Dev) (a mask v tick : Nat) : (d.pushShadow a mask v tick).inLast = d.inLast := (rfl)
@[simp] theorem Dev.pushShadow_gateHist (d : Dev) (a mask v tick : Nat) : (d.pushShadow a mask v tick).gateHist = d.gateHist := (rfl)
@[simp] theorem Dev.pushShadow_cells (d : Dev) (a mask v tick : Nat) : (d.pushShadow a mask v tick).cells = d.cells := (rfl)
@[simp] theorem Dev.pushShadow_timers (d : Dev) (a mask v tick : Nat) : (d.pushShadow a mask v tick).timers = d.timers := (rfl)
@[simp] theorem Dev.pushShadow_go (d : Dev) (a mask v tick : Nat) : (d.pushShadow a mask v tick).go = d.go := (rfl)
@[simp] theorem Dev.pushShadow_pairs (d : Dev) (a mask v tick : Nat) : (d.pushShadow a mask v tick).pairs = d.pairs := (rfl)
@[simp] theorem Dev.pushShadow_lines (d : Dev) (a mask v tick : Nat) : (d.pushShadow a mask v tick).lines = d.lines := (rfl)
@[simp] theorem Dev.pushShadow_chans (d : Dev) (a mask v tick : Nat) : (d.pushShadow a mask v tick).chans = d.chans := (rfl)
@[simp] theorem Dev.pushShadow_sets (d : Dev) (a mask v tick : Nat) : (d.pushShadow a mask v tick).sets = d.sets := (rfl)
@[simp] theorem Dev.pushShadow_sdms (d : Dev) (a mask v tick : Nat) : (d.pushShadow a mask v tick).sdms = d.sdms := (rfl)
@[simp] theorem Dev.pushShadow_sdclks (d : Dev) (a mask v tick : Nat) : (d.pushShadow a mask v tick).sdclks = d.sdclks := (rfl)
@[simp] theorem Dev.pushShadow_rods (d : Dev) (a mask v tick : Nat) : (d.pushShadow a mask v tick).rods = d.rods := (rfl)
@[simp] theorem Dev.pushShadow_frames (d : Dev) (a mask v tick : Nat) : (d.pushShadow a mask v tick).frames = d.frames := (rfl)
@[simp] theorem Dev.pushShadow_presets (d : Dev) (a mask v tick : Nat) : (d.pushShadow a mask v tick).presets = d.presets := (rfl)
@[simp] theorem Dev.pushShadow_traces (d : Dev) (a mask v tick : Nat) : (d.pushShadow a mask v tick).traces = d.traces := (rfl)
@[simp] theorem Dev.pushShadow_fbks (d : Dev) (a mask v tick : Nat) : (d.pushShadow a mask v tick).fbks = d.fbks := (rfl)
@[simp] theorem Dev.pushShadow_beads (d : Dev) (a mask v tick : Nat) : (d.pushShadow a mask v tick).beads = d.beads := (rfl)
@[simp] theorem Dev.pushShadow_clasps (d : Dev) (a mask v tick : Nat) : (d.pushShadow a mask v tick).clasps = d.clasps := (rfl)
@[simp] theorem Dev.pushShadow_cores (d : Dev) (a mask v tick : Nat) : (d.pushShadow a mask v tick).cores = d.cores := (rfl)
@[simp] theorem Dev.pushShadow_icache (d : Dev) (a mask v tick : Nat) : (d.pushShadow a mask v tick).icache = d.icache := (rfl)
@[simp] theorem Dev.pushShadow_dcache (d : Dev) (a mask v tick : Nat) : (d.pushShadow a mask v tick).dcache = d.dcache := (rfl)
@[simp] theorem Dev.pushShadow_dma (d : Dev) (a mask v tick : Nat) : (d.pushShadow a mask v tick).dma = d.dma := (rfl)
@[simp] theorem Dev.pushShadow_dmaBusy (d : Dev) (a mask v tick : Nat) : (d.pushShadow a mask v tick).dmaBusy = d.dmaBusy := (rfl)
@[simp] theorem Dev.pushShadow_credits (d : Dev) (a mask v tick : Nat) : (d.pushShadow a mask v tick).credits = d.credits := (rfl)
@[simp] theorem Dev.pushShadow_losses (d : Dev) (a mask v tick : Nat) : (d.pushShadow a mask v tick).losses = d.losses := (rfl)
@[simp] theorem Dev.pushShadow_backoff (d : Dev) (a mask v tick : Nat) : (d.pushShadow a mask v tick).backoff = d.backoff := (rfl)
@[simp] theorem Dev.pushShadow_ledger (d : Dev) (a mask v tick : Nat) : (d.pushShadow a mask v tick).ledger = d.ledger := (rfl)
@[simp] theorem Dev.pushShadow_chozer (d : Dev) (a mask v tick : Nat) : (d.pushShadow a mask v tick).chozer = d.chozer := (rfl)
@[simp] theorem Dev.pushShadow_net (d : Dev) (a mask v tick : Nat) : (d.pushShadow a mask v tick).net = d.net := (rfl)
@[simp] theorem Dev.pushShadow_can (d : Dev) (a mask v tick : Nat) : (d.pushShadow a mask v tick).can = d.can := (rfl)
@[simp] theorem Dev.pushShadow_power (d : Dev) (a mask v tick : Nat) : (d.pushShadow a mask v tick).power = d.power := (rfl)
@[simp] theorem Dev.pushShadow_diag (d : Dev) (a mask v tick : Nat) : (d.pushShadow a mask v tick).diag = d.diag := (rfl)
@[simp] theorem Dev.pushShadow_scrubAt (d : Dev) (a mask v tick : Nat) : (d.pushShadow a mask v tick).scrubAt = d.scrubAt := (rfl)
@[simp] theorem Dev.dropShadow_part (d : Dev) (sel : Shadow → Bool) : (d.dropShadow sel).part = d.part := (rfl)
@[simp] theorem Dev.dropShadow_beam (d : Dev) (sel : Shadow → Bool) : (d.dropShadow sel).beam = d.beam := (rfl)
@[simp] theorem Dev.dropShadow_stage (d : Dev) (sel : Shadow → Bool) : (d.dropShadow sel).stage = d.stage := (rfl)
@[simp] theorem Dev.dropShadow_free (d : Dev) (sel : Shadow → Bool) : (d.dropShadow sel).free = d.free := (rfl)
@[simp] theorem Dev.dropShadow_regs (d : Dev) (sel : Shadow → Bool) : (d.dropShadow sel).regs = d.regs := (rfl)
@[simp] theorem Dev.dropShadow_mem (d : Dev) (sel : Shadow → Bool) : (d.dropShadow sel).mem = d.mem := (rfl)
@[simp] theorem Dev.dropShadow_fresh (d : Dev) (sel : Shadow → Bool) : (d.dropShadow sel).fresh = d.fresh := (rfl)
@[simp] theorem Dev.dropShadow_agenda (d : Dev) (sel : Shadow → Bool) : (d.dropShadow sel).agenda = d.agenda := (rfl)
@[simp] theorem Dev.dropShadow_bus (d : Dev) (sel : Shadow → Bool) : (d.dropShadow sel).bus = d.bus := (rfl)
@[simp] theorem Dev.dropShadow_latch (d : Dev) (sel : Shadow → Bool) : (d.dropShadow sel).latch = d.latch := (rfl)
@[simp] theorem Dev.dropShadow_bits (d : Dev) (sel : Shadow → Bool) : (d.dropShadow sel).bits = d.bits := (rfl)
@[simp] theorem Dev.dropShadow_grants (d : Dev) (sel : Shadow → Bool) : (d.dropShadow sel).grants = d.grants := (rfl)
@[simp] theorem Dev.dropShadow_raised (d : Dev) (sel : Shadow → Bool) : (d.dropShadow sel).raised = d.raised := (rfl)
@[simp] theorem Dev.dropShadow_routeWas (d : Dev) (sel : Shadow → Bool) : (d.dropShadow sel).routeWas = d.routeWas := (rfl)
@[simp] theorem Dev.dropShadow_rings (d : Dev) (sel : Shadow → Bool) : (d.dropShadow sel).rings = d.rings := (rfl)
@[simp] theorem Dev.dropShadow_transit (d : Dev) (sel : Shadow → Bool) : (d.dropShadow sel).transit = d.transit := (rfl)
@[simp] theorem Dev.dropShadow_chLast (d : Dev) (sel : Shadow → Bool) : (d.dropShadow sel).chLast = d.chLast := (rfl)
@[simp] theorem Dev.dropShadow_pend (d : Dev) (sel : Shadow → Bool) : (d.dropShadow sel).pend = d.pend := (rfl)
@[simp] theorem Dev.dropShadow_inLast (d : Dev) (sel : Shadow → Bool) : (d.dropShadow sel).inLast = d.inLast := (rfl)
@[simp] theorem Dev.dropShadow_gateHist (d : Dev) (sel : Shadow → Bool) : (d.dropShadow sel).gateHist = d.gateHist := (rfl)
@[simp] theorem Dev.dropShadow_cells (d : Dev) (sel : Shadow → Bool) : (d.dropShadow sel).cells = d.cells := (rfl)
@[simp] theorem Dev.dropShadow_timers (d : Dev) (sel : Shadow → Bool) : (d.dropShadow sel).timers = d.timers := (rfl)
@[simp] theorem Dev.dropShadow_go (d : Dev) (sel : Shadow → Bool) : (d.dropShadow sel).go = d.go := (rfl)
@[simp] theorem Dev.dropShadow_pairs (d : Dev) (sel : Shadow → Bool) : (d.dropShadow sel).pairs = d.pairs := (rfl)
@[simp] theorem Dev.dropShadow_lines (d : Dev) (sel : Shadow → Bool) : (d.dropShadow sel).lines = d.lines := (rfl)
@[simp] theorem Dev.dropShadow_chans (d : Dev) (sel : Shadow → Bool) : (d.dropShadow sel).chans = d.chans := (rfl)
@[simp] theorem Dev.dropShadow_sets (d : Dev) (sel : Shadow → Bool) : (d.dropShadow sel).sets = d.sets := (rfl)
@[simp] theorem Dev.dropShadow_sdms (d : Dev) (sel : Shadow → Bool) : (d.dropShadow sel).sdms = d.sdms := (rfl)
@[simp] theorem Dev.dropShadow_sdclks (d : Dev) (sel : Shadow → Bool) : (d.dropShadow sel).sdclks = d.sdclks := (rfl)
@[simp] theorem Dev.dropShadow_rods (d : Dev) (sel : Shadow → Bool) : (d.dropShadow sel).rods = d.rods := (rfl)
@[simp] theorem Dev.dropShadow_frames (d : Dev) (sel : Shadow → Bool) : (d.dropShadow sel).frames = d.frames := (rfl)
@[simp] theorem Dev.dropShadow_presets (d : Dev) (sel : Shadow → Bool) : (d.dropShadow sel).presets = d.presets := (rfl)
@[simp] theorem Dev.dropShadow_traces (d : Dev) (sel : Shadow → Bool) : (d.dropShadow sel).traces = d.traces := (rfl)
@[simp] theorem Dev.dropShadow_fbks (d : Dev) (sel : Shadow → Bool) : (d.dropShadow sel).fbks = d.fbks := (rfl)
@[simp] theorem Dev.dropShadow_beads (d : Dev) (sel : Shadow → Bool) : (d.dropShadow sel).beads = d.beads := (rfl)
@[simp] theorem Dev.dropShadow_clasps (d : Dev) (sel : Shadow → Bool) : (d.dropShadow sel).clasps = d.clasps := (rfl)
@[simp] theorem Dev.dropShadow_cores (d : Dev) (sel : Shadow → Bool) : (d.dropShadow sel).cores = d.cores := (rfl)
@[simp] theorem Dev.dropShadow_icache (d : Dev) (sel : Shadow → Bool) : (d.dropShadow sel).icache = d.icache := (rfl)
@[simp] theorem Dev.dropShadow_dcache (d : Dev) (sel : Shadow → Bool) : (d.dropShadow sel).dcache = d.dcache := (rfl)
@[simp] theorem Dev.dropShadow_dma (d : Dev) (sel : Shadow → Bool) : (d.dropShadow sel).dma = d.dma := (rfl)
@[simp] theorem Dev.dropShadow_dmaBusy (d : Dev) (sel : Shadow → Bool) : (d.dropShadow sel).dmaBusy = d.dmaBusy := (rfl)
@[simp] theorem Dev.dropShadow_credits (d : Dev) (sel : Shadow → Bool) : (d.dropShadow sel).credits = d.credits := (rfl)
@[simp] theorem Dev.dropShadow_losses (d : Dev) (sel : Shadow → Bool) : (d.dropShadow sel).losses = d.losses := (rfl)
@[simp] theorem Dev.dropShadow_backoff (d : Dev) (sel : Shadow → Bool) : (d.dropShadow sel).backoff = d.backoff := (rfl)
@[simp] theorem Dev.dropShadow_ledger (d : Dev) (sel : Shadow → Bool) : (d.dropShadow sel).ledger = d.ledger := (rfl)
@[simp] theorem Dev.dropShadow_chozer (d : Dev) (sel : Shadow → Bool) : (d.dropShadow sel).chozer = d.chozer := (rfl)
@[simp] theorem Dev.dropShadow_net (d : Dev) (sel : Shadow → Bool) : (d.dropShadow sel).net = d.net := (rfl)
@[simp] theorem Dev.dropShadow_can (d : Dev) (sel : Shadow → Bool) : (d.dropShadow sel).can = d.can := (rfl)
@[simp] theorem Dev.dropShadow_power (d : Dev) (sel : Shadow → Bool) : (d.dropShadow sel).power = d.power := (rfl)
@[simp] theorem Dev.dropShadow_diag (d : Dev) (sel : Shadow → Bool) : (d.dropShadow sel).diag = d.diag := (rfl)
@[simp] theorem Dev.dropShadow_scrubAt (d : Dev) (sel : Shadow → Bool) : (d.dropShadow sel).scrubAt = d.scrubAt := (rfl)
@[simp] theorem Dev.at_part (d : Dev) (t : Nat) (c : Instr) : (d.at_ t c).part = d.part := (rfl)
@[simp] theorem Dev.at_beam (d : Dev) (t : Nat) (c : Instr) : (d.at_ t c).beam = d.beam := (rfl)
@[simp] theorem Dev.at_stage (d : Dev) (t : Nat) (c : Instr) : (d.at_ t c).stage = d.stage := (rfl)
@[simp] theorem Dev.at_free (d : Dev) (t : Nat) (c : Instr) : (d.at_ t c).free = d.free := (rfl)
@[simp] theorem Dev.at_regs (d : Dev) (t : Nat) (c : Instr) : (d.at_ t c).regs = d.regs := (rfl)
@[simp] theorem Dev.at_mem (d : Dev) (t : Nat) (c : Instr) : (d.at_ t c).mem = d.mem := (rfl)
@[simp] theorem Dev.at_fresh (d : Dev) (t : Nat) (c : Instr) : (d.at_ t c).fresh = d.fresh := (rfl)
@[simp] theorem Dev.at_shadow (d : Dev) (t : Nat) (c : Instr) : (d.at_ t c).shadow = d.shadow := (rfl)
@[simp] theorem Dev.at_bus (d : Dev) (t : Nat) (c : Instr) : (d.at_ t c).bus = d.bus := (rfl)
@[simp] theorem Dev.at_latch (d : Dev) (t : Nat) (c : Instr) : (d.at_ t c).latch = d.latch := (rfl)
@[simp] theorem Dev.at_bits (d : Dev) (t : Nat) (c : Instr) : (d.at_ t c).bits = d.bits := (rfl)
@[simp] theorem Dev.at_grants (d : Dev) (t : Nat) (c : Instr) : (d.at_ t c).grants = d.grants := (rfl)
@[simp] theorem Dev.at_raised (d : Dev) (t : Nat) (c : Instr) : (d.at_ t c).raised = d.raised := (rfl)
@[simp] theorem Dev.at_routeWas (d : Dev) (t : Nat) (c : Instr) : (d.at_ t c).routeWas = d.routeWas := (rfl)
@[simp] theorem Dev.at_rings (d : Dev) (t : Nat) (c : Instr) : (d.at_ t c).rings = d.rings := (rfl)
@[simp] theorem Dev.at_transit (d : Dev) (t : Nat) (c : Instr) : (d.at_ t c).transit = d.transit := (rfl)
@[simp] theorem Dev.at_chLast (d : Dev) (t : Nat) (c : Instr) : (d.at_ t c).chLast = d.chLast := (rfl)
@[simp] theorem Dev.at_pend (d : Dev) (t : Nat) (c : Instr) : (d.at_ t c).pend = d.pend := (rfl)
@[simp] theorem Dev.at_inLast (d : Dev) (t : Nat) (c : Instr) : (d.at_ t c).inLast = d.inLast := (rfl)
@[simp] theorem Dev.at_gateHist (d : Dev) (t : Nat) (c : Instr) : (d.at_ t c).gateHist = d.gateHist := (rfl)
@[simp] theorem Dev.at_cells (d : Dev) (t : Nat) (c : Instr) : (d.at_ t c).cells = d.cells := (rfl)
@[simp] theorem Dev.at_timers (d : Dev) (t : Nat) (c : Instr) : (d.at_ t c).timers = d.timers := (rfl)
@[simp] theorem Dev.at_go (d : Dev) (t : Nat) (c : Instr) : (d.at_ t c).go = d.go := (rfl)
@[simp] theorem Dev.at_pairs (d : Dev) (t : Nat) (c : Instr) : (d.at_ t c).pairs = d.pairs := (rfl)
@[simp] theorem Dev.at_lines (d : Dev) (t : Nat) (c : Instr) : (d.at_ t c).lines = d.lines := (rfl)
@[simp] theorem Dev.at_chans (d : Dev) (t : Nat) (c : Instr) : (d.at_ t c).chans = d.chans := (rfl)
@[simp] theorem Dev.at_sets (d : Dev) (t : Nat) (c : Instr) : (d.at_ t c).sets = d.sets := (rfl)
@[simp] theorem Dev.at_sdms (d : Dev) (t : Nat) (c : Instr) : (d.at_ t c).sdms = d.sdms := (rfl)
@[simp] theorem Dev.at_sdclks (d : Dev) (t : Nat) (c : Instr) : (d.at_ t c).sdclks = d.sdclks := (rfl)
@[simp] theorem Dev.at_rods (d : Dev) (t : Nat) (c : Instr) : (d.at_ t c).rods = d.rods := (rfl)
@[simp] theorem Dev.at_frames (d : Dev) (t : Nat) (c : Instr) : (d.at_ t c).frames = d.frames := (rfl)
@[simp] theorem Dev.at_presets (d : Dev) (t : Nat) (c : Instr) : (d.at_ t c).presets = d.presets := (rfl)
@[simp] theorem Dev.at_traces (d : Dev) (t : Nat) (c : Instr) : (d.at_ t c).traces = d.traces := (rfl)
@[simp] theorem Dev.at_fbks (d : Dev) (t : Nat) (c : Instr) : (d.at_ t c).fbks = d.fbks := (rfl)
@[simp] theorem Dev.at_beads (d : Dev) (t : Nat) (c : Instr) : (d.at_ t c).beads = d.beads := (rfl)
@[simp] theorem Dev.at_clasps (d : Dev) (t : Nat) (c : Instr) : (d.at_ t c).clasps = d.clasps := (rfl)
@[simp] theorem Dev.at_cores (d : Dev) (t : Nat) (c : Instr) : (d.at_ t c).cores = d.cores := (rfl)
@[simp] theorem Dev.at_icache (d : Dev) (t : Nat) (c : Instr) : (d.at_ t c).icache = d.icache := (rfl)
@[simp] theorem Dev.at_dcache (d : Dev) (t : Nat) (c : Instr) : (d.at_ t c).dcache = d.dcache := (rfl)
@[simp] theorem Dev.at_dma (d : Dev) (t : Nat) (c : Instr) : (d.at_ t c).dma = d.dma := (rfl)
@[simp] theorem Dev.at_dmaBusy (d : Dev) (t : Nat) (c : Instr) : (d.at_ t c).dmaBusy = d.dmaBusy := (rfl)
@[simp] theorem Dev.at_credits (d : Dev) (t : Nat) (c : Instr) : (d.at_ t c).credits = d.credits := (rfl)
@[simp] theorem Dev.at_losses (d : Dev) (t : Nat) (c : Instr) : (d.at_ t c).losses = d.losses := (rfl)
@[simp] theorem Dev.at_backoff (d : Dev) (t : Nat) (c : Instr) : (d.at_ t c).backoff = d.backoff := (rfl)
@[simp] theorem Dev.at_ledger (d : Dev) (t : Nat) (c : Instr) : (d.at_ t c).ledger = d.ledger := (rfl)
@[simp] theorem Dev.at_chozer (d : Dev) (t : Nat) (c : Instr) : (d.at_ t c).chozer = d.chozer := (rfl)
@[simp] theorem Dev.at_net (d : Dev) (t : Nat) (c : Instr) : (d.at_ t c).net = d.net := (rfl)
@[simp] theorem Dev.at_can (d : Dev) (t : Nat) (c : Instr) : (d.at_ t c).can = d.can := (rfl)
@[simp] theorem Dev.at_power (d : Dev) (t : Nat) (c : Instr) : (d.at_ t c).power = d.power := (rfl)
@[simp] theorem Dev.at_diag (d : Dev) (t : Nat) (c : Instr) : (d.at_ t c).diag = d.diag := (rfl)
@[simp] theorem Dev.at_scrubAt (d : Dev) (t : Nat) (c : Instr) : (d.at_ t c).scrubAt = d.scrubAt := (rfl)
@[simp] theorem Dev.cancel_part (d : Dev) (c : Instr) : (d.cancel c).part = d.part := (rfl)
@[simp] theorem Dev.cancel_beam (d : Dev) (c : Instr) : (d.cancel c).beam = d.beam := (rfl)
@[simp] theorem Dev.cancel_stage (d : Dev) (c : Instr) : (d.cancel c).stage = d.stage := (rfl)
@[simp] theorem Dev.cancel_free (d : Dev) (c : Instr) : (d.cancel c).free = d.free := (rfl)
@[simp] theorem Dev.cancel_regs (d : Dev) (c : Instr) : (d.cancel c).regs = d.regs := (rfl)
@[simp] theorem Dev.cancel_mem (d : Dev) (c : Instr) : (d.cancel c).mem = d.mem := (rfl)
@[simp] theorem Dev.cancel_fresh (d : Dev) (c : Instr) : (d.cancel c).fresh = d.fresh := (rfl)
@[simp] theorem Dev.cancel_shadow (d : Dev) (c : Instr) : (d.cancel c).shadow = d.shadow := (rfl)
@[simp] theorem Dev.cancel_bus (d : Dev) (c : Instr) : (d.cancel c).bus = d.bus := (rfl)
@[simp] theorem Dev.cancel_latch (d : Dev) (c : Instr) : (d.cancel c).latch = d.latch := (rfl)
@[simp] theorem Dev.cancel_bits (d : Dev) (c : Instr) : (d.cancel c).bits = d.bits := (rfl)
@[simp] theorem Dev.cancel_grants (d : Dev) (c : Instr) : (d.cancel c).grants = d.grants := (rfl)
@[simp] theorem Dev.cancel_raised (d : Dev) (c : Instr) : (d.cancel c).raised = d.raised := (rfl)
@[simp] theorem Dev.cancel_routeWas (d : Dev) (c : Instr) : (d.cancel c).routeWas = d.routeWas := (rfl)
@[simp] theorem Dev.cancel_rings (d : Dev) (c : Instr) : (d.cancel c).rings = d.rings := (rfl)
@[simp] theorem Dev.cancel_transit (d : Dev) (c : Instr) : (d.cancel c).transit = d.transit := (rfl)
@[simp] theorem Dev.cancel_chLast (d : Dev) (c : Instr) : (d.cancel c).chLast = d.chLast := (rfl)
@[simp] theorem Dev.cancel_pend (d : Dev) (c : Instr) : (d.cancel c).pend = d.pend := (rfl)
@[simp] theorem Dev.cancel_inLast (d : Dev) (c : Instr) : (d.cancel c).inLast = d.inLast := (rfl)
@[simp] theorem Dev.cancel_gateHist (d : Dev) (c : Instr) : (d.cancel c).gateHist = d.gateHist := (rfl)
@[simp] theorem Dev.cancel_cells (d : Dev) (c : Instr) : (d.cancel c).cells = d.cells := (rfl)
@[simp] theorem Dev.cancel_timers (d : Dev) (c : Instr) : (d.cancel c).timers = d.timers := (rfl)
@[simp] theorem Dev.cancel_go (d : Dev) (c : Instr) : (d.cancel c).go = d.go := (rfl)
@[simp] theorem Dev.cancel_pairs (d : Dev) (c : Instr) : (d.cancel c).pairs = d.pairs := (rfl)
@[simp] theorem Dev.cancel_lines (d : Dev) (c : Instr) : (d.cancel c).lines = d.lines := (rfl)
@[simp] theorem Dev.cancel_chans (d : Dev) (c : Instr) : (d.cancel c).chans = d.chans := (rfl)
@[simp] theorem Dev.cancel_sets (d : Dev) (c : Instr) : (d.cancel c).sets = d.sets := (rfl)
@[simp] theorem Dev.cancel_sdms (d : Dev) (c : Instr) : (d.cancel c).sdms = d.sdms := (rfl)
@[simp] theorem Dev.cancel_sdclks (d : Dev) (c : Instr) : (d.cancel c).sdclks = d.sdclks := (rfl)
@[simp] theorem Dev.cancel_rods (d : Dev) (c : Instr) : (d.cancel c).rods = d.rods := (rfl)
@[simp] theorem Dev.cancel_frames (d : Dev) (c : Instr) : (d.cancel c).frames = d.frames := (rfl)
@[simp] theorem Dev.cancel_presets (d : Dev) (c : Instr) : (d.cancel c).presets = d.presets := (rfl)
@[simp] theorem Dev.cancel_traces (d : Dev) (c : Instr) : (d.cancel c).traces = d.traces := (rfl)
@[simp] theorem Dev.cancel_fbks (d : Dev) (c : Instr) : (d.cancel c).fbks = d.fbks := (rfl)
@[simp] theorem Dev.cancel_beads (d : Dev) (c : Instr) : (d.cancel c).beads = d.beads := (rfl)
@[simp] theorem Dev.cancel_clasps (d : Dev) (c : Instr) : (d.cancel c).clasps = d.clasps := (rfl)
@[simp] theorem Dev.cancel_cores (d : Dev) (c : Instr) : (d.cancel c).cores = d.cores := (rfl)
@[simp] theorem Dev.cancel_icache (d : Dev) (c : Instr) : (d.cancel c).icache = d.icache := (rfl)
@[simp] theorem Dev.cancel_dcache (d : Dev) (c : Instr) : (d.cancel c).dcache = d.dcache := (rfl)
@[simp] theorem Dev.cancel_dma (d : Dev) (c : Instr) : (d.cancel c).dma = d.dma := (rfl)
@[simp] theorem Dev.cancel_dmaBusy (d : Dev) (c : Instr) : (d.cancel c).dmaBusy = d.dmaBusy := (rfl)
@[simp] theorem Dev.cancel_credits (d : Dev) (c : Instr) : (d.cancel c).credits = d.credits := (rfl)
@[simp] theorem Dev.cancel_losses (d : Dev) (c : Instr) : (d.cancel c).losses = d.losses := (rfl)
@[simp] theorem Dev.cancel_backoff (d : Dev) (c : Instr) : (d.cancel c).backoff = d.backoff := (rfl)
@[simp] theorem Dev.cancel_ledger (d : Dev) (c : Instr) : (d.cancel c).ledger = d.ledger := (rfl)
@[simp] theorem Dev.cancel_chozer (d : Dev) (c : Instr) : (d.cancel c).chozer = d.chozer := (rfl)
@[simp] theorem Dev.cancel_net (d : Dev) (c : Instr) : (d.cancel c).net = d.net := (rfl)
@[simp] theorem Dev.cancel_can (d : Dev) (c : Instr) : (d.cancel c).can = d.can := (rfl)
@[simp] theorem Dev.cancel_power (d : Dev) (c : Instr) : (d.cancel c).power = d.power := (rfl)
@[simp] theorem Dev.cancel_diag (d : Dev) (c : Instr) : (d.cancel c).diag = d.diag := (rfl)
@[simp] theorem Dev.cancel_scrubAt (d : Dev) (c : Instr) : (d.cancel c).scrubAt = d.scrubAt := (rfl)
@[simp] theorem Dev.raiseAt_part (d : Dev) (src p ts : Nat) : (d.raiseAt src p ts).part = d.part := (rfl)
@[simp] theorem Dev.raiseAt_beam (d : Dev) (src p ts : Nat) : (d.raiseAt src p ts).beam = d.beam := (rfl)
@[simp] theorem Dev.raiseAt_stage (d : Dev) (src p ts : Nat) : (d.raiseAt src p ts).stage = d.stage := (rfl)
@[simp] theorem Dev.raiseAt_free (d : Dev) (src p ts : Nat) : (d.raiseAt src p ts).free = d.free := (rfl)
@[simp] theorem Dev.raiseAt_regs (d : Dev) (src p ts : Nat) : (d.raiseAt src p ts).regs = d.regs := (rfl)
@[simp] theorem Dev.raiseAt_mem (d : Dev) (src p ts : Nat) : (d.raiseAt src p ts).mem = d.mem := (rfl)
@[simp] theorem Dev.raiseAt_fresh (d : Dev) (src p ts : Nat) : (d.raiseAt src p ts).fresh = d.fresh := (rfl)
@[simp] theorem Dev.raiseAt_shadow (d : Dev) (src p ts : Nat) : (d.raiseAt src p ts).shadow = d.shadow := (rfl)
@[simp] theorem Dev.raiseAt_agenda (d : Dev) (src p ts : Nat) : (d.raiseAt src p ts).agenda = d.agenda := (rfl)
@[simp] theorem Dev.raiseAt_bus (d : Dev) (src p ts : Nat) : (d.raiseAt src p ts).bus = d.bus := (rfl)
@[simp] theorem Dev.raiseAt_latch (d : Dev) (src p ts : Nat) : (d.raiseAt src p ts).latch = d.latch := (rfl)
@[simp] theorem Dev.raiseAt_bits (d : Dev) (src p ts : Nat) : (d.raiseAt src p ts).bits = d.bits := (rfl)
@[simp] theorem Dev.raiseAt_grants (d : Dev) (src p ts : Nat) : (d.raiseAt src p ts).grants = d.grants := (rfl)
@[simp] theorem Dev.raiseAt_routeWas (d : Dev) (src p ts : Nat) : (d.raiseAt src p ts).routeWas = d.routeWas := (rfl)
@[simp] theorem Dev.raiseAt_rings (d : Dev) (src p ts : Nat) : (d.raiseAt src p ts).rings = d.rings := (rfl)
@[simp] theorem Dev.raiseAt_transit (d : Dev) (src p ts : Nat) : (d.raiseAt src p ts).transit = d.transit := (rfl)
@[simp] theorem Dev.raiseAt_chLast (d : Dev) (src p ts : Nat) : (d.raiseAt src p ts).chLast = d.chLast := (rfl)
@[simp] theorem Dev.raiseAt_pend (d : Dev) (src p ts : Nat) : (d.raiseAt src p ts).pend = d.pend := (rfl)
@[simp] theorem Dev.raiseAt_inLast (d : Dev) (src p ts : Nat) : (d.raiseAt src p ts).inLast = d.inLast := (rfl)
@[simp] theorem Dev.raiseAt_gateHist (d : Dev) (src p ts : Nat) : (d.raiseAt src p ts).gateHist = d.gateHist := (rfl)
@[simp] theorem Dev.raiseAt_cells (d : Dev) (src p ts : Nat) : (d.raiseAt src p ts).cells = d.cells := (rfl)
@[simp] theorem Dev.raiseAt_timers (d : Dev) (src p ts : Nat) : (d.raiseAt src p ts).timers = d.timers := (rfl)
@[simp] theorem Dev.raiseAt_go (d : Dev) (src p ts : Nat) : (d.raiseAt src p ts).go = d.go := (rfl)
@[simp] theorem Dev.raiseAt_pairs (d : Dev) (src p ts : Nat) : (d.raiseAt src p ts).pairs = d.pairs := (rfl)
@[simp] theorem Dev.raiseAt_lines (d : Dev) (src p ts : Nat) : (d.raiseAt src p ts).lines = d.lines := (rfl)
@[simp] theorem Dev.raiseAt_chans (d : Dev) (src p ts : Nat) : (d.raiseAt src p ts).chans = d.chans := (rfl)
@[simp] theorem Dev.raiseAt_sets (d : Dev) (src p ts : Nat) : (d.raiseAt src p ts).sets = d.sets := (rfl)
@[simp] theorem Dev.raiseAt_sdms (d : Dev) (src p ts : Nat) : (d.raiseAt src p ts).sdms = d.sdms := (rfl)
@[simp] theorem Dev.raiseAt_sdclks (d : Dev) (src p ts : Nat) : (d.raiseAt src p ts).sdclks = d.sdclks := (rfl)
@[simp] theorem Dev.raiseAt_rods (d : Dev) (src p ts : Nat) : (d.raiseAt src p ts).rods = d.rods := (rfl)
@[simp] theorem Dev.raiseAt_frames (d : Dev) (src p ts : Nat) : (d.raiseAt src p ts).frames = d.frames := (rfl)
@[simp] theorem Dev.raiseAt_presets (d : Dev) (src p ts : Nat) : (d.raiseAt src p ts).presets = d.presets := (rfl)
@[simp] theorem Dev.raiseAt_traces (d : Dev) (src p ts : Nat) : (d.raiseAt src p ts).traces = d.traces := (rfl)
@[simp] theorem Dev.raiseAt_fbks (d : Dev) (src p ts : Nat) : (d.raiseAt src p ts).fbks = d.fbks := (rfl)
@[simp] theorem Dev.raiseAt_beads (d : Dev) (src p ts : Nat) : (d.raiseAt src p ts).beads = d.beads := (rfl)
@[simp] theorem Dev.raiseAt_clasps (d : Dev) (src p ts : Nat) : (d.raiseAt src p ts).clasps = d.clasps := (rfl)
@[simp] theorem Dev.raiseAt_cores (d : Dev) (src p ts : Nat) : (d.raiseAt src p ts).cores = d.cores := (rfl)
@[simp] theorem Dev.raiseAt_icache (d : Dev) (src p ts : Nat) : (d.raiseAt src p ts).icache = d.icache := (rfl)
@[simp] theorem Dev.raiseAt_dcache (d : Dev) (src p ts : Nat) : (d.raiseAt src p ts).dcache = d.dcache := (rfl)
@[simp] theorem Dev.raiseAt_dma (d : Dev) (src p ts : Nat) : (d.raiseAt src p ts).dma = d.dma := (rfl)
@[simp] theorem Dev.raiseAt_dmaBusy (d : Dev) (src p ts : Nat) : (d.raiseAt src p ts).dmaBusy = d.dmaBusy := (rfl)
@[simp] theorem Dev.raiseAt_credits (d : Dev) (src p ts : Nat) : (d.raiseAt src p ts).credits = d.credits := (rfl)
@[simp] theorem Dev.raiseAt_losses (d : Dev) (src p ts : Nat) : (d.raiseAt src p ts).losses = d.losses := (rfl)
@[simp] theorem Dev.raiseAt_backoff (d : Dev) (src p ts : Nat) : (d.raiseAt src p ts).backoff = d.backoff := (rfl)
@[simp] theorem Dev.raiseAt_ledger (d : Dev) (src p ts : Nat) : (d.raiseAt src p ts).ledger = d.ledger := (rfl)
@[simp] theorem Dev.raiseAt_chozer (d : Dev) (src p ts : Nat) : (d.raiseAt src p ts).chozer = d.chozer := (rfl)
@[simp] theorem Dev.raiseAt_net (d : Dev) (src p ts : Nat) : (d.raiseAt src p ts).net = d.net := (rfl)
@[simp] theorem Dev.raiseAt_can (d : Dev) (src p ts : Nat) : (d.raiseAt src p ts).can = d.can := (rfl)
@[simp] theorem Dev.raiseAt_power (d : Dev) (src p ts : Nat) : (d.raiseAt src p ts).power = d.power := (rfl)
@[simp] theorem Dev.raiseAt_diag (d : Dev) (src p ts : Nat) : (d.raiseAt src p ts).diag = d.diag := (rfl)
@[simp] theorem Dev.raiseAt_scrubAt (d : Dev) (src p ts : Nat) : (d.raiseAt src p ts).scrubAt = d.scrubAt := (rfl)
@[simp] theorem Dev.raise_part (d : Dev) (src p : Nat) : (d.raise src p).part = d.part := (rfl)
@[simp] theorem Dev.raise_beam (d : Dev) (src p : Nat) : (d.raise src p).beam = d.beam := (rfl)
@[simp] theorem Dev.raise_stage (d : Dev) (src p : Nat) : (d.raise src p).stage = d.stage := (rfl)
@[simp] theorem Dev.raise_free (d : Dev) (src p : Nat) : (d.raise src p).free = d.free := (rfl)
@[simp] theorem Dev.raise_regs (d : Dev) (src p : Nat) : (d.raise src p).regs = d.regs := (rfl)
@[simp] theorem Dev.raise_mem (d : Dev) (src p : Nat) : (d.raise src p).mem = d.mem := (rfl)
@[simp] theorem Dev.raise_fresh (d : Dev) (src p : Nat) : (d.raise src p).fresh = d.fresh := (rfl)
@[simp] theorem Dev.raise_shadow (d : Dev) (src p : Nat) : (d.raise src p).shadow = d.shadow := (rfl)
@[simp] theorem Dev.raise_agenda (d : Dev) (src p : Nat) : (d.raise src p).agenda = d.agenda := (rfl)
@[simp] theorem Dev.raise_bus (d : Dev) (src p : Nat) : (d.raise src p).bus = d.bus := (rfl)
@[simp] theorem Dev.raise_latch (d : Dev) (src p : Nat) : (d.raise src p).latch = d.latch := (rfl)
@[simp] theorem Dev.raise_bits (d : Dev) (src p : Nat) : (d.raise src p).bits = d.bits := (rfl)
@[simp] theorem Dev.raise_grants (d : Dev) (src p : Nat) : (d.raise src p).grants = d.grants := (rfl)
@[simp] theorem Dev.raise_routeWas (d : Dev) (src p : Nat) : (d.raise src p).routeWas = d.routeWas := (rfl)
@[simp] theorem Dev.raise_rings (d : Dev) (src p : Nat) : (d.raise src p).rings = d.rings := (rfl)
@[simp] theorem Dev.raise_transit (d : Dev) (src p : Nat) : (d.raise src p).transit = d.transit := (rfl)
@[simp] theorem Dev.raise_chLast (d : Dev) (src p : Nat) : (d.raise src p).chLast = d.chLast := (rfl)
@[simp] theorem Dev.raise_pend (d : Dev) (src p : Nat) : (d.raise src p).pend = d.pend := (rfl)
@[simp] theorem Dev.raise_inLast (d : Dev) (src p : Nat) : (d.raise src p).inLast = d.inLast := (rfl)
@[simp] theorem Dev.raise_gateHist (d : Dev) (src p : Nat) : (d.raise src p).gateHist = d.gateHist := (rfl)
@[simp] theorem Dev.raise_cells (d : Dev) (src p : Nat) : (d.raise src p).cells = d.cells := (rfl)
@[simp] theorem Dev.raise_timers (d : Dev) (src p : Nat) : (d.raise src p).timers = d.timers := (rfl)
@[simp] theorem Dev.raise_go (d : Dev) (src p : Nat) : (d.raise src p).go = d.go := (rfl)
@[simp] theorem Dev.raise_pairs (d : Dev) (src p : Nat) : (d.raise src p).pairs = d.pairs := (rfl)
@[simp] theorem Dev.raise_lines (d : Dev) (src p : Nat) : (d.raise src p).lines = d.lines := (rfl)
@[simp] theorem Dev.raise_chans (d : Dev) (src p : Nat) : (d.raise src p).chans = d.chans := (rfl)
@[simp] theorem Dev.raise_sets (d : Dev) (src p : Nat) : (d.raise src p).sets = d.sets := (rfl)
@[simp] theorem Dev.raise_sdms (d : Dev) (src p : Nat) : (d.raise src p).sdms = d.sdms := (rfl)
@[simp] theorem Dev.raise_sdclks (d : Dev) (src p : Nat) : (d.raise src p).sdclks = d.sdclks := (rfl)
@[simp] theorem Dev.raise_rods (d : Dev) (src p : Nat) : (d.raise src p).rods = d.rods := (rfl)
@[simp] theorem Dev.raise_frames (d : Dev) (src p : Nat) : (d.raise src p).frames = d.frames := (rfl)
@[simp] theorem Dev.raise_presets (d : Dev) (src p : Nat) : (d.raise src p).presets = d.presets := (rfl)
@[simp] theorem Dev.raise_traces (d : Dev) (src p : Nat) : (d.raise src p).traces = d.traces := (rfl)
@[simp] theorem Dev.raise_fbks (d : Dev) (src p : Nat) : (d.raise src p).fbks = d.fbks := (rfl)
@[simp] theorem Dev.raise_beads (d : Dev) (src p : Nat) : (d.raise src p).beads = d.beads := (rfl)
@[simp] theorem Dev.raise_clasps (d : Dev) (src p : Nat) : (d.raise src p).clasps = d.clasps := (rfl)
@[simp] theorem Dev.raise_cores (d : Dev) (src p : Nat) : (d.raise src p).cores = d.cores := (rfl)
@[simp] theorem Dev.raise_icache (d : Dev) (src p : Nat) : (d.raise src p).icache = d.icache := (rfl)
@[simp] theorem Dev.raise_dcache (d : Dev) (src p : Nat) : (d.raise src p).dcache = d.dcache := (rfl)
@[simp] theorem Dev.raise_dma (d : Dev) (src p : Nat) : (d.raise src p).dma = d.dma := (rfl)
@[simp] theorem Dev.raise_dmaBusy (d : Dev) (src p : Nat) : (d.raise src p).dmaBusy = d.dmaBusy := (rfl)
@[simp] theorem Dev.raise_credits (d : Dev) (src p : Nat) : (d.raise src p).credits = d.credits := (rfl)
@[simp] theorem Dev.raise_losses (d : Dev) (src p : Nat) : (d.raise src p).losses = d.losses := (rfl)
@[simp] theorem Dev.raise_backoff (d : Dev) (src p : Nat) : (d.raise src p).backoff = d.backoff := (rfl)
@[simp] theorem Dev.raise_ledger (d : Dev) (src p : Nat) : (d.raise src p).ledger = d.ledger := (rfl)
@[simp] theorem Dev.raise_chozer (d : Dev) (src p : Nat) : (d.raise src p).chozer = d.chozer := (rfl)
@[simp] theorem Dev.raise_net (d : Dev) (src p : Nat) : (d.raise src p).net = d.net := (rfl)
@[simp] theorem Dev.raise_can (d : Dev) (src p : Nat) : (d.raise src p).can = d.can := (rfl)
@[simp] theorem Dev.raise_power (d : Dev) (src p : Nat) : (d.raise src p).power = d.power := (rfl)
@[simp] theorem Dev.raise_diag (d : Dev) (src p : Nat) : (d.raise src p).diag = d.diag := (rfl)
@[simp] theorem Dev.raise_scrubAt (d : Dev) (src p : Nat) : (d.raise src p).scrubAt = d.scrubAt := (rfl)
@[simp] theorem Dev.gateNote_part (d : Dev) (key : Nat) : (d.gateNote key).part = d.part := (rfl)
@[simp] theorem Dev.gateNote_beam (d : Dev) (key : Nat) : (d.gateNote key).beam = d.beam := (rfl)
@[simp] theorem Dev.gateNote_stage (d : Dev) (key : Nat) : (d.gateNote key).stage = d.stage := (rfl)
@[simp] theorem Dev.gateNote_free (d : Dev) (key : Nat) : (d.gateNote key).free = d.free := (rfl)
@[simp] theorem Dev.gateNote_regs (d : Dev) (key : Nat) : (d.gateNote key).regs = d.regs := (rfl)
@[simp] theorem Dev.gateNote_mem (d : Dev) (key : Nat) : (d.gateNote key).mem = d.mem := (rfl)
@[simp] theorem Dev.gateNote_fresh (d : Dev) (key : Nat) : (d.gateNote key).fresh = d.fresh := (rfl)
@[simp] theorem Dev.gateNote_shadow (d : Dev) (key : Nat) : (d.gateNote key).shadow = d.shadow := (rfl)
@[simp] theorem Dev.gateNote_agenda (d : Dev) (key : Nat) : (d.gateNote key).agenda = d.agenda := (rfl)
@[simp] theorem Dev.gateNote_bus (d : Dev) (key : Nat) : (d.gateNote key).bus = d.bus := (rfl)
@[simp] theorem Dev.gateNote_latch (d : Dev) (key : Nat) : (d.gateNote key).latch = d.latch := (rfl)
@[simp] theorem Dev.gateNote_bits (d : Dev) (key : Nat) : (d.gateNote key).bits = d.bits := (rfl)
@[simp] theorem Dev.gateNote_grants (d : Dev) (key : Nat) : (d.gateNote key).grants = d.grants := (rfl)
@[simp] theorem Dev.gateNote_raised (d : Dev) (key : Nat) : (d.gateNote key).raised = d.raised := (rfl)
@[simp] theorem Dev.gateNote_routeWas (d : Dev) (key : Nat) : (d.gateNote key).routeWas = d.routeWas := (rfl)
@[simp] theorem Dev.gateNote_rings (d : Dev) (key : Nat) : (d.gateNote key).rings = d.rings := (rfl)
@[simp] theorem Dev.gateNote_transit (d : Dev) (key : Nat) : (d.gateNote key).transit = d.transit := (rfl)
@[simp] theorem Dev.gateNote_chLast (d : Dev) (key : Nat) : (d.gateNote key).chLast = d.chLast := (rfl)
@[simp] theorem Dev.gateNote_pend (d : Dev) (key : Nat) : (d.gateNote key).pend = d.pend := (rfl)
@[simp] theorem Dev.gateNote_inLast (d : Dev) (key : Nat) : (d.gateNote key).inLast = d.inLast := (rfl)
@[simp] theorem Dev.gateNote_cells (d : Dev) (key : Nat) : (d.gateNote key).cells = d.cells := (rfl)
@[simp] theorem Dev.gateNote_timers (d : Dev) (key : Nat) : (d.gateNote key).timers = d.timers := (rfl)
@[simp] theorem Dev.gateNote_go (d : Dev) (key : Nat) : (d.gateNote key).go = d.go := (rfl)
@[simp] theorem Dev.gateNote_pairs (d : Dev) (key : Nat) : (d.gateNote key).pairs = d.pairs := (rfl)
@[simp] theorem Dev.gateNote_lines (d : Dev) (key : Nat) : (d.gateNote key).lines = d.lines := (rfl)
@[simp] theorem Dev.gateNote_chans (d : Dev) (key : Nat) : (d.gateNote key).chans = d.chans := (rfl)
@[simp] theorem Dev.gateNote_sets (d : Dev) (key : Nat) : (d.gateNote key).sets = d.sets := (rfl)
@[simp] theorem Dev.gateNote_sdms (d : Dev) (key : Nat) : (d.gateNote key).sdms = d.sdms := (rfl)
@[simp] theorem Dev.gateNote_sdclks (d : Dev) (key : Nat) : (d.gateNote key).sdclks = d.sdclks := (rfl)
@[simp] theorem Dev.gateNote_rods (d : Dev) (key : Nat) : (d.gateNote key).rods = d.rods := (rfl)
@[simp] theorem Dev.gateNote_frames (d : Dev) (key : Nat) : (d.gateNote key).frames = d.frames := (rfl)
@[simp] theorem Dev.gateNote_presets (d : Dev) (key : Nat) : (d.gateNote key).presets = d.presets := (rfl)
@[simp] theorem Dev.gateNote_traces (d : Dev) (key : Nat) : (d.gateNote key).traces = d.traces := (rfl)
@[simp] theorem Dev.gateNote_fbks (d : Dev) (key : Nat) : (d.gateNote key).fbks = d.fbks := (rfl)
@[simp] theorem Dev.gateNote_beads (d : Dev) (key : Nat) : (d.gateNote key).beads = d.beads := (rfl)
@[simp] theorem Dev.gateNote_clasps (d : Dev) (key : Nat) : (d.gateNote key).clasps = d.clasps := (rfl)
@[simp] theorem Dev.gateNote_cores (d : Dev) (key : Nat) : (d.gateNote key).cores = d.cores := (rfl)
@[simp] theorem Dev.gateNote_icache (d : Dev) (key : Nat) : (d.gateNote key).icache = d.icache := (rfl)
@[simp] theorem Dev.gateNote_dcache (d : Dev) (key : Nat) : (d.gateNote key).dcache = d.dcache := (rfl)
@[simp] theorem Dev.gateNote_dma (d : Dev) (key : Nat) : (d.gateNote key).dma = d.dma := (rfl)
@[simp] theorem Dev.gateNote_dmaBusy (d : Dev) (key : Nat) : (d.gateNote key).dmaBusy = d.dmaBusy := (rfl)
@[simp] theorem Dev.gateNote_credits (d : Dev) (key : Nat) : (d.gateNote key).credits = d.credits := (rfl)
@[simp] theorem Dev.gateNote_losses (d : Dev) (key : Nat) : (d.gateNote key).losses = d.losses := (rfl)
@[simp] theorem Dev.gateNote_backoff (d : Dev) (key : Nat) : (d.gateNote key).backoff = d.backoff := (rfl)
@[simp] theorem Dev.gateNote_ledger (d : Dev) (key : Nat) : (d.gateNote key).ledger = d.ledger := (rfl)
@[simp] theorem Dev.gateNote_chozer (d : Dev) (key : Nat) : (d.gateNote key).chozer = d.chozer := (rfl)
@[simp] theorem Dev.gateNote_net (d : Dev) (key : Nat) : (d.gateNote key).net = d.net := (rfl)
@[simp] theorem Dev.gateNote_can (d : Dev) (key : Nat) : (d.gateNote key).can = d.can := (rfl)
@[simp] theorem Dev.gateNote_power (d : Dev) (key : Nat) : (d.gateNote key).power = d.power := (rfl)
@[simp] theorem Dev.gateNote_diag (d : Dev) (key : Nat) : (d.gateNote key).diag = d.diag := (rfl)
@[simp] theorem Dev.gateNote_scrubAt (d : Dev) (key : Nat) : (d.gateNote key).scrubAt = d.scrubAt := (rfl)
@[simp] theorem Dev.dset_part (d : Dev) (k v : Nat) : (d.dset k v).part = d.part := (rfl)
@[simp] theorem Dev.dset_beam (d : Dev) (k v : Nat) : (d.dset k v).beam = d.beam := (rfl)
@[simp] theorem Dev.dset_stage (d : Dev) (k v : Nat) : (d.dset k v).stage = d.stage := (rfl)
@[simp] theorem Dev.dset_free (d : Dev) (k v : Nat) : (d.dset k v).free = d.free := (rfl)
@[simp] theorem Dev.dset_regs (d : Dev) (k v : Nat) : (d.dset k v).regs = d.regs := (rfl)
@[simp] theorem Dev.dset_mem (d : Dev) (k v : Nat) : (d.dset k v).mem = d.mem := (rfl)
@[simp] theorem Dev.dset_fresh (d : Dev) (k v : Nat) : (d.dset k v).fresh = d.fresh := (rfl)
@[simp] theorem Dev.dset_shadow (d : Dev) (k v : Nat) : (d.dset k v).shadow = d.shadow := (rfl)
@[simp] theorem Dev.dset_agenda (d : Dev) (k v : Nat) : (d.dset k v).agenda = d.agenda := (rfl)
@[simp] theorem Dev.dset_bus (d : Dev) (k v : Nat) : (d.dset k v).bus = d.bus := (rfl)
@[simp] theorem Dev.dset_latch (d : Dev) (k v : Nat) : (d.dset k v).latch = d.latch := (rfl)
@[simp] theorem Dev.dset_bits (d : Dev) (k v : Nat) : (d.dset k v).bits = d.bits := (rfl)
@[simp] theorem Dev.dset_grants (d : Dev) (k v : Nat) : (d.dset k v).grants = d.grants := (rfl)
@[simp] theorem Dev.dset_raised (d : Dev) (k v : Nat) : (d.dset k v).raised = d.raised := (rfl)
@[simp] theorem Dev.dset_routeWas (d : Dev) (k v : Nat) : (d.dset k v).routeWas = d.routeWas := (rfl)
@[simp] theorem Dev.dset_rings (d : Dev) (k v : Nat) : (d.dset k v).rings = d.rings := (rfl)
@[simp] theorem Dev.dset_transit (d : Dev) (k v : Nat) : (d.dset k v).transit = d.transit := (rfl)
@[simp] theorem Dev.dset_chLast (d : Dev) (k v : Nat) : (d.dset k v).chLast = d.chLast := (rfl)
@[simp] theorem Dev.dset_pend (d : Dev) (k v : Nat) : (d.dset k v).pend = d.pend := (rfl)
@[simp] theorem Dev.dset_inLast (d : Dev) (k v : Nat) : (d.dset k v).inLast = d.inLast := (rfl)
@[simp] theorem Dev.dset_gateHist (d : Dev) (k v : Nat) : (d.dset k v).gateHist = d.gateHist := (rfl)
@[simp] theorem Dev.dset_cells (d : Dev) (k v : Nat) : (d.dset k v).cells = d.cells := (rfl)
@[simp] theorem Dev.dset_timers (d : Dev) (k v : Nat) : (d.dset k v).timers = d.timers := (rfl)
@[simp] theorem Dev.dset_go (d : Dev) (k v : Nat) : (d.dset k v).go = d.go := (rfl)
@[simp] theorem Dev.dset_pairs (d : Dev) (k v : Nat) : (d.dset k v).pairs = d.pairs := (rfl)
@[simp] theorem Dev.dset_lines (d : Dev) (k v : Nat) : (d.dset k v).lines = d.lines := (rfl)
@[simp] theorem Dev.dset_chans (d : Dev) (k v : Nat) : (d.dset k v).chans = d.chans := (rfl)
@[simp] theorem Dev.dset_sets (d : Dev) (k v : Nat) : (d.dset k v).sets = d.sets := (rfl)
@[simp] theorem Dev.dset_sdms (d : Dev) (k v : Nat) : (d.dset k v).sdms = d.sdms := (rfl)
@[simp] theorem Dev.dset_sdclks (d : Dev) (k v : Nat) : (d.dset k v).sdclks = d.sdclks := (rfl)
@[simp] theorem Dev.dset_rods (d : Dev) (k v : Nat) : (d.dset k v).rods = d.rods := (rfl)
@[simp] theorem Dev.dset_frames (d : Dev) (k v : Nat) : (d.dset k v).frames = d.frames := (rfl)
@[simp] theorem Dev.dset_presets (d : Dev) (k v : Nat) : (d.dset k v).presets = d.presets := (rfl)
@[simp] theorem Dev.dset_traces (d : Dev) (k v : Nat) : (d.dset k v).traces = d.traces := (rfl)
@[simp] theorem Dev.dset_fbks (d : Dev) (k v : Nat) : (d.dset k v).fbks = d.fbks := (rfl)
@[simp] theorem Dev.dset_beads (d : Dev) (k v : Nat) : (d.dset k v).beads = d.beads := (rfl)
@[simp] theorem Dev.dset_clasps (d : Dev) (k v : Nat) : (d.dset k v).clasps = d.clasps := (rfl)
@[simp] theorem Dev.dset_cores (d : Dev) (k v : Nat) : (d.dset k v).cores = d.cores := (rfl)
@[simp] theorem Dev.dset_icache (d : Dev) (k v : Nat) : (d.dset k v).icache = d.icache := (rfl)
@[simp] theorem Dev.dset_dcache (d : Dev) (k v : Nat) : (d.dset k v).dcache = d.dcache := (rfl)
@[simp] theorem Dev.dset_dma (d : Dev) (k v : Nat) : (d.dset k v).dma = d.dma := (rfl)
@[simp] theorem Dev.dset_dmaBusy (d : Dev) (k v : Nat) : (d.dset k v).dmaBusy = d.dmaBusy := (rfl)
@[simp] theorem Dev.dset_credits (d : Dev) (k v : Nat) : (d.dset k v).credits = d.credits := (rfl)
@[simp] theorem Dev.dset_losses (d : Dev) (k v : Nat) : (d.dset k v).losses = d.losses := (rfl)
@[simp] theorem Dev.dset_backoff (d : Dev) (k v : Nat) : (d.dset k v).backoff = d.backoff := (rfl)
@[simp] theorem Dev.dset_ledger (d : Dev) (k v : Nat) : (d.dset k v).ledger = d.ledger := (rfl)
@[simp] theorem Dev.dset_chozer (d : Dev) (k v : Nat) : (d.dset k v).chozer = d.chozer := (rfl)
@[simp] theorem Dev.dset_net (d : Dev) (k v : Nat) : (d.dset k v).net = d.net := (rfl)
@[simp] theorem Dev.dset_can (d : Dev) (k v : Nat) : (d.dset k v).can = d.can := (rfl)
@[simp] theorem Dev.dset_power (d : Dev) (k v : Nat) : (d.dset k v).power = d.power := (rfl)
@[simp] theorem Dev.dset_scrubAt (d : Dev) (k v : Nat) : (d.dset k v).scrubAt = d.scrubAt := (rfl)
@[simp] theorem Dev.settle_part (d : Dev) : (d.settle).part = d.part := (rfl)
@[simp] theorem Dev.settle_stage (d : Dev) : (d.settle).stage = d.stage := (rfl)
@[simp] theorem Dev.settle_free (d : Dev) : (d.settle).free = d.free := (rfl)
@[simp] theorem Dev.settle_regs (d : Dev) : (d.settle).regs = d.regs := (rfl)
@[simp] theorem Dev.settle_fresh (d : Dev) : (d.settle).fresh = d.fresh := (rfl)
@[simp] theorem Dev.settle_shadow (d : Dev) : (d.settle).shadow = d.shadow := (rfl)
@[simp] theorem Dev.settle_agenda (d : Dev) : (d.settle).agenda = d.agenda := (rfl)
@[simp] theorem Dev.settle_bus (d : Dev) : (d.settle).bus = d.bus := (rfl)
@[simp] theorem Dev.settle_latch (d : Dev) : (d.settle).latch = d.latch := (rfl)
@[simp] theorem Dev.settle_bits (d : Dev) : (d.settle).bits = d.bits := (rfl)
@[simp] theorem Dev.settle_grants (d : Dev) : (d.settle).grants = d.grants := (rfl)
@[simp] theorem Dev.settle_raised (d : Dev) : (d.settle).raised = d.raised := (rfl)
@[simp] theorem Dev.settle_routeWas (d : Dev) : (d.settle).routeWas = d.routeWas := (rfl)
@[simp] theorem Dev.settle_rings (d : Dev) : (d.settle).rings = d.rings := (rfl)
@[simp] theorem Dev.settle_transit (d : Dev) : (d.settle).transit = d.transit := (rfl)
@[simp] theorem Dev.settle_chLast (d : Dev) : (d.settle).chLast = d.chLast := (rfl)
@[simp] theorem Dev.settle_pend (d : Dev) : (d.settle).pend = d.pend := (rfl)
@[simp] theorem Dev.settle_inLast (d : Dev) : (d.settle).inLast = d.inLast := (rfl)
@[simp] theorem Dev.settle_gateHist (d : Dev) : (d.settle).gateHist = d.gateHist := (rfl)
@[simp] theorem Dev.settle_cells (d : Dev) : (d.settle).cells = d.cells := (rfl)
@[simp] theorem Dev.settle_timers (d : Dev) : (d.settle).timers = d.timers := (rfl)
@[simp] theorem Dev.settle_go (d : Dev) : (d.settle).go = d.go := (rfl)
@[simp] theorem Dev.settle_pairs (d : Dev) : (d.settle).pairs = d.pairs := (rfl)
@[simp] theorem Dev.settle_lines (d : Dev) : (d.settle).lines = d.lines := (rfl)
@[simp] theorem Dev.settle_chans (d : Dev) : (d.settle).chans = d.chans := (rfl)
@[simp] theorem Dev.settle_sets (d : Dev) : (d.settle).sets = d.sets := (rfl)
@[simp] theorem Dev.settle_sdms (d : Dev) : (d.settle).sdms = d.sdms := (rfl)
@[simp] theorem Dev.settle_sdclks (d : Dev) : (d.settle).sdclks = d.sdclks := (rfl)
@[simp] theorem Dev.settle_rods (d : Dev) : (d.settle).rods = d.rods := (rfl)
@[simp] theorem Dev.settle_frames (d : Dev) : (d.settle).frames = d.frames := (rfl)
@[simp] theorem Dev.settle_presets (d : Dev) : (d.settle).presets = d.presets := (rfl)
@[simp] theorem Dev.settle_traces (d : Dev) : (d.settle).traces = d.traces := (rfl)
@[simp] theorem Dev.settle_fbks (d : Dev) : (d.settle).fbks = d.fbks := (rfl)
@[simp] theorem Dev.settle_beads (d : Dev) : (d.settle).beads = d.beads := (rfl)
@[simp] theorem Dev.settle_clasps (d : Dev) : (d.settle).clasps = d.clasps := (rfl)
@[simp] theorem Dev.settle_cores (d : Dev) : (d.settle).cores = d.cores := (rfl)
@[simp] theorem Dev.settle_icache (d : Dev) : (d.settle).icache = d.icache := (rfl)
@[simp] theorem Dev.settle_dcache (d : Dev) : (d.settle).dcache = d.dcache := (rfl)
@[simp] theorem Dev.settle_dma (d : Dev) : (d.settle).dma = d.dma := (rfl)
@[simp] theorem Dev.settle_dmaBusy (d : Dev) : (d.settle).dmaBusy = d.dmaBusy := (rfl)
@[simp] theorem Dev.settle_credits (d : Dev) : (d.settle).credits = d.credits := (rfl)
@[simp] theorem Dev.settle_losses (d : Dev) : (d.settle).losses = d.losses := (rfl)
@[simp] theorem Dev.settle_backoff (d : Dev) : (d.settle).backoff = d.backoff := (rfl)
@[simp] theorem Dev.settle_ledger (d : Dev) : (d.settle).ledger = d.ledger := (rfl)
@[simp] theorem Dev.settle_chozer (d : Dev) : (d.settle).chozer = d.chozer := (rfl)
@[simp] theorem Dev.settle_net (d : Dev) : (d.settle).net = d.net := (rfl)
@[simp] theorem Dev.settle_can (d : Dev) : (d.settle).can = d.can := (rfl)
@[simp] theorem Dev.settle_power (d : Dev) : (d.settle).power = d.power := (rfl)
@[simp] theorem Dev.settle_diag (d : Dev) : (d.settle).diag = d.diag := (rfl)
@[simp] theorem Dev.settle_scrubAt (d : Dev) : (d.settle).scrubAt = d.scrubAt := (rfl)
@[simp] theorem Dev.diagT_part (d : Dev) (c i n : Nat) : (d.diagT c i n).part = d.part := (rfl)
@[simp] theorem Dev.diagT_beam (d : Dev) (c i n : Nat) : (d.diagT c i n).beam = d.beam := (rfl)
@[simp] theorem Dev.diagT_stage (d : Dev) (c i n : Nat) : (d.diagT c i n).stage = d.stage := (rfl)
@[simp] theorem Dev.diagT_free (d : Dev) (c i n : Nat) : (d.diagT c i n).free = d.free := (rfl)
@[simp] theorem Dev.diagT_regs (d : Dev) (c i n : Nat) : (d.diagT c i n).regs = d.regs := (rfl)
@[simp] theorem Dev.diagT_mem (d : Dev) (c i n : Nat) : (d.diagT c i n).mem = d.mem := (rfl)
@[simp] theorem Dev.diagT_fresh (d : Dev) (c i n : Nat) : (d.diagT c i n).fresh = d.fresh := (rfl)
@[simp] theorem Dev.diagT_shadow (d : Dev) (c i n : Nat) : (d.diagT c i n).shadow = d.shadow := (rfl)
@[simp] theorem Dev.diagT_agenda (d : Dev) (c i n : Nat) : (d.diagT c i n).agenda = d.agenda := (rfl)
@[simp] theorem Dev.diagT_bus (d : Dev) (c i n : Nat) : (d.diagT c i n).bus = d.bus := (rfl)
@[simp] theorem Dev.diagT_latch (d : Dev) (c i n : Nat) : (d.diagT c i n).latch = d.latch := (rfl)
@[simp] theorem Dev.diagT_bits (d : Dev) (c i n : Nat) : (d.diagT c i n).bits = d.bits := (rfl)
@[simp] theorem Dev.diagT_grants (d : Dev) (c i n : Nat) : (d.diagT c i n).grants = d.grants := (rfl)
@[simp] theorem Dev.diagT_raised (d : Dev) (c i n : Nat) : (d.diagT c i n).raised = d.raised := (rfl)
@[simp] theorem Dev.diagT_routeWas (d : Dev) (c i n : Nat) : (d.diagT c i n).routeWas = d.routeWas := (rfl)
@[simp] theorem Dev.diagT_rings (d : Dev) (c i n : Nat) : (d.diagT c i n).rings = d.rings := (rfl)
@[simp] theorem Dev.diagT_transit (d : Dev) (c i n : Nat) : (d.diagT c i n).transit = d.transit := (rfl)
@[simp] theorem Dev.diagT_chLast (d : Dev) (c i n : Nat) : (d.diagT c i n).chLast = d.chLast := (rfl)
@[simp] theorem Dev.diagT_pend (d : Dev) (c i n : Nat) : (d.diagT c i n).pend = d.pend := (rfl)
@[simp] theorem Dev.diagT_inLast (d : Dev) (c i n : Nat) : (d.diagT c i n).inLast = d.inLast := (rfl)
@[simp] theorem Dev.diagT_gateHist (d : Dev) (c i n : Nat) : (d.diagT c i n).gateHist = d.gateHist := (rfl)
@[simp] theorem Dev.diagT_cells (d : Dev) (c i n : Nat) : (d.diagT c i n).cells = d.cells := (rfl)
@[simp] theorem Dev.diagT_timers (d : Dev) (c i n : Nat) : (d.diagT c i n).timers = d.timers := (rfl)
@[simp] theorem Dev.diagT_go (d : Dev) (c i n : Nat) : (d.diagT c i n).go = d.go := (rfl)
@[simp] theorem Dev.diagT_pairs (d : Dev) (c i n : Nat) : (d.diagT c i n).pairs = d.pairs := (rfl)
@[simp] theorem Dev.diagT_lines (d : Dev) (c i n : Nat) : (d.diagT c i n).lines = d.lines := (rfl)
@[simp] theorem Dev.diagT_chans (d : Dev) (c i n : Nat) : (d.diagT c i n).chans = d.chans := (rfl)
@[simp] theorem Dev.diagT_sets (d : Dev) (c i n : Nat) : (d.diagT c i n).sets = d.sets := (rfl)
@[simp] theorem Dev.diagT_sdms (d : Dev) (c i n : Nat) : (d.diagT c i n).sdms = d.sdms := (rfl)
@[simp] theorem Dev.diagT_sdclks (d : Dev) (c i n : Nat) : (d.diagT c i n).sdclks = d.sdclks := (rfl)
@[simp] theorem Dev.diagT_rods (d : Dev) (c i n : Nat) : (d.diagT c i n).rods = d.rods := (rfl)
@[simp] theorem Dev.diagT_frames (d : Dev) (c i n : Nat) : (d.diagT c i n).frames = d.frames := (rfl)
@[simp] theorem Dev.diagT_presets (d : Dev) (c i n : Nat) : (d.diagT c i n).presets = d.presets := (rfl)
@[simp] theorem Dev.diagT_traces (d : Dev) (c i n : Nat) : (d.diagT c i n).traces = d.traces := (rfl)
@[simp] theorem Dev.diagT_fbks (d : Dev) (c i n : Nat) : (d.diagT c i n).fbks = d.fbks := (rfl)
@[simp] theorem Dev.diagT_beads (d : Dev) (c i n : Nat) : (d.diagT c i n).beads = d.beads := (rfl)
@[simp] theorem Dev.diagT_clasps (d : Dev) (c i n : Nat) : (d.diagT c i n).clasps = d.clasps := (rfl)
@[simp] theorem Dev.diagT_cores (d : Dev) (c i n : Nat) : (d.diagT c i n).cores = d.cores := (rfl)
@[simp] theorem Dev.diagT_icache (d : Dev) (c i n : Nat) : (d.diagT c i n).icache = d.icache := (rfl)
@[simp] theorem Dev.diagT_dcache (d : Dev) (c i n : Nat) : (d.diagT c i n).dcache = d.dcache := (rfl)
@[simp] theorem Dev.diagT_dma (d : Dev) (c i n : Nat) : (d.diagT c i n).dma = d.dma := (rfl)
@[simp] theorem Dev.diagT_dmaBusy (d : Dev) (c i n : Nat) : (d.diagT c i n).dmaBusy = d.dmaBusy := (rfl)
@[simp] theorem Dev.diagT_credits (d : Dev) (c i n : Nat) : (d.diagT c i n).credits = d.credits := (rfl)
@[simp] theorem Dev.diagT_losses (d : Dev) (c i n : Nat) : (d.diagT c i n).losses = d.losses := (rfl)
@[simp] theorem Dev.diagT_backoff (d : Dev) (c i n : Nat) : (d.diagT c i n).backoff = d.backoff := (rfl)
@[simp] theorem Dev.diagT_ledger (d : Dev) (c i n : Nat) : (d.diagT c i n).ledger = d.ledger := (rfl)
@[simp] theorem Dev.diagT_chozer (d : Dev) (c i n : Nat) : (d.diagT c i n).chozer = d.chozer := (rfl)
@[simp] theorem Dev.diagT_net (d : Dev) (c i n : Nat) : (d.diagT c i n).net = d.net := (rfl)
@[simp] theorem Dev.diagT_can (d : Dev) (c i n : Nat) : (d.diagT c i n).can = d.can := (rfl)
@[simp] theorem Dev.diagT_power (d : Dev) (c i n : Nat) : (d.diagT c i n).power = d.power := (rfl)
@[simp] theorem Dev.diagT_scrubAt (d : Dev) (c i n : Nat) : (d.diagT c i n).scrubAt = d.scrubAt := (rfl)
@[simp] theorem Dev.diagL_part (d : Dev) (c i : Nat) : (d.diagL c i).part = d.part := (rfl)
@[simp] theorem Dev.diagL_beam (d : Dev) (c i : Nat) : (d.diagL c i).beam = d.beam := (rfl)
@[simp] theorem Dev.diagL_stage (d : Dev) (c i : Nat) : (d.diagL c i).stage = d.stage := (rfl)
@[simp] theorem Dev.diagL_free (d : Dev) (c i : Nat) : (d.diagL c i).free = d.free := (rfl)
@[simp] theorem Dev.diagL_regs (d : Dev) (c i : Nat) : (d.diagL c i).regs = d.regs := (rfl)
@[simp] theorem Dev.diagL_mem (d : Dev) (c i : Nat) : (d.diagL c i).mem = d.mem := (rfl)
@[simp] theorem Dev.diagL_fresh (d : Dev) (c i : Nat) : (d.diagL c i).fresh = d.fresh := (rfl)
@[simp] theorem Dev.diagL_shadow (d : Dev) (c i : Nat) : (d.diagL c i).shadow = d.shadow := (rfl)
@[simp] theorem Dev.diagL_agenda (d : Dev) (c i : Nat) : (d.diagL c i).agenda = d.agenda := (rfl)
@[simp] theorem Dev.diagL_bus (d : Dev) (c i : Nat) : (d.diagL c i).bus = d.bus := (rfl)
@[simp] theorem Dev.diagL_latch (d : Dev) (c i : Nat) : (d.diagL c i).latch = d.latch := (rfl)
@[simp] theorem Dev.diagL_bits (d : Dev) (c i : Nat) : (d.diagL c i).bits = d.bits := (rfl)
@[simp] theorem Dev.diagL_grants (d : Dev) (c i : Nat) : (d.diagL c i).grants = d.grants := (rfl)
@[simp] theorem Dev.diagL_raised (d : Dev) (c i : Nat) : (d.diagL c i).raised = d.raised := (rfl)
@[simp] theorem Dev.diagL_routeWas (d : Dev) (c i : Nat) : (d.diagL c i).routeWas = d.routeWas := (rfl)
@[simp] theorem Dev.diagL_rings (d : Dev) (c i : Nat) : (d.diagL c i).rings = d.rings := (rfl)
@[simp] theorem Dev.diagL_transit (d : Dev) (c i : Nat) : (d.diagL c i).transit = d.transit := (rfl)
@[simp] theorem Dev.diagL_chLast (d : Dev) (c i : Nat) : (d.diagL c i).chLast = d.chLast := (rfl)
@[simp] theorem Dev.diagL_pend (d : Dev) (c i : Nat) : (d.diagL c i).pend = d.pend := (rfl)
@[simp] theorem Dev.diagL_inLast (d : Dev) (c i : Nat) : (d.diagL c i).inLast = d.inLast := (rfl)
@[simp] theorem Dev.diagL_gateHist (d : Dev) (c i : Nat) : (d.diagL c i).gateHist = d.gateHist := (rfl)
@[simp] theorem Dev.diagL_cells (d : Dev) (c i : Nat) : (d.diagL c i).cells = d.cells := (rfl)
@[simp] theorem Dev.diagL_timers (d : Dev) (c i : Nat) : (d.diagL c i).timers = d.timers := (rfl)
@[simp] theorem Dev.diagL_go (d : Dev) (c i : Nat) : (d.diagL c i).go = d.go := (rfl)
@[simp] theorem Dev.diagL_pairs (d : Dev) (c i : Nat) : (d.diagL c i).pairs = d.pairs := (rfl)
@[simp] theorem Dev.diagL_lines (d : Dev) (c i : Nat) : (d.diagL c i).lines = d.lines := (rfl)
@[simp] theorem Dev.diagL_chans (d : Dev) (c i : Nat) : (d.diagL c i).chans = d.chans := (rfl)
@[simp] theorem Dev.diagL_sets (d : Dev) (c i : Nat) : (d.diagL c i).sets = d.sets := (rfl)
@[simp] theorem Dev.diagL_sdms (d : Dev) (c i : Nat) : (d.diagL c i).sdms = d.sdms := (rfl)
@[simp] theorem Dev.diagL_sdclks (d : Dev) (c i : Nat) : (d.diagL c i).sdclks = d.sdclks := (rfl)
@[simp] theorem Dev.diagL_rods (d : Dev) (c i : Nat) : (d.diagL c i).rods = d.rods := (rfl)
@[simp] theorem Dev.diagL_frames (d : Dev) (c i : Nat) : (d.diagL c i).frames = d.frames := (rfl)
@[simp] theorem Dev.diagL_presets (d : Dev) (c i : Nat) : (d.diagL c i).presets = d.presets := (rfl)
@[simp] theorem Dev.diagL_traces (d : Dev) (c i : Nat) : (d.diagL c i).traces = d.traces := (rfl)
@[simp] theorem Dev.diagL_fbks (d : Dev) (c i : Nat) : (d.diagL c i).fbks = d.fbks := (rfl)
@[simp] theorem Dev.diagL_beads (d : Dev) (c i : Nat) : (d.diagL c i).beads = d.beads := (rfl)
@[simp] theorem Dev.diagL_clasps (d : Dev) (c i : Nat) : (d.diagL c i).clasps = d.clasps := (rfl)
@[simp] theorem Dev.diagL_cores (d : Dev) (c i : Nat) : (d.diagL c i).cores = d.cores := (rfl)
@[simp] theorem Dev.diagL_icache (d : Dev) (c i : Nat) : (d.diagL c i).icache = d.icache := (rfl)
@[simp] theorem Dev.diagL_dcache (d : Dev) (c i : Nat) : (d.diagL c i).dcache = d.dcache := (rfl)
@[simp] theorem Dev.diagL_dma (d : Dev) (c i : Nat) : (d.diagL c i).dma = d.dma := (rfl)
@[simp] theorem Dev.diagL_dmaBusy (d : Dev) (c i : Nat) : (d.diagL c i).dmaBusy = d.dmaBusy := (rfl)
@[simp] theorem Dev.diagL_credits (d : Dev) (c i : Nat) : (d.diagL c i).credits = d.credits := (rfl)
@[simp] theorem Dev.diagL_losses (d : Dev) (c i : Nat) : (d.diagL c i).losses = d.losses := (rfl)
@[simp] theorem Dev.diagL_backoff (d : Dev) (c i : Nat) : (d.diagL c i).backoff = d.backoff := (rfl)
@[simp] theorem Dev.diagL_ledger (d : Dev) (c i : Nat) : (d.diagL c i).ledger = d.ledger := (rfl)
@[simp] theorem Dev.diagL_chozer (d : Dev) (c i : Nat) : (d.diagL c i).chozer = d.chozer := (rfl)
@[simp] theorem Dev.diagL_net (d : Dev) (c i : Nat) : (d.diagL c i).net = d.net := (rfl)
@[simp] theorem Dev.diagL_can (d : Dev) (c i : Nat) : (d.diagL c i).can = d.can := (rfl)
@[simp] theorem Dev.diagL_power (d : Dev) (c i : Nat) : (d.diagL c i).power = d.power := (rfl)
@[simp] theorem Dev.diagL_scrubAt (d : Dev) (c i : Nat) : (d.diagL c i).scrubAt = d.scrubAt := (rfl)
@[simp] theorem Dev.setIf_part (d : Dev) (c : Bool) (a : Nat) (f : Fld) : (d.setIf c a f).part = d.part := by cases c <;> rfl
@[simp] theorem Dev.setIf_beam (d : Dev) (c : Bool) (a : Nat) (f : Fld) : (d.setIf c a f).beam = d.beam := by cases c <;> rfl
@[simp] theorem Dev.setIf_stage (d : Dev) (c : Bool) (a : Nat) (f : Fld) : (d.setIf c a f).stage = d.stage := by cases c <;> rfl
@[simp] theorem Dev.setIf_free (d : Dev) (c : Bool) (a : Nat) (f : Fld) : (d.setIf c a f).free = d.free := by cases c <;> rfl
@[simp] theorem Dev.setIf_mem (d : Dev) (c : Bool) (a : Nat) (f : Fld) : (d.setIf c a f).mem = d.mem := by cases c <;> rfl
@[simp] theorem Dev.setIf_shadow (d : Dev) (c : Bool) (a : Nat) (f : Fld) : (d.setIf c a f).shadow = d.shadow := by cases c <;> rfl
@[simp] theorem Dev.setIf_agenda (d : Dev) (c : Bool) (a : Nat) (f : Fld) : (d.setIf c a f).agenda = d.agenda := by cases c <;> rfl
@[simp] theorem Dev.setIf_bus (d : Dev) (c : Bool) (a : Nat) (f : Fld) : (d.setIf c a f).bus = d.bus := by cases c <;> rfl
@[simp] theorem Dev.setIf_latch (d : Dev) (c : Bool) (a : Nat) (f : Fld) : (d.setIf c a f).latch = d.latch := by cases c <;> rfl
@[simp] theorem Dev.setIf_bits (d : Dev) (c : Bool) (a : Nat) (f : Fld) : (d.setIf c a f).bits = d.bits := by cases c <;> rfl
@[simp] theorem Dev.setIf_grants (d : Dev) (c : Bool) (a : Nat) (f : Fld) : (d.setIf c a f).grants = d.grants := by cases c <;> rfl
@[simp] theorem Dev.setIf_raised (d : Dev) (c : Bool) (a : Nat) (f : Fld) : (d.setIf c a f).raised = d.raised := by cases c <;> rfl
@[simp] theorem Dev.setIf_routeWas (d : Dev) (c : Bool) (a : Nat) (f : Fld) : (d.setIf c a f).routeWas = d.routeWas := by cases c <;> rfl
@[simp] theorem Dev.setIf_rings (d : Dev) (c : Bool) (a : Nat) (f : Fld) : (d.setIf c a f).rings = d.rings := by cases c <;> rfl
@[simp] theorem Dev.setIf_transit (d : Dev) (c : Bool) (a : Nat) (f : Fld) : (d.setIf c a f).transit = d.transit := by cases c <;> rfl
@[simp] theorem Dev.setIf_chLast (d : Dev) (c : Bool) (a : Nat) (f : Fld) : (d.setIf c a f).chLast = d.chLast := by cases c <;> rfl
@[simp] theorem Dev.setIf_pend (d : Dev) (c : Bool) (a : Nat) (f : Fld) : (d.setIf c a f).pend = d.pend := by cases c <;> rfl
@[simp] theorem Dev.setIf_inLast (d : Dev) (c : Bool) (a : Nat) (f : Fld) : (d.setIf c a f).inLast = d.inLast := by cases c <;> rfl
@[simp] theorem Dev.setIf_gateHist (d : Dev) (c : Bool) (a : Nat) (f : Fld) : (d.setIf c a f).gateHist = d.gateHist := by cases c <;> rfl
@[simp] theorem Dev.setIf_cells (d : Dev) (c : Bool) (a : Nat) (f : Fld) : (d.setIf c a f).cells = d.cells := by cases c <;> rfl
@[simp] theorem Dev.setIf_timers (d : Dev) (c : Bool) (a : Nat) (f : Fld) : (d.setIf c a f).timers = d.timers := by cases c <;> rfl
@[simp] theorem Dev.setIf_go (d : Dev) (c : Bool) (a : Nat) (f : Fld) : (d.setIf c a f).go = d.go := by cases c <;> rfl
@[simp] theorem Dev.setIf_pairs (d : Dev) (c : Bool) (a : Nat) (f : Fld) : (d.setIf c a f).pairs = d.pairs := by cases c <;> rfl
@[simp] theorem Dev.setIf_lines (d : Dev) (c : Bool) (a : Nat) (f : Fld) : (d.setIf c a f).lines = d.lines := by cases c <;> rfl
@[simp] theorem Dev.setIf_chans (d : Dev) (c : Bool) (a : Nat) (f : Fld) : (d.setIf c a f).chans = d.chans := by cases c <;> rfl
@[simp] theorem Dev.setIf_sets (d : Dev) (c : Bool) (a : Nat) (f : Fld) : (d.setIf c a f).sets = d.sets := by cases c <;> rfl
@[simp] theorem Dev.setIf_sdms (d : Dev) (c : Bool) (a : Nat) (f : Fld) : (d.setIf c a f).sdms = d.sdms := by cases c <;> rfl
@[simp] theorem Dev.setIf_sdclks (d : Dev) (c : Bool) (a : Nat) (f : Fld) : (d.setIf c a f).sdclks = d.sdclks := by cases c <;> rfl
@[simp] theorem Dev.setIf_rods (d : Dev) (c : Bool) (a : Nat) (f : Fld) : (d.setIf c a f).rods = d.rods := by cases c <;> rfl
@[simp] theorem Dev.setIf_frames (d : Dev) (c : Bool) (a : Nat) (f : Fld) : (d.setIf c a f).frames = d.frames := by cases c <;> rfl
@[simp] theorem Dev.setIf_presets (d : Dev) (c : Bool) (a : Nat) (f : Fld) : (d.setIf c a f).presets = d.presets := by cases c <;> rfl
@[simp] theorem Dev.setIf_traces (d : Dev) (c : Bool) (a : Nat) (f : Fld) : (d.setIf c a f).traces = d.traces := by cases c <;> rfl
@[simp] theorem Dev.setIf_fbks (d : Dev) (c : Bool) (a : Nat) (f : Fld) : (d.setIf c a f).fbks = d.fbks := by cases c <;> rfl
@[simp] theorem Dev.setIf_beads (d : Dev) (c : Bool) (a : Nat) (f : Fld) : (d.setIf c a f).beads = d.beads := by cases c <;> rfl
@[simp] theorem Dev.setIf_clasps (d : Dev) (c : Bool) (a : Nat) (f : Fld) : (d.setIf c a f).clasps = d.clasps := by cases c <;> rfl
@[simp] theorem Dev.setIf_cores (d : Dev) (c : Bool) (a : Nat) (f : Fld) : (d.setIf c a f).cores = d.cores := by cases c <;> rfl
@[simp] theorem Dev.setIf_icache (d : Dev) (c : Bool) (a : Nat) (f : Fld) : (d.setIf c a f).icache = d.icache := by cases c <;> rfl
@[simp] theorem Dev.setIf_dcache (d : Dev) (c : Bool) (a : Nat) (f : Fld) : (d.setIf c a f).dcache = d.dcache := by cases c <;> rfl
@[simp] theorem Dev.setIf_dma (d : Dev) (c : Bool) (a : Nat) (f : Fld) : (d.setIf c a f).dma = d.dma := by cases c <;> rfl
@[simp] theorem Dev.setIf_dmaBusy (d : Dev) (c : Bool) (a : Nat) (f : Fld) : (d.setIf c a f).dmaBusy = d.dmaBusy := by cases c <;> rfl
@[simp] theorem Dev.setIf_credits (d : Dev) (c : Bool) (a : Nat) (f : Fld) : (d.setIf c a f).credits = d.credits := by cases c <;> rfl
@[simp] theorem Dev.setIf_losses (d : Dev) (c : Bool) (a : Nat) (f : Fld) : (d.setIf c a f).losses = d.losses := by cases c <;> rfl
@[simp] theorem Dev.setIf_backoff (d : Dev) (c : Bool) (a : Nat) (f : Fld) : (d.setIf c a f).backoff = d.backoff := by cases c <;> rfl
@[simp] theorem Dev.setIf_ledger (d : Dev) (c : Bool) (a : Nat) (f : Fld) : (d.setIf c a f).ledger = d.ledger := by cases c <;> rfl
@[simp] theorem Dev.setIf_chozer (d : Dev) (c : Bool) (a : Nat) (f : Fld) : (d.setIf c a f).chozer = d.chozer := by cases c <;> rfl
@[simp] theorem Dev.setIf_net (d : Dev) (c : Bool) (a : Nat) (f : Fld) : (d.setIf c a f).net = d.net := by cases c <;> rfl
@[simp] theorem Dev.setIf_can (d : Dev) (c : Bool) (a : Nat) (f : Fld) : (d.setIf c a f).can = d.can := by cases c <;> rfl
@[simp] theorem Dev.setIf_power (d : Dev) (c : Bool) (a : Nat) (f : Fld) : (d.setIf c a f).power = d.power := by cases c <;> rfl
@[simp] theorem Dev.setIf_diag (d : Dev) (c : Bool) (a : Nat) (f : Fld) : (d.setIf c a f).diag = d.diag := by cases c <;> rfl
@[simp] theorem Dev.setIf_scrubAt (d : Dev) (c : Bool) (a : Nat) (f : Fld) : (d.setIf c a f).scrubAt = d.scrubAt := by cases c <;> rfl
@[simp] theorem Dev.setBit_part (d : Dev) (a i : Nat) (v : Bool) : (d.setBit a i v).part = d.part := by cases v <;> rfl
@[simp] theorem Dev.setBit_beam (d : Dev) (a i : Nat) (v : Bool) : (d.setBit a i v).beam = d.beam := by cases v <;> rfl
@[simp] theorem Dev.setBit_stage (d : Dev) (a i : Nat) (v : Bool) : (d.setBit a i v).stage = d.stage := by cases v <;> rfl
@[simp] theorem Dev.setBit_free (d : Dev) (a i : Nat) (v : Bool) : (d.setBit a i v).free = d.free := by cases v <;> rfl
@[simp] theorem Dev.setBit_mem (d : Dev) (a i : Nat) (v : Bool) : (d.setBit a i v).mem = d.mem := by cases v <;> rfl
@[simp] theorem Dev.setBit_shadow (d : Dev) (a i : Nat) (v : Bool) : (d.setBit a i v).shadow = d.shadow := by cases v <;> rfl
@[simp] theorem Dev.setBit_agenda (d : Dev) (a i : Nat) (v : Bool) : (d.setBit a i v).agenda = d.agenda := by cases v <;> rfl
@[simp] theorem Dev.setBit_bus (d : Dev) (a i : Nat) (v : Bool) : (d.setBit a i v).bus = d.bus := by cases v <;> rfl
@[simp] theorem Dev.setBit_latch (d : Dev) (a i : Nat) (v : Bool) : (d.setBit a i v).latch = d.latch := by cases v <;> rfl
@[simp] theorem Dev.setBit_bits (d : Dev) (a i : Nat) (v : Bool) : (d.setBit a i v).bits = d.bits := by cases v <;> rfl
@[simp] theorem Dev.setBit_grants (d : Dev) (a i : Nat) (v : Bool) : (d.setBit a i v).grants = d.grants := by cases v <;> rfl
@[simp] theorem Dev.setBit_raised (d : Dev) (a i : Nat) (v : Bool) : (d.setBit a i v).raised = d.raised := by cases v <;> rfl
@[simp] theorem Dev.setBit_routeWas (d : Dev) (a i : Nat) (v : Bool) : (d.setBit a i v).routeWas = d.routeWas := by cases v <;> rfl
@[simp] theorem Dev.setBit_rings (d : Dev) (a i : Nat) (v : Bool) : (d.setBit a i v).rings = d.rings := by cases v <;> rfl
@[simp] theorem Dev.setBit_transit (d : Dev) (a i : Nat) (v : Bool) : (d.setBit a i v).transit = d.transit := by cases v <;> rfl
@[simp] theorem Dev.setBit_chLast (d : Dev) (a i : Nat) (v : Bool) : (d.setBit a i v).chLast = d.chLast := by cases v <;> rfl
@[simp] theorem Dev.setBit_pend (d : Dev) (a i : Nat) (v : Bool) : (d.setBit a i v).pend = d.pend := by cases v <;> rfl
@[simp] theorem Dev.setBit_inLast (d : Dev) (a i : Nat) (v : Bool) : (d.setBit a i v).inLast = d.inLast := by cases v <;> rfl
@[simp] theorem Dev.setBit_gateHist (d : Dev) (a i : Nat) (v : Bool) : (d.setBit a i v).gateHist = d.gateHist := by cases v <;> rfl
@[simp] theorem Dev.setBit_cells (d : Dev) (a i : Nat) (v : Bool) : (d.setBit a i v).cells = d.cells := by cases v <;> rfl
@[simp] theorem Dev.setBit_timers (d : Dev) (a i : Nat) (v : Bool) : (d.setBit a i v).timers = d.timers := by cases v <;> rfl
@[simp] theorem Dev.setBit_go (d : Dev) (a i : Nat) (v : Bool) : (d.setBit a i v).go = d.go := by cases v <;> rfl
@[simp] theorem Dev.setBit_pairs (d : Dev) (a i : Nat) (v : Bool) : (d.setBit a i v).pairs = d.pairs := by cases v <;> rfl
@[simp] theorem Dev.setBit_lines (d : Dev) (a i : Nat) (v : Bool) : (d.setBit a i v).lines = d.lines := by cases v <;> rfl
@[simp] theorem Dev.setBit_chans (d : Dev) (a i : Nat) (v : Bool) : (d.setBit a i v).chans = d.chans := by cases v <;> rfl
@[simp] theorem Dev.setBit_sets (d : Dev) (a i : Nat) (v : Bool) : (d.setBit a i v).sets = d.sets := by cases v <;> rfl
@[simp] theorem Dev.setBit_sdms (d : Dev) (a i : Nat) (v : Bool) : (d.setBit a i v).sdms = d.sdms := by cases v <;> rfl
@[simp] theorem Dev.setBit_sdclks (d : Dev) (a i : Nat) (v : Bool) : (d.setBit a i v).sdclks = d.sdclks := by cases v <;> rfl
@[simp] theorem Dev.setBit_rods (d : Dev) (a i : Nat) (v : Bool) : (d.setBit a i v).rods = d.rods := by cases v <;> rfl
@[simp] theorem Dev.setBit_frames (d : Dev) (a i : Nat) (v : Bool) : (d.setBit a i v).frames = d.frames := by cases v <;> rfl
@[simp] theorem Dev.setBit_presets (d : Dev) (a i : Nat) (v : Bool) : (d.setBit a i v).presets = d.presets := by cases v <;> rfl
@[simp] theorem Dev.setBit_traces (d : Dev) (a i : Nat) (v : Bool) : (d.setBit a i v).traces = d.traces := by cases v <;> rfl
@[simp] theorem Dev.setBit_fbks (d : Dev) (a i : Nat) (v : Bool) : (d.setBit a i v).fbks = d.fbks := by cases v <;> rfl
@[simp] theorem Dev.setBit_beads (d : Dev) (a i : Nat) (v : Bool) : (d.setBit a i v).beads = d.beads := by cases v <;> rfl
@[simp] theorem Dev.setBit_clasps (d : Dev) (a i : Nat) (v : Bool) : (d.setBit a i v).clasps = d.clasps := by cases v <;> rfl
@[simp] theorem Dev.setBit_cores (d : Dev) (a i : Nat) (v : Bool) : (d.setBit a i v).cores = d.cores := by cases v <;> rfl
@[simp] theorem Dev.setBit_icache (d : Dev) (a i : Nat) (v : Bool) : (d.setBit a i v).icache = d.icache := by cases v <;> rfl
@[simp] theorem Dev.setBit_dcache (d : Dev) (a i : Nat) (v : Bool) : (d.setBit a i v).dcache = d.dcache := by cases v <;> rfl
@[simp] theorem Dev.setBit_dma (d : Dev) (a i : Nat) (v : Bool) : (d.setBit a i v).dma = d.dma := by cases v <;> rfl
@[simp] theorem Dev.setBit_dmaBusy (d : Dev) (a i : Nat) (v : Bool) : (d.setBit a i v).dmaBusy = d.dmaBusy := by cases v <;> rfl
@[simp] theorem Dev.setBit_credits (d : Dev) (a i : Nat) (v : Bool) : (d.setBit a i v).credits = d.credits := by cases v <;> rfl
@[simp] theorem Dev.setBit_losses (d : Dev) (a i : Nat) (v : Bool) : (d.setBit a i v).losses = d.losses := by cases v <;> rfl
@[simp] theorem Dev.setBit_backoff (d : Dev) (a i : Nat) (v : Bool) : (d.setBit a i v).backoff = d.backoff := by cases v <;> rfl
@[simp] theorem Dev.setBit_ledger (d : Dev) (a i : Nat) (v : Bool) : (d.setBit a i v).ledger = d.ledger := by cases v <;> rfl
@[simp] theorem Dev.setBit_chozer (d : Dev) (a i : Nat) (v : Bool) : (d.setBit a i v).chozer = d.chozer := by cases v <;> rfl
@[simp] theorem Dev.setBit_net (d : Dev) (a i : Nat) (v : Bool) : (d.setBit a i v).net = d.net := by cases v <;> rfl
@[simp] theorem Dev.setBit_can (d : Dev) (a i : Nat) (v : Bool) : (d.setBit a i v).can = d.can := by cases v <;> rfl
@[simp] theorem Dev.setBit_power (d : Dev) (a i : Nat) (v : Bool) : (d.setBit a i v).power = d.power := by cases v <;> rfl
@[simp] theorem Dev.setBit_diag (d : Dev) (a i : Nat) (v : Bool) : (d.setBit a i v).diag = d.diag := by cases v <;> rfl
@[simp] theorem Dev.setBit_scrubAt (d : Dev) (a i : Nat) (v : Bool) : (d.setBit a i v).scrubAt = d.scrubAt := by cases v <;> rfl
@[simp] theorem Dev.raiseIf_part (d : Dev) (c : Bool) (src p : Nat) : (d.raiseIf c src p).part = d.part := by cases c <;> rfl
@[simp] theorem Dev.raiseIf_beam (d : Dev) (c : Bool) (src p : Nat) : (d.raiseIf c src p).beam = d.beam := by cases c <;> rfl
@[simp] theorem Dev.raiseIf_stage (d : Dev) (c : Bool) (src p : Nat) : (d.raiseIf c src p).stage = d.stage := by cases c <;> rfl
@[simp] theorem Dev.raiseIf_free (d : Dev) (c : Bool) (src p : Nat) : (d.raiseIf c src p).free = d.free := by cases c <;> rfl
@[simp] theorem Dev.raiseIf_regs (d : Dev) (c : Bool) (src p : Nat) : (d.raiseIf c src p).regs = d.regs := by cases c <;> rfl
@[simp] theorem Dev.raiseIf_mem (d : Dev) (c : Bool) (src p : Nat) : (d.raiseIf c src p).mem = d.mem := by cases c <;> rfl
@[simp] theorem Dev.raiseIf_fresh (d : Dev) (c : Bool) (src p : Nat) : (d.raiseIf c src p).fresh = d.fresh := by cases c <;> rfl
@[simp] theorem Dev.raiseIf_shadow (d : Dev) (c : Bool) (src p : Nat) : (d.raiseIf c src p).shadow = d.shadow := by cases c <;> rfl
@[simp] theorem Dev.raiseIf_agenda (d : Dev) (c : Bool) (src p : Nat) : (d.raiseIf c src p).agenda = d.agenda := by cases c <;> rfl
@[simp] theorem Dev.raiseIf_bus (d : Dev) (c : Bool) (src p : Nat) : (d.raiseIf c src p).bus = d.bus := by cases c <;> rfl
@[simp] theorem Dev.raiseIf_latch (d : Dev) (c : Bool) (src p : Nat) : (d.raiseIf c src p).latch = d.latch := by cases c <;> rfl
@[simp] theorem Dev.raiseIf_bits (d : Dev) (c : Bool) (src p : Nat) : (d.raiseIf c src p).bits = d.bits := by cases c <;> rfl
@[simp] theorem Dev.raiseIf_grants (d : Dev) (c : Bool) (src p : Nat) : (d.raiseIf c src p).grants = d.grants := by cases c <;> rfl
@[simp] theorem Dev.raiseIf_routeWas (d : Dev) (c : Bool) (src p : Nat) : (d.raiseIf c src p).routeWas = d.routeWas := by cases c <;> rfl
@[simp] theorem Dev.raiseIf_rings (d : Dev) (c : Bool) (src p : Nat) : (d.raiseIf c src p).rings = d.rings := by cases c <;> rfl
@[simp] theorem Dev.raiseIf_transit (d : Dev) (c : Bool) (src p : Nat) : (d.raiseIf c src p).transit = d.transit := by cases c <;> rfl
@[simp] theorem Dev.raiseIf_chLast (d : Dev) (c : Bool) (src p : Nat) : (d.raiseIf c src p).chLast = d.chLast := by cases c <;> rfl
@[simp] theorem Dev.raiseIf_pend (d : Dev) (c : Bool) (src p : Nat) : (d.raiseIf c src p).pend = d.pend := by cases c <;> rfl
@[simp] theorem Dev.raiseIf_inLast (d : Dev) (c : Bool) (src p : Nat) : (d.raiseIf c src p).inLast = d.inLast := by cases c <;> rfl
@[simp] theorem Dev.raiseIf_gateHist (d : Dev) (c : Bool) (src p : Nat) : (d.raiseIf c src p).gateHist = d.gateHist := by cases c <;> rfl
@[simp] theorem Dev.raiseIf_cells (d : Dev) (c : Bool) (src p : Nat) : (d.raiseIf c src p).cells = d.cells := by cases c <;> rfl
@[simp] theorem Dev.raiseIf_timers (d : Dev) (c : Bool) (src p : Nat) : (d.raiseIf c src p).timers = d.timers := by cases c <;> rfl
@[simp] theorem Dev.raiseIf_go (d : Dev) (c : Bool) (src p : Nat) : (d.raiseIf c src p).go = d.go := by cases c <;> rfl
@[simp] theorem Dev.raiseIf_pairs (d : Dev) (c : Bool) (src p : Nat) : (d.raiseIf c src p).pairs = d.pairs := by cases c <;> rfl
@[simp] theorem Dev.raiseIf_lines (d : Dev) (c : Bool) (src p : Nat) : (d.raiseIf c src p).lines = d.lines := by cases c <;> rfl
@[simp] theorem Dev.raiseIf_chans (d : Dev) (c : Bool) (src p : Nat) : (d.raiseIf c src p).chans = d.chans := by cases c <;> rfl
@[simp] theorem Dev.raiseIf_sets (d : Dev) (c : Bool) (src p : Nat) : (d.raiseIf c src p).sets = d.sets := by cases c <;> rfl
@[simp] theorem Dev.raiseIf_sdms (d : Dev) (c : Bool) (src p : Nat) : (d.raiseIf c src p).sdms = d.sdms := by cases c <;> rfl
@[simp] theorem Dev.raiseIf_sdclks (d : Dev) (c : Bool) (src p : Nat) : (d.raiseIf c src p).sdclks = d.sdclks := by cases c <;> rfl
@[simp] theorem Dev.raiseIf_rods (d : Dev) (c : Bool) (src p : Nat) : (d.raiseIf c src p).rods = d.rods := by cases c <;> rfl
@[simp] theorem Dev.raiseIf_frames (d : Dev) (c : Bool) (src p : Nat) : (d.raiseIf c src p).frames = d.frames := by cases c <;> rfl
@[simp] theorem Dev.raiseIf_presets (d : Dev) (c : Bool) (src p : Nat) : (d.raiseIf c src p).presets = d.presets := by cases c <;> rfl
@[simp] theorem Dev.raiseIf_traces (d : Dev) (c : Bool) (src p : Nat) : (d.raiseIf c src p).traces = d.traces := by cases c <;> rfl
@[simp] theorem Dev.raiseIf_fbks (d : Dev) (c : Bool) (src p : Nat) : (d.raiseIf c src p).fbks = d.fbks := by cases c <;> rfl
@[simp] theorem Dev.raiseIf_beads (d : Dev) (c : Bool) (src p : Nat) : (d.raiseIf c src p).beads = d.beads := by cases c <;> rfl
@[simp] theorem Dev.raiseIf_clasps (d : Dev) (c : Bool) (src p : Nat) : (d.raiseIf c src p).clasps = d.clasps := by cases c <;> rfl
@[simp] theorem Dev.raiseIf_cores (d : Dev) (c : Bool) (src p : Nat) : (d.raiseIf c src p).cores = d.cores := by cases c <;> rfl
@[simp] theorem Dev.raiseIf_icache (d : Dev) (c : Bool) (src p : Nat) : (d.raiseIf c src p).icache = d.icache := by cases c <;> rfl
@[simp] theorem Dev.raiseIf_dcache (d : Dev) (c : Bool) (src p : Nat) : (d.raiseIf c src p).dcache = d.dcache := by cases c <;> rfl
@[simp] theorem Dev.raiseIf_dma (d : Dev) (c : Bool) (src p : Nat) : (d.raiseIf c src p).dma = d.dma := by cases c <;> rfl
@[simp] theorem Dev.raiseIf_dmaBusy (d : Dev) (c : Bool) (src p : Nat) : (d.raiseIf c src p).dmaBusy = d.dmaBusy := by cases c <;> rfl
@[simp] theorem Dev.raiseIf_credits (d : Dev) (c : Bool) (src p : Nat) : (d.raiseIf c src p).credits = d.credits := by cases c <;> rfl
@[simp] theorem Dev.raiseIf_losses (d : Dev) (c : Bool) (src p : Nat) : (d.raiseIf c src p).losses = d.losses := by cases c <;> rfl
@[simp] theorem Dev.raiseIf_backoff (d : Dev) (c : Bool) (src p : Nat) : (d.raiseIf c src p).backoff = d.backoff := by cases c <;> rfl
@[simp] theorem Dev.raiseIf_ledger (d : Dev) (c : Bool) (src p : Nat) : (d.raiseIf c src p).ledger = d.ledger := by cases c <;> rfl
@[simp] theorem Dev.raiseIf_chozer (d : Dev) (c : Bool) (src p : Nat) : (d.raiseIf c src p).chozer = d.chozer := by cases c <;> rfl
@[simp] theorem Dev.raiseIf_net (d : Dev) (c : Bool) (src p : Nat) : (d.raiseIf c src p).net = d.net := by cases c <;> rfl
@[simp] theorem Dev.raiseIf_can (d : Dev) (c : Bool) (src p : Nat) : (d.raiseIf c src p).can = d.can := by cases c <;> rfl
@[simp] theorem Dev.raiseIf_power (d : Dev) (c : Bool) (src p : Nat) : (d.raiseIf c src p).power = d.power := by cases c <;> rfl
@[simp] theorem Dev.raiseIf_diag (d : Dev) (c : Bool) (src p : Nat) : (d.raiseIf c src p).diag = d.diag := by cases c <;> rfl
@[simp] theorem Dev.raiseIf_scrubAt (d : Dev) (c : Bool) (src p : Nat) : (d.raiseIf c src p).scrubAt = d.scrubAt := by cases c <;> rfl
@[simp] theorem Dev.fireAt_part (d : Dev) (isl code origin : Nat) : (d.fireAt isl code origin).part = d.part := by unfold Dev.fireAt; split <;> rfl
@[simp] theorem Dev.fireAt_beam (d : Dev) (isl code origin : Nat) : (d.fireAt isl code origin).beam = d.beam := by unfold Dev.fireAt; split <;> rfl
@[simp] theorem Dev.fireAt_stage (d : Dev) (isl code origin : Nat) : (d.fireAt isl code origin).stage = d.stage := by unfold Dev.fireAt; split <;> rfl
@[simp] theorem Dev.fireAt_free (d : Dev) (isl code origin : Nat) : (d.fireAt isl code origin).free = d.free := by unfold Dev.fireAt; split <;> rfl
@[simp] theorem Dev.fireAt_regs (d : Dev) (isl code origin : Nat) : (d.fireAt isl code origin).regs = d.regs := by unfold Dev.fireAt; split <;> rfl
@[simp] theorem Dev.fireAt_mem (d : Dev) (isl code origin : Nat) : (d.fireAt isl code origin).mem = d.mem := by unfold Dev.fireAt; split <;> rfl
@[simp] theorem Dev.fireAt_fresh (d : Dev) (isl code origin : Nat) : (d.fireAt isl code origin).fresh = d.fresh := by unfold Dev.fireAt; split <;> rfl
@[simp] theorem Dev.fireAt_shadow (d : Dev) (isl code origin : Nat) : (d.fireAt isl code origin).shadow = d.shadow := by unfold Dev.fireAt; split <;> rfl
@[simp] theorem Dev.fireAt_agenda (d : Dev) (isl code origin : Nat) : (d.fireAt isl code origin).agenda = d.agenda := by unfold Dev.fireAt; split <;> rfl
@[simp] theorem Dev.fireAt_bus (d : Dev) (isl code origin : Nat) : (d.fireAt isl code origin).bus = d.bus := by unfold Dev.fireAt; split <;> rfl
@[simp] theorem Dev.fireAt_latch (d : Dev) (isl code origin : Nat) : (d.fireAt isl code origin).latch = d.latch := by unfold Dev.fireAt; split <;> rfl
@[simp] theorem Dev.fireAt_bits (d : Dev) (isl code origin : Nat) : (d.fireAt isl code origin).bits = d.bits := by unfold Dev.fireAt; split <;> rfl
@[simp] theorem Dev.fireAt_grants (d : Dev) (isl code origin : Nat) : (d.fireAt isl code origin).grants = d.grants := by unfold Dev.fireAt; split <;> rfl
@[simp] theorem Dev.fireAt_raised (d : Dev) (isl code origin : Nat) : (d.fireAt isl code origin).raised = d.raised := by unfold Dev.fireAt; split <;> rfl
@[simp] theorem Dev.fireAt_routeWas (d : Dev) (isl code origin : Nat) : (d.fireAt isl code origin).routeWas = d.routeWas := by unfold Dev.fireAt; split <;> rfl
@[simp] theorem Dev.fireAt_rings (d : Dev) (isl code origin : Nat) : (d.fireAt isl code origin).rings = d.rings := by unfold Dev.fireAt; split <;> rfl
@[simp] theorem Dev.fireAt_chLast (d : Dev) (isl code origin : Nat) : (d.fireAt isl code origin).chLast = d.chLast := by unfold Dev.fireAt; split <;> rfl
@[simp] theorem Dev.fireAt_pend (d : Dev) (isl code origin : Nat) : (d.fireAt isl code origin).pend = d.pend := by unfold Dev.fireAt; split <;> rfl
@[simp] theorem Dev.fireAt_inLast (d : Dev) (isl code origin : Nat) : (d.fireAt isl code origin).inLast = d.inLast := by unfold Dev.fireAt; split <;> rfl
@[simp] theorem Dev.fireAt_gateHist (d : Dev) (isl code origin : Nat) : (d.fireAt isl code origin).gateHist = d.gateHist := by unfold Dev.fireAt; split <;> rfl
@[simp] theorem Dev.fireAt_cells (d : Dev) (isl code origin : Nat) : (d.fireAt isl code origin).cells = d.cells := by unfold Dev.fireAt; split <;> rfl
@[simp] theorem Dev.fireAt_timers (d : Dev) (isl code origin : Nat) : (d.fireAt isl code origin).timers = d.timers := by unfold Dev.fireAt; split <;> rfl
@[simp] theorem Dev.fireAt_go (d : Dev) (isl code origin : Nat) : (d.fireAt isl code origin).go = d.go := by unfold Dev.fireAt; split <;> rfl
@[simp] theorem Dev.fireAt_pairs (d : Dev) (isl code origin : Nat) : (d.fireAt isl code origin).pairs = d.pairs := by unfold Dev.fireAt; split <;> rfl
@[simp] theorem Dev.fireAt_lines (d : Dev) (isl code origin : Nat) : (d.fireAt isl code origin).lines = d.lines := by unfold Dev.fireAt; split <;> rfl
@[simp] theorem Dev.fireAt_chans (d : Dev) (isl code origin : Nat) : (d.fireAt isl code origin).chans = d.chans := by unfold Dev.fireAt; split <;> rfl
@[simp] theorem Dev.fireAt_sets (d : Dev) (isl code origin : Nat) : (d.fireAt isl code origin).sets = d.sets := by unfold Dev.fireAt; split <;> rfl
@[simp] theorem Dev.fireAt_sdms (d : Dev) (isl code origin : Nat) : (d.fireAt isl code origin).sdms = d.sdms := by unfold Dev.fireAt; split <;> rfl
@[simp] theorem Dev.fireAt_sdclks (d : Dev) (isl code origin : Nat) : (d.fireAt isl code origin).sdclks = d.sdclks := by unfold Dev.fireAt; split <;> rfl
@[simp] theorem Dev.fireAt_rods (d : Dev) (isl code origin : Nat) : (d.fireAt isl code origin).rods = d.rods := by unfold Dev.fireAt; split <;> rfl
@[simp] theorem Dev.fireAt_frames (d : Dev) (isl code origin : Nat) : (d.fireAt isl code origin).frames = d.frames := by unfold Dev.fireAt; split <;> rfl
@[simp] theorem Dev.fireAt_presets (d : Dev) (isl code origin : Nat) : (d.fireAt isl code origin).presets = d.presets := by unfold Dev.fireAt; split <;> rfl
@[simp] theorem Dev.fireAt_traces (d : Dev) (isl code origin : Nat) : (d.fireAt isl code origin).traces = d.traces := by unfold Dev.fireAt; split <;> rfl
@[simp] theorem Dev.fireAt_fbks (d : Dev) (isl code origin : Nat) : (d.fireAt isl code origin).fbks = d.fbks := by unfold Dev.fireAt; split <;> rfl
@[simp] theorem Dev.fireAt_beads (d : Dev) (isl code origin : Nat) : (d.fireAt isl code origin).beads = d.beads := by unfold Dev.fireAt; split <;> rfl
@[simp] theorem Dev.fireAt_clasps (d : Dev) (isl code origin : Nat) : (d.fireAt isl code origin).clasps = d.clasps := by unfold Dev.fireAt; split <;> rfl
@[simp] theorem Dev.fireAt_cores (d : Dev) (isl code origin : Nat) : (d.fireAt isl code origin).cores = d.cores := by unfold Dev.fireAt; split <;> rfl
@[simp] theorem Dev.fireAt_icache (d : Dev) (isl code origin : Nat) : (d.fireAt isl code origin).icache = d.icache := by unfold Dev.fireAt; split <;> rfl
@[simp] theorem Dev.fireAt_dcache (d : Dev) (isl code origin : Nat) : (d.fireAt isl code origin).dcache = d.dcache := by unfold Dev.fireAt; split <;> rfl
@[simp] theorem Dev.fireAt_dma (d : Dev) (isl code origin : Nat) : (d.fireAt isl code origin).dma = d.dma := by unfold Dev.fireAt; split <;> rfl
@[simp] theorem Dev.fireAt_dmaBusy (d : Dev) (isl code origin : Nat) : (d.fireAt isl code origin).dmaBusy = d.dmaBusy := by unfold Dev.fireAt; split <;> rfl
@[simp] theorem Dev.fireAt_credits (d : Dev) (isl code origin : Nat) : (d.fireAt isl code origin).credits = d.credits := by unfold Dev.fireAt; split <;> rfl
@[simp] theorem Dev.fireAt_losses (d : Dev) (isl code origin : Nat) : (d.fireAt isl code origin).losses = d.losses := by unfold Dev.fireAt; split <;> rfl
@[simp] theorem Dev.fireAt_backoff (d : Dev) (isl code origin : Nat) : (d.fireAt isl code origin).backoff = d.backoff := by unfold Dev.fireAt; split <;> rfl
@[simp] theorem Dev.fireAt_ledger (d : Dev) (isl code origin : Nat) : (d.fireAt isl code origin).ledger = d.ledger := by unfold Dev.fireAt; split <;> rfl
@[simp] theorem Dev.fireAt_chozer (d : Dev) (isl code origin : Nat) : (d.fireAt isl code origin).chozer = d.chozer := by unfold Dev.fireAt; split <;> rfl
@[simp] theorem Dev.fireAt_net (d : Dev) (isl code origin : Nat) : (d.fireAt isl code origin).net = d.net := by unfold Dev.fireAt; split <;> rfl
@[simp] theorem Dev.fireAt_can (d : Dev) (isl code origin : Nat) : (d.fireAt isl code origin).can = d.can := by unfold Dev.fireAt; split <;> rfl
@[simp] theorem Dev.fireAt_power (d : Dev) (isl code origin : Nat) : (d.fireAt isl code origin).power = d.power := by unfold Dev.fireAt; split <;> rfl
@[simp] theorem Dev.fireAt_diag (d : Dev) (isl code origin : Nat) : (d.fireAt isl code origin).diag = d.diag := by unfold Dev.fireAt; split <;> rfl
@[simp] theorem Dev.fireAt_scrubAt (d : Dev) (isl code origin : Nat) : (d.fireAt isl code origin).scrubAt = d.scrubAt := by unfold Dev.fireAt; split <;> rfl
@[simp] theorem Dev.fire_part (d : Dev) (isl code : Nat) : (d.fire isl code).part = d.part := by unfold Dev.fire Dev.fireAt; split <;> rfl
@[simp] theorem Dev.fire_beam (d : Dev) (isl code : Nat) : (d.fire isl code).beam = d.beam := by unfold Dev.fire Dev.fireAt; split <;> rfl
@[simp] theorem Dev.fire_stage (d : Dev) (isl code : Nat) : (d.fire isl code).stage = d.stage := by unfold Dev.fire Dev.fireAt; split <;> rfl
@[simp] theorem Dev.fire_free (d : Dev) (isl code : Nat) : (d.fire isl code).free = d.free := by unfold Dev.fire Dev.fireAt; split <;> rfl
@[simp] theorem Dev.fire_regs (d : Dev) (isl code : Nat) : (d.fire isl code).regs = d.regs := by unfold Dev.fire Dev.fireAt; split <;> rfl
@[simp] theorem Dev.fire_mem (d : Dev) (isl code : Nat) : (d.fire isl code).mem = d.mem := by unfold Dev.fire Dev.fireAt; split <;> rfl
@[simp] theorem Dev.fire_fresh (d : Dev) (isl code : Nat) : (d.fire isl code).fresh = d.fresh := by unfold Dev.fire Dev.fireAt; split <;> rfl
@[simp] theorem Dev.fire_shadow (d : Dev) (isl code : Nat) : (d.fire isl code).shadow = d.shadow := by unfold Dev.fire Dev.fireAt; split <;> rfl
@[simp] theorem Dev.fire_agenda (d : Dev) (isl code : Nat) : (d.fire isl code).agenda = d.agenda := by unfold Dev.fire Dev.fireAt; split <;> rfl
@[simp] theorem Dev.fire_bus (d : Dev) (isl code : Nat) : (d.fire isl code).bus = d.bus := by unfold Dev.fire Dev.fireAt; split <;> rfl
@[simp] theorem Dev.fire_latch (d : Dev) (isl code : Nat) : (d.fire isl code).latch = d.latch := by unfold Dev.fire Dev.fireAt; split <;> rfl
@[simp] theorem Dev.fire_bits (d : Dev) (isl code : Nat) : (d.fire isl code).bits = d.bits := by unfold Dev.fire Dev.fireAt; split <;> rfl
@[simp] theorem Dev.fire_grants (d : Dev) (isl code : Nat) : (d.fire isl code).grants = d.grants := by unfold Dev.fire Dev.fireAt; split <;> rfl
@[simp] theorem Dev.fire_raised (d : Dev) (isl code : Nat) : (d.fire isl code).raised = d.raised := by unfold Dev.fire Dev.fireAt; split <;> rfl
@[simp] theorem Dev.fire_routeWas (d : Dev) (isl code : Nat) : (d.fire isl code).routeWas = d.routeWas := by unfold Dev.fire Dev.fireAt; split <;> rfl
@[simp] theorem Dev.fire_rings (d : Dev) (isl code : Nat) : (d.fire isl code).rings = d.rings := by unfold Dev.fire Dev.fireAt; split <;> rfl
@[simp] theorem Dev.fire_chLast (d : Dev) (isl code : Nat) : (d.fire isl code).chLast = d.chLast := by unfold Dev.fire Dev.fireAt; split <;> rfl
@[simp] theorem Dev.fire_pend (d : Dev) (isl code : Nat) : (d.fire isl code).pend = d.pend := by unfold Dev.fire Dev.fireAt; split <;> rfl
@[simp] theorem Dev.fire_inLast (d : Dev) (isl code : Nat) : (d.fire isl code).inLast = d.inLast := by unfold Dev.fire Dev.fireAt; split <;> rfl
@[simp] theorem Dev.fire_gateHist (d : Dev) (isl code : Nat) : (d.fire isl code).gateHist = d.gateHist := by unfold Dev.fire Dev.fireAt; split <;> rfl
@[simp] theorem Dev.fire_cells (d : Dev) (isl code : Nat) : (d.fire isl code).cells = d.cells := by unfold Dev.fire Dev.fireAt; split <;> rfl
@[simp] theorem Dev.fire_timers (d : Dev) (isl code : Nat) : (d.fire isl code).timers = d.timers := by unfold Dev.fire Dev.fireAt; split <;> rfl
@[simp] theorem Dev.fire_go (d : Dev) (isl code : Nat) : (d.fire isl code).go = d.go := by unfold Dev.fire Dev.fireAt; split <;> rfl
@[simp] theorem Dev.fire_pairs (d : Dev) (isl code : Nat) : (d.fire isl code).pairs = d.pairs := by unfold Dev.fire Dev.fireAt; split <;> rfl
@[simp] theorem Dev.fire_lines (d : Dev) (isl code : Nat) : (d.fire isl code).lines = d.lines := by unfold Dev.fire Dev.fireAt; split <;> rfl
@[simp] theorem Dev.fire_chans (d : Dev) (isl code : Nat) : (d.fire isl code).chans = d.chans := by unfold Dev.fire Dev.fireAt; split <;> rfl
@[simp] theorem Dev.fire_sets (d : Dev) (isl code : Nat) : (d.fire isl code).sets = d.sets := by unfold Dev.fire Dev.fireAt; split <;> rfl
@[simp] theorem Dev.fire_sdms (d : Dev) (isl code : Nat) : (d.fire isl code).sdms = d.sdms := by unfold Dev.fire Dev.fireAt; split <;> rfl
@[simp] theorem Dev.fire_sdclks (d : Dev) (isl code : Nat) : (d.fire isl code).sdclks = d.sdclks := by unfold Dev.fire Dev.fireAt; split <;> rfl
@[simp] theorem Dev.fire_rods (d : Dev) (isl code : Nat) : (d.fire isl code).rods = d.rods := by unfold Dev.fire Dev.fireAt; split <;> rfl
@[simp] theorem Dev.fire_frames (d : Dev) (isl code : Nat) : (d.fire isl code).frames = d.frames := by unfold Dev.fire Dev.fireAt; split <;> rfl
@[simp] theorem Dev.fire_presets (d : Dev) (isl code : Nat) : (d.fire isl code).presets = d.presets := by unfold Dev.fire Dev.fireAt; split <;> rfl
@[simp] theorem Dev.fire_traces (d : Dev) (isl code : Nat) : (d.fire isl code).traces = d.traces := by unfold Dev.fire Dev.fireAt; split <;> rfl
@[simp] theorem Dev.fire_fbks (d : Dev) (isl code : Nat) : (d.fire isl code).fbks = d.fbks := by unfold Dev.fire Dev.fireAt; split <;> rfl
@[simp] theorem Dev.fire_beads (d : Dev) (isl code : Nat) : (d.fire isl code).beads = d.beads := by unfold Dev.fire Dev.fireAt; split <;> rfl
@[simp] theorem Dev.fire_clasps (d : Dev) (isl code : Nat) : (d.fire isl code).clasps = d.clasps := by unfold Dev.fire Dev.fireAt; split <;> rfl
@[simp] theorem Dev.fire_cores (d : Dev) (isl code : Nat) : (d.fire isl code).cores = d.cores := by unfold Dev.fire Dev.fireAt; split <;> rfl
@[simp] theorem Dev.fire_icache (d : Dev) (isl code : Nat) : (d.fire isl code).icache = d.icache := by unfold Dev.fire Dev.fireAt; split <;> rfl
@[simp] theorem Dev.fire_dcache (d : Dev) (isl code : Nat) : (d.fire isl code).dcache = d.dcache := by unfold Dev.fire Dev.fireAt; split <;> rfl
@[simp] theorem Dev.fire_dma (d : Dev) (isl code : Nat) : (d.fire isl code).dma = d.dma := by unfold Dev.fire Dev.fireAt; split <;> rfl
@[simp] theorem Dev.fire_dmaBusy (d : Dev) (isl code : Nat) : (d.fire isl code).dmaBusy = d.dmaBusy := by unfold Dev.fire Dev.fireAt; split <;> rfl
@[simp] theorem Dev.fire_credits (d : Dev) (isl code : Nat) : (d.fire isl code).credits = d.credits := by unfold Dev.fire Dev.fireAt; split <;> rfl
@[simp] theorem Dev.fire_losses (d : Dev) (isl code : Nat) : (d.fire isl code).losses = d.losses := by unfold Dev.fire Dev.fireAt; split <;> rfl
@[simp] theorem Dev.fire_backoff (d : Dev) (isl code : Nat) : (d.fire isl code).backoff = d.backoff := by unfold Dev.fire Dev.fireAt; split <;> rfl
@[simp] theorem Dev.fire_ledger (d : Dev) (isl code : Nat) : (d.fire isl code).ledger = d.ledger := by unfold Dev.fire Dev.fireAt; split <;> rfl
@[simp] theorem Dev.fire_chozer (d : Dev) (isl code : Nat) : (d.fire isl code).chozer = d.chozer := by unfold Dev.fire Dev.fireAt; split <;> rfl
@[simp] theorem Dev.fire_net (d : Dev) (isl code : Nat) : (d.fire isl code).net = d.net := by unfold Dev.fire Dev.fireAt; split <;> rfl
@[simp] theorem Dev.fire_can (d : Dev) (isl code : Nat) : (d.fire isl code).can = d.can := by unfold Dev.fire Dev.fireAt; split <;> rfl
@[simp] theorem Dev.fire_power (d : Dev) (isl code : Nat) : (d.fire isl code).power = d.power := by unfold Dev.fire Dev.fireAt; split <;> rfl
@[simp] theorem Dev.fire_diag (d : Dev) (isl code : Nat) : (d.fire isl code).diag = d.diag := by unfold Dev.fire Dev.fireAt; split <;> rfl
@[simp] theorem Dev.fire_scrubAt (d : Dev) (isl code : Nat) : (d.fire isl code).scrubAt = d.scrubAt := by unfold Dev.fire Dev.fireAt; split <;> rfl

/-! ### Units under updates of other fields -/

@[simp] theorem Dev.w_timer (d : Dev) (a : Nat) (v : Word) (u w : Nat) : (d.w a v).timer u w = d.timer u w := (rfl)
@[simp] theorem Dev.w_pair (d : Dev) (a : Nat) (v : Word) (u w : Nat) : (d.w a v).pair u w = d.pair u w := (rfl)
@[simp] theorem Dev.w_line (d : Dev) (a : Nat) (v : Word) (u w : Nat) : (d.w a v).line u w = d.line u w := (rfl)
@[simp] theorem Dev.w_chan (d : Dev) (a : Nat) (v : Word) (u w : Nat) : (d.w a v).chan u w = d.chan u w := (rfl)
@[simp] theorem Dev.w_sset (d : Dev) (a : Nat) (v : Word) (u : Nat) : (d.w a v).sset u = d.sset u := (rfl)
@[simp] theorem Dev.w_sdm (d : Dev) (a : Nat) (v : Word) (u w : Nat) : (d.w a v).sdm u w = d.sdm u w := (rfl)
@[simp] theorem Dev.w_sdclk (d : Dev) (a : Nat) (v : Word) (u w : Nat) : (d.w a v).sdclk u w = d.sdclk u w := (rfl)
@[simp] theorem Dev.w_rod (d : Dev) (a : Nat) (v : Word) (u : Nat) : (d.w a v).rod u = d.rod u := (rfl)
@[simp] theorem Dev.w_frame (d : Dev) (a : Nat) (v : Word) (u : Nat) : (d.w a v).frame u = d.frame u := (rfl)
@[simp] theorem Dev.w_trace (d : Dev) (a : Nat) (v : Word) (u : Nat) : (d.w a v).trace u = d.trace u := (rfl)
@[simp] theorem Dev.w_fbk (d : Dev) (a : Nat) (v : Word) (u w : Nat) : (d.w a v).fbk u w = d.fbk u w := (rfl)
@[simp] theorem Dev.w_bead (d : Dev) (a : Nat) (v : Word) (u w : Nat) : (d.w a v).bead u w = d.bead u w := (rfl)
@[simp] theorem Dev.w_cell (d : Dev) (a : Nat) (v : Word) (u w : Nat) : (d.w a v).cell u w = d.cell u w := (rfl)
@[simp] theorem Dev.w_clasp (d : Dev) (a : Nat) (v : Word) (u : Nat) : (d.w a v).clasp u = d.clasp u := (rfl)
@[simp] theorem Dev.w_core (d : Dev) (a : Nat) (v : Word) (u : Nat) : (d.w a v).core u = d.core u := (rfl)
@[simp] theorem Dev.w_ring (d : Dev) (a : Nat) (v : Word) (u : Nat) : (d.w a v).ring u = d.ring u := (rfl)
@[simp] theorem Dev.w_dmach (d : Dev) (a : Nat) (v : Word) (u w : Nat) : (d.w a v).dmach u w = d.dmach u w := (rfl)
@[simp] theorem Dev.w_canc (d : Dev) (a : Nat) (v : Word) (u : Nat) : (d.w a v).canc u = d.canc u := (rfl)
@[simp] theorem Dev.w_sess (d : Dev) (a : Nat) (v : Word) (u : Nat) : (d.w a v).sess u = d.sess u := (rfl)
@[simp] theorem Dev.w_cred (d : Dev) (a : Nat) (v : Word) (u : Nat) : (d.w a v).cred u = d.cred u := (rfl)
@[simp] theorem Dev.w_img (d : Dev) (a : Nat) (v : Word) (u : Nat) : (d.w a v).img u = d.img u := (rfl)
@[simp] theorem Dev.w_lrec (d : Dev) (a : Nat) (v : Word) (u : Nat) : (d.w a v).lrec u = d.lrec u := (rfl)
@[simp] theorem Dev.w_lat (d : Dev) (a : Nat) (v : Word) (u w : Nat) : (d.w a v).lat u w = d.lat u w := (rfl)
@[simp] theorem Dev.w_byte (d : Dev) (a : Nat) (v : Word) (u : Nat) : (d.w a v).byte u = d.byte u := (rfl)
@[simp] theorem Dev.w_dget (d : Dev) (a : Nat) (v : Word) (u : Nat) : (d.w a v).dget u = d.dget u := (rfl)
@[simp] theorem Dev.w_freeVal (d : Dev) (a : Nat) (v : Word) : (d.w a v).freeVal = d.freeVal := (rfl)
@[simp] theorem Dev.wf_timer (d : Dev) (a : Nat) (f : Fld) (v : Nat) (u w : Nat) : (d.wf a f v).timer u w = d.timer u w := (rfl)
@[simp] theorem Dev.wf_pair (d : Dev) (a : Nat) (f : Fld) (v : Nat) (u w : Nat) : (d.wf a f v).pair u w = d.pair u w := (rfl)
@[simp] theorem Dev.wf_line (d : Dev) (a : Nat) (f : Fld) (v : Nat) (u w : Nat) : (d.wf a f v).line u w = d.line u w := (rfl)
@[simp] theorem Dev.wf_chan (d : Dev) (a : Nat) (f : Fld) (v : Nat) (u w : Nat) : (d.wf a f v).chan u w = d.chan u w := (rfl)
@[simp] theorem Dev.wf_sset (d : Dev) (a : Nat) (f : Fld) (v : Nat) (u : Nat) : (d.wf a f v).sset u = d.sset u := (rfl)
@[simp] theorem Dev.wf_sdm (d : Dev) (a : Nat) (f : Fld) (v : Nat) (u w : Nat) : (d.wf a f v).sdm u w = d.sdm u w := (rfl)
@[simp] theorem Dev.wf_sdclk (d : Dev) (a : Nat) (f : Fld) (v : Nat) (u w : Nat) : (d.wf a f v).sdclk u w = d.sdclk u w := (rfl)
@[simp] theorem Dev.wf_rod (d : Dev) (a : Nat) (f : Fld) (v : Nat) (u : Nat) : (d.wf a f v).rod u = d.rod u := (rfl)
@[simp] theorem Dev.wf_frame (d : Dev) (a : Nat) (f : Fld) (v : Nat) (u : Nat) : (d.wf a f v).frame u = d.frame u := (rfl)
@[simp] theorem Dev.wf_trace (d : Dev) (a : Nat) (f : Fld) (v : Nat) (u : Nat) : (d.wf a f v).trace u = d.trace u := (rfl)
@[simp] theorem Dev.wf_fbk (d : Dev) (a : Nat) (f : Fld) (v : Nat) (u w : Nat) : (d.wf a f v).fbk u w = d.fbk u w := (rfl)
@[simp] theorem Dev.wf_bead (d : Dev) (a : Nat) (f : Fld) (v : Nat) (u w : Nat) : (d.wf a f v).bead u w = d.bead u w := (rfl)
@[simp] theorem Dev.wf_cell (d : Dev) (a : Nat) (f : Fld) (v : Nat) (u w : Nat) : (d.wf a f v).cell u w = d.cell u w := (rfl)
@[simp] theorem Dev.wf_clasp (d : Dev) (a : Nat) (f : Fld) (v : Nat) (u : Nat) : (d.wf a f v).clasp u = d.clasp u := (rfl)
@[simp] theorem Dev.wf_core (d : Dev) (a : Nat) (f : Fld) (v : Nat) (u : Nat) : (d.wf a f v).core u = d.core u := (rfl)
@[simp] theorem Dev.wf_ring (d : Dev) (a : Nat) (f : Fld) (v : Nat) (u : Nat) : (d.wf a f v).ring u = d.ring u := (rfl)
@[simp] theorem Dev.wf_dmach (d : Dev) (a : Nat) (f : Fld) (v : Nat) (u w : Nat) : (d.wf a f v).dmach u w = d.dmach u w := (rfl)
@[simp] theorem Dev.wf_canc (d : Dev) (a : Nat) (f : Fld) (v : Nat) (u : Nat) : (d.wf a f v).canc u = d.canc u := (rfl)
@[simp] theorem Dev.wf_sess (d : Dev) (a : Nat) (f : Fld) (v : Nat) (u : Nat) : (d.wf a f v).sess u = d.sess u := (rfl)
@[simp] theorem Dev.wf_cred (d : Dev) (a : Nat) (f : Fld) (v : Nat) (u : Nat) : (d.wf a f v).cred u = d.cred u := (rfl)
@[simp] theorem Dev.wf_img (d : Dev) (a : Nat) (f : Fld) (v : Nat) (u : Nat) : (d.wf a f v).img u = d.img u := (rfl)
@[simp] theorem Dev.wf_lrec (d : Dev) (a : Nat) (f : Fld) (v : Nat) (u : Nat) : (d.wf a f v).lrec u = d.lrec u := (rfl)
@[simp] theorem Dev.wf_lat (d : Dev) (a : Nat) (f : Fld) (v : Nat) (u w : Nat) : (d.wf a f v).lat u w = d.lat u w := (rfl)
@[simp] theorem Dev.wf_byte (d : Dev) (a : Nat) (f : Fld) (v : Nat) (u : Nat) : (d.wf a f v).byte u = d.byte u := (rfl)
@[simp] theorem Dev.wf_dget (d : Dev) (a : Nat) (f : Fld) (v : Nat) (u : Nat) : (d.wf a f v).dget u = d.dget u := (rfl)
@[simp] theorem Dev.wf_freeVal (d : Dev) (a : Nat) (f : Fld) (v : Nat) : (d.wf a f v).freeVal = d.freeVal := (rfl)
@[simp] theorem Dev.clr_timer (d : Dev) (a : Nat) (f : Fld) (u w : Nat) : (d.clr a f).timer u w = d.timer u w := (rfl)
@[simp] theorem Dev.clr_pair (d : Dev) (a : Nat) (f : Fld) (u w : Nat) : (d.clr a f).pair u w = d.pair u w := (rfl)
@[simp] theorem Dev.clr_line (d : Dev) (a : Nat) (f : Fld) (u w : Nat) : (d.clr a f).line u w = d.line u w := (rfl)
@[simp] theorem Dev.clr_chan (d : Dev) (a : Nat) (f : Fld) (u w : Nat) : (d.clr a f).chan u w = d.chan u w := (rfl)
@[simp] theorem Dev.clr_sset (d : Dev) (a : Nat) (f : Fld) (u : Nat) : (d.clr a f).sset u = d.sset u := (rfl)
@[simp] theorem Dev.clr_sdm (d : Dev) (a : Nat) (f : Fld) (u w : Nat) : (d.clr a f).sdm u w = d.sdm u w := (rfl)
@[simp] theorem Dev.clr_sdclk (d : Dev) (a : Nat) (f : Fld) (u w : Nat) : (d.clr a f).sdclk u w = d.sdclk u w := (rfl)
@[simp] theorem Dev.clr_rod (d : Dev) (a : Nat) (f : Fld) (u : Nat) : (d.clr a f).rod u = d.rod u := (rfl)
@[simp] theorem Dev.clr_frame (d : Dev) (a : Nat) (f : Fld) (u : Nat) : (d.clr a f).frame u = d.frame u := (rfl)
@[simp] theorem Dev.clr_trace (d : Dev) (a : Nat) (f : Fld) (u : Nat) : (d.clr a f).trace u = d.trace u := (rfl)
@[simp] theorem Dev.clr_fbk (d : Dev) (a : Nat) (f : Fld) (u w : Nat) : (d.clr a f).fbk u w = d.fbk u w := (rfl)
@[simp] theorem Dev.clr_bead (d : Dev) (a : Nat) (f : Fld) (u w : Nat) : (d.clr a f).bead u w = d.bead u w := (rfl)
@[simp] theorem Dev.clr_cell (d : Dev) (a : Nat) (f : Fld) (u w : Nat) : (d.clr a f).cell u w = d.cell u w := (rfl)
@[simp] theorem Dev.clr_clasp (d : Dev) (a : Nat) (f : Fld) (u : Nat) : (d.clr a f).clasp u = d.clasp u := (rfl)
@[simp] theorem Dev.clr_core (d : Dev) (a : Nat) (f : Fld) (u : Nat) : (d.clr a f).core u = d.core u := (rfl)
@[simp] theorem Dev.clr_ring (d : Dev) (a : Nat) (f : Fld) (u : Nat) : (d.clr a f).ring u = d.ring u := (rfl)
@[simp] theorem Dev.clr_dmach (d : Dev) (a : Nat) (f : Fld) (u w : Nat) : (d.clr a f).dmach u w = d.dmach u w := (rfl)
@[simp] theorem Dev.clr_canc (d : Dev) (a : Nat) (f : Fld) (u : Nat) : (d.clr a f).canc u = d.canc u := (rfl)
@[simp] theorem Dev.clr_sess (d : Dev) (a : Nat) (f : Fld) (u : Nat) : (d.clr a f).sess u = d.sess u := (rfl)
@[simp] theorem Dev.clr_cred (d : Dev) (a : Nat) (f : Fld) (u : Nat) : (d.clr a f).cred u = d.cred u := (rfl)
@[simp] theorem Dev.clr_img (d : Dev) (a : Nat) (f : Fld) (u : Nat) : (d.clr a f).img u = d.img u := (rfl)
@[simp] theorem Dev.clr_lrec (d : Dev) (a : Nat) (f : Fld) (u : Nat) : (d.clr a f).lrec u = d.lrec u := (rfl)
@[simp] theorem Dev.clr_lat (d : Dev) (a : Nat) (f : Fld) (u w : Nat) : (d.clr a f).lat u w = d.lat u w := (rfl)
@[simp] theorem Dev.clr_byte (d : Dev) (a : Nat) (f : Fld) (u : Nat) : (d.clr a f).byte u = d.byte u := (rfl)
@[simp] theorem Dev.clr_dget (d : Dev) (a : Nat) (f : Fld) (u : Nat) : (d.clr a f).dget u = d.dget u := (rfl)
@[simp] theorem Dev.clr_freeVal (d : Dev) (a : Nat) (f : Fld) : (d.clr a f).freeVal = d.freeVal := (rfl)
@[simp] theorem Dev.incSat_timer (d : Dev) (a : Nat) (f : Fld) (n : Nat) (u w : Nat) : (d.incSat a f n).timer u w = d.timer u w := (rfl)
@[simp] theorem Dev.incSat_pair (d : Dev) (a : Nat) (f : Fld) (n : Nat) (u w : Nat) : (d.incSat a f n).pair u w = d.pair u w := (rfl)
@[simp] theorem Dev.incSat_line (d : Dev) (a : Nat) (f : Fld) (n : Nat) (u w : Nat) : (d.incSat a f n).line u w = d.line u w := (rfl)
@[simp] theorem Dev.incSat_chan (d : Dev) (a : Nat) (f : Fld) (n : Nat) (u w : Nat) : (d.incSat a f n).chan u w = d.chan u w := (rfl)
@[simp] theorem Dev.incSat_sset (d : Dev) (a : Nat) (f : Fld) (n : Nat) (u : Nat) : (d.incSat a f n).sset u = d.sset u := (rfl)
@[simp] theorem Dev.incSat_sdm (d : Dev) (a : Nat) (f : Fld) (n : Nat) (u w : Nat) : (d.incSat a f n).sdm u w = d.sdm u w := (rfl)
@[simp] theorem Dev.incSat_sdclk (d : Dev) (a : Nat) (f : Fld) (n : Nat) (u w : Nat) : (d.incSat a f n).sdclk u w = d.sdclk u w := (rfl)
@[simp] theorem Dev.incSat_rod (d : Dev) (a : Nat) (f : Fld) (n : Nat) (u : Nat) : (d.incSat a f n).rod u = d.rod u := (rfl)
@[simp] theorem Dev.incSat_frame (d : Dev) (a : Nat) (f : Fld) (n : Nat) (u : Nat) : (d.incSat a f n).frame u = d.frame u := (rfl)
@[simp] theorem Dev.incSat_trace (d : Dev) (a : Nat) (f : Fld) (n : Nat) (u : Nat) : (d.incSat a f n).trace u = d.trace u := (rfl)
@[simp] theorem Dev.incSat_fbk (d : Dev) (a : Nat) (f : Fld) (n : Nat) (u w : Nat) : (d.incSat a f n).fbk u w = d.fbk u w := (rfl)
@[simp] theorem Dev.incSat_bead (d : Dev) (a : Nat) (f : Fld) (n : Nat) (u w : Nat) : (d.incSat a f n).bead u w = d.bead u w := (rfl)
@[simp] theorem Dev.incSat_cell (d : Dev) (a : Nat) (f : Fld) (n : Nat) (u w : Nat) : (d.incSat a f n).cell u w = d.cell u w := (rfl)
@[simp] theorem Dev.incSat_clasp (d : Dev) (a : Nat) (f : Fld) (n : Nat) (u : Nat) : (d.incSat a f n).clasp u = d.clasp u := (rfl)
@[simp] theorem Dev.incSat_core (d : Dev) (a : Nat) (f : Fld) (n : Nat) (u : Nat) : (d.incSat a f n).core u = d.core u := (rfl)
@[simp] theorem Dev.incSat_ring (d : Dev) (a : Nat) (f : Fld) (n : Nat) (u : Nat) : (d.incSat a f n).ring u = d.ring u := (rfl)
@[simp] theorem Dev.incSat_dmach (d : Dev) (a : Nat) (f : Fld) (n : Nat) (u w : Nat) : (d.incSat a f n).dmach u w = d.dmach u w := (rfl)
@[simp] theorem Dev.incSat_canc (d : Dev) (a : Nat) (f : Fld) (n : Nat) (u : Nat) : (d.incSat a f n).canc u = d.canc u := (rfl)
@[simp] theorem Dev.incSat_sess (d : Dev) (a : Nat) (f : Fld) (n : Nat) (u : Nat) : (d.incSat a f n).sess u = d.sess u := (rfl)
@[simp] theorem Dev.incSat_cred (d : Dev) (a : Nat) (f : Fld) (n : Nat) (u : Nat) : (d.incSat a f n).cred u = d.cred u := (rfl)
@[simp] theorem Dev.incSat_img (d : Dev) (a : Nat) (f : Fld) (n : Nat) (u : Nat) : (d.incSat a f n).img u = d.img u := (rfl)
@[simp] theorem Dev.incSat_lrec (d : Dev) (a : Nat) (f : Fld) (n : Nat) (u : Nat) : (d.incSat a f n).lrec u = d.lrec u := (rfl)
@[simp] theorem Dev.incSat_lat (d : Dev) (a : Nat) (f : Fld) (n : Nat) (u w : Nat) : (d.incSat a f n).lat u w = d.lat u w := (rfl)
@[simp] theorem Dev.incSat_byte (d : Dev) (a : Nat) (f : Fld) (n : Nat) (u : Nat) : (d.incSat a f n).byte u = d.byte u := (rfl)
@[simp] theorem Dev.incSat_dget (d : Dev) (a : Nat) (f : Fld) (n : Nat) (u : Nat) : (d.incSat a f n).dget u = d.dget u := (rfl)
@[simp] theorem Dev.incSat_freeVal (d : Dev) (a : Nat) (f : Fld) (n : Nat) : (d.incSat a f n).freeVal = d.freeVal := (rfl)
@[simp] theorem Dev.mark_timer (d : Dev) (a m : Nat) (u w : Nat) : (d.mark a m).timer u w = d.timer u w := (rfl)
@[simp] theorem Dev.mark_pair (d : Dev) (a m : Nat) (u w : Nat) : (d.mark a m).pair u w = d.pair u w := (rfl)
@[simp] theorem Dev.mark_line (d : Dev) (a m : Nat) (u w : Nat) : (d.mark a m).line u w = d.line u w := (rfl)
@[simp] theorem Dev.mark_chan (d : Dev) (a m : Nat) (u w : Nat) : (d.mark a m).chan u w = d.chan u w := (rfl)
@[simp] theorem Dev.mark_sset (d : Dev) (a m : Nat) (u : Nat) : (d.mark a m).sset u = d.sset u := (rfl)
@[simp] theorem Dev.mark_sdm (d : Dev) (a m : Nat) (u w : Nat) : (d.mark a m).sdm u w = d.sdm u w := (rfl)
@[simp] theorem Dev.mark_sdclk (d : Dev) (a m : Nat) (u w : Nat) : (d.mark a m).sdclk u w = d.sdclk u w := (rfl)
@[simp] theorem Dev.mark_rod (d : Dev) (a m : Nat) (u : Nat) : (d.mark a m).rod u = d.rod u := (rfl)
@[simp] theorem Dev.mark_frame (d : Dev) (a m : Nat) (u : Nat) : (d.mark a m).frame u = d.frame u := (rfl)
@[simp] theorem Dev.mark_trace (d : Dev) (a m : Nat) (u : Nat) : (d.mark a m).trace u = d.trace u := (rfl)
@[simp] theorem Dev.mark_fbk (d : Dev) (a m : Nat) (u w : Nat) : (d.mark a m).fbk u w = d.fbk u w := (rfl)
@[simp] theorem Dev.mark_bead (d : Dev) (a m : Nat) (u w : Nat) : (d.mark a m).bead u w = d.bead u w := (rfl)
@[simp] theorem Dev.mark_cell (d : Dev) (a m : Nat) (u w : Nat) : (d.mark a m).cell u w = d.cell u w := (rfl)
@[simp] theorem Dev.mark_clasp (d : Dev) (a m : Nat) (u : Nat) : (d.mark a m).clasp u = d.clasp u := (rfl)
@[simp] theorem Dev.mark_core (d : Dev) (a m : Nat) (u : Nat) : (d.mark a m).core u = d.core u := (rfl)
@[simp] theorem Dev.mark_ring (d : Dev) (a m : Nat) (u : Nat) : (d.mark a m).ring u = d.ring u := (rfl)
@[simp] theorem Dev.mark_dmach (d : Dev) (a m : Nat) (u w : Nat) : (d.mark a m).dmach u w = d.dmach u w := (rfl)
@[simp] theorem Dev.mark_canc (d : Dev) (a m : Nat) (u : Nat) : (d.mark a m).canc u = d.canc u := (rfl)
@[simp] theorem Dev.mark_sess (d : Dev) (a m : Nat) (u : Nat) : (d.mark a m).sess u = d.sess u := (rfl)
@[simp] theorem Dev.mark_cred (d : Dev) (a m : Nat) (u : Nat) : (d.mark a m).cred u = d.cred u := (rfl)
@[simp] theorem Dev.mark_img (d : Dev) (a m : Nat) (u : Nat) : (d.mark a m).img u = d.img u := (rfl)
@[simp] theorem Dev.mark_lrec (d : Dev) (a m : Nat) (u : Nat) : (d.mark a m).lrec u = d.lrec u := (rfl)
@[simp] theorem Dev.mark_lat (d : Dev) (a m : Nat) (u w : Nat) : (d.mark a m).lat u w = d.lat u w := (rfl)
@[simp] theorem Dev.mark_byte (d : Dev) (a m : Nat) (u : Nat) : (d.mark a m).byte u = d.byte u := (rfl)
@[simp] theorem Dev.mark_dget (d : Dev) (a m : Nat) (u : Nat) : (d.mark a m).dget u = d.dget u := (rfl)
@[simp] theorem Dev.mark_freeVal (d : Dev) (a m : Nat) : (d.mark a m).freeVal = d.freeVal := (rfl)
@[simp] theorem Dev.mark_routeOf (d : Dev) (a m : Nat) (u : Nat) : (d.mark a m).routeOf u = d.routeOf u := (rfl)
@[simp] theorem Dev.mark_mode (d : Dev) (a m : Nat) : (d.mark a m).mode = d.mode := (rfl)
@[simp] theorem Dev.mark_ticking (d : Dev) (a m : Nat) : (d.mark a m).ticking = d.ticking := (rfl)
@[simp] theorem Dev.mark_inRun (d : Dev) (a m : Nat) (u : Nat) : (d.mark a m).inRun u = d.inRun u := (rfl)
@[simp] theorem Dev.set1_timer (d : Dev) (a : Nat) (f : Fld) (u w : Nat) : (d.set1 a f).timer u w = d.timer u w := (rfl)
@[simp] theorem Dev.set1_pair (d : Dev) (a : Nat) (f : Fld) (u w : Nat) : (d.set1 a f).pair u w = d.pair u w := (rfl)
@[simp] theorem Dev.set1_line (d : Dev) (a : Nat) (f : Fld) (u w : Nat) : (d.set1 a f).line u w = d.line u w := (rfl)
@[simp] theorem Dev.set1_chan (d : Dev) (a : Nat) (f : Fld) (u w : Nat) : (d.set1 a f).chan u w = d.chan u w := (rfl)
@[simp] theorem Dev.set1_sset (d : Dev) (a : Nat) (f : Fld) (u : Nat) : (d.set1 a f).sset u = d.sset u := (rfl)
@[simp] theorem Dev.set1_sdm (d : Dev) (a : Nat) (f : Fld) (u w : Nat) : (d.set1 a f).sdm u w = d.sdm u w := (rfl)
@[simp] theorem Dev.set1_sdclk (d : Dev) (a : Nat) (f : Fld) (u w : Nat) : (d.set1 a f).sdclk u w = d.sdclk u w := (rfl)
@[simp] theorem Dev.set1_rod (d : Dev) (a : Nat) (f : Fld) (u : Nat) : (d.set1 a f).rod u = d.rod u := (rfl)
@[simp] theorem Dev.set1_frame (d : Dev) (a : Nat) (f : Fld) (u : Nat) : (d.set1 a f).frame u = d.frame u := (rfl)
@[simp] theorem Dev.set1_trace (d : Dev) (a : Nat) (f : Fld) (u : Nat) : (d.set1 a f).trace u = d.trace u := (rfl)
@[simp] theorem Dev.set1_fbk (d : Dev) (a : Nat) (f : Fld) (u w : Nat) : (d.set1 a f).fbk u w = d.fbk u w := (rfl)
@[simp] theorem Dev.set1_bead (d : Dev) (a : Nat) (f : Fld) (u w : Nat) : (d.set1 a f).bead u w = d.bead u w := (rfl)
@[simp] theorem Dev.set1_cell (d : Dev) (a : Nat) (f : Fld) (u w : Nat) : (d.set1 a f).cell u w = d.cell u w := (rfl)
@[simp] theorem Dev.set1_clasp (d : Dev) (a : Nat) (f : Fld) (u : Nat) : (d.set1 a f).clasp u = d.clasp u := (rfl)
@[simp] theorem Dev.set1_core (d : Dev) (a : Nat) (f : Fld) (u : Nat) : (d.set1 a f).core u = d.core u := (rfl)
@[simp] theorem Dev.set1_ring (d : Dev) (a : Nat) (f : Fld) (u : Nat) : (d.set1 a f).ring u = d.ring u := (rfl)
@[simp] theorem Dev.set1_dmach (d : Dev) (a : Nat) (f : Fld) (u w : Nat) : (d.set1 a f).dmach u w = d.dmach u w := (rfl)
@[simp] theorem Dev.set1_canc (d : Dev) (a : Nat) (f : Fld) (u : Nat) : (d.set1 a f).canc u = d.canc u := (rfl)
@[simp] theorem Dev.set1_sess (d : Dev) (a : Nat) (f : Fld) (u : Nat) : (d.set1 a f).sess u = d.sess u := (rfl)
@[simp] theorem Dev.set1_cred (d : Dev) (a : Nat) (f : Fld) (u : Nat) : (d.set1 a f).cred u = d.cred u := (rfl)
@[simp] theorem Dev.set1_img (d : Dev) (a : Nat) (f : Fld) (u : Nat) : (d.set1 a f).img u = d.img u := (rfl)
@[simp] theorem Dev.set1_lrec (d : Dev) (a : Nat) (f : Fld) (u : Nat) : (d.set1 a f).lrec u = d.lrec u := (rfl)
@[simp] theorem Dev.set1_lat (d : Dev) (a : Nat) (f : Fld) (u w : Nat) : (d.set1 a f).lat u w = d.lat u w := (rfl)
@[simp] theorem Dev.set1_byte (d : Dev) (a : Nat) (f : Fld) (u : Nat) : (d.set1 a f).byte u = d.byte u := (rfl)
@[simp] theorem Dev.set1_dget (d : Dev) (a : Nat) (f : Fld) (u : Nat) : (d.set1 a f).dget u = d.dget u := (rfl)
@[simp] theorem Dev.set1_freeVal (d : Dev) (a : Nat) (f : Fld) : (d.set1 a f).freeVal = d.freeVal := (rfl)
@[simp] theorem Dev.setTimer_pair (d : Dev) (n t : Nat) (x : TimerH) (u w : Nat) : (d.setTimer n t x).pair u w = d.pair u w := (rfl)
@[simp] theorem Dev.setTimer_line (d : Dev) (n t : Nat) (x : TimerH) (u w : Nat) : (d.setTimer n t x).line u w = d.line u w := (rfl)
@[simp] theorem Dev.setTimer_chan (d : Dev) (n t : Nat) (x : TimerH) (u w : Nat) : (d.setTimer n t x).chan u w = d.chan u w := (rfl)
@[simp] theorem Dev.setTimer_sset (d : Dev) (n t : Nat) (x : TimerH) (u : Nat) : (d.setTimer n t x).sset u = d.sset u := (rfl)
@[simp] theorem Dev.setTimer_sdm (d : Dev) (n t : Nat) (x : TimerH) (u w : Nat) : (d.setTimer n t x).sdm u w = d.sdm u w := (rfl)
@[simp] theorem Dev.setTimer_sdclk (d : Dev) (n t : Nat) (x : TimerH) (u w : Nat) : (d.setTimer n t x).sdclk u w = d.sdclk u w := (rfl)
@[simp] theorem Dev.setTimer_rod (d : Dev) (n t : Nat) (x : TimerH) (u : Nat) : (d.setTimer n t x).rod u = d.rod u := (rfl)
@[simp] theorem Dev.setTimer_frame (d : Dev) (n t : Nat) (x : TimerH) (u : Nat) : (d.setTimer n t x).frame u = d.frame u := (rfl)
@[simp] theorem Dev.setTimer_trace (d : Dev) (n t : Nat) (x : TimerH) (u : Nat) : (d.setTimer n t x).trace u = d.trace u := (rfl)
@[simp] theorem Dev.setTimer_fbk (d : Dev) (n t : Nat) (x : TimerH) (u w : Nat) : (d.setTimer n t x).fbk u w = d.fbk u w := (rfl)
@[simp] theorem Dev.setTimer_bead (d : Dev) (n t : Nat) (x : TimerH) (u w : Nat) : (d.setTimer n t x).bead u w = d.bead u w := (rfl)
@[simp] theorem Dev.setTimer_cell (d : Dev) (n t : Nat) (x : TimerH) (u w : Nat) : (d.setTimer n t x).cell u w = d.cell u w := (rfl)
@[simp] theorem Dev.setTimer_clasp (d : Dev) (n t : Nat) (x : TimerH) (u : Nat) : (d.setTimer n t x).clasp u = d.clasp u := (rfl)
@[simp] theorem Dev.setTimer_core (d : Dev) (n t : Nat) (x : TimerH) (u : Nat) : (d.setTimer n t x).core u = d.core u := (rfl)
@[simp] theorem Dev.setTimer_ring (d : Dev) (n t : Nat) (x : TimerH) (u : Nat) : (d.setTimer n t x).ring u = d.ring u := (rfl)
@[simp] theorem Dev.setTimer_dmach (d : Dev) (n t : Nat) (x : TimerH) (u w : Nat) : (d.setTimer n t x).dmach u w = d.dmach u w := (rfl)
@[simp] theorem Dev.setTimer_canc (d : Dev) (n t : Nat) (x : TimerH) (u : Nat) : (d.setTimer n t x).canc u = d.canc u := (rfl)
@[simp] theorem Dev.setTimer_sess (d : Dev) (n t : Nat) (x : TimerH) (u : Nat) : (d.setTimer n t x).sess u = d.sess u := (rfl)
@[simp] theorem Dev.setTimer_cred (d : Dev) (n t : Nat) (x : TimerH) (u : Nat) : (d.setTimer n t x).cred u = d.cred u := (rfl)
@[simp] theorem Dev.setTimer_img (d : Dev) (n t : Nat) (x : TimerH) (u : Nat) : (d.setTimer n t x).img u = d.img u := (rfl)
@[simp] theorem Dev.setTimer_lrec (d : Dev) (n t : Nat) (x : TimerH) (u : Nat) : (d.setTimer n t x).lrec u = d.lrec u := (rfl)
@[simp] theorem Dev.setTimer_lat (d : Dev) (n t : Nat) (x : TimerH) (u w : Nat) : (d.setTimer n t x).lat u w = d.lat u w := (rfl)
@[simp] theorem Dev.setTimer_byte (d : Dev) (n t : Nat) (x : TimerH) (u : Nat) : (d.setTimer n t x).byte u = d.byte u := (rfl)
@[simp] theorem Dev.setTimer_dget (d : Dev) (n t : Nat) (x : TimerH) (u : Nat) : (d.setTimer n t x).dget u = d.dget u := (rfl)
@[simp] theorem Dev.setTimer_freeVal (d : Dev) (n t : Nat) (x : TimerH) : (d.setTimer n t x).freeVal = d.freeVal := (rfl)
@[simp] theorem Dev.setTimer_routeOf (d : Dev) (n t : Nat) (x : TimerH) (u : Nat) : (d.setTimer n t x).routeOf u = d.routeOf u := (rfl)
@[simp] theorem Dev.setTimer_mode (d : Dev) (n t : Nat) (x : TimerH) : (d.setTimer n t x).mode = d.mode := (rfl)
@[simp] theorem Dev.setTimer_ticking (d : Dev) (n t : Nat) (x : TimerH) : (d.setTimer n t x).ticking = d.ticking := (rfl)
@[simp] theorem Dev.setTimer_inRun (d : Dev) (n t : Nat) (x : TimerH) (u : Nat) : (d.setTimer n t x).inRun u = d.inRun u := (rfl)
@[simp] theorem Dev.setPair_timer (d : Dev) (n p : Nat) (x : PairH) (u w : Nat) : (d.setPair n p x).timer u w = d.timer u w := (rfl)
@[simp] theorem Dev.setPair_line (d : Dev) (n p : Nat) (x : PairH) (u w : Nat) : (d.setPair n p x).line u w = d.line u w := (rfl)
@[simp] theorem Dev.setPair_chan (d : Dev) (n p : Nat) (x : PairH) (u w : Nat) : (d.setPair n p x).chan u w = d.chan u w := (rfl)
@[simp] theorem Dev.setPair_sset (d : Dev) (n p : Nat) (x : PairH) (u : Nat) : (d.setPair n p x).sset u = d.sset u := (rfl)
@[simp] theorem Dev.setPair_sdm (d : Dev) (n p : Nat) (x : PairH) (u w : Nat) : (d.setPair n p x).sdm u w = d.sdm u w := (rfl)
@[simp] theorem Dev.setPair_sdclk (d : Dev) (n p : Nat) (x : PairH) (u w : Nat) : (d.setPair n p x).sdclk u w = d.sdclk u w := (rfl)
@[simp] theorem Dev.setPair_rod (d : Dev) (n p : Nat) (x : PairH) (u : Nat) : (d.setPair n p x).rod u = d.rod u := (rfl)
@[simp] theorem Dev.setPair_frame (d : Dev) (n p : Nat) (x : PairH) (u : Nat) : (d.setPair n p x).frame u = d.frame u := (rfl)
@[simp] theorem Dev.setPair_trace (d : Dev) (n p : Nat) (x : PairH) (u : Nat) : (d.setPair n p x).trace u = d.trace u := (rfl)
@[simp] theorem Dev.setPair_fbk (d : Dev) (n p : Nat) (x : PairH) (u w : Nat) : (d.setPair n p x).fbk u w = d.fbk u w := (rfl)
@[simp] theorem Dev.setPair_bead (d : Dev) (n p : Nat) (x : PairH) (u w : Nat) : (d.setPair n p x).bead u w = d.bead u w := (rfl)
@[simp] theorem Dev.setPair_cell (d : Dev) (n p : Nat) (x : PairH) (u w : Nat) : (d.setPair n p x).cell u w = d.cell u w := (rfl)
@[simp] theorem Dev.setPair_clasp (d : Dev) (n p : Nat) (x : PairH) (u : Nat) : (d.setPair n p x).clasp u = d.clasp u := (rfl)
@[simp] theorem Dev.setPair_core (d : Dev) (n p : Nat) (x : PairH) (u : Nat) : (d.setPair n p x).core u = d.core u := (rfl)
@[simp] theorem Dev.setPair_ring (d : Dev) (n p : Nat) (x : PairH) (u : Nat) : (d.setPair n p x).ring u = d.ring u := (rfl)
@[simp] theorem Dev.setPair_dmach (d : Dev) (n p : Nat) (x : PairH) (u w : Nat) : (d.setPair n p x).dmach u w = d.dmach u w := (rfl)
@[simp] theorem Dev.setPair_canc (d : Dev) (n p : Nat) (x : PairH) (u : Nat) : (d.setPair n p x).canc u = d.canc u := (rfl)
@[simp] theorem Dev.setPair_sess (d : Dev) (n p : Nat) (x : PairH) (u : Nat) : (d.setPair n p x).sess u = d.sess u := (rfl)
@[simp] theorem Dev.setPair_cred (d : Dev) (n p : Nat) (x : PairH) (u : Nat) : (d.setPair n p x).cred u = d.cred u := (rfl)
@[simp] theorem Dev.setPair_img (d : Dev) (n p : Nat) (x : PairH) (u : Nat) : (d.setPair n p x).img u = d.img u := (rfl)
@[simp] theorem Dev.setPair_lrec (d : Dev) (n p : Nat) (x : PairH) (u : Nat) : (d.setPair n p x).lrec u = d.lrec u := (rfl)
@[simp] theorem Dev.setPair_lat (d : Dev) (n p : Nat) (x : PairH) (u w : Nat) : (d.setPair n p x).lat u w = d.lat u w := (rfl)
@[simp] theorem Dev.setPair_byte (d : Dev) (n p : Nat) (x : PairH) (u : Nat) : (d.setPair n p x).byte u = d.byte u := (rfl)
@[simp] theorem Dev.setPair_dget (d : Dev) (n p : Nat) (x : PairH) (u : Nat) : (d.setPair n p x).dget u = d.dget u := (rfl)
@[simp] theorem Dev.setPair_freeVal (d : Dev) (n p : Nat) (x : PairH) : (d.setPair n p x).freeVal = d.freeVal := (rfl)
@[simp] theorem Dev.setPair_routeOf (d : Dev) (n p : Nat) (x : PairH) (u : Nat) : (d.setPair n p x).routeOf u = d.routeOf u := (rfl)
@[simp] theorem Dev.setPair_mode (d : Dev) (n p : Nat) (x : PairH) : (d.setPair n p x).mode = d.mode := (rfl)
@[simp] theorem Dev.setPair_ticking (d : Dev) (n p : Nat) (x : PairH) : (d.setPair n p x).ticking = d.ticking := (rfl)
@[simp] theorem Dev.setPair_inRun (d : Dev) (n p : Nat) (x : PairH) (u : Nat) : (d.setPair n p x).inRun u = d.inRun u := (rfl)
@[simp] theorem Dev.setLine_timer (d : Dev) (n l : Nat) (x : LineH) (u w : Nat) : (d.setLine n l x).timer u w = d.timer u w := (rfl)
@[simp] theorem Dev.setLine_pair (d : Dev) (n l : Nat) (x : LineH) (u w : Nat) : (d.setLine n l x).pair u w = d.pair u w := (rfl)
@[simp] theorem Dev.setLine_chan (d : Dev) (n l : Nat) (x : LineH) (u w : Nat) : (d.setLine n l x).chan u w = d.chan u w := (rfl)
@[simp] theorem Dev.setLine_sset (d : Dev) (n l : Nat) (x : LineH) (u : Nat) : (d.setLine n l x).sset u = d.sset u := (rfl)
@[simp] theorem Dev.setLine_sdm (d : Dev) (n l : Nat) (x : LineH) (u w : Nat) : (d.setLine n l x).sdm u w = d.sdm u w := (rfl)
@[simp] theorem Dev.setLine_sdclk (d : Dev) (n l : Nat) (x : LineH) (u w : Nat) : (d.setLine n l x).sdclk u w = d.sdclk u w := (rfl)
@[simp] theorem Dev.setLine_rod (d : Dev) (n l : Nat) (x : LineH) (u : Nat) : (d.setLine n l x).rod u = d.rod u := (rfl)
@[simp] theorem Dev.setLine_frame (d : Dev) (n l : Nat) (x : LineH) (u : Nat) : (d.setLine n l x).frame u = d.frame u := (rfl)
@[simp] theorem Dev.setLine_trace (d : Dev) (n l : Nat) (x : LineH) (u : Nat) : (d.setLine n l x).trace u = d.trace u := (rfl)
@[simp] theorem Dev.setLine_fbk (d : Dev) (n l : Nat) (x : LineH) (u w : Nat) : (d.setLine n l x).fbk u w = d.fbk u w := (rfl)
@[simp] theorem Dev.setLine_bead (d : Dev) (n l : Nat) (x : LineH) (u w : Nat) : (d.setLine n l x).bead u w = d.bead u w := (rfl)
@[simp] theorem Dev.setLine_cell (d : Dev) (n l : Nat) (x : LineH) (u w : Nat) : (d.setLine n l x).cell u w = d.cell u w := (rfl)
@[simp] theorem Dev.setLine_clasp (d : Dev) (n l : Nat) (x : LineH) (u : Nat) : (d.setLine n l x).clasp u = d.clasp u := (rfl)
@[simp] theorem Dev.setLine_core (d : Dev) (n l : Nat) (x : LineH) (u : Nat) : (d.setLine n l x).core u = d.core u := (rfl)
@[simp] theorem Dev.setLine_ring (d : Dev) (n l : Nat) (x : LineH) (u : Nat) : (d.setLine n l x).ring u = d.ring u := (rfl)
@[simp] theorem Dev.setLine_dmach (d : Dev) (n l : Nat) (x : LineH) (u w : Nat) : (d.setLine n l x).dmach u w = d.dmach u w := (rfl)
@[simp] theorem Dev.setLine_canc (d : Dev) (n l : Nat) (x : LineH) (u : Nat) : (d.setLine n l x).canc u = d.canc u := (rfl)
@[simp] theorem Dev.setLine_sess (d : Dev) (n l : Nat) (x : LineH) (u : Nat) : (d.setLine n l x).sess u = d.sess u := (rfl)
@[simp] theorem Dev.setLine_cred (d : Dev) (n l : Nat) (x : LineH) (u : Nat) : (d.setLine n l x).cred u = d.cred u := (rfl)
@[simp] theorem Dev.setLine_img (d : Dev) (n l : Nat) (x : LineH) (u : Nat) : (d.setLine n l x).img u = d.img u := (rfl)
@[simp] theorem Dev.setLine_lrec (d : Dev) (n l : Nat) (x : LineH) (u : Nat) : (d.setLine n l x).lrec u = d.lrec u := (rfl)
@[simp] theorem Dev.setLine_lat (d : Dev) (n l : Nat) (x : LineH) (u w : Nat) : (d.setLine n l x).lat u w = d.lat u w := (rfl)
@[simp] theorem Dev.setLine_byte (d : Dev) (n l : Nat) (x : LineH) (u : Nat) : (d.setLine n l x).byte u = d.byte u := (rfl)
@[simp] theorem Dev.setLine_dget (d : Dev) (n l : Nat) (x : LineH) (u : Nat) : (d.setLine n l x).dget u = d.dget u := (rfl)
@[simp] theorem Dev.setLine_freeVal (d : Dev) (n l : Nat) (x : LineH) : (d.setLine n l x).freeVal = d.freeVal := (rfl)
@[simp] theorem Dev.setLine_routeOf (d : Dev) (n l : Nat) (x : LineH) (u : Nat) : (d.setLine n l x).routeOf u = d.routeOf u := (rfl)
@[simp] theorem Dev.setLine_mode (d : Dev) (n l : Nat) (x : LineH) : (d.setLine n l x).mode = d.mode := (rfl)
@[simp] theorem Dev.setLine_ticking (d : Dev) (n l : Nat) (x : LineH) : (d.setLine n l x).ticking = d.ticking := (rfl)
@[simp] theorem Dev.setLine_inRun (d : Dev) (n l : Nat) (x : LineH) (u : Nat) : (d.setLine n l x).inRun u = d.inRun u := (rfl)
@[simp] theorem Dev.setChan_timer (d : Dev) (n c : Nat) (x : ChanH) (u w : Nat) : (d.setChan n c x).timer u w = d.timer u w := (rfl)
@[simp] theorem Dev.setChan_pair (d : Dev) (n c : Nat) (x : ChanH) (u w : Nat) : (d.setChan n c x).pair u w = d.pair u w := (rfl)
@[simp] theorem Dev.setChan_line (d : Dev) (n c : Nat) (x : ChanH) (u w : Nat) : (d.setChan n c x).line u w = d.line u w := (rfl)
@[simp] theorem Dev.setChan_sset (d : Dev) (n c : Nat) (x : ChanH) (u : Nat) : (d.setChan n c x).sset u = d.sset u := (rfl)
@[simp] theorem Dev.setChan_sdm (d : Dev) (n c : Nat) (x : ChanH) (u w : Nat) : (d.setChan n c x).sdm u w = d.sdm u w := (rfl)
@[simp] theorem Dev.setChan_sdclk (d : Dev) (n c : Nat) (x : ChanH) (u w : Nat) : (d.setChan n c x).sdclk u w = d.sdclk u w := (rfl)
@[simp] theorem Dev.setChan_rod (d : Dev) (n c : Nat) (x : ChanH) (u : Nat) : (d.setChan n c x).rod u = d.rod u := (rfl)
@[simp] theorem Dev.setChan_frame (d : Dev) (n c : Nat) (x : ChanH) (u : Nat) : (d.setChan n c x).frame u = d.frame u := (rfl)
@[simp] theorem Dev.setChan_trace (d : Dev) (n c : Nat) (x : ChanH) (u : Nat) : (d.setChan n c x).trace u = d.trace u := (rfl)
@[simp] theorem Dev.setChan_fbk (d : Dev) (n c : Nat) (x : ChanH) (u w : Nat) : (d.setChan n c x).fbk u w = d.fbk u w := (rfl)
@[simp] theorem Dev.setChan_bead (d : Dev) (n c : Nat) (x : ChanH) (u w : Nat) : (d.setChan n c x).bead u w = d.bead u w := (rfl)
@[simp] theorem Dev.setChan_cell (d : Dev) (n c : Nat) (x : ChanH) (u w : Nat) : (d.setChan n c x).cell u w = d.cell u w := (rfl)
@[simp] theorem Dev.setChan_clasp (d : Dev) (n c : Nat) (x : ChanH) (u : Nat) : (d.setChan n c x).clasp u = d.clasp u := (rfl)
@[simp] theorem Dev.setChan_core (d : Dev) (n c : Nat) (x : ChanH) (u : Nat) : (d.setChan n c x).core u = d.core u := (rfl)
@[simp] theorem Dev.setChan_ring (d : Dev) (n c : Nat) (x : ChanH) (u : Nat) : (d.setChan n c x).ring u = d.ring u := (rfl)
@[simp] theorem Dev.setChan_dmach (d : Dev) (n c : Nat) (x : ChanH) (u w : Nat) : (d.setChan n c x).dmach u w = d.dmach u w := (rfl)
@[simp] theorem Dev.setChan_canc (d : Dev) (n c : Nat) (x : ChanH) (u : Nat) : (d.setChan n c x).canc u = d.canc u := (rfl)
@[simp] theorem Dev.setChan_sess (d : Dev) (n c : Nat) (x : ChanH) (u : Nat) : (d.setChan n c x).sess u = d.sess u := (rfl)
@[simp] theorem Dev.setChan_cred (d : Dev) (n c : Nat) (x : ChanH) (u : Nat) : (d.setChan n c x).cred u = d.cred u := (rfl)
@[simp] theorem Dev.setChan_img (d : Dev) (n c : Nat) (x : ChanH) (u : Nat) : (d.setChan n c x).img u = d.img u := (rfl)
@[simp] theorem Dev.setChan_lrec (d : Dev) (n c : Nat) (x : ChanH) (u : Nat) : (d.setChan n c x).lrec u = d.lrec u := (rfl)
@[simp] theorem Dev.setChan_lat (d : Dev) (n c : Nat) (x : ChanH) (u w : Nat) : (d.setChan n c x).lat u w = d.lat u w := (rfl)
@[simp] theorem Dev.setChan_byte (d : Dev) (n c : Nat) (x : ChanH) (u : Nat) : (d.setChan n c x).byte u = d.byte u := (rfl)
@[simp] theorem Dev.setChan_dget (d : Dev) (n c : Nat) (x : ChanH) (u : Nat) : (d.setChan n c x).dget u = d.dget u := (rfl)
@[simp] theorem Dev.setChan_freeVal (d : Dev) (n c : Nat) (x : ChanH) : (d.setChan n c x).freeVal = d.freeVal := (rfl)
@[simp] theorem Dev.setChan_routeOf (d : Dev) (n c : Nat) (x : ChanH) (u : Nat) : (d.setChan n c x).routeOf u = d.routeOf u := (rfl)
@[simp] theorem Dev.setChan_mode (d : Dev) (n c : Nat) (x : ChanH) : (d.setChan n c x).mode = d.mode := (rfl)
@[simp] theorem Dev.setChan_ticking (d : Dev) (n c : Nat) (x : ChanH) : (d.setChan n c x).ticking = d.ticking := (rfl)
@[simp] theorem Dev.setChan_inRun (d : Dev) (n c : Nat) (x : ChanH) (u : Nat) : (d.setChan n c x).inRun u = d.inRun u := (rfl)
@[simp] theorem Dev.setSset_timer (d : Dev) (n : Nat) (x : SetH) (u w : Nat) : (d.setSset n x).timer u w = d.timer u w := (rfl)
@[simp] theorem Dev.setSset_pair (d : Dev) (n : Nat) (x : SetH) (u w : Nat) : (d.setSset n x).pair u w = d.pair u w := (rfl)
@[simp] theorem Dev.setSset_line (d : Dev) (n : Nat) (x : SetH) (u w : Nat) : (d.setSset n x).line u w = d.line u w := (rfl)
@[simp] theorem Dev.setSset_chan (d : Dev) (n : Nat) (x : SetH) (u w : Nat) : (d.setSset n x).chan u w = d.chan u w := (rfl)
@[simp] theorem Dev.setSset_sdm (d : Dev) (n : Nat) (x : SetH) (u w : Nat) : (d.setSset n x).sdm u w = d.sdm u w := (rfl)
@[simp] theorem Dev.setSset_sdclk (d : Dev) (n : Nat) (x : SetH) (u w : Nat) : (d.setSset n x).sdclk u w = d.sdclk u w := (rfl)
@[simp] theorem Dev.setSset_rod (d : Dev) (n : Nat) (x : SetH) (u : Nat) : (d.setSset n x).rod u = d.rod u := (rfl)
@[simp] theorem Dev.setSset_frame (d : Dev) (n : Nat) (x : SetH) (u : Nat) : (d.setSset n x).frame u = d.frame u := (rfl)
@[simp] theorem Dev.setSset_trace (d : Dev) (n : Nat) (x : SetH) (u : Nat) : (d.setSset n x).trace u = d.trace u := (rfl)
@[simp] theorem Dev.setSset_fbk (d : Dev) (n : Nat) (x : SetH) (u w : Nat) : (d.setSset n x).fbk u w = d.fbk u w := (rfl)
@[simp] theorem Dev.setSset_bead (d : Dev) (n : Nat) (x : SetH) (u w : Nat) : (d.setSset n x).bead u w = d.bead u w := (rfl)
@[simp] theorem Dev.setSset_cell (d : Dev) (n : Nat) (x : SetH) (u w : Nat) : (d.setSset n x).cell u w = d.cell u w := (rfl)
@[simp] theorem Dev.setSset_clasp (d : Dev) (n : Nat) (x : SetH) (u : Nat) : (d.setSset n x).clasp u = d.clasp u := (rfl)
@[simp] theorem Dev.setSset_core (d : Dev) (n : Nat) (x : SetH) (u : Nat) : (d.setSset n x).core u = d.core u := (rfl)
@[simp] theorem Dev.setSset_ring (d : Dev) (n : Nat) (x : SetH) (u : Nat) : (d.setSset n x).ring u = d.ring u := (rfl)
@[simp] theorem Dev.setSset_dmach (d : Dev) (n : Nat) (x : SetH) (u w : Nat) : (d.setSset n x).dmach u w = d.dmach u w := (rfl)
@[simp] theorem Dev.setSset_canc (d : Dev) (n : Nat) (x : SetH) (u : Nat) : (d.setSset n x).canc u = d.canc u := (rfl)
@[simp] theorem Dev.setSset_sess (d : Dev) (n : Nat) (x : SetH) (u : Nat) : (d.setSset n x).sess u = d.sess u := (rfl)
@[simp] theorem Dev.setSset_cred (d : Dev) (n : Nat) (x : SetH) (u : Nat) : (d.setSset n x).cred u = d.cred u := (rfl)
@[simp] theorem Dev.setSset_img (d : Dev) (n : Nat) (x : SetH) (u : Nat) : (d.setSset n x).img u = d.img u := (rfl)
@[simp] theorem Dev.setSset_lrec (d : Dev) (n : Nat) (x : SetH) (u : Nat) : (d.setSset n x).lrec u = d.lrec u := (rfl)
@[simp] theorem Dev.setSset_lat (d : Dev) (n : Nat) (x : SetH) (u w : Nat) : (d.setSset n x).lat u w = d.lat u w := (rfl)
@[simp] theorem Dev.setSset_byte (d : Dev) (n : Nat) (x : SetH) (u : Nat) : (d.setSset n x).byte u = d.byte u := (rfl)
@[simp] theorem Dev.setSset_dget (d : Dev) (n : Nat) (x : SetH) (u : Nat) : (d.setSset n x).dget u = d.dget u := (rfl)
@[simp] theorem Dev.setSset_freeVal (d : Dev) (n : Nat) (x : SetH) : (d.setSset n x).freeVal = d.freeVal := (rfl)
@[simp] theorem Dev.setSset_routeOf (d : Dev) (n : Nat) (x : SetH) (u : Nat) : (d.setSset n x).routeOf u = d.routeOf u := (rfl)
@[simp] theorem Dev.setSset_mode (d : Dev) (n : Nat) (x : SetH) : (d.setSset n x).mode = d.mode := (rfl)
@[simp] theorem Dev.setSset_ticking (d : Dev) (n : Nat) (x : SetH) : (d.setSset n x).ticking = d.ticking := (rfl)
@[simp] theorem Dev.setSset_inRun (d : Dev) (n : Nat) (x : SetH) (u : Nat) : (d.setSset n x).inRun u = d.inRun u := (rfl)
@[simp] theorem Dev.setSdm_timer (d : Dev) (n j : Nat) (x : SdmH) (u w : Nat) : (d.setSdm n j x).timer u w = d.timer u w := (rfl)
@[simp] theorem Dev.setSdm_pair (d : Dev) (n j : Nat) (x : SdmH) (u w : Nat) : (d.setSdm n j x).pair u w = d.pair u w := (rfl)
@[simp] theorem Dev.setSdm_line (d : Dev) (n j : Nat) (x : SdmH) (u w : Nat) : (d.setSdm n j x).line u w = d.line u w := (rfl)
@[simp] theorem Dev.setSdm_chan (d : Dev) (n j : Nat) (x : SdmH) (u w : Nat) : (d.setSdm n j x).chan u w = d.chan u w := (rfl)
@[simp] theorem Dev.setSdm_sset (d : Dev) (n j : Nat) (x : SdmH) (u : Nat) : (d.setSdm n j x).sset u = d.sset u := (rfl)
@[simp] theorem Dev.setSdm_sdclk (d : Dev) (n j : Nat) (x : SdmH) (u w : Nat) : (d.setSdm n j x).sdclk u w = d.sdclk u w := (rfl)
@[simp] theorem Dev.setSdm_rod (d : Dev) (n j : Nat) (x : SdmH) (u : Nat) : (d.setSdm n j x).rod u = d.rod u := (rfl)
@[simp] theorem Dev.setSdm_frame (d : Dev) (n j : Nat) (x : SdmH) (u : Nat) : (d.setSdm n j x).frame u = d.frame u := (rfl)
@[simp] theorem Dev.setSdm_trace (d : Dev) (n j : Nat) (x : SdmH) (u : Nat) : (d.setSdm n j x).trace u = d.trace u := (rfl)
@[simp] theorem Dev.setSdm_fbk (d : Dev) (n j : Nat) (x : SdmH) (u w : Nat) : (d.setSdm n j x).fbk u w = d.fbk u w := (rfl)
@[simp] theorem Dev.setSdm_bead (d : Dev) (n j : Nat) (x : SdmH) (u w : Nat) : (d.setSdm n j x).bead u w = d.bead u w := (rfl)
@[simp] theorem Dev.setSdm_cell (d : Dev) (n j : Nat) (x : SdmH) (u w : Nat) : (d.setSdm n j x).cell u w = d.cell u w := (rfl)
@[simp] theorem Dev.setSdm_clasp (d : Dev) (n j : Nat) (x : SdmH) (u : Nat) : (d.setSdm n j x).clasp u = d.clasp u := (rfl)
@[simp] theorem Dev.setSdm_core (d : Dev) (n j : Nat) (x : SdmH) (u : Nat) : (d.setSdm n j x).core u = d.core u := (rfl)
@[simp] theorem Dev.setSdm_ring (d : Dev) (n j : Nat) (x : SdmH) (u : Nat) : (d.setSdm n j x).ring u = d.ring u := (rfl)
@[simp] theorem Dev.setSdm_dmach (d : Dev) (n j : Nat) (x : SdmH) (u w : Nat) : (d.setSdm n j x).dmach u w = d.dmach u w := (rfl)
@[simp] theorem Dev.setSdm_canc (d : Dev) (n j : Nat) (x : SdmH) (u : Nat) : (d.setSdm n j x).canc u = d.canc u := (rfl)
@[simp] theorem Dev.setSdm_sess (d : Dev) (n j : Nat) (x : SdmH) (u : Nat) : (d.setSdm n j x).sess u = d.sess u := (rfl)
@[simp] theorem Dev.setSdm_cred (d : Dev) (n j : Nat) (x : SdmH) (u : Nat) : (d.setSdm n j x).cred u = d.cred u := (rfl)
@[simp] theorem Dev.setSdm_img (d : Dev) (n j : Nat) (x : SdmH) (u : Nat) : (d.setSdm n j x).img u = d.img u := (rfl)
@[simp] theorem Dev.setSdm_lrec (d : Dev) (n j : Nat) (x : SdmH) (u : Nat) : (d.setSdm n j x).lrec u = d.lrec u := (rfl)
@[simp] theorem Dev.setSdm_lat (d : Dev) (n j : Nat) (x : SdmH) (u w : Nat) : (d.setSdm n j x).lat u w = d.lat u w := (rfl)
@[simp] theorem Dev.setSdm_byte (d : Dev) (n j : Nat) (x : SdmH) (u : Nat) : (d.setSdm n j x).byte u = d.byte u := (rfl)
@[simp] theorem Dev.setSdm_dget (d : Dev) (n j : Nat) (x : SdmH) (u : Nat) : (d.setSdm n j x).dget u = d.dget u := (rfl)
@[simp] theorem Dev.setSdm_freeVal (d : Dev) (n j : Nat) (x : SdmH) : (d.setSdm n j x).freeVal = d.freeVal := (rfl)
@[simp] theorem Dev.setSdm_routeOf (d : Dev) (n j : Nat) (x : SdmH) (u : Nat) : (d.setSdm n j x).routeOf u = d.routeOf u := (rfl)
@[simp] theorem Dev.setSdm_mode (d : Dev) (n j : Nat) (x : SdmH) : (d.setSdm n j x).mode = d.mode := (rfl)
@[simp] theorem Dev.setSdm_ticking (d : Dev) (n j : Nat) (x : SdmH) : (d.setSdm n j x).ticking = d.ticking := (rfl)
@[simp] theorem Dev.setSdm_inRun (d : Dev) (n j : Nat) (x : SdmH) (u : Nat) : (d.setSdm n j x).inRun u = d.inRun u := (rfl)
@[simp] theorem Dev.setSdclk_timer (d : Dev) (n k : Nat) (x : SdClkH) (u w : Nat) : (d.setSdclk n k x).timer u w = d.timer u w := (rfl)
@[simp] theorem Dev.setSdclk_pair (d : Dev) (n k : Nat) (x : SdClkH) (u w : Nat) : (d.setSdclk n k x).pair u w = d.pair u w := (rfl)
@[simp] theorem Dev.setSdclk_line (d : Dev) (n k : Nat) (x : SdClkH) (u w : Nat) : (d.setSdclk n k x).line u w = d.line u w := (rfl)
@[simp] theorem Dev.setSdclk_chan (d : Dev) (n k : Nat) (x : SdClkH) (u w : Nat) : (d.setSdclk n k x).chan u w = d.chan u w := (rfl)
@[simp] theorem Dev.setSdclk_sset (d : Dev) (n k : Nat) (x : SdClkH) (u : Nat) : (d.setSdclk n k x).sset u = d.sset u := (rfl)
@[simp] theorem Dev.setSdclk_sdm (d : Dev) (n k : Nat) (x : SdClkH) (u w : Nat) : (d.setSdclk n k x).sdm u w = d.sdm u w := (rfl)
@[simp] theorem Dev.setSdclk_rod (d : Dev) (n k : Nat) (x : SdClkH) (u : Nat) : (d.setSdclk n k x).rod u = d.rod u := (rfl)
@[simp] theorem Dev.setSdclk_frame (d : Dev) (n k : Nat) (x : SdClkH) (u : Nat) : (d.setSdclk n k x).frame u = d.frame u := (rfl)
@[simp] theorem Dev.setSdclk_trace (d : Dev) (n k : Nat) (x : SdClkH) (u : Nat) : (d.setSdclk n k x).trace u = d.trace u := (rfl)
@[simp] theorem Dev.setSdclk_fbk (d : Dev) (n k : Nat) (x : SdClkH) (u w : Nat) : (d.setSdclk n k x).fbk u w = d.fbk u w := (rfl)
@[simp] theorem Dev.setSdclk_bead (d : Dev) (n k : Nat) (x : SdClkH) (u w : Nat) : (d.setSdclk n k x).bead u w = d.bead u w := (rfl)
@[simp] theorem Dev.setSdclk_cell (d : Dev) (n k : Nat) (x : SdClkH) (u w : Nat) : (d.setSdclk n k x).cell u w = d.cell u w := (rfl)
@[simp] theorem Dev.setSdclk_clasp (d : Dev) (n k : Nat) (x : SdClkH) (u : Nat) : (d.setSdclk n k x).clasp u = d.clasp u := (rfl)
@[simp] theorem Dev.setSdclk_core (d : Dev) (n k : Nat) (x : SdClkH) (u : Nat) : (d.setSdclk n k x).core u = d.core u := (rfl)
@[simp] theorem Dev.setSdclk_ring (d : Dev) (n k : Nat) (x : SdClkH) (u : Nat) : (d.setSdclk n k x).ring u = d.ring u := (rfl)
@[simp] theorem Dev.setSdclk_dmach (d : Dev) (n k : Nat) (x : SdClkH) (u w : Nat) : (d.setSdclk n k x).dmach u w = d.dmach u w := (rfl)
@[simp] theorem Dev.setSdclk_canc (d : Dev) (n k : Nat) (x : SdClkH) (u : Nat) : (d.setSdclk n k x).canc u = d.canc u := (rfl)
@[simp] theorem Dev.setSdclk_sess (d : Dev) (n k : Nat) (x : SdClkH) (u : Nat) : (d.setSdclk n k x).sess u = d.sess u := (rfl)
@[simp] theorem Dev.setSdclk_cred (d : Dev) (n k : Nat) (x : SdClkH) (u : Nat) : (d.setSdclk n k x).cred u = d.cred u := (rfl)
@[simp] theorem Dev.setSdclk_img (d : Dev) (n k : Nat) (x : SdClkH) (u : Nat) : (d.setSdclk n k x).img u = d.img u := (rfl)
@[simp] theorem Dev.setSdclk_lrec (d : Dev) (n k : Nat) (x : SdClkH) (u : Nat) : (d.setSdclk n k x).lrec u = d.lrec u := (rfl)
@[simp] theorem Dev.setSdclk_lat (d : Dev) (n k : Nat) (x : SdClkH) (u w : Nat) : (d.setSdclk n k x).lat u w = d.lat u w := (rfl)
@[simp] theorem Dev.setSdclk_byte (d : Dev) (n k : Nat) (x : SdClkH) (u : Nat) : (d.setSdclk n k x).byte u = d.byte u := (rfl)
@[simp] theorem Dev.setSdclk_dget (d : Dev) (n k : Nat) (x : SdClkH) (u : Nat) : (d.setSdclk n k x).dget u = d.dget u := (rfl)
@[simp] theorem Dev.setSdclk_freeVal (d : Dev) (n k : Nat) (x : SdClkH) : (d.setSdclk n k x).freeVal = d.freeVal := (rfl)
@[simp] theorem Dev.setSdclk_routeOf (d : Dev) (n k : Nat) (x : SdClkH) (u : Nat) : (d.setSdclk n k x).routeOf u = d.routeOf u := (rfl)
@[simp] theorem Dev.setSdclk_mode (d : Dev) (n k : Nat) (x : SdClkH) : (d.setSdclk n k x).mode = d.mode := (rfl)
@[simp] theorem Dev.setSdclk_ticking (d : Dev) (n k : Nat) (x : SdClkH) : (d.setSdclk n k x).ticking = d.ticking := (rfl)
@[simp] theorem Dev.setSdclk_inRun (d : Dev) (n k : Nat) (x : SdClkH) (u : Nat) : (d.setSdclk n k x).inRun u = d.inRun u := (rfl)
@[simp] theorem Dev.setRod_timer (d : Dev) (r : Nat) (x : RodH) (u w : Nat) : (d.setRod r x).timer u w = d.timer u w := (rfl)
@[simp] theorem Dev.setRod_pair (d : Dev) (r : Nat) (x : RodH) (u w : Nat) : (d.setRod r x).pair u w = d.pair u w := (rfl)
@[simp] theorem Dev.setRod_line (d : Dev) (r : Nat) (x : RodH) (u w : Nat) : (d.setRod r x).line u w = d.line u w := (rfl)
@[simp] theorem Dev.setRod_chan (d : Dev) (r : Nat) (x : RodH) (u w : Nat) : (d.setRod r x).chan u w = d.chan u w := (rfl)
@[simp] theorem Dev.setRod_sset (d : Dev) (r : Nat) (x : RodH) (u : Nat) : (d.setRod r x).sset u = d.sset u := (rfl)
@[simp] theorem Dev.setRod_sdm (d : Dev) (r : Nat) (x : RodH) (u w : Nat) : (d.setRod r x).sdm u w = d.sdm u w := (rfl)
@[simp] theorem Dev.setRod_sdclk (d : Dev) (r : Nat) (x : RodH) (u w : Nat) : (d.setRod r x).sdclk u w = d.sdclk u w := (rfl)
@[simp] theorem Dev.setRod_frame (d : Dev) (r : Nat) (x : RodH) (u : Nat) : (d.setRod r x).frame u = d.frame u := (rfl)
@[simp] theorem Dev.setRod_trace (d : Dev) (r : Nat) (x : RodH) (u : Nat) : (d.setRod r x).trace u = d.trace u := (rfl)
@[simp] theorem Dev.setRod_fbk (d : Dev) (r : Nat) (x : RodH) (u w : Nat) : (d.setRod r x).fbk u w = d.fbk u w := (rfl)
@[simp] theorem Dev.setRod_bead (d : Dev) (r : Nat) (x : RodH) (u w : Nat) : (d.setRod r x).bead u w = d.bead u w := (rfl)
@[simp] theorem Dev.setRod_cell (d : Dev) (r : Nat) (x : RodH) (u w : Nat) : (d.setRod r x).cell u w = d.cell u w := (rfl)
@[simp] theorem Dev.setRod_clasp (d : Dev) (r : Nat) (x : RodH) (u : Nat) : (d.setRod r x).clasp u = d.clasp u := (rfl)
@[simp] theorem Dev.setRod_core (d : Dev) (r : Nat) (x : RodH) (u : Nat) : (d.setRod r x).core u = d.core u := (rfl)
@[simp] theorem Dev.setRod_ring (d : Dev) (r : Nat) (x : RodH) (u : Nat) : (d.setRod r x).ring u = d.ring u := (rfl)
@[simp] theorem Dev.setRod_dmach (d : Dev) (r : Nat) (x : RodH) (u w : Nat) : (d.setRod r x).dmach u w = d.dmach u w := (rfl)
@[simp] theorem Dev.setRod_canc (d : Dev) (r : Nat) (x : RodH) (u : Nat) : (d.setRod r x).canc u = d.canc u := (rfl)
@[simp] theorem Dev.setRod_sess (d : Dev) (r : Nat) (x : RodH) (u : Nat) : (d.setRod r x).sess u = d.sess u := (rfl)
@[simp] theorem Dev.setRod_cred (d : Dev) (r : Nat) (x : RodH) (u : Nat) : (d.setRod r x).cred u = d.cred u := (rfl)
@[simp] theorem Dev.setRod_img (d : Dev) (r : Nat) (x : RodH) (u : Nat) : (d.setRod r x).img u = d.img u := (rfl)
@[simp] theorem Dev.setRod_lrec (d : Dev) (r : Nat) (x : RodH) (u : Nat) : (d.setRod r x).lrec u = d.lrec u := (rfl)
@[simp] theorem Dev.setRod_lat (d : Dev) (r : Nat) (x : RodH) (u w : Nat) : (d.setRod r x).lat u w = d.lat u w := (rfl)
@[simp] theorem Dev.setRod_byte (d : Dev) (r : Nat) (x : RodH) (u : Nat) : (d.setRod r x).byte u = d.byte u := (rfl)
@[simp] theorem Dev.setRod_dget (d : Dev) (r : Nat) (x : RodH) (u : Nat) : (d.setRod r x).dget u = d.dget u := (rfl)
@[simp] theorem Dev.setRod_freeVal (d : Dev) (r : Nat) (x : RodH) : (d.setRod r x).freeVal = d.freeVal := (rfl)
@[simp] theorem Dev.setRod_routeOf (d : Dev) (r : Nat) (x : RodH) (u : Nat) : (d.setRod r x).routeOf u = d.routeOf u := (rfl)
@[simp] theorem Dev.setRod_mode (d : Dev) (r : Nat) (x : RodH) : (d.setRod r x).mode = d.mode := (rfl)
@[simp] theorem Dev.setRod_ticking (d : Dev) (r : Nat) (x : RodH) : (d.setRod r x).ticking = d.ticking := (rfl)
@[simp] theorem Dev.setRod_inRun (d : Dev) (r : Nat) (x : RodH) (u : Nat) : (d.setRod r x).inRun u = d.inRun u := (rfl)
@[simp] theorem Dev.setFrame_timer (d : Dev) (n : Nat) (x : FrameH) (u w : Nat) : (d.setFrame n x).timer u w = d.timer u w := (rfl)
@[simp] theorem Dev.setFrame_pair (d : Dev) (n : Nat) (x : FrameH) (u w : Nat) : (d.setFrame n x).pair u w = d.pair u w := (rfl)
@[simp] theorem Dev.setFrame_line (d : Dev) (n : Nat) (x : FrameH) (u w : Nat) : (d.setFrame n x).line u w = d.line u w := (rfl)
@[simp] theorem Dev.setFrame_chan (d : Dev) (n : Nat) (x : FrameH) (u w : Nat) : (d.setFrame n x).chan u w = d.chan u w := (rfl)
@[simp] theorem Dev.setFrame_sset (d : Dev) (n : Nat) (x : FrameH) (u : Nat) : (d.setFrame n x).sset u = d.sset u := (rfl)
@[simp] theorem Dev.setFrame_sdm (d : Dev) (n : Nat) (x : FrameH) (u w : Nat) : (d.setFrame n x).sdm u w = d.sdm u w := (rfl)
@[simp] theorem Dev.setFrame_sdclk (d : Dev) (n : Nat) (x : FrameH) (u w : Nat) : (d.setFrame n x).sdclk u w = d.sdclk u w := (rfl)
@[simp] theorem Dev.setFrame_rod (d : Dev) (n : Nat) (x : FrameH) (u : Nat) : (d.setFrame n x).rod u = d.rod u := (rfl)
@[simp] theorem Dev.setFrame_trace (d : Dev) (n : Nat) (x : FrameH) (u : Nat) : (d.setFrame n x).trace u = d.trace u := (rfl)
@[simp] theorem Dev.setFrame_fbk (d : Dev) (n : Nat) (x : FrameH) (u w : Nat) : (d.setFrame n x).fbk u w = d.fbk u w := (rfl)
@[simp] theorem Dev.setFrame_bead (d : Dev) (n : Nat) (x : FrameH) (u w : Nat) : (d.setFrame n x).bead u w = d.bead u w := (rfl)
@[simp] theorem Dev.setFrame_cell (d : Dev) (n : Nat) (x : FrameH) (u w : Nat) : (d.setFrame n x).cell u w = d.cell u w := (rfl)
@[simp] theorem Dev.setFrame_clasp (d : Dev) (n : Nat) (x : FrameH) (u : Nat) : (d.setFrame n x).clasp u = d.clasp u := (rfl)
@[simp] theorem Dev.setFrame_core (d : Dev) (n : Nat) (x : FrameH) (u : Nat) : (d.setFrame n x).core u = d.core u := (rfl)
@[simp] theorem Dev.setFrame_ring (d : Dev) (n : Nat) (x : FrameH) (u : Nat) : (d.setFrame n x).ring u = d.ring u := (rfl)
@[simp] theorem Dev.setFrame_dmach (d : Dev) (n : Nat) (x : FrameH) (u w : Nat) : (d.setFrame n x).dmach u w = d.dmach u w := (rfl)
@[simp] theorem Dev.setFrame_canc (d : Dev) (n : Nat) (x : FrameH) (u : Nat) : (d.setFrame n x).canc u = d.canc u := (rfl)
@[simp] theorem Dev.setFrame_sess (d : Dev) (n : Nat) (x : FrameH) (u : Nat) : (d.setFrame n x).sess u = d.sess u := (rfl)
@[simp] theorem Dev.setFrame_cred (d : Dev) (n : Nat) (x : FrameH) (u : Nat) : (d.setFrame n x).cred u = d.cred u := (rfl)
@[simp] theorem Dev.setFrame_img (d : Dev) (n : Nat) (x : FrameH) (u : Nat) : (d.setFrame n x).img u = d.img u := (rfl)
@[simp] theorem Dev.setFrame_lrec (d : Dev) (n : Nat) (x : FrameH) (u : Nat) : (d.setFrame n x).lrec u = d.lrec u := (rfl)
@[simp] theorem Dev.setFrame_lat (d : Dev) (n : Nat) (x : FrameH) (u w : Nat) : (d.setFrame n x).lat u w = d.lat u w := (rfl)
@[simp] theorem Dev.setFrame_byte (d : Dev) (n : Nat) (x : FrameH) (u : Nat) : (d.setFrame n x).byte u = d.byte u := (rfl)
@[simp] theorem Dev.setFrame_dget (d : Dev) (n : Nat) (x : FrameH) (u : Nat) : (d.setFrame n x).dget u = d.dget u := (rfl)
@[simp] theorem Dev.setFrame_freeVal (d : Dev) (n : Nat) (x : FrameH) : (d.setFrame n x).freeVal = d.freeVal := (rfl)
@[simp] theorem Dev.setFrame_routeOf (d : Dev) (n : Nat) (x : FrameH) (u : Nat) : (d.setFrame n x).routeOf u = d.routeOf u := (rfl)
@[simp] theorem Dev.setFrame_mode (d : Dev) (n : Nat) (x : FrameH) : (d.setFrame n x).mode = d.mode := (rfl)
@[simp] theorem Dev.setFrame_ticking (d : Dev) (n : Nat) (x : FrameH) : (d.setFrame n x).ticking = d.ticking := (rfl)
@[simp] theorem Dev.setFrame_inRun (d : Dev) (n : Nat) (x : FrameH) (u : Nat) : (d.setFrame n x).inRun u = d.inRun u := (rfl)
@[simp] theorem Dev.setTrace_timer (d : Dev) (n : Nat) (x : TraceH) (u w : Nat) : (d.setTrace n x).timer u w = d.timer u w := (rfl)
@[simp] theorem Dev.setTrace_pair (d : Dev) (n : Nat) (x : TraceH) (u w : Nat) : (d.setTrace n x).pair u w = d.pair u w := (rfl)
@[simp] theorem Dev.setTrace_line (d : Dev) (n : Nat) (x : TraceH) (u w : Nat) : (d.setTrace n x).line u w = d.line u w := (rfl)
@[simp] theorem Dev.setTrace_chan (d : Dev) (n : Nat) (x : TraceH) (u w : Nat) : (d.setTrace n x).chan u w = d.chan u w := (rfl)
@[simp] theorem Dev.setTrace_sset (d : Dev) (n : Nat) (x : TraceH) (u : Nat) : (d.setTrace n x).sset u = d.sset u := (rfl)
@[simp] theorem Dev.setTrace_sdm (d : Dev) (n : Nat) (x : TraceH) (u w : Nat) : (d.setTrace n x).sdm u w = d.sdm u w := (rfl)
@[simp] theorem Dev.setTrace_sdclk (d : Dev) (n : Nat) (x : TraceH) (u w : Nat) : (d.setTrace n x).sdclk u w = d.sdclk u w := (rfl)
@[simp] theorem Dev.setTrace_rod (d : Dev) (n : Nat) (x : TraceH) (u : Nat) : (d.setTrace n x).rod u = d.rod u := (rfl)
@[simp] theorem Dev.setTrace_frame (d : Dev) (n : Nat) (x : TraceH) (u : Nat) : (d.setTrace n x).frame u = d.frame u := (rfl)
@[simp] theorem Dev.setTrace_fbk (d : Dev) (n : Nat) (x : TraceH) (u w : Nat) : (d.setTrace n x).fbk u w = d.fbk u w := (rfl)
@[simp] theorem Dev.setTrace_bead (d : Dev) (n : Nat) (x : TraceH) (u w : Nat) : (d.setTrace n x).bead u w = d.bead u w := (rfl)
@[simp] theorem Dev.setTrace_cell (d : Dev) (n : Nat) (x : TraceH) (u w : Nat) : (d.setTrace n x).cell u w = d.cell u w := (rfl)
@[simp] theorem Dev.setTrace_clasp (d : Dev) (n : Nat) (x : TraceH) (u : Nat) : (d.setTrace n x).clasp u = d.clasp u := (rfl)
@[simp] theorem Dev.setTrace_core (d : Dev) (n : Nat) (x : TraceH) (u : Nat) : (d.setTrace n x).core u = d.core u := (rfl)
@[simp] theorem Dev.setTrace_ring (d : Dev) (n : Nat) (x : TraceH) (u : Nat) : (d.setTrace n x).ring u = d.ring u := (rfl)
@[simp] theorem Dev.setTrace_dmach (d : Dev) (n : Nat) (x : TraceH) (u w : Nat) : (d.setTrace n x).dmach u w = d.dmach u w := (rfl)
@[simp] theorem Dev.setTrace_canc (d : Dev) (n : Nat) (x : TraceH) (u : Nat) : (d.setTrace n x).canc u = d.canc u := (rfl)
@[simp] theorem Dev.setTrace_sess (d : Dev) (n : Nat) (x : TraceH) (u : Nat) : (d.setTrace n x).sess u = d.sess u := (rfl)
@[simp] theorem Dev.setTrace_cred (d : Dev) (n : Nat) (x : TraceH) (u : Nat) : (d.setTrace n x).cred u = d.cred u := (rfl)
@[simp] theorem Dev.setTrace_img (d : Dev) (n : Nat) (x : TraceH) (u : Nat) : (d.setTrace n x).img u = d.img u := (rfl)
@[simp] theorem Dev.setTrace_lrec (d : Dev) (n : Nat) (x : TraceH) (u : Nat) : (d.setTrace n x).lrec u = d.lrec u := (rfl)
@[simp] theorem Dev.setTrace_lat (d : Dev) (n : Nat) (x : TraceH) (u w : Nat) : (d.setTrace n x).lat u w = d.lat u w := (rfl)
@[simp] theorem Dev.setTrace_byte (d : Dev) (n : Nat) (x : TraceH) (u : Nat) : (d.setTrace n x).byte u = d.byte u := (rfl)
@[simp] theorem Dev.setTrace_dget (d : Dev) (n : Nat) (x : TraceH) (u : Nat) : (d.setTrace n x).dget u = d.dget u := (rfl)
@[simp] theorem Dev.setTrace_freeVal (d : Dev) (n : Nat) (x : TraceH) : (d.setTrace n x).freeVal = d.freeVal := (rfl)
@[simp] theorem Dev.setTrace_routeOf (d : Dev) (n : Nat) (x : TraceH) (u : Nat) : (d.setTrace n x).routeOf u = d.routeOf u := (rfl)
@[simp] theorem Dev.setTrace_mode (d : Dev) (n : Nat) (x : TraceH) : (d.setTrace n x).mode = d.mode := (rfl)
@[simp] theorem Dev.setTrace_ticking (d : Dev) (n : Nat) (x : TraceH) : (d.setTrace n x).ticking = d.ticking := (rfl)
@[simp] theorem Dev.setTrace_inRun (d : Dev) (n : Nat) (x : TraceH) (u : Nat) : (d.setTrace n x).inRun u = d.inRun u := (rfl)
@[simp] theorem Dev.setFbk_timer (d : Dev) (n k : Nat) (x : FbkH) (u w : Nat) : (d.setFbk n k x).timer u w = d.timer u w := (rfl)
@[simp] theorem Dev.setFbk_pair (d : Dev) (n k : Nat) (x : FbkH) (u w : Nat) : (d.setFbk n k x).pair u w = d.pair u w := (rfl)
@[simp] theorem Dev.setFbk_line (d : Dev) (n k : Nat) (x : FbkH) (u w : Nat) : (d.setFbk n k x).line u w = d.line u w := (rfl)
@[simp] theorem Dev.setFbk_chan (d : Dev) (n k : Nat) (x : FbkH) (u w : Nat) : (d.setFbk n k x).chan u w = d.chan u w := (rfl)
@[simp] theorem Dev.setFbk_sset (d : Dev) (n k : Nat) (x : FbkH) (u : Nat) : (d.setFbk n k x).sset u = d.sset u := (rfl)
@[simp] theorem Dev.setFbk_sdm (d : Dev) (n k : Nat) (x : FbkH) (u w : Nat) : (d.setFbk n k x).sdm u w = d.sdm u w := (rfl)
@[simp] theorem Dev.setFbk_sdclk (d : Dev) (n k : Nat) (x : FbkH) (u w : Nat) : (d.setFbk n k x).sdclk u w = d.sdclk u w := (rfl)
@[simp] theorem Dev.setFbk_rod (d : Dev) (n k : Nat) (x : FbkH) (u : Nat) : (d.setFbk n k x).rod u = d.rod u := (rfl)
@[simp] theorem Dev.setFbk_frame (d : Dev) (n k : Nat) (x : FbkH) (u : Nat) : (d.setFbk n k x).frame u = d.frame u := (rfl)
@[simp] theorem Dev.setFbk_trace (d : Dev) (n k : Nat) (x : FbkH) (u : Nat) : (d.setFbk n k x).trace u = d.trace u := (rfl)
@[simp] theorem Dev.setFbk_bead (d : Dev) (n k : Nat) (x : FbkH) (u w : Nat) : (d.setFbk n k x).bead u w = d.bead u w := (rfl)
@[simp] theorem Dev.setFbk_cell (d : Dev) (n k : Nat) (x : FbkH) (u w : Nat) : (d.setFbk n k x).cell u w = d.cell u w := (rfl)
@[simp] theorem Dev.setFbk_clasp (d : Dev) (n k : Nat) (x : FbkH) (u : Nat) : (d.setFbk n k x).clasp u = d.clasp u := (rfl)
@[simp] theorem Dev.setFbk_core (d : Dev) (n k : Nat) (x : FbkH) (u : Nat) : (d.setFbk n k x).core u = d.core u := (rfl)
@[simp] theorem Dev.setFbk_ring (d : Dev) (n k : Nat) (x : FbkH) (u : Nat) : (d.setFbk n k x).ring u = d.ring u := (rfl)
@[simp] theorem Dev.setFbk_dmach (d : Dev) (n k : Nat) (x : FbkH) (u w : Nat) : (d.setFbk n k x).dmach u w = d.dmach u w := (rfl)
@[simp] theorem Dev.setFbk_canc (d : Dev) (n k : Nat) (x : FbkH) (u : Nat) : (d.setFbk n k x).canc u = d.canc u := (rfl)
@[simp] theorem Dev.setFbk_sess (d : Dev) (n k : Nat) (x : FbkH) (u : Nat) : (d.setFbk n k x).sess u = d.sess u := (rfl)
@[simp] theorem Dev.setFbk_cred (d : Dev) (n k : Nat) (x : FbkH) (u : Nat) : (d.setFbk n k x).cred u = d.cred u := (rfl)
@[simp] theorem Dev.setFbk_img (d : Dev) (n k : Nat) (x : FbkH) (u : Nat) : (d.setFbk n k x).img u = d.img u := (rfl)
@[simp] theorem Dev.setFbk_lrec (d : Dev) (n k : Nat) (x : FbkH) (u : Nat) : (d.setFbk n k x).lrec u = d.lrec u := (rfl)
@[simp] theorem Dev.setFbk_lat (d : Dev) (n k : Nat) (x : FbkH) (u w : Nat) : (d.setFbk n k x).lat u w = d.lat u w := (rfl)
@[simp] theorem Dev.setFbk_byte (d : Dev) (n k : Nat) (x : FbkH) (u : Nat) : (d.setFbk n k x).byte u = d.byte u := (rfl)
@[simp] theorem Dev.setFbk_dget (d : Dev) (n k : Nat) (x : FbkH) (u : Nat) : (d.setFbk n k x).dget u = d.dget u := (rfl)
@[simp] theorem Dev.setFbk_freeVal (d : Dev) (n k : Nat) (x : FbkH) : (d.setFbk n k x).freeVal = d.freeVal := (rfl)
@[simp] theorem Dev.setFbk_routeOf (d : Dev) (n k : Nat) (x : FbkH) (u : Nat) : (d.setFbk n k x).routeOf u = d.routeOf u := (rfl)
@[simp] theorem Dev.setFbk_mode (d : Dev) (n k : Nat) (x : FbkH) : (d.setFbk n k x).mode = d.mode := (rfl)
@[simp] theorem Dev.setFbk_ticking (d : Dev) (n k : Nat) (x : FbkH) : (d.setFbk n k x).ticking = d.ticking := (rfl)
@[simp] theorem Dev.setFbk_inRun (d : Dev) (n k : Nat) (x : FbkH) (u : Nat) : (d.setFbk n k x).inRun u = d.inRun u := (rfl)
@[simp] theorem Dev.setBead_timer (d : Dev) (n e : Nat) (x : BeadH) (u w : Nat) : (d.setBead n e x).timer u w = d.timer u w := (rfl)
@[simp] theorem Dev.setBead_pair (d : Dev) (n e : Nat) (x : BeadH) (u w : Nat) : (d.setBead n e x).pair u w = d.pair u w := (rfl)
@[simp] theorem Dev.setBead_line (d : Dev) (n e : Nat) (x : BeadH) (u w : Nat) : (d.setBead n e x).line u w = d.line u w := (rfl)
@[simp] theorem Dev.setBead_chan (d : Dev) (n e : Nat) (x : BeadH) (u w : Nat) : (d.setBead n e x).chan u w = d.chan u w := (rfl)
@[simp] theorem Dev.setBead_sset (d : Dev) (n e : Nat) (x : BeadH) (u : Nat) : (d.setBead n e x).sset u = d.sset u := (rfl)
@[simp] theorem Dev.setBead_sdm (d : Dev) (n e : Nat) (x : BeadH) (u w : Nat) : (d.setBead n e x).sdm u w = d.sdm u w := (rfl)
@[simp] theorem Dev.setBead_sdclk (d : Dev) (n e : Nat) (x : BeadH) (u w : Nat) : (d.setBead n e x).sdclk u w = d.sdclk u w := (rfl)
@[simp] theorem Dev.setBead_rod (d : Dev) (n e : Nat) (x : BeadH) (u : Nat) : (d.setBead n e x).rod u = d.rod u := (rfl)
@[simp] theorem Dev.setBead_frame (d : Dev) (n e : Nat) (x : BeadH) (u : Nat) : (d.setBead n e x).frame u = d.frame u := (rfl)
@[simp] theorem Dev.setBead_trace (d : Dev) (n e : Nat) (x : BeadH) (u : Nat) : (d.setBead n e x).trace u = d.trace u := (rfl)
@[simp] theorem Dev.setBead_fbk (d : Dev) (n e : Nat) (x : BeadH) (u w : Nat) : (d.setBead n e x).fbk u w = d.fbk u w := (rfl)
@[simp] theorem Dev.setBead_cell (d : Dev) (n e : Nat) (x : BeadH) (u w : Nat) : (d.setBead n e x).cell u w = d.cell u w := (rfl)
@[simp] theorem Dev.setBead_clasp (d : Dev) (n e : Nat) (x : BeadH) (u : Nat) : (d.setBead n e x).clasp u = d.clasp u := (rfl)
@[simp] theorem Dev.setBead_core (d : Dev) (n e : Nat) (x : BeadH) (u : Nat) : (d.setBead n e x).core u = d.core u := (rfl)
@[simp] theorem Dev.setBead_ring (d : Dev) (n e : Nat) (x : BeadH) (u : Nat) : (d.setBead n e x).ring u = d.ring u := (rfl)
@[simp] theorem Dev.setBead_dmach (d : Dev) (n e : Nat) (x : BeadH) (u w : Nat) : (d.setBead n e x).dmach u w = d.dmach u w := (rfl)
@[simp] theorem Dev.setBead_canc (d : Dev) (n e : Nat) (x : BeadH) (u : Nat) : (d.setBead n e x).canc u = d.canc u := (rfl)
@[simp] theorem Dev.setBead_sess (d : Dev) (n e : Nat) (x : BeadH) (u : Nat) : (d.setBead n e x).sess u = d.sess u := (rfl)
@[simp] theorem Dev.setBead_cred (d : Dev) (n e : Nat) (x : BeadH) (u : Nat) : (d.setBead n e x).cred u = d.cred u := (rfl)
@[simp] theorem Dev.setBead_img (d : Dev) (n e : Nat) (x : BeadH) (u : Nat) : (d.setBead n e x).img u = d.img u := (rfl)
@[simp] theorem Dev.setBead_lrec (d : Dev) (n e : Nat) (x : BeadH) (u : Nat) : (d.setBead n e x).lrec u = d.lrec u := (rfl)
@[simp] theorem Dev.setBead_lat (d : Dev) (n e : Nat) (x : BeadH) (u w : Nat) : (d.setBead n e x).lat u w = d.lat u w := (rfl)
@[simp] theorem Dev.setBead_byte (d : Dev) (n e : Nat) (x : BeadH) (u : Nat) : (d.setBead n e x).byte u = d.byte u := (rfl)
@[simp] theorem Dev.setBead_dget (d : Dev) (n e : Nat) (x : BeadH) (u : Nat) : (d.setBead n e x).dget u = d.dget u := (rfl)
@[simp] theorem Dev.setBead_freeVal (d : Dev) (n e : Nat) (x : BeadH) : (d.setBead n e x).freeVal = d.freeVal := (rfl)
@[simp] theorem Dev.setBead_routeOf (d : Dev) (n e : Nat) (x : BeadH) (u : Nat) : (d.setBead n e x).routeOf u = d.routeOf u := (rfl)
@[simp] theorem Dev.setBead_mode (d : Dev) (n e : Nat) (x : BeadH) : (d.setBead n e x).mode = d.mode := (rfl)
@[simp] theorem Dev.setBead_ticking (d : Dev) (n e : Nat) (x : BeadH) : (d.setBead n e x).ticking = d.ticking := (rfl)
@[simp] theorem Dev.setBead_inRun (d : Dev) (n e : Nat) (x : BeadH) (u : Nat) : (d.setBead n e x).inRun u = d.inRun u := (rfl)
@[simp] theorem Dev.setCell_timer (d : Dev) (n i : Nat) (x : CellH) (u w : Nat) : (d.setCell n i x).timer u w = d.timer u w := (rfl)
@[simp] theorem Dev.setCell_pair (d : Dev) (n i : Nat) (x : CellH) (u w : Nat) : (d.setCell n i x).pair u w = d.pair u w := (rfl)
@[simp] theorem Dev.setCell_line (d : Dev) (n i : Nat) (x : CellH) (u w : Nat) : (d.setCell n i x).line u w = d.line u w := (rfl)
@[simp] theorem Dev.setCell_chan (d : Dev) (n i : Nat) (x : CellH) (u w : Nat) : (d.setCell n i x).chan u w = d.chan u w := (rfl)
@[simp] theorem Dev.setCell_sset (d : Dev) (n i : Nat) (x : CellH) (u : Nat) : (d.setCell n i x).sset u = d.sset u := (rfl)
@[simp] theorem Dev.setCell_sdm (d : Dev) (n i : Nat) (x : CellH) (u w : Nat) : (d.setCell n i x).sdm u w = d.sdm u w := (rfl)
@[simp] theorem Dev.setCell_sdclk (d : Dev) (n i : Nat) (x : CellH) (u w : Nat) : (d.setCell n i x).sdclk u w = d.sdclk u w := (rfl)
@[simp] theorem Dev.setCell_rod (d : Dev) (n i : Nat) (x : CellH) (u : Nat) : (d.setCell n i x).rod u = d.rod u := (rfl)
@[simp] theorem Dev.setCell_frame (d : Dev) (n i : Nat) (x : CellH) (u : Nat) : (d.setCell n i x).frame u = d.frame u := (rfl)
@[simp] theorem Dev.setCell_trace (d : Dev) (n i : Nat) (x : CellH) (u : Nat) : (d.setCell n i x).trace u = d.trace u := (rfl)
@[simp] theorem Dev.setCell_fbk (d : Dev) (n i : Nat) (x : CellH) (u w : Nat) : (d.setCell n i x).fbk u w = d.fbk u w := (rfl)
@[simp] theorem Dev.setCell_bead (d : Dev) (n i : Nat) (x : CellH) (u w : Nat) : (d.setCell n i x).bead u w = d.bead u w := (rfl)
@[simp] theorem Dev.setCell_clasp (d : Dev) (n i : Nat) (x : CellH) (u : Nat) : (d.setCell n i x).clasp u = d.clasp u := (rfl)
@[simp] theorem Dev.setCell_core (d : Dev) (n i : Nat) (x : CellH) (u : Nat) : (d.setCell n i x).core u = d.core u := (rfl)
@[simp] theorem Dev.setCell_ring (d : Dev) (n i : Nat) (x : CellH) (u : Nat) : (d.setCell n i x).ring u = d.ring u := (rfl)
@[simp] theorem Dev.setCell_dmach (d : Dev) (n i : Nat) (x : CellH) (u w : Nat) : (d.setCell n i x).dmach u w = d.dmach u w := (rfl)
@[simp] theorem Dev.setCell_canc (d : Dev) (n i : Nat) (x : CellH) (u : Nat) : (d.setCell n i x).canc u = d.canc u := (rfl)
@[simp] theorem Dev.setCell_sess (d : Dev) (n i : Nat) (x : CellH) (u : Nat) : (d.setCell n i x).sess u = d.sess u := (rfl)
@[simp] theorem Dev.setCell_cred (d : Dev) (n i : Nat) (x : CellH) (u : Nat) : (d.setCell n i x).cred u = d.cred u := (rfl)
@[simp] theorem Dev.setCell_img (d : Dev) (n i : Nat) (x : CellH) (u : Nat) : (d.setCell n i x).img u = d.img u := (rfl)
@[simp] theorem Dev.setCell_lrec (d : Dev) (n i : Nat) (x : CellH) (u : Nat) : (d.setCell n i x).lrec u = d.lrec u := (rfl)
@[simp] theorem Dev.setCell_lat (d : Dev) (n i : Nat) (x : CellH) (u w : Nat) : (d.setCell n i x).lat u w = d.lat u w := (rfl)
@[simp] theorem Dev.setCell_byte (d : Dev) (n i : Nat) (x : CellH) (u : Nat) : (d.setCell n i x).byte u = d.byte u := (rfl)
@[simp] theorem Dev.setCell_dget (d : Dev) (n i : Nat) (x : CellH) (u : Nat) : (d.setCell n i x).dget u = d.dget u := (rfl)
@[simp] theorem Dev.setCell_freeVal (d : Dev) (n i : Nat) (x : CellH) : (d.setCell n i x).freeVal = d.freeVal := (rfl)
@[simp] theorem Dev.setCell_routeOf (d : Dev) (n i : Nat) (x : CellH) (u : Nat) : (d.setCell n i x).routeOf u = d.routeOf u := (rfl)
@[simp] theorem Dev.setCell_mode (d : Dev) (n i : Nat) (x : CellH) : (d.setCell n i x).mode = d.mode := (rfl)
@[simp] theorem Dev.setCell_ticking (d : Dev) (n i : Nat) (x : CellH) : (d.setCell n i x).ticking = d.ticking := (rfl)
@[simp] theorem Dev.setCell_inRun (d : Dev) (n i : Nat) (x : CellH) (u : Nat) : (d.setCell n i x).inRun u = d.inRun u := (rfl)
@[simp] theorem Dev.setClasp_timer (d : Dev) (c : Nat) (x : ClaspH) (u w : Nat) : (d.setClasp c x).timer u w = d.timer u w := (rfl)
@[simp] theorem Dev.setClasp_pair (d : Dev) (c : Nat) (x : ClaspH) (u w : Nat) : (d.setClasp c x).pair u w = d.pair u w := (rfl)
@[simp] theorem Dev.setClasp_line (d : Dev) (c : Nat) (x : ClaspH) (u w : Nat) : (d.setClasp c x).line u w = d.line u w := (rfl)
@[simp] theorem Dev.setClasp_chan (d : Dev) (c : Nat) (x : ClaspH) (u w : Nat) : (d.setClasp c x).chan u w = d.chan u w := (rfl)
@[simp] theorem Dev.setClasp_sset (d : Dev) (c : Nat) (x : ClaspH) (u : Nat) : (d.setClasp c x).sset u = d.sset u := (rfl)
@[simp] theorem Dev.setClasp_sdm (d : Dev) (c : Nat) (x : ClaspH) (u w : Nat) : (d.setClasp c x).sdm u w = d.sdm u w := (rfl)
@[simp] theorem Dev.setClasp_sdclk (d : Dev) (c : Nat) (x : ClaspH) (u w : Nat) : (d.setClasp c x).sdclk u w = d.sdclk u w := (rfl)
@[simp] theorem Dev.setClasp_rod (d : Dev) (c : Nat) (x : ClaspH) (u : Nat) : (d.setClasp c x).rod u = d.rod u := (rfl)
@[simp] theorem Dev.setClasp_frame (d : Dev) (c : Nat) (x : ClaspH) (u : Nat) : (d.setClasp c x).frame u = d.frame u := (rfl)
@[simp] theorem Dev.setClasp_trace (d : Dev) (c : Nat) (x : ClaspH) (u : Nat) : (d.setClasp c x).trace u = d.trace u := (rfl)
@[simp] theorem Dev.setClasp_fbk (d : Dev) (c : Nat) (x : ClaspH) (u w : Nat) : (d.setClasp c x).fbk u w = d.fbk u w := (rfl)
@[simp] theorem Dev.setClasp_bead (d : Dev) (c : Nat) (x : ClaspH) (u w : Nat) : (d.setClasp c x).bead u w = d.bead u w := (rfl)
@[simp] theorem Dev.setClasp_cell (d : Dev) (c : Nat) (x : ClaspH) (u w : Nat) : (d.setClasp c x).cell u w = d.cell u w := (rfl)
@[simp] theorem Dev.setClasp_core (d : Dev) (c : Nat) (x : ClaspH) (u : Nat) : (d.setClasp c x).core u = d.core u := (rfl)
@[simp] theorem Dev.setClasp_ring (d : Dev) (c : Nat) (x : ClaspH) (u : Nat) : (d.setClasp c x).ring u = d.ring u := (rfl)
@[simp] theorem Dev.setClasp_dmach (d : Dev) (c : Nat) (x : ClaspH) (u w : Nat) : (d.setClasp c x).dmach u w = d.dmach u w := (rfl)
@[simp] theorem Dev.setClasp_canc (d : Dev) (c : Nat) (x : ClaspH) (u : Nat) : (d.setClasp c x).canc u = d.canc u := (rfl)
@[simp] theorem Dev.setClasp_sess (d : Dev) (c : Nat) (x : ClaspH) (u : Nat) : (d.setClasp c x).sess u = d.sess u := (rfl)
@[simp] theorem Dev.setClasp_cred (d : Dev) (c : Nat) (x : ClaspH) (u : Nat) : (d.setClasp c x).cred u = d.cred u := (rfl)
@[simp] theorem Dev.setClasp_img (d : Dev) (c : Nat) (x : ClaspH) (u : Nat) : (d.setClasp c x).img u = d.img u := (rfl)
@[simp] theorem Dev.setClasp_lrec (d : Dev) (c : Nat) (x : ClaspH) (u : Nat) : (d.setClasp c x).lrec u = d.lrec u := (rfl)
@[simp] theorem Dev.setClasp_lat (d : Dev) (c : Nat) (x : ClaspH) (u w : Nat) : (d.setClasp c x).lat u w = d.lat u w := (rfl)
@[simp] theorem Dev.setClasp_byte (d : Dev) (c : Nat) (x : ClaspH) (u : Nat) : (d.setClasp c x).byte u = d.byte u := (rfl)
@[simp] theorem Dev.setClasp_dget (d : Dev) (c : Nat) (x : ClaspH) (u : Nat) : (d.setClasp c x).dget u = d.dget u := (rfl)
@[simp] theorem Dev.setClasp_freeVal (d : Dev) (c : Nat) (x : ClaspH) : (d.setClasp c x).freeVal = d.freeVal := (rfl)
@[simp] theorem Dev.setClasp_routeOf (d : Dev) (c : Nat) (x : ClaspH) (u : Nat) : (d.setClasp c x).routeOf u = d.routeOf u := (rfl)
@[simp] theorem Dev.setClasp_mode (d : Dev) (c : Nat) (x : ClaspH) : (d.setClasp c x).mode = d.mode := (rfl)
@[simp] theorem Dev.setClasp_ticking (d : Dev) (c : Nat) (x : ClaspH) : (d.setClasp c x).ticking = d.ticking := (rfl)
@[simp] theorem Dev.setClasp_inRun (d : Dev) (c : Nat) (x : ClaspH) (u : Nat) : (d.setClasp c x).inRun u = d.inRun u := (rfl)
@[simp] theorem Dev.setCore_timer (d : Dev) (c : Nat) (x : CoreH) (u w : Nat) : (d.setCore c x).timer u w = d.timer u w := (rfl)
@[simp] theorem Dev.setCore_pair (d : Dev) (c : Nat) (x : CoreH) (u w : Nat) : (d.setCore c x).pair u w = d.pair u w := (rfl)
@[simp] theorem Dev.setCore_line (d : Dev) (c : Nat) (x : CoreH) (u w : Nat) : (d.setCore c x).line u w = d.line u w := (rfl)
@[simp] theorem Dev.setCore_chan (d : Dev) (c : Nat) (x : CoreH) (u w : Nat) : (d.setCore c x).chan u w = d.chan u w := (rfl)
@[simp] theorem Dev.setCore_sset (d : Dev) (c : Nat) (x : CoreH) (u : Nat) : (d.setCore c x).sset u = d.sset u := (rfl)
@[simp] theorem Dev.setCore_sdm (d : Dev) (c : Nat) (x : CoreH) (u w : Nat) : (d.setCore c x).sdm u w = d.sdm u w := (rfl)
@[simp] theorem Dev.setCore_sdclk (d : Dev) (c : Nat) (x : CoreH) (u w : Nat) : (d.setCore c x).sdclk u w = d.sdclk u w := (rfl)
@[simp] theorem Dev.setCore_rod (d : Dev) (c : Nat) (x : CoreH) (u : Nat) : (d.setCore c x).rod u = d.rod u := (rfl)
@[simp] theorem Dev.setCore_frame (d : Dev) (c : Nat) (x : CoreH) (u : Nat) : (d.setCore c x).frame u = d.frame u := (rfl)
@[simp] theorem Dev.setCore_trace (d : Dev) (c : Nat) (x : CoreH) (u : Nat) : (d.setCore c x).trace u = d.trace u := (rfl)
@[simp] theorem Dev.setCore_fbk (d : Dev) (c : Nat) (x : CoreH) (u w : Nat) : (d.setCore c x).fbk u w = d.fbk u w := (rfl)
@[simp] theorem Dev.setCore_bead (d : Dev) (c : Nat) (x : CoreH) (u w : Nat) : (d.setCore c x).bead u w = d.bead u w := (rfl)
@[simp] theorem Dev.setCore_cell (d : Dev) (c : Nat) (x : CoreH) (u w : Nat) : (d.setCore c x).cell u w = d.cell u w := (rfl)
@[simp] theorem Dev.setCore_clasp (d : Dev) (c : Nat) (x : CoreH) (u : Nat) : (d.setCore c x).clasp u = d.clasp u := (rfl)
@[simp] theorem Dev.setCore_ring (d : Dev) (c : Nat) (x : CoreH) (u : Nat) : (d.setCore c x).ring u = d.ring u := (rfl)
@[simp] theorem Dev.setCore_dmach (d : Dev) (c : Nat) (x : CoreH) (u w : Nat) : (d.setCore c x).dmach u w = d.dmach u w := (rfl)
@[simp] theorem Dev.setCore_canc (d : Dev) (c : Nat) (x : CoreH) (u : Nat) : (d.setCore c x).canc u = d.canc u := (rfl)
@[simp] theorem Dev.setCore_sess (d : Dev) (c : Nat) (x : CoreH) (u : Nat) : (d.setCore c x).sess u = d.sess u := (rfl)
@[simp] theorem Dev.setCore_cred (d : Dev) (c : Nat) (x : CoreH) (u : Nat) : (d.setCore c x).cred u = d.cred u := (rfl)
@[simp] theorem Dev.setCore_img (d : Dev) (c : Nat) (x : CoreH) (u : Nat) : (d.setCore c x).img u = d.img u := (rfl)
@[simp] theorem Dev.setCore_lrec (d : Dev) (c : Nat) (x : CoreH) (u : Nat) : (d.setCore c x).lrec u = d.lrec u := (rfl)
@[simp] theorem Dev.setCore_lat (d : Dev) (c : Nat) (x : CoreH) (u w : Nat) : (d.setCore c x).lat u w = d.lat u w := (rfl)
@[simp] theorem Dev.setCore_byte (d : Dev) (c : Nat) (x : CoreH) (u : Nat) : (d.setCore c x).byte u = d.byte u := (rfl)
@[simp] theorem Dev.setCore_dget (d : Dev) (c : Nat) (x : CoreH) (u : Nat) : (d.setCore c x).dget u = d.dget u := (rfl)
@[simp] theorem Dev.setCore_freeVal (d : Dev) (c : Nat) (x : CoreH) : (d.setCore c x).freeVal = d.freeVal := (rfl)
@[simp] theorem Dev.setCore_routeOf (d : Dev) (c : Nat) (x : CoreH) (u : Nat) : (d.setCore c x).routeOf u = d.routeOf u := (rfl)
@[simp] theorem Dev.setCore_mode (d : Dev) (c : Nat) (x : CoreH) : (d.setCore c x).mode = d.mode := (rfl)
@[simp] theorem Dev.setCore_ticking (d : Dev) (c : Nat) (x : CoreH) : (d.setCore c x).ticking = d.ticking := (rfl)
@[simp] theorem Dev.setCore_inRun (d : Dev) (c : Nat) (x : CoreH) (u : Nat) : (d.setCore c x).inRun u = d.inRun u := (rfl)
@[simp] theorem Dev.setRing_timer (d : Dev) (c : Nat) (x : RingH) (u w : Nat) : (d.setRing c x).timer u w = d.timer u w := (rfl)
@[simp] theorem Dev.setRing_pair (d : Dev) (c : Nat) (x : RingH) (u w : Nat) : (d.setRing c x).pair u w = d.pair u w := (rfl)
@[simp] theorem Dev.setRing_line (d : Dev) (c : Nat) (x : RingH) (u w : Nat) : (d.setRing c x).line u w = d.line u w := (rfl)
@[simp] theorem Dev.setRing_chan (d : Dev) (c : Nat) (x : RingH) (u w : Nat) : (d.setRing c x).chan u w = d.chan u w := (rfl)
@[simp] theorem Dev.setRing_sset (d : Dev) (c : Nat) (x : RingH) (u : Nat) : (d.setRing c x).sset u = d.sset u := (rfl)
@[simp] theorem Dev.setRing_sdm (d : Dev) (c : Nat) (x : RingH) (u w : Nat) : (d.setRing c x).sdm u w = d.sdm u w := (rfl)
@[simp] theorem Dev.setRing_sdclk (d : Dev) (c : Nat) (x : RingH) (u w : Nat) : (d.setRing c x).sdclk u w = d.sdclk u w := (rfl)
@[simp] theorem Dev.setRing_rod (d : Dev) (c : Nat) (x : RingH) (u : Nat) : (d.setRing c x).rod u = d.rod u := (rfl)
@[simp] theorem Dev.setRing_frame (d : Dev) (c : Nat) (x : RingH) (u : Nat) : (d.setRing c x).frame u = d.frame u := (rfl)
@[simp] theorem Dev.setRing_trace (d : Dev) (c : Nat) (x : RingH) (u : Nat) : (d.setRing c x).trace u = d.trace u := (rfl)
@[simp] theorem Dev.setRing_fbk (d : Dev) (c : Nat) (x : RingH) (u w : Nat) : (d.setRing c x).fbk u w = d.fbk u w := (rfl)
@[simp] theorem Dev.setRing_bead (d : Dev) (c : Nat) (x : RingH) (u w : Nat) : (d.setRing c x).bead u w = d.bead u w := (rfl)
@[simp] theorem Dev.setRing_cell (d : Dev) (c : Nat) (x : RingH) (u w : Nat) : (d.setRing c x).cell u w = d.cell u w := (rfl)
@[simp] theorem Dev.setRing_clasp (d : Dev) (c : Nat) (x : RingH) (u : Nat) : (d.setRing c x).clasp u = d.clasp u := (rfl)
@[simp] theorem Dev.setRing_core (d : Dev) (c : Nat) (x : RingH) (u : Nat) : (d.setRing c x).core u = d.core u := (rfl)
@[simp] theorem Dev.setRing_dmach (d : Dev) (c : Nat) (x : RingH) (u w : Nat) : (d.setRing c x).dmach u w = d.dmach u w := (rfl)
@[simp] theorem Dev.setRing_canc (d : Dev) (c : Nat) (x : RingH) (u : Nat) : (d.setRing c x).canc u = d.canc u := (rfl)
@[simp] theorem Dev.setRing_sess (d : Dev) (c : Nat) (x : RingH) (u : Nat) : (d.setRing c x).sess u = d.sess u := (rfl)
@[simp] theorem Dev.setRing_cred (d : Dev) (c : Nat) (x : RingH) (u : Nat) : (d.setRing c x).cred u = d.cred u := (rfl)
@[simp] theorem Dev.setRing_img (d : Dev) (c : Nat) (x : RingH) (u : Nat) : (d.setRing c x).img u = d.img u := (rfl)
@[simp] theorem Dev.setRing_lrec (d : Dev) (c : Nat) (x : RingH) (u : Nat) : (d.setRing c x).lrec u = d.lrec u := (rfl)
@[simp] theorem Dev.setRing_lat (d : Dev) (c : Nat) (x : RingH) (u w : Nat) : (d.setRing c x).lat u w = d.lat u w := (rfl)
@[simp] theorem Dev.setRing_byte (d : Dev) (c : Nat) (x : RingH) (u : Nat) : (d.setRing c x).byte u = d.byte u := (rfl)
@[simp] theorem Dev.setRing_dget (d : Dev) (c : Nat) (x : RingH) (u : Nat) : (d.setRing c x).dget u = d.dget u := (rfl)
@[simp] theorem Dev.setRing_freeVal (d : Dev) (c : Nat) (x : RingH) : (d.setRing c x).freeVal = d.freeVal := (rfl)
@[simp] theorem Dev.setRing_routeOf (d : Dev) (c : Nat) (x : RingH) (u : Nat) : (d.setRing c x).routeOf u = d.routeOf u := (rfl)
@[simp] theorem Dev.setRing_mode (d : Dev) (c : Nat) (x : RingH) : (d.setRing c x).mode = d.mode := (rfl)
@[simp] theorem Dev.setRing_ticking (d : Dev) (c : Nat) (x : RingH) : (d.setRing c x).ticking = d.ticking := (rfl)
@[simp] theorem Dev.setRing_inRun (d : Dev) (c : Nat) (x : RingH) (u : Nat) : (d.setRing c x).inRun u = d.inRun u := (rfl)
@[simp] theorem Dev.setDmach_timer (d : Dev) (e c : Nat) (x : DmaH) (u w : Nat) : (d.setDmach e c x).timer u w = d.timer u w := (rfl)
@[simp] theorem Dev.setDmach_pair (d : Dev) (e c : Nat) (x : DmaH) (u w : Nat) : (d.setDmach e c x).pair u w = d.pair u w := (rfl)
@[simp] theorem Dev.setDmach_line (d : Dev) (e c : Nat) (x : DmaH) (u w : Nat) : (d.setDmach e c x).line u w = d.line u w := (rfl)
@[simp] theorem Dev.setDmach_chan (d : Dev) (e c : Nat) (x : DmaH) (u w : Nat) : (d.setDmach e c x).chan u w = d.chan u w := (rfl)
@[simp] theorem Dev.setDmach_sset (d : Dev) (e c : Nat) (x : DmaH) (u : Nat) : (d.setDmach e c x).sset u = d.sset u := (rfl)
@[simp] theorem Dev.setDmach_sdm (d : Dev) (e c : Nat) (x : DmaH) (u w : Nat) : (d.setDmach e c x).sdm u w = d.sdm u w := (rfl)
@[simp] theorem Dev.setDmach_sdclk (d : Dev) (e c : Nat) (x : DmaH) (u w : Nat) : (d.setDmach e c x).sdclk u w = d.sdclk u w := (rfl)
@[simp] theorem Dev.setDmach_rod (d : Dev) (e c : Nat) (x : DmaH) (u : Nat) : (d.setDmach e c x).rod u = d.rod u := (rfl)
@[simp] theorem Dev.setDmach_frame (d : Dev) (e c : Nat) (x : DmaH) (u : Nat) : (d.setDmach e c x).frame u = d.frame u := (rfl)
@[simp] theorem Dev.setDmach_trace (d : Dev) (e c : Nat) (x : DmaH) (u : Nat) : (d.setDmach e c x).trace u = d.trace u := (rfl)
@[simp] theorem Dev.setDmach_fbk (d : Dev) (e c : Nat) (x : DmaH) (u w : Nat) : (d.setDmach e c x).fbk u w = d.fbk u w := (rfl)
@[simp] theorem Dev.setDmach_bead (d : Dev) (e c : Nat) (x : DmaH) (u w : Nat) : (d.setDmach e c x).bead u w = d.bead u w := (rfl)
@[simp] theorem Dev.setDmach_cell (d : Dev) (e c : Nat) (x : DmaH) (u w : Nat) : (d.setDmach e c x).cell u w = d.cell u w := (rfl)
@[simp] theorem Dev.setDmach_clasp (d : Dev) (e c : Nat) (x : DmaH) (u : Nat) : (d.setDmach e c x).clasp u = d.clasp u := (rfl)
@[simp] theorem Dev.setDmach_core (d : Dev) (e c : Nat) (x : DmaH) (u : Nat) : (d.setDmach e c x).core u = d.core u := (rfl)
@[simp] theorem Dev.setDmach_ring (d : Dev) (e c : Nat) (x : DmaH) (u : Nat) : (d.setDmach e c x).ring u = d.ring u := (rfl)
@[simp] theorem Dev.setDmach_canc (d : Dev) (e c : Nat) (x : DmaH) (u : Nat) : (d.setDmach e c x).canc u = d.canc u := (rfl)
@[simp] theorem Dev.setDmach_sess (d : Dev) (e c : Nat) (x : DmaH) (u : Nat) : (d.setDmach e c x).sess u = d.sess u := (rfl)
@[simp] theorem Dev.setDmach_cred (d : Dev) (e c : Nat) (x : DmaH) (u : Nat) : (d.setDmach e c x).cred u = d.cred u := (rfl)
@[simp] theorem Dev.setDmach_img (d : Dev) (e c : Nat) (x : DmaH) (u : Nat) : (d.setDmach e c x).img u = d.img u := (rfl)
@[simp] theorem Dev.setDmach_lrec (d : Dev) (e c : Nat) (x : DmaH) (u : Nat) : (d.setDmach e c x).lrec u = d.lrec u := (rfl)
@[simp] theorem Dev.setDmach_lat (d : Dev) (e c : Nat) (x : DmaH) (u w : Nat) : (d.setDmach e c x).lat u w = d.lat u w := (rfl)
@[simp] theorem Dev.setDmach_byte (d : Dev) (e c : Nat) (x : DmaH) (u : Nat) : (d.setDmach e c x).byte u = d.byte u := (rfl)
@[simp] theorem Dev.setDmach_dget (d : Dev) (e c : Nat) (x : DmaH) (u : Nat) : (d.setDmach e c x).dget u = d.dget u := (rfl)
@[simp] theorem Dev.setDmach_freeVal (d : Dev) (e c : Nat) (x : DmaH) : (d.setDmach e c x).freeVal = d.freeVal := (rfl)
@[simp] theorem Dev.setDmach_routeOf (d : Dev) (e c : Nat) (x : DmaH) (u : Nat) : (d.setDmach e c x).routeOf u = d.routeOf u := (rfl)
@[simp] theorem Dev.setDmach_mode (d : Dev) (e c : Nat) (x : DmaH) : (d.setDmach e c x).mode = d.mode := (rfl)
@[simp] theorem Dev.setDmach_ticking (d : Dev) (e c : Nat) (x : DmaH) : (d.setDmach e c x).ticking = d.ticking := (rfl)
@[simp] theorem Dev.setDmach_inRun (d : Dev) (e c : Nat) (x : DmaH) (u : Nat) : (d.setDmach e c x).inRun u = d.inRun u := (rfl)
@[simp] theorem Dev.setCanc_timer (d : Dev) (c : Nat) (x : CanH) (u w : Nat) : (d.setCanc c x).timer u w = d.timer u w := (rfl)
@[simp] theorem Dev.setCanc_pair (d : Dev) (c : Nat) (x : CanH) (u w : Nat) : (d.setCanc c x).pair u w = d.pair u w := (rfl)
@[simp] theorem Dev.setCanc_line (d : Dev) (c : Nat) (x : CanH) (u w : Nat) : (d.setCanc c x).line u w = d.line u w := (rfl)
@[simp] theorem Dev.setCanc_chan (d : Dev) (c : Nat) (x : CanH) (u w : Nat) : (d.setCanc c x).chan u w = d.chan u w := (rfl)
@[simp] theorem Dev.setCanc_sset (d : Dev) (c : Nat) (x : CanH) (u : Nat) : (d.setCanc c x).sset u = d.sset u := (rfl)
@[simp] theorem Dev.setCanc_sdm (d : Dev) (c : Nat) (x : CanH) (u w : Nat) : (d.setCanc c x).sdm u w = d.sdm u w := (rfl)
@[simp] theorem Dev.setCanc_sdclk (d : Dev) (c : Nat) (x : CanH) (u w : Nat) : (d.setCanc c x).sdclk u w = d.sdclk u w := (rfl)
@[simp] theorem Dev.setCanc_rod (d : Dev) (c : Nat) (x : CanH) (u : Nat) : (d.setCanc c x).rod u = d.rod u := (rfl)
@[simp] theorem Dev.setCanc_frame (d : Dev) (c : Nat) (x : CanH) (u : Nat) : (d.setCanc c x).frame u = d.frame u := (rfl)
@[simp] theorem Dev.setCanc_trace (d : Dev) (c : Nat) (x : CanH) (u : Nat) : (d.setCanc c x).trace u = d.trace u := (rfl)
@[simp] theorem Dev.setCanc_fbk (d : Dev) (c : Nat) (x : CanH) (u w : Nat) : (d.setCanc c x).fbk u w = d.fbk u w := (rfl)
@[simp] theorem Dev.setCanc_bead (d : Dev) (c : Nat) (x : CanH) (u w : Nat) : (d.setCanc c x).bead u w = d.bead u w := (rfl)
@[simp] theorem Dev.setCanc_cell (d : Dev) (c : Nat) (x : CanH) (u w : Nat) : (d.setCanc c x).cell u w = d.cell u w := (rfl)
@[simp] theorem Dev.setCanc_clasp (d : Dev) (c : Nat) (x : CanH) (u : Nat) : (d.setCanc c x).clasp u = d.clasp u := (rfl)
@[simp] theorem Dev.setCanc_core (d : Dev) (c : Nat) (x : CanH) (u : Nat) : (d.setCanc c x).core u = d.core u := (rfl)
@[simp] theorem Dev.setCanc_ring (d : Dev) (c : Nat) (x : CanH) (u : Nat) : (d.setCanc c x).ring u = d.ring u := (rfl)
@[simp] theorem Dev.setCanc_dmach (d : Dev) (c : Nat) (x : CanH) (u w : Nat) : (d.setCanc c x).dmach u w = d.dmach u w := (rfl)
@[simp] theorem Dev.setCanc_sess (d : Dev) (c : Nat) (x : CanH) (u : Nat) : (d.setCanc c x).sess u = d.sess u := (rfl)
@[simp] theorem Dev.setCanc_cred (d : Dev) (c : Nat) (x : CanH) (u : Nat) : (d.setCanc c x).cred u = d.cred u := (rfl)
@[simp] theorem Dev.setCanc_img (d : Dev) (c : Nat) (x : CanH) (u : Nat) : (d.setCanc c x).img u = d.img u := (rfl)
@[simp] theorem Dev.setCanc_lrec (d : Dev) (c : Nat) (x : CanH) (u : Nat) : (d.setCanc c x).lrec u = d.lrec u := (rfl)
@[simp] theorem Dev.setCanc_lat (d : Dev) (c : Nat) (x : CanH) (u w : Nat) : (d.setCanc c x).lat u w = d.lat u w := (rfl)
@[simp] theorem Dev.setCanc_byte (d : Dev) (c : Nat) (x : CanH) (u : Nat) : (d.setCanc c x).byte u = d.byte u := (rfl)
@[simp] theorem Dev.setCanc_dget (d : Dev) (c : Nat) (x : CanH) (u : Nat) : (d.setCanc c x).dget u = d.dget u := (rfl)
@[simp] theorem Dev.setCanc_freeVal (d : Dev) (c : Nat) (x : CanH) : (d.setCanc c x).freeVal = d.freeVal := (rfl)
@[simp] theorem Dev.setCanc_routeOf (d : Dev) (c : Nat) (x : CanH) (u : Nat) : (d.setCanc c x).routeOf u = d.routeOf u := (rfl)
@[simp] theorem Dev.setCanc_mode (d : Dev) (c : Nat) (x : CanH) : (d.setCanc c x).mode = d.mode := (rfl)
@[simp] theorem Dev.setCanc_ticking (d : Dev) (c : Nat) (x : CanH) : (d.setCanc c x).ticking = d.ticking := (rfl)
@[simp] theorem Dev.setCanc_inRun (d : Dev) (c : Nat) (x : CanH) (u : Nat) : (d.setCanc c x).inRun u = d.inRun u := (rfl)
@[simp] theorem Dev.setSess_timer (d : Dev) (i : Nat) (x : Sess) (u w : Nat) : (d.setSess i x).timer u w = d.timer u w := (rfl)
@[simp] theorem Dev.setSess_pair (d : Dev) (i : Nat) (x : Sess) (u w : Nat) : (d.setSess i x).pair u w = d.pair u w := (rfl)
@[simp] theorem Dev.setSess_line (d : Dev) (i : Nat) (x : Sess) (u w : Nat) : (d.setSess i x).line u w = d.line u w := (rfl)
@[simp] theorem Dev.setSess_chan (d : Dev) (i : Nat) (x : Sess) (u w : Nat) : (d.setSess i x).chan u w = d.chan u w := (rfl)
@[simp] theorem Dev.setSess_sset (d : Dev) (i : Nat) (x : Sess) (u : Nat) : (d.setSess i x).sset u = d.sset u := (rfl)
@[simp] theorem Dev.setSess_sdm (d : Dev) (i : Nat) (x : Sess) (u w : Nat) : (d.setSess i x).sdm u w = d.sdm u w := (rfl)
@[simp] theorem Dev.setSess_sdclk (d : Dev) (i : Nat) (x : Sess) (u w : Nat) : (d.setSess i x).sdclk u w = d.sdclk u w := (rfl)
@[simp] theorem Dev.setSess_rod (d : Dev) (i : Nat) (x : Sess) (u : Nat) : (d.setSess i x).rod u = d.rod u := (rfl)
@[simp] theorem Dev.setSess_frame (d : Dev) (i : Nat) (x : Sess) (u : Nat) : (d.setSess i x).frame u = d.frame u := (rfl)
@[simp] theorem Dev.setSess_trace (d : Dev) (i : Nat) (x : Sess) (u : Nat) : (d.setSess i x).trace u = d.trace u := (rfl)
@[simp] theorem Dev.setSess_fbk (d : Dev) (i : Nat) (x : Sess) (u w : Nat) : (d.setSess i x).fbk u w = d.fbk u w := (rfl)
@[simp] theorem Dev.setSess_bead (d : Dev) (i : Nat) (x : Sess) (u w : Nat) : (d.setSess i x).bead u w = d.bead u w := (rfl)
@[simp] theorem Dev.setSess_cell (d : Dev) (i : Nat) (x : Sess) (u w : Nat) : (d.setSess i x).cell u w = d.cell u w := (rfl)
@[simp] theorem Dev.setSess_clasp (d : Dev) (i : Nat) (x : Sess) (u : Nat) : (d.setSess i x).clasp u = d.clasp u := (rfl)
@[simp] theorem Dev.setSess_core (d : Dev) (i : Nat) (x : Sess) (u : Nat) : (d.setSess i x).core u = d.core u := (rfl)
@[simp] theorem Dev.setSess_ring (d : Dev) (i : Nat) (x : Sess) (u : Nat) : (d.setSess i x).ring u = d.ring u := (rfl)
@[simp] theorem Dev.setSess_dmach (d : Dev) (i : Nat) (x : Sess) (u w : Nat) : (d.setSess i x).dmach u w = d.dmach u w := (rfl)
@[simp] theorem Dev.setSess_canc (d : Dev) (i : Nat) (x : Sess) (u : Nat) : (d.setSess i x).canc u = d.canc u := (rfl)
@[simp] theorem Dev.setSess_lrec (d : Dev) (i : Nat) (x : Sess) (u : Nat) : (d.setSess i x).lrec u = d.lrec u := (rfl)
@[simp] theorem Dev.setSess_lat (d : Dev) (i : Nat) (x : Sess) (u w : Nat) : (d.setSess i x).lat u w = d.lat u w := (rfl)
@[simp] theorem Dev.setSess_byte (d : Dev) (i : Nat) (x : Sess) (u : Nat) : (d.setSess i x).byte u = d.byte u := (rfl)
@[simp] theorem Dev.setSess_dget (d : Dev) (i : Nat) (x : Sess) (u : Nat) : (d.setSess i x).dget u = d.dget u := (rfl)
@[simp] theorem Dev.setSess_freeVal (d : Dev) (i : Nat) (x : Sess) : (d.setSess i x).freeVal = d.freeVal := (rfl)
@[simp] theorem Dev.setSess_routeOf (d : Dev) (i : Nat) (x : Sess) (u : Nat) : (d.setSess i x).routeOf u = d.routeOf u := (rfl)
@[simp] theorem Dev.setSess_mode (d : Dev) (i : Nat) (x : Sess) : (d.setSess i x).mode = d.mode := (rfl)
@[simp] theorem Dev.setSess_ticking (d : Dev) (i : Nat) (x : Sess) : (d.setSess i x).ticking = d.ticking := (rfl)
@[simp] theorem Dev.setSess_inRun (d : Dev) (i : Nat) (x : Sess) (u : Nat) : (d.setSess i x).inRun u = d.inRun u := (rfl)
@[simp] theorem Dev.setCred_timer (d : Dev) (i : Nat) (x : Cred) (u w : Nat) : (d.setCred i x).timer u w = d.timer u w := (rfl)
@[simp] theorem Dev.setCred_pair (d : Dev) (i : Nat) (x : Cred) (u w : Nat) : (d.setCred i x).pair u w = d.pair u w := (rfl)
@[simp] theorem Dev.setCred_line (d : Dev) (i : Nat) (x : Cred) (u w : Nat) : (d.setCred i x).line u w = d.line u w := (rfl)
@[simp] theorem Dev.setCred_chan (d : Dev) (i : Nat) (x : Cred) (u w : Nat) : (d.setCred i x).chan u w = d.chan u w := (rfl)
@[simp] theorem Dev.setCred_sset (d : Dev) (i : Nat) (x : Cred) (u : Nat) : (d.setCred i x).sset u = d.sset u := (rfl)
@[simp] theorem Dev.setCred_sdm (d : Dev) (i : Nat) (x : Cred) (u w : Nat) : (d.setCred i x).sdm u w = d.sdm u w := (rfl)
@[simp] theorem Dev.setCred_sdclk (d : Dev) (i : Nat) (x : Cred) (u w : Nat) : (d.setCred i x).sdclk u w = d.sdclk u w := (rfl)
@[simp] theorem Dev.setCred_rod (d : Dev) (i : Nat) (x : Cred) (u : Nat) : (d.setCred i x).rod u = d.rod u := (rfl)
@[simp] theorem Dev.setCred_frame (d : Dev) (i : Nat) (x : Cred) (u : Nat) : (d.setCred i x).frame u = d.frame u := (rfl)
@[simp] theorem Dev.setCred_trace (d : Dev) (i : Nat) (x : Cred) (u : Nat) : (d.setCred i x).trace u = d.trace u := (rfl)
@[simp] theorem Dev.setCred_fbk (d : Dev) (i : Nat) (x : Cred) (u w : Nat) : (d.setCred i x).fbk u w = d.fbk u w := (rfl)
@[simp] theorem Dev.setCred_bead (d : Dev) (i : Nat) (x : Cred) (u w : Nat) : (d.setCred i x).bead u w = d.bead u w := (rfl)
@[simp] theorem Dev.setCred_cell (d : Dev) (i : Nat) (x : Cred) (u w : Nat) : (d.setCred i x).cell u w = d.cell u w := (rfl)
@[simp] theorem Dev.setCred_clasp (d : Dev) (i : Nat) (x : Cred) (u : Nat) : (d.setCred i x).clasp u = d.clasp u := (rfl)
@[simp] theorem Dev.setCred_core (d : Dev) (i : Nat) (x : Cred) (u : Nat) : (d.setCred i x).core u = d.core u := (rfl)
@[simp] theorem Dev.setCred_ring (d : Dev) (i : Nat) (x : Cred) (u : Nat) : (d.setCred i x).ring u = d.ring u := (rfl)
@[simp] theorem Dev.setCred_dmach (d : Dev) (i : Nat) (x : Cred) (u w : Nat) : (d.setCred i x).dmach u w = d.dmach u w := (rfl)
@[simp] theorem Dev.setCred_canc (d : Dev) (i : Nat) (x : Cred) (u : Nat) : (d.setCred i x).canc u = d.canc u := (rfl)
@[simp] theorem Dev.setCred_lrec (d : Dev) (i : Nat) (x : Cred) (u : Nat) : (d.setCred i x).lrec u = d.lrec u := (rfl)
@[simp] theorem Dev.setCred_lat (d : Dev) (i : Nat) (x : Cred) (u w : Nat) : (d.setCred i x).lat u w = d.lat u w := (rfl)
@[simp] theorem Dev.setCred_byte (d : Dev) (i : Nat) (x : Cred) (u : Nat) : (d.setCred i x).byte u = d.byte u := (rfl)
@[simp] theorem Dev.setCred_dget (d : Dev) (i : Nat) (x : Cred) (u : Nat) : (d.setCred i x).dget u = d.dget u := (rfl)
@[simp] theorem Dev.setCred_freeVal (d : Dev) (i : Nat) (x : Cred) : (d.setCred i x).freeVal = d.freeVal := (rfl)
@[simp] theorem Dev.setCred_routeOf (d : Dev) (i : Nat) (x : Cred) (u : Nat) : (d.setCred i x).routeOf u = d.routeOf u := (rfl)
@[simp] theorem Dev.setCred_mode (d : Dev) (i : Nat) (x : Cred) : (d.setCred i x).mode = d.mode := (rfl)
@[simp] theorem Dev.setCred_ticking (d : Dev) (i : Nat) (x : Cred) : (d.setCred i x).ticking = d.ticking := (rfl)
@[simp] theorem Dev.setCred_inRun (d : Dev) (i : Nat) (x : Cred) (u : Nat) : (d.setCred i x).inRun u = d.inRun u := (rfl)
@[simp] theorem Dev.setImg_timer (d : Dev) (i : Nat) (x : Img) (u w : Nat) : (d.setImg i x).timer u w = d.timer u w := (rfl)
@[simp] theorem Dev.setImg_pair (d : Dev) (i : Nat) (x : Img) (u w : Nat) : (d.setImg i x).pair u w = d.pair u w := (rfl)
@[simp] theorem Dev.setImg_line (d : Dev) (i : Nat) (x : Img) (u w : Nat) : (d.setImg i x).line u w = d.line u w := (rfl)
@[simp] theorem Dev.setImg_chan (d : Dev) (i : Nat) (x : Img) (u w : Nat) : (d.setImg i x).chan u w = d.chan u w := (rfl)
@[simp] theorem Dev.setImg_sset (d : Dev) (i : Nat) (x : Img) (u : Nat) : (d.setImg i x).sset u = d.sset u := (rfl)
@[simp] theorem Dev.setImg_sdm (d : Dev) (i : Nat) (x : Img) (u w : Nat) : (d.setImg i x).sdm u w = d.sdm u w := (rfl)
@[simp] theorem Dev.setImg_sdclk (d : Dev) (i : Nat) (x : Img) (u w : Nat) : (d.setImg i x).sdclk u w = d.sdclk u w := (rfl)
@[simp] theorem Dev.setImg_rod (d : Dev) (i : Nat) (x : Img) (u : Nat) : (d.setImg i x).rod u = d.rod u := (rfl)
@[simp] theorem Dev.setImg_frame (d : Dev) (i : Nat) (x : Img) (u : Nat) : (d.setImg i x).frame u = d.frame u := (rfl)
@[simp] theorem Dev.setImg_trace (d : Dev) (i : Nat) (x : Img) (u : Nat) : (d.setImg i x).trace u = d.trace u := (rfl)
@[simp] theorem Dev.setImg_fbk (d : Dev) (i : Nat) (x : Img) (u w : Nat) : (d.setImg i x).fbk u w = d.fbk u w := (rfl)
@[simp] theorem Dev.setImg_bead (d : Dev) (i : Nat) (x : Img) (u w : Nat) : (d.setImg i x).bead u w = d.bead u w := (rfl)
@[simp] theorem Dev.setImg_cell (d : Dev) (i : Nat) (x : Img) (u w : Nat) : (d.setImg i x).cell u w = d.cell u w := (rfl)
@[simp] theorem Dev.setImg_clasp (d : Dev) (i : Nat) (x : Img) (u : Nat) : (d.setImg i x).clasp u = d.clasp u := (rfl)
@[simp] theorem Dev.setImg_core (d : Dev) (i : Nat) (x : Img) (u : Nat) : (d.setImg i x).core u = d.core u := (rfl)
@[simp] theorem Dev.setImg_ring (d : Dev) (i : Nat) (x : Img) (u : Nat) : (d.setImg i x).ring u = d.ring u := (rfl)
@[simp] theorem Dev.setImg_dmach (d : Dev) (i : Nat) (x : Img) (u w : Nat) : (d.setImg i x).dmach u w = d.dmach u w := (rfl)
@[simp] theorem Dev.setImg_canc (d : Dev) (i : Nat) (x : Img) (u : Nat) : (d.setImg i x).canc u = d.canc u := (rfl)
@[simp] theorem Dev.setImg_lrec (d : Dev) (i : Nat) (x : Img) (u : Nat) : (d.setImg i x).lrec u = d.lrec u := (rfl)
@[simp] theorem Dev.setImg_lat (d : Dev) (i : Nat) (x : Img) (u w : Nat) : (d.setImg i x).lat u w = d.lat u w := (rfl)
@[simp] theorem Dev.setImg_byte (d : Dev) (i : Nat) (x : Img) (u : Nat) : (d.setImg i x).byte u = d.byte u := (rfl)
@[simp] theorem Dev.setImg_dget (d : Dev) (i : Nat) (x : Img) (u : Nat) : (d.setImg i x).dget u = d.dget u := (rfl)
@[simp] theorem Dev.setImg_freeVal (d : Dev) (i : Nat) (x : Img) : (d.setImg i x).freeVal = d.freeVal := (rfl)
@[simp] theorem Dev.setImg_routeOf (d : Dev) (i : Nat) (x : Img) (u : Nat) : (d.setImg i x).routeOf u = d.routeOf u := (rfl)
@[simp] theorem Dev.setImg_mode (d : Dev) (i : Nat) (x : Img) : (d.setImg i x).mode = d.mode := (rfl)
@[simp] theorem Dev.setImg_ticking (d : Dev) (i : Nat) (x : Img) : (d.setImg i x).ticking = d.ticking := (rfl)
@[simp] theorem Dev.setImg_inRun (d : Dev) (i : Nat) (x : Img) (u : Nat) : (d.setImg i x).inRun u = d.inRun u := (rfl)
@[simp] theorem Dev.setLrec_timer (d : Dev) (r : Nat) (x : LRec) (u w : Nat) : (d.setLrec r x).timer u w = d.timer u w := (rfl)
@[simp] theorem Dev.setLrec_pair (d : Dev) (r : Nat) (x : LRec) (u w : Nat) : (d.setLrec r x).pair u w = d.pair u w := (rfl)
@[simp] theorem Dev.setLrec_line (d : Dev) (r : Nat) (x : LRec) (u w : Nat) : (d.setLrec r x).line u w = d.line u w := (rfl)
@[simp] theorem Dev.setLrec_chan (d : Dev) (r : Nat) (x : LRec) (u w : Nat) : (d.setLrec r x).chan u w = d.chan u w := (rfl)
@[simp] theorem Dev.setLrec_sset (d : Dev) (r : Nat) (x : LRec) (u : Nat) : (d.setLrec r x).sset u = d.sset u := (rfl)
@[simp] theorem Dev.setLrec_sdm (d : Dev) (r : Nat) (x : LRec) (u w : Nat) : (d.setLrec r x).sdm u w = d.sdm u w := (rfl)
@[simp] theorem Dev.setLrec_sdclk (d : Dev) (r : Nat) (x : LRec) (u w : Nat) : (d.setLrec r x).sdclk u w = d.sdclk u w := (rfl)
@[simp] theorem Dev.setLrec_rod (d : Dev) (r : Nat) (x : LRec) (u : Nat) : (d.setLrec r x).rod u = d.rod u := (rfl)
@[simp] theorem Dev.setLrec_frame (d : Dev) (r : Nat) (x : LRec) (u : Nat) : (d.setLrec r x).frame u = d.frame u := (rfl)
@[simp] theorem Dev.setLrec_trace (d : Dev) (r : Nat) (x : LRec) (u : Nat) : (d.setLrec r x).trace u = d.trace u := (rfl)
@[simp] theorem Dev.setLrec_fbk (d : Dev) (r : Nat) (x : LRec) (u w : Nat) : (d.setLrec r x).fbk u w = d.fbk u w := (rfl)
@[simp] theorem Dev.setLrec_bead (d : Dev) (r : Nat) (x : LRec) (u w : Nat) : (d.setLrec r x).bead u w = d.bead u w := (rfl)
@[simp] theorem Dev.setLrec_cell (d : Dev) (r : Nat) (x : LRec) (u w : Nat) : (d.setLrec r x).cell u w = d.cell u w := (rfl)
@[simp] theorem Dev.setLrec_clasp (d : Dev) (r : Nat) (x : LRec) (u : Nat) : (d.setLrec r x).clasp u = d.clasp u := (rfl)
@[simp] theorem Dev.setLrec_core (d : Dev) (r : Nat) (x : LRec) (u : Nat) : (d.setLrec r x).core u = d.core u := (rfl)
@[simp] theorem Dev.setLrec_ring (d : Dev) (r : Nat) (x : LRec) (u : Nat) : (d.setLrec r x).ring u = d.ring u := (rfl)
@[simp] theorem Dev.setLrec_dmach (d : Dev) (r : Nat) (x : LRec) (u w : Nat) : (d.setLrec r x).dmach u w = d.dmach u w := (rfl)
@[simp] theorem Dev.setLrec_canc (d : Dev) (r : Nat) (x : LRec) (u : Nat) : (d.setLrec r x).canc u = d.canc u := (rfl)
@[simp] theorem Dev.setLrec_sess (d : Dev) (r : Nat) (x : LRec) (u : Nat) : (d.setLrec r x).sess u = d.sess u := (rfl)
@[simp] theorem Dev.setLrec_cred (d : Dev) (r : Nat) (x : LRec) (u : Nat) : (d.setLrec r x).cred u = d.cred u := (rfl)
@[simp] theorem Dev.setLrec_img (d : Dev) (r : Nat) (x : LRec) (u : Nat) : (d.setLrec r x).img u = d.img u := (rfl)
@[simp] theorem Dev.setLrec_lat (d : Dev) (r : Nat) (x : LRec) (u w : Nat) : (d.setLrec r x).lat u w = d.lat u w := (rfl)
@[simp] theorem Dev.setLrec_byte (d : Dev) (r : Nat) (x : LRec) (u : Nat) : (d.setLrec r x).byte u = d.byte u := (rfl)
@[simp] theorem Dev.setLrec_dget (d : Dev) (r : Nat) (x : LRec) (u : Nat) : (d.setLrec r x).dget u = d.dget u := (rfl)
@[simp] theorem Dev.setLrec_freeVal (d : Dev) (r : Nat) (x : LRec) : (d.setLrec r x).freeVal = d.freeVal := (rfl)
@[simp] theorem Dev.setLrec_routeOf (d : Dev) (r : Nat) (x : LRec) (u : Nat) : (d.setLrec r x).routeOf u = d.routeOf u := (rfl)
@[simp] theorem Dev.setLrec_mode (d : Dev) (r : Nat) (x : LRec) : (d.setLrec r x).mode = d.mode := (rfl)
@[simp] theorem Dev.setLrec_ticking (d : Dev) (r : Nat) (x : LRec) : (d.setLrec r x).ticking = d.ticking := (rfl)
@[simp] theorem Dev.setLrec_inRun (d : Dev) (r : Nat) (x : LRec) (u : Nat) : (d.setLrec r x).inRun u = d.inRun u := (rfl)
@[simp] theorem Dev.setLat_timer (d : Dev) (k q v : Nat) (u w : Nat) : (d.setLat k q v).timer u w = d.timer u w := (rfl)
@[simp] theorem Dev.setLat_pair (d : Dev) (k q v : Nat) (u w : Nat) : (d.setLat k q v).pair u w = d.pair u w := (rfl)
@[simp] theorem Dev.setLat_line (d : Dev) (k q v : Nat) (u w : Nat) : (d.setLat k q v).line u w = d.line u w := (rfl)
@[simp] theorem Dev.setLat_chan (d : Dev) (k q v : Nat) (u w : Nat) : (d.setLat k q v).chan u w = d.chan u w := (rfl)
@[simp] theorem Dev.setLat_sset (d : Dev) (k q v : Nat) (u : Nat) : (d.setLat k q v).sset u = d.sset u := (rfl)
@[simp] theorem Dev.setLat_sdm (d : Dev) (k q v : Nat) (u w : Nat) : (d.setLat k q v).sdm u w = d.sdm u w := (rfl)
@[simp] theorem Dev.setLat_sdclk (d : Dev) (k q v : Nat) (u w : Nat) : (d.setLat k q v).sdclk u w = d.sdclk u w := (rfl)
@[simp] theorem Dev.setLat_rod (d : Dev) (k q v : Nat) (u : Nat) : (d.setLat k q v).rod u = d.rod u := (rfl)
@[simp] theorem Dev.setLat_frame (d : Dev) (k q v : Nat) (u : Nat) : (d.setLat k q v).frame u = d.frame u := (rfl)
@[simp] theorem Dev.setLat_trace (d : Dev) (k q v : Nat) (u : Nat) : (d.setLat k q v).trace u = d.trace u := (rfl)
@[simp] theorem Dev.setLat_fbk (d : Dev) (k q v : Nat) (u w : Nat) : (d.setLat k q v).fbk u w = d.fbk u w := (rfl)
@[simp] theorem Dev.setLat_bead (d : Dev) (k q v : Nat) (u w : Nat) : (d.setLat k q v).bead u w = d.bead u w := (rfl)
@[simp] theorem Dev.setLat_cell (d : Dev) (k q v : Nat) (u w : Nat) : (d.setLat k q v).cell u w = d.cell u w := (rfl)
@[simp] theorem Dev.setLat_clasp (d : Dev) (k q v : Nat) (u : Nat) : (d.setLat k q v).clasp u = d.clasp u := (rfl)
@[simp] theorem Dev.setLat_core (d : Dev) (k q v : Nat) (u : Nat) : (d.setLat k q v).core u = d.core u := (rfl)
@[simp] theorem Dev.setLat_ring (d : Dev) (k q v : Nat) (u : Nat) : (d.setLat k q v).ring u = d.ring u := (rfl)
@[simp] theorem Dev.setLat_dmach (d : Dev) (k q v : Nat) (u w : Nat) : (d.setLat k q v).dmach u w = d.dmach u w := (rfl)
@[simp] theorem Dev.setLat_canc (d : Dev) (k q v : Nat) (u : Nat) : (d.setLat k q v).canc u = d.canc u := (rfl)
@[simp] theorem Dev.setLat_sess (d : Dev) (k q v : Nat) (u : Nat) : (d.setLat k q v).sess u = d.sess u := (rfl)
@[simp] theorem Dev.setLat_cred (d : Dev) (k q v : Nat) (u : Nat) : (d.setLat k q v).cred u = d.cred u := (rfl)
@[simp] theorem Dev.setLat_img (d : Dev) (k q v : Nat) (u : Nat) : (d.setLat k q v).img u = d.img u := (rfl)
@[simp] theorem Dev.setLat_lrec (d : Dev) (k q v : Nat) (u : Nat) : (d.setLat k q v).lrec u = d.lrec u := (rfl)
@[simp] theorem Dev.setLat_byte (d : Dev) (k q v : Nat) (u : Nat) : (d.setLat k q v).byte u = d.byte u := (rfl)
@[simp] theorem Dev.setLat_dget (d : Dev) (k q v : Nat) (u : Nat) : (d.setLat k q v).dget u = d.dget u := (rfl)
@[simp] theorem Dev.setLat_freeVal (d : Dev) (k q v : Nat) : (d.setLat k q v).freeVal = d.freeVal := (rfl)
@[simp] theorem Dev.setLat_routeOf (d : Dev) (k q v : Nat) (u : Nat) : (d.setLat k q v).routeOf u = d.routeOf u := (rfl)
@[simp] theorem Dev.setLat_mode (d : Dev) (k q v : Nat) : (d.setLat k q v).mode = d.mode := (rfl)
@[simp] theorem Dev.setLat_ticking (d : Dev) (k q v : Nat) : (d.setLat k q v).ticking = d.ticking := (rfl)
@[simp] theorem Dev.setLat_inRun (d : Dev) (k q v : Nat) (u : Nat) : (d.setLat k q v).inRun u = d.inRun u := (rfl)
@[simp] theorem Dev.freeNext_timer (d : Dev) (u w : Nat) : (d.freeNext).timer u w = d.timer u w := (rfl)
@[simp] theorem Dev.freeNext_pair (d : Dev) (u w : Nat) : (d.freeNext).pair u w = d.pair u w := (rfl)
@[simp] theorem Dev.freeNext_line (d : Dev) (u w : Nat) : (d.freeNext).line u w = d.line u w := (rfl)
@[simp] theorem Dev.freeNext_chan (d : Dev) (u w : Nat) : (d.freeNext).chan u w = d.chan u w := (rfl)
@[simp] theorem Dev.freeNext_sset (d : Dev) (u : Nat) : (d.freeNext).sset u = d.sset u := (rfl)
@[simp] theorem Dev.freeNext_sdm (d : Dev) (u w : Nat) : (d.freeNext).sdm u w = d.sdm u w := (rfl)
@[simp] theorem Dev.freeNext_sdclk (d : Dev) (u w : Nat) : (d.freeNext).sdclk u w = d.sdclk u w := (rfl)
@[simp] theorem Dev.freeNext_rod (d : Dev) (u : Nat) : (d.freeNext).rod u = d.rod u := (rfl)
@[simp] theorem Dev.freeNext_frame (d : Dev) (u : Nat) : (d.freeNext).frame u = d.frame u := (rfl)
@[simp] theorem Dev.freeNext_trace (d : Dev) (u : Nat) : (d.freeNext).trace u = d.trace u := (rfl)
@[simp] theorem Dev.freeNext_fbk (d : Dev) (u w : Nat) : (d.freeNext).fbk u w = d.fbk u w := (rfl)
@[simp] theorem Dev.freeNext_bead (d : Dev) (u w : Nat) : (d.freeNext).bead u w = d.bead u w := (rfl)
@[simp] theorem Dev.freeNext_cell (d : Dev) (u w : Nat) : (d.freeNext).cell u w = d.cell u w := (rfl)
@[simp] theorem Dev.freeNext_clasp (d : Dev) (u : Nat) : (d.freeNext).clasp u = d.clasp u := (rfl)
@[simp] theorem Dev.freeNext_core (d : Dev) (u : Nat) : (d.freeNext).core u = d.core u := (rfl)
@[simp] theorem Dev.freeNext_ring (d : Dev) (u : Nat) : (d.freeNext).ring u = d.ring u := (rfl)
@[simp] theorem Dev.freeNext_dmach (d : Dev) (u w : Nat) : (d.freeNext).dmach u w = d.dmach u w := (rfl)
@[simp] theorem Dev.freeNext_canc (d : Dev) (u : Nat) : (d.freeNext).canc u = d.canc u := (rfl)
@[simp] theorem Dev.freeNext_sess (d : Dev) (u : Nat) : (d.freeNext).sess u = d.sess u := (rfl)
@[simp] theorem Dev.freeNext_cred (d : Dev) (u : Nat) : (d.freeNext).cred u = d.cred u := (rfl)
@[simp] theorem Dev.freeNext_img (d : Dev) (u : Nat) : (d.freeNext).img u = d.img u := (rfl)
@[simp] theorem Dev.freeNext_lrec (d : Dev) (u : Nat) : (d.freeNext).lrec u = d.lrec u := (rfl)
@[simp] theorem Dev.freeNext_lat (d : Dev) (u w : Nat) : (d.freeNext).lat u w = d.lat u w := (rfl)
@[simp] theorem Dev.freeNext_byte (d : Dev) (u : Nat) : (d.freeNext).byte u = d.byte u := (rfl)
@[simp] theorem Dev.freeNext_dget (d : Dev) (u : Nat) : (d.freeNext).dget u = d.dget u := (rfl)
@[simp] theorem Dev.freeNext_routeOf (d : Dev) (u : Nat) : (d.freeNext).routeOf u = d.routeOf u := (rfl)
@[simp] theorem Dev.freeNext_mode (d : Dev) : (d.freeNext).mode = d.mode := (rfl)
@[simp] theorem Dev.freeNext_ticking (d : Dev) : (d.freeNext).ticking = d.ticking := (rfl)
@[simp] theorem Dev.freeNext_inRun (d : Dev) (u : Nat) : (d.freeNext).inRun u = d.inRun u := (rfl)
@[simp] theorem Dev.resp_timer (d : Dev) (q : Nat) (v : Word) (e : BErr) (u w : Nat) : (d.resp q v e).timer u w = d.timer u w := (rfl)
@[simp] theorem Dev.resp_pair (d : Dev) (q : Nat) (v : Word) (e : BErr) (u w : Nat) : (d.resp q v e).pair u w = d.pair u w := (rfl)
@[simp] theorem Dev.resp_line (d : Dev) (q : Nat) (v : Word) (e : BErr) (u w : Nat) : (d.resp q v e).line u w = d.line u w := (rfl)
@[simp] theorem Dev.resp_chan (d : Dev) (q : Nat) (v : Word) (e : BErr) (u w : Nat) : (d.resp q v e).chan u w = d.chan u w := (rfl)
@[simp] theorem Dev.resp_sset (d : Dev) (q : Nat) (v : Word) (e : BErr) (u : Nat) : (d.resp q v e).sset u = d.sset u := (rfl)
@[simp] theorem Dev.resp_sdm (d : Dev) (q : Nat) (v : Word) (e : BErr) (u w : Nat) : (d.resp q v e).sdm u w = d.sdm u w := (rfl)
@[simp] theorem Dev.resp_sdclk (d : Dev) (q : Nat) (v : Word) (e : BErr) (u w : Nat) : (d.resp q v e).sdclk u w = d.sdclk u w := (rfl)
@[simp] theorem Dev.resp_rod (d : Dev) (q : Nat) (v : Word) (e : BErr) (u : Nat) : (d.resp q v e).rod u = d.rod u := (rfl)
@[simp] theorem Dev.resp_frame (d : Dev) (q : Nat) (v : Word) (e : BErr) (u : Nat) : (d.resp q v e).frame u = d.frame u := (rfl)
@[simp] theorem Dev.resp_trace (d : Dev) (q : Nat) (v : Word) (e : BErr) (u : Nat) : (d.resp q v e).trace u = d.trace u := (rfl)
@[simp] theorem Dev.resp_fbk (d : Dev) (q : Nat) (v : Word) (e : BErr) (u w : Nat) : (d.resp q v e).fbk u w = d.fbk u w := (rfl)
@[simp] theorem Dev.resp_bead (d : Dev) (q : Nat) (v : Word) (e : BErr) (u w : Nat) : (d.resp q v e).bead u w = d.bead u w := (rfl)
@[simp] theorem Dev.resp_cell (d : Dev) (q : Nat) (v : Word) (e : BErr) (u w : Nat) : (d.resp q v e).cell u w = d.cell u w := (rfl)
@[simp] theorem Dev.resp_clasp (d : Dev) (q : Nat) (v : Word) (e : BErr) (u : Nat) : (d.resp q v e).clasp u = d.clasp u := (rfl)
@[simp] theorem Dev.resp_core (d : Dev) (q : Nat) (v : Word) (e : BErr) (u : Nat) : (d.resp q v e).core u = d.core u := (rfl)
@[simp] theorem Dev.resp_ring (d : Dev) (q : Nat) (v : Word) (e : BErr) (u : Nat) : (d.resp q v e).ring u = d.ring u := (rfl)
@[simp] theorem Dev.resp_dmach (d : Dev) (q : Nat) (v : Word) (e : BErr) (u w : Nat) : (d.resp q v e).dmach u w = d.dmach u w := (rfl)
@[simp] theorem Dev.resp_canc (d : Dev) (q : Nat) (v : Word) (e : BErr) (u : Nat) : (d.resp q v e).canc u = d.canc u := (rfl)
@[simp] theorem Dev.resp_sess (d : Dev) (q : Nat) (v : Word) (e : BErr) (u : Nat) : (d.resp q v e).sess u = d.sess u := (rfl)
@[simp] theorem Dev.resp_cred (d : Dev) (q : Nat) (v : Word) (e : BErr) (u : Nat) : (d.resp q v e).cred u = d.cred u := (rfl)
@[simp] theorem Dev.resp_img (d : Dev) (q : Nat) (v : Word) (e : BErr) (u : Nat) : (d.resp q v e).img u = d.img u := (rfl)
@[simp] theorem Dev.resp_lrec (d : Dev) (q : Nat) (v : Word) (e : BErr) (u : Nat) : (d.resp q v e).lrec u = d.lrec u := (rfl)
@[simp] theorem Dev.resp_lat (d : Dev) (q : Nat) (v : Word) (e : BErr) (u w : Nat) : (d.resp q v e).lat u w = d.lat u w := (rfl)
@[simp] theorem Dev.resp_byte (d : Dev) (q : Nat) (v : Word) (e : BErr) (u : Nat) : (d.resp q v e).byte u = d.byte u := (rfl)
@[simp] theorem Dev.resp_dget (d : Dev) (q : Nat) (v : Word) (e : BErr) (u : Nat) : (d.resp q v e).dget u = d.dget u := (rfl)
@[simp] theorem Dev.resp_freeVal (d : Dev) (q : Nat) (v : Word) (e : BErr) : (d.resp q v e).freeVal = d.freeVal := (rfl)
@[simp] theorem Dev.resp_routeOf (d : Dev) (q : Nat) (v : Word) (e : BErr) (u : Nat) : (d.resp q v e).routeOf u = d.routeOf u := (rfl)
@[simp] theorem Dev.resp_mode (d : Dev) (q : Nat) (v : Word) (e : BErr) : (d.resp q v e).mode = d.mode := (rfl)
@[simp] theorem Dev.resp_ticking (d : Dev) (q : Nat) (v : Word) (e : BErr) : (d.resp q v e).ticking = d.ticking := (rfl)
@[simp] theorem Dev.resp_inRun (d : Dev) (q : Nat) (v : Word) (e : BErr) (u : Nat) : (d.resp q v e).inRun u = d.inRun u := (rfl)
@[simp] theorem Dev.putByte_timer (d : Dev) (a : Nat) (v : Byte) (u w : Nat) : (d.putByte a v).timer u w = d.timer u w := (rfl)
@[simp] theorem Dev.putByte_pair (d : Dev) (a : Nat) (v : Byte) (u w : Nat) : (d.putByte a v).pair u w = d.pair u w := (rfl)
@[simp] theorem Dev.putByte_line (d : Dev) (a : Nat) (v : Byte) (u w : Nat) : (d.putByte a v).line u w = d.line u w := (rfl)
@[simp] theorem Dev.putByte_chan (d : Dev) (a : Nat) (v : Byte) (u w : Nat) : (d.putByte a v).chan u w = d.chan u w := (rfl)
@[simp] theorem Dev.putByte_sset (d : Dev) (a : Nat) (v : Byte) (u : Nat) : (d.putByte a v).sset u = d.sset u := (rfl)
@[simp] theorem Dev.putByte_sdm (d : Dev) (a : Nat) (v : Byte) (u w : Nat) : (d.putByte a v).sdm u w = d.sdm u w := (rfl)
@[simp] theorem Dev.putByte_sdclk (d : Dev) (a : Nat) (v : Byte) (u w : Nat) : (d.putByte a v).sdclk u w = d.sdclk u w := (rfl)
@[simp] theorem Dev.putByte_rod (d : Dev) (a : Nat) (v : Byte) (u : Nat) : (d.putByte a v).rod u = d.rod u := (rfl)
@[simp] theorem Dev.putByte_frame (d : Dev) (a : Nat) (v : Byte) (u : Nat) : (d.putByte a v).frame u = d.frame u := (rfl)
@[simp] theorem Dev.putByte_trace (d : Dev) (a : Nat) (v : Byte) (u : Nat) : (d.putByte a v).trace u = d.trace u := (rfl)
@[simp] theorem Dev.putByte_fbk (d : Dev) (a : Nat) (v : Byte) (u w : Nat) : (d.putByte a v).fbk u w = d.fbk u w := (rfl)
@[simp] theorem Dev.putByte_bead (d : Dev) (a : Nat) (v : Byte) (u w : Nat) : (d.putByte a v).bead u w = d.bead u w := (rfl)
@[simp] theorem Dev.putByte_cell (d : Dev) (a : Nat) (v : Byte) (u w : Nat) : (d.putByte a v).cell u w = d.cell u w := (rfl)
@[simp] theorem Dev.putByte_clasp (d : Dev) (a : Nat) (v : Byte) (u : Nat) : (d.putByte a v).clasp u = d.clasp u := (rfl)
@[simp] theorem Dev.putByte_core (d : Dev) (a : Nat) (v : Byte) (u : Nat) : (d.putByte a v).core u = d.core u := (rfl)
@[simp] theorem Dev.putByte_ring (d : Dev) (a : Nat) (v : Byte) (u : Nat) : (d.putByte a v).ring u = d.ring u := (rfl)
@[simp] theorem Dev.putByte_dmach (d : Dev) (a : Nat) (v : Byte) (u w : Nat) : (d.putByte a v).dmach u w = d.dmach u w := (rfl)
@[simp] theorem Dev.putByte_canc (d : Dev) (a : Nat) (v : Byte) (u : Nat) : (d.putByte a v).canc u = d.canc u := (rfl)
@[simp] theorem Dev.putByte_sess (d : Dev) (a : Nat) (v : Byte) (u : Nat) : (d.putByte a v).sess u = d.sess u := (rfl)
@[simp] theorem Dev.putByte_cred (d : Dev) (a : Nat) (v : Byte) (u : Nat) : (d.putByte a v).cred u = d.cred u := (rfl)
@[simp] theorem Dev.putByte_img (d : Dev) (a : Nat) (v : Byte) (u : Nat) : (d.putByte a v).img u = d.img u := (rfl)
@[simp] theorem Dev.putByte_lrec (d : Dev) (a : Nat) (v : Byte) (u : Nat) : (d.putByte a v).lrec u = d.lrec u := (rfl)
@[simp] theorem Dev.putByte_lat (d : Dev) (a : Nat) (v : Byte) (u w : Nat) : (d.putByte a v).lat u w = d.lat u w := (rfl)
@[simp] theorem Dev.putByte_dget (d : Dev) (a : Nat) (v : Byte) (u : Nat) : (d.putByte a v).dget u = d.dget u := (rfl)
@[simp] theorem Dev.putByte_freeVal (d : Dev) (a : Nat) (v : Byte) : (d.putByte a v).freeVal = d.freeVal := (rfl)
@[simp] theorem Dev.putByte_routeOf (d : Dev) (a : Nat) (v : Byte) (u : Nat) : (d.putByte a v).routeOf u = d.routeOf u := (rfl)
@[simp] theorem Dev.putByte_mode (d : Dev) (a : Nat) (v : Byte) : (d.putByte a v).mode = d.mode := (rfl)
@[simp] theorem Dev.putByte_ticking (d : Dev) (a : Nat) (v : Byte) : (d.putByte a v).ticking = d.ticking := (rfl)
@[simp] theorem Dev.putByte_inRun (d : Dev) (a : Nat) (v : Byte) (u : Nat) : (d.putByte a v).inRun u = d.inRun u := (rfl)
@[simp] theorem Dev.clearMem_timer (d : Dev) (lo hi : Nat) (u w : Nat) : (d.clearMem lo hi).timer u w = d.timer u w := (rfl)
@[simp] theorem Dev.clearMem_pair (d : Dev) (lo hi : Nat) (u w : Nat) : (d.clearMem lo hi).pair u w = d.pair u w := (rfl)
@[simp] theorem Dev.clearMem_line (d : Dev) (lo hi : Nat) (u w : Nat) : (d.clearMem lo hi).line u w = d.line u w := (rfl)
@[simp] theorem Dev.clearMem_chan (d : Dev) (lo hi : Nat) (u w : Nat) : (d.clearMem lo hi).chan u w = d.chan u w := (rfl)
@[simp] theorem Dev.clearMem_sset (d : Dev) (lo hi : Nat) (u : Nat) : (d.clearMem lo hi).sset u = d.sset u := (rfl)
@[simp] theorem Dev.clearMem_sdm (d : Dev) (lo hi : Nat) (u w : Nat) : (d.clearMem lo hi).sdm u w = d.sdm u w := (rfl)
@[simp] theorem Dev.clearMem_sdclk (d : Dev) (lo hi : Nat) (u w : Nat) : (d.clearMem lo hi).sdclk u w = d.sdclk u w := (rfl)
@[simp] theorem Dev.clearMem_rod (d : Dev) (lo hi : Nat) (u : Nat) : (d.clearMem lo hi).rod u = d.rod u := (rfl)
@[simp] theorem Dev.clearMem_frame (d : Dev) (lo hi : Nat) (u : Nat) : (d.clearMem lo hi).frame u = d.frame u := (rfl)
@[simp] theorem Dev.clearMem_trace (d : Dev) (lo hi : Nat) (u : Nat) : (d.clearMem lo hi).trace u = d.trace u := (rfl)
@[simp] theorem Dev.clearMem_fbk (d : Dev) (lo hi : Nat) (u w : Nat) : (d.clearMem lo hi).fbk u w = d.fbk u w := (rfl)
@[simp] theorem Dev.clearMem_bead (d : Dev) (lo hi : Nat) (u w : Nat) : (d.clearMem lo hi).bead u w = d.bead u w := (rfl)
@[simp] theorem Dev.clearMem_cell (d : Dev) (lo hi : Nat) (u w : Nat) : (d.clearMem lo hi).cell u w = d.cell u w := (rfl)
@[simp] theorem Dev.clearMem_clasp (d : Dev) (lo hi : Nat) (u : Nat) : (d.clearMem lo hi).clasp u = d.clasp u := (rfl)
@[simp] theorem Dev.clearMem_core (d : Dev) (lo hi : Nat) (u : Nat) : (d.clearMem lo hi).core u = d.core u := (rfl)
@[simp] theorem Dev.clearMem_ring (d : Dev) (lo hi : Nat) (u : Nat) : (d.clearMem lo hi).ring u = d.ring u := (rfl)
@[simp] theorem Dev.clearMem_dmach (d : Dev) (lo hi : Nat) (u w : Nat) : (d.clearMem lo hi).dmach u w = d.dmach u w := (rfl)
@[simp] theorem Dev.clearMem_canc (d : Dev) (lo hi : Nat) (u : Nat) : (d.clearMem lo hi).canc u = d.canc u := (rfl)
@[simp] theorem Dev.clearMem_sess (d : Dev) (lo hi : Nat) (u : Nat) : (d.clearMem lo hi).sess u = d.sess u := (rfl)
@[simp] theorem Dev.clearMem_cred (d : Dev) (lo hi : Nat) (u : Nat) : (d.clearMem lo hi).cred u = d.cred u := (rfl)
@[simp] theorem Dev.clearMem_img (d : Dev) (lo hi : Nat) (u : Nat) : (d.clearMem lo hi).img u = d.img u := (rfl)
@[simp] theorem Dev.clearMem_lrec (d : Dev) (lo hi : Nat) (u : Nat) : (d.clearMem lo hi).lrec u = d.lrec u := (rfl)
@[simp] theorem Dev.clearMem_lat (d : Dev) (lo hi : Nat) (u w : Nat) : (d.clearMem lo hi).lat u w = d.lat u w := (rfl)
@[simp] theorem Dev.clearMem_dget (d : Dev) (lo hi : Nat) (u : Nat) : (d.clearMem lo hi).dget u = d.dget u := (rfl)
@[simp] theorem Dev.clearMem_freeVal (d : Dev) (lo hi : Nat) : (d.clearMem lo hi).freeVal = d.freeVal := (rfl)
@[simp] theorem Dev.clearMem_routeOf (d : Dev) (lo hi : Nat) (u : Nat) : (d.clearMem lo hi).routeOf u = d.routeOf u := (rfl)
@[simp] theorem Dev.clearMem_mode (d : Dev) (lo hi : Nat) : (d.clearMem lo hi).mode = d.mode := (rfl)
@[simp] theorem Dev.clearMem_ticking (d : Dev) (lo hi : Nat) : (d.clearMem lo hi).ticking = d.ticking := (rfl)
@[simp] theorem Dev.clearMem_inRun (d : Dev) (lo hi : Nat) (u : Nat) : (d.clearMem lo hi).inRun u = d.inRun u := (rfl)
@[simp] theorem Dev.pushShadow_timer (d : Dev) (a mask v tick : Nat) (u w : Nat) : (d.pushShadow a mask v tick).timer u w = d.timer u w := (rfl)
@[simp] theorem Dev.pushShadow_pair (d : Dev) (a mask v tick : Nat) (u w : Nat) : (d.pushShadow a mask v tick).pair u w = d.pair u w := (rfl)
@[simp] theorem Dev.pushShadow_line (d : Dev) (a mask v tick : Nat) (u w : Nat) : (d.pushShadow a mask v tick).line u w = d.line u w := (rfl)
@[simp] theorem Dev.pushShadow_chan (d : Dev) (a mask v tick : Nat) (u w : Nat) : (d.pushShadow a mask v tick).chan u w = d.chan u w := (rfl)
@[simp] theorem Dev.pushShadow_sset (d : Dev) (a mask v tick : Nat) (u : Nat) : (d.pushShadow a mask v tick).sset u = d.sset u := (rfl)
@[simp] theorem Dev.pushShadow_sdm (d : Dev) (a mask v tick : Nat) (u w : Nat) : (d.pushShadow a mask v tick).sdm u w = d.sdm u w := (rfl)
@[simp] theorem Dev.pushShadow_sdclk (d : Dev) (a mask v tick : Nat) (u w : Nat) : (d.pushShadow a mask v tick).sdclk u w = d.sdclk u w := (rfl)
@[simp] theorem Dev.pushShadow_rod (d : Dev) (a mask v tick : Nat) (u : Nat) : (d.pushShadow a mask v tick).rod u = d.rod u := (rfl)
@[simp] theorem Dev.pushShadow_frame (d : Dev) (a mask v tick : Nat) (u : Nat) : (d.pushShadow a mask v tick).frame u = d.frame u := (rfl)
@[simp] theorem Dev.pushShadow_trace (d : Dev) (a mask v tick : Nat) (u : Nat) : (d.pushShadow a mask v tick).trace u = d.trace u := (rfl)
@[simp] theorem Dev.pushShadow_fbk (d : Dev) (a mask v tick : Nat) (u w : Nat) : (d.pushShadow a mask v tick).fbk u w = d.fbk u w := (rfl)
@[simp] theorem Dev.pushShadow_bead (d : Dev) (a mask v tick : Nat) (u w : Nat) : (d.pushShadow a mask v tick).bead u w = d.bead u w := (rfl)
@[simp] theorem Dev.pushShadow_cell (d : Dev) (a mask v tick : Nat) (u w : Nat) : (d.pushShadow a mask v tick).cell u w = d.cell u w := (rfl)
@[simp] theorem Dev.pushShadow_clasp (d : Dev) (a mask v tick : Nat) (u : Nat) : (d.pushShadow a mask v tick).clasp u = d.clasp u := (rfl)
@[simp] theorem Dev.pushShadow_core (d : Dev) (a mask v tick : Nat) (u : Nat) : (d.pushShadow a mask v tick).core u = d.core u := (rfl)
@[simp] theorem Dev.pushShadow_ring (d : Dev) (a mask v tick : Nat) (u : Nat) : (d.pushShadow a mask v tick).ring u = d.ring u := (rfl)
@[simp] theorem Dev.pushShadow_dmach (d : Dev) (a mask v tick : Nat) (u w : Nat) : (d.pushShadow a mask v tick).dmach u w = d.dmach u w := (rfl)
@[simp] theorem Dev.pushShadow_canc (d : Dev) (a mask v tick : Nat) (u : Nat) : (d.pushShadow a mask v tick).canc u = d.canc u := (rfl)
@[simp] theorem Dev.pushShadow_sess (d : Dev) (a mask v tick : Nat) (u : Nat) : (d.pushShadow a mask v tick).sess u = d.sess u := (rfl)
@[simp] theorem Dev.pushShadow_cred (d : Dev) (a mask v tick : Nat) (u : Nat) : (d.pushShadow a mask v tick).cred u = d.cred u := (rfl)
@[simp] theorem Dev.pushShadow_img (d : Dev) (a mask v tick : Nat) (u : Nat) : (d.pushShadow a mask v tick).img u = d.img u := (rfl)
@[simp] theorem Dev.pushShadow_lrec (d : Dev) (a mask v tick : Nat) (u : Nat) : (d.pushShadow a mask v tick).lrec u = d.lrec u := (rfl)
@[simp] theorem Dev.pushShadow_lat (d : Dev) (a mask v tick : Nat) (u w : Nat) : (d.pushShadow a mask v tick).lat u w = d.lat u w := (rfl)
@[simp] theorem Dev.pushShadow_byte (d : Dev) (a mask v tick : Nat) (u : Nat) : (d.pushShadow a mask v tick).byte u = d.byte u := (rfl)
@[simp] theorem Dev.pushShadow_dget (d : Dev) (a mask v tick : Nat) (u : Nat) : (d.pushShadow a mask v tick).dget u = d.dget u := (rfl)
@[simp] theorem Dev.pushShadow_freeVal (d : Dev) (a mask v tick : Nat) : (d.pushShadow a mask v tick).freeVal = d.freeVal := (rfl)
@[simp] theorem Dev.pushShadow_routeOf (d : Dev) (a mask v tick : Nat) (u : Nat) : (d.pushShadow a mask v tick).routeOf u = d.routeOf u := (rfl)
@[simp] theorem Dev.pushShadow_mode (d : Dev) (a mask v tick : Nat) : (d.pushShadow a mask v tick).mode = d.mode := (rfl)
@[simp] theorem Dev.pushShadow_ticking (d : Dev) (a mask v tick : Nat) : (d.pushShadow a mask v tick).ticking = d.ticking := (rfl)
@[simp] theorem Dev.pushShadow_inRun (d : Dev) (a mask v tick : Nat) (u : Nat) : (d.pushShadow a mask v tick).inRun u = d.inRun u := (rfl)
@[simp] theorem Dev.dropShadow_timer (d : Dev) (sel : Shadow → Bool) (u w : Nat) : (d.dropShadow sel).timer u w = d.timer u w := (rfl)
@[simp] theorem Dev.dropShadow_pair (d : Dev) (sel : Shadow → Bool) (u w : Nat) : (d.dropShadow sel).pair u w = d.pair u w := (rfl)
@[simp] theorem Dev.dropShadow_line (d : Dev) (sel : Shadow → Bool) (u w : Nat) : (d.dropShadow sel).line u w = d.line u w := (rfl)
@[simp] theorem Dev.dropShadow_chan (d : Dev) (sel : Shadow → Bool) (u w : Nat) : (d.dropShadow sel).chan u w = d.chan u w := (rfl)
@[simp] theorem Dev.dropShadow_sset (d : Dev) (sel : Shadow → Bool) (u : Nat) : (d.dropShadow sel).sset u = d.sset u := (rfl)
@[simp] theorem Dev.dropShadow_sdm (d : Dev) (sel : Shadow → Bool) (u w : Nat) : (d.dropShadow sel).sdm u w = d.sdm u w := (rfl)
@[simp] theorem Dev.dropShadow_sdclk (d : Dev) (sel : Shadow → Bool) (u w : Nat) : (d.dropShadow sel).sdclk u w = d.sdclk u w := (rfl)
@[simp] theorem Dev.dropShadow_rod (d : Dev) (sel : Shadow → Bool) (u : Nat) : (d.dropShadow sel).rod u = d.rod u := (rfl)
@[simp] theorem Dev.dropShadow_frame (d : Dev) (sel : Shadow → Bool) (u : Nat) : (d.dropShadow sel).frame u = d.frame u := (rfl)
@[simp] theorem Dev.dropShadow_trace (d : Dev) (sel : Shadow → Bool) (u : Nat) : (d.dropShadow sel).trace u = d.trace u := (rfl)
@[simp] theorem Dev.dropShadow_fbk (d : Dev) (sel : Shadow → Bool) (u w : Nat) : (d.dropShadow sel).fbk u w = d.fbk u w := (rfl)
@[simp] theorem Dev.dropShadow_bead (d : Dev) (sel : Shadow → Bool) (u w : Nat) : (d.dropShadow sel).bead u w = d.bead u w := (rfl)
@[simp] theorem Dev.dropShadow_cell (d : Dev) (sel : Shadow → Bool) (u w : Nat) : (d.dropShadow sel).cell u w = d.cell u w := (rfl)
@[simp] theorem Dev.dropShadow_clasp (d : Dev) (sel : Shadow → Bool) (u : Nat) : (d.dropShadow sel).clasp u = d.clasp u := (rfl)
@[simp] theorem Dev.dropShadow_core (d : Dev) (sel : Shadow → Bool) (u : Nat) : (d.dropShadow sel).core u = d.core u := (rfl)
@[simp] theorem Dev.dropShadow_ring (d : Dev) (sel : Shadow → Bool) (u : Nat) : (d.dropShadow sel).ring u = d.ring u := (rfl)
@[simp] theorem Dev.dropShadow_dmach (d : Dev) (sel : Shadow → Bool) (u w : Nat) : (d.dropShadow sel).dmach u w = d.dmach u w := (rfl)
@[simp] theorem Dev.dropShadow_canc (d : Dev) (sel : Shadow → Bool) (u : Nat) : (d.dropShadow sel).canc u = d.canc u := (rfl)
@[simp] theorem Dev.dropShadow_sess (d : Dev) (sel : Shadow → Bool) (u : Nat) : (d.dropShadow sel).sess u = d.sess u := (rfl)
@[simp] theorem Dev.dropShadow_cred (d : Dev) (sel : Shadow → Bool) (u : Nat) : (d.dropShadow sel).cred u = d.cred u := (rfl)
@[simp] theorem Dev.dropShadow_img (d : Dev) (sel : Shadow → Bool) (u : Nat) : (d.dropShadow sel).img u = d.img u := (rfl)
@[simp] theorem Dev.dropShadow_lrec (d : Dev) (sel : Shadow → Bool) (u : Nat) : (d.dropShadow sel).lrec u = d.lrec u := (rfl)
@[simp] theorem Dev.dropShadow_lat (d : Dev) (sel : Shadow → Bool) (u w : Nat) : (d.dropShadow sel).lat u w = d.lat u w := (rfl)
@[simp] theorem Dev.dropShadow_byte (d : Dev) (sel : Shadow → Bool) (u : Nat) : (d.dropShadow sel).byte u = d.byte u := (rfl)
@[simp] theorem Dev.dropShadow_dget (d : Dev) (sel : Shadow → Bool) (u : Nat) : (d.dropShadow sel).dget u = d.dget u := (rfl)
@[simp] theorem Dev.dropShadow_freeVal (d : Dev) (sel : Shadow → Bool) : (d.dropShadow sel).freeVal = d.freeVal := (rfl)
@[simp] theorem Dev.dropShadow_routeOf (d : Dev) (sel : Shadow → Bool) (u : Nat) : (d.dropShadow sel).routeOf u = d.routeOf u := (rfl)
@[simp] theorem Dev.dropShadow_mode (d : Dev) (sel : Shadow → Bool) : (d.dropShadow sel).mode = d.mode := (rfl)
@[simp] theorem Dev.dropShadow_ticking (d : Dev) (sel : Shadow → Bool) : (d.dropShadow sel).ticking = d.ticking := (rfl)
@[simp] theorem Dev.dropShadow_inRun (d : Dev) (sel : Shadow → Bool) (u : Nat) : (d.dropShadow sel).inRun u = d.inRun u := (rfl)
@[simp] theorem Dev.at_timer (d : Dev) (t : Nat) (c : Instr) (u w : Nat) : (d.at_ t c).timer u w = d.timer u w := (rfl)
@[simp] theorem Dev.at_pair (d : Dev) (t : Nat) (c : Instr) (u w : Nat) : (d.at_ t c).pair u w = d.pair u w := (rfl)
@[simp] theorem Dev.at_line (d : Dev) (t : Nat) (c : Instr) (u w : Nat) : (d.at_ t c).line u w = d.line u w := (rfl)
@[simp] theorem Dev.at_chan (d : Dev) (t : Nat) (c : Instr) (u w : Nat) : (d.at_ t c).chan u w = d.chan u w := (rfl)
@[simp] theorem Dev.at_sset (d : Dev) (t : Nat) (c : Instr) (u : Nat) : (d.at_ t c).sset u = d.sset u := (rfl)
@[simp] theorem Dev.at_sdm (d : Dev) (t : Nat) (c : Instr) (u w : Nat) : (d.at_ t c).sdm u w = d.sdm u w := (rfl)
@[simp] theorem Dev.at_sdclk (d : Dev) (t : Nat) (c : Instr) (u w : Nat) : (d.at_ t c).sdclk u w = d.sdclk u w := (rfl)
@[simp] theorem Dev.at_rod (d : Dev) (t : Nat) (c : Instr) (u : Nat) : (d.at_ t c).rod u = d.rod u := (rfl)
@[simp] theorem Dev.at_frame (d : Dev) (t : Nat) (c : Instr) (u : Nat) : (d.at_ t c).frame u = d.frame u := (rfl)
@[simp] theorem Dev.at_trace (d : Dev) (t : Nat) (c : Instr) (u : Nat) : (d.at_ t c).trace u = d.trace u := (rfl)
@[simp] theorem Dev.at_fbk (d : Dev) (t : Nat) (c : Instr) (u w : Nat) : (d.at_ t c).fbk u w = d.fbk u w := (rfl)
@[simp] theorem Dev.at_bead (d : Dev) (t : Nat) (c : Instr) (u w : Nat) : (d.at_ t c).bead u w = d.bead u w := (rfl)
@[simp] theorem Dev.at_cell (d : Dev) (t : Nat) (c : Instr) (u w : Nat) : (d.at_ t c).cell u w = d.cell u w := (rfl)
@[simp] theorem Dev.at_clasp (d : Dev) (t : Nat) (c : Instr) (u : Nat) : (d.at_ t c).clasp u = d.clasp u := (rfl)
@[simp] theorem Dev.at_core (d : Dev) (t : Nat) (c : Instr) (u : Nat) : (d.at_ t c).core u = d.core u := (rfl)
@[simp] theorem Dev.at_ring (d : Dev) (t : Nat) (c : Instr) (u : Nat) : (d.at_ t c).ring u = d.ring u := (rfl)
@[simp] theorem Dev.at_dmach (d : Dev) (t : Nat) (c : Instr) (u w : Nat) : (d.at_ t c).dmach u w = d.dmach u w := (rfl)
@[simp] theorem Dev.at_canc (d : Dev) (t : Nat) (c : Instr) (u : Nat) : (d.at_ t c).canc u = d.canc u := (rfl)
@[simp] theorem Dev.at_sess (d : Dev) (t : Nat) (c : Instr) (u : Nat) : (d.at_ t c).sess u = d.sess u := (rfl)
@[simp] theorem Dev.at_cred (d : Dev) (t : Nat) (c : Instr) (u : Nat) : (d.at_ t c).cred u = d.cred u := (rfl)
@[simp] theorem Dev.at_img (d : Dev) (t : Nat) (c : Instr) (u : Nat) : (d.at_ t c).img u = d.img u := (rfl)
@[simp] theorem Dev.at_lrec (d : Dev) (t : Nat) (c : Instr) (u : Nat) : (d.at_ t c).lrec u = d.lrec u := (rfl)
@[simp] theorem Dev.at_lat (d : Dev) (t : Nat) (c : Instr) (u w : Nat) : (d.at_ t c).lat u w = d.lat u w := (rfl)
@[simp] theorem Dev.at_byte (d : Dev) (t : Nat) (c : Instr) (u : Nat) : (d.at_ t c).byte u = d.byte u := (rfl)
@[simp] theorem Dev.at_dget (d : Dev) (t : Nat) (c : Instr) (u : Nat) : (d.at_ t c).dget u = d.dget u := (rfl)
@[simp] theorem Dev.at_freeVal (d : Dev) (t : Nat) (c : Instr) : (d.at_ t c).freeVal = d.freeVal := (rfl)
@[simp] theorem Dev.at_routeOf (d : Dev) (t : Nat) (c : Instr) (u : Nat) : (d.at_ t c).routeOf u = d.routeOf u := (rfl)
@[simp] theorem Dev.at_mode (d : Dev) (t : Nat) (c : Instr) : (d.at_ t c).mode = d.mode := (rfl)
@[simp] theorem Dev.at_ticking (d : Dev) (t : Nat) (c : Instr) : (d.at_ t c).ticking = d.ticking := (rfl)
@[simp] theorem Dev.at_inRun (d : Dev) (t : Nat) (c : Instr) (u : Nat) : (d.at_ t c).inRun u = d.inRun u := (rfl)
@[simp] theorem Dev.cancel_timer (d : Dev) (c : Instr) (u w : Nat) : (d.cancel c).timer u w = d.timer u w := (rfl)
@[simp] theorem Dev.cancel_pair (d : Dev) (c : Instr) (u w : Nat) : (d.cancel c).pair u w = d.pair u w := (rfl)
@[simp] theorem Dev.cancel_line (d : Dev) (c : Instr) (u w : Nat) : (d.cancel c).line u w = d.line u w := (rfl)
@[simp] theorem Dev.cancel_chan (d : Dev) (c : Instr) (u w : Nat) : (d.cancel c).chan u w = d.chan u w := (rfl)
@[simp] theorem Dev.cancel_sset (d : Dev) (c : Instr) (u : Nat) : (d.cancel c).sset u = d.sset u := (rfl)
@[simp] theorem Dev.cancel_sdm (d : Dev) (c : Instr) (u w : Nat) : (d.cancel c).sdm u w = d.sdm u w := (rfl)
@[simp] theorem Dev.cancel_sdclk (d : Dev) (c : Instr) (u w : Nat) : (d.cancel c).sdclk u w = d.sdclk u w := (rfl)
@[simp] theorem Dev.cancel_rod (d : Dev) (c : Instr) (u : Nat) : (d.cancel c).rod u = d.rod u := (rfl)
@[simp] theorem Dev.cancel_frame (d : Dev) (c : Instr) (u : Nat) : (d.cancel c).frame u = d.frame u := (rfl)
@[simp] theorem Dev.cancel_trace (d : Dev) (c : Instr) (u : Nat) : (d.cancel c).trace u = d.trace u := (rfl)
@[simp] theorem Dev.cancel_fbk (d : Dev) (c : Instr) (u w : Nat) : (d.cancel c).fbk u w = d.fbk u w := (rfl)
@[simp] theorem Dev.cancel_bead (d : Dev) (c : Instr) (u w : Nat) : (d.cancel c).bead u w = d.bead u w := (rfl)
@[simp] theorem Dev.cancel_cell (d : Dev) (c : Instr) (u w : Nat) : (d.cancel c).cell u w = d.cell u w := (rfl)
@[simp] theorem Dev.cancel_clasp (d : Dev) (c : Instr) (u : Nat) : (d.cancel c).clasp u = d.clasp u := (rfl)
@[simp] theorem Dev.cancel_core (d : Dev) (c : Instr) (u : Nat) : (d.cancel c).core u = d.core u := (rfl)
@[simp] theorem Dev.cancel_ring (d : Dev) (c : Instr) (u : Nat) : (d.cancel c).ring u = d.ring u := (rfl)
@[simp] theorem Dev.cancel_dmach (d : Dev) (c : Instr) (u w : Nat) : (d.cancel c).dmach u w = d.dmach u w := (rfl)
@[simp] theorem Dev.cancel_canc (d : Dev) (c : Instr) (u : Nat) : (d.cancel c).canc u = d.canc u := (rfl)
@[simp] theorem Dev.cancel_sess (d : Dev) (c : Instr) (u : Nat) : (d.cancel c).sess u = d.sess u := (rfl)
@[simp] theorem Dev.cancel_cred (d : Dev) (c : Instr) (u : Nat) : (d.cancel c).cred u = d.cred u := (rfl)
@[simp] theorem Dev.cancel_img (d : Dev) (c : Instr) (u : Nat) : (d.cancel c).img u = d.img u := (rfl)
@[simp] theorem Dev.cancel_lrec (d : Dev) (c : Instr) (u : Nat) : (d.cancel c).lrec u = d.lrec u := (rfl)
@[simp] theorem Dev.cancel_lat (d : Dev) (c : Instr) (u w : Nat) : (d.cancel c).lat u w = d.lat u w := (rfl)
@[simp] theorem Dev.cancel_byte (d : Dev) (c : Instr) (u : Nat) : (d.cancel c).byte u = d.byte u := (rfl)
@[simp] theorem Dev.cancel_dget (d : Dev) (c : Instr) (u : Nat) : (d.cancel c).dget u = d.dget u := (rfl)
@[simp] theorem Dev.cancel_freeVal (d : Dev) (c : Instr) : (d.cancel c).freeVal = d.freeVal := (rfl)
@[simp] theorem Dev.cancel_routeOf (d : Dev) (c : Instr) (u : Nat) : (d.cancel c).routeOf u = d.routeOf u := (rfl)
@[simp] theorem Dev.cancel_mode (d : Dev) (c : Instr) : (d.cancel c).mode = d.mode := (rfl)
@[simp] theorem Dev.cancel_ticking (d : Dev) (c : Instr) : (d.cancel c).ticking = d.ticking := (rfl)
@[simp] theorem Dev.cancel_inRun (d : Dev) (c : Instr) (u : Nat) : (d.cancel c).inRun u = d.inRun u := (rfl)
@[simp] theorem Dev.raiseAt_timer (d : Dev) (src p ts : Nat) (u w : Nat) : (d.raiseAt src p ts).timer u w = d.timer u w := (rfl)
@[simp] theorem Dev.raiseAt_pair (d : Dev) (src p ts : Nat) (u w : Nat) : (d.raiseAt src p ts).pair u w = d.pair u w := (rfl)
@[simp] theorem Dev.raiseAt_line (d : Dev) (src p ts : Nat) (u w : Nat) : (d.raiseAt src p ts).line u w = d.line u w := (rfl)
@[simp] theorem Dev.raiseAt_chan (d : Dev) (src p ts : Nat) (u w : Nat) : (d.raiseAt src p ts).chan u w = d.chan u w := (rfl)
@[simp] theorem Dev.raiseAt_sset (d : Dev) (src p ts : Nat) (u : Nat) : (d.raiseAt src p ts).sset u = d.sset u := (rfl)
@[simp] theorem Dev.raiseAt_sdm (d : Dev) (src p ts : Nat) (u w : Nat) : (d.raiseAt src p ts).sdm u w = d.sdm u w := (rfl)
@[simp] theorem Dev.raiseAt_sdclk (d : Dev) (src p ts : Nat) (u w : Nat) : (d.raiseAt src p ts).sdclk u w = d.sdclk u w := (rfl)
@[simp] theorem Dev.raiseAt_rod (d : Dev) (src p ts : Nat) (u : Nat) : (d.raiseAt src p ts).rod u = d.rod u := (rfl)
@[simp] theorem Dev.raiseAt_frame (d : Dev) (src p ts : Nat) (u : Nat) : (d.raiseAt src p ts).frame u = d.frame u := (rfl)
@[simp] theorem Dev.raiseAt_trace (d : Dev) (src p ts : Nat) (u : Nat) : (d.raiseAt src p ts).trace u = d.trace u := (rfl)
@[simp] theorem Dev.raiseAt_fbk (d : Dev) (src p ts : Nat) (u w : Nat) : (d.raiseAt src p ts).fbk u w = d.fbk u w := (rfl)
@[simp] theorem Dev.raiseAt_bead (d : Dev) (src p ts : Nat) (u w : Nat) : (d.raiseAt src p ts).bead u w = d.bead u w := (rfl)
@[simp] theorem Dev.raiseAt_cell (d : Dev) (src p ts : Nat) (u w : Nat) : (d.raiseAt src p ts).cell u w = d.cell u w := (rfl)
@[simp] theorem Dev.raiseAt_clasp (d : Dev) (src p ts : Nat) (u : Nat) : (d.raiseAt src p ts).clasp u = d.clasp u := (rfl)
@[simp] theorem Dev.raiseAt_core (d : Dev) (src p ts : Nat) (u : Nat) : (d.raiseAt src p ts).core u = d.core u := (rfl)
@[simp] theorem Dev.raiseAt_ring (d : Dev) (src p ts : Nat) (u : Nat) : (d.raiseAt src p ts).ring u = d.ring u := (rfl)
@[simp] theorem Dev.raiseAt_dmach (d : Dev) (src p ts : Nat) (u w : Nat) : (d.raiseAt src p ts).dmach u w = d.dmach u w := (rfl)
@[simp] theorem Dev.raiseAt_canc (d : Dev) (src p ts : Nat) (u : Nat) : (d.raiseAt src p ts).canc u = d.canc u := (rfl)
@[simp] theorem Dev.raiseAt_sess (d : Dev) (src p ts : Nat) (u : Nat) : (d.raiseAt src p ts).sess u = d.sess u := (rfl)
@[simp] theorem Dev.raiseAt_cred (d : Dev) (src p ts : Nat) (u : Nat) : (d.raiseAt src p ts).cred u = d.cred u := (rfl)
@[simp] theorem Dev.raiseAt_img (d : Dev) (src p ts : Nat) (u : Nat) : (d.raiseAt src p ts).img u = d.img u := (rfl)
@[simp] theorem Dev.raiseAt_lrec (d : Dev) (src p ts : Nat) (u : Nat) : (d.raiseAt src p ts).lrec u = d.lrec u := (rfl)
@[simp] theorem Dev.raiseAt_lat (d : Dev) (src p ts : Nat) (u w : Nat) : (d.raiseAt src p ts).lat u w = d.lat u w := (rfl)
@[simp] theorem Dev.raiseAt_byte (d : Dev) (src p ts : Nat) (u : Nat) : (d.raiseAt src p ts).byte u = d.byte u := (rfl)
@[simp] theorem Dev.raiseAt_dget (d : Dev) (src p ts : Nat) (u : Nat) : (d.raiseAt src p ts).dget u = d.dget u := (rfl)
@[simp] theorem Dev.raiseAt_freeVal (d : Dev) (src p ts : Nat) : (d.raiseAt src p ts).freeVal = d.freeVal := (rfl)
@[simp] theorem Dev.raiseAt_routeOf (d : Dev) (src p ts : Nat) (u : Nat) : (d.raiseAt src p ts).routeOf u = d.routeOf u := (rfl)
@[simp] theorem Dev.raiseAt_mode (d : Dev) (src p ts : Nat) : (d.raiseAt src p ts).mode = d.mode := (rfl)
@[simp] theorem Dev.raiseAt_ticking (d : Dev) (src p ts : Nat) : (d.raiseAt src p ts).ticking = d.ticking := (rfl)
@[simp] theorem Dev.raiseAt_inRun (d : Dev) (src p ts : Nat) (u : Nat) : (d.raiseAt src p ts).inRun u = d.inRun u := (rfl)
@[simp] theorem Dev.raise_timer (d : Dev) (src p : Nat) (u w : Nat) : (d.raise src p).timer u w = d.timer u w := (rfl)
@[simp] theorem Dev.raise_pair (d : Dev) (src p : Nat) (u w : Nat) : (d.raise src p).pair u w = d.pair u w := (rfl)
@[simp] theorem Dev.raise_line (d : Dev) (src p : Nat) (u w : Nat) : (d.raise src p).line u w = d.line u w := (rfl)
@[simp] theorem Dev.raise_chan (d : Dev) (src p : Nat) (u w : Nat) : (d.raise src p).chan u w = d.chan u w := (rfl)
@[simp] theorem Dev.raise_sset (d : Dev) (src p : Nat) (u : Nat) : (d.raise src p).sset u = d.sset u := (rfl)
@[simp] theorem Dev.raise_sdm (d : Dev) (src p : Nat) (u w : Nat) : (d.raise src p).sdm u w = d.sdm u w := (rfl)
@[simp] theorem Dev.raise_sdclk (d : Dev) (src p : Nat) (u w : Nat) : (d.raise src p).sdclk u w = d.sdclk u w := (rfl)
@[simp] theorem Dev.raise_rod (d : Dev) (src p : Nat) (u : Nat) : (d.raise src p).rod u = d.rod u := (rfl)
@[simp] theorem Dev.raise_frame (d : Dev) (src p : Nat) (u : Nat) : (d.raise src p).frame u = d.frame u := (rfl)
@[simp] theorem Dev.raise_trace (d : Dev) (src p : Nat) (u : Nat) : (d.raise src p).trace u = d.trace u := (rfl)
@[simp] theorem Dev.raise_fbk (d : Dev) (src p : Nat) (u w : Nat) : (d.raise src p).fbk u w = d.fbk u w := (rfl)
@[simp] theorem Dev.raise_bead (d : Dev) (src p : Nat) (u w : Nat) : (d.raise src p).bead u w = d.bead u w := (rfl)
@[simp] theorem Dev.raise_cell (d : Dev) (src p : Nat) (u w : Nat) : (d.raise src p).cell u w = d.cell u w := (rfl)
@[simp] theorem Dev.raise_clasp (d : Dev) (src p : Nat) (u : Nat) : (d.raise src p).clasp u = d.clasp u := (rfl)
@[simp] theorem Dev.raise_core (d : Dev) (src p : Nat) (u : Nat) : (d.raise src p).core u = d.core u := (rfl)
@[simp] theorem Dev.raise_ring (d : Dev) (src p : Nat) (u : Nat) : (d.raise src p).ring u = d.ring u := (rfl)
@[simp] theorem Dev.raise_dmach (d : Dev) (src p : Nat) (u w : Nat) : (d.raise src p).dmach u w = d.dmach u w := (rfl)
@[simp] theorem Dev.raise_canc (d : Dev) (src p : Nat) (u : Nat) : (d.raise src p).canc u = d.canc u := (rfl)
@[simp] theorem Dev.raise_sess (d : Dev) (src p : Nat) (u : Nat) : (d.raise src p).sess u = d.sess u := (rfl)
@[simp] theorem Dev.raise_cred (d : Dev) (src p : Nat) (u : Nat) : (d.raise src p).cred u = d.cred u := (rfl)
@[simp] theorem Dev.raise_img (d : Dev) (src p : Nat) (u : Nat) : (d.raise src p).img u = d.img u := (rfl)
@[simp] theorem Dev.raise_lrec (d : Dev) (src p : Nat) (u : Nat) : (d.raise src p).lrec u = d.lrec u := (rfl)
@[simp] theorem Dev.raise_lat (d : Dev) (src p : Nat) (u w : Nat) : (d.raise src p).lat u w = d.lat u w := (rfl)
@[simp] theorem Dev.raise_byte (d : Dev) (src p : Nat) (u : Nat) : (d.raise src p).byte u = d.byte u := (rfl)
@[simp] theorem Dev.raise_dget (d : Dev) (src p : Nat) (u : Nat) : (d.raise src p).dget u = d.dget u := (rfl)
@[simp] theorem Dev.raise_freeVal (d : Dev) (src p : Nat) : (d.raise src p).freeVal = d.freeVal := (rfl)
@[simp] theorem Dev.raise_routeOf (d : Dev) (src p : Nat) (u : Nat) : (d.raise src p).routeOf u = d.routeOf u := (rfl)
@[simp] theorem Dev.raise_mode (d : Dev) (src p : Nat) : (d.raise src p).mode = d.mode := (rfl)
@[simp] theorem Dev.raise_ticking (d : Dev) (src p : Nat) : (d.raise src p).ticking = d.ticking := (rfl)
@[simp] theorem Dev.raise_inRun (d : Dev) (src p : Nat) (u : Nat) : (d.raise src p).inRun u = d.inRun u := (rfl)
@[simp] theorem Dev.gateNote_timer (d : Dev) (key : Nat) (u w : Nat) : (d.gateNote key).timer u w = d.timer u w := (rfl)
@[simp] theorem Dev.gateNote_pair (d : Dev) (key : Nat) (u w : Nat) : (d.gateNote key).pair u w = d.pair u w := (rfl)
@[simp] theorem Dev.gateNote_line (d : Dev) (key : Nat) (u w : Nat) : (d.gateNote key).line u w = d.line u w := (rfl)
@[simp] theorem Dev.gateNote_chan (d : Dev) (key : Nat) (u w : Nat) : (d.gateNote key).chan u w = d.chan u w := (rfl)
@[simp] theorem Dev.gateNote_sset (d : Dev) (key : Nat) (u : Nat) : (d.gateNote key).sset u = d.sset u := (rfl)
@[simp] theorem Dev.gateNote_sdm (d : Dev) (key : Nat) (u w : Nat) : (d.gateNote key).sdm u w = d.sdm u w := (rfl)
@[simp] theorem Dev.gateNote_sdclk (d : Dev) (key : Nat) (u w : Nat) : (d.gateNote key).sdclk u w = d.sdclk u w := (rfl)
@[simp] theorem Dev.gateNote_rod (d : Dev) (key : Nat) (u : Nat) : (d.gateNote key).rod u = d.rod u := (rfl)
@[simp] theorem Dev.gateNote_frame (d : Dev) (key : Nat) (u : Nat) : (d.gateNote key).frame u = d.frame u := (rfl)
@[simp] theorem Dev.gateNote_trace (d : Dev) (key : Nat) (u : Nat) : (d.gateNote key).trace u = d.trace u := (rfl)
@[simp] theorem Dev.gateNote_fbk (d : Dev) (key : Nat) (u w : Nat) : (d.gateNote key).fbk u w = d.fbk u w := (rfl)
@[simp] theorem Dev.gateNote_bead (d : Dev) (key : Nat) (u w : Nat) : (d.gateNote key).bead u w = d.bead u w := (rfl)
@[simp] theorem Dev.gateNote_cell (d : Dev) (key : Nat) (u w : Nat) : (d.gateNote key).cell u w = d.cell u w := (rfl)
@[simp] theorem Dev.gateNote_clasp (d : Dev) (key : Nat) (u : Nat) : (d.gateNote key).clasp u = d.clasp u := (rfl)
@[simp] theorem Dev.gateNote_core (d : Dev) (key : Nat) (u : Nat) : (d.gateNote key).core u = d.core u := (rfl)
@[simp] theorem Dev.gateNote_ring (d : Dev) (key : Nat) (u : Nat) : (d.gateNote key).ring u = d.ring u := (rfl)
@[simp] theorem Dev.gateNote_dmach (d : Dev) (key : Nat) (u w : Nat) : (d.gateNote key).dmach u w = d.dmach u w := (rfl)
@[simp] theorem Dev.gateNote_canc (d : Dev) (key : Nat) (u : Nat) : (d.gateNote key).canc u = d.canc u := (rfl)
@[simp] theorem Dev.gateNote_sess (d : Dev) (key : Nat) (u : Nat) : (d.gateNote key).sess u = d.sess u := (rfl)
@[simp] theorem Dev.gateNote_cred (d : Dev) (key : Nat) (u : Nat) : (d.gateNote key).cred u = d.cred u := (rfl)
@[simp] theorem Dev.gateNote_img (d : Dev) (key : Nat) (u : Nat) : (d.gateNote key).img u = d.img u := (rfl)
@[simp] theorem Dev.gateNote_lrec (d : Dev) (key : Nat) (u : Nat) : (d.gateNote key).lrec u = d.lrec u := (rfl)
@[simp] theorem Dev.gateNote_lat (d : Dev) (key : Nat) (u w : Nat) : (d.gateNote key).lat u w = d.lat u w := (rfl)
@[simp] theorem Dev.gateNote_byte (d : Dev) (key : Nat) (u : Nat) : (d.gateNote key).byte u = d.byte u := (rfl)
@[simp] theorem Dev.gateNote_dget (d : Dev) (key : Nat) (u : Nat) : (d.gateNote key).dget u = d.dget u := (rfl)
@[simp] theorem Dev.gateNote_freeVal (d : Dev) (key : Nat) : (d.gateNote key).freeVal = d.freeVal := (rfl)
@[simp] theorem Dev.gateNote_routeOf (d : Dev) (key : Nat) (u : Nat) : (d.gateNote key).routeOf u = d.routeOf u := (rfl)
@[simp] theorem Dev.gateNote_mode (d : Dev) (key : Nat) : (d.gateNote key).mode = d.mode := (rfl)
@[simp] theorem Dev.gateNote_ticking (d : Dev) (key : Nat) : (d.gateNote key).ticking = d.ticking := (rfl)
@[simp] theorem Dev.gateNote_inRun (d : Dev) (key : Nat) (u : Nat) : (d.gateNote key).inRun u = d.inRun u := (rfl)
@[simp] theorem Dev.dset_timer (d : Dev) (k v : Nat) (u w : Nat) : (d.dset k v).timer u w = d.timer u w := (rfl)
@[simp] theorem Dev.dset_pair (d : Dev) (k v : Nat) (u w : Nat) : (d.dset k v).pair u w = d.pair u w := (rfl)
@[simp] theorem Dev.dset_line (d : Dev) (k v : Nat) (u w : Nat) : (d.dset k v).line u w = d.line u w := (rfl)
@[simp] theorem Dev.dset_chan (d : Dev) (k v : Nat) (u w : Nat) : (d.dset k v).chan u w = d.chan u w := (rfl)
@[simp] theorem Dev.dset_sset (d : Dev) (k v : Nat) (u : Nat) : (d.dset k v).sset u = d.sset u := (rfl)
@[simp] theorem Dev.dset_sdm (d : Dev) (k v : Nat) (u w : Nat) : (d.dset k v).sdm u w = d.sdm u w := (rfl)
@[simp] theorem Dev.dset_sdclk (d : Dev) (k v : Nat) (u w : Nat) : (d.dset k v).sdclk u w = d.sdclk u w := (rfl)
@[simp] theorem Dev.dset_rod (d : Dev) (k v : Nat) (u : Nat) : (d.dset k v).rod u = d.rod u := (rfl)
@[simp] theorem Dev.dset_frame (d : Dev) (k v : Nat) (u : Nat) : (d.dset k v).frame u = d.frame u := (rfl)
@[simp] theorem Dev.dset_trace (d : Dev) (k v : Nat) (u : Nat) : (d.dset k v).trace u = d.trace u := (rfl)
@[simp] theorem Dev.dset_fbk (d : Dev) (k v : Nat) (u w : Nat) : (d.dset k v).fbk u w = d.fbk u w := (rfl)
@[simp] theorem Dev.dset_bead (d : Dev) (k v : Nat) (u w : Nat) : (d.dset k v).bead u w = d.bead u w := (rfl)
@[simp] theorem Dev.dset_cell (d : Dev) (k v : Nat) (u w : Nat) : (d.dset k v).cell u w = d.cell u w := (rfl)
@[simp] theorem Dev.dset_clasp (d : Dev) (k v : Nat) (u : Nat) : (d.dset k v).clasp u = d.clasp u := (rfl)
@[simp] theorem Dev.dset_core (d : Dev) (k v : Nat) (u : Nat) : (d.dset k v).core u = d.core u := (rfl)
@[simp] theorem Dev.dset_ring (d : Dev) (k v : Nat) (u : Nat) : (d.dset k v).ring u = d.ring u := (rfl)
@[simp] theorem Dev.dset_dmach (d : Dev) (k v : Nat) (u w : Nat) : (d.dset k v).dmach u w = d.dmach u w := (rfl)
@[simp] theorem Dev.dset_canc (d : Dev) (k v : Nat) (u : Nat) : (d.dset k v).canc u = d.canc u := (rfl)
@[simp] theorem Dev.dset_sess (d : Dev) (k v : Nat) (u : Nat) : (d.dset k v).sess u = d.sess u := (rfl)
@[simp] theorem Dev.dset_cred (d : Dev) (k v : Nat) (u : Nat) : (d.dset k v).cred u = d.cred u := (rfl)
@[simp] theorem Dev.dset_img (d : Dev) (k v : Nat) (u : Nat) : (d.dset k v).img u = d.img u := (rfl)
@[simp] theorem Dev.dset_lrec (d : Dev) (k v : Nat) (u : Nat) : (d.dset k v).lrec u = d.lrec u := (rfl)
@[simp] theorem Dev.dset_lat (d : Dev) (k v : Nat) (u w : Nat) : (d.dset k v).lat u w = d.lat u w := (rfl)
@[simp] theorem Dev.dset_byte (d : Dev) (k v : Nat) (u : Nat) : (d.dset k v).byte u = d.byte u := (rfl)
@[simp] theorem Dev.dset_freeVal (d : Dev) (k v : Nat) : (d.dset k v).freeVal = d.freeVal := (rfl)
@[simp] theorem Dev.dset_routeOf (d : Dev) (k v : Nat) (u : Nat) : (d.dset k v).routeOf u = d.routeOf u := (rfl)
@[simp] theorem Dev.dset_mode (d : Dev) (k v : Nat) : (d.dset k v).mode = d.mode := (rfl)
@[simp] theorem Dev.dset_ticking (d : Dev) (k v : Nat) : (d.dset k v).ticking = d.ticking := (rfl)
@[simp] theorem Dev.dset_inRun (d : Dev) (k v : Nat) (u : Nat) : (d.dset k v).inRun u = d.inRun u := (rfl)
@[simp] theorem Dev.settle_timer (d : Dev) (u w : Nat) : (d.settle).timer u w = d.timer u w := (rfl)
@[simp] theorem Dev.settle_pair (d : Dev) (u w : Nat) : (d.settle).pair u w = d.pair u w := (rfl)
@[simp] theorem Dev.settle_line (d : Dev) (u w : Nat) : (d.settle).line u w = d.line u w := (rfl)
@[simp] theorem Dev.settle_chan (d : Dev) (u w : Nat) : (d.settle).chan u w = d.chan u w := (rfl)
@[simp] theorem Dev.settle_sset (d : Dev) (u : Nat) : (d.settle).sset u = d.sset u := (rfl)
@[simp] theorem Dev.settle_sdm (d : Dev) (u w : Nat) : (d.settle).sdm u w = d.sdm u w := (rfl)
@[simp] theorem Dev.settle_sdclk (d : Dev) (u w : Nat) : (d.settle).sdclk u w = d.sdclk u w := (rfl)
@[simp] theorem Dev.settle_rod (d : Dev) (u : Nat) : (d.settle).rod u = d.rod u := (rfl)
@[simp] theorem Dev.settle_frame (d : Dev) (u : Nat) : (d.settle).frame u = d.frame u := (rfl)
@[simp] theorem Dev.settle_trace (d : Dev) (u : Nat) : (d.settle).trace u = d.trace u := (rfl)
@[simp] theorem Dev.settle_fbk (d : Dev) (u w : Nat) : (d.settle).fbk u w = d.fbk u w := (rfl)
@[simp] theorem Dev.settle_bead (d : Dev) (u w : Nat) : (d.settle).bead u w = d.bead u w := (rfl)
@[simp] theorem Dev.settle_cell (d : Dev) (u w : Nat) : (d.settle).cell u w = d.cell u w := (rfl)
@[simp] theorem Dev.settle_clasp (d : Dev) (u : Nat) : (d.settle).clasp u = d.clasp u := (rfl)
@[simp] theorem Dev.settle_core (d : Dev) (u : Nat) : (d.settle).core u = d.core u := (rfl)
@[simp] theorem Dev.settle_ring (d : Dev) (u : Nat) : (d.settle).ring u = d.ring u := (rfl)
@[simp] theorem Dev.settle_dmach (d : Dev) (u w : Nat) : (d.settle).dmach u w = d.dmach u w := (rfl)
@[simp] theorem Dev.settle_canc (d : Dev) (u : Nat) : (d.settle).canc u = d.canc u := (rfl)
@[simp] theorem Dev.settle_sess (d : Dev) (u : Nat) : (d.settle).sess u = d.sess u := (rfl)
@[simp] theorem Dev.settle_cred (d : Dev) (u : Nat) : (d.settle).cred u = d.cred u := (rfl)
@[simp] theorem Dev.settle_img (d : Dev) (u : Nat) : (d.settle).img u = d.img u := (rfl)
@[simp] theorem Dev.settle_lrec (d : Dev) (u : Nat) : (d.settle).lrec u = d.lrec u := (rfl)
@[simp] theorem Dev.settle_lat (d : Dev) (u w : Nat) : (d.settle).lat u w = d.lat u w := (rfl)
@[simp] theorem Dev.settle_dget (d : Dev) (u : Nat) : (d.settle).dget u = d.dget u := (rfl)
@[simp] theorem Dev.settle_freeVal (d : Dev) : (d.settle).freeVal = d.freeVal := (rfl)
@[simp] theorem Dev.settle_mode (d : Dev) : (d.settle).mode = d.mode := (rfl)
@[simp] theorem Dev.settle_ticking (d : Dev) : (d.settle).ticking = d.ticking := (rfl)
@[simp] theorem Dev.settle_inRun (d : Dev) (u : Nat) : (d.settle).inRun u = d.inRun u := (rfl)
@[simp] theorem Dev.diagT_timer (d : Dev) (c i n : Nat) (u w : Nat) : (d.diagT c i n).timer u w = d.timer u w := (rfl)
@[simp] theorem Dev.diagT_pair (d : Dev) (c i n : Nat) (u w : Nat) : (d.diagT c i n).pair u w = d.pair u w := (rfl)
@[simp] theorem Dev.diagT_line (d : Dev) (c i n : Nat) (u w : Nat) : (d.diagT c i n).line u w = d.line u w := (rfl)
@[simp] theorem Dev.diagT_chan (d : Dev) (c i n : Nat) (u w : Nat) : (d.diagT c i n).chan u w = d.chan u w := (rfl)
@[simp] theorem Dev.diagT_sset (d : Dev) (c i n : Nat) (u : Nat) : (d.diagT c i n).sset u = d.sset u := (rfl)
@[simp] theorem Dev.diagT_sdm (d : Dev) (c i n : Nat) (u w : Nat) : (d.diagT c i n).sdm u w = d.sdm u w := (rfl)
@[simp] theorem Dev.diagT_sdclk (d : Dev) (c i n : Nat) (u w : Nat) : (d.diagT c i n).sdclk u w = d.sdclk u w := (rfl)
@[simp] theorem Dev.diagT_rod (d : Dev) (c i n : Nat) (u : Nat) : (d.diagT c i n).rod u = d.rod u := (rfl)
@[simp] theorem Dev.diagT_frame (d : Dev) (c i n : Nat) (u : Nat) : (d.diagT c i n).frame u = d.frame u := (rfl)
@[simp] theorem Dev.diagT_trace (d : Dev) (c i n : Nat) (u : Nat) : (d.diagT c i n).trace u = d.trace u := (rfl)
@[simp] theorem Dev.diagT_fbk (d : Dev) (c i n : Nat) (u w : Nat) : (d.diagT c i n).fbk u w = d.fbk u w := (rfl)
@[simp] theorem Dev.diagT_bead (d : Dev) (c i n : Nat) (u w : Nat) : (d.diagT c i n).bead u w = d.bead u w := (rfl)
@[simp] theorem Dev.diagT_cell (d : Dev) (c i n : Nat) (u w : Nat) : (d.diagT c i n).cell u w = d.cell u w := (rfl)
@[simp] theorem Dev.diagT_clasp (d : Dev) (c i n : Nat) (u : Nat) : (d.diagT c i n).clasp u = d.clasp u := (rfl)
@[simp] theorem Dev.diagT_core (d : Dev) (c i n : Nat) (u : Nat) : (d.diagT c i n).core u = d.core u := (rfl)
@[simp] theorem Dev.diagT_ring (d : Dev) (c i n : Nat) (u : Nat) : (d.diagT c i n).ring u = d.ring u := (rfl)
@[simp] theorem Dev.diagT_dmach (d : Dev) (c i n : Nat) (u w : Nat) : (d.diagT c i n).dmach u w = d.dmach u w := (rfl)
@[simp] theorem Dev.diagT_canc (d : Dev) (c i n : Nat) (u : Nat) : (d.diagT c i n).canc u = d.canc u := (rfl)
@[simp] theorem Dev.diagT_sess (d : Dev) (c i n : Nat) (u : Nat) : (d.diagT c i n).sess u = d.sess u := (rfl)
@[simp] theorem Dev.diagT_cred (d : Dev) (c i n : Nat) (u : Nat) : (d.diagT c i n).cred u = d.cred u := (rfl)
@[simp] theorem Dev.diagT_img (d : Dev) (c i n : Nat) (u : Nat) : (d.diagT c i n).img u = d.img u := (rfl)
@[simp] theorem Dev.diagT_lrec (d : Dev) (c i n : Nat) (u : Nat) : (d.diagT c i n).lrec u = d.lrec u := (rfl)
@[simp] theorem Dev.diagT_lat (d : Dev) (c i n : Nat) (u w : Nat) : (d.diagT c i n).lat u w = d.lat u w := (rfl)
@[simp] theorem Dev.diagT_byte (d : Dev) (c i n : Nat) (u : Nat) : (d.diagT c i n).byte u = d.byte u := (rfl)
@[simp] theorem Dev.diagT_freeVal (d : Dev) (c i n : Nat) : (d.diagT c i n).freeVal = d.freeVal := (rfl)
@[simp] theorem Dev.diagT_routeOf (d : Dev) (c i n : Nat) (u : Nat) : (d.diagT c i n).routeOf u = d.routeOf u := (rfl)
@[simp] theorem Dev.diagT_mode (d : Dev) (c i n : Nat) : (d.diagT c i n).mode = d.mode := (rfl)
@[simp] theorem Dev.diagT_ticking (d : Dev) (c i n : Nat) : (d.diagT c i n).ticking = d.ticking := (rfl)
@[simp] theorem Dev.diagT_inRun (d : Dev) (c i n : Nat) (u : Nat) : (d.diagT c i n).inRun u = d.inRun u := (rfl)
@[simp] theorem Dev.diagL_timer (d : Dev) (c i : Nat) (u w : Nat) : (d.diagL c i).timer u w = d.timer u w := (rfl)
@[simp] theorem Dev.diagL_pair (d : Dev) (c i : Nat) (u w : Nat) : (d.diagL c i).pair u w = d.pair u w := (rfl)
@[simp] theorem Dev.diagL_line (d : Dev) (c i : Nat) (u w : Nat) : (d.diagL c i).line u w = d.line u w := (rfl)
@[simp] theorem Dev.diagL_chan (d : Dev) (c i : Nat) (u w : Nat) : (d.diagL c i).chan u w = d.chan u w := (rfl)
@[simp] theorem Dev.diagL_sset (d : Dev) (c i : Nat) (u : Nat) : (d.diagL c i).sset u = d.sset u := (rfl)
@[simp] theorem Dev.diagL_sdm (d : Dev) (c i : Nat) (u w : Nat) : (d.diagL c i).sdm u w = d.sdm u w := (rfl)
@[simp] theorem Dev.diagL_sdclk (d : Dev) (c i : Nat) (u w : Nat) : (d.diagL c i).sdclk u w = d.sdclk u w := (rfl)
@[simp] theorem Dev.diagL_rod (d : Dev) (c i : Nat) (u : Nat) : (d.diagL c i).rod u = d.rod u := (rfl)
@[simp] theorem Dev.diagL_frame (d : Dev) (c i : Nat) (u : Nat) : (d.diagL c i).frame u = d.frame u := (rfl)
@[simp] theorem Dev.diagL_trace (d : Dev) (c i : Nat) (u : Nat) : (d.diagL c i).trace u = d.trace u := (rfl)
@[simp] theorem Dev.diagL_fbk (d : Dev) (c i : Nat) (u w : Nat) : (d.diagL c i).fbk u w = d.fbk u w := (rfl)
@[simp] theorem Dev.diagL_bead (d : Dev) (c i : Nat) (u w : Nat) : (d.diagL c i).bead u w = d.bead u w := (rfl)
@[simp] theorem Dev.diagL_cell (d : Dev) (c i : Nat) (u w : Nat) : (d.diagL c i).cell u w = d.cell u w := (rfl)
@[simp] theorem Dev.diagL_clasp (d : Dev) (c i : Nat) (u : Nat) : (d.diagL c i).clasp u = d.clasp u := (rfl)
@[simp] theorem Dev.diagL_core (d : Dev) (c i : Nat) (u : Nat) : (d.diagL c i).core u = d.core u := (rfl)
@[simp] theorem Dev.diagL_ring (d : Dev) (c i : Nat) (u : Nat) : (d.diagL c i).ring u = d.ring u := (rfl)
@[simp] theorem Dev.diagL_dmach (d : Dev) (c i : Nat) (u w : Nat) : (d.diagL c i).dmach u w = d.dmach u w := (rfl)
@[simp] theorem Dev.diagL_canc (d : Dev) (c i : Nat) (u : Nat) : (d.diagL c i).canc u = d.canc u := (rfl)
@[simp] theorem Dev.diagL_sess (d : Dev) (c i : Nat) (u : Nat) : (d.diagL c i).sess u = d.sess u := (rfl)
@[simp] theorem Dev.diagL_cred (d : Dev) (c i : Nat) (u : Nat) : (d.diagL c i).cred u = d.cred u := (rfl)
@[simp] theorem Dev.diagL_img (d : Dev) (c i : Nat) (u : Nat) : (d.diagL c i).img u = d.img u := (rfl)
@[simp] theorem Dev.diagL_lrec (d : Dev) (c i : Nat) (u : Nat) : (d.diagL c i).lrec u = d.lrec u := (rfl)
@[simp] theorem Dev.diagL_lat (d : Dev) (c i : Nat) (u w : Nat) : (d.diagL c i).lat u w = d.lat u w := (rfl)
@[simp] theorem Dev.diagL_byte (d : Dev) (c i : Nat) (u : Nat) : (d.diagL c i).byte u = d.byte u := (rfl)
@[simp] theorem Dev.diagL_freeVal (d : Dev) (c i : Nat) : (d.diagL c i).freeVal = d.freeVal := (rfl)
@[simp] theorem Dev.diagL_routeOf (d : Dev) (c i : Nat) (u : Nat) : (d.diagL c i).routeOf u = d.routeOf u := (rfl)
@[simp] theorem Dev.diagL_mode (d : Dev) (c i : Nat) : (d.diagL c i).mode = d.mode := (rfl)
@[simp] theorem Dev.diagL_ticking (d : Dev) (c i : Nat) : (d.diagL c i).ticking = d.ticking := (rfl)
@[simp] theorem Dev.diagL_inRun (d : Dev) (c i : Nat) (u : Nat) : (d.diagL c i).inRun u = d.inRun u := (rfl)
@[simp] theorem Dev.setIf_timer (d : Dev) (c : Bool) (a : Nat) (f : Fld) (u w : Nat) : (d.setIf c a f).timer u w = d.timer u w := by cases c <;> rfl
@[simp] theorem Dev.setIf_pair (d : Dev) (c : Bool) (a : Nat) (f : Fld) (u w : Nat) : (d.setIf c a f).pair u w = d.pair u w := by cases c <;> rfl
@[simp] theorem Dev.setIf_line (d : Dev) (c : Bool) (a : Nat) (f : Fld) (u w : Nat) : (d.setIf c a f).line u w = d.line u w := by cases c <;> rfl
@[simp] theorem Dev.setIf_chan (d : Dev) (c : Bool) (a : Nat) (f : Fld) (u w : Nat) : (d.setIf c a f).chan u w = d.chan u w := by cases c <;> rfl
@[simp] theorem Dev.setIf_sset (d : Dev) (c : Bool) (a : Nat) (f : Fld) (u : Nat) : (d.setIf c a f).sset u = d.sset u := by cases c <;> rfl
@[simp] theorem Dev.setIf_sdm (d : Dev) (c : Bool) (a : Nat) (f : Fld) (u w : Nat) : (d.setIf c a f).sdm u w = d.sdm u w := by cases c <;> rfl
@[simp] theorem Dev.setIf_sdclk (d : Dev) (c : Bool) (a : Nat) (f : Fld) (u w : Nat) : (d.setIf c a f).sdclk u w = d.sdclk u w := by cases c <;> rfl
@[simp] theorem Dev.setIf_rod (d : Dev) (c : Bool) (a : Nat) (f : Fld) (u : Nat) : (d.setIf c a f).rod u = d.rod u := by cases c <;> rfl
@[simp] theorem Dev.setIf_frame (d : Dev) (c : Bool) (a : Nat) (f : Fld) (u : Nat) : (d.setIf c a f).frame u = d.frame u := by cases c <;> rfl
@[simp] theorem Dev.setIf_trace (d : Dev) (c : Bool) (a : Nat) (f : Fld) (u : Nat) : (d.setIf c a f).trace u = d.trace u := by cases c <;> rfl
@[simp] theorem Dev.setIf_fbk (d : Dev) (c : Bool) (a : Nat) (f : Fld) (u w : Nat) : (d.setIf c a f).fbk u w = d.fbk u w := by cases c <;> rfl
@[simp] theorem Dev.setIf_bead (d : Dev) (c : Bool) (a : Nat) (f : Fld) (u w : Nat) : (d.setIf c a f).bead u w = d.bead u w := by cases c <;> rfl
@[simp] theorem Dev.setIf_cell (d : Dev) (c : Bool) (a : Nat) (f : Fld) (u w : Nat) : (d.setIf c a f).cell u w = d.cell u w := by cases c <;> rfl
@[simp] theorem Dev.setIf_clasp (d : Dev) (c : Bool) (a : Nat) (f : Fld) (u : Nat) : (d.setIf c a f).clasp u = d.clasp u := by cases c <;> rfl
@[simp] theorem Dev.setIf_core (d : Dev) (c : Bool) (a : Nat) (f : Fld) (u : Nat) : (d.setIf c a f).core u = d.core u := by cases c <;> rfl
@[simp] theorem Dev.setIf_ring (d : Dev) (c : Bool) (a : Nat) (f : Fld) (u : Nat) : (d.setIf c a f).ring u = d.ring u := by cases c <;> rfl
@[simp] theorem Dev.setIf_dmach (d : Dev) (c : Bool) (a : Nat) (f : Fld) (u w : Nat) : (d.setIf c a f).dmach u w = d.dmach u w := by cases c <;> rfl
@[simp] theorem Dev.setIf_canc (d : Dev) (c : Bool) (a : Nat) (f : Fld) (u : Nat) : (d.setIf c a f).canc u = d.canc u := by cases c <;> rfl
@[simp] theorem Dev.setIf_sess (d : Dev) (c : Bool) (a : Nat) (f : Fld) (u : Nat) : (d.setIf c a f).sess u = d.sess u := by cases c <;> rfl
@[simp] theorem Dev.setIf_cred (d : Dev) (c : Bool) (a : Nat) (f : Fld) (u : Nat) : (d.setIf c a f).cred u = d.cred u := by cases c <;> rfl
@[simp] theorem Dev.setIf_img (d : Dev) (c : Bool) (a : Nat) (f : Fld) (u : Nat) : (d.setIf c a f).img u = d.img u := by cases c <;> rfl
@[simp] theorem Dev.setIf_lrec (d : Dev) (c : Bool) (a : Nat) (f : Fld) (u : Nat) : (d.setIf c a f).lrec u = d.lrec u := by cases c <;> rfl
@[simp] theorem Dev.setIf_lat (d : Dev) (c : Bool) (a : Nat) (f : Fld) (u w : Nat) : (d.setIf c a f).lat u w = d.lat u w := by cases c <;> rfl
@[simp] theorem Dev.setIf_byte (d : Dev) (c : Bool) (a : Nat) (f : Fld) (u : Nat) : (d.setIf c a f).byte u = d.byte u := by cases c <;> rfl
@[simp] theorem Dev.setIf_dget (d : Dev) (c : Bool) (a : Nat) (f : Fld) (u : Nat) : (d.setIf c a f).dget u = d.dget u := by cases c <;> rfl
@[simp] theorem Dev.setIf_freeVal (d : Dev) (c : Bool) (a : Nat) (f : Fld) : (d.setIf c a f).freeVal = d.freeVal := by cases c <;> rfl
@[simp] theorem Dev.setBit_timer (d : Dev) (a i : Nat) (v : Bool) (u w : Nat) : (d.setBit a i v).timer u w = d.timer u w := by cases v <;> rfl
@[simp] theorem Dev.setBit_pair (d : Dev) (a i : Nat) (v : Bool) (u w : Nat) : (d.setBit a i v).pair u w = d.pair u w := by cases v <;> rfl
@[simp] theorem Dev.setBit_line (d : Dev) (a i : Nat) (v : Bool) (u w : Nat) : (d.setBit a i v).line u w = d.line u w := by cases v <;> rfl
@[simp] theorem Dev.setBit_chan (d : Dev) (a i : Nat) (v : Bool) (u w : Nat) : (d.setBit a i v).chan u w = d.chan u w := by cases v <;> rfl
@[simp] theorem Dev.setBit_sset (d : Dev) (a i : Nat) (v : Bool) (u : Nat) : (d.setBit a i v).sset u = d.sset u := by cases v <;> rfl
@[simp] theorem Dev.setBit_sdm (d : Dev) (a i : Nat) (v : Bool) (u w : Nat) : (d.setBit a i v).sdm u w = d.sdm u w := by cases v <;> rfl
@[simp] theorem Dev.setBit_sdclk (d : Dev) (a i : Nat) (v : Bool) (u w : Nat) : (d.setBit a i v).sdclk u w = d.sdclk u w := by cases v <;> rfl
@[simp] theorem Dev.setBit_rod (d : Dev) (a i : Nat) (v : Bool) (u : Nat) : (d.setBit a i v).rod u = d.rod u := by cases v <;> rfl
@[simp] theorem Dev.setBit_frame (d : Dev) (a i : Nat) (v : Bool) (u : Nat) : (d.setBit a i v).frame u = d.frame u := by cases v <;> rfl
@[simp] theorem Dev.setBit_trace (d : Dev) (a i : Nat) (v : Bool) (u : Nat) : (d.setBit a i v).trace u = d.trace u := by cases v <;> rfl
@[simp] theorem Dev.setBit_fbk (d : Dev) (a i : Nat) (v : Bool) (u w : Nat) : (d.setBit a i v).fbk u w = d.fbk u w := by cases v <;> rfl
@[simp] theorem Dev.setBit_bead (d : Dev) (a i : Nat) (v : Bool) (u w : Nat) : (d.setBit a i v).bead u w = d.bead u w := by cases v <;> rfl
@[simp] theorem Dev.setBit_cell (d : Dev) (a i : Nat) (v : Bool) (u w : Nat) : (d.setBit a i v).cell u w = d.cell u w := by cases v <;> rfl
@[simp] theorem Dev.setBit_clasp (d : Dev) (a i : Nat) (v : Bool) (u : Nat) : (d.setBit a i v).clasp u = d.clasp u := by cases v <;> rfl
@[simp] theorem Dev.setBit_core (d : Dev) (a i : Nat) (v : Bool) (u : Nat) : (d.setBit a i v).core u = d.core u := by cases v <;> rfl
@[simp] theorem Dev.setBit_ring (d : Dev) (a i : Nat) (v : Bool) (u : Nat) : (d.setBit a i v).ring u = d.ring u := by cases v <;> rfl
@[simp] theorem Dev.setBit_dmach (d : Dev) (a i : Nat) (v : Bool) (u w : Nat) : (d.setBit a i v).dmach u w = d.dmach u w := by cases v <;> rfl
@[simp] theorem Dev.setBit_canc (d : Dev) (a i : Nat) (v : Bool) (u : Nat) : (d.setBit a i v).canc u = d.canc u := by cases v <;> rfl
@[simp] theorem Dev.setBit_sess (d : Dev) (a i : Nat) (v : Bool) (u : Nat) : (d.setBit a i v).sess u = d.sess u := by cases v <;> rfl
@[simp] theorem Dev.setBit_cred (d : Dev) (a i : Nat) (v : Bool) (u : Nat) : (d.setBit a i v).cred u = d.cred u := by cases v <;> rfl
@[simp] theorem Dev.setBit_img (d : Dev) (a i : Nat) (v : Bool) (u : Nat) : (d.setBit a i v).img u = d.img u := by cases v <;> rfl
@[simp] theorem Dev.setBit_lrec (d : Dev) (a i : Nat) (v : Bool) (u : Nat) : (d.setBit a i v).lrec u = d.lrec u := by cases v <;> rfl
@[simp] theorem Dev.setBit_lat (d : Dev) (a i : Nat) (v : Bool) (u w : Nat) : (d.setBit a i v).lat u w = d.lat u w := by cases v <;> rfl
@[simp] theorem Dev.setBit_byte (d : Dev) (a i : Nat) (v : Bool) (u : Nat) : (d.setBit a i v).byte u = d.byte u := by cases v <;> rfl
@[simp] theorem Dev.setBit_dget (d : Dev) (a i : Nat) (v : Bool) (u : Nat) : (d.setBit a i v).dget u = d.dget u := by cases v <;> rfl
@[simp] theorem Dev.setBit_freeVal (d : Dev) (a i : Nat) (v : Bool) : (d.setBit a i v).freeVal = d.freeVal := by cases v <;> rfl
@[simp] theorem Dev.raiseIf_timer (d : Dev) (c : Bool) (src p : Nat) (u w : Nat) : (d.raiseIf c src p).timer u w = d.timer u w := by cases c <;> rfl
@[simp] theorem Dev.raiseIf_pair (d : Dev) (c : Bool) (src p : Nat) (u w : Nat) : (d.raiseIf c src p).pair u w = d.pair u w := by cases c <;> rfl
@[simp] theorem Dev.raiseIf_line (d : Dev) (c : Bool) (src p : Nat) (u w : Nat) : (d.raiseIf c src p).line u w = d.line u w := by cases c <;> rfl
@[simp] theorem Dev.raiseIf_chan (d : Dev) (c : Bool) (src p : Nat) (u w : Nat) : (d.raiseIf c src p).chan u w = d.chan u w := by cases c <;> rfl
@[simp] theorem Dev.raiseIf_sset (d : Dev) (c : Bool) (src p : Nat) (u : Nat) : (d.raiseIf c src p).sset u = d.sset u := by cases c <;> rfl
@[simp] theorem Dev.raiseIf_sdm (d : Dev) (c : Bool) (src p : Nat) (u w : Nat) : (d.raiseIf c src p).sdm u w = d.sdm u w := by cases c <;> rfl
@[simp] theorem Dev.raiseIf_sdclk (d : Dev) (c : Bool) (src p : Nat) (u w : Nat) : (d.raiseIf c src p).sdclk u w = d.sdclk u w := by cases c <;> rfl
@[simp] theorem Dev.raiseIf_rod (d : Dev) (c : Bool) (src p : Nat) (u : Nat) : (d.raiseIf c src p).rod u = d.rod u := by cases c <;> rfl
@[simp] theorem Dev.raiseIf_frame (d : Dev) (c : Bool) (src p : Nat) (u : Nat) : (d.raiseIf c src p).frame u = d.frame u := by cases c <;> rfl
@[simp] theorem Dev.raiseIf_trace (d : Dev) (c : Bool) (src p : Nat) (u : Nat) : (d.raiseIf c src p).trace u = d.trace u := by cases c <;> rfl
@[simp] theorem Dev.raiseIf_fbk (d : Dev) (c : Bool) (src p : Nat) (u w : Nat) : (d.raiseIf c src p).fbk u w = d.fbk u w := by cases c <;> rfl
@[simp] theorem Dev.raiseIf_bead (d : Dev) (c : Bool) (src p : Nat) (u w : Nat) : (d.raiseIf c src p).bead u w = d.bead u w := by cases c <;> rfl
@[simp] theorem Dev.raiseIf_cell (d : Dev) (c : Bool) (src p : Nat) (u w : Nat) : (d.raiseIf c src p).cell u w = d.cell u w := by cases c <;> rfl
@[simp] theorem Dev.raiseIf_clasp (d : Dev) (c : Bool) (src p : Nat) (u : Nat) : (d.raiseIf c src p).clasp u = d.clasp u := by cases c <;> rfl
@[simp] theorem Dev.raiseIf_core (d : Dev) (c : Bool) (src p : Nat) (u : Nat) : (d.raiseIf c src p).core u = d.core u := by cases c <;> rfl
@[simp] theorem Dev.raiseIf_ring (d : Dev) (c : Bool) (src p : Nat) (u : Nat) : (d.raiseIf c src p).ring u = d.ring u := by cases c <;> rfl
@[simp] theorem Dev.raiseIf_dmach (d : Dev) (c : Bool) (src p : Nat) (u w : Nat) : (d.raiseIf c src p).dmach u w = d.dmach u w := by cases c <;> rfl
@[simp] theorem Dev.raiseIf_canc (d : Dev) (c : Bool) (src p : Nat) (u : Nat) : (d.raiseIf c src p).canc u = d.canc u := by cases c <;> rfl
@[simp] theorem Dev.raiseIf_sess (d : Dev) (c : Bool) (src p : Nat) (u : Nat) : (d.raiseIf c src p).sess u = d.sess u := by cases c <;> rfl
@[simp] theorem Dev.raiseIf_cred (d : Dev) (c : Bool) (src p : Nat) (u : Nat) : (d.raiseIf c src p).cred u = d.cred u := by cases c <;> rfl
@[simp] theorem Dev.raiseIf_img (d : Dev) (c : Bool) (src p : Nat) (u : Nat) : (d.raiseIf c src p).img u = d.img u := by cases c <;> rfl
@[simp] theorem Dev.raiseIf_lrec (d : Dev) (c : Bool) (src p : Nat) (u : Nat) : (d.raiseIf c src p).lrec u = d.lrec u := by cases c <;> rfl
@[simp] theorem Dev.raiseIf_lat (d : Dev) (c : Bool) (src p : Nat) (u w : Nat) : (d.raiseIf c src p).lat u w = d.lat u w := by cases c <;> rfl
@[simp] theorem Dev.raiseIf_byte (d : Dev) (c : Bool) (src p : Nat) (u : Nat) : (d.raiseIf c src p).byte u = d.byte u := by cases c <;> rfl
@[simp] theorem Dev.raiseIf_dget (d : Dev) (c : Bool) (src p : Nat) (u : Nat) : (d.raiseIf c src p).dget u = d.dget u := by cases c <;> rfl
@[simp] theorem Dev.raiseIf_freeVal (d : Dev) (c : Bool) (src p : Nat) : (d.raiseIf c src p).freeVal = d.freeVal := by cases c <;> rfl
@[simp] theorem Dev.raiseIf_routeOf (d : Dev) (c : Bool) (src p : Nat) (u : Nat) : (d.raiseIf c src p).routeOf u = d.routeOf u := by cases c <;> rfl
@[simp] theorem Dev.raiseIf_mode (d : Dev) (c : Bool) (src p : Nat) : (d.raiseIf c src p).mode = d.mode := by cases c <;> rfl
@[simp] theorem Dev.raiseIf_ticking (d : Dev) (c : Bool) (src p : Nat) : (d.raiseIf c src p).ticking = d.ticking := by cases c <;> rfl
@[simp] theorem Dev.raiseIf_inRun (d : Dev) (c : Bool) (src p : Nat) (u : Nat) : (d.raiseIf c src p).inRun u = d.inRun u := by cases c <;> rfl
@[simp] theorem Dev.fireAt_timer (d : Dev) (isl code origin : Nat) (u w : Nat) : (d.fireAt isl code origin).timer u w = d.timer u w := by unfold Dev.fireAt; split <;> rfl
@[simp] theorem Dev.fireAt_pair (d : Dev) (isl code origin : Nat) (u w : Nat) : (d.fireAt isl code origin).pair u w = d.pair u w := by unfold Dev.fireAt; split <;> rfl
@[simp] theorem Dev.fireAt_line (d : Dev) (isl code origin : Nat) (u w : Nat) : (d.fireAt isl code origin).line u w = d.line u w := by unfold Dev.fireAt; split <;> rfl
@[simp] theorem Dev.fireAt_chan (d : Dev) (isl code origin : Nat) (u w : Nat) : (d.fireAt isl code origin).chan u w = d.chan u w := by unfold Dev.fireAt; split <;> rfl
@[simp] theorem Dev.fireAt_sset (d : Dev) (isl code origin : Nat) (u : Nat) : (d.fireAt isl code origin).sset u = d.sset u := by unfold Dev.fireAt; split <;> rfl
@[simp] theorem Dev.fireAt_sdm (d : Dev) (isl code origin : Nat) (u w : Nat) : (d.fireAt isl code origin).sdm u w = d.sdm u w := by unfold Dev.fireAt; split <;> rfl
@[simp] theorem Dev.fireAt_sdclk (d : Dev) (isl code origin : Nat) (u w : Nat) : (d.fireAt isl code origin).sdclk u w = d.sdclk u w := by unfold Dev.fireAt; split <;> rfl
@[simp] theorem Dev.fireAt_rod (d : Dev) (isl code origin : Nat) (u : Nat) : (d.fireAt isl code origin).rod u = d.rod u := by unfold Dev.fireAt; split <;> rfl
@[simp] theorem Dev.fireAt_frame (d : Dev) (isl code origin : Nat) (u : Nat) : (d.fireAt isl code origin).frame u = d.frame u := by unfold Dev.fireAt; split <;> rfl
@[simp] theorem Dev.fireAt_trace (d : Dev) (isl code origin : Nat) (u : Nat) : (d.fireAt isl code origin).trace u = d.trace u := by unfold Dev.fireAt; split <;> rfl
@[simp] theorem Dev.fireAt_fbk (d : Dev) (isl code origin : Nat) (u w : Nat) : (d.fireAt isl code origin).fbk u w = d.fbk u w := by unfold Dev.fireAt; split <;> rfl
@[simp] theorem Dev.fireAt_bead (d : Dev) (isl code origin : Nat) (u w : Nat) : (d.fireAt isl code origin).bead u w = d.bead u w := by unfold Dev.fireAt; split <;> rfl
@[simp] theorem Dev.fireAt_cell (d : Dev) (isl code origin : Nat) (u w : Nat) : (d.fireAt isl code origin).cell u w = d.cell u w := by unfold Dev.fireAt; split <;> rfl
@[simp] theorem Dev.fireAt_clasp (d : Dev) (isl code origin : Nat) (u : Nat) : (d.fireAt isl code origin).clasp u = d.clasp u := by unfold Dev.fireAt; split <;> rfl
@[simp] theorem Dev.fireAt_core (d : Dev) (isl code origin : Nat) (u : Nat) : (d.fireAt isl code origin).core u = d.core u := by unfold Dev.fireAt; split <;> rfl
@[simp] theorem Dev.fireAt_ring (d : Dev) (isl code origin : Nat) (u : Nat) : (d.fireAt isl code origin).ring u = d.ring u := by unfold Dev.fireAt; split <;> rfl
@[simp] theorem Dev.fireAt_dmach (d : Dev) (isl code origin : Nat) (u w : Nat) : (d.fireAt isl code origin).dmach u w = d.dmach u w := by unfold Dev.fireAt; split <;> rfl
@[simp] theorem Dev.fireAt_canc (d : Dev) (isl code origin : Nat) (u : Nat) : (d.fireAt isl code origin).canc u = d.canc u := by unfold Dev.fireAt; split <;> rfl
@[simp] theorem Dev.fireAt_sess (d : Dev) (isl code origin : Nat) (u : Nat) : (d.fireAt isl code origin).sess u = d.sess u := by unfold Dev.fireAt; split <;> rfl
@[simp] theorem Dev.fireAt_cred (d : Dev) (isl code origin : Nat) (u : Nat) : (d.fireAt isl code origin).cred u = d.cred u := by unfold Dev.fireAt; split <;> rfl
@[simp] theorem Dev.fireAt_img (d : Dev) (isl code origin : Nat) (u : Nat) : (d.fireAt isl code origin).img u = d.img u := by unfold Dev.fireAt; split <;> rfl
@[simp] theorem Dev.fireAt_lrec (d : Dev) (isl code origin : Nat) (u : Nat) : (d.fireAt isl code origin).lrec u = d.lrec u := by unfold Dev.fireAt; split <;> rfl
@[simp] theorem Dev.fireAt_lat (d : Dev) (isl code origin : Nat) (u w : Nat) : (d.fireAt isl code origin).lat u w = d.lat u w := by unfold Dev.fireAt; split <;> rfl
@[simp] theorem Dev.fireAt_byte (d : Dev) (isl code origin : Nat) (u : Nat) : (d.fireAt isl code origin).byte u = d.byte u := by unfold Dev.fireAt; split <;> rfl
@[simp] theorem Dev.fireAt_dget (d : Dev) (isl code origin : Nat) (u : Nat) : (d.fireAt isl code origin).dget u = d.dget u := by unfold Dev.fireAt; split <;> rfl
@[simp] theorem Dev.fireAt_freeVal (d : Dev) (isl code origin : Nat) : (d.fireAt isl code origin).freeVal = d.freeVal := by unfold Dev.fireAt; split <;> rfl
@[simp] theorem Dev.fireAt_routeOf (d : Dev) (isl code origin : Nat) (u : Nat) : (d.fireAt isl code origin).routeOf u = d.routeOf u := by unfold Dev.fireAt; split <;> rfl
@[simp] theorem Dev.fireAt_mode (d : Dev) (isl code origin : Nat) : (d.fireAt isl code origin).mode = d.mode := by unfold Dev.fireAt; split <;> rfl
@[simp] theorem Dev.fireAt_ticking (d : Dev) (isl code origin : Nat) : (d.fireAt isl code origin).ticking = d.ticking := by unfold Dev.fireAt; split <;> rfl
@[simp] theorem Dev.fireAt_inRun (d : Dev) (isl code origin : Nat) (u : Nat) : (d.fireAt isl code origin).inRun u = d.inRun u := by unfold Dev.fireAt; split <;> rfl
@[simp] theorem Dev.fire_timer (d : Dev) (isl code : Nat) (u w : Nat) : (d.fire isl code).timer u w = d.timer u w := by unfold Dev.fire Dev.fireAt; split <;> rfl
@[simp] theorem Dev.fire_pair (d : Dev) (isl code : Nat) (u w : Nat) : (d.fire isl code).pair u w = d.pair u w := by unfold Dev.fire Dev.fireAt; split <;> rfl
@[simp] theorem Dev.fire_line (d : Dev) (isl code : Nat) (u w : Nat) : (d.fire isl code).line u w = d.line u w := by unfold Dev.fire Dev.fireAt; split <;> rfl
@[simp] theorem Dev.fire_chan (d : Dev) (isl code : Nat) (u w : Nat) : (d.fire isl code).chan u w = d.chan u w := by unfold Dev.fire Dev.fireAt; split <;> rfl
@[simp] theorem Dev.fire_sset (d : Dev) (isl code : Nat) (u : Nat) : (d.fire isl code).sset u = d.sset u := by unfold Dev.fire Dev.fireAt; split <;> rfl
@[simp] theorem Dev.fire_sdm (d : Dev) (isl code : Nat) (u w : Nat) : (d.fire isl code).sdm u w = d.sdm u w := by unfold Dev.fire Dev.fireAt; split <;> rfl
@[simp] theorem Dev.fire_sdclk (d : Dev) (isl code : Nat) (u w : Nat) : (d.fire isl code).sdclk u w = d.sdclk u w := by unfold Dev.fire Dev.fireAt; split <;> rfl
@[simp] theorem Dev.fire_rod (d : Dev) (isl code : Nat) (u : Nat) : (d.fire isl code).rod u = d.rod u := by unfold Dev.fire Dev.fireAt; split <;> rfl
@[simp] theorem Dev.fire_frame (d : Dev) (isl code : Nat) (u : Nat) : (d.fire isl code).frame u = d.frame u := by unfold Dev.fire Dev.fireAt; split <;> rfl
@[simp] theorem Dev.fire_trace (d : Dev) (isl code : Nat) (u : Nat) : (d.fire isl code).trace u = d.trace u := by unfold Dev.fire Dev.fireAt; split <;> rfl
@[simp] theorem Dev.fire_fbk (d : Dev) (isl code : Nat) (u w : Nat) : (d.fire isl code).fbk u w = d.fbk u w := by unfold Dev.fire Dev.fireAt; split <;> rfl
@[simp] theorem Dev.fire_bead (d : Dev) (isl code : Nat) (u w : Nat) : (d.fire isl code).bead u w = d.bead u w := by unfold Dev.fire Dev.fireAt; split <;> rfl
@[simp] theorem Dev.fire_cell (d : Dev) (isl code : Nat) (u w : Nat) : (d.fire isl code).cell u w = d.cell u w := by unfold Dev.fire Dev.fireAt; split <;> rfl
@[simp] theorem Dev.fire_clasp (d : Dev) (isl code : Nat) (u : Nat) : (d.fire isl code).clasp u = d.clasp u := by unfold Dev.fire Dev.fireAt; split <;> rfl
@[simp] theorem Dev.fire_core (d : Dev) (isl code : Nat) (u : Nat) : (d.fire isl code).core u = d.core u := by unfold Dev.fire Dev.fireAt; split <;> rfl
@[simp] theorem Dev.fire_ring (d : Dev) (isl code : Nat) (u : Nat) : (d.fire isl code).ring u = d.ring u := by unfold Dev.fire Dev.fireAt; split <;> rfl
@[simp] theorem Dev.fire_dmach (d : Dev) (isl code : Nat) (u w : Nat) : (d.fire isl code).dmach u w = d.dmach u w := by unfold Dev.fire Dev.fireAt; split <;> rfl
@[simp] theorem Dev.fire_canc (d : Dev) (isl code : Nat) (u : Nat) : (d.fire isl code).canc u = d.canc u := by unfold Dev.fire Dev.fireAt; split <;> rfl
@[simp] theorem Dev.fire_sess (d : Dev) (isl code : Nat) (u : Nat) : (d.fire isl code).sess u = d.sess u := by unfold Dev.fire Dev.fireAt; split <;> rfl
@[simp] theorem Dev.fire_cred (d : Dev) (isl code : Nat) (u : Nat) : (d.fire isl code).cred u = d.cred u := by unfold Dev.fire Dev.fireAt; split <;> rfl
@[simp] theorem Dev.fire_img (d : Dev) (isl code : Nat) (u : Nat) : (d.fire isl code).img u = d.img u := by unfold Dev.fire Dev.fireAt; split <;> rfl
@[simp] theorem Dev.fire_lrec (d : Dev) (isl code : Nat) (u : Nat) : (d.fire isl code).lrec u = d.lrec u := by unfold Dev.fire Dev.fireAt; split <;> rfl
@[simp] theorem Dev.fire_lat (d : Dev) (isl code : Nat) (u w : Nat) : (d.fire isl code).lat u w = d.lat u w := by unfold Dev.fire Dev.fireAt; split <;> rfl
@[simp] theorem Dev.fire_byte (d : Dev) (isl code : Nat) (u : Nat) : (d.fire isl code).byte u = d.byte u := by unfold Dev.fire Dev.fireAt; split <;> rfl
@[simp] theorem Dev.fire_dget (d : Dev) (isl code : Nat) (u : Nat) : (d.fire isl code).dget u = d.dget u := by unfold Dev.fire Dev.fireAt; split <;> rfl
@[simp] theorem Dev.fire_freeVal (d : Dev) (isl code : Nat) : (d.fire isl code).freeVal = d.freeVal := by unfold Dev.fire Dev.fireAt; split <;> rfl
@[simp] theorem Dev.fire_routeOf (d : Dev) (isl code : Nat) (u : Nat) : (d.fire isl code).routeOf u = d.routeOf u := by unfold Dev.fire Dev.fireAt; split <;> rfl
@[simp] theorem Dev.fire_mode (d : Dev) (isl code : Nat) : (d.fire isl code).mode = d.mode := by unfold Dev.fire Dev.fireAt; split <;> rfl
@[simp] theorem Dev.fire_ticking (d : Dev) (isl code : Nat) : (d.fire isl code).ticking = d.ticking := by unfold Dev.fire Dev.fireAt; split <;> rfl
@[simp] theorem Dev.fire_inRun (d : Dev) (isl code : Nat) (u : Nat) : (d.fire isl code).inRun u = d.inRun u := by unfold Dev.fire Dev.fireAt; split <;> rfl

/-! ### Registers under updates of other fields -/

@[simp] theorem Dev.mark_r (d : Dev) (a m : Nat) (z : Nat) : (d.mark a m).r z = d.r z := (rfl)
@[simp] theorem Dev.mark_f (d : Dev) (a m : Nat) (z : Nat) (g : Fld) : (d.mark a m).f z g = d.f z g := (rfl)
@[simp] theorem Dev.mark_b (d : Dev) (a m : Nat) (z : Nat) (g : Fld) : (d.mark a m).b z g = d.b z g := (rfl)
@[simp] theorem Dev.setTimer_r (d : Dev) (n t : Nat) (x : TimerH) (z : Nat) : (d.setTimer n t x).r z = d.r z := (rfl)
@[simp] theorem Dev.setTimer_f (d : Dev) (n t : Nat) (x : TimerH) (z : Nat) (g : Fld) : (d.setTimer n t x).f z g = d.f z g := (rfl)
@[simp] theorem Dev.setTimer_b (d : Dev) (n t : Nat) (x : TimerH) (z : Nat) (g : Fld) : (d.setTimer n t x).b z g = d.b z g := (rfl)
@[simp] theorem Dev.setPair_r (d : Dev) (n p : Nat) (x : PairH) (z : Nat) : (d.setPair n p x).r z = d.r z := (rfl)
@[simp] theorem Dev.setPair_f (d : Dev) (n p : Nat) (x : PairH) (z : Nat) (g : Fld) : (d.setPair n p x).f z g = d.f z g := (rfl)
@[simp] theorem Dev.setPair_b (d : Dev) (n p : Nat) (x : PairH) (z : Nat) (g : Fld) : (d.setPair n p x).b z g = d.b z g := (rfl)
@[simp] theorem Dev.setLine_r (d : Dev) (n l : Nat) (x : LineH) (z : Nat) : (d.setLine n l x).r z = d.r z := (rfl)
@[simp] theorem Dev.setLine_f (d : Dev) (n l : Nat) (x : LineH) (z : Nat) (g : Fld) : (d.setLine n l x).f z g = d.f z g := (rfl)
@[simp] theorem Dev.setLine_b (d : Dev) (n l : Nat) (x : LineH) (z : Nat) (g : Fld) : (d.setLine n l x).b z g = d.b z g := (rfl)
@[simp] theorem Dev.setChan_r (d : Dev) (n c : Nat) (x : ChanH) (z : Nat) : (d.setChan n c x).r z = d.r z := (rfl)
@[simp] theorem Dev.setChan_f (d : Dev) (n c : Nat) (x : ChanH) (z : Nat) (g : Fld) : (d.setChan n c x).f z g = d.f z g := (rfl)
@[simp] theorem Dev.setChan_b (d : Dev) (n c : Nat) (x : ChanH) (z : Nat) (g : Fld) : (d.setChan n c x).b z g = d.b z g := (rfl)
@[simp] theorem Dev.setSset_r (d : Dev) (n : Nat) (x : SetH) (z : Nat) : (d.setSset n x).r z = d.r z := (rfl)
@[simp] theorem Dev.setSset_f (d : Dev) (n : Nat) (x : SetH) (z : Nat) (g : Fld) : (d.setSset n x).f z g = d.f z g := (rfl)
@[simp] theorem Dev.setSset_b (d : Dev) (n : Nat) (x : SetH) (z : Nat) (g : Fld) : (d.setSset n x).b z g = d.b z g := (rfl)
@[simp] theorem Dev.setSdm_r (d : Dev) (n j : Nat) (x : SdmH) (z : Nat) : (d.setSdm n j x).r z = d.r z := (rfl)
@[simp] theorem Dev.setSdm_f (d : Dev) (n j : Nat) (x : SdmH) (z : Nat) (g : Fld) : (d.setSdm n j x).f z g = d.f z g := (rfl)
@[simp] theorem Dev.setSdm_b (d : Dev) (n j : Nat) (x : SdmH) (z : Nat) (g : Fld) : (d.setSdm n j x).b z g = d.b z g := (rfl)
@[simp] theorem Dev.setSdclk_r (d : Dev) (n k : Nat) (x : SdClkH) (z : Nat) : (d.setSdclk n k x).r z = d.r z := (rfl)
@[simp] theorem Dev.setSdclk_f (d : Dev) (n k : Nat) (x : SdClkH) (z : Nat) (g : Fld) : (d.setSdclk n k x).f z g = d.f z g := (rfl)
@[simp] theorem Dev.setSdclk_b (d : Dev) (n k : Nat) (x : SdClkH) (z : Nat) (g : Fld) : (d.setSdclk n k x).b z g = d.b z g := (rfl)
@[simp] theorem Dev.setRod_r (d : Dev) (r : Nat) (x : RodH) (z : Nat) : (d.setRod r x).r z = d.r z := (rfl)
@[simp] theorem Dev.setRod_f (d : Dev) (r : Nat) (x : RodH) (z : Nat) (g : Fld) : (d.setRod r x).f z g = d.f z g := (rfl)
@[simp] theorem Dev.setRod_b (d : Dev) (r : Nat) (x : RodH) (z : Nat) (g : Fld) : (d.setRod r x).b z g = d.b z g := (rfl)
@[simp] theorem Dev.setFrame_r (d : Dev) (n : Nat) (x : FrameH) (z : Nat) : (d.setFrame n x).r z = d.r z := (rfl)
@[simp] theorem Dev.setFrame_f (d : Dev) (n : Nat) (x : FrameH) (z : Nat) (g : Fld) : (d.setFrame n x).f z g = d.f z g := (rfl)
@[simp] theorem Dev.setFrame_b (d : Dev) (n : Nat) (x : FrameH) (z : Nat) (g : Fld) : (d.setFrame n x).b z g = d.b z g := (rfl)
@[simp] theorem Dev.setTrace_r (d : Dev) (n : Nat) (x : TraceH) (z : Nat) : (d.setTrace n x).r z = d.r z := (rfl)
@[simp] theorem Dev.setTrace_f (d : Dev) (n : Nat) (x : TraceH) (z : Nat) (g : Fld) : (d.setTrace n x).f z g = d.f z g := (rfl)
@[simp] theorem Dev.setTrace_b (d : Dev) (n : Nat) (x : TraceH) (z : Nat) (g : Fld) : (d.setTrace n x).b z g = d.b z g := (rfl)
@[simp] theorem Dev.setFbk_r (d : Dev) (n k : Nat) (x : FbkH) (z : Nat) : (d.setFbk n k x).r z = d.r z := (rfl)
@[simp] theorem Dev.setFbk_f (d : Dev) (n k : Nat) (x : FbkH) (z : Nat) (g : Fld) : (d.setFbk n k x).f z g = d.f z g := (rfl)
@[simp] theorem Dev.setFbk_b (d : Dev) (n k : Nat) (x : FbkH) (z : Nat) (g : Fld) : (d.setFbk n k x).b z g = d.b z g := (rfl)
@[simp] theorem Dev.setBead_r (d : Dev) (n e : Nat) (x : BeadH) (z : Nat) : (d.setBead n e x).r z = d.r z := (rfl)
@[simp] theorem Dev.setBead_f (d : Dev) (n e : Nat) (x : BeadH) (z : Nat) (g : Fld) : (d.setBead n e x).f z g = d.f z g := (rfl)
@[simp] theorem Dev.setBead_b (d : Dev) (n e : Nat) (x : BeadH) (z : Nat) (g : Fld) : (d.setBead n e x).b z g = d.b z g := (rfl)
@[simp] theorem Dev.setCell_r (d : Dev) (n i : Nat) (x : CellH) (z : Nat) : (d.setCell n i x).r z = d.r z := (rfl)
@[simp] theorem Dev.setCell_f (d : Dev) (n i : Nat) (x : CellH) (z : Nat) (g : Fld) : (d.setCell n i x).f z g = d.f z g := (rfl)
@[simp] theorem Dev.setCell_b (d : Dev) (n i : Nat) (x : CellH) (z : Nat) (g : Fld) : (d.setCell n i x).b z g = d.b z g := (rfl)
@[simp] theorem Dev.setClasp_r (d : Dev) (c : Nat) (x : ClaspH) (z : Nat) : (d.setClasp c x).r z = d.r z := (rfl)
@[simp] theorem Dev.setClasp_f (d : Dev) (c : Nat) (x : ClaspH) (z : Nat) (g : Fld) : (d.setClasp c x).f z g = d.f z g := (rfl)
@[simp] theorem Dev.setClasp_b (d : Dev) (c : Nat) (x : ClaspH) (z : Nat) (g : Fld) : (d.setClasp c x).b z g = d.b z g := (rfl)
@[simp] theorem Dev.setCore_r (d : Dev) (c : Nat) (x : CoreH) (z : Nat) : (d.setCore c x).r z = d.r z := (rfl)
@[simp] theorem Dev.setCore_f (d : Dev) (c : Nat) (x : CoreH) (z : Nat) (g : Fld) : (d.setCore c x).f z g = d.f z g := (rfl)
@[simp] theorem Dev.setCore_b (d : Dev) (c : Nat) (x : CoreH) (z : Nat) (g : Fld) : (d.setCore c x).b z g = d.b z g := (rfl)
@[simp] theorem Dev.setRing_r (d : Dev) (c : Nat) (x : RingH) (z : Nat) : (d.setRing c x).r z = d.r z := (rfl)
@[simp] theorem Dev.setRing_f (d : Dev) (c : Nat) (x : RingH) (z : Nat) (g : Fld) : (d.setRing c x).f z g = d.f z g := (rfl)
@[simp] theorem Dev.setRing_b (d : Dev) (c : Nat) (x : RingH) (z : Nat) (g : Fld) : (d.setRing c x).b z g = d.b z g := (rfl)
@[simp] theorem Dev.setDmach_r (d : Dev) (e c : Nat) (x : DmaH) (z : Nat) : (d.setDmach e c x).r z = d.r z := (rfl)
@[simp] theorem Dev.setDmach_f (d : Dev) (e c : Nat) (x : DmaH) (z : Nat) (g : Fld) : (d.setDmach e c x).f z g = d.f z g := (rfl)
@[simp] theorem Dev.setDmach_b (d : Dev) (e c : Nat) (x : DmaH) (z : Nat) (g : Fld) : (d.setDmach e c x).b z g = d.b z g := (rfl)
@[simp] theorem Dev.setCanc_r (d : Dev) (c : Nat) (x : CanH) (z : Nat) : (d.setCanc c x).r z = d.r z := (rfl)
@[simp] theorem Dev.setCanc_f (d : Dev) (c : Nat) (x : CanH) (z : Nat) (g : Fld) : (d.setCanc c x).f z g = d.f z g := (rfl)
@[simp] theorem Dev.setCanc_b (d : Dev) (c : Nat) (x : CanH) (z : Nat) (g : Fld) : (d.setCanc c x).b z g = d.b z g := (rfl)
@[simp] theorem Dev.setSess_r (d : Dev) (i : Nat) (x : Sess) (z : Nat) : (d.setSess i x).r z = d.r z := (rfl)
@[simp] theorem Dev.setSess_f (d : Dev) (i : Nat) (x : Sess) (z : Nat) (g : Fld) : (d.setSess i x).f z g = d.f z g := (rfl)
@[simp] theorem Dev.setSess_b (d : Dev) (i : Nat) (x : Sess) (z : Nat) (g : Fld) : (d.setSess i x).b z g = d.b z g := (rfl)
@[simp] theorem Dev.setCred_r (d : Dev) (i : Nat) (x : Cred) (z : Nat) : (d.setCred i x).r z = d.r z := (rfl)
@[simp] theorem Dev.setCred_f (d : Dev) (i : Nat) (x : Cred) (z : Nat) (g : Fld) : (d.setCred i x).f z g = d.f z g := (rfl)
@[simp] theorem Dev.setCred_b (d : Dev) (i : Nat) (x : Cred) (z : Nat) (g : Fld) : (d.setCred i x).b z g = d.b z g := (rfl)
@[simp] theorem Dev.setImg_r (d : Dev) (i : Nat) (x : Img) (z : Nat) : (d.setImg i x).r z = d.r z := (rfl)
@[simp] theorem Dev.setImg_f (d : Dev) (i : Nat) (x : Img) (z : Nat) (g : Fld) : (d.setImg i x).f z g = d.f z g := (rfl)
@[simp] theorem Dev.setImg_b (d : Dev) (i : Nat) (x : Img) (z : Nat) (g : Fld) : (d.setImg i x).b z g = d.b z g := (rfl)
@[simp] theorem Dev.setLrec_r (d : Dev) (r : Nat) (x : LRec) (z : Nat) : (d.setLrec r x).r z = d.r z := (rfl)
@[simp] theorem Dev.setLrec_f (d : Dev) (r : Nat) (x : LRec) (z : Nat) (g : Fld) : (d.setLrec r x).f z g = d.f z g := (rfl)
@[simp] theorem Dev.setLrec_b (d : Dev) (r : Nat) (x : LRec) (z : Nat) (g : Fld) : (d.setLrec r x).b z g = d.b z g := (rfl)
@[simp] theorem Dev.setLat_r (d : Dev) (k q v : Nat) (z : Nat) : (d.setLat k q v).r z = d.r z := (rfl)
@[simp] theorem Dev.setLat_f (d : Dev) (k q v : Nat) (z : Nat) (g : Fld) : (d.setLat k q v).f z g = d.f z g := (rfl)
@[simp] theorem Dev.setLat_b (d : Dev) (k q v : Nat) (z : Nat) (g : Fld) : (d.setLat k q v).b z g = d.b z g := (rfl)
@[simp] theorem Dev.freeNext_r (d : Dev) (z : Nat) : (d.freeNext).r z = d.r z := (rfl)
@[simp] theorem Dev.freeNext_f (d : Dev) (z : Nat) (g : Fld) : (d.freeNext).f z g = d.f z g := (rfl)
@[simp] theorem Dev.freeNext_b (d : Dev) (z : Nat) (g : Fld) : (d.freeNext).b z g = d.b z g := (rfl)
@[simp] theorem Dev.resp_r (d : Dev) (q : Nat) (v : Word) (e : BErr) (z : Nat) : (d.resp q v e).r z = d.r z := (rfl)
@[simp] theorem Dev.resp_f (d : Dev) (q : Nat) (v : Word) (e : BErr) (z : Nat) (g : Fld) : (d.resp q v e).f z g = d.f z g := (rfl)
@[simp] theorem Dev.resp_b (d : Dev) (q : Nat) (v : Word) (e : BErr) (z : Nat) (g : Fld) : (d.resp q v e).b z g = d.b z g := (rfl)
@[simp] theorem Dev.putByte_r (d : Dev) (a : Nat) (v : Byte) (z : Nat) : (d.putByte a v).r z = d.r z := (rfl)
@[simp] theorem Dev.putByte_f (d : Dev) (a : Nat) (v : Byte) (z : Nat) (g : Fld) : (d.putByte a v).f z g = d.f z g := (rfl)
@[simp] theorem Dev.putByte_b (d : Dev) (a : Nat) (v : Byte) (z : Nat) (g : Fld) : (d.putByte a v).b z g = d.b z g := (rfl)
@[simp] theorem Dev.clearMem_r (d : Dev) (lo hi : Nat) (z : Nat) : (d.clearMem lo hi).r z = d.r z := (rfl)
@[simp] theorem Dev.clearMem_f (d : Dev) (lo hi : Nat) (z : Nat) (g : Fld) : (d.clearMem lo hi).f z g = d.f z g := (rfl)
@[simp] theorem Dev.clearMem_b (d : Dev) (lo hi : Nat) (z : Nat) (g : Fld) : (d.clearMem lo hi).b z g = d.b z g := (rfl)
@[simp] theorem Dev.pushShadow_r (d : Dev) (a mask v tick : Nat) (z : Nat) : (d.pushShadow a mask v tick).r z = d.r z := (rfl)
@[simp] theorem Dev.pushShadow_f (d : Dev) (a mask v tick : Nat) (z : Nat) (g : Fld) : (d.pushShadow a mask v tick).f z g = d.f z g := (rfl)
@[simp] theorem Dev.pushShadow_b (d : Dev) (a mask v tick : Nat) (z : Nat) (g : Fld) : (d.pushShadow a mask v tick).b z g = d.b z g := (rfl)
@[simp] theorem Dev.dropShadow_r (d : Dev) (sel : Shadow → Bool) (z : Nat) : (d.dropShadow sel).r z = d.r z := (rfl)
@[simp] theorem Dev.dropShadow_f (d : Dev) (sel : Shadow → Bool) (z : Nat) (g : Fld) : (d.dropShadow sel).f z g = d.f z g := (rfl)
@[simp] theorem Dev.dropShadow_b (d : Dev) (sel : Shadow → Bool) (z : Nat) (g : Fld) : (d.dropShadow sel).b z g = d.b z g := (rfl)
@[simp] theorem Dev.at_r (d : Dev) (t : Nat) (c : Instr) (z : Nat) : (d.at_ t c).r z = d.r z := (rfl)
@[simp] theorem Dev.at_f (d : Dev) (t : Nat) (c : Instr) (z : Nat) (g : Fld) : (d.at_ t c).f z g = d.f z g := (rfl)
@[simp] theorem Dev.at_b (d : Dev) (t : Nat) (c : Instr) (z : Nat) (g : Fld) : (d.at_ t c).b z g = d.b z g := (rfl)
@[simp] theorem Dev.cancel_r (d : Dev) (c : Instr) (z : Nat) : (d.cancel c).r z = d.r z := (rfl)
@[simp] theorem Dev.cancel_f (d : Dev) (c : Instr) (z : Nat) (g : Fld) : (d.cancel c).f z g = d.f z g := (rfl)
@[simp] theorem Dev.cancel_b (d : Dev) (c : Instr) (z : Nat) (g : Fld) : (d.cancel c).b z g = d.b z g := (rfl)
@[simp] theorem Dev.raiseAt_r (d : Dev) (src p ts : Nat) (z : Nat) : (d.raiseAt src p ts).r z = d.r z := (rfl)
@[simp] theorem Dev.raiseAt_f (d : Dev) (src p ts : Nat) (z : Nat) (g : Fld) : (d.raiseAt src p ts).f z g = d.f z g := (rfl)
@[simp] theorem Dev.raiseAt_b (d : Dev) (src p ts : Nat) (z : Nat) (g : Fld) : (d.raiseAt src p ts).b z g = d.b z g := (rfl)
@[simp] theorem Dev.raise_r (d : Dev) (src p : Nat) (z : Nat) : (d.raise src p).r z = d.r z := (rfl)
@[simp] theorem Dev.raise_f (d : Dev) (src p : Nat) (z : Nat) (g : Fld) : (d.raise src p).f z g = d.f z g := (rfl)
@[simp] theorem Dev.raise_b (d : Dev) (src p : Nat) (z : Nat) (g : Fld) : (d.raise src p).b z g = d.b z g := (rfl)
@[simp] theorem Dev.gateNote_r (d : Dev) (key : Nat) (z : Nat) : (d.gateNote key).r z = d.r z := (rfl)
@[simp] theorem Dev.gateNote_f (d : Dev) (key : Nat) (z : Nat) (g : Fld) : (d.gateNote key).f z g = d.f z g := (rfl)
@[simp] theorem Dev.gateNote_b (d : Dev) (key : Nat) (z : Nat) (g : Fld) : (d.gateNote key).b z g = d.b z g := (rfl)
@[simp] theorem Dev.dset_r (d : Dev) (k v : Nat) (z : Nat) : (d.dset k v).r z = d.r z := (rfl)
@[simp] theorem Dev.dset_f (d : Dev) (k v : Nat) (z : Nat) (g : Fld) : (d.dset k v).f z g = d.f z g := (rfl)
@[simp] theorem Dev.dset_b (d : Dev) (k v : Nat) (z : Nat) (g : Fld) : (d.dset k v).b z g = d.b z g := (rfl)
@[simp] theorem Dev.settle_r (d : Dev) (z : Nat) : (d.settle).r z = d.r z := (rfl)
@[simp] theorem Dev.settle_f (d : Dev) (z : Nat) (g : Fld) : (d.settle).f z g = d.f z g := (rfl)
@[simp] theorem Dev.settle_b (d : Dev) (z : Nat) (g : Fld) : (d.settle).b z g = d.b z g := (rfl)
@[simp] theorem Dev.diagT_r (d : Dev) (c i n : Nat) (z : Nat) : (d.diagT c i n).r z = d.r z := (rfl)
@[simp] theorem Dev.diagT_f (d : Dev) (c i n : Nat) (z : Nat) (g : Fld) : (d.diagT c i n).f z g = d.f z g := (rfl)
@[simp] theorem Dev.diagT_b (d : Dev) (c i n : Nat) (z : Nat) (g : Fld) : (d.diagT c i n).b z g = d.b z g := (rfl)
@[simp] theorem Dev.diagL_r (d : Dev) (c i : Nat) (z : Nat) : (d.diagL c i).r z = d.r z := (rfl)
@[simp] theorem Dev.diagL_f (d : Dev) (c i : Nat) (z : Nat) (g : Fld) : (d.diagL c i).f z g = d.f z g := (rfl)
@[simp] theorem Dev.diagL_b (d : Dev) (c i : Nat) (z : Nat) (g : Fld) : (d.diagL c i).b z g = d.b z g := (rfl)
@[simp] theorem Dev.raiseIf_r (d : Dev) (c : Bool) (src p : Nat) (z : Nat) : (d.raiseIf c src p).r z = d.r z := by cases c <;> rfl
@[simp] theorem Dev.raiseIf_f (d : Dev) (c : Bool) (src p : Nat) (z : Nat) (g : Fld) : (d.raiseIf c src p).f z g = d.f z g := by cases c <;> rfl
@[simp] theorem Dev.raiseIf_b (d : Dev) (c : Bool) (src p : Nat) (z : Nat) (g : Fld) : (d.raiseIf c src p).b z g = d.b z g := by cases c <;> rfl
@[simp] theorem Dev.fireAt_r (d : Dev) (isl code origin : Nat) (z : Nat) : (d.fireAt isl code origin).r z = d.r z := by unfold Dev.fireAt; split <;> rfl
@[simp] theorem Dev.fireAt_f (d : Dev) (isl code origin : Nat) (z : Nat) (g : Fld) : (d.fireAt isl code origin).f z g = d.f z g := by unfold Dev.fireAt; split <;> rfl
@[simp] theorem Dev.fireAt_b (d : Dev) (isl code origin : Nat) (z : Nat) (g : Fld) : (d.fireAt isl code origin).b z g = d.b z g := by unfold Dev.fireAt; split <;> rfl
@[simp] theorem Dev.fire_r (d : Dev) (isl code : Nat) (z : Nat) : (d.fire isl code).r z = d.r z := by unfold Dev.fire Dev.fireAt; split <;> rfl
@[simp] theorem Dev.fire_f (d : Dev) (isl code : Nat) (z : Nat) (g : Fld) : (d.fire isl code).f z g = d.f z g := by unfold Dev.fire Dev.fireAt; split <;> rfl
@[simp] theorem Dev.fire_b (d : Dev) (isl code : Nat) (z : Nat) (g : Fld) : (d.fire isl code).b z g = d.b z g := by unfold Dev.fire Dev.fireAt; split <;> rfl

/-! ### Registers -/

/-- What a register reads as after a register was written. -/
theorem Dev.r_w (d : Dev) (a x : Nat) (v : Word) : (d.w a v).r x = if x = a then v else d.r x := by
  unfold Dev.r Dev.w
  exact tabGet_tabSet _ _ _ _ _ _ fun h => by rw [h]

@[simp] theorem Dev.r_w_same (d : Dev) (a : Nat) (v : Word) : (d.w a v).r a = v := by simp [Dev.r_w]

theorem Dev.r_w_ne (d : Dev) {a x : Nat} (v : Word) (h : x ≠ a) : (d.w a v).r x = d.r x := by simp [Dev.r_w, h]

theorem Dev.r_wf (d : Dev) (a x : Nat) (f : Fld) (v : Nat) :
    (d.wf a f v).r x = if x = a then fput f (d.r a) v else d.r x := Dev.r_w d a x _

@[simp] theorem Dev.r_wf_same (d : Dev) (a : Nat) (f : Fld) (v : Nat) : (d.wf a f v).r a = fput f (d.r a) v := by
  simp [Dev.r_wf]

theorem Dev.r_wf_ne (d : Dev) {a x : Nat} (f : Fld) (v : Nat) (h : x ≠ a) : (d.wf a f v).r x = d.r x := by simp [Dev.r_wf, h]

theorem Dev.r_set1 (d : Dev) (a x : Nat) (f : Fld) :
    (d.set1 a f).r x = if x = a then fput f (d.r a) 1 else d.r x := Dev.r_w d a x _

@[simp] theorem Dev.r_set1_same (d : Dev) (a : Nat) (f : Fld) : (d.set1 a f).r a = fput f (d.r a) 1 := by simp [Dev.r_set1]

theorem Dev.r_set1_ne (d : Dev) {a x : Nat} (f : Fld) (h : x ≠ a) : (d.set1 a f).r x = d.r x := by simp [Dev.r_set1, h]

theorem Dev.r_clr (d : Dev) (a x : Nat) (f : Fld) :
    (d.clr a f).r x = if x = a then fput f (d.r a) 0 else d.r x := Dev.r_w d a x _

@[simp] theorem Dev.r_clr_same (d : Dev) (a : Nat) (f : Fld) : (d.clr a f).r a = fput f (d.r a) 0 := by simp [Dev.r_clr]

theorem Dev.r_clr_ne (d : Dev) {a x : Nat} (f : Fld) (h : x ≠ a) : (d.clr a f).r x = d.r x := by simp [Dev.r_clr, h]

theorem Dev.r_incSat_ne (d : Dev) {a x : Nat} (f : Fld) (n : Nat) (h : x ≠ a) : (d.incSat a f n).r x = d.r x :=
  Dev.r_wf_ne d f _ h

/-- A field reads as the low bits of what was written to it. -/
theorem Dev.f_wf_same (d : Dev) (a : Nat) (f : Fld) (v : Nat) (h : f.lo + f.w ≤ 32) : (d.wf a f v).f a f = v % 2 ^ f.w := by
  unfold Dev.f
  rw [Dev.r_wf_same]
  exact fget_fput_same f _ v h

theorem Dev.f_wf_ne (d : Dev) {a x : Nat} (f g : Fld) (v : Nat) (h : x ≠ a) : (d.wf a f v).f x g = d.f x g := by
  unfold Dev.f
  rw [Dev.r_wf_ne _ _ _ h]

/-- A bit that hardware set reads 1. -/
theorem Dev.b_set1_same (d : Dev) (a : Nat) (f : Fld) (h : f.lo + f.w ≤ 32) (hw : 0 < f.w) : (d.set1 a f).b a f = true := by
  have h1 : (1 : Nat) % 2 ^ f.w = 1 := Nat.mod_eq_of_lt (Nat.one_lt_two_pow (by omega))
  have h2 : (d.set1 a f).f a f = 1 := by
    show (d.wf a f 1).f a f = 1
    rw [Dev.f_wf_same d a f 1 h, h1]
  simp [Dev.b, h2]

/-- A field that was cleared reads 0. -/
theorem Dev.f_clr_same (d : Dev) (a : Nat) (f : Fld) (h : f.lo + f.w ≤ 32) : (d.clr a f).f a f = 0 := by
  show (d.wf a f 0).f a f = 0
  rw [Dev.f_wf_same d a f 0 h, Nat.zero_mod]

/-- The routing entry in force is what it was where another register was written. -/
theorem Dev.routeOf_w (d : Dev) {a k : Nat} (v : Word) (h : PND_ROUTE k ≠ a) : (d.w a v).routeOf k = d.routeOf k := by
  unfold Dev.routeOf; rw [Dev.r_w_ne _ _ h]; rfl

theorem Dev.routeOf_wf (d : Dev) {a k : Nat} (f : Fld) (v : Nat) (h : PND_ROUTE k ≠ a) : (d.wf a f v).routeOf k = d.routeOf k :=
  Dev.routeOf_w d _ h

theorem Dev.routeOf_clr (d : Dev) {a k : Nat} (f : Fld) (h : PND_ROUTE k ≠ a) : (d.clr a f).routeOf k = d.routeOf k :=
  Dev.routeOf_w d _ h

theorem Dev.routeOf_set1 (d : Dev) {a k : Nat} (f : Fld) (h : PND_ROUTE k ≠ a) : (d.set1 a f).routeOf k = d.routeOf k :=
  Dev.routeOf_w d _ h

theorem Dev.routeOf_incSat (d : Dev) {a k : Nat} (f : Fld) (n : Nat) (h : PND_ROUTE k ≠ a) :
    (d.incSat a f n).routeOf k = d.routeOf k :=
  Dev.routeOf_w d _ h

theorem Dev.raised_raise (d : Dev) (k p : Nat) : (d.raise k p).raised = d.raised ++ [⟨k, p % 65536, d.beam, d.routeOf k⟩] := rfl

theorem Dev.raised_raiseIf (d : Dev) (c : Bool) (k p : Nat) :
    (d.raiseIf c k p).raised = if c then d.raised ++ [⟨k, p % 65536, d.beam, d.routeOf k⟩] else d.raised := by
  cases c <;> rfl

theorem Dev.b_clr_same (d : Dev) (a : Nat) (f : Fld) (h : f.lo + f.w ≤ 32) : (d.clr a f).b a f = false := by
  unfold Dev.b Dev.f; rw [Dev.r_clr_same, fget_fput_same f _ 0 h]; simp

/-- Another field of a register reads as before. -/
theorem Dev.f_wf_other (d : Dev) (a : Nat) (f g : Fld) (v : Nat) (h : f.lo + f.w ≤ 32) (hd : g.lo + g.w ≤ f.lo ∨ f.lo + f.w ≤ g.lo) :
    (d.wf a f v).f a g = d.f a g := by
  unfold Dev.f; rw [Dev.r_wf_same, fget_fput_ne f g _ v h hd]

theorem Dev.f_set1_other (d : Dev) (a : Nat) (f g : Fld) (h : f.lo + f.w ≤ 32) (hd : g.lo + g.w ≤ f.lo ∨ f.lo + f.w ≤ g.lo) :
    (d.set1 a f).f a g = d.f a g := Dev.f_wf_other d a f g 1 h hd

theorem Dev.f_clr_other (d : Dev) (a : Nat) (f g : Fld) (h : f.lo + f.w ≤ 32) (hd : g.lo + g.w ≤ f.lo ∨ f.lo + f.w ≤ g.lo) :
    (d.clr a f).f a g = d.f a g := Dev.f_wf_other d a f g 0 h hd

theorem Dev.b_wf_other (d : Dev) (a : Nat) (f g : Fld) (v : Nat) (h : f.lo + f.w ≤ 32) (hd : g.lo + g.w ≤ f.lo ∨ f.lo + f.w ≤ g.lo) :
    (d.wf a f v).b a g = d.b a g := by unfold Dev.b; rw [Dev.f_wf_other d a f g v h hd]

theorem Dev.b_set1_other (d : Dev) (a : Nat) (f g : Fld) (h : f.lo + f.w ≤ 32) (hd : g.lo + g.w ≤ f.lo ∨ f.lo + f.w ≤ g.lo) :
    (d.set1 a f).b a g = d.b a g := Dev.b_wf_other d a f g 1 h hd

theorem Dev.b_clr_other (d : Dev) (a : Nat) (f g : Fld) (h : f.lo + f.w ≤ 32) (hd : g.lo + g.w ≤ f.lo ∨ f.lo + f.w ≤ g.lo) :
    (d.clr a f).b a g = d.b a g := Dev.b_wf_other d a f g 0 h hd

theorem Dev.f_set1_ne (d : Dev) {a x : Nat} (f g : Fld) (h : x ≠ a) : (d.set1 a f).f x g = d.f x g := Dev.f_wf_ne d f g 1 h
theorem Dev.f_clr_ne (d : Dev) {a x : Nat} (f g : Fld) (h : x ≠ a) : (d.clr a f).f x g = d.f x g := Dev.f_wf_ne d f g 0 h
theorem Dev.b_wf_ne (d : Dev) {a x : Nat} (f g : Fld) (v : Nat) (h : x ≠ a) : (d.wf a f v).b x g = d.b x g := by
  unfold Dev.b; rw [Dev.f_wf_ne d f g v h]
theorem Dev.b_set1_ne (d : Dev) {a x : Nat} (f g : Fld) (h : x ≠ a) : (d.set1 a f).b x g = d.b x g := Dev.b_wf_ne d f g 1 h
theorem Dev.b_clr_ne (d : Dev) {a x : Nat} (f g : Fld) (h : x ≠ a) : (d.clr a f).b x g = d.b x g := Dev.b_wf_ne d f g 0 h


/-! ### Units -/

@[simp] theorem Dev.timer_setTimer (d : Dev) (n i : Nat) (x : TimerH) : (d.setTimer n i x).timer n i = x := by
  simp [Dev.timer, Dev.setTimer]
theorem Dev.timer_setTimer_ne (d : Dev) {n i m j : Nat} (x : TimerH) (h : uk m j ≠ uk n i) :
    (d.setTimer n i x).timer m j = d.timer m j := by
  simp [Dev.timer, Dev.setTimer, tabGet_tabSet_ne _ _ _ _ h]
@[simp] theorem Dev.pair_setPair (d : Dev) (n i : Nat) (x : PairH) : (d.setPair n i x).pair n i = x := by
  simp [Dev.pair, Dev.setPair]
theorem Dev.pair_setPair_ne (d : Dev) {n i m j : Nat} (x : PairH) (h : uk m j ≠ uk n i) :
    (d.setPair n i x).pair m j = d.pair m j := by
  simp [Dev.pair, Dev.setPair, tabGet_tabSet_ne _ _ _ _ h]
@[simp] theorem Dev.line_setLine (d : Dev) (n i : Nat) (x : LineH) : (d.setLine n i x).line n i = x := by
  simp [Dev.line, Dev.setLine]
theorem Dev.line_setLine_ne (d : Dev) {n i m j : Nat} (x : LineH) (h : uk m j ≠ uk n i) :
    (d.setLine n i x).line m j = d.line m j := by
  simp [Dev.line, Dev.setLine, tabGet_tabSet_ne _ _ _ _ h]
@[simp] theorem Dev.chan_setChan (d : Dev) (n i : Nat) (x : ChanH) : (d.setChan n i x).chan n i = x := by
  simp [Dev.chan, Dev.setChan]
theorem Dev.chan_setChan_ne (d : Dev) {n i m j : Nat} (x : ChanH) (h : uk m j ≠ uk n i) :
    (d.setChan n i x).chan m j = d.chan m j := by
  simp [Dev.chan, Dev.setChan, tabGet_tabSet_ne _ _ _ _ h]
@[simp] theorem Dev.sset_setSset (d : Dev) (n : Nat) (x : SetH) : (d.setSset n x).sset n = x := by
  simp [Dev.sset, Dev.setSset]
theorem Dev.sset_setSset_ne (d : Dev) {n m : Nat} (x : SetH) (h : m ≠ n) : (d.setSset n x).sset m = d.sset m := by
  simp [Dev.sset, Dev.setSset, tabGet_tabSet_ne _ _ _ _ h]
@[simp] theorem Dev.sdm_setSdm (d : Dev) (n i : Nat) (x : SdmH) : (d.setSdm n i x).sdm n i = x := by
  simp [Dev.sdm, Dev.setSdm]
theorem Dev.sdm_setSdm_ne (d : Dev) {n i m j : Nat} (x : SdmH) (h : uk m j ≠ uk n i) :
    (d.setSdm n i x).sdm m j = d.sdm m j := by
  simp [Dev.sdm, Dev.setSdm, tabGet_tabSet_ne _ _ _ _ h]
@[simp] theorem Dev.sdclk_setSdclk (d : Dev) (n i : Nat) (x : SdClkH) : (d.setSdclk n i x).sdclk n i = x := by
  simp [Dev.sdclk, Dev.setSdclk]
theorem Dev.sdclk_setSdclk_ne (d : Dev) {n i m j : Nat} (x : SdClkH) (h : uk m j ≠ uk n i) :
    (d.setSdclk n i x).sdclk m j = d.sdclk m j := by
  simp [Dev.sdclk, Dev.setSdclk, tabGet_tabSet_ne _ _ _ _ h]
@[simp] theorem Dev.rod_setRod (d : Dev) (n : Nat) (x : RodH) : (d.setRod n x).rod n = x := by
  simp [Dev.rod, Dev.setRod]
theorem Dev.rod_setRod_ne (d : Dev) {n m : Nat} (x : RodH) (h : m ≠ n) : (d.setRod n x).rod m = d.rod m := by
  simp [Dev.rod, Dev.setRod, tabGet_tabSet_ne _ _ _ _ h]
@[simp] theorem Dev.frame_setFrame (d : Dev) (n : Nat) (x : FrameH) : (d.setFrame n x).frame n = x := by
  simp [Dev.frame, Dev.setFrame]
theorem Dev.frame_setFrame_ne (d : Dev) {n m : Nat} (x : FrameH) (h : m ≠ n) : (d.setFrame n x).frame m = d.frame m := by
  simp [Dev.frame, Dev.setFrame, tabGet_tabSet_ne _ _ _ _ h]
@[simp] theorem Dev.trace_setTrace (d : Dev) (n : Nat) (x : TraceH) : (d.setTrace n x).trace n = x := by
  simp [Dev.trace, Dev.setTrace]
theorem Dev.trace_setTrace_ne (d : Dev) {n m : Nat} (x : TraceH) (h : m ≠ n) : (d.setTrace n x).trace m = d.trace m := by
  simp [Dev.trace, Dev.setTrace, tabGet_tabSet_ne _ _ _ _ h]
@[simp] theorem Dev.fbk_setFbk (d : Dev) (n i : Nat) (x : FbkH) : (d.setFbk n i x).fbk n i = x := by
  simp [Dev.fbk, Dev.setFbk]
theorem Dev.fbk_setFbk_ne (d : Dev) {n i m j : Nat} (x : FbkH) (h : uk m j ≠ uk n i) :
    (d.setFbk n i x).fbk m j = d.fbk m j := by
  simp [Dev.fbk, Dev.setFbk, tabGet_tabSet_ne _ _ _ _ h]
@[simp] theorem Dev.bead_setBead (d : Dev) (n i : Nat) (x : BeadH) : (d.setBead n i x).bead n i = x := by
  simp [Dev.bead, Dev.setBead]
theorem Dev.bead_setBead_ne (d : Dev) {n i m j : Nat} (x : BeadH) (h : uk m j ≠ uk n i) :
    (d.setBead n i x).bead m j = d.bead m j := by
  simp [Dev.bead, Dev.setBead, tabGet_tabSet_ne _ _ _ _ h]
@[simp] theorem Dev.cell_setCell (d : Dev) (n i : Nat) (x : CellH) : (d.setCell n i x).cell n i = x := by
  simp [Dev.cell, Dev.setCell]
theorem Dev.cell_setCell_ne (d : Dev) {n i m j : Nat} (x : CellH) (h : uk m j ≠ uk n i) :
    (d.setCell n i x).cell m j = d.cell m j := by
  simp [Dev.cell, Dev.setCell, tabGet_tabSet_ne _ _ _ _ h]
@[simp] theorem Dev.clasp_setClasp (d : Dev) (n : Nat) (x : ClaspH) : (d.setClasp n x).clasp n = x := by
  simp [Dev.clasp, Dev.setClasp]
theorem Dev.clasp_setClasp_ne (d : Dev) {n m : Nat} (x : ClaspH) (h : m ≠ n) : (d.setClasp n x).clasp m = d.clasp m := by
  simp [Dev.clasp, Dev.setClasp, tabGet_tabSet_ne _ _ _ _ h]
@[simp] theorem Dev.core_setCore (d : Dev) (n : Nat) (x : CoreH) : (d.setCore n x).core n = x := by
  simp [Dev.core, Dev.setCore]
theorem Dev.core_setCore_ne (d : Dev) {n m : Nat} (x : CoreH) (h : m ≠ n) : (d.setCore n x).core m = d.core m := by
  simp [Dev.core, Dev.setCore, tabGet_tabSet_ne _ _ _ _ h]
@[simp] theorem Dev.ring_setRing (d : Dev) (n : Nat) (x : RingH) : (d.setRing n x).ring n = x := by
  simp [Dev.ring, Dev.setRing]
theorem Dev.ring_setRing_ne (d : Dev) {n m : Nat} (x : RingH) (h : m ≠ n) : (d.setRing n x).ring m = d.ring m := by
  simp [Dev.ring, Dev.setRing, tabGet_tabSet_ne _ _ _ _ h]
@[simp] theorem Dev.dmach_setDmach (d : Dev) (n i : Nat) (x : DmaH) : (d.setDmach n i x).dmach n i = x := by
  simp [Dev.dmach, Dev.setDmach]
theorem Dev.dmach_setDmach_ne (d : Dev) {n i m j : Nat} (x : DmaH) (h : uk m j ≠ uk n i) :
    (d.setDmach n i x).dmach m j = d.dmach m j := by
  simp [Dev.dmach, Dev.setDmach, tabGet_tabSet_ne _ _ _ _ h]
@[simp] theorem Dev.canc_setCanc (d : Dev) (n : Nat) (x : CanH) : (d.setCanc n x).canc n = x := by
  simp [Dev.canc, Dev.setCanc]
theorem Dev.canc_setCanc_ne (d : Dev) {n m : Nat} (x : CanH) (h : m ≠ n) : (d.setCanc n x).canc m = d.canc m := by
  simp [Dev.canc, Dev.setCanc, tabGet_tabSet_ne _ _ _ _ h]
@[simp] theorem Dev.sess_setSess (d : Dev) (n : Nat) (x : Sess) : (d.setSess n x).sess n = x := by
  simp [Dev.sess, Dev.setSess]
theorem Dev.sess_setSess_ne (d : Dev) {n m : Nat} (x : Sess) (h : m ≠ n) : (d.setSess n x).sess m = d.sess m := by
  simp [Dev.sess, Dev.setSess, tabGet_tabSet_ne _ _ _ _ h]
@[simp] theorem Dev.cred_setCred (d : Dev) (n : Nat) (x : Cred) : (d.setCred n x).cred n = x := by
  simp [Dev.cred, Dev.setCred]
theorem Dev.cred_setCred_ne (d : Dev) {n m : Nat} (x : Cred) (h : m ≠ n) : (d.setCred n x).cred m = d.cred m := by
  simp [Dev.cred, Dev.setCred, tabGet_tabSet_ne _ _ _ _ h]
@[simp] theorem Dev.img_setImg (d : Dev) (n : Nat) (x : Img) : (d.setImg n x).img n = x := by
  simp [Dev.img, Dev.setImg]
theorem Dev.img_setImg_ne (d : Dev) {n m : Nat} (x : Img) (h : m ≠ n) : (d.setImg n x).img m = d.img m := by
  simp [Dev.img, Dev.setImg, tabGet_tabSet_ne _ _ _ _ h]
@[simp] theorem Dev.lrec_setLrec (d : Dev) (n : Nat) (x : LRec) : (d.setLrec n x).lrec n = x := by
  simp [Dev.lrec, Dev.setLrec]
theorem Dev.lrec_setLrec_ne (d : Dev) {n m : Nat} (x : LRec) (h : m ≠ n) : (d.setLrec n x).lrec m = d.lrec m := by
  simp [Dev.lrec, Dev.setLrec, tabGet_tabSet_ne _ _ _ _ h]

/-- Units of an island have keys of their own. -/
theorem uk_inj {n i m j : Nat} (hi : i < 256) (hj : j < 256) (h : uk n i = uk m j) : n = m ∧ i = j := by
  unfold uk at h; omega

@[simp] theorem Dev.lat_setLat (d : Dev) (k q v : Nat) : (d.setLat k q v).lat k q = v := by simp [Dev.lat, Dev.setLat]

/-- The answer that requester `q` gets. -/
theorem Dev.bus_resp (d : Dev) (q : Nat) (v : Word) (e : BErr) : tabGet {} (d.resp q v e).bus q = ⟨v, e⟩ := by
  simp [Dev.resp]

/-! ### Outcomes -/

/-- Every command answers a next state, with the rest of the queue as it was. -/
theorem State.done_eq (s : State) (f : Dev → Dev) : s.done f = .next { pending := s.pending, hw := (f s.hw).settle } := rfl

end Sys2Proof.Machine
end

