-- ==== Sys2Proof/Laws/Runs.lean ====
section
/-! SUPPORT. How a command is shown to complete: its effect, and that the effect keeps what every state keeps. -/

namespace Sys2Proof.Machine
open Sys2Proof

/-- A command whose effect is `f` completes with what holds of `f`'s result, where that result keeps memory in canonical form
and the count in range. -/
theorem runs_of {s : State} {i : Instr} {f : Dev → Dev} {P : Dev → Prop} (he : exec i s = s.done f)
    (hm : Memory.wf (f s.hw).mem = true) (hb : (f s.hw).beam < 2 ^ 64) (hp : P (f s.hw)) : s.Runs i P :=
  ⟨_, he, rfl, by rw [show (s.upd f).hw = (f s.hw).settle from rfl, settle_eq hm hb]; exact hp⟩

/-- The same where the effect leaves memory and the count alone. -/
theorem runs_of_same {s : State} {i : Instr} {f : Dev → Dev} {P : Dev → Prop} (hI : s.Inv) (he : exec i s = s.done f)
    (hm : (f s.hw).mem = s.hw.mem) (hb : (f s.hw).beam = s.hw.beam) (hp : P (f s.hw)) : s.Runs i P :=
  runs_of he (by rw [hm]; exact hI.1) (by rw [hb]; exact hI.2) hp

end Sys2Proof.Machine
end

