-- ==== Sys2Proof/Laws/CoreStep.lean ====
section
/-! SUPPORT. What the stacks and flags of a bank hold after each operation on them. -/

namespace Sys2Proof.Machine
open Sys2Proof

theorem Dev.curBank_lt (d : Dev) (c : Nat) : d.curBank c < 16 := fget_lt _ _
theorem Dev.dTos_lt (d : Dev) (c : Nat) : d.dTos c < 16 := fget_lt _ _
theorem Dev.rTos_lt (d : Dev) (c : Nat) : d.rTos c < 8 := fget_lt _ _
theorem Dev.dSlot_lt (d : Dev) (c k : Nat) : d.dSlot c k < 16 := Nat.mod_lt _ (by decide)
theorem Dev.rSlot_lt (d : Dev) (c k : Nat) : d.rSlot c k < 8 := Nat.mod_lt _ (by decide)

/-- Two states agree but for stacks and flags of core `c`'s current bank. -/
structure Dev.BankOnly (d : Dev) (c : Core) (d' : Dev) : Prop where
  bank   : d'.curBank c = d.curBank c
  status : ∀ g, g.lo + g.w ≤ 32 → 5 ≤ g.lo → d'.f (BNK_STATUS c (d.curBank c)) g = d.f (BNK_STATUS c (d.curBank c)) g
  regs   : d.Keeps (d.bankWords c) d'
  rest   : { d' with regs := d.regs } = d

theorem Dev.BankOnly.refl (d : Dev) (c : Core) : d.BankOnly c d := ⟨rfl, fun _ _ _ => rfl, fun _ _ => rfl, rfl⟩

theorem Dev.BankOnly.trans {d d1 d2 : Dev} {c : Core} (h1 : d.BankOnly c d1) (h2 : d1.BankOnly c d2) : d.BankOnly c d2 := by
  have hw : d1.bankWords c = d.bankWords c := by unfold Dev.bankWords; rw [h1.bank]
  refine ⟨h2.bank.trans h1.bank, fun g a b => ?_, fun a ha => ?_, ?_⟩
  · have := h2.status g a b
    rw [h1.bank] at this
    exact this.trans (h1.status g a b)
  · exact (h2.regs a (by rw [hw]; exact ha)).trans (h1.regs a ha)
  · have e2 := h2.rest; have e1 := h1.rest
    rw [← e1, ← e2]

theorem Dev.BankOnly.core {d d' : Dev} {c : Core} (h : d.BankOnly c d') (x : Nat) : d'.core x = d.core x := by
  have := congrArg (fun e => Dev.core e x) h.rest
  exact this

/-- A word of the current bank. -/
theorem bankWord_mem (d : Dev) (c : Core) {a : Nat} (h : a = BNK_STATUS c (d.curBank c) ∨ a = BNK_DEPTH c (d.curBank c) ∨
    a = BNK_DIRTY c (d.curBank c) ∨ (∃ s, s < 16 ∧ a = BNK_DATA c (d.curBank c) s) ∨ (∃ s, s < 8 ∧ a = BNK_RET c (d.curBank c) s)) :
    a ∈ d.bankWords c := by
  unfold Dev.bankWords
  simp only [List.mem_cons, List.mem_append, List.mem_map, List.mem_range]
  rcases h with h | h | h | ⟨s, h1, h2⟩ | ⟨s, h1, h2⟩
  · exact .inl h
  · exact .inr (.inl h)
  · exact .inr (.inr (.inl h))
  · exact .inr (.inr (.inr (.inl ⟨s, h1, h2.symm⟩)))
  · exact .inr (.inr (.inr (.inr ⟨s, h1, h2.symm⟩)))

/-- A write of a word of the current bank. -/
theorem bankOnly_w (d : Dev) (c : Core) (a : Nat) (v : Word) (hm : a ∈ d.bankWords c)
    (hs : a = BNK_STATUS c (d.curBank c) → ∀ g : Fld, g.lo + g.w ≤ 32 → 5 ≤ g.lo → fget g v = fget g (d.r a)) :
    d.BankOnly c (d.w a v) := by
  have hc : CORE_STATUS c ≠ a := by
    intro h
    unfold Dev.bankWords at hm
    have hb := d.curBank_lt c
    have := c.isLt
    simp only [List.mem_cons, List.mem_append, List.mem_map, List.mem_range] at hm
    unfold CORE_STATUS at h
    rcases hm with h1 | h1 | h1 | ⟨s, h2, h1⟩ | ⟨s, h2, h1⟩
    · unfold BNK_STATUS at h1; omega
    · unfold BNK_DEPTH at h1; omega
    · unfold BNK_DIRTY at h1; omega
    · unfold BNK_DATA at h1; omega
    · unfold BNK_RET at h1; omega
  refine ⟨?_, fun g h1 h2 => ?_, fun x hx => ?_, rfl⟩
  · unfold Dev.curBank Dev.f; rw [Dev.r_w_ne _ _ hc]
  · unfold Dev.f
    by_cases h : a = BNK_STATUS c (d.curBank c)
    · rw [← h, Dev.r_w_same]; exact hs h g h1 h2
    · rw [Dev.r_w_ne _ _ (Ne.symm h)]
  · exact Dev.r_w_ne _ _ (fun h => hx (h ▸ hm))

/-! ### Words of a bank are distinct -/

theorem data_inj {c b s s' : Nat} : BNK_DATA c b s = BNK_DATA c b s' ↔ s = s' := by unfold BNK_DATA; omega
theorem ret_inj {c b s s' : Nat} : BNK_RET c b s = BNK_RET c b s' ↔ s = s' := by unfold BNK_RET; omega
theorem data_ne_status {c b s : Nat} (h : s < 16) : BNK_DATA c b s ≠ BNK_STATUS c b := by unfold BNK_DATA BNK_STATUS; omega
theorem data_ne_depth {c b s : Nat} (h : s < 16) : BNK_DATA c b s ≠ BNK_DEPTH c b := by unfold BNK_DATA BNK_DEPTH; omega
theorem data_ne_dirty {c b s : Nat} (h : s < 16) : BNK_DATA c b s ≠ BNK_DIRTY c b := by unfold BNK_DATA BNK_DIRTY; omega
theorem data_ne_ret {c b s s' : Nat} (h : s < 16) : BNK_DATA c b s ≠ BNK_RET c b s' := by unfold BNK_DATA BNK_RET; omega
theorem ret_ne_status {c b s : Nat} (h : s < 8) : BNK_RET c b s ≠ BNK_STATUS c b := by unfold BNK_RET BNK_STATUS; omega
theorem ret_ne_depth {c b s : Nat} (h : s < 8) : BNK_RET c b s ≠ BNK_DEPTH c b := by unfold BNK_RET BNK_DEPTH; omega
theorem ret_ne_dirty {c b s : Nat} (h : s < 8) : BNK_RET c b s ≠ BNK_DIRTY c b := by unfold BNK_RET BNK_DIRTY; omega
theorem status_ne_depth {c b : Nat} : BNK_STATUS c b ≠ BNK_DEPTH c b := by unfold BNK_STATUS BNK_DEPTH; omega
theorem status_ne_dirty {c b : Nat} : BNK_STATUS c b ≠ BNK_DIRTY c b := by unfold BNK_STATUS BNK_DIRTY; omega
theorem depth_ne_dirty {c b : Nat} : BNK_DEPTH c b ≠ BNK_DIRTY c b := by unfold BNK_DEPTH BNK_DIRTY; omega

/-! ### Writes of one bank word -/

theorem bankOnly_dirty (d : Dev) (c : Core) (g : Nat) : d.BankOnly c (d.dirty c g) :=
  bankOnly_w d c _ _ (bankWord_mem d c (.inr (.inr (.inl rfl)))) (fun h => absurd h.symm status_ne_dirty)

theorem dirty_r (d : Dev) (c : Core) (g : Nat) {a : Nat} (h : a ≠ BNK_DIRTY c (d.curBank c)) : (d.dirty c g).r a = d.r a :=
  Dev.r_wf_ne d _ _ h

/-- A depth word. -/
theorem bankOnly_depth (d : Dev) (c : Core) (f : Fld) (v : Nat) : d.BankOnly c (d.bankSet c (BNK_DEPTH c (d.curBank c)) f v) := by
  have h1 := bankOnly_w d c (BNK_DEPTH c (d.curBank c)) (fput f (d.r (BNK_DEPTH c (d.curBank c))) v)
    (bankWord_mem d c (.inr (.inl rfl))) (fun h => absurd h.symm status_ne_depth)
  exact h1.trans (bankOnly_dirty _ c _)

theorem bankSet_r (d : Dev) (c : Core) (a : Nat) (f : Fld) (v : Nat) (hb : (d.wf a f v).curBank c = d.curBank c) {x : Nat}
    (h : x ≠ BNK_DIRTY c (d.curBank c)) : (d.bankSet c a f v).r x = if x = a then fput f (d.r a) v else d.r x := by
  unfold Dev.bankSet
  rw [dirty_r _ _ _ (by rw [hb]; exact h), Dev.r_wf]

theorem bankOnly_flags (d : Dev) (c : Core) (f : Fl) : d.BankOnly c (d.setFlags c f) := by
  have h1 := bankOnly_w d c (BNK_STATUS c (d.curBank c)) (fput BNK_STATUS_FLAGS (d.r (BNK_STATUS c (d.curBank c))) (flWord f))
    (bankWord_mem d c (.inl rfl)) (fun _ g h1 h2 => fget_fput_ne _ _ _ _ (by decide) (.inr (by simpa [BNK_STATUS_FLAGS] using h2)))
  exact h1.trans (bankOnly_dirty _ c _)

theorem wf_curBank (d : Dev) (c : Core) (a : Nat) (f : Fld) (v : Nat) (h : CORE_STATUS c ≠ a) : (d.wf a f v).curBank c = d.curBank c := by
  unfold Dev.curBank Dev.f; rw [Dev.r_wf_ne _ _ _ h]

theorem core_ne_status (c : Core) (b : Nat) (_ : b < 16) : CORE_STATUS c ≠ BNK_STATUS c b := by
  have := c.isLt; unfold CORE_STATUS BNK_STATUS; omega
theorem core_ne_depth (c : Core) (b : Nat) (_ : b < 16) : CORE_STATUS c ≠ BNK_DEPTH c b := by
  have := c.isLt; unfold CORE_STATUS BNK_DEPTH; omega

/-- Registers after the flags are set. -/
theorem setFlags_r (d : Dev) (c : Core) (f : Fl) {x : Nat} (h : x ≠ BNK_DIRTY c (d.curBank c)) (hs : x ≠ BNK_STATUS c (d.curBank c)) :
    (d.setFlags c f).r x = d.r x := by
  unfold Dev.setFlags
  rw [bankSet_r d c _ _ _ (wf_curBank _ _ _ _ _ (core_ne_status c _ (d.curBank_lt c))) h, if_neg hs]

theorem flOf_flWord (f : Fl) : flOf (flWord f) = f := by
  rcases f with ⟨z, n, cc, v, p⟩
  cases z <;> cases n <;> cases cc <;> cases v <;> cases p <;> decide

theorem flWord_lt (f : Fl) : flWord f < 32 := by
  rcases f with ⟨z, n, cc, v, p⟩
  cases z <;> cases n <;> cases cc <;> cases v <;> cases p <;> decide

/-- The flags read as set. -/
theorem flags_setFlags (d : Dev) (c : Core) (f : Fl) : (d.setFlags c f).flags c = f := by
  unfold Dev.flags
  rw [(bankOnly_flags d c f).bank]
  unfold Dev.f Dev.setFlags
  rw [bankSet_r d c _ _ _ (wf_curBank _ _ _ _ _ (core_ne_status c _ (d.curBank_lt c))) status_ne_dirty, if_pos rfl,
    fget_fput_same _ _ _ (by decide)]
  rw [show flWord f % 2 ^ BNK_STATUS_FLAGS.w = flWord f from Nat.mod_eq_of_lt (flWord_lt f), flOf_flWord]

/-! ### What a program sees of a bank -/

/-- Data stack, return stack and flags of core `c`'s current bank. -/
structure Dev.Sees (d : Dev) (c : Core) (n : Nat) (at_ : Nat → Word) (rn : Nat) (rat : Nat → Word) (fl : Fl) : Prop where
  depth  : d.dDepth c = n
  at_eq  : ∀ k, k < n → d.dAt c k = at_ k
  rdepth : d.rDepth c = rn
  rat_eq : ∀ k, k < rn → d.rAt c k = rat k
  flags  : d.flags c = fl

theorem Dev.sees_self (d : Dev) (c : Core) : d.Sees c (d.dDepth c) (d.dAt c) (d.rDepth c) (d.rAt c) (d.flags c) :=
  ⟨rfl, fun _ _ => rfl, rfl, fun _ _ => rfl, rfl⟩

theorem sees_setFlags {d : Dev} {c : Core} {n at_ rn rat fl} (h : d.Sees c n at_ rn rat fl) (f : Fl) :
    (d.setFlags c f).Sees c n at_ rn rat f := by
  have hb := (bankOnly_flags d c f).bank
  refine ⟨?_, fun k hk => ?_, ?_, fun k hk => ?_, flags_setFlags d c f⟩
  · rw [← h.depth]; unfold Dev.dDepth Dev.f; rw [hb, setFlags_r _ _ _ depth_ne_dirty status_ne_depth.symm]
  · rw [← h.at_eq k hk]; unfold Dev.dAt Dev.dSlot Dev.dTos Dev.f
    rw [hb, setFlags_r _ _ _ depth_ne_dirty status_ne_depth.symm,
      setFlags_r _ _ _ (data_ne_dirty (Nat.mod_lt _ (by decide))) (data_ne_status (Nat.mod_lt _ (by decide)))]
  · rw [← h.rdepth]; unfold Dev.rDepth Dev.f; rw [hb, setFlags_r _ _ _ depth_ne_dirty status_ne_depth.symm]
  · rw [← h.rat_eq k hk]; unfold Dev.rAt Dev.rSlot Dev.rTos Dev.f
    rw [hb, setFlags_r _ _ _ depth_ne_dirty status_ne_depth.symm,
      setFlags_r _ _ _ (ret_ne_dirty (Nat.mod_lt _ (by decide))) (ret_ne_status (Nat.mod_lt _ (by decide)))]

/-! ### Depth words -/

theorem bankOnly_setD (d : Dev) (c : Core) (n t : Nat) : d.BankOnly c (d.setD c n t) := by
  have h1 := bankOnly_depth d c BNK_DEPTH_DDEPTH n
  have h2 := bankOnly_depth (d.bankSet c (BNK_DEPTH c (d.curBank c)) BNK_DEPTH_DDEPTH n) c BNK_DEPTH_DTOS t
  rw [h1.bank] at h2
  exact h1.trans h2

theorem bankOnly_setR (d : Dev) (c : Core) (n t : Nat) : d.BankOnly c (d.setR c n t) := by
  have h1 := bankOnly_depth d c BNK_DEPTH_RDEPTH n
  have h2 := bankOnly_depth (d.bankSet c (BNK_DEPTH c (d.curBank c)) BNK_DEPTH_RDEPTH n) c BNK_DEPTH_RTOS t
  rw [h1.bank] at h2
  exact h1.trans h2

theorem set2_r (d : Dev) (c : Core) (f g : Fld) (n t : Nat) {x : Nat} (hx : x ≠ BNK_DIRTY c (d.curBank c)) :
    ((d.bankSet c (BNK_DEPTH c (d.curBank c)) f n).bankSet c (BNK_DEPTH c (d.curBank c)) g t).r x =
      if x = BNK_DEPTH c (d.curBank c) then fput g (fput f (d.r (BNK_DEPTH c (d.curBank c))) n) t else d.r x := by
  have hc := core_ne_depth c _ (d.curBank_lt c)
  have h1 := bankOnly_depth d c f n
  rw [bankSet_r _ c _ _ _ (wf_curBank _ _ _ _ _ hc) (by rw [h1.bank]; exact hx),
    bankSet_r d c _ _ _ (wf_curBank _ _ _ _ _ hc) depth_ne_dirty, if_pos rfl]
  by_cases h : x = BNK_DEPTH c (d.curBank c)
  · rw [if_pos h, if_pos h]
  · rw [if_neg h, if_neg h, bankSet_r d c _ _ _ (wf_curBank _ _ _ _ _ hc) hx, if_neg h]

theorem setD_r (d : Dev) (c : Core) (n t : Nat) {x : Nat} (hx : x ≠ BNK_DIRTY c (d.curBank c)) :
    (d.setD c n t).r x = if x = BNK_DEPTH c (d.curBank c) then fput BNK_DEPTH_DTOS (fput BNK_DEPTH_DDEPTH (d.r (BNK_DEPTH c (d.curBank c))) n) t
      else d.r x := set2_r d c _ _ n t hx

theorem setR_r (d : Dev) (c : Core) (n t : Nat) {x : Nat} (hx : x ≠ BNK_DIRTY c (d.curBank c)) :
    (d.setR c n t).r x = if x = BNK_DEPTH c (d.curBank c) then fput BNK_DEPTH_RTOS (fput BNK_DEPTH_RDEPTH (d.r (BNK_DEPTH c (d.curBank c))) n) t
      else d.r x := set2_r d c _ _ n t hx

theorem setD_fields (d : Dev) (c : Core) (n t : Nat) : (d.setD c n t).dDepth c = n % 32 ∧ (d.setD c n t).dTos c = t % 16 ∧
    (d.setD c n t).rDepth c = d.rDepth c ∧ (d.setD c n t).rTos c = d.rTos c := by
  have hb := (bankOnly_setD d c n t).bank
  unfold Dev.dDepth Dev.dTos Dev.rDepth Dev.rTos Dev.f
  rw [hb, setD_r d c n t depth_ne_dirty, if_pos rfl]
  refine ⟨?_, ?_, ?_, ?_⟩
  · rw [fget_fput_ne _ _ _ _ (by decide) (by decide), fget_fput_same _ _ _ (by decide)]; rfl
  · rw [fget_fput_same _ _ _ (by decide)]; rfl
  · rw [fget_fput_ne _ _ _ _ (by decide) (by decide), fget_fput_ne _ _ _ _ (by decide) (by decide)]
  · rw [fget_fput_ne _ _ _ _ (by decide) (by decide), fget_fput_ne _ _ _ _ (by decide) (by decide)]

theorem setR_fields (d : Dev) (c : Core) (n t : Nat) : (d.setR c n t).rDepth c = n % 16 ∧ (d.setR c n t).rTos c = t % 8 ∧
    (d.setR c n t).dDepth c = d.dDepth c ∧ (d.setR c n t).dTos c = d.dTos c := by
  have hb := (bankOnly_setR d c n t).bank
  unfold Dev.dDepth Dev.dTos Dev.rDepth Dev.rTos Dev.f
  rw [hb, setR_r d c n t depth_ne_dirty, if_pos rfl]
  refine ⟨?_, ?_, ?_, ?_⟩
  · rw [fget_fput_ne _ _ _ _ (by decide) (by decide), fget_fput_same _ _ _ (by decide)]; rfl
  · rw [fget_fput_same _ _ _ (by decide)]; rfl
  · rw [fget_fput_ne _ _ _ _ (by decide) (by decide), fget_fput_ne _ _ _ _ (by decide) (by decide)]
  · rw [fget_fput_ne _ _ _ _ (by decide) (by decide), fget_fput_ne _ _ _ _ (by decide) (by decide)]

/-! ### Pops and pushes without a spill or a fill -/

theorem dPop_held {d : Dev} {c : Core} {n at_ rn rat fl} (h : d.Sees c (n + 1) at_ rn rat fl) (hn : n < 31) :
    ∃ d', d.dPop c = .ok (d', at_ 0) ∧ d.BankOnly c d' ∧ d'.Sees c n (fun k => at_ (k + 1)) rn rat fl := by
  have hd := h.depth
  refine ⟨d.setD c (d.dDepth c - 1) (d.dSlot c 1), ?_, bankOnly_setD d c _ _, ?_⟩
  · unfold Dev.dPop Dev.dNeed
    rw [if_pos (by omega)]
    simp only
    rw [h.at_eq 0 (by omega)]
  · have hs1 : d.dSlot c 1 = (d.dTos c + 15) % 16 := rfl
    generalize d.dSlot c 1 = s1 at *
    obtain ⟨f1, f2, f3, f4⟩ := setD_fields d c (d.dDepth c - 1) s1
    have hb := (bankOnly_setD d c (d.dDepth c - 1) s1).bank
    refine ⟨by rw [f1]; omega, fun k hk => ?_, by rw [f3, h.rdepth], fun k hk => ?_, ?_⟩
    · rw [← h.at_eq (k + 1) (by omega)]
      unfold Dev.dAt Dev.dSlot
      rw [hb, f2, setD_r d c _ _ (data_ne_dirty (Nat.mod_lt _ (by decide))), if_neg (data_ne_depth (Nat.mod_lt _ (by decide)))]
      congr 2
      have := d.dTos_lt c
      omega
    · rw [← h.rat_eq k hk]
      unfold Dev.rAt Dev.rSlot
      rw [hb, f4, setD_r d c _ _ (ret_ne_dirty (Nat.mod_lt _ (by decide))), if_neg (ret_ne_depth (Nat.mod_lt _ (by decide)))]
    · rw [← h.flags]
      unfold Dev.flags Dev.f
      rw [hb, setD_r d c _ _ status_ne_dirty, if_neg status_ne_depth]

theorem bankOnly_dWrite (d : Dev) (c : Core) (s : Nat) (v : Word) (hs : s < 16) : d.BankOnly c (d.dWrite c s v) := by
  have h1 := bankOnly_w d c (BNK_DATA c (d.curBank c) s) v (bankWord_mem d c (.inr (.inr (.inr (.inl ⟨s, hs, rfl⟩)))))
    (fun h => absurd h (data_ne_status hs))
  exact h1.trans (bankOnly_dirty _ c _)

theorem dWrite_r (d : Dev) (c : Core) (s : Nat) (v : Word) (hs : s < 16) {x : Nat} (hx : x ≠ BNK_DIRTY c (d.curBank c)) :
    (d.dWrite c s v).r x = if x = BNK_DATA c (d.curBank c) s then v else d.r x := by
  have h1 := bankOnly_w d c (BNK_DATA c (d.curBank c) s) v (bankWord_mem d c (.inr (.inr (.inr (.inl ⟨s, hs, rfl⟩)))))
    (fun h => absurd h (data_ne_status hs))
  unfold Dev.dWrite
  rw [dirty_r _ _ _ (by rw [h1.bank]; exact hx), Dev.r_w]

theorem bankOnly_rWrite (d : Dev) (c : Core) (s : Nat) (v : Word) (hs : s < 8) : d.BankOnly c (d.rWrite c s v) := by
  have h1 := bankOnly_w d c (BNK_RET c (d.curBank c) s) v (bankWord_mem d c (.inr (.inr (.inr (.inr ⟨s, hs, rfl⟩)))))
    (fun h => absurd h (ret_ne_status hs))
  exact h1.trans (bankOnly_dirty _ c _)

theorem rWrite_r (d : Dev) (c : Core) (s : Nat) (v : Word) (hs : s < 8) {x : Nat} (hx : x ≠ BNK_DIRTY c (d.curBank c)) :
    (d.rWrite c s v).r x = if x = BNK_RET c (d.curBank c) s then v else d.r x := by
  have h1 := bankOnly_w d c (BNK_RET c (d.curBank c) s) v (bankWord_mem d c (.inr (.inr (.inr (.inr ⟨s, hs, rfl⟩)))))
    (fun h => absurd h (ret_ne_status hs))
  unfold Dev.rWrite
  rw [dirty_r _ _ _ (by rw [h1.bank]; exact hx), Dev.r_w]

theorem dPut_sees {d : Dev} {c : Core} {n at_ rn rat fl} (h : d.Sees c n at_ rn rat fl) (hn : n < 16) (v : Word) :
    d.BankOnly c (d.dPut c v) ∧ (d.dPut c v).Sees c (n + 1) (fun k => if k = 0 then v else at_ (k - 1)) rn rat fl := by
  have ht : (d.dTos c + 1) % 16 < 16 := Nat.mod_lt _ (by decide)
  have b1 := bankOnly_dWrite d c ((d.dTos c + 1) % 16) v ht
  have b2 := bankOnly_setD (d.dWrite c ((d.dTos c + 1) % 16) v) c (d.dDepth c + 1) ((d.dTos c + 1) % 16)
  have hbb := b1.trans b2
  refine ⟨hbb, ?_⟩
  show Dev.Sees ((d.dWrite c ((d.dTos c + 1) % 16) v).setD c (d.dDepth c + 1) ((d.dTos c + 1) % 16)) c _ _ _ _ _
  obtain ⟨f1, f2, f3, f4⟩ := setD_fields (d.dWrite c ((d.dTos c + 1) % 16) v) c (d.dDepth c + 1) ((d.dTos c + 1) % 16)
  have e2 : (d.dWrite c ((d.dTos c + 1) % 16) v).rDepth c = d.rDepth c := by
    unfold Dev.rDepth Dev.f; rw [b1.bank, dWrite_r _ _ _ _ ht depth_ne_dirty, if_neg (data_ne_depth ht).symm]
  have e3 : (d.dWrite c ((d.dTos c + 1) % 16) v).rTos c = d.rTos c := by
    unfold Dev.rTos Dev.f; rw [b1.bank, dWrite_r _ _ _ _ ht depth_ne_dirty, if_neg (data_ne_depth ht).symm]
  have hd := h.depth
  have hbk := hbb.bank
  have hreg : ∀ x, x ≠ BNK_DIRTY c (d.curBank c) → x ≠ BNK_DEPTH c (d.curBank c) →
      ((d.dWrite c ((d.dTos c + 1) % 16) v).setD c (d.dDepth c + 1) ((d.dTos c + 1) % 16)).r x =
      if x = BNK_DATA c (d.curBank c) ((d.dTos c + 1) % 16) then v else d.r x := by
    intro x h1 h2
    rw [setD_r _ c _ _ (by rw [b1.bank]; exact h1), b1.bank, if_neg h2, dWrite_r _ _ _ _ ht h1]
  refine ⟨by rw [f1]; omega, fun k hk => ?_, by rw [f3, e2, h.rdepth], fun k hk => ?_, ?_⟩
  · unfold Dev.dAt Dev.dSlot
    rw [hbk, f2, hreg _ (data_ne_dirty (Nat.mod_lt _ (by decide))) (data_ne_depth (Nat.mod_lt _ (by decide)))]
    have := d.dTos_lt c
    by_cases hk0 : k = 0
    · subst hk0
      rw [if_pos (by rw [data_inj]; omega)]; rfl
    · rw [if_neg (by rw [data_inj]; omega), if_neg hk0, ← h.at_eq (k - 1) (by omega)]
      unfold Dev.dAt Dev.dSlot
      congr 2
      omega
  · rw [← h.rat_eq k hk]
    unfold Dev.rAt Dev.rSlot
    rw [hbk, f4, e3, hreg _ (ret_ne_dirty (Nat.mod_lt _ (by decide))) (ret_ne_depth (Nat.mod_lt _ (by decide))),
      if_neg (data_ne_ret ht).symm]
  · rw [← h.flags]
    unfold Dev.flags Dev.f
    rw [hbk, hreg _ status_ne_dirty status_ne_depth, if_neg (data_ne_status ht).symm]

theorem dPush_held {d : Dev} {c : Core} {n at_ rn rat fl} (h : d.Sees c n at_ rn rat fl) (hn : n < 16) (v : Word) :
    ∃ d', d.dPush c v = .ok d' ∧ d.BankOnly c d' ∧ d'.Sees c (n + 1) (fun k => if k = 0 then v else at_ (k - 1)) rn rat fl :=
  ⟨d.dPut c v, by unfold Dev.dPush; rw [h.depth, if_pos hn], dPut_sees h hn v⟩

theorem dPeek_held {d : Dev} {c : Core} {n at_ rn rat fl} (h : d.Sees c n at_ rn rat fl) {k : Nat} (hk : k < n) :
    d.dPeek c k = .ok (d, at_ k) := by
  unfold Dev.dPeek Dev.dNeed
  rw [h.depth, if_pos (by omega)]
  simp only
  rw [h.at_eq k hk]

theorem rPop_held {d : Dev} {c : Core} {n at_ rn rat fl} (h : d.Sees c n at_ (rn + 1) rat fl) (hn : rn < 15) :
    ∃ d', d.rPop c = .ok (d', rat 0) ∧ d.BankOnly c d' ∧ d'.Sees c n at_ rn (fun k => rat (k + 1)) fl := by
  have hd := h.rdepth
  refine ⟨d.setR c (d.rDepth c - 1) (d.rSlot c 1), ?_, bankOnly_setR d c _ _, ?_⟩
  · unfold Dev.rPop Dev.rNeed
    rw [if_pos (by omega)]
    simp only
    rw [h.rat_eq 0 (by omega)]
  · have hs1 : d.rSlot c 1 = (d.rTos c + 7) % 8 := rfl
    generalize d.rSlot c 1 = s1 at *
    obtain ⟨f1, f2, f3, f4⟩ := setR_fields d c (d.rDepth c - 1) s1
    have hb := (bankOnly_setR d c (d.rDepth c - 1) s1).bank
    refine ⟨by rw [f3, h.depth], fun k hk => ?_, by rw [f1]; omega, fun k hk => ?_, ?_⟩
    · rw [← h.at_eq k hk]
      unfold Dev.dAt Dev.dSlot
      rw [hb, f4, setR_r d c _ _ (data_ne_dirty (Nat.mod_lt _ (by decide))), if_neg (data_ne_depth (Nat.mod_lt _ (by decide)))]
    · rw [← h.rat_eq (k + 1) (by omega)]
      unfold Dev.rAt Dev.rSlot
      rw [hb, f2, setR_r d c _ _ (ret_ne_dirty (Nat.mod_lt _ (by decide))), if_neg (ret_ne_depth (Nat.mod_lt _ (by decide)))]
      congr 2
      have := d.rTos_lt c
      omega
    · rw [← h.flags]
      unfold Dev.flags Dev.f
      rw [hb, setR_r d c _ _ status_ne_dirty, if_neg status_ne_depth]

theorem rPeek_held {d : Dev} {c : Core} {n at_ rn rat fl} (h : d.Sees c n at_ rn rat fl) (hk : 0 < rn) :
    d.rPeek c = .ok (d, rat 0) := by
  unfold Dev.rPeek Dev.rNeed
  rw [h.rdepth, if_pos (by omega)]
  simp only
  rw [h.rat_eq 0 hk]

theorem rPush_held {d : Dev} {c : Core} {n at_ rn rat fl} (h : d.Sees c n at_ rn rat fl) (hn : rn < 8) (v : Word) :
    ∃ d', d.rPush c v = .ok d' ∧ d.BankOnly c d' ∧ d'.Sees c n at_ (rn + 1) (fun k => if k = 0 then v else rat (k - 1)) fl := by
  have ht : (d.rTos c + 1) % 8 < 8 := Nat.mod_lt _ (by decide)
  have b1 := bankOnly_rWrite d c ((d.rTos c + 1) % 8) v ht
  have b2 := bankOnly_setR (d.rWrite c ((d.rTos c + 1) % 8) v) c (d.rDepth c + 1) ((d.rTos c + 1) % 8)
  have hbb := b1.trans b2
  refine ⟨d.rPut c v, by unfold Dev.rPush; rw [h.rdepth, if_pos hn], hbb, ?_⟩
  obtain ⟨f1, f2, f3, f4⟩ := setR_fields (d.rWrite c ((d.rTos c + 1) % 8) v) c (d.rDepth c + 1) ((d.rTos c + 1) % 8)
  have e2 : (d.rWrite c ((d.rTos c + 1) % 8) v).dDepth c = d.dDepth c := by
    unfold Dev.dDepth Dev.f; rw [b1.bank, rWrite_r _ _ _ _ ht depth_ne_dirty, if_neg (ret_ne_depth ht).symm]
  have e3 : (d.rWrite c ((d.rTos c + 1) % 8) v).dTos c = d.dTos c := by
    unfold Dev.dTos Dev.f; rw [b1.bank, rWrite_r _ _ _ _ ht depth_ne_dirty, if_neg (ret_ne_depth ht).symm]
  have hd := h.rdepth
  have hbk := hbb.bank
  change ((d.rWrite c ((d.rTos c + 1) % 8) v).setR c (d.rDepth c + 1) ((d.rTos c + 1) % 8)).Sees c _ _ _ _ _
  have hreg : ∀ x, x ≠ BNK_DIRTY c (d.curBank c) → x ≠ BNK_DEPTH c (d.curBank c) →
      ((d.rWrite c ((d.rTos c + 1) % 8) v).setR c (d.rDepth c + 1) ((d.rTos c + 1) % 8)).r x =
      if x = BNK_RET c (d.curBank c) ((d.rTos c + 1) % 8) then v else d.r x := by
    intro x h1 h2
    rw [setR_r _ c _ _ (by rw [b1.bank]; exact h1), b1.bank, if_neg h2, rWrite_r _ _ _ _ ht h1]
  refine ⟨by rw [f3, e2, h.depth], fun k hk => ?_, by rw [f1]; omega, fun k hk => ?_, ?_⟩
  · rw [← h.at_eq k hk]
    unfold Dev.dAt Dev.dSlot
    rw [hbk, f4, e3, hreg _ (data_ne_dirty (Nat.mod_lt _ (by decide))) (data_ne_depth (Nat.mod_lt _ (by decide))),
      if_neg (data_ne_ret (Nat.mod_lt _ (by decide)))]
  · unfold Dev.rAt Dev.rSlot
    rw [hbk, f2, hreg _ (ret_ne_dirty (Nat.mod_lt _ (by decide))) (ret_ne_depth (Nat.mod_lt _ (by decide)))]
    have := d.rTos_lt c
    by_cases hk0 : k = 0
    · subst hk0
      rw [if_pos (by rw [ret_inj]; omega)]; rfl
    · rw [if_neg (by rw [ret_inj]; omega), if_neg hk0, ← h.rat_eq (k - 1) (by omega)]
      unfold Dev.rAt Dev.rSlot
      congr 2
      omega
  · rw [← h.flags]
    unfold Dev.flags Dev.f
    rw [hbk, hreg _ status_ne_dirty status_ne_depth, if_neg (ret_ne_status ht).symm]

end Sys2Proof.Machine
end

