-- ==== Sys2Proof/Laws/CoreUnit.lean ====
section
/-! SUPPORT. One unit of a core that runs: its fetch, its effect, the next address. -/

namespace Sys2Proof.Machine
open Sys2Proof

/-- What a fetch may change: the instruction cache and the captured loop. -/
structure Dev.FetchOnly (d : Dev) (c : Core) (d' : Dev) : Prop where
  core  : { d'.core c with loop := (d.core c).loop } = d.core c
  cores : ∀ x, x ≠ c.val → d'.core x = d.core x
  rest  : { d' with cores := d.cores, icache := d.icache, free := d.free } = d

theorem Dev.FetchOnly.r {d d' : Dev} {c : Core} (h : d.FetchOnly c d') (a : Nat) : d'.r a = d.r a := by
  have := congrArg (fun e => Dev.r e a) h.rest
  exact this

theorem fills_only (c : Nat) (l : List Nat) (d : Dev) : ∃ i f,
    d.each l (fun d a => let x := d.xaddr c a; if d.cacheable c x && !(d.icHolds c x) then d.icFill c x else d) =
      { d with icache := i, free := f } := by
  induction l generalizing d with
  | nil => exact ⟨_, _, rfl⟩
  | cons a l ih =>
    unfold Dev.each at ih ⊢
    simp only [List.foldl]
    cases (d.cacheable c (d.xaddr c a) && !(d.icHolds c (d.xaddr c a)))
    · exact ih d
    · obtain ⟨i, f, e⟩ := ih (d.icFill c (d.xaddr c a))
      exact ⟨i, f, e⟩

theorem fetched_only (d : Dev) (c : Core) (a len : Nat) : d.FetchOnly c (d.fetched c a len) := by
  unfold Dev.fetched
  split
  · exact ⟨rfl, fun _ _ => rfl, rfl⟩
  · obtain ⟨i, f, e⟩ := fills_only c [a, a + len - 1] (d.setCore c { d.core c with loop := none })
    rw [e]
    refine ⟨?_, fun x hx => ?_, rfl⟩
    · simp [Dev.core, Dev.setCore]
    · simp [Dev.core, Dev.setCore, tabGet_tabSet_ne _ _ _ _ hx]

theorem sees_of_r {d d' : Dev} {c : Core} {n at_ rn rat fl} (hr : ∀ a, d'.r a = d.r a) (h : d.Sees c n at_ rn rat fl) :
    d'.Sees c n at_ rn rat fl := by
  have hb : d'.curBank c = d.curBank c := by unfold Dev.curBank Dev.f; rw [hr]
  have ht : d'.dTos c = d.dTos c := by unfold Dev.dTos Dev.f; rw [hb, hr]
  have hrt : d'.rTos c = d.rTos c := by unfold Dev.rTos Dev.f; rw [hb, hr]
  refine ⟨?_, fun k hk => ?_, ?_, fun k hk => ?_, ?_⟩
  · rw [← h.depth]; unfold Dev.dDepth Dev.f; rw [hb, hr]
  · rw [← h.at_eq k hk]; unfold Dev.dAt Dev.dSlot; rw [hb, ht, hr]
  · rw [← h.rdepth]; unfold Dev.rDepth Dev.f; rw [hb, hr]
  · rw [← h.rat_eq k hk]; unfold Dev.rAt Dev.rSlot; rw [hb, hrt, hr]
  · rw [← h.flags]; unfold Dev.flags Dev.f; rw [hb, hr]

/-- A unit of a live core is its effect after the fetch. -/
theorem unit_live {d : Dev} {c : Core} {k : Cond} {len : Nat} (hl : d.CoreLive c k len) (f : Dev → Effect) :
    d.unit c k len f = (d.fetched c (d.pc c) len).unitDone c len (f (d.fetched c (d.pc c) len)) := by
  have hf := fetched_only d c (d.pc c) len
  have hfl : (d.fetched c (d.pc c) len).flags c = d.flags c :=
    (sees_of_r hf.r (d.sees_self c)).flags
  unfold Dev.unit
  simp only [hl.ready, hl.impr, hl.fetch, Bool.not_true, Bool.false_eq_true, if_false, hfl, hl.cond, if_true]

/-- The core goes on at `len` bytes further where nothing is repeated and it does not halt. -/
theorem unitDone_on {d0 d1 : Dev} {c : Core} {len : Nat} (hb : d0.BankOnly c d1) (hrep : d0.repLeft c = 0) (hs : (d0.core c).step1 = false) :
    d0.unitDone c len (.ok (d1, none)) = d1.setPc c (d0.pc c + len) := by
  have hc := hb.core c
  have hr : d1.repLeft c = 0 := by
    unfold Dev.repLeft at hrep ⊢
    rw [hc]
    split
    · next h => rw [if_pos h] at hrep; exact hrep
    · next h =>
      rw [if_neg h] at hrep
      rw [hb.bank, hb.status _ (by decide) (by decide)]
      exact hrep
  show ((d1.goOn c (d0.pc c + len)).unitEnd c) = _
  unfold Dev.goOn
  simp only [hr, if_true]
  unfold Dev.unitEnd Dev.setPc
  simp [hc, hs]

/-- An instruction that works on stacks and flags only. -/
theorem coreStep_of {d : Dev} {c : Core} {len : Nat} {d1 : Dev}
    (hb : (d.fetched c (d.pc c) len).BankOnly c d1) {n rn : Nat} {at_ rat : Nat → Word} {fl : Fl} (hs : d1.Sees c n at_ rn rat fl)
    {pops rpops : Nat} {push rpush : List Word} (hn : n = d.dDepth c - pops + push.length) (hp : pops ≤ d.dDepth c)
    (ht : ∀ k v, push[k]? = some v → at_ k = v) (hw : ∀ k, pops + k < d.dDepth c → at_ (push.length + k) = d.dAt c (pops + k))
    (hrn : rn = d.rDepth c - rpops + rpush.length) (hrp : rpops ≤ d.rDepth c)
    (hrt : ∀ k v, rpush[k]? = some v → rat k = v) (hrw : ∀ k, rpops + k < d.rDepth c → rat (rpush.length + k) = d.rAt c (rpops + k))
    (pc : Nat) : d.CoreStep c pops push rpops rpush fl (pc % 4294967296) (d1.setPc c pc) := by
  have hf := fetched_only d c (d.pc c) len
  generalize d.fetched c (d.pc c) len = d0 at *
  have hbk : d0.curBank c = d.curBank c := by unfold Dev.curBank Dev.f; rw [hf.r]
  have hbw : d0.bankWords c = d.bankWords c := by unfold Dev.bankWords; rw [hbk]
  have hr : ∀ a, (d1.setPc c pc).r a = d1.r a := fun a => rfl
  have hs' := sees_of_r hr hs
  refine ⟨hs'.depth.trans hn, fun k v hk => ?_, fun k hk => ?_, hs'.rdepth.trans hrn, fun k v hk => ?_, fun k hk => ?_, hs'.flags,
    fun g h1 h2 => ?_, ?_, ?_, fun a ha => ?_, fun x hx => ?_, ?_⟩
  · have hlt : k < push.length := by
      rcases Nat.lt_or_ge k push.length with h | h
      · exact h
      · rw [List.getElem?_eq_none h] at hk; cases hk
    rw [hs'.at_eq k (by omega)]; exact ht k v hk
  · rw [hs'.at_eq _ (by omega)]; exact hw k hk
  · have hlt : k < rpush.length := by
      rcases Nat.lt_or_ge k rpush.length with h | h
      · exact h
      · rw [List.getElem?_eq_none h] at hk; cases hk
    rw [hs'.rat_eq k (by omega)]; exact hrt k v hk
  · rw [hs'.rat_eq _ (by omega)]; exact hrw k hk
  · have := hb.status g h1 h2
    rw [hbk] at this
    show d1.f _ g = _
    rw [this]; unfold Dev.f; rw [hf.r]
  · simp [Dev.pc, Dev.setPc]
  · have h1 := hf.core
    have h2 := hb.core c
    simp only [Dev.setPc, Dev.core_setCore, h2]
    rw [← h1]
  · rw [hr, hb.regs a (by rw [hbw]; exact ha), hf.r]
  · simp only [Dev.setPc, Dev.core_setCore_ne _ _ hx, hb.core x, hf.cores x hx]
  · have h1 := hf.rest
    have h2 := hb.rest
    rw [← h1, ← h2]
    simp [Dev.setPc, Dev.setCore]

/-- Runs of an instruction that works on stacks and flags only and goes on at the next one; its effect follows the fetch. -/
theorem core_does_from {s : State} {c : Core} {k : Cond} {len : Nat} {i : Instr} {f : Dev → Except Stop Dev} (hI : s.Inv)
    (hl : s.hw.CoreLive c k len) (he : exec i s = s.done fun d => d.instr c k len f)
    {pops rpops : Nat} {push rpush : List Word} {fl : Fl} {n rn : Nat} {at_ rat : Nat → Word}
    (hf : ∀ d0 : Dev, s.hw.FetchOnly c d0 → d0.Sees c (s.hw.dDepth c) (s.hw.dAt c) (s.hw.rDepth c) (s.hw.rAt c) (s.hw.flags c) →
      ∃ d1, f d0 = .ok d1 ∧ d0.BankOnly c d1 ∧ d1.Sees c n at_ rn rat fl)
    (hn : n = s.hw.dDepth c - pops + push.length) (hp : pops ≤ s.hw.dDepth c)
    (ht : ∀ k v, push[k]? = some v → at_ k = v) (hw : ∀ k, pops + k < s.hw.dDepth c → at_ (push.length + k) = s.hw.dAt c (pops + k))
    (hrn : rn = s.hw.rDepth c - rpops + rpush.length) (hrp : rpops ≤ s.hw.rDepth c)
    (hrt : ∀ k v, rpush[k]? = some v → rat k = v) (hrw : ∀ k, rpops + k < s.hw.rDepth c → rat (rpush.length + k) = s.hw.rAt c (rpops + k)) :
    s.Runs i (s.hw.CoreStep c pops push rpops rpush fl ((s.hw.pc c + len) % 4294967296)) := by
  have hfo := fetched_only s.hw c (s.hw.pc c) len
  obtain ⟨d1, e1, hb, hs⟩ := hf (s.hw.fetched c (s.hw.pc c) len) hfo (sees_of_r hfo.r (s.hw.sees_self c))
  have h := coreStep_of hb hs hn hp ht hw hrn hrp hrt hrw (s.hw.pc c + len)
  have hc := hfo.core
  have hrep : (s.hw.fetched c (s.hw.pc c) len).repLeft c = 0 := by
    have h0 := hl.once
    have hr := congrArg CoreH.rep hc
    simp only at hr
    unfold Dev.repLeft at h0 ⊢
    have hbk : (s.hw.fetched c (s.hw.pc c) len).curBank c = s.hw.curBank c := by unfold Dev.curBank Dev.f; rw [hfo.r]
    rw [hr, hbk]
    unfold Dev.f at h0 ⊢
    rw [hfo.r]; exact h0
  have hst : ((s.hw.fetched c (s.hw.pc c) len).core c).step1 = false := by
    have := congrArg CoreH.step1 hc
    exact this.trans hl.step
  have hpc : (s.hw.fetched c (s.hw.pc c) len).pc c = s.hw.pc c := by
    have := congrArg CoreH.pc hc
    exact this
  have hrun : s.hw.instr c k len f = d1.setPc c (s.hw.pc c + len) := by
    unfold Dev.instr
    rw [unit_live hl, e1]
    simp only
    rw [unitDone_on hb hrep hst, hpc]
  refine runs_of_same hI he ?_ ?_ ?_
  · rw [hrun]; have := congrArg Dev.mem h.rest; exact this
  · rw [hrun]; have := congrArg Dev.beam h.rest; exact this
  · rw [hrun]; exact h

/-- Runs of an instruction that works on stacks and flags only and goes on at the next one. -/
theorem core_does {s : State} {c : Core} {k : Cond} {len : Nat} {i : Instr} {f : Dev → Except Stop Dev} (hI : s.Inv)
    (hl : s.hw.CoreLive c k len) (he : exec i s = s.done fun d => d.instr c k len f)
    {pops rpops : Nat} {push rpush : List Word} {fl : Fl} {n rn : Nat} {at_ rat : Nat → Word}
    (hf : ∀ d0 : Dev, d0.Sees c (s.hw.dDepth c) (s.hw.dAt c) (s.hw.rDepth c) (s.hw.rAt c) (s.hw.flags c) →
      ∃ d1, f d0 = .ok d1 ∧ d0.BankOnly c d1 ∧ d1.Sees c n at_ rn rat fl)
    (hn : n = s.hw.dDepth c - pops + push.length) (hp : pops ≤ s.hw.dDepth c)
    (ht : ∀ k v, push[k]? = some v → at_ k = v) (hw : ∀ k, pops + k < s.hw.dDepth c → at_ (push.length + k) = s.hw.dAt c (pops + k))
    (hrn : rn = s.hw.rDepth c - rpops + rpush.length) (hrp : rpops ≤ s.hw.rDepth c)
    (hrt : ∀ k v, rpush[k]? = some v → rat k = v) (hrw : ∀ k, rpops + k < s.hw.rDepth c → rat (rpush.length + k) = s.hw.rAt c (rpops + k)) :
    s.Runs i (s.hw.CoreStep c pops push rpops rpush fl ((s.hw.pc c + len) % 4294967296)) :=
  core_does_from hI hl he (fun d0 _ hs => hf d0 hs) hn hp ht hw hrn hrp hrt hrw

/-- The same for an instruction that leaves the return stack. -/
theorem core_data {s : State} {c : Core} {k : Cond} {len : Nat} {i : Instr} {f : Dev → Except Stop Dev} (hI : s.Inv)
    (hl : s.hw.CoreLive c k len) (he : exec i s = s.done fun d => d.instr c k len f)
    (n pops : Nat) (at_ : Nat → Word) {push : List Word} {fl : Fl}
    (hf : ∀ d0 : Dev, d0.Sees c (s.hw.dDepth c) (s.hw.dAt c) (s.hw.rDepth c) (s.hw.rAt c) (s.hw.flags c) →
      ∃ d1, f d0 = .ok d1 ∧ d0.BankOnly c d1 ∧ d1.Sees c n at_ (s.hw.rDepth c) (s.hw.rAt c) fl)
    (hn : n = s.hw.dDepth c - pops + push.length) (hp : pops ≤ s.hw.dDepth c)
    (ht : ∀ k v, push[k]? = some v → at_ k = v) (hw : ∀ k, pops + k < s.hw.dDepth c → at_ (push.length + k) = s.hw.dAt c (pops + k)) :
    s.CoreDoes c i len pops push fl :=
  core_does hI hl he hf hn hp ht hw (by simp) (by simp) (by simp) (by simp)

/-- A unary operation on held entries. -/
theorem unary_held {d : Dev} {c : Core} {n at_ rn rat fl} (h : d.Sees c (n + 1) at_ rn rat fl) (hn : n < 16) (f : Fl → Word → Word × Fl) :
    ∃ d', d.unary c f = .ok d' ∧ d.BankOnly c d' ∧
      d'.Sees c (n + 1) (fun k => if k = 0 then (f fl (at_ 0)).1 else at_ (k - 1 + 1)) rn rat (f fl (at_ 0)).2 := by
  obtain ⟨d1, e1, b1, s1⟩ := dPop_held h (by omega)
  have s2 := sees_setFlags s1 (f fl (at_ 0)).2
  have b2 := bankOnly_flags d1 c (f fl (at_ 0)).2
  obtain ⟨d3, e3, b3, s3⟩ := dPush_held s2 hn (f fl (at_ 0)).1
  refine ⟨d3, ?_, (b1.trans b2).trans b3, s3⟩
  unfold Dev.unary
  rw [e1]
  simp only
  rw [s1.flags, e3]

/-- A binary operation on held entries. -/
theorem binary_held {d : Dev} {c : Core} {n at_ rn rat fl} (h : d.Sees c (n + 2) at_ rn rat fl) (hn : n < 15) (f : Fl → Word → Word → Word × Fl) :
    ∃ d', d.binary c f = .ok d' ∧ d.BankOnly c d' ∧
      d'.Sees c (n + 1) (fun k => if k = 0 then (f fl (at_ 1) (at_ 0)).1 else at_ (k - 1 + 1 + 1)) rn rat (f fl (at_ 1) (at_ 0)).2 := by
  obtain ⟨d1, e1, b1, s1⟩ := dPop_held h (by omega)
  obtain ⟨d2, e2, b2, s2⟩ := unary_held s1 (by omega) (fun fl a => f fl a (at_ 0))
  refine ⟨d2, ?_, b1.trans b2, s2⟩
  unfold Dev.binary
  rw [e1]
  exact e2

/-- A check that agrees changes nothing. -/
theorem checked_zero (d : Dev) (c : Core) (k : Cond) (len : Nat) (f : Dev → Except Stop Dev) : d.checked c k len 0 f = d.instr c k len f := by
  unfold Dev.checked Dev.instr
  congr 1

/-- A command that is a unary operation. -/
theorem core_unary {s : State} {c : Core} {k : Cond} {len : Nat} {i : Instr} (f : Fl → Word → Word × Fl) (hI : s.Inv)
    (hl : s.hw.CoreLive c k len) (hd : s.hw.dDepth c ≤ 16) (h1 : 1 ≤ s.hw.dDepth c)
    (he : exec i s = s.done fun d => d.instr c k len fun d => d.unary c f) {r : Word} {fl : Fl}
    (hr : f (s.hw.flags c) (s.hw.dAt c 0) = (r, fl)) : s.CoreDoes c i len 1 [r] fl := by
  obtain ⟨n, hn⟩ : ∃ n, s.hw.dDepth c = n + 1 := ⟨_, (Nat.sub_add_cancel h1).symm⟩
  refine core_does hI hl he (fun d0 h0 => ?_) (n := n + 1) (rn := s.hw.rDepth c)
    (at_ := fun k => if k = 0 then r else s.hw.dAt c (k - 1 + 1)) (rat := s.hw.rAt c) ?_ h1 ?_ ?_ (by simp) (by simp) (by simp) (by simp)
  · rw [hn] at h0
    have := unary_held h0 (by omega) f
    rw [hr] at this
    exact this
  · simp; omega
  · intro k v hk
    cases k with
    | zero => simpa using hk
    | succ k => simp at hk
  · intro k hk; simp [Nat.add_comm]

/-- A command that is a binary operation. -/
theorem core_binary {s : State} {c : Core} {k : Cond} {len : Nat} {i : Instr} (f : Fl → Word → Word → Word × Fl) (hI : s.Inv)
    (hl : s.hw.CoreLive c k len) (hd : s.hw.dDepth c ≤ 16) (h1 : 2 ≤ s.hw.dDepth c)
    (he : exec i s = s.done fun d => d.instr c k len fun d => d.binary c f) {r : Word} {fl : Fl}
    (hr : f (s.hw.flags c) (s.hw.dAt c 1) (s.hw.dAt c 0) = (r, fl)) : s.CoreDoes c i len 2 [r] fl := by
  obtain ⟨n, hn⟩ : ∃ n, s.hw.dDepth c = n + 2 := ⟨_, (Nat.sub_add_cancel h1).symm⟩
  refine core_does hI hl he (fun d0 h0 => ?_) (n := n + 1) (rn := s.hw.rDepth c)
    (at_ := fun k => if k = 0 then r else s.hw.dAt c (k - 1 + 1 + 1)) (rat := s.hw.rAt c) ?_ h1 ?_ ?_ (by simp) (by simp) (by simp) (by simp)
  · rw [hn] at h0
    have := binary_held h0 (by omega) f
    rw [hr] at this
    exact this
  · simp; omega
  · intro k v hk
    cases k with
    | zero => simpa using hk
    | succ k => simp at hk
  · intro k hk
    show (if [r].length + k = 0 then r else _) = _
    rw [if_neg (by simp)]
    congr 1
    simp; omega

end Sys2Proof.Machine
end

