-- ==== Sys2Proof/Laws/CoreAccess.lean ====
section
/-! SUPPORT. What decides a core's access, and that stacks, flags and the fetch leave it as it was; loads from memory. -/

namespace Sys2Proof.Machine
open Sys2Proof

/-- Accesses of core `c` meet the same errors in states that agree on what decides them. -/
structure SameAccess (d : Dev) (c : Core) (d' : Dev) : Prop where
  part : d'.part = d.part
  chozer : d'.chozer = d.chozer
  grants : d'.grants = d.grants
  low : ∀ a, a < 0x1000000000 → d'.r a = d.r a
  level : d'.level c = d.level c

theorem SameAccess.curBank {d d' : Dev} {c : Core} (h : SameAccess d c d') : d'.curBank c = d.curBank c := by
  unfold Dev.curBank Dev.f; rw [h.low]; have := c.isLt; unfold CORE_STATUS; omega

theorem SameAccess.xaddr {d d' : Dev} {c : Core} (h : SameAccess d c d') (a : Nat) : d'.xaddr c a = d.xaddr c a := by
  have hb : d'.r (BANKWIN c) = d.r (BANKWIN c) := h.low _ (by have := c.isLt; unfold BANKWIN; omega)
  unfold Dev.xaddr Dev.b Dev.f
  rw [h.curBank, hb]

theorem sramBank_lt (x : Nat) : sramBank x < 64 := by
  unfold sramBank nfield
  have h : ∀ a b : Nat, a < 64 → b < 64 → a ^^^ b < 64 := fun a b ha hb => Nat.xor_lt_two_pow (n := 6) ha hb
  exact h _ _ (h _ _ (h _ _ (Nat.mod_lt _ (by decide)) (Nat.mod_lt _ (by decide))) (Nat.mod_lt _ (by decide))) (Nat.lt_of_lt_of_le (Nat.mod_lt _ (by decide)) (by decide))

theorem domainOf_lt (x : Nat) : domainOf x < 1000000 := by
  have hs := sramBank_lt x
  unfold domainOf
  split
  · omega
  · split
    · simp only; split <;> (try split) <;> omega
    · split
      · simp only; (repeat' split) <;> omega
      · split
        · omega
        · split
          · omega
          · split
            · simp only
              have : ∀ k, k ≤ 73 → 10 * ((x - 1073741824) / 16777216) + k < 1000000 := by intro k hk; omega
              apply this
              (repeat' split) <;> omega
            · split
              · (repeat' split) <;> (try simp only) <;> (repeat' split) <;> omega
              · split
                · omega
                · split <;> omega

theorem SameAccess.unpowered {d d' : Dev} {c : Core} (h : SameAccess d c d') (x : Nat) : d'.unpowered x = d.unpowered x := by
  unfold Dev.unpowered Dev.powered Dev.bit Dev.f
  rw [h.low]
  have := domainOf_lt x
  unfold PWR_DOM; omega

theorem place_trace {x n : Nat} (h : placeOf x = .trace n) : n < 6 := by
  unfold placeOf at h
  split at h; · cases h
  split at h; · split at h <;> cases h
  split at h; · cases h
  split at h; · cases h
  split at h
  · next hh => cases h; omega
  split at h; · split at h <;> cases h
  split at h <;> cases h

theorem SameAccess.accessErr {d d' : Dev} {c : Core} (h : SameAccess d c d') (a n : Nat) (w : Bool) :
    d'.accessErr c a n w = d.accessErr c a n w := by
  have hi : d'.hasIsl = d.hasIsl := by funext k; unfold Dev.hasIsl; rw [h.part]
  have hm : d'.mayWrite c = d.mayWrite c := by funext k; unfold Dev.mayWrite Dev.grant; rw [h.grants]
  have hl : d'.reqLevel c = d.reqLevel c := by unfold Dev.reqLevel; rw [h.level]
  have ha : ∀ x, d'.absent x = d.absent x := by intro x; unfold Dev.absent; rw [hi, h.part]
  have hp : ∀ x, d'.pndRefused c x = d.pndRefused c x := by intro x; unfold Dev.pndRefused; rw [hm]
  have hn : ∀ a x w, d'.noPriv c a x w = d.noPriv c a x w := by
    intro a x w
    unfold Dev.noPriv
    rw [hl, h.chozer, hp, hm]
    by_cases hx : 0x48900000 ≤ x ∧ x < 0x48901000
    · have : d'.f (MBX_OWNER ((x - 0x48900000) / 0x100)) MBX_OWNER_OWNER = d.f (MBX_OWNER ((x - 0x48900000) / 0x100)) MBX_OWNER_OWNER := by
        unfold Dev.f; rw [h.low]; unfold MBX_OWNER; omega
      rw [this]
    · simp only [decide_eq_false hx, Bool.false_and]
  have hu : ∀ a x n w, d'.undecoded c a x n w = d.undecoded c a x n w := by
    intro a x n w
    unfold Dev.undecoded
    rw [h.unpowered]
    split; · rfl
    split; · rfl
    cases hp : placeOf x with
    | trace k =>
      have := place_trace hp
      simp only
      congr 1
      unfold Dev.b Dev.f; rw [h.low]; unfold ABX_TRC_CTL; omega
    | _ => rfl
  unfold Dev.accessErr
  simp only [h.xaddr, ha, hu, hn]

theorem SameAccess.refl (d : Dev) (c : Core) : SameAccess d c d := ⟨rfl, rfl, rfl, fun _ _ => rfl, rfl⟩
theorem SameAccess.trans {a b e : Dev} {c : Core} (h : SameAccess a c b) (g : SameAccess b c e) : SameAccess a c e :=
  ⟨g.part.trans h.part, g.chozer.trans h.chozer, g.grants.trans h.grants, fun x hx => (g.low x hx).trans (h.low x hx), g.level.trans h.level⟩

theorem same_fetchOnly {d d' : Dev} {c : Core} (h : d.FetchOnly c d') : SameAccess d c d' := by
  refine ⟨?_, ?_, ?_, fun a _ => h.r a, ?_⟩
  · have := congrArg Dev.part h.rest; exact this
  · have := congrArg Dev.chozer h.rest; exact this
  · have := congrArg Dev.grants h.rest; exact this
  · unfold Dev.level Dev.curBank Dev.bankLevel Dev.f; simp only [h.r]

theorem bankWords_ge {d : Dev} {c : Core} {a : Nat} (h : a ∈ d.bankWords c) : 0x1000000000 ≤ a := by
  unfold Dev.bankWords at h
  simp only [List.mem_cons, List.mem_append, List.mem_map, List.mem_range] at h
  rcases h with h1 | h1 | h1 | ⟨s, h2, h1⟩ | ⟨s, h2, h1⟩
  · unfold BNK_STATUS at h1; omega
  · unfold BNK_DEPTH at h1; omega
  · unfold BNK_DIRTY at h1; omega
  · unfold BNK_DATA at h1; omega
  · unfold BNK_RET at h1; omega

theorem same_bankOnly {d d' : Dev} {c : Core} (h : d.BankOnly c d') : SameAccess d c d' := by
  refine ⟨?_, ?_, ?_, fun a ha => h.regs a (fun hm => by have := bankWords_ge hm; omega), ?_⟩
  · have := congrArg Dev.part h.rest; exact this
  · have := congrArg Dev.chozer h.rest; exact this
  · have := congrArg Dev.grants h.rest; exact this
  · unfold Dev.level Dev.bankLevel; rw [h.bank, h.status BNK_STATUS_LEVEL (by decide) (by decide)]

/-- The same memory and store buffer as well. -/
structure SameMem (d : Dev) (c : Core) (d' : Dev) : Prop extends SameAccess d c d' where
  mem : d'.mem = d.mem
  sb  : (d'.core c).sb = (d.core c).sb
  ue  : (d'.core c).ue = (d.core c).ue

theorem sameMem_fetchOnly {d d' : Dev} {c : Core} (h : d.FetchOnly c d') : SameMem d c d' := by
  refine ⟨same_fetchOnly h, ?_, ?_, ?_⟩
  · have := congrArg Dev.mem h.rest; exact this
  · have := congrArg CoreH.sb h.core; exact this
  · have := congrArg CoreH.ue h.core; exact this

theorem sameMem_bankOnly {d d' : Dev} {c : Core} (h : d.BankOnly c d') : SameMem d c d' := by
  refine ⟨same_bankOnly h, ?_, ?_, ?_⟩
  · have := congrArg Dev.mem h.rest; exact this
  · rw [h.core]
  · rw [h.core]

theorem SameMem.trans {a b e : Dev} {c : Core} (h : SameMem a c b) (g : SameMem b c e) : SameMem a c e :=
  ⟨h.toSameAccess.trans g.toSameAccess, g.mem.trans h.mem, g.sb.trans h.sb, g.ue.trans h.ue⟩

theorem loadN_mem {d d' : Dev} (h : d'.mem = d.mem) (a n : Nat) : d'.loadN a n = d.loadN a n := by
  induction n generalizing a with
  | zero => rfl
  | succ n ih => unfold Dev.loadN; rw [ih]; unfold Dev.byte; rw [h]

theorem SameMem.loadsPart {d d' : Dev} {c : Core} (h : SameMem d c d') {a n v : Nat} (l : d.LoadsPart c a n v) : d'.LoadsPart c a n v := by
  have hx := h.xaddr a
  refine ⟨(h.accessErr a n false).trans l.ok, by rw [hx]; exact l.mem, ?_, h.ue.trans l.ue, ?_⟩
  · rw [hx, ← l.line]
    unfold Dev.cacheable Dev.b Dev.f
    rw [h.low]; have := c.isLt; unfold CORE_CTL; omega
  · rw [hx, h.sb, loadN_mem h.mem]
    have : d'.forwarded c (d.xaddr c a) n = d.forwarded c (d.xaddr c a) n := by
      unfold Dev.forwarded Dev.overlaps
      rw [h.sb]; simp only [h.xaddr]
    rw [this]; exact l.val

theorem loadPart_ok {d : Dev} {c : Core} {a n v : Nat} (l : d.LoadsPart c a n v) (cause : Nat) : d.loadPart c cause a n = .ok (d, v) := by
  unfold Dev.loadPart
  rw [l.ok]
  simp only
  have hw : waitsEmpty (d.xaddr c a) = false := by unfold waitsEmpty; rw [l.mem]
  have hl : d.readWaits c a n = false := by unfold Dev.readWaits; rw [l.mem]; rfl
  cases hf : d.forwarded c (d.xaddr c a) n with
  | some u =>
    simp only
    rcases l.val with h | ⟨h, _⟩
    · rw [hf] at h; cases h; rfl
    · unfold Dev.forwarded at hf; rw [h] at hf; simp at hf
  | none =>
    rcases l.val with h | ⟨h, hv⟩
    · rw [hf] at h; cases h
    · simp only [h, hw]
      have : lastOverlap (d.overlaps c (d.xaddr c a) n) [] = 0 := rfl
      simp only [Bool.false_eq_true, if_false, this]
      show (if d.readWaits c a n = true then _ else _) = _
      rw [hl]
      simp only [Bool.false_eq_true, if_false, Dev.drainMany]
      have hr : d.coreRead c (d.xaddr c a) n = (d, v, .none) := by
        unfold Dev.coreRead
        have : d.coreUe c (d.xaddr c a) n = false := by unfold Dev.coreUe; rw [l.ue]
        simp only [l.line, Bool.false_and, Bool.false_eq_true, if_false, this]
        have hp : d.readPlace c (d.xaddr c a) n = (d, v, .none) := by unfold Dev.readPlace; rw [l.mem, hv]
        rw [hp]
        simp only [l.line, Bool.false_eq_true, if_false]
      rw [hr]

theorem coreLoad_ok {d : Dev} {c : Core} {a n v : Nat} (l : d.Loads c a n v) (h1 : 1 ≤ n) (h4 : n ≤ 4) (cause : Nat) :
    d.coreLoad c cause a n = .ok (d, v) := by
  unfold Dev.Loads at l
  unfold Dev.coreLoad
  by_cases h : a % 4 + n ≤ 4
  · rw [if_pos h] at l
    have hk : lowHalf a n = n := by unfold lowHalf; omega
    rw [hk]
    show (d.loadPart c cause a n >>= _) = _
    rw [loadPart_ok l]
    show (if n = n then Except.ok (d, v) else _) = _
    rw [if_pos rfl]
  · rw [if_neg h] at l
    obtain ⟨v1, v2, l1, l2, rfl⟩ := l
    have hk : lowHalf a n = 4 - a % 4 := by unfold lowHalf; omega
    rw [hk]
    show (d.loadPart c cause a (4 - a % 4) >>= _) = _
    rw [loadPart_ok l1]
    show (if 4 - a % 4 = n then _ else d.loadPart c cause ((a + (4 - a % 4)) % 4294967296) (n - (4 - a % 4)) >>= _) = _
    rw [if_neg (by omega), loadPart_ok l2]
    rfl

theorem SameMem.loads {d d' : Dev} {c : Core} (h : SameMem d c d') {a n v : Nat} (l : d.Loads c a n v) : d'.Loads c a n v := by
  unfold Dev.Loads at l ⊢
  split
  · next hh => rw [if_pos hh] at l; exact h.loadsPart l
  · next hh =>
    rw [if_neg hh] at l
    obtain ⟨v1, v2, l1, l2, e⟩ := l
    exact ⟨v1, v2, h.loadsPart l1, h.loadsPart l2, e⟩

theorem forwarded_lt {d : Dev} {c x n v : Nat} (h : d.forwarded c x n = some v) : v < 256 ^ n := by
  unfold Dev.forwarded at h
  split at h
  · simp only at h; split at h
    · cases h; exact Nat.mod_lt _ (Nat.pos_of_ne_zero (by simp))
    · cases h
  · cases h

theorem loadN_lt (d : Dev) (a n : Nat) : d.loadN a n < 256 ^ n := by
  induction n generalizing a with
  | zero => simp [Dev.loadN]
  | succ n ih => have := ih (a + 1); have := (d.byte a).isLt; unfold Dev.loadN; rw [Nat.pow_succ]; omega

theorem LoadsPart_lt {d : Dev} {c : Core} {a n v : Nat} (l : d.LoadsPart c a n v) : v < 256 ^ n := by
  rcases l.val with h | ⟨_, rfl⟩
  · exact forwarded_lt h
  · exact loadN_lt _ _ _

theorem Loads_lt {d : Dev} {c : Core} {a n v : Nat} (l : d.Loads c a n v) : v < 256 ^ n := by
  unfold Dev.Loads at l
  split at l
  · exact LoadsPart_lt l
  · next hh =>
    obtain ⟨v1, v2, l1, l2, rfl⟩ := l
    have a1 := LoadsPart_lt l1
    have a2 := LoadsPart_lt l2
    have : 256 ^ n = 256 ^ (4 - a % 4) * 256 ^ (n - (4 - a % 4)) := by rw [← Nat.pow_add]; congr 1; omega
    rw [this]
    calc v1 + 256 ^ (4 - a % 4) * v2 < 256 ^ (4 - a % 4) + 256 ^ (4 - a % 4) * v2 := by omega
      _ = 256 ^ (4 - a % 4) * (v2 + 1) := by rw [Nat.mul_add]; omega
      _ ≤ _ := Nat.mul_le_mul_left _ a2

/-- core_data where the effect also sees what loads see. -/
theorem core_mem {s : State} {c : Core} {k : Cond} {len : Nat} {i : Instr} {f : Dev → Except Stop Dev} (hI : s.Inv)
    (hl : s.hw.CoreLive c k len) (he : exec i s = s.done fun d => d.instr c k len f)
    (n pops : Nat) (at_ : Nat → Word) {push : List Word} {fl : Fl}
    (hf : ∀ d0 : Dev, SameMem s.hw c d0 → d0.Sees c (s.hw.dDepth c) (s.hw.dAt c) (s.hw.rDepth c) (s.hw.rAt c) (s.hw.flags c) →
      ∃ d1, f d0 = .ok d1 ∧ d0.BankOnly c d1 ∧ d1.Sees c n at_ (s.hw.rDepth c) (s.hw.rAt c) fl)
    (hn : n = s.hw.dDepth c - pops + push.length) (hp : pops ≤ s.hw.dDepth c)
    (ht : ∀ k v, push[k]? = some v → at_ k = v) (hw : ∀ k, pops + k < s.hw.dDepth c → at_ (push.length + k) = s.hw.dAt c (pops + k)) :
    s.CoreDoes c i len pops push fl :=
  core_does_from hI hl he (fun d0 hfo hs => hf d0 (sameMem_fetchOnly hfo) hs) hn hp ht hw (by simp) (by simp) (by simp) (by simp)

theorem loading_ok {d : Dev} {c : Core} {n len at_ rn rat fl} {m : MemForm} (h : d.Sees c (len + 1) at_ rn rat fl) (hn : len < 16) {v : Nat} (ext : Nat → Word)
    (h1 : 1 ≤ n) (h4 : n ≤ 4) (l : d.Loads c (memAddr (at_ 0) m).toNat n v) :
    ∃ d', d.loading c n m ext = .ok d' ∧ d.BankOnly c d' ∧
      d'.Sees c (len + 1) (fun k => if k = 0 then ext v else at_ (k - 1 + 1)) rn rat fl := by
  obtain ⟨d1, e1, b1, s1⟩ := dPop_held h (by omega)
  have l1 := (sameMem_bankOnly b1).loads l
  obtain ⟨d3, e3, b3, s3⟩ := dPush_held s1 (by omega) (ext v)
  refine ⟨d3, ?_, b1.trans b3, s3⟩
  unfold Dev.loading
  rw [e1]
  show (d1.coreLoad c tDATA (memAddr (at_ 0) m).toNat n >>= fun q => q.1.dPush c (ext q.2)) = _
  rw [coreLoad_ok l1 h1 h4]
  exact e3

end Sys2Proof.Machine
end

