-- ==== Sys2Proof/Laws/Events.lean ====
section
/-! SUPPORT. What firing an event and raising a source depend on. -/

namespace Sys2Proof.Machine
open Sys2Proof

/-- Two states that agree on the channel selections fire the same channels. -/
theorem fireAt_transit {d d' : Dev} (isl code o : Nat) (ht : d'.transit = d.transit)
    (hc : ∀ c, c < 128 → isl < 6 → d'.r (FLG_CH isl c) = d.r (FLG_CH isl c)) (hs : ∀ c, c < 128 → d'.r (FLG_SCH c) = d.r (FLG_SCH c)) :
    (d'.fireAt isl code o).transit = (d.fireAt isl code o).transit := by
  unfold Dev.fireAt
  split
  · exact ht
  · have h1 : isl < 6 → d'.islandChans isl code = d.islandChans isl code := by
      intro hi
      unfold Dev.islandChans Dev.f
      congr 1
      apply List.filter_congr
      intro c hm
      rw [hc c (by simpa using hm) hi]
    have h2 : d'.spineChans isl code = d.spineChans isl code := by
      unfold Dev.spineChans Dev.f
      apply List.filter_congr
      intro c hm
      rw [hs c (by simpa using hm)]
    by_cases hi : isl < 6
    · simp [ht, hi, h1 hi, h2]
    · simp [ht, hi, h2]

theorem fire_transit {d d' : Dev} (isl code : Nat) (hb : d'.beam = d.beam) (ht : d'.transit = d.transit)
    (hc : ∀ c, c < 128 → isl < 6 → d'.r (FLG_CH isl c) = d.r (FLG_CH isl c)) (hs : ∀ c, c < 128 → d'.r (FLG_SCH c) = d.r (FLG_SCH c)) :
    (d'.fire isl code).transit = (d.fire isl code).transit := by
  unfold Dev.fire; rw [hb]; exact fireAt_transit isl code d.beam ht hc hs

end Sys2Proof.Machine
end

