-- ==== Sys2Proof/Laws/Flags.lean ====
section
/-! SUPPORT. Results and flags of the Reckoner's arithmetic in closed form. -/

namespace Sys2Proof.Machine
open Sys2Proof

theorem flZN_eq (f : Fl) (r : Word) : flZN f r = f.zn r := by
  rfl

theorem word_eq {a b : Word} (h : a.toInt = b.toInt) : a = b := BitVec.eq_of_toInt_eq h

theorem wordOfInt_eq (x : Int) : wordOfInt x = BitVec.ofInt 32 x := by
  apply BitVec.eq_of_toNat_eq
  simp [wordOfInt]
  omega

theorem fits_eq (x : Int) : (!(fits32 x)) = decide ((BitVec.ofInt 32 x).toInt ≠ x) := by
  rw [Bool.eq_iff_iff]
  simp only [fits32, Bool.not_eq_true', decide_eq_false_iff_not, decide_eq_true_eq, BitVec.toInt_ofInt, Int.bmod_def]
  split <;> omega

theorem addFl_eq (f : Fl) (a b : Word) (n : Nat) : addFl f a b n = (a + b + BitVec.ofNat 32 n, { f.zn (a + b + BitVec.ofNat 32 n) with
      c := decide (2 ^ 32 ≤ a.toNat + b.toNat + n), v := decide ((a + b + BitVec.ofNat 32 n).toInt ≠ a.toInt + b.toInt + n) }) := by
  have hr : (wordOf (a.toNat + b.toNat + n) : Word) = a + b + BitVec.ofNat 32 n := by
    apply BitVec.eq_of_toNat_eq
    simp [wordOf]
  have hi : BitVec.ofInt 32 (a.toInt + b.toInt + n) = a + b + BitVec.ofNat 32 n := by
    simp [BitVec.ofInt_add]
  unfold addFl
  simp only [flZN_eq, hr, sval_eq_toInt, fits_eq, hi]
  all_goals rfl

theorem subFl_eq (f : Fl) (a b : Word) (n : Nat) : subFl f a b n = (a - b - BitVec.ofNat 32 n, { f.zn (a - b - BitVec.ofNat 32 n) with
      c := decide (b.toNat + n ≤ a.toNat), v := decide ((a - b - BitVec.ofNat 32 n).toInt ≠ a.toInt - b.toInt - n) }) := by
  have hi : BitVec.ofInt 32 (a.toInt - b.toInt - n) = a - b - BitVec.ofNat 32 n := by
    simp [Int.sub_eq_add_neg, BitVec.ofInt_add, BitVec.ofInt_neg, BitVec.sub_eq_add_neg]
  have hr : (wordOfInt (a.toNat - b.toNat - n) : Word) = a - b - BitVec.ofNat 32 n := by
    rw [wordOfInt_eq]
    simp [Int.sub_eq_add_neg, BitVec.ofInt_add, BitVec.ofInt_neg, BitVec.sub_eq_add_neg]
  unfold subFl
  simp only [flZN_eq, hr, sval_eq_toInt, fits_eq, hi]

theorem addFl_zero (f : Fl) (a b : Word) : addFl f a b 0 = (a + b, { f.zn (a + b + BitVec.ofNat 32 0) with
      c := decide (2 ^ 32 ≤ a.toNat + b.toNat + 0), v := decide ((a + b + BitVec.ofNat 32 0).toInt ≠ a.toInt + b.toInt + (0 : Nat)) }) := by
  rw [addFl_eq]; simp
theorem subFl_zero (f : Fl) (a b : Word) : subFl f a b 0 = (a - b, { f.zn (a - b - BitVec.ofNat 32 0) with
      c := decide (b.toNat + 0 ≤ a.toNat), v := decide ((a - b - BitVec.ofNat 32 0).toInt ≠ a.toInt - b.toInt - (0 : Nat)) }) := by
  rw [subFl_eq]; simp

end Sys2Proof.Machine
end

