-- ==== Sys2Proof/Laws/Rods.lean ====
section
/-! SUPPORT. What one microinstruction of a rod can do. -/

namespace Sys2Proof.Machine
open Sys2Proof

/-- What a write to an operand address that takes it leaves. -/
structure Dev.RodPut (d : Dev) (n r a : Nat) (v : Word) (d' : Dev) : Prop where
  same : d'.rodRead n r a = .val (if a = 0xF0 then 0 else v)
  others : ∀ b, b ≠ a → d'.rodRead n r b = d.rodRead n r b
  a0 : (d'.rod r).a0 = (d.rod r).a0
  a1 : (d'.rod r).a1 = (d.rod r).a1
  p : (d'.rod r).p = (d.rod r).p
  pc : (d'.rod r).pc = (d.rod r).pc
  run : (d'.rod r).run = (d.rod r).run
  done : (d'.rod r).done = (d.rod r).done
  sat : (d'.rod r).sat = (d.rod r).sat
  rods : ∀ q, q ≠ r → d'.rod q = d.rod q
  frames : ∀ m, m ≠ n → d'.frame m = d.frame m
  frame : { d'.frame n with x := (d.frame n).x } = d.frame n
  rest : { d' with rods := d.rods, frames := d.frames } = d

theorem rodWrite_some (d : Dev) (n r : Nat) (a : Nat) (v : Word)
    (h : a < 0x40 ∨ (a < 0x80 ∧ tabGet none (d.frame n).x (a - 0x40) = none) ∨ a = 0xF0) :
    ∃ d', d.rodWrite n r a v = some d' ∧ d.RodPut n r a v d' := by
  by_cases h1 : a < 0x20
  · have e : d.rodWrite n r a v = some (d.setRod r { d.rod r with w := tabSet 0 (d.rod r).w a v }) := by simp [Dev.rodWrite, h1]
    refine ⟨_, e, ?_, ?_, by simp, by simp, by simp, by simp, by simp, by simp, by simp, ?_, ?_, ?_, rfl⟩
    · have : a ≠ 0xF0 := by omega
      simp [Dev.rodRead, h1, this]
    · intro b hb
      by_cases hb1 : b < 0x20
      · simp [Dev.rodRead, hb1, tabGet_tabSet_ne _ _ _ _ hb]
      · simp [Dev.rodRead, hb1]
    · intro q hq; simp [Dev.rod_setRod_ne _ _ hq]
    · intro m hm; rfl
    · rfl
  by_cases h2 : a < 0x40
  · have e : d.rodWrite n r a v = some (d.setRod r { d.rod r with s := tabSet none (d.rod r).s (a - 0x20) (some v) }) := by
      simp [Dev.rodWrite, h1, h2]
    refine ⟨_, e, ?_, ?_, by simp, by simp, by simp, by simp, by simp, by simp, by simp, ?_, ?_, ?_, rfl⟩
    · have : a ≠ 0xF0 := by omega
      simp [Dev.rodRead, h1, h2, this]
    · intro b hb
      by_cases hb1 : b < 0x20
      · simp [Dev.rodRead, hb1]
      by_cases hb2 : b < 0x40
      · have : b - 0x20 ≠ a - 0x20 := by omega
        simp [Dev.rodRead, hb1, hb2, tabGet_tabSet_ne _ _ _ _ this]
      · simp [Dev.rodRead, hb1, hb2]
    · intro q hq; simp [Dev.rod_setRod_ne _ _ hq]
    · intro m hm; rfl
    · rfl
  by_cases h3 : a < 0x80
  · have hn : tabGet none (d.frame n).x (a - 0x40) = none := by
      rcases h with h | ⟨_, h⟩ | h
      · omega
      · exact h
      · omega
    have e : d.rodWrite n r a v = some (d.setFrame n { d.frame n with x := tabSet none (d.frame n).x (a - 0x40) (some v) }) := by
      simp [Dev.rodWrite, h1, h2, h3, hn]
    refine ⟨_, e, ?_, ?_, by simp, by simp, by simp, by simp, by simp, by simp, by simp, ?_, ?_, ?_, rfl⟩
    · have : a ≠ 0xF0 := by omega
      simp [Dev.rodRead, h1, h2, h3, this]
    · intro b hb
      by_cases hb1 : b < 0x20
      · simp [Dev.rodRead, hb1]
      by_cases hb2 : b < 0x40
      · simp [Dev.rodRead, hb1, hb2]
      by_cases hb3 : b < 0x80
      · have : b - 0x40 ≠ a - 0x40 := by omega
        simp [Dev.rodRead, hb1, hb2, hb3, tabGet_tabSet_ne _ _ _ _ this]
      · simp [Dev.rodRead, hb1, hb2, hb3]
    · intro q hq; rfl
    · intro m hm; simp [Dev.frame_setFrame_ne _ _ hm]
    · simp
  · have : a = 0xF0 := by omega
    subst this
    refine ⟨d, by simp [Dev.rodWrite], ?_, fun _ _ => rfl, rfl, rfl, rfl, rfl, rfl, rfl, rfl, fun _ _ => rfl, fun _ _ => rfl, rfl, rfl⟩
    simp [Dev.rodRead]

/-- What a live rod's microinstruction sees (R222-R226). -/
def Dev.rodEnv (d : Dev) (r : Rod) (x : RodX) (wa wb : Word) : RodEnv :=
  { a := sval wa, b := sval wb, acc := if x.acc then (d.rod r).a1 else (d.rod r).a0, p := (d.rod r).p,
    c := sval (d.r (ABX_COEF (d.rodIsl r) x.cidx.toNat)), c1 := sval (d.r (ABX_COEF (d.rodIsl r) (x.cidx.toNat + 1))),
    sh := d.f (ABX_COEF_SH (d.rodIsl r) x.cidx.toNat) ABX_COEF_SH_SH, imm := x.imm.toNat, pc := (d.rod r).pc,
    dst := x.dst.toNat }

theorem rodRun_live {d : Dev} {r : Rod} {x : RodX} (hl : d.RodLive r x) {ua ub ck : Bool} {f : Dev → Nat → RodEnv → Option RodFx}
    {wa wb : Word} (ho : d.rodOps (d.rodIsl r) r x ua ub = (.val wa, .val wb)) {fx : RodFx}
    (hf : f d (d.rodIsl r) (d.rodEnv r x wa wb) = some fx) (hfin : fx.fin = false) :
    d.rodRun r x ua ub ck f = match d.rodStores (d.rodIsl r) r x fx with
      | none => d.rodProgErr (d.rodIsl r) r
      | some d => d.rodAfter r x fx := by
  have h6 : ¬ 6 ≤ d.rodIsl r := by have := hl.isl; omega
  unfold Dev.rodRun
  simp only [hl.run, hl.ue, hl.win, hl.res, ho, h6, Bool.not_true, Bool.false_or, decide_false, Bool.false_eq_true, if_false]
  unfold Dev.rodEnv at hf
  rw [hf]
  have h2 : ((0 : Fin 3) == 2) = false := by decide
  have h1 : ((0 : Fin 3) == 1) = false := by decide
  simp only [h1, h2, Bool.and_false, Bool.false_eq_true, if_false, hfin]
  all_goals (cases d.rodStores (d.rodIsl r) r x fx <;> rfl)

/-- What counting a saturation leaves (R227). -/
structure Dev.RodSatd (d : Dev) (r : Nat) (sat : Bool) (d' : Dev) : Prop where
  rod : { d'.rod r with sat := (d.rod r).sat } = d.rod r
  exact : sat = false → d.Keeps [] d'
  status : sat = true → d'.r (ABX_ROD_STATUS r) = fput ABX_ROD_STATUS_SAT (d.r (ABX_ROD_STATUS r)) 1
  count : sat = true → d'.f (ABX_ROD_CNT r) ABX_ROD_CNT_SAT_FRAMES =
      if (d.rod r).sat then d.f (ABX_ROD_CNT r) ABX_ROD_CNT_SAT_FRAMES
      else min (d.f (ABX_ROD_CNT r) ABX_ROD_CNT_SAT_FRAMES + 1) 65535
  regs : d.Keeps [ABX_ROD_STATUS r, ABX_ROD_CNT r] d'
  rods : ∀ q, q ≠ r → d'.rod q = d.rod q
  rest : { d' with regs := d.regs, fresh := d.fresh, rods := d.rods } = d

theorem rodSat_satd (d : Dev) (r : Nat) (sat : Bool) : d.RodSatd r sat (if sat then d.rodSat r else d) := by
  have hne : ABX_ROD_CNT r ≠ ABX_ROD_STATUS r := by unfold ABX_ROD_CNT ABX_ROD_STATUS; omega
  cases sat
  · exact ⟨rfl, fun _ _ _ => rfl, by simp, by simp, fun _ _ => rfl, fun _ _ => rfl, rfl⟩
  · cases hs : (d.rod r).sat
    · have e : (if true = true then d.rodSat r else d) = ((d.set1 (ABX_ROD_STATUS r) ABX_ROD_STATUS_SAT).incSat (ABX_ROD_CNT r)
          ABX_ROD_CNT_SAT_FRAMES).setRod r { d.rod r with sat := true } := by simp [Dev.rodSat, hs]
      rw [e]
      refine ⟨by simp, by simp, fun _ => ?_, fun _ => ?_, fun a ha => ?_, fun q hq => ?_, by simp⟩
      · simp [Dev.r_incSat_ne _ _ _ hne.symm]
      · simp only [Dev.setRod_f, Dev.incSat]
        rw [Dev.f_wf_same _ _ _ _ (by decide)]
        have : (d.set1 (ABX_ROD_STATUS r) ABX_ROD_STATUS_SAT).f (ABX_ROD_CNT r) ABX_ROD_CNT_SAT_FRAMES =
            d.f (ABX_ROD_CNT r) ABX_ROD_CNT_SAT_FRAMES := by
          unfold Dev.f; rw [Dev.r_set1_ne _ _ hne]
        rw [this, hs]
        simp [ABX_ROD_CNT_SAT_FRAMES] <;> omega
      · simp at ha
        simp [Dev.r_incSat_ne _ _ _ ha.2, Dev.r_set1_ne _ _ ha.1]
      · simp [Dev.rod_setRod_ne _ _ hq]
    · have e : (if true = true then d.rodSat r else d) = d.set1 (ABX_ROD_STATUS r) ABX_ROD_STATUS_SAT := by simp [Dev.rodSat, hs]
      rw [e]
      refine ⟨by simp, by simp, fun _ => ?_, fun _ => ?_, fun a ha => ?_, fun q hq => ?_, by simp⟩
      · simp
      · unfold Dev.f; rw [Dev.r_set1_ne _ _ hne]; simp [hs]
      · simp at ha
        simp [Dev.r_set1_ne _ _ ha.1]
      · simp

/-- One microinstruction without exception (R218, R222, R226, R227). -/
theorem rodRun_step {d : Dev} {r : Rod} {x : RodX} (hl : d.RodLive r x) {ua ub ck : Bool} {f : Dev → Nat → RodEnv → Option RodFx}
    {wa wb : Word} (ho : d.rodOps (d.rodIsl r) r x ua ub = (.val wa, .val wb)) {dst acc : Option Int} {p : Option Bool} {sat : Bool}
    {j : Option Nat} (hf : f d (d.rodIsl r) (d.rodEnv r x wa wb) = some { dst := dst, acc := acc, p := p, sat := sat, jump := j })
    (ht : dst ≠ none → d.RodTakes r x.dst) :
    d.RodStep r x dst acc (p.getD (d.rod r).p) (j.getD ((d.rod r).pc + 1)) sat (d.rodRun r x ua ub ck f) := by
  rw [rodRun_live hl ho hf rfl]
  obtain ⟨d1, h1, hp⟩ : ∃ d1, d.rodStores (d.rodIsl r) r x { dst := dst, acc := acc, p := p, sat := sat, jump := j } = some d1 ∧
      (∀ v, dst = some v → d1.rodRead (d.rodIsl r) r x.dst.toNat = .val (if x.dst.toNat = 0xF0 then 0 else wordOfInt v)) ∧
      (∀ a, dst = none ∨ a ≠ x.dst.toNat → d1.rodRead (d.rodIsl r) r a = d.rodRead (d.rodIsl r) r a) ∧
      (d1.rod r).a0 = (d.rod r).a0 ∧ (d1.rod r).a1 = (d.rod r).a1 ∧ (d1.rod r).p = (d.rod r).p ∧
      (d1.rod r).pc = (d.rod r).pc ∧ (d1.rod r).run = (d.rod r).run ∧ (d1.rod r).done = (d.rod r).done ∧
      (d1.rod r).sat = (d.rod r).sat ∧ (∀ q, q ≠ r.val → d1.rod q = d.rod q) ∧
      (∀ m, m ≠ d.rodIsl r → d1.frame m = d.frame m) ∧
      { d1.frame (d.rodIsl r) with x := (d.frame (d.rodIsl r)).x, ops := (d.frame (d.rodIsl r)).ops } = d.frame (d.rodIsl r) ∧
      { d1 with rods := d.rods, frames := d.frames } = d := by
    cases dst with
    | none => exact ⟨d, rfl, by simp, fun _ _ => rfl, rfl, rfl, rfl, rfl, rfl, rfl, rfl, fun _ _ => rfl, fun _ _ => rfl, rfl, rfl⟩
    | some v =>
      obtain ⟨d1, e1, q⟩ := rodWrite_some d (d.rodIsl r) r x.dst.toNat (wordOfInt v) (ht (by simp))
      refine ⟨d1.noteOp (d.rodIsl r) r (d.rod r).pc v, by simp [Dev.rodStores, e1], ?_, ?_, q.a0, q.a1, q.p, q.pc, q.run, q.done,
        q.sat, q.rods, ?_, ?_, ?_⟩
      · intro w hw
        cases hw
        rw [← q.same]
        simp [Dev.rodRead, Dev.noteOp]
      · intro a ha
        rw [← q.others a (by simpa using ha)]
        simp [Dev.rodRead, Dev.noteOp]
      · intro m hm
        rw [← q.frames m hm]
        simp [Dev.noteOp, Dev.frame_setFrame_ne _ _ hm]
      · have := q.frame
        rw [← this]; simp [Dev.noteOp]
      · exact q.rest
  rw [h1]
  obtain ⟨hd, ho', h0, h1', hpp, hpc, hr, hdn, hst, hrs, hfs, hfr, hrest⟩ := hp
  have hreg : ∀ a, d1.r a = d.r a := by rw [← hrest]; intro a; rfl
  have hsd := rodSat_satd d1 r sat
  generalize hd2 : (if sat then d1.rodSat r else d1) = d2 at hsd
  have hw := congrArg RodH.w hsd.rod
  have hS := congrArg RodH.s hsd.rod
  have ha0 := congrArg RodH.a0 hsd.rod
  have ha1 := congrArg RodH.a1 hsd.rod
  have hP := congrArg RodH.p hsd.rod
  have hPc := congrArg RodH.pc hsd.rod
  have hRun := congrArg RodH.run hsd.rod
  have hDn := congrArg RodH.done hsd.rod
  have hfrm : ∀ m, d2.frame m = d1.frame m := fun m => by rw [← hsd.rest]; rfl
  simp only at hw hS ha0 ha1 hP hPc hRun hDn
  have hread : ∀ (h : RodH) a, h.w = (d2.rod r).w → h.s = (d2.rod r).s →
      (d2.setRod r h).rodRead (d.rodIsl r) r a = d1.rodRead (d.rodIsl r) r a := by
    intro h a e1 e2
    have hk : ∀ b, b ≠ ABX_ROD_STATUS r → b ≠ ABX_ROD_CNT r → d2.r b = d1.r b := fun b b1 b2 => hsd.regs b (by simp [b1, b2])
    have hS' : ∀ k, k < 32 → d2.r (ABX_ROD_S r k) = d1.r (ABX_ROD_S r k) := fun k hk' => hk _
      (by unfold ABX_ROD_S ABX_ROD_STATUS; have := r.isLt; omega) (by unfold ABX_ROD_S ABX_ROD_CNT; have := r.isLt; omega)
    have hF : ∀ k w, k < 28 → w < 2 → d2.r (frameView (d.rodIsl r) k w) = d1.r (frameView (d.rodIsl r) k w) := by
      intro k w hk1 hk2
      have := hl.isl
      exact hk _ (by unfold frameView ACH_FRAMEVIEW ABX_ROD_STATUS; have := r.isLt; omega) (by unfold frameView ACH_FRAMEVIEW ABX_ROD_CNT; have := r.isLt; omega)
    unfold Dev.rodRead
    simp only [Dev.rod_setRod, Dev.setRod_frame, Dev.setRod_r, e1, e2, hw, hS, hfrm]
    split
    · rfl
    split
    · rw [hS' _ (by omega)]
    split
    · rfl
    split
    · rw [hF _ _ (by omega) (by omega)]
    split
    · rw [hF _ _ (by omega) (by omega)]
    · rfl
  have hk2 : ∀ a, a ∉ [ABX_ROD_STATUS r, ABX_ROD_CNT r] → d2.r a = d.r a := fun a ha => (hsd.regs a ha).trans (hreg a)
  obtain ⟨h', e, g1, g2, g3, g4, g5, g6, g7, g8⟩ : ∃ h' : RodH,
      d1.rodAfter r x { dst := dst, acc := acc, p := p, sat := sat, jump := j } = d2.setRod r h' ∧
      h'.w = (d2.rod r).w ∧ h'.s = (d2.rod r).s ∧
      h'.a0 = (if x.acc then (d2.rod r).a0 else acc.getD (d2.rod r).a0) ∧
      h'.a1 = (if x.acc then acc.getD (d2.rod r).a1 else (d2.rod r).a1) ∧
      h'.p = p.getD (d2.rod r).p ∧ h'.pc = j.getD ((d2.rod r).pc + 1) ∧ h'.run = (d2.rod r).run ∧ h'.done = (d2.rod r).done := by
    simp only [Dev.rodAfter, hd2, Bool.false_eq_true, if_false]
    cases acc <;> cases hx : x.acc <;> exact ⟨_, rfl, by simp, by simp, by simp, by simp, by simp, by simp, by simp, by simp⟩
  show d.RodStep r x dst acc _ _ sat (d1.rodAfter r x { dst := dst, acc := acc, p := p, sat := sat, jump := j })
  rw [e]
  refine ⟨fun v hv => ?_, fun a ha => ?_, by simp [g3, ha0, h0], by simp [g4, ha1, h1'], by simp [g5, hP, hpp], by simp [g6, hPc, hpc],
      by simp [g7, hRun, hr, hl.run], by simp [g8, hDn, hdn], fun hs a ha => ?_, fun hs => ?_, fun hs => ?_, fun a ha => ?_, fun q hq => ?_,
      fun m hm => ?_, ?_, ?_⟩
  · rw [hread _ _ g1 g2]; exact hd v hv
  · rw [hread _ _ g1 g2]; exact ho' a ha
  · rw [Dev.setRod_r, ← hreg]; exact hsd.exact hs a ha
  · rw [Dev.setRod_r, hsd.status hs, hreg]
  · rw [Dev.setRod_f, hsd.count hs, hst]; unfold Dev.f; rw [hreg]
  · rw [Dev.setRod_r]; exact hk2 a ha
  · rw [Dev.rod_setRod_ne _ _ hq, hsd.rods q hq, hrs q hq]
  · rw [Dev.setRod_frame, hfrm, hfs m hm]
  · rw [Dev.setRod_frame, hfrm]; exact hfr
  · have a1 := hsd.rest
    rw [← hrest, ← a1]
    simp [Dev.setRod]

/-- A rod that stops on an error (R235, R236, R249). -/
theorem rodError_stops (d : Dev) (r : Rod) (f : Fld) (c : Nat)
    (hf : f = ABX_ROD_STATUS_UE ∨ f = ABX_ROD_STATUS_PROG_ERR ∨ f = ABX_ROD_STATUS_LASTING) :
    d.RodStops r f c (d.rodError (d.rodIsl r) r f c) := by
  have hne : PND_ROUTE (abxSrc (d.rodIsl r) (0x40 + r)) ≠ ABX_ROD_STATUS r := by
    unfold PND_ROUTE ABX_ROD_STATUS; have := r.isLt; omega
  refine ⟨?_, ?_, ?_, ?_, ?_, ?_, ?_, ?_⟩
  · rcases hf with h | h | h <;> subst h <;>
      simp [Dev.rodError, Dev.b_wf_other, Dev.b_set1_same, ABX_ROD_STATUS_UE, ABX_ROD_STATUS_ERR_ADDR,
        ABX_ROD_STATUS_PROG_ERR, ABX_ROD_STATUS_LASTING]
  · simp [Dev.rodError, Dev.f_wf_same, ABX_ROD_STATUS_ERR_ADDR]
  · rcases hf with h | h | h <;> subst h <;>
      simp [Dev.rodError, Dev.rodHalt, Dev.b_wf_other, Dev.b_set1_other, Dev.b_clr_same, ABX_ROD_STATUS_UE,
        ABX_ROD_STATUS_ERR_ADDR, ABX_ROD_STATUS_PROG_ERR, ABX_ROD_STATUS_LASTING, ABX_ROD_STATUS_ACTIVE]
  · simp [Dev.rodError, Dev.rodHalt]
  · simp [Dev.rodError, Dev.rodHalt, Dev.raised_raise, Dev.routeOf_wf _ _ _ hne, Dev.routeOf_set1 _ _ hne, Dev.routeOf_clr _ _ hne]
  · intro a ha
    have ha : a ≠ ABX_ROD_STATUS r := by simpa using ha
    simp [Dev.rodError, Dev.rodHalt, Dev.r_wf_ne _ _ _ ha, Dev.r_set1_ne _ _ ha, Dev.r_clr_ne _ _ ha]
  · intro q hq
    simp [Dev.rodError, Dev.rodHalt, Dev.rod_setRod_ne _ _ hq]
  · simp [Dev.rodError, Dev.rodHalt]

end Sys2Proof.Machine
end

