-- ==== Sys2Proof/Machine/Codes.lean ====
section
/-! DEFINITION. The encodings of Reckoner instructions (spec/12_instruction_set.md R391-R405, R414) and of Bead instructions
(spec/09_bead_engines.md R312, R313): which command a code is. -/

namespace Sys2Proof.Machine
open Sys2Proof

/-! ### Reckoner instructions -/

/-- The condition of a short instruction (R395). -/
def shortCond (w : Nat) : Cond :=
  match nfield w 13 2 with
  | 0 => .al
  | 1 => .p
  | 2 => .np
  | _ => .z

/-- The condition of a long instruction; code 15 is none (R395). -/
def longCond (w : Nat) : Option Cond :=
  match nfield w 27 4 with
  | 0 => some .al
  | 1 => some .z
  | 2 => some .nz
  | 3 => some .n
  | 4 => some .nn
  | 5 => some .c
  | 6 => some .nc
  | 7 => some .v
  | 8 => some .nv
  | 9 => some .p
  | 10 => some .np
  | 11 => some .ge
  | 12 => some .lt
  | 13 => some .gt
  | 14 => some .le
  | _ => none

/-- Bit op `op` on the bit `b` (R405). -/
def codeBit (c : Core) (k : Cond) (op : Nat) (b : BitRef) : Instr :=
  match op with
  | 0 => .bld c k b
  | 1 => .bst c k b
  | 2 => .bset c k b
  | 3 => .bclr c k b
  | 4 => .btgl c k b
  | 5 => .band c k b
  | 6 => .bor c k b
  | 7 => .bstp c k b
  | _ => .illegalInstruction c

/-- The MISC table (R396). -/
def codeMisc (c : Core) (k : Cond) (n : Nat) : Instr :=
  match n with
  | 0 => .rdrop c k
  | 1 => .pset c k
  | 2 => .pclr c k
  | 3 => .pnot c k
  | 4 => .pget c k
  | 5 => .pput c k
  | 6 => .fget c k
  | 7 => .fput c k
  | _ => .illegalInstruction c

/-- An SO op that defines n = 0 only (R394). -/
def codePlain (c : Core) (k : Cond) (op : Nat) (res : Fin 3) : Instr :=
  match op with
  | 0x00 => .nop c k
  | 0x01 => .dup c k
  | 0x02 => .drop c k
  | 0x03 => .swap c k
  | 0x04 => .over c k
  | 0x05 => .rot c k
  | 0x06 => .nip c k
  | 0x08 => .tor c k
  | 0x09 => .fromr c k
  | 0x0A => .rfetch c k
  | 0x0C => .add c k res
  | 0x0D => .sub c k res
  | 0x0E => .adc c k res
  | 0x0F => .sbc c k res
  | 0x10 => .and c k
  | 0x11 => .or c k
  | 0x12 => .xor c k
  | 0x13 => .not c k
  | 0x14 => .neg c k res
  | 0x15 => .abs c k
  | 0x16 => .min c k
  | 0x17 => .max c k
  | 0x1C => .mul c k res
  | 0x1D => .mulh c k res
  | 0x1E => .mulhu c k res
  | 0x20 => .div c k res
  | 0x21 => .divu c k res
  | 0x22 => .rem c k res
  | 0x23 => .remu c k res
  | 0x28 => .ldW c k .short
  | 0x29 => .ldH c k .short
  | 0x2A => .ldHu c k .short
  | 0x2B => .ldB c k .short
  | 0x2C => .ldBu c k .short
  | 0x2D => .stW c k .short
  | 0x2E => .stH c k .short
  | 0x2F => .stB c k .short
  | 0x30 => .jmpi c k
  | 0x31 => .calli c k
  | 0x32 => .ret c k
  | 0x34 => .clopen c k
  | 0x35 => .clclose c k
  | 0x36 => .clabort c k
  | 0x37 => .clstat c k
  | 0x38 => .ifence c k
  | 0x39 => .dfence c k
  | 0x3B => .sret c k
  | 0x3D => .iret c k
  | 0x3E => .wfi c k
  | _ => .illegalInstruction c

/-- An SO instruction (R396): op and field n; `res` is its residue check, `rp` whether the instruction that follows may be
repeated. -/
def codeSO (c : Core) (k : Cond) (op : Nat) (n : Fin 16) (res : Fin 3) (rp : Bool) : Instr :=
  match op with
  | 0x07 => .pick c k n
  | 0x0B => codeMisc c k n
  | 0x18 => .shl c k (.short n)
  | 0x19 => .shr c k (.short n)
  | 0x1A => .asr c k (.short n)
  | 0x1B => .ror c k (.short n)
  | 0x1F => .mulq c k res .short ⟨n, by omega⟩
  | 0x24 => if n < 10 then .cmp c k res n else .illegalInstruction c
  | 0x25 => .btst c k .short ⟨n, by omega⟩
  | 0x26 => .addq c k res n
  | 0x27 =>
    match n.val with
    | 0 => .movw c k
    | 1 => .fillw c k
    | 2 => .sumw c k res
    | _ => .illegalInstruction c
  | 0x33 => .rep c k n rp
  | 0x3A => if h : n.val < 4 then .scall c k ⟨n, h⟩ else .illegalInstruction c
  | 0x3C => .swb c k n
  | 0x3F => .brk c k n
  | _ => if n = 0 then codePlain c k op res else .illegalInstruction c

/-- A short instruction (R392). -/
def codeShort (c : Core) (w : Nat) (res : Fin 3) (rp : Bool) : Instr :=
  let k := shortCond w
  if nbit w 12 then codeBit c k (nfield w 9 3) (.own (Fin.ofNat 512 w))
  else if nbit w 11 then .sl c k (BitVec.ofNat 11 w)
  else if nbit w 10 then .sj c k (BitVec.ofNat 10 w)
  else codeSO c k (nfield w 4 6) (Fin.ofNat 16 w) res rp

/-- A long instruction of major opcode `m` with operand `x` (R401). A set operand bit that the opcode leaves unused is illegal
(R394). -/
def codeLong (c : Core) (k : Cond) (m x : Nat) (res : Fin 3) (rp : Bool) : Instr :=
  let low (w : Nat) (i : Instr) : Instr := if x < 2 ^ w then i else .illegalInstruction c
  let imm := BitVec.ofNat 20 x
  match m with
  | 0x00 => .litL c k imm
  | 0x01 => low 12 (.ext c k (BitVec.ofNat 12 x))
  | 0x02 => .addi c k res imm
  | 0x03 => if x / 65536 < 10 then .cmpi c k res (Fin.ofNat 16 (x / 65536)) (BitVec.ofNat 16 x) else .illegalInstruction c
  | 0x04 => .andi c k imm
  | 0x05 => .ori c k imm
  | 0x08 => .ldW c k (.disp imm)
  | 0x09 => .ldH c k (.disp imm)
  | 0x0A => .ldHu c k (.disp imm)
  | 0x0B => .ldB c k (.disp imm)
  | 0x0C => .ldBu c k (.disp imm)
  | 0x0D => .stW c k (.disp imm)
  | 0x0E => .stH c k (.disp imm)
  | 0x0F => .stB c k (.disp imm)
  | 0x10 => .br c k imm
  | 0x11 => .call c k imm
  | 0x12 => codeBit c k (x / 65536) (.any (BitVec.ofNat 16 x))
  | 0x13 => low 5 (.btst c k .long (Fin.ofNat 32 x))
  | 0x14 => low 5 (.mulq c k res .long (Fin.ofNat 32 x))
  | 0x15 =>
    if x / 262144 ≠ 0 ∨ nfield x 5 11 ≠ 0 then .illegalInstruction c
    else
      let n : ShiftCount := .long (Fin.ofNat 32 x)
      match x / 65536 with
      | 0 => .shl c k n
      | 1 => .shr c k n
      | 2 => .asr c k n
      | _ => .ror c k n
  | 0x16 => low 8 (.repi c k (BitVec.ofNat 8 x) rp)
  | 0x18 => .ldaW c k imm
  | 0x19 => .staW c k imm
  | _ => .illegalInstruction c

/-- The 32 bits of a long instruction whose halfwords are `h0`, at the lower address, and `h1` (R391). -/
def longCode (h0 h1 : Nat) : Nat := h0 * 65536 + h1

/-- Bytes of the instruction whose first halfword is `h0` (R391). -/
def codeLen (h0 : Nat) : Nat := if nbit h0 15 then 4 else 2

/-- The command of core `c` that the instruction is whose halfwords are `h0` and, in the long form, `h1` (R391-R394): `res`
is its residue check, `rp` whether the instruction that follows may be repeated. A reserved or ill-formed code is
ILLEGAL_INSTRUCTION, whatever its condition. -/
def codeInstr (c : Core) (h0 h1 : Nat) (res : Fin 3) (rp : Bool) : Instr :=
  if nbit h0 15 then
    let w := longCode h0 h1
    match longCond w with
    | some k => codeLong c k (nfield w 20 7) (nfield w 0 20) res rp
    | none => .illegalInstruction c
  else codeShort c h0 res rp

/-- The instruction with first halfword `h0` may be repeated by a prefix (R414). -/
def codeRepeatable (h0 : Nat) : Bool :=
  if nbit h0 15 then
    let m := nfield h0 4 7
    !(m == 0x10 || m == 0x11 || m == 0x16)
  else if nbit h0 12 || nbit h0 11 then true
  else if nbit h0 10 then false
  else decide (nfield h0 4 6 < 0x30)

/-! ### Bead instructions -/

/-- A MOVE variant (R312, R313). -/
def beadMove (n : Isl) (e : Fin 8) (pins : Fin 16) (v : Nat) : Instr :=
  match v with
  | 0 => .srClr n e pins
  | 1 => .srX n e pins
  | 2 => .xSr n e pins
  | 3 => .srErr n e pins
  | 4 => .srAnd n e pins
  | 5 => .crcClr n e pins
  | 6 => .crcOn n e pins
  | 7 => .crcOff n e pins
  | 8 => .srRev n e pins
  | _ => .beadUndefinedOpcode n e pins

/-- The command of engine `e` of island `n` that the 24-bit instruction `w` is: `got` are the bits a SHIFT captures, `seen` whether
the awaited level or WIN is there, `p0` the level captured at P0 (R312-R315). -/
def beadInstr (n : Isl) (e : Fin 8) (w : Nat) (got : List Bool) (seen p0 : Bool) : Instr :=
  let pins : Fin 16 := Fin.ofNat 16 (w / 65536)
  match nfield w 20 4 with
  | 0x0 => .idle n e pins (Fin.ofNat 1024 w)
  | 0x1 => .shift n e pins (Fin.ofNat 4 (w / 16384)) (nbit w 13) (Fin.ofNat 32 w) got
  | 0x2 => .take n e pins (nbit w 0)
  | 0x3 => .give n e pins (nbit w 0)
  | 0x4 => .mark n e pins
  | 0x5 => .wait n e pins (Fin.ofNat 4 (w / 16384)) (nbit w 0) seen
  | 0x6 => .branch n e pins (Fin.ofNat 8 (w / 8192)) (Fin.ofNat 64 w) p0
  | 0x7 => .loadx n e pins (BitVec.ofNat 16 w)
  | 0x8 => beadMove n e pins (nfield w 0 4)
  | 0x9 => .signal n e pins (nbit w 1) (nbit w 0)
  | 0xA => .stop n e pins
  | _ => .beadUndefinedOpcode n e pins

/-- The instruction at the PC of engine `e` of island `n` (R311). -/
def Dev.beadCode (d : Dev) (n e : Nat) : Nat := (d.r (BEAD_PROG n e (d.f (BEAD_STATE n e) BEAD_STATE_PC))).toNat % 16777216

end Sys2Proof.Machine
end

