-- ==== Sys2Proof/WellFormed.lean ====
section
/-! DEFINITION. Commands whose operands name what the spec gives: the checks that the operand types do not make by
themselves. -/

namespace Sys2Proof

/-- Bytes of a CAN frame with length code `n` (spec/19_chain_and_can.md CAN FD controllers). -/
def canBytes (fd : Bool) (n : Nat) : Nat :=
  if n ≤ 8 then n else if fd then [12, 16, 20, 24, 32, 48, 64].getD (n - 9) 64 else 8

/-- A CAN frame holds as many bytes as its length code says, a base frame an 11-bit identifier, and only an FD frame
switches its bit rate. -/
def canFrameOk (f : CanFrame) : Bool :=
  f.data.length == canBytes f.fdf f.dlc && (f.ide || decide (f.id.toNat < 2048)) && (f.fdf || !f.brs)

/-- What START finds names each application image once (spec/20_modes_power_boot.md R633). -/
def bootOk (b : BootInfo) : Bool := (b.images.map fun i => i.image).Nodup

/-- The command is well formed: sizes are 1, 2 or 4 bytes, addresses have 32 bits and name what the command acts on, codes
are defined, lists have the length their other operands give and repeat nothing. -/
def Instr.wellFormed : Instr → Bool
  | .wakeEvent b => bootOk b
  | .serialWord _ _ _ t => decide (t < 2 ^ 64)
  | .shift _ _ _ _ _ cnt got => decide (got.length ≤ cnt.val + 1)
  | .cmp _ _ _ cc => decide (cc.val < 10)
  | .cmpi _ _ _ cc _ => decide (cc.val < 10)
  | .ledgerCommitDone r => decide r.Nodup
  | .ledgerWindowRead _ a _ => decide (a < 2 ^ 32)
  | .externalMessage m => decide (m.payload.length ≤ 15)
  | .resetRelease b => bootOk b
  | .wakePin b => bootOk b
  | .routeDirectWrite _ a _ => decide (a < 2 ^ 32 ∧ a % 4 = 0)
  | .arrayAccess w a => w.Nodup && decide (a.target < 32)
  | .voutSettleExpiry _ _ v => decide (v < 2 ^ 16)
  | .frameReceived _ f => decide (f.bytes.length < 2 ^ 16)
  | .canFrameReceived _ f => canFrameOk f
  | .registerWrite _ a size _ => decide (a < 2 ^ 32) && (size == 1 || size == 2 || size == 4)
  | .lastGasp | .dormantEntry | .timerPeriodEnd .. | .chainClassAction .. | .timerEventInput ..
    | .shortEnd .. | .tlyGoRelease | .pairBoundary .. | .holdExpired .. | .tripRecorded .. | .blankLong ..
    | .groupTrigger .. | .calCycleStart .. | .comparatorRecorded .. | .sinc3Result .. | .frameCompletion ..
    | .rodNop .. | .rodMov .. | .rodLdi .. | .rodLdiu .. | .rodLdc .. | .rodLdl .. | .rodMul .. | .rodMac ..
    | .rodMsu .. | .rodMulr .. | .rodMacr .. | .rodMsur .. | .rodAccl .. | .rodAcca .. | .rodSta ..
    | .rodAdd .. | .rodSub .. | .rodNeg .. | .rodAbs .. | .rodMin .. | .rodMax .. | .rodShr .. | .rodShl ..
    | .rodAnd .. | .rodOr .. | .rodXor .. | .rodClamp .. | .rodSincos .. | .rodAtan2 .. | .rodDiv ..
    | .rodSqrt .. | .rodCmp .. | .rodTstb .. | .rodSel .. | .rodBr .. | .rodEnd .. | .rodOut .. | .rodPub ..
    | .traceTriggerInput .. | .snap .. | .snapEntriesRecorded .. | .beadStartEvent .. | .beadStop ..
    | .winEvent .. | .idle .. | .take .. | .give .. | .mark .. | .wait .. | .branch .. | .loadx .. | .srClr ..
    | .srX .. | .xSr .. | .srErr .. | .srAnd .. | .crcClr .. | .crcOn .. | .crcOff .. | .srRev .. | .signal ..
    | .stop .. | .channelEvent .. | .cellFilterOutput .. | .routingCheck .. | .clopen .. | .clclose ..
    | .clabort .. | .clstat .. | .claspCloseRecorded .. | .claspCommit .. | .claspCommitInput .. | .sl ..
    | .sj .. | .nop .. | .dup .. | .drop .. | .swap .. | .over .. | .rot .. | .nip .. | .pick .. | .tor ..
    | .fromr .. | .rfetch .. | .rdrop .. | .pset .. | .pclr .. | .pnot .. | .pget .. | .pput .. | .fget ..
    | .fput .. | .add .. | .sub .. | .adc .. | .sbc .. | .and .. | .or .. | .xor .. | .not .. | .neg ..
    | .abs .. | .min .. | .max .. | .shl .. | .shr .. | .asr .. | .ror .. | .mul .. | .mulh .. | .mulhu ..
    | .mulq .. | .div .. | .divu .. | .rem .. | .remu .. | .btst .. | .addq .. | .movw .. | .fillw ..
    | .sumw .. | .ldW .. | .ldH .. | .ldHu .. | .ldB .. | .ldBu .. | .stW .. | .stH .. | .stB .. | .ldaW ..
    | .staW .. | .litL .. | .ext .. | .addi .. | .andi .. | .ori .. | .jmpi .. | .calli .. | .ret .. | .br ..
    | .call .. | .rep .. | .repi .. | .ifence .. | .dfence .. | .scall .. | .sret .. | .swb .. | .iret ..
    | .wfi .. | .brk .. | .bld .. | .bst .. | .bset .. | .bclr .. | .btgl .. | .band .. | .bor .. | .bstp ..
    | .interruptEntry .. | .storeDrain .. | .recordAppend | .coalesceTimeExpiry .. | .arbWindowStart
    | .scrubLate | .dmaEventTrigger .. | .dmaLineTrigger .. | .dmaServiceStart .. | .dmaBeat ..
    | .dmaDescriptorEnd .. | .deferredClaspDue .. | .holdupRetry | .wearTokenGain | .pwrDomain ..
    | .ldgRead .. | .verifyComplete | .applyComplete .. | .trialExpiry .. | .sessionIdleExpiry ..
    | .watchdogExpiry | .diagCountCommit | .governorStepDown | .gateChange .. | .addressAgeOut ..
    | .syncTimeout | .helloSend .. | .helloReceived .. | .partnerAgeCheck | .canSegmentTimeout ..
    | .zeroSpeedTimeout .. | .peerDelayInterval .. | .illegalInstruction .. | .rodUnlistedOpcode ..
    | .beadUndefinedOpcode .. | .porstLow | .pllLock | .supplyWarning .. | .supplyFault ..
    | .supplyFaultClear .. | .supplyLossSignal | .beamMismatch .. | .ringWindowEnd .. | .beamStall ..
    | .pllLockLost | .beamCountRead .. | .beamSwitchRead .. | .trainTimeRead .. | .ttOffsetLoWrite ..
    | .ttOffsetHiWrite .. | .timerStart .. | .timerStop .. | .timerMatch .. | .reloadImmediate ..
    | .linkedPairRead .. | .tlyGoStart .. | .tlyGoStop .. | .tlyGoResetStart .. | .pairStart .. | .pairStop ..
    | .referenceEdge .. | .deadTimeEnd .. | .pwmTrigger .. | .pwmGroupWrite .. | .tripLineActive ..
    | .tripLineInactive .. | .tripClear .. | .tripTsRead .. | .achModeDirectWrite .. | .settlingEnd ..
    | .softwareTrigger .. | .conversionResult .. | .plausRetry .. | .bankEntryRead .. | .calStep ..
    | .comparatorCrossing .. | .overCurrentConfirmed .. | .stuckDetected .. | .stuckClear ..
    | .grpAssignWrite .. | .rodPresetWrite .. | .outmapWrite .. | .traceArm .. | .traceDisarm ..
    | .traceForce .. | .acceptedEdge .. | .fbkPosRead .. | .idxArm .. | .beadRunStart .. | .beadStopRequest ..
    | .restart .. | .txflush .. | .rxflush .. | .txqWrite .. | .rxqRead .. | .flgFire .. | .rootFault
    | .haltReq .. | .resume .. | .step .. | .dcinv .. | .icinv .. | .pndDoorbell .. | .pndClaim ..
    | .pndEoi .. | .ringEnable .. | .ringDisable .. | .arbCreditWrite .. | .scrubRead .. | .dmaArm ..
    | .dmaDisarm .. | .dmaGo .. | .dmaErrClear .. | .recordRefresh .. | .capacitanceTestStart ..
    | .capacitanceTestEnd .. | .capacitanceTestRepeat .. | .hupTestGo .. | .mailboxPost .. | .sysCaps
    | .sysInfo | .sysMode | .sysGrant | .sysMbx | .sysCoreReset | .pwrStatus | .pwrGov | .pwrDormant
    | .ldgOpen | .ldgType | .ldgWrite | .ldgCommit | .ldgAbort | .ldgLg | .ldgLgupd | .ldgStat | .sesChallenge
    | .sesKey | .sesPass | .sesEnd | .sesProvision | .chnPartners | .chnCfg | .chnSwitch | .chnTime
    | .updBegin | .updData | .updSign | .updVerify | .updApply | .updConfirm | .updStatus | .updAbort
    | .diagUnit | .diagRdreg | .diagWrreg | .diagDebug | .watchdogKick .. | .txKick .. | .frameTransmitted ..
    | .gclApply .. | .linkChange .. | .syncReceived .. | .canTxreq .. | .canTxabort .. | .canRxpop ..
    | .canFrameTransmitted .. | .canBusError .. | .busOffRecovery .. | .canInitWrite ..
    | .sigmaDeltaCapture .. | .feedbackInputChange .. | .hupSenseSample .. | .canSynced .. => true

end Sys2Proof
end

