-- ==== Sys2Proof/Tests/Slice0.lean ====
section
/-! SUPPORT. Tests: for every statement with hypotheses, a state and operands that meet them, per clause; an ill-formed
command for every check of WellFormed; and single steps whose results the spec's worked examples give. -/

namespace Sys2Proof.Tests

set_option Elab.async false

open Sys2Proof Sys2Proof.Machine

/-- A register of ones. -/
def all1 : Word := 0xFFFFFFFF
/-- A device with every domain powered, in RUN, its Beam at a tick away from 0. -/
def on : Dev :=
  { beam := 100000, power := { resetHeld := false },
    regs := [(BEAM_STATUS, 0x103), (PWR_MODE, 3), (PWR_DOM 0, all1), (PWR_DOM 1, all1), (PWR_DOM 2, all1), (PWR_DOM 3, all1)] }
/-- A state with no command waiting. -/
def st (d : Dev) : State := { pending := [], hw := d }

/-- A state so built meets the invariant. -/
theorem inv_st (d : Dev) (h : Memory.wf d.mem = true) (k : d.beam < 2 ^ 64) : (st d).Inv := ⟨h, k⟩

namespace Rods

def w (n : Nat) : Word := BitVec.ofNat 32 n
def r0 : RodH := { w := [(0,w 5),(1,w 0x80000000),(2,w 0xFFFFFFFF),(3,w 0x7FFFFFFF),(5,w 0x12345678)], s := [(2,some (w 7))], a0 := 0x7FFFFFFFFFFFFFFFFF, a1 := -12345678901234, p := false, pc := 10, run := true }
def f0 : FrameH := { running := true, links := (List.range 99).map fun i => w (i * 0x1111111), x := [(3,some (w 9))] }
def d0 : Dev :=
  let d := ((on.wf (ABX_GRP_ASSIGN 0) ABX_GRP_ASSIGN_ISLAND 1).wf (ABX_ROD_CFG 1) ABX_ROD_CFG_ROLE 1).wf (ABX_ROD_CFG 2) ABX_ROD_CFG_ROLE 2
  let d := (List.range 6).foldl (fun d k => (d.w (ABX_COEF 1 k) (w (k * 0x40000000 + 3))).w (ABX_COEF_SH 1 k) (w (k*10 % 32))) d
  let d := (d.wf (ABX_LAWWIN 1) ABX_LAWWIN_LAST 255).wf (ABX_LAWWIN 1) ABX_LAWWIN_BASE 0
  let d := d.w (ABX_OUTMAP 1 3) (w (1 + 0x10008))
  { d with rods := tabSet {} d.rods 1 r0, frames := tabSet {} d.frames 1 f0 }
def sr (d : Dev) (x : RodH) : Dev := { d with rods := tabSet {} d.rods 1 x }
def sf (d : Dev) (x : FrameH) : Dev := { d with frames := tabSet {} d.frames 1 x }
def rbase : RodX := ⟨0,0,0,0,false,0,0,0,false⟩

/-- spec/06_abacus_rods.md, the example after R228: 3001 and -3001 by 0.75, and halves to the even side of rs. -/
theorem test_rod_rounding :
    rs (3001 * 0x60000000) 31 = 2251 ∧ rs (-3001 * 0x60000000) 31 = -2251 ∧ rs (-5) 1 = -2 ∧ rs 5 1 = 3 := by decide

theorem test_witness_RodTwoOperandResults :
    (let s : State := st d0; let r : Rod := 1; let x : RodX := { rbase with b := 0x1 }; let a : Int := 5; let b : Int := -2147483648;
      s.Inv ∧ s.hw.RodLive r x ∧ s.hw.RodIs r x.a a ∧ s.hw.RodIs r x.b b ∧ s.hw.RodTakes r x.dst ∧ b ≠ 0) ∧
    (let s : State := st d0; let r : Rod := 1; let x : RodX := { rbase with b := 0x4 }; let a : Int := 5; let b : Int := 0;
      s.Inv ∧ s.hw.RodLive r x ∧ s.hw.RodIs r x.a a ∧ s.hw.RodIs r x.b b ∧ s.hw.RodTakes r x.dst ∧ b = 0) := by
  refine ⟨?_, ?_⟩ <;> dsimp only <;>
    (repeat' first | decide +kernel | exact inv_st _ (by decide +kernel) (by decide +kernel) | refine And.intro ?_ ?_ | refine Dev.RodLive.mk ?_ ?_ ?_ ?_ ?_ | (unfold Dev.RodTakes; decide +kernel) | exact ⟨_, rfl, by decide +kernel⟩)

theorem test_witness_RodOneOperandResults :
    (let s : State := st d0; let r : Rod := 1; let x : RodX := { rbase with b := 0x1 }; let a : Int := 5; let sh : Nat := x.imm.toNat % 32;
      s.Inv ∧ s.hw.RodLive r x ∧ s.hw.RodIs r x.a a ∧ s.hw.RodTakes r x.dst ∧ sh = 0) ∧
    (let s : State := st d0; let r : Rod := 1; let x : RodX := { rbase with dst := 0x4, a := 0x1, cidx := 0x2, acc := true, imm := 0x1F };
      let a : Int := -2147483648; let sh : Nat := x.imm.toNat % 32;
      s.Inv ∧ s.hw.RodLive r x ∧ s.hw.RodIs r x.a a ∧ s.hw.RodTakes r x.dst ∧ 0 < sh) ∧
    (let s : State := st d0; let r : Rod := 1; let x : RodX := { rbase with a := 0x1, b := 0x2 }; let a : Int := -2147483648;
      s.Inv ∧ s.hw.RodLive r x ∧ s.hw.RodIs r x.a a ∧ s.hw.RodTakes r x.dst ∧ a < 0) ∧
    (let s : State := st d0; let r : Rod := 1; let x : RodX := { rbase with b := 0x1 }; let a : Int := 5;
      s.Inv ∧ s.hw.RodLive r x ∧ s.hw.RodIs r x.a a ∧ s.hw.RodTakes r x.dst ∧ 0 ≤ a) ∧
    (let s : State := st d0; let r : Rod := 1; let x : RodX := { rbase with b := 0x1 }; let a : Int := 5;
      s.Inv ∧ s.hw.RodLive r x ∧ s.hw.RodIs r x.a a ∧ s.hw.RodTakes r x.dst ∧ x.cidx.toNat ≠ 1023) := by
  refine ⟨?_, ?_, ?_, ?_, ?_⟩ <;> dsimp only <;>
    (repeat' first | decide +kernel | exact inv_st _ (by decide +kernel) (by decide +kernel) | refine And.intro ?_ ?_ | refine Dev.RodLive.mk ?_ ?_ ?_ ?_ ?_ | (unfold Dev.RodTakes; decide +kernel) | exact ⟨_, rfl, by decide +kernel⟩)

theorem test_witness_RodLoads :
    (let s : State := st d0; let r : Rod := 1; let x : RodX := { rbase with b := 0x1 }; let n : Nat := s.hw.rodIsl r.val; let v : Word := 5;
      s.Inv ∧ s.hw.RodLive r x ∧ s.hw.RodTakes r x.dst ∧ s.hw.rodRead n (r.val) x.dst.toNat = RVal.val v) ∧
    (let s : State := st d0; let r : Rod := 1; let x : RodX := { rbase with b := 0x1 }; let l : Nat := x.imm.toNat % 128;
      s.Inv ∧ s.hw.RodLive r x ∧ s.hw.RodTakes r x.dst ∧ l < 96) := by
  refine ⟨?_, ?_⟩ <;> dsimp only <;>
    (repeat' first | decide +kernel | exact inv_st _ (by decide +kernel) (by decide +kernel) | refine And.intro ?_ ?_ | refine Dev.RodLive.mk ?_ ?_ ?_ ?_ ?_ | (unfold Dev.RodTakes; decide +kernel))

theorem test_witness_RodAccumulates :
    (let s : State := st d0; let r : Rod := 1; let x : RodX := { rbase with b := 0x1 }; let a : Int := 5; let b : Int := -2147483648;
      s.Inv ∧ s.hw.RodLive r x ∧ s.hw.RodIs r x.a a ∧ s.hw.RodIs r x.b b) := by
  dsimp only
  repeat' first | decide +kernel | exact inv_st _ (by decide +kernel) (by decide +kernel) | refine And.intro ?_ ?_ | refine Dev.RodLive.mk ?_ ?_ ?_ ?_ ?_ | exact ⟨_, rfl, by decide +kernel⟩

theorem test_witness_RodFlowControl :
    (let s : State := st d0; let r : Rod := 1; let x : RodX := { rbase with b := 0x1 }; let a : Int := 5; let b : Int := -2147483648;
      let c : Bool := false;
      s.Inv ∧ s.hw.RodLive r x ∧ s.hw.RodIs r x.a a ∧ s.hw.RodIs r x.b b ∧ rodCond x.cond.toNat a b = some c) ∧
    (let s : State := st d0; let r : Rod := 1; let x : RodX := { rbase with b := 0x1 }; let a : Int := 5;
      s.Inv ∧ s.hw.RodLive r x ∧ s.hw.RodIs r x.a a) ∧
    (let s : State := st d0; let r : Rod := 1; let x : RodX := { rbase with dst := 0x4, a := 0x1, cidx := 0x2, acc := true, imm := 0x1F };
      let pc : Nat := (s.hw.rod r.val).pc;
      s.Inv ∧ s.hw.RodLive r x ∧ pc < x.imm.toNat % 16384 ∧ x.cond.toNat ≤ 2) := by
  refine ⟨?_, ?_, ?_⟩ <;> dsimp only <;>
    (repeat' first | decide +kernel | exact inv_st _ (by decide +kernel) (by decide +kernel) | refine And.intro ?_ ?_ | refine Dev.RodLive.mk ?_ ?_ ?_ ?_ ?_ | exact ⟨_, rfl, by decide +kernel⟩)

theorem test_witness_RodErrors :
    (let s : State := st d0; let r : Rod := 1; let x : RodX := { rbase with ue := true };
      s.Inv ∧ (s.hw.rod r.val).run = true ∧ s.hw.rodIsl r.val < 6 ∧ x.ue = true) ∧
    (let s : State := st (sr d0 {r0 with pc := 16384}); let r : Rod := 1; let x : RodX := { rbase with b := 0x1 };
      s.Inv ∧ (s.hw.rod r.val).run = true ∧ s.hw.rodIsl r.val < 6 ∧ x.ue = false ∧ s.hw.inWindow (s.hw.rodIsl r.val) (s.hw.rod r.val).pc = false) ∧
    (let s : State := st d0; let r : Rod := 1; let x : RodX := { rbase with b := 0x1 };
      s.Inv ∧ (s.hw.rod r.val).run = true ∧ s.hw.rodIsl r.val < 6 ∧ s.hw.RodLive r x ∧
          (x.imm.toNat % 16384 ≤ (s.hw.rod r.val).pc ∨ 2 < x.cond.toNat)) ∧
    (let s : State := st d0; let r : Rod := 1; let x : RodX := { rbase with cidx := 0x3FF, acc := true, cond := 0x1, imm := 0x14 }; let a : Int := 5;
      s.Inv ∧ (s.hw.rod r.val).run = true ∧ s.hw.rodIsl r.val < 6 ∧ s.hw.RodLive r x ∧ s.hw.RodIs r x.a a ∧ x.cidx.toNat = 1023) ∧
    (let s : State := st d0; let r : Rod := 1; let x : RodX := { rbase with cond := 0x6, imm := 0x14 }; let a : Int := 5; let b : Int := 5;
      s.Inv ∧ (s.hw.rod r.val).run = true ∧ s.hw.rodIsl r.val < 6 ∧ s.hw.RodLive r x ∧ s.hw.RodIs r x.a a ∧ s.hw.RodIs r x.b b ∧
          5 < x.cond.toNat) := by
  refine ⟨?_, ?_, ?_, ?_, ?_⟩ <;> dsimp only <;>
    (repeat' first | decide +kernel | exact inv_st _ (by decide +kernel) (by decide +kernel) | refine And.intro ?_ ?_ | refine Dev.RodLive.mk ?_ ?_ ?_ ?_ ?_ | exact ⟨_, rfl, by decide +kernel⟩)

theorem test_witness_RodAngles :
    (let s : State := st d0; let r : Rod := 1; let x : RodX := { rbase with b := 0x1 }; let a : Int := 5;
      s.Inv ∧ s.hw.RodLive r x ∧ s.hw.RodIs r x.a a ∧ s.hw.RodTakes r x.dst ∧ s.hw.RodTakes r x.b ∧ x.b ≠ x.dst) ∧
    (let s : State := st d0; let r : Rod := 1; let x : RodX := { rbase with a := 0xF0, b := 0xF0 }; let a : Int := 0; let b : Int := 0;
      s.Inv ∧ s.hw.RodLive r x ∧ s.hw.RodIs r x.a a ∧ s.hw.RodTakes r x.dst ∧ s.hw.RodIs r x.b b ∧ a = 0 ∧ b = 0) ∧
    (let s : State := st d0; let r : Rod := 1; let x : RodX := { rbase with b := 0x1 }; let a : Int := 5; let b : Int := -2147483648;
      s.Inv ∧ s.hw.RodLive r x ∧ s.hw.RodIs r x.a a ∧ s.hw.RodTakes r x.dst ∧ s.hw.RodIs r x.b b ∧ ¬(a = 0 ∧ b = 0)) := by
  refine ⟨?_, ?_, ?_⟩ <;> dsimp only <;>
    (repeat' first | decide +kernel | exact inv_st _ (by decide +kernel) (by decide +kernel) | refine And.intro ?_ ?_ | refine Dev.RodLive.mk ?_ ?_ ?_ ?_ ?_ | (unfold Dev.RodTakes; decide +kernel) | exact ⟨_, rfl, by decide +kernel⟩)

theorem test_witness_RodStaging :
    (let s : State := st d0; let r : Rod := 1;
      let x : RodX := { rbase with dst := 0x7, a := 0x3, b := 0x2, cidx := 0x1, cond := 0x2, imm := 0x8003 }; let v : Word := 0x7FFFFFFF;
      let n : Nat := s.hw.rodIsl r.val; let k : Nat := x.imm.toNat % 64;
      s.Inv ∧ s.hw.RodLive r x ∧ s.hw.rodRead (s.hw.rodIsl r.val) (r.val) x.a.toNat = RVal.val v ∧ s.hw.slotTarget n k ≠ none ∧
          tabGet none (s.hw.frame n).out k = none) ∧
    (let s : State := st d0; let r : Rod := 1; let x : RodX := { rbase with b := 0x1 }; let v : Word := 5; let n : Nat := s.hw.rodIsl r.val;
      let k : Nat := x.imm.toNat % 64;
      s.Inv ∧ s.hw.RodLive r x ∧ s.hw.rodRead (s.hw.rodIsl r.val) (r.val) x.a.toNat = RVal.val v ∧
          (s.hw.slotTarget n k = none ∨ tabGet none (s.hw.frame n).out k ≠ none)) ∧
    (let s : State := st d0; let r : Rod := 1; let x : RodX := { rbase with b := 0x1 }; let v : Word := 5; let n : Nat := s.hw.rodIsl r.val;
      let j : Nat := x.imm.toNat % 16;
      s.Inv ∧ s.hw.RodLive r x ∧ s.hw.rodRead (s.hw.rodIsl r.val) (r.val) x.a.toNat = RVal.val v ∧ tabGet none (s.hw.frame n).link j = none) ∧
    (let s : State := st (sf d0 {f0 with out := [(3,some 1)], link := [(3,some 1)]}); let r : Rod := 1;
      let x : RodX := { rbase with dst := 0x7, a := 0x3, b := 0x2, cidx := 0x1, cond := 0x2, imm := 0x8003 }; let v : Word := 0x7FFFFFFF;
      let n : Nat := s.hw.rodIsl r.val; let j : Nat := x.imm.toNat % 16;
      s.Inv ∧ s.hw.RodLive r x ∧ s.hw.rodRead (s.hw.rodIsl r.val) (r.val) x.a.toNat = RVal.val v ∧ tabGet none (s.hw.frame n).link j ≠ none) ∧
    (let s : State := st d0; let r : Rod := 1; let x : RodX := { rbase with b := 0x1 };
      s.Inv ∧ s.hw.RodLive r x) ∧
    (let s : State := st (sr d0 {r0 with run := false, done := true}); let n : Isl := 1;
      s.Inv ∧ s.hw.frameDone n.val = true ∧ (s.hw.frame n.val).doneAt = none ∧
          s.hw.wrapsNow (n.val) (s.hw.f (ABX_FRM_CTL n.val) ABX_FRM_CTL_BND_TMR) = false) := by
  refine ⟨?_, ?_, ?_, ?_, ?_, ?_⟩ <;> dsimp only <;>
    (repeat' first | decide +kernel | exact inv_st _ (by decide +kernel) (by decide +kernel) | refine And.intro ?_ ?_ | refine Dev.RodLive.mk ?_ ?_ ?_ ?_ ?_)

theorem test_witness_RodResidue :
    (let s : State := st d0; let r : Rod := 1; let x : RodX := { rbase with dst := 0x9, imm := 0x1, res := 1 }; let a : Int := 5; let b : Int := 5;
      s.Inv ∧ s.hw.RodLive r { dst := x.dst, a := x.a, b := x.b, cidx := x.cidx, acc := x.acc, cond := x.cond, imm := x.imm, res := 0, ue := x.ue } ∧
          s.hw.RodIs r x.a a ∧ s.hw.RodIs r x.b b ∧ x.res = 1) ∧
    (let s : State := st d0; let r : Rod := 1; let x : RodX := { rbase with imm := 0x1, res := 2 }; let a : Int := 5; let b : Int := 5;
      let q : Rod := 2; let l : List Rod := [];
      s.Inv ∧ s.hw.RodLive r { dst := x.dst, a := x.a, b := x.b, cidx := x.cidx, acc := x.acc, cond := x.cond, imm := x.imm, res := 0, ue := x.ue } ∧
          s.hw.RodIs r x.a a ∧ s.hw.RodIs r x.b b ∧ x.res = 2 ∧ s.hw.rodsOf (s.hw.rodIsl r.val) 2 = q :: l ∧ q ≠ r) := by
  refine ⟨?_, ?_⟩ <;> dsimp only <;>
    (repeat' first | decide +kernel | exact inv_st _ (by decide +kernel) (by decide +kernel) | refine And.intro ?_ ?_ | refine Dev.RodLive.mk ?_ ?_ ?_ ?_ ?_ | exact ⟨_, rfl, by decide +kernel⟩)

end Rods

namespace Cores

def C : Core := 2
def tcm : Nat := 0x20200000
def up (d : Dev) : Dev := { (d.setCore C { d.core C with run := true, pc := 0x1000 }) with mem := (List.range 16).map fun i => ⟨tcm + 0x1230 + i, BitVec.ofNat 8 (7 * i + 1)⟩ }
def bk (d : Dev) (b lvl : Nat) : Dev :=
  let d := ((d.wf (CORE_STATUS C) CORE_STATUS_CUR b).wf (BNK_STATUS C b) BNK_STATUS_LEVEL lvl)
  ((((d.wf (BNK_DSP C b) BNK_DSP_P 0x500).wf (BNK_DTOP C b) BNK_DTOP_P 0x500).wf (BNK_DLIM C b) BNK_DLIM_P 0x400).wf (BNK_RSP C b) BNK_RSP_P 0x600).wf (BNK_RTOP C b) BNK_RTOP_P 0x600
def stk (d : Dev) (l r : List Nat) : Dev := r.reverse.foldl (fun d v => d.rPut C (BitVec.ofNat 32 v)) (l.reverse.foldl (fun d v => d.dPut C (BitVec.ofNat 32 v)) d)
def fl (d : Dev) (n : Nat) : Dev := d.wf (BNK_STATUS C (d.curBank C)) ⟨0,5⟩ n
def b5 : Dev := { up on with regs := on.regs ++ [(CORE_STATUS C, 0x500), (BNK_STATUS C 5, 0x04000000), (BNK_DSP C 5, 0x1400), (BNK_DLIM C 5, 0x1000), (BNK_DTOP C 5, 0x1400), (BNK_RSP C 5, 0x1800), (BNK_RTOP C 5, 0x1800)] }
def sb (d : Dev) (l : List SbEntry) : Dev := d.setCore C { d.core C with sb := l }

theorem loads_word_at {d : Dev} {c : Core} {a n v : Nat} (x : Nat) (e : a = x) (h : x % 4 + n ≤ 4) (p : d.LoadsPart c x n v) :
    d.Loads c a n v := by
  subst e; unfold Dev.Loads; rw [if_pos h]; exact p

theorem loads_split_at {d : Dev} {c : Core} {a n v : Nat} (x : Nat) (e : a = x) (h : ¬ x % 4 + n ≤ 4)
    (p : d.LoadsPart c x (4 - x % 4) (v % 256 ^ (4 - x % 4)))
    (q : d.LoadsPart c ((x + (4 - x % 4)) % 4294967296) (n - (4 - x % 4)) (v / 256 ^ (4 - x % 4))) : d.Loads c a n v := by
  subst e; unfold Dev.Loads; rw [if_neg h]; exact ⟨_, _, p, q, (Nat.mod_add_div v _).symm⟩

/-- The top of the data stack and V after one command, of a state that answers next. -/
def topV (i : Instr) (s : State) : Option (Nat × Bool) :=
  match exec i s with
  | .next t => some ((t.hw.dAt C.val 0).toNat, nbit (t.hw.f (BNK_STATUS C.val (t.hw.curBank C.val)) ⟨0, 5⟩) 3)
  | _ => none

/-- spec/12_instruction_set.md, the example after R402. -/
theorem test_mulq_rounds_half_up :
    topV (.mulq C .al 0 .long 31) (st (fl (stk b5 [0x60000000, 3001] []) 0)) = some (2251, false) := by decide +kernel

/-- spec/12_instruction_set.md, the example after R402: -3001 gives -2251. -/
theorem test_mulq_negative :
    topV (.mulq C .al 0 .long 31) (st (fl (stk b5 [0x60000000, 0xFFFFF447] []) 0)) = some (0xFFFFF735, false) := by
  decide +kernel

/-- spec/12_instruction_set.md, the example after R402: a saturated product sets V. -/
theorem test_mulq_saturates :
    topV (.mulq C .al 0 .long 0) (st (fl (stk b5 [0x7FFFFFFF, 0x7FFFFFFF] []) 0)) = some (0x7FFFFFFF, true) := by
  decide +kernel

theorem test_witness_CoreAddition :
    (let s : State := st (fl (stk b5 [0x1238, 77] []) 0); let c : Core := 2; let k : Cond := Cond.al; let d : Dev := s.hw;
      s.Inv ∧ d.CoreLive c k 2 ∧ d.dDepth c.val ≤ 16 ∧ 2 ≤ d.dDepth c.val) ∧
    (let s : State := st (fl (stk b5 [5] []) 0); let c : Core := 2; let k : Cond := Cond.al; let d : Dev := s.hw;
      s.Inv ∧ d.CoreLive c k 2 ∧ d.dDepth c.val ≤ 16 ∧ 1 ≤ d.dDepth c.val) ∧
    (let s : State := st (fl (stk b5 [5] []) 0); let c : Core := 2; let k : Cond := Cond.al; let d : Dev := s.hw;
      s.Inv ∧ d.CoreLive c k 4 ∧ d.dDepth c.val ≤ 16 ∧ 1 ≤ d.dDepth c.val) := by
  refine ⟨?_, ?_, ?_⟩ <;> dsimp only <;>
    (repeat' first | decide +kernel | exact inv_st _ (by decide +kernel) (by decide +kernel) | refine And.intro ?_ ?_ | refine Dev.CoreLive.mk ?_ ?_ ?_ ?_ ?_ ?_)

theorem test_witness_CoreLogicAndShifts :
    (let s : State := st (fl (stk b5 [0x1238, 77] []) 0); let c : Core := 2; let k : Cond := Cond.al; let d : Dev := s.hw;
      s.Inv ∧ d.CoreLive c k 2 ∧ d.dDepth c.val ≤ 16 ∧ 2 ≤ d.dDepth c.val) ∧
    (let s : State := st (fl (stk b5 [5] []) 0); let c : Core := 2; let k : Cond := Cond.al; let d : Dev := s.hw; let b : Word := d.dAt (c.val) 0;
      s.Inv ∧ d.CoreLive c k 2 ∧ d.dDepth c.val ≤ 16 ∧ 1 ≤ d.dDepth c.val ∧ b ≠ 2147483648) ∧
    (let s : State := st (fl (stk b5 [0x80000000, 0xFFFFFFFF] []) 0); let c : Core := 2; let k : Cond := Cond.al; let d : Dev := s.hw;
      let b : Word := d.dAt (c.val) 0;
      s.Inv ∧ d.CoreLive c k 2 ∧ d.dDepth c.val ≤ 16 ∧ 1 ≤ d.dDepth c.val ∧ b = 2147483648) ∧
    (let s : State := st (fl (stk b5 [5] []) 0); let c : Core := 2; let k : Cond := Cond.al; let d : Dev := s.hw; let n : Fin 16 := 1;
      s.Inv ∧ d.CoreLive c k 2 ∧ d.dDepth c.val ≤ 16 ∧ 1 ≤ d.dDepth c.val ∧ n ≠ 0) ∧
    (let s : State := st (fl (stk b5 [5] []) 0); let c : Core := 2; let k : Cond := Cond.al; let d : Dev := s.hw;
      s.Inv ∧ d.CoreLive c k 4 ∧ d.dDepth c.val ≤ 16 ∧ 1 ≤ d.dDepth c.val) ∧
    (let s : State := st (fl (stk b5 [5] []) 0); let c : Core := 2; let k : Cond := Cond.al; let d : Dev := s.hw;
      s.Inv ∧ d.CoreLive c k 4 ∧ d.dDepth c.val ≤ 16 ∧ 1 ≤ d.dDepth c.val) := by
  refine ⟨?_, ?_, ?_, ?_, ?_, ?_⟩ <;> dsimp only <;>
    (repeat' first | decide +kernel | exact inv_st _ (by decide +kernel) (by decide +kernel) | refine And.intro ?_ ?_ | refine Dev.CoreLive.mk ?_ ?_ ?_ ?_ ?_ ?_)

theorem test_witness_CoreProductsAndCompares :
    (let s : State := st (fl (stk b5 [0x1238, 77] []) 0); let c : Core := 2; let k : Cond := Cond.al; let d : Dev := s.hw;
      s.Inv ∧ d.CoreLive c k 2 ∧ d.dDepth c.val ≤ 16 ∧ 2 ≤ d.dDepth c.val) ∧
    (let s : State := st (fl (stk b5 [0x1238, 77] []) 0); let c : Core := 2; let k : Cond := Cond.al; let d : Dev := s.hw;
      let b : Word := d.dAt (c.val) 0;
      s.Inv ∧ d.CoreLive c k 2 ∧ d.dDepth c.val ≤ 16 ∧ 2 ≤ d.dDepth c.val ∧ b ≠ 0) ∧
    (let s : State := st (fl (stk b5 [0,5,6,7] []) 0); let c : Core := 2; let k : Cond := Cond.al; let d : Dev := s.hw;
      let b : Word := d.dAt (c.val) 0;
      s.Inv ∧ d.CoreLive c k 2 ∧ d.dDepth c.val ≤ 16 ∧ 2 ≤ d.dDepth c.val ∧ b = 0) ∧
    (let s : State := st (fl (stk b5 [0x1238, 77] []) 0); let c : Core := 2; let k : Cond := Cond.al; let d : Dev := s.hw;
      let b : Word := d.dAt (c.val) 0; let a : Word := d.dAt (c.val) 1; let cc : Fin 16 := 0; let t : Bool := false;
      s.Inv ∧ d.CoreLive c k 2 ∧ d.dDepth c.val ≤ 16 ∧ 2 ≤ d.dDepth c.val ∧ compares (cc.val) a b = some t) ∧
    (let s : State := st (fl (stk b5 [5] []) 0); let c : Core := 2; let k : Cond := Cond.al; let d : Dev := s.hw;
      s.Inv ∧ d.CoreLive c k 2 ∧ d.dDepth c.val ≤ 16 ∧ 1 ≤ d.dDepth c.val) ∧
    (let s : State := st (fl (stk b5 [0x1238, 77] []) 0); let c : Core := 2; let k : Cond := Cond.al; let d : Dev := s.hw;
      s.Inv ∧ d.CoreLive c k 4 ∧ d.dDepth c.val ≤ 16 ∧ 2 ≤ d.dDepth c.val) ∧
    (let s : State := st (fl (stk b5 [5] []) 0); let c : Core := 2; let k : Cond := Cond.al; let d : Dev := s.hw; let b : Word := d.dAt (c.val) 0;
      let cc : Fin 16 := 0; let i : BitVec 16 := 0; let t : Bool := false;
      s.Inv ∧ d.CoreLive c k 4 ∧ d.dDepth c.val ≤ 16 ∧ 1 ≤ d.dDepth c.val ∧ compares (cc.val) b (BitVec.signExtend 32 i) = some t) ∧
    (let s : State := st (fl (stk b5 [5] []) 0); let c : Core := 2; let k : Cond := Cond.al; let d : Dev := s.hw;
      s.Inv ∧ d.CoreLive c k 4 ∧ d.dDepth c.val ≤ 16 ∧ 1 ≤ d.dDepth c.val) := by
  refine ⟨?_, ?_, ?_, ?_, ?_, ?_, ?_, ?_⟩ <;> dsimp only <;>
    (repeat' first | decide +kernel | exact inv_st _ (by decide +kernel) (by decide +kernel) | refine And.intro ?_ ?_ | refine Dev.CoreLive.mk ?_ ?_ ?_ ?_ ?_ ?_)

theorem test_witness_CoreDataStack :
    (let s : State := st (fl (stk b5 [] []) 0); let c : Core := 2; let k : Cond := Cond.al; let d : Dev := s.hw;
      s.Inv ∧ d.CoreLive c k 2 ∧ d.dDepth c.val ≤ 15) ∧
    (let s : State := st (fl (stk b5 [5] []) 0); let c : Core := 2; let k : Cond := Cond.al; let d : Dev := s.hw;
      s.Inv ∧ d.CoreLive c k 2 ∧ d.dDepth c.val ≤ 15 ∧ 1 ≤ d.dDepth c.val) ∧
    (let s : State := st (fl (stk b5 [0x1238, 77] []) 0); let c : Core := 2; let k : Cond := Cond.al; let d : Dev := s.hw;
      s.Inv ∧ d.CoreLive c k 2 ∧ d.dDepth c.val ≤ 15 ∧ 2 ≤ d.dDepth c.val) ∧
    (let s : State := st (fl (stk b5 [0xFFFFFFFF,0x80000000,7] []) 0); let c : Core := 2; let k : Cond := Cond.al; let d : Dev := s.hw;
      s.Inv ∧ d.CoreLive c k 2 ∧ d.dDepth c.val ≤ 15 ∧ 3 ≤ d.dDepth c.val) ∧
    (let s : State := st (fl (stk b5 [5] []) 0); let c : Core := 2; let k : Cond := Cond.al; let d : Dev := s.hw; let n : Fin 16 := 0;
      s.Inv ∧ d.CoreLive c k 2 ∧ d.dDepth c.val ≤ 15 ∧ n.val < d.dDepth c.val) ∧
    (let s : State := st (fl (stk b5 [] []) 0); let c : Core := 2; let k : Cond := Cond.al; let d : Dev := s.hw;
      s.Inv ∧ d.CoreLive c k 4 ∧ d.dDepth c.val ≤ 15) ∧
    (let s : State := st (fl (stk b5 [5] []) 0); let c : Core := 2; let k : Cond := Cond.al; let d : Dev := s.hw;
      s.Inv ∧ d.CoreLive c k 4 ∧ d.dDepth c.val ≤ 15 ∧ 1 ≤ d.dDepth c.val) := by
  refine ⟨?_, ?_, ?_, ?_, ?_, ?_, ?_⟩ <;> dsimp only <;>
    (repeat' first | decide +kernel | exact inv_st _ (by decide +kernel) (by decide +kernel) | refine And.intro ?_ ?_ | refine Dev.CoreLive.mk ?_ ?_ ?_ ?_ ?_ ?_)

theorem test_witness_CoreReturnStack :
    (let s : State := st (fl (stk b5 [5] []) 0); let c : Core := 2; let k : Cond := Cond.al; let d : Dev := s.hw;
      s.Inv ∧ s.hw.CoreLive c k 2 ∧ s.hw.dDepth c.val ≤ 15 ∧ s.hw.rDepth c.val ≤ 7 ∧ 1 ≤ d.dDepth c.val) ∧
    (let s : State := st (fl (stk b5 [] [0x2000, 1]) 0x1F); let c : Core := 2; let k : Cond := Cond.al; let d : Dev := s.hw;
      s.Inv ∧ s.hw.CoreLive c k 2 ∧ s.hw.dDepth c.val ≤ 15 ∧ s.hw.rDepth c.val ≤ 7 ∧ 1 ≤ d.rDepth c.val) := by
  refine ⟨?_, ?_⟩ <;> dsimp only <;>
    (repeat' first | decide +kernel | exact inv_st _ (by decide +kernel) (by decide +kernel) | refine And.intro ?_ ?_ | refine Dev.CoreLive.mk ?_ ?_ ?_ ?_ ?_ ?_)

set_option maxRecDepth 20000 in
theorem test_witness_CoreLoads :
    (let s : State := st (fl (stk b5 [5] []) 0); let c : Core := 2; let k : Cond := Cond.al; let d : Dev := s.hw; let m : MemForm := MemForm.short;
      let v : Nat := 0; let a : Nat := BitVec.toNat (memAddr (d.dAt (c.val) 0) m);
      s.Inv ∧ d.dDepth c.val ≤ 16 ∧ 1 ≤ d.dDepth c.val ∧ d.CoreLive c k (memLen m) ∧ d.Loads c a 4 v) ∧
    (let s : State := st (fl (stk b5 [5] []) 0); let c : Core := 2; let k : Cond := Cond.al; let d : Dev := s.hw; let m : MemForm := MemForm.short;
      let v : Nat := 0; let a : Nat := BitVec.toNat (memAddr (d.dAt (c.val) 0) m);
      s.Inv ∧ d.dDepth c.val ≤ 16 ∧ 1 ≤ d.dDepth c.val ∧ d.CoreLive c k (memLen m) ∧ d.Loads c a 2 v) ∧
    (let s : State := st (fl (stk b5 [5] []) 0); let c : Core := 2; let k : Cond := Cond.al; let d : Dev := s.hw; let m : MemForm := MemForm.short;
      let v : Nat := 0; let a : Nat := BitVec.toNat (memAddr (d.dAt (c.val) 0) m);
      s.Inv ∧ d.dDepth c.val ≤ 16 ∧ 1 ≤ d.dDepth c.val ∧ d.CoreLive c k (memLen m) ∧ d.Loads c a 1 v) ∧
    (let s : State := st (fl (stk b5 [] []) 0); let c : Core := 2; let k : Cond := Cond.al; let d : Dev := s.hw; let a : BitVec 20 := 0;
      let v : Nat := 0;
      s.Inv ∧ d.dDepth c.val ≤ 15 ∧ d.CoreLive c k 4 ∧ d.Loads c a.toNat 4 v) ∧
    (let s : State := st (fl (stk b5 [0x1238, 77] []) 0); let c : Core := 2; let k : Cond := Cond.al; let d : Dev := s.hw; let v : Nat := 1313292345;
      s.Inv ∧ d.dDepth c.val ≤ 16 ∧ 2 ≤ d.dDepth c.val ∧ d.CoreLive c k 2 ∧ d.Loads c (BitVec.toNat (d.dAt (c.val) 0)) 4 v) := by
  refine ⟨?_, ?_, ?_, ?_, ?_⟩ <;> dsimp only <;>
    (repeat' first | decide +kernel | exact inv_st _ (by decide +kernel) (by decide +kernel) | refine And.intro ?_ ?_ | refine Dev.CoreLive.mk ?_ ?_ ?_ ?_ ?_ ?_ | refine loads_word_at 0 (by decide +kernel) (by decide +kernel) ?_ | refine loads_split_at 0 (by decide +kernel) (by decide +kernel) ?_ ?_ | refine loads_word_at 5 (by decide +kernel) (by decide +kernel) ?_ | refine loads_split_at 5 (by decide +kernel) (by decide +kernel) ?_ ?_ | refine loads_word_at 0x1238 (by decide +kernel) (by decide +kernel) ?_ | refine loads_split_at 0x1238 (by decide +kernel) (by decide +kernel) ?_ ?_ | refine loads_word_at 0x1234 (by decide +kernel) (by decide +kernel) ?_ | refine loads_split_at 0x1234 (by decide +kernel) (by decide +kernel) ?_ ?_ | refine Dev.LoadsPart.mk ?_ ?_ ?_ ?_ ?_)

theorem test_witness_CoreStores :
    (let s : State := st (fl (stk b5 [0x1238, 77] []) 0); let c : Core := 2; let k : Cond := Cond.al; let d : Dev := s.hw;
      let m : MemForm := MemForm.short;
      s.Inv ∧ d.dDepth c.val ≤ 16 ∧ 2 ≤ d.dDepth c.val ∧ d.CoreLive c k (memLen m)) ∧
    (let s : State := st (fl (stk b5 [5] []) 0); let c : Core := 2; let k : Cond := Cond.al; let d : Dev := s.hw;
      s.Inv ∧ d.dDepth c.val ≤ 16 ∧ 1 ≤ d.dDepth c.val ∧ d.CoreLive c k 4) ∧
    (let s : State := st (fl (stk b5 [0x1238, 77] []) 0); let c : Core := 2; let k : Cond := Cond.al; let d : Dev := s.hw;
      let x : Nat := BitVec.toNat (d.dAt (c.val) 1); let v : Nat := 0;
      s.Inv ∧ d.dDepth c.val ≤ 16 ∧ 2 ≤ d.dDepth c.val ∧ d.CoreLive c k 2 ∧ d.LoadsPart c x 4 v) := by
  refine ⟨?_, ?_, ?_⟩ <;> dsimp only <;>
    (repeat' first | decide +kernel | exact inv_st _ (by decide +kernel) (by decide +kernel) | refine And.intro ?_ ?_ | refine Dev.CoreLive.mk ?_ ?_ ?_ ?_ ?_ ?_ | refine Dev.LoadsPart.mk ?_ ?_ ?_ ?_ ?_)

theorem test_witness_CoreStoreBuffer :
    (let s : State := st (sb (stk b5 [0x1238,5] []) [⟨0x1234,4,0xAABBCCDD⟩]); let c : Core := 2; let d : Dev := s.hw;
      let e : SbEntry := ⟨0x1234,4,0xAABBCCDD⟩; let es : List SbEntry := [];
      s.Inv ∧ s.hw.dcache = [] ∧ (s.hw.core c.val).ue = none ∧ (∀ (e : SbEntry), e ∈ (s.hw.core c.val).sb → 0 < e.size ∧
          s.hw.unpowered (s.hw.xaddr (c.val) e.addr) = false ∧ placeOf (s.hw.xaddr (c.val) e.addr) = Place.mem) ∧ (d.core c.val).sb = e :: es) ∧
    (let s : State := st (fl (stk b5 [] []) 0); let c : Core := 2; let d : Dev := s.hw; let k : Cond := Cond.al;
      s.Inv ∧ s.hw.dcache = [] ∧ (s.hw.core c.val).ue = none ∧ (∀ (e : SbEntry), e ∈ (s.hw.core c.val).sb → 0 < e.size ∧
          s.hw.unpowered (s.hw.xaddr (c.val) e.addr) = false ∧ placeOf (s.hw.xaddr (c.val) e.addr) = Place.mem) ∧ d.CoreLive c k 2) := by
  refine ⟨?_, ?_⟩ <;> dsimp only <;>
    (repeat' first | decide +kernel | exact inv_st _ (by decide +kernel) (by decide +kernel) | refine And.intro ?_ ?_ | refine Dev.CoreLive.mk ?_ ?_ ?_ ?_ ?_ ?_)

theorem test_witness_CoreBits :
    (let s : State := st (fl (stk b5 [] []) 0); let c : Core := 2; let k : Cond := Cond.al; let b : BitRef := BitRef.own 3; let n : Nat := bitAddr b;
      s.Inv ∧ s.hw.CoreLive c k (bitLen b) ∧ n < 4096) ∧
    (let s : State := st (fl (stk b5 [] []) 0); let c : Core := 2; let k : Cond := Cond.al; let b : BitRef := BitRef.any 0x5400; let d : Dev := s.hw;
      let n : Nat := bitAddr b;
      s.Inv ∧ s.hw.CoreLive c k (bitLen b) ∧ 4096 ≤ n ∧ (d.core c.val).sb = [] ∧ d.claspFills c.val = false ∧ d.bitErr (c.val) n false = BErr.none ∧
          d.bitErr (c.val) n true = BErr.none) := by
  refine ⟨?_, ?_⟩ <;> dsimp only <;>
    (repeat' first | decide +kernel | exact inv_st _ (by decide +kernel) (by decide +kernel) | refine And.intro ?_ ?_ | refine Dev.CoreLive.mk ?_ ?_ ?_ ?_ ?_ ?_)

theorem test_witness_CoreBranches :
    (let s : State := st (fl (stk b5 [] []) 0); let c : Core := 2; let k : Cond := Cond.al; let d : Dev := s.hw;
      s.Inv ∧ s.hw.dDepth c.val ≤ 16 ∧ s.hw.rDepth c.val ≤ 7 ∧ d.CoreLive c k 2) ∧
    (let s : State := st (fl (stk b5 [0x1238, 77] []) 0); let c : Core := 2; let k : Cond := Cond.al; let d : Dev := s.hw;
      let x : Word := d.dAt (c.val) 0;
      s.Inv ∧ s.hw.dDepth c.val ≤ 16 ∧ s.hw.rDepth c.val ≤ 7 ∧ d.CoreLive c k 2 ∧ 1 ≤ d.dDepth c.val ∧ BitVec.getLsbD x 0 = false) ∧
    (let s : State := st (fl (stk b5 [] [0x2000, 1]) 0x1F); let c : Core := 2; let k : Cond := Cond.al; let d : Dev := s.hw;
      s.Inv ∧ s.hw.dDepth c.val ≤ 16 ∧ s.hw.rDepth c.val ≤ 7 ∧ d.CoreLive c k 2 ∧ 1 ≤ d.rDepth c.val ∧ BitVec.getLsbD (d.rAt (c.val) 0) 0 = false) ∧
    (let s : State := st (fl (stk b5 [] []) 0); let c : Core := 2; let k : Cond := Cond.al; let d : Dev := s.hw;
      s.Inv ∧ s.hw.dDepth c.val ≤ 16 ∧ s.hw.rDepth c.val ≤ 7 ∧ d.CoreLive c k 4) := by
  refine ⟨?_, ?_, ?_, ?_⟩ <;> dsimp only <;>
    (repeat' first | decide +kernel | exact inv_st _ (by decide +kernel) (by decide +kernel) | refine And.intro ?_ ?_ | refine Dev.CoreLive.mk ?_ ?_ ?_ ?_ ?_ ?_)

theorem test_witness_CoreRepeats :
    (let s : State := st (fl (stk b5 [] []) 0); let c : Core := 2; let k : Cond := Cond.al; let d : Dev := s.hw;
      s.Inv ∧ d.CoreLive c k 2) ∧
    (let s : State := st (fl (stk b5 [] []) 0); let c : Core := 2; let k : Cond := Cond.al; let d : Dev := s.hw;
      s.Inv ∧ d.CoreLive c k 4) ∧
    (let s : State := st ((stk b5 [3] []).wf (BNK_STATUS C 5) BNK_STATUS_RCNT 1); let c : Core := 2; let k : Cond := Cond.z; let d : Dev := s.hw;
      let n : Nat := 0;
      s.Inv ∧ d.repLeft c.val = n + 1 ∧ d.unitReady c.val = true ∧ (d.core c.val).impr = none ∧ d.fetchErr (c.val) (d.pc c.val) 2 = BErr.none ∧
          (d.core c.val).step1 = false ∧ condHolds k (d.flags c.val) = false) := by
  refine ⟨?_, ?_, ?_⟩ <;> dsimp only <;>
    (repeat' first | decide +kernel | exact inv_st _ (by decide +kernel) (by decide +kernel) | refine And.intro ?_ ?_ | refine Dev.CoreLive.mk ?_ ?_ ?_ ?_ ?_ ?_)

theorem test_witness_CoreSystem :
    (let s : State := st (fl (stk b5 [] []) 0); let c : Core := 2; let k : Cond := Cond.al; let d : Dev := s.hw; let b : Nat := d.curBank c.val;
      let st : Nat := BNK_STATUS (c.val) b;
      s.Inv ∧ s.hw.CoreLive c k 2 ∧ d.b st BNK_STATUS_SACT = false) ∧
    (let s : State := st ((stk b5 [3] [4]).wf (BNK_STATUS C 5) BNK_STATUS_SACT 1); let c : Core := 2; let k : Cond := Cond.al; let d : Dev := s.hw;
      let b : Nat := d.curBank c.val; let st : Nat := BNK_STATUS (c.val) b;
      s.Inv ∧ s.hw.CoreLive c k 2 ∧ d.level c.val ≠ 0 ∧ d.b st BNK_STATUS_SACT = true) ∧
    (let s : State := st (fl (stk b5 [] []) 0); let c : Core := 2; let k : Cond := Cond.al; let d : Dev := s.hw; let n : Fin 16 := 2;
      s.Inv ∧ s.hw.CoreLive c k 2 ∧ d.level c.val ≠ 0 ∧ (2 ≤ n.val ∨ d.level c.val = 2)) ∧
    (let s : State := st (b5.wf (CORE_CTL C) CORE_CTL_DBG_EN 1); let c : Core := 2; let k : Cond := Cond.al; let d : Dev := s.hw;
      s.Inv ∧ s.hw.CoreLive c k 2 ∧ d.b (CORE_CTL c.val) CORE_CTL_DBG_EN = true) := by
  refine ⟨?_, ?_, ?_, ?_⟩ <;> dsimp only <;>
    (repeat' first | decide +kernel | exact inv_st _ (by decide +kernel) (by decide +kernel) | refine And.intro ?_ ?_ | refine Dev.CoreLive.mk ?_ ?_ ?_ ?_ ?_ ?_)

theorem test_witness_CoreTraps :
    (let s : State := st (fl (stk b5 [] []) 0); let c : Core := 2; let d : Dev := s.hw;
      s.Inv ∧ d.TrapReady c (2 * d.f (TVEC c.val) TVEC_P) ∧ d.CoreLive c Cond.al 2) ∧
    (let s : State := st (fl (stk b5 [] []) 0); let c : Core := 2; let k : Cond := Cond.al; let d : Dev := s.hw;
      s.Inv ∧ d.TrapReady c (2 * d.f (TVEC c.val) TVEC_P) ∧ d.CoreLive c k 2) ∧
    (let s : State := st (fl (stk b5 [] []) 0); let c : Core := 2; let k : Cond := Cond.al; let d : Dev := s.hw; let cc : Fin 16 := 10;
      s.Inv ∧ d.TrapReady c (2 * d.f (TVEC c.val) TVEC_P) ∧ d.CoreLive c k 2 ∧ 10 ≤ cc.val) ∧
    (let s : State := st (fl (stk b5 [5] []) 0); let c : Core := 2; let k : Cond := Cond.al; let d : Dev := s.hw;
      s.Inv ∧ d.TrapReady c (2 * d.f (TVEC c.val) TVEC_P) ∧ d.CoreLive c k 2 ∧ 1 ≤ d.dDepth c.val ∧ BitVec.getLsbD (d.dAt (c.val) 0) 0 = true ∧
          d.rDepth c.val ≤ 7) ∧
    (let s : State := st (stk (bk (up on) 3 1) [0x1001] [0x1001]); let c : Core := 2; let k : Cond := Cond.al; let d : Dev := s.hw;
      s.Inv ∧ d.TrapReady c (2 * d.f (TVEC c.val) TVEC_P) ∧ d.CoreLive c k 2 ∧ 1 ≤ d.rDepth c.val ∧ BitVec.getLsbD (d.rAt (c.val) 0) 0 = true) ∧
    (let s : State := st ((stk b5 [3] [4]).wf (BNK_STATUS C 5) BNK_STATUS_SACT 1); let c : Core := 2; let k : Cond := Cond.al; let d : Dev := s.hw;
      s.Inv ∧ d.TrapReady c (2 * d.f (TVEC c.val) TVEC_P) ∧ d.CoreLive c k 2 ∧ d.b (BNK_STATUS (c.val) (d.curBank c.val)) BNK_STATUS_SACT = true) ∧
    (let s : State := st (bk (stk b5 [1] [2]) 7 0); let c : Core := 2; let k : Cond := Cond.al; let d : Dev := s.hw;
      s.Inv ∧ d.TrapReady c (2 * d.f (TVEC c.val) TVEC_P) ∧ d.CoreLive c k 2 ∧ d.level c.val = 0) ∧
    (let s : State := st (fl (stk b5 [] []) 0); let c : Core := 2; let k : Cond := Cond.al; let d : Dev := s.hw; let n : Fin 16 := 0;
      s.Inv ∧ d.TrapReady c (2 * d.f (TVEC c.val) TVEC_P) ∧ d.CoreLive c k 2 ∧ d.level c.val ≠ 2 ∧ n.val < 2) ∧
    (let s : State := st (fl (stk b5 [] []) 0); let c : Core := 2; let k : Cond := Cond.al; let d : Dev := s.hw;
      s.Inv ∧ d.TrapReady c (2 * d.f (TVEC c.val) TVEC_P) ∧ d.CoreLive c k 2 ∧ d.b (CORE_CTL c.val) CORE_CTL_DBG_EN = false) ∧
    (let s : State := st (fl (stk b5 [0xC0000000, 7] []) 0); let c : Core := 2; let k : Cond := Cond.al; let d : Dev := s.hw;
      s.Inv ∧ d.TrapReady c (2 * d.f (TVEC c.val) TVEC_P) ∧ d.CoreLive c k 2 ∧ 1 ≤ d.dDepth c.val ∧ d.dDepth c.val ≤ 16 ∧
          BitVec.toNat (d.dAt (c.val) 0) % 4 = 0 ∧ d.accessErr (c.val) (BitVec.toNat (d.dAt (c.val) 0)) 4 false = BErr.decode) ∧
    (let s : State := st (fl (stk b5 [] []) 0); let c : Core := 2; let k : Cond := Cond.al; let d : Dev := s.hw;
      s.Inv ∧ d.TrapReady c (2 * d.f (TVEC c.val) TVEC_P) ∧ d.CoreLive c k 2 ∧ d.dDepth c.val = 0 ∧
          d.f (BNK_DSP (c.val) (d.curBank c.val)) BNK_DSP_P = d.f (BNK_DTOP (c.val) (d.curBank c.val)) BNK_DTOP_P) ∧
    (let s : State := st (((stk b5 [3] [4]).wf (BNK_STATUS C 5) BNK_STATUS_IEN 1).wf (PND_CPU_STATUS C) PND_CPU_STATUS_LINE 1); let c : Core := 2;
      let d : Dev := s.hw;
      s.Inv ∧ d.TrapReady c (2 * d.f (IVEC c.val) IVEC_P) ∧ d.coreRuns c.val = true ∧ (d.core c.val).close = false ∧ (d.core c.val).hold = 0 ∧
          (d.core c.val).impr = none ∧ d.b (PND_CPU_STATUS c.val) PND_CPU_STATUS_LINE = true ∧
          d.b (BNK_STATUS (c.val) (d.curBank c.val)) BNK_STATUS_IEN = true ∧ d.b (CORE_CTL c.val) CORE_CTL_FIQ = false) ∧
    (let s : State := st (bk b5 0 2); let c : Core := 2; let d : Dev := s.hw;
      s.Inv ∧ d.CoreLive c Cond.al 2 ∧ d.curBank c.val = 0 ∧ (d.core c.val).sb = []) := by
  refine ⟨?_, ?_, ?_, ?_, ?_, ?_, ?_, ?_, ?_, ?_, ?_, ?_, ?_⟩ <;> dsimp only <;>
    (repeat' first | decide +kernel | exact inv_st _ (by decide +kernel) (by decide +kernel) | refine And.intro ?_ ?_ | refine Dev.CoreLive.mk ?_ ?_ ?_ ?_ ?_ ?_ | refine Dev.TrapReady.mk ?_ ?_ ?_ ?_)

theorem test_witness_CoreSkipsSpillsResidue :
    (let s : State := st (fl (stk b5 [] []) 0); let c : Core := 2; let k : Cond := Cond.z; let d : Dev := s.hw; let f : Fl := d.flags c.val;
      s.Inv ∧ d.unitReady c.val = true ∧ (d.core c.val).impr = none ∧ d.fetchErr (c.val) (d.pc c.val) 2 = BErr.none ∧ condHolds k f = false ∧
          d.repLeft c.val = 0 ∧ (d.core c.val).step1 = false) ∧
    (let s : State := st (fl (stk b5 [2,0x1234, 1,2,3,4,5,6,7,8,9,10,11,12,13,14] []) 0); let c : Core := 2; let k : Cond := Cond.al;
      let d : Dev := s.hw; let b : Nat := d.curBank c.val;
      s.Inv ∧ d.CoreLive c k 2 ∧ d.dDepth c.val = 16 ∧ 4 * d.f (BNK_DLIM (c.val) b) BNK_DLIM_P + 4 ≤ d.dsp c.val ∧
          d.storeErr (c.val) (d.dsp c.val - 4) 4 (BitVec.toNat (d.dAt (c.val) 15)) = BErr.none ∧ privateRange (d.dsp c.val - 4) = false ∧
          (d.core c.val).sb.length < 8) ∧
    (let s : State := st ((stk b5 [] []).wf (BNK_DSP C 5) BNK_DSP_P 0x48D); let c : Core := 2; let k : Cond := Cond.al; let d : Dev := s.hw;
      let b : Nat := d.curBank c.val; let v : Nat := 841688093;
      s.Inv ∧ d.CoreLive c k 2 ∧ d.dDepth c.val = 0 ∧ d.dsp c.val ≠ 4 * d.f (BNK_DTOP (c.val) b) BNK_DTOP_P ∧ d.Loads c (d.dsp c.val) 4 v) ∧
    (let s : State := st (fl (stk b5 [0x1238, 77] []) 0); let c : Core := 2; let k : Cond := Cond.al; let d : Dev := s.hw;
      s.Inv ∧ d.CoreLive c k 2 ∧ 2 ≤ d.dDepth c.val ∧ d.dDepth c.val ≤ 16 ∧ (d.core c.val).sb = []) := by
  refine ⟨?_, ?_, ?_, ?_⟩ <;> dsimp only <;>
    (repeat' first | decide +kernel | exact inv_st _ (by decide +kernel) (by decide +kernel) | refine And.intro ?_ ?_ | refine Dev.CoreLive.mk ?_ ?_ ?_ ?_ ?_ ?_ | refine loads_word_at 0 (by decide +kernel) (by decide +kernel) ?_ | refine loads_split_at 0 (by decide +kernel) (by decide +kernel) ?_ ?_ | refine loads_word_at 5 (by decide +kernel) (by decide +kernel) ?_ | refine loads_split_at 5 (by decide +kernel) (by decide +kernel) ?_ ?_ | refine loads_word_at 0x1238 (by decide +kernel) (by decide +kernel) ?_ | refine loads_split_at 0x1238 (by decide +kernel) (by decide +kernel) ?_ ?_ | refine loads_word_at 0x1234 (by decide +kernel) (by decide +kernel) ?_ | refine loads_split_at 0x1234 (by decide +kernel) (by decide +kernel) ?_ ?_ | refine Dev.LoadsPart.mk ?_ ?_ ?_ ?_ ?_)

end Cores

namespace Clasps

def C : Core := 2
def w (n : Nat) : Word := BitVec.ofNat 32 n
def up (d : Dev) : Dev := d.setCore C { d.core C with run := true, pc := 0x1000 }
def bk (d : Dev) (b lvl : Nat) : Dev := ((d.wf (CORE_STATUS C) CORE_STATUS_CUR b).wf (BNK_STATUS C b) BNK_STATUS_LEVEL lvl)
def stk (d : Dev) (l : List Nat) : Dev := l.reverse.foldl (fun d v => d.dPut C (w v)) d
def b5 : Dev := bk (up on) 5 1
def ents : List ClaspEntry := [⟨0x20201234,0xFFFF,0xAABB,false⟩, ⟨0x20201238,0xFFFFFFFF,0xAABBCCDD,false⟩]
def cl (d : Dev) (h : ClaspH) : Dev := d.setClasp C h
def op (st : Nat) : ClaspH := { held := true, bank := 5, status := st, entries := ents }
def closing (d : Dev) : Dev := d.setCore C { d.core C with close := true }
def closed (m : Nat) : ClaspH := { op 2 with closed := true, mode := m, k := 99000, t := 99990 }

theorem test_witness_ClaspOpenClose :
    (let s : State := st (stk b5 []); let c : Core := 2; let k : Cond := Cond.al; let d : Dev := s.hw; let h : ClaspH := d.clasp c.val;
      s.Inv ∧ s.hw.dDepth c.val ≤ 15 ∧ d.CoreLive c k 2 ∧ h.held = false) ∧
    (let s : State := st (cl (stk b5 []) (op 1)); let c : Core := 2; let k : Cond := Cond.al; let d : Dev := s.hw; let h : ClaspH := d.clasp c.val;
      s.Inv ∧ s.hw.dDepth c.val ≤ 15 ∧ d.CoreLive c k 2 ∧ h.held = true) ∧
    (let s : State := st (cl (stk b5 []) (op 1)); let c : Core := 2; let k : Cond := Cond.al; let d : Dev := s.hw;
      s.Inv ∧ s.hw.dDepth c.val ≤ 15 ∧ d.CoreLive c k 2 ∧ d.claspFills c.val = true) ∧
    (let s : State := st (stk b5 [0]); let c : Core := 2; let k : Cond := Cond.al; let d : Dev := s.hw; let h : ClaspH := d.clasp c.val;
      s.Inv ∧ s.hw.dDepth c.val ≤ 15 ∧ d.CoreLive c k 2 ∧ h.held = false ∧ 1 ≤ d.dDepth c.val ∧ cmMode (BitVec.toNat (d.dAt (c.val) 0)) ≠ 1) ∧
    (let s : State := st (cl (stk b5 [0]) { op 1 with closed := true }); let c : Core := 2; let k : Cond := Cond.al; let d : Dev := s.hw;
      let h : ClaspH := d.clasp c.val;
      s.Inv ∧ s.hw.dDepth c.val ≤ 15 ∧ d.CoreLive c k 2 ∧ h.held = true ∧ d.claspFills c.val = false ∧ 1 ≤ d.dDepth c.val ∧
          cmMode (BitVec.toNat (d.dAt (c.val) 0)) ≠ 1) ∧
    (let s : State := st (closing (cl (stk b5 [0]) (op 0x02000001))); let c : Core := 2; let d : Dev := s.hw; let h : ClaspH := d.clasp c.val;
      let m : Nat := BitVec.toNat (d.dAt (c.val) 0);
      s.Inv ∧ s.hw.dDepth c.val ≤ 15 ∧ d.coreRuns c.val = true ∧ (d.core c.val).close = true ∧ d.repLeft c.val = 0 ∧ (d.core c.val).step1 = false ∧
          h.held = true ∧ h.ledger = false ∧ h.closed = false ∧ d.routes c.val = false ∧ d.closeLocked c.val = none ∧ 1 ≤ d.dDepth c.val ∧
          cmMode m ≠ 1 ∧ nbit h.status 25 = true) ∧
    (let s : State := st (closing (cl (stk b5 [0]) (op 1))); let c : Core := 2; let d : Dev := s.hw; let h : ClaspH := d.clasp c.val;
      let m : Nat := BitVec.toNat (d.dAt (c.val) 0);
      s.Inv ∧ s.hw.dDepth c.val ≤ 15 ∧ d.coreRuns c.val = true ∧ (d.core c.val).close = true ∧ d.repLeft c.val = 0 ∧ (d.core c.val).step1 = false ∧
          h.held = true ∧ h.ledger = false ∧ h.closed = false ∧ d.routes c.val = false ∧ d.closeLocked c.val = none ∧ nbit h.status 25 = false ∧
          nbit h.status 26 = false ∧ 1 ≤ d.dDepth c.val ∧ cmMode m = 0) ∧
    (let s : State := st (closing (cl (stk b5 [0x40000000,0,200000]) (op 1))); let c : Core := 2; let d : Dev := s.hw;
      let h : ClaspH := d.clasp c.val; let m : Nat := BitVec.toNat (d.dAt (c.val) 0);
      let t : Nat := BitVec.toNat (d.dAt (c.val) 2) + 4294967296 * BitVec.toNat (d.dAt (c.val) 1);
      s.Inv ∧ s.hw.dDepth c.val ≤ 15 ∧ d.coreRuns c.val = true ∧ (d.core c.val).close = true ∧ d.repLeft c.val = 0 ∧ (d.core c.val).step1 = false ∧
          h.held = true ∧ h.ledger = false ∧ h.closed = false ∧ d.routes c.val = false ∧ d.closeLocked c.val = none ∧ nbit h.status 25 = false ∧
          nbit h.status 26 = false ∧ 3 ≤ d.dDepth c.val ∧ cmMode m = 1 ∧ d.beam ≤ t) ∧
    (let s : State := st (closing (cl (stk b5 [0x40000000,0,99999]) (op 1))); let c : Core := 2; let d : Dev := s.hw;
      let h : ClaspH := d.clasp c.val; let m : Nat := BitVec.toNat (d.dAt (c.val) 0);
      let t : Nat := BitVec.toNat (d.dAt (c.val) 2) + 4294967296 * BitVec.toNat (d.dAt (c.val) 1);
      s.Inv ∧ s.hw.dDepth c.val ≤ 15 ∧ d.coreRuns c.val = true ∧ (d.core c.val).close = true ∧ d.repLeft c.val = 0 ∧ (d.core c.val).step1 = false ∧
          h.held = true ∧ h.ledger = false ∧ h.closed = false ∧ d.routes c.val = false ∧ d.closeLocked c.val = none ∧ nbit h.status 25 = false ∧
          nbit h.status 26 = false ∧ 3 ≤ d.dDepth c.val ∧ cmMode m = 1 ∧ t < d.beam ∧ cmAbort m = false) := by
  refine ⟨?_, ?_, ?_, ?_, ?_, ?_, ?_, ?_, ?_⟩ <;> dsimp only <;>
    (repeat' first | decide +kernel | exact inv_st _ (by decide +kernel) (by decide +kernel) | refine And.intro ?_ ?_ | refine Dev.CoreLive.mk ?_ ?_ ?_ ?_ ?_ ?_)

theorem test_witness_ClaspCommits :
    (let s : State := st (cl b5 { closed 0 with entries := [⟨0x40060000, 0xFFFFFFFF, 0, false⟩] }); let c : Core := 2; let d : Dev := s.hw;
      let h : ClaspH := d.clasp c.val;
      s.Inv ∧ d.claspWaits c.val = true ∧ h.rd = none ∧ d.routes c.val = true ∧ (d.withRouting c.val).routeFault = none ∧ cmMode h.mode = 0) ∧
    (let s : State := st (cl b5 { closed 0 with entries := [⟨0x48300000, 0xFFFFFFFF, 3, false⟩] }); let c : Core := 2; let d : Dev := s.hw;
      let h : ClaspH := d.clasp c.val; let r : Nat := 4; let w : Nat := 0;
      s.Inv ∧ d.claspWaits c.val = true ∧ h.rd = none ∧ d.routes c.val = true ∧ r < 16 ∧ w < 65536 ∧ (d.withRouting c.val).routeFault = some (r, w)) ∧
    (let s : State := st (cl b5 { (closed 0) with rd := some 99999, at_ := some 100000}); let c : Core := 2; let d : Dev := s.hw;
      let h : ClaspH := d.clasp c.val;
      s.Inv ∧ d.claspWaits c.val = true ∧ d.lost = false ∧ (∃ (t : Nat), h.at_ = some t ∧ t ≤ d.beam) ∧ d.shadow = [] ∧ d.presets = [] ∧
          (∀ (e : ClaspEntry), e ∈ h.entries → e.bit = false ∧ e.addr < 1073741824 ∧ d.unpowered e.addr = false)) ∧
    (let s : State := st (cl b5 {(closed 0xB0000000) with rd := some 99999}); let c : Core := 2; let d : Dev := s.hw; let h : ClaspH := d.clasp c.val;
      s.Inv ∧ d.claspWaits c.val = true ∧ d.lost = false ∧ h.at_ = none ∧ atEvent h.mode = true ∧ (∃ (r : Nat), h.rd = some r ∧ r ≤ d.beam) ∧
          d.pendOf (spineKey c.val) = []) ∧
    (let s : State := st (stk b5 []); let c : Core := 2; let d : Dev := s.hw; let k : Cond := Cond.al;
      s.Inv ∧ d.CoreLive c k 2) := by
  refine ⟨?_, ?_, ?_, ?_, ?_⟩ <;> dsimp only <;>
    (repeat' first | decide +kernel | exact inv_st _ (by decide +kernel) (by decide +kernel) | refine And.intro ?_ ?_ | refine Dev.CoreLive.mk ?_ ?_ ?_ ?_ ?_ ?_)

end Clasps

namespace Beads

def wd (n : Nat) : Word := BitVec.ofNat 32 n
def n : Isl := 1
def e : Fin 8 := 3
def live (d : Dev) : Dev := d.wf (BEAD_STAT n e) BEAD_STAT_STOPPED 0
def b0 : Dev := live ((((((on.w (BEAD_SR n e) (wd 0x92345679)).w (BEAD_X n e) (wd 5)).w (BEAD_CRCVAL n e) (wd 0x1D0F)).w (BEAD_CRC_INIT n e) (wd 0xFFFF)).w (BEAD_CMP n e) (wd 0x2345670)).w (BEAD_CMP_MASK n e) (wd 0xFFFFF0))
def hb (d : Dev) (h : BeadH) : Dev := d.setBead n e h
def cap (d : Dev) (k : Nat) : Dev := d.wf (BEAD_CTL n e) BEAD_CTL_TXCAP k
def h0 : BeadH := { tx := [wd 7, wd 8], rx := [(wd 3, 55)], taken := wd 99, s0 := 99000, n := 12, p1 := true }

theorem test_witness_BeadInstructions :
    (let s : State := st b0; let n : Isl := 1; let e : Fin 8 := 3;
      s.Inv ∧ s.hw.BeadLive n e) ∧
    (let s : State := st b0; let n : Isl := 1; let e : Fin 8 := 3;
      s.Inv ∧ s.hw.BeadLive n e) ∧
    (let s : State := st b0; let n : Isl := 1; let e : Fin 8 := 3;
      s.Inv ∧ s.hw.BeadLive n e) := by
  refine ⟨?_, ?_, ?_⟩ <;> dsimp only <;>
    (repeat' first | decide +kernel | exact inv_st _ (by decide +kernel) (by decide +kernel) | refine And.intro ?_ ?_ | refine Dev.BeadLive.mk ?_ ?_)

theorem test_witness_BeadShiftsAndQueues :
    (let s : State := st b0; let n : Isl := 1; let e : Fin 8 := 3; let d : Dev := s.hw; let h : BeadH := d.bead n.val e.val;
      let st : Nat := BEAD_STAT n.val e.val;
      s.Inv ∧ d.BeadLive n e ∧ h.shift = false ∧ h.half = false ∧ d.b st BEAD_STAT_CRC_ON = false) ∧
    (let s : State := st (hb b0 h0); let n : Isl := 1; let e : Fin 8 := 3; let d : Dev := s.hw; let h : BeadH := d.bead n.val e.val;
      let st : Nat := BEAD_STAT n.val e.val; let w : Word := 7; let ws : List Word := [wd 8];
      s.Inv ∧ d.BeadLive n e ∧ h.tx = w :: ws ∧ d.txCap n.val e.val ≠ 0 ∧ d.b st BEAD_STAT_WAITING = false) ∧
    (let s : State := st b0; let n : Isl := 1; let e : Fin 8 := 3; let d : Dev := s.hw; let h : BeadH := d.bead n.val e.val;
      s.Inv ∧ d.BeadLive n e ∧ h.tx = [] ∧ d.txCap n.val e.val ≠ 0) ∧
    (let s : State := st b0; let n : Isl := 1; let e : Fin 8 := 3; let d : Dev := s.hw; let h : BeadH := d.bead n.val e.val;
      s.Inv ∧ d.BeadLive n e ∧ d.b (BEAD_CTL n.val e.val) BEAD_CTL_RXDST = false ∧ h.rx.length < 12 - d.txCap n.val e.val) ∧
    (let s : State := st b0; let n : Isl := 1; let e : Fin 8 := 3; let d : Dev := s.hw;
      s.Inv ∧ d.BeadLive n e) ∧
    (let s : State := st b0; let n : Isl := 1; let e : Fin 8 := 3; let d : Dev := s.hw;
      s.Inv ∧ d.BeadLive n e) ∧
    (let s : State := st on; let n : Isl := 1; let e : Fin 8 := 0; let d : Dev := s.hw; let q : Req := 8;
      s.Inv ∧ d.accessErr (q.val) (BEAD_TXQ n.val e.val) 4 true = BErr.none) ∧
    (let s : State := st (hb b0 h0); let n : Isl := 1; let e : Fin 8 := 3; let d : Dev := s.hw; let h : BeadH := d.bead n.val e.val;
      let q : Req := 8; let v : Word := 3; let t : Nat := 55; let rest : List (Word × Nat) := [];
      s.Inv ∧ d.accessErr (q.val) (BEAD_RXQ n.val e.val) 4 false = BErr.none ∧ h.rx = (v, t) :: rest) ∧
    (let s : State := st on; let n : Isl := 1; let e : Fin 8 := 0; let d : Dev := s.hw; let h : BeadH := d.bead n.val e.val; let q : Req := 8;
      s.Inv ∧ d.accessErr (q.val) (BEAD_RXQ n.val e.val) 4 false = BErr.none ∧ h.rx = []) ∧
    (let s : State := st on; let n : Isl := 1; let e : Fin 8 := 0; let d : Dev := s.hw; let q : Req := 8;
      s.Inv ∧ d.accessErr (q.val) (BEAD_CMD n.val e.val) 4 true = BErr.none) := by
  refine ⟨?_, ?_, ?_, ?_, ?_, ?_, ?_, ?_, ?_, ?_⟩ <;> dsimp only <;>
    (repeat' first | decide +kernel | exact inv_st _ (by decide +kernel) (by decide +kernel) | refine And.intro ?_ ?_ | refine Dev.BeadLive.mk ?_ ?_)

theorem test_witness_BeadControl :
    (let s : State := st on; let n : Isl := 1; let e : Fin 8 := 0; let q : Req := 8; let d : Dev := s.hw; let h : BeadH := d.bead n.val e.val;
      let ctl : Nat := BEAD_CTL n.val e.val;
      s.Inv ∧ d.accessErr (q.val) ctl 4 true = BErr.none ∧ d.beadStopped n.val e.val = true ∧ h.shift = false) ∧
    (let s : State := st b0; let n : Isl := 1; let e : Fin 8 := 3; let q : Req := 8; let d : Dev := s.hw; let ctl : Nat := BEAD_CTL n.val e.val;
      s.Inv ∧ d.accessErr (q.val) ctl 4 true = BErr.none ∧ d.beadStopped n.val e.val = false) ∧
    (let s : State := st on; let n : Isl := 1; let e : Fin 8 := 0; let d : Dev := s.hw; let h : BeadH := d.bead n.val e.val;
      s.Inv ∧ d.ticking = true ∧ d.beadStopped n.val e.val = true ∧ h.shift = false ∧ d.pendOf (inKey (n.val) (88 + 2 * e.val)) = []) ∧
    (let s : State := st (cap (hb b0 { h0 with stop := some 99000}) 4); let n : Isl := 1; let e : Fin 8 := 3; let d : Dev := s.hw;
      let h : BeadH := d.bead n.val e.val; let t : Nat := 99000;
      s.Inv ∧ h.stop = some t ∧ t < d.beam ∧ h.half = false ∧ d.beadStopped n.val e.val = false) ∧
    (let s : State := st on; let n : Isl := 1; let e : Fin 8 := 0; let q : Req := 8; let d : Dev := s.hw;
      s.Inv ∧ d.accessErr (q.val) (BEAD_CMD n.val e.val) 4 true = BErr.none ∧ d.beadStopped n.val e.val = true) ∧
    (let s : State := st ((cap (hb b0 { h0 with wwin := true}) 4).wf (BEAD_CTL n e) BEAD_CTL_WSYNC 1); let n : Isl := 1; let e : Fin 8 := 3;
      let d : Dev := s.hw; let h : BeadH := d.bead n.val e.val; let ctl : Nat := BEAD_CTL n.val e.val;
      s.Inv ∧ d.ticking = true ∧ d.pendOf (inKey (n.val) (89 + 2 * e.val)) = [] ∧ h.wwin = true ∧ d.b ctl BEAD_CTL_WSYNC = true) ∧
    (let s : State := st on; let n : Isl := 1; let e : Fin 8 := 0; let d : Dev := s.hw; let h : BeadH := d.bead n.val e.val;
      s.Inv ∧ d.ticking = true ∧ d.pendOf (inKey (n.val) (89 + 2 * e.val)) = [] ∧ h.wwin = false) := by
  refine ⟨?_, ?_, ?_, ?_, ?_, ?_, ?_⟩ <;> dsimp only <;>
    (repeat' first | decide +kernel | exact inv_st _ (by decide +kernel) (by decide +kernel) | refine And.intro ?_ ?_)

end Beads

namespace Beam


theorem test_witness_BeamFindings :
    (let s : State := st { State.reset.hw with power := { resetHeld := false } }; let d : Dev := s.hw;
      let on : Fld → Bool := fun (f : Fld) => d.b BEAM_STATUS f;
      s.Inv ∧ on BEAM_STATUS_PLL_LOCK = false ∧ d.lost = false ∧ d.power.resetHeld = false) ∧
    (let s : State := st on; let d : Dev := s.hw; let on : Fld → Bool := fun (f : Fld) => d.b BEAM_STATUS f;
      s.Inv ∧ d.ticking = true ∧ on BEAM_STATUS_SOLE_B = false ∧ d.power.plausB = true) ∧
    (let s : State := st on; let d : Dev := s.hw; let on : Fld → Bool := fun (f : Fld) => d.b BEAM_STATUS f; let byOne : Bool := false;
      let stalled : Bool := false;
      s.Inv ∧ d.ticking = true ∧ on BEAM_STATUS_SOLE_B = false ∧ ¬(d.power.plausB = true ∧ byOne = true ∧ stalled = false)) ∧
    (let s : State := st on; let d : Dev := s.hw; let on : Fld → Bool := fun (f : Fld) => d.b BEAM_STATUS f; let a : Fin 1024 := 0;
      let b : Fin 1024 := 0;
      let good : Fin 1024 → Bool := fun (x : Fin 1024) => decide (d.f BEAM_RING_LIM BEAM_RING_LIM_MIN ≤ ↑x ∧
        ↑x ≤ d.f BEAM_RING_LIM BEAM_RING_LIM_MAX);
      s.Inv ∧ d.lost = false ∧ on BEAM_STATUS_PLL_LOCK = true ∧ ((if on BEAM_STATUS_SOLE_B = true then good b else good a) = true)) ∧
    (let s : State := st on; let d : Dev := s.hw; let on : Fld → Bool := fun (f : Fld) => d.b BEAM_STATUS f; let a : Fin 1024 := 1;
      let b : Fin 1024 := 0;
      let good : Fin 1024 → Bool := fun (x : Fin 1024) => decide (d.f BEAM_RING_LIM BEAM_RING_LIM_MIN ≤ ↑x ∧
        ↑x ≤ d.f BEAM_RING_LIM BEAM_RING_LIM_MAX);
      s.Inv ∧ d.lost = false ∧ on BEAM_STATUS_PLL_LOCK = true ∧ ((if on BEAM_STATUS_SOLE_B = true then good b else good a) = false)) ∧
    (let s : State := st on; let d : Dev := s.hw; let on : Fld → Bool := fun (f : Fld) => d.b BEAM_STATUS f;
      s.Inv ∧ d.lost = false ∧ on BEAM_STATUS_PLL_LOCK = true) := by
  refine ⟨?_, ?_, ?_, ?_, ?_, ?_⟩ <;> dsimp only <;>
    (repeat' first | decide +kernel | exact inv_st _ (by decide +kernel) (by decide +kernel) | refine And.intro ?_ ?_)

theorem test_witness_BeamReads :
    (let s : State := st on; let q : Req := 0; let d : Dev := s.hw;
      s.Inv ∧ d.accessErr (q.val) BEAM_COUNT_LO 4 false = BErr.none) ∧
    (let s : State := st on; let q : Req := 0; let d : Dev := s.hw;
      s.Inv ∧ d.accessErr (q.val) BEAM_SWITCH_LO 4 false = BErr.none) ∧
    (let s : State := st on; let q : Req := 0; let d : Dev := s.hw;
      s.Inv ∧ d.accessErr (q.val) BEAM_TT_LO 4 false = BErr.none) ∧
    (let s : State := st on; let q : Req := 8; let d : Dev := s.hw;
      s.Inv ∧ d.accessErr (q.val) BEAM_TT_OFS_LO 4 true = BErr.none) ∧
    (let s : State := st on; let q : Req := 8; let d : Dev := s.hw;
      s.Inv ∧ d.accessErr (q.val) BEAM_TT_OFS_HI 4 true = BErr.none) := by
  refine ⟨?_, ?_, ?_, ?_, ?_⟩ <;> dsimp only <;>
    (repeat' first | decide +kernel | exact inv_st _ (by decide +kernel) (by decide +kernel) | refine And.intro ?_ ?_)

end Beam

namespace Tally

def w (n : Nat) : Word := BitVec.ofNat 32 n
def n : Isl := 1
def t : Fin 16 := 4
def T := TLY_CTL n t
def b0 : Dev := on.w (TLY_RELOAD n t) (w 100)
def run (d : Dev) (c : Nat) : Dev := ((d.wf T TLY_CTL_RUN 1).w (TLY_COUNT n t) (w c)).setTimer n t { next := 100003, startAt := some 99000 }
def cmpall (d : Dev) (k : Nat) : Dev := (List.range 4).foldl (fun d j => d.w (TLY_CMP n t j) (w (k + j))) d
def goo (d : Dev) (g : GoH) : Dev := { (d.wf TLY_GO_STATUS TLY_GO_STATUS_PENDING 1) with go := some g }
def pick : Nat := 2 ^ (16 * 1 + 4)

theorem test_witness_TallyTimers :
    (let s : State := st b0; let n : Isl := 1; let t : Fin 16 := 4; let q : Req := 1; let d : Dev := s.hw; let h : TimerH := d.timer n.val t.val;
      let on : Bool := d.b (TLY_CTL n.val t.val) TLY_CTL_RUN;
      let open_ : Bool := decide (on = false ∧ h.stopAt ≠ some d.beam ∧ h.resetAt ≠ some d.beam);
      s.Inv ∧ s.hw.LoneTimer n t ∧ d.accessErr (q.val) (TLY_CTL n.val t.val) 4 true = BErr.none ∧ open_ = true) ∧
    (let s : State := st (run b0 5); let n : Isl := 1; let t : Fin 16 := 4; let d : Dev := s.hw;
      let on : Bool := d.b (TLY_CTL n.val t.val) TLY_CTL_RUN; let nonzero : Prop := ∀ (k : Nat), k < 4 → d.compare (n.val) (t.val) k ≠ 0;
      s.Inv ∧ s.hw.LoneTimer n t ∧ d.ticking = true ∧ on = true ∧ nonzero) ∧
    (let s : State := st (cmpall (run b0 5) 3); let n : Isl := 1; let t : Fin 16 := 4; let d : Dev := s.hw;
      let on : Bool := d.b (TLY_CTL n.val t.val) TLY_CTL_RUN; let k : Fin 4 := 2;
      s.Inv ∧ s.hw.LoneTimer n t ∧ d.ticking = true ∧ on = true ∧ d.compare n.val t.val k.val = d.count n.val t.val ∧
          d.compare n.val t.val k.val ≤ BitVec.toNat (d.r (TLY_RELOAD n.val t.val))) ∧
    (let s : State := st b0; let n : Isl := 1; let t : Fin 16 := 4; let d : Dev := s.hw; let k : Fin 2 := 0;
      let act : Nat := d.f (TLY_ACT n.val t.val) (if k = 0 then TLY_ACT_CM0_ACT else TLY_ACT_CM1_ACT);
      s.Inv ∧ s.hw.LoneTimer n t ∧ d.ticking = true ∧ (d.b (TLY_ACT n.val t.val) (if k = 0 then TLY_ACT_CM0_TGT else TLY_ACT_CM1_TGT) = false) ∧
          act = 0) ∧
    (let s : State := st (b0.w (TLY_ACT n t) 0x11111111); let n : Isl := 1; let t : Fin 16 := 4; let d : Dev := s.hw;
      let on : Bool := d.b (TLY_CTL n.val t.val) TLY_CTL_RUN; let k : Fin 2 := 0;
      let act : Nat := d.f (TLY_ACT n.val t.val) (if k = 0 then TLY_ACT_CM0_ACT else TLY_ACT_CM1_ACT);
      s.Inv ∧ s.hw.LoneTimer n t ∧ d.ticking = true ∧ (d.b (TLY_ACT n.val t.val) (if k = 0 then TLY_ACT_CM0_TGT else TLY_ACT_CM1_TGT) = false) ∧
          act = 1 ∧ on = false) ∧
    (let s : State := st ((run b0 5).w (TLY_ACT n t) 0x11111111); let n : Isl := 1; let t : Fin 16 := 4; let d : Dev := s.hw;
      let h : TimerH := d.timer n.val t.val; let on : Bool := d.b (TLY_CTL n.val t.val) TLY_CTL_RUN;
      let nonzero : Prop := ∀ (k : Nat), k < 4 → d.compare (n.val) (t.val) k ≠ 0; let k : Fin 2 := 0;
      let act : Nat := d.f (TLY_ACT n.val t.val) (if k = 0 then TLY_ACT_CM0_ACT else TLY_ACT_CM1_ACT);
      s.Inv ∧ s.hw.LoneTimer n t ∧ d.ticking = true ∧ (d.b (TLY_ACT n.val t.val) (if k = 0 then TLY_ACT_CM0_TGT else TLY_ACT_CM1_TGT) = false) ∧
          act = 1 ∧ on = true ∧ h.endAt ≠ some d.beam ∧ nonzero) ∧
    (let s : State := st (b0.w (TLY_ACT n t) 0x22222222); let n : Isl := 1; let t : Fin 16 := 4; let d : Dev := s.hw;
      let h : TimerH := d.timer n.val t.val; let on : Bool := d.b (TLY_CTL n.val t.val) TLY_CTL_RUN;
      let open_ : Bool := decide (on = false ∧ h.stopAt ≠ some d.beam ∧ h.resetAt ≠ some d.beam); let k : Fin 2 := 0;
      let act : Nat := d.f (TLY_ACT n.val t.val) (if k = 0 then TLY_ACT_CM0_ACT else TLY_ACT_CM1_ACT);
      s.Inv ∧ s.hw.LoneTimer n t ∧ d.ticking = true ∧ (d.b (TLY_ACT n.val t.val) (if k = 0 then TLY_ACT_CM0_TGT else TLY_ACT_CM1_TGT) = false) ∧
          act = 2 ∧ open_ = true) ∧
    (let s : State := st b0; let n : Isl := 1; let t : Fin 16 := 4; let d : Dev := s.hw; let h : TimerH := d.timer n.val t.val;
      let on : Bool := d.b (TLY_CTL n.val t.val) TLY_CTL_RUN;
      let open_ : Bool := decide (on = false ∧ h.stopAt ≠ some d.beam ∧ h.resetAt ≠ some d.beam); let m : Fin 3 := 0;
      s.Inv ∧ s.hw.LoneTimer n t ∧ d.ticking = true ∧ d.pendOf (inKey (n.val) (4 * t.val + m.val)) = [] ∧ m = 0 ∧ open_ = true) ∧
    (let s : State := st b0; let n : Isl := 1; let t : Fin 16 := 4; let d : Dev := s.hw; let m : Fin 3 := 1;
      s.Inv ∧ s.hw.LoneTimer n t ∧ d.ticking = true ∧ d.pendOf (inKey (n.val) (4 * t.val + m.val)) = [] ∧ m = 1) ∧
    (let s : State := st (run b0 5); let n : Isl := 1; let t : Fin 16 := 4; let d : Dev := s.hw; let h : TimerH := d.timer n.val t.val;
      let on : Bool := d.b (TLY_CTL n.val t.val) TLY_CTL_RUN; let nonzero : Prop := ∀ (k : Nat), k < 4 → d.compare (n.val) (t.val) k ≠ 0;
      let m : Fin 3 := 2;
      s.Inv ∧ s.hw.LoneTimer n t ∧ d.ticking = true ∧ d.pendOf (inKey (n.val) (4 * t.val + m.val)) = [] ∧ m = 2 ∧ on = true ∧ h.endAt ≠ some d.beam ∧
          nonzero) ∧
    (let s : State := st b0; let n : Isl := 1; let t : Fin 16 := 4; let q : Req := 1; let d : Dev := s.hw;
      s.Inv ∧ s.hw.LoneTimer n t ∧ d.accessErr (q.val) (TLY_RELOAD n.val t.val) 4 true = BErr.none ∧
          d.b (TLY_CTL n.val t.val) TLY_CTL_RELOAD_IMM = false) ∧
    (let s : State := st (b0.wf T TLY_CTL_RELOAD_IMM 1); let n : Isl := 1; let t : Fin 16 := 4; let q : Req := 1; let d : Dev := s.hw;
      let h : TimerH := d.timer n.val t.val; let on : Bool := d.b (TLY_CTL n.val t.val) TLY_CTL_RUN; let v : Word := 0;
      s.Inv ∧ s.hw.LoneTimer n t ∧ d.accessErr (q.val) (TLY_RELOAD n.val t.val) 4 true = BErr.none ∧
          d.b (TLY_CTL n.val t.val) TLY_CTL_RELOAD_IMM = true ∧ (on = false ∨ d.beam < h.next ∧ d.count n.val t.val ≤ BitVec.toNat v)) ∧
    (let s : State := st ((run b0 5).wf T TLY_CTL_RELOAD_IMM 1); let n : Isl := 1; let t : Fin 16 := 4; let q : Req := 1; let d : Dev := s.hw;
      let h : TimerH := d.timer n.val t.val; let on : Bool := d.b (TLY_CTL n.val t.val) TLY_CTL_RUN; let v : Word := 0;
      s.Inv ∧ s.hw.LoneTimer n t ∧ d.accessErr (q.val) (TLY_RELOAD n.val t.val) 4 true = BErr.none ∧
          d.b (TLY_CTL n.val t.val) TLY_CTL_RELOAD_IMM = true ∧ on = true ∧ d.beam < h.next ∧ BitVec.toNat v < d.count n.val t.val) ∧
    (let s : State := st (cmpall (run b0 200) 40); let n : Isl := 1; let t : Fin 16 := 4; let d : Dev := s.hw;
      let on : Bool := d.b (TLY_CTL n.val t.val) TLY_CTL_RUN; let nonzero : Prop := ∀ (k : Nat), k < 4 → d.compare (n.val) (t.val) k ≠ 0;
      s.Inv ∧ s.hw.LoneTimer n t ∧ d.ticking = true ∧ on = true ∧ BitVec.toNat (d.r (TLY_RELOAD n.val t.val)) < d.count n.val t.val ∧ nonzero) ∧
    (let s : State := st b0; let n : Isl := 1; let t : Fin 16 := 4; let q : Req := 0; let d : Dev := s.hw;
      let on : Bool := d.b (TLY_CTL n.val t.val) TLY_CTL_RUN; let j : Fin 8 := 2;
      s.Inv ∧ s.hw.LoneTimer n t ∧ t.val = 2 * j.val ∧ d.accessErr (q.val) (TLY_COUNT n.val t.val) 4 false = BErr.none ∧ on = false) := by
  refine ⟨?_, ?_, ?_, ?_, ?_, ?_, ?_, ?_, ?_, ?_, ?_, ?_, ?_, ?_, ?_⟩ <;> dsimp only <;>
    (repeat' first | decide +kernel | exact inv_st _ (by decide +kernel) (by decide +kernel) | refine And.intro ?_ ?_ | refine Dev.LoneTimer.mk ?_ ?_ ?_ ?_ ?_ ?_ ?_ ?_ ?_ ?_ ?_ ?_)

theorem test_witness_TallyGo :
    (let s : State := st ((b0.w TLY_GO_AT_LO (w 100007)).w TLY_GO0 (w 5)); let q : Req := 0; let d : Dev := s.hw;
      s.Inv ∧ d.accessErr (q.val) TLY_GO_CMD 4 true = BErr.none ∧ d.b TLY_GO_STATUS TLY_GO_STATUS_PENDING = false) ∧
    (let s : State := st (goo b0 ⟨1,100000,pick,0⟩); let q : Req := 0; let d : Dev := s.hw;
      s.Inv ∧ d.accessErr (q.val) TLY_GO_CMD 4 true = BErr.none ∧ d.b TLY_GO_STATUS TLY_GO_STATUS_PENDING = true) ∧
    (let s : State := st (goo b0 ⟨1,100000,pick,1⟩); let d : Dev := s.hw; let g : GoH := ⟨1,100000,pick,1⟩; let n : Fin 6 := 1; let t : Fin 16 := 4;
      let h : TimerH := d.timer n.val t.val;
      s.Inv ∧ d.ticking = true ∧ d.go = some g ∧ g.tick ≤ d.beam ∧ d.goTimers g.sel = [(n, t)] ∧ d.LoneTimer n t ∧ d.mayWrite g.req n.val = true ∧
          g.cmd = 1 ∧ d.b (TLY_CTL n.val t.val) TLY_CTL_RUN = false ∧ h.stopAt ≠ some d.beam ∧ h.resetAt ≠ some d.beam) ∧
    (let s : State := st (goo b0 ⟨2,100000,pick,8⟩); let d : Dev := s.hw; let g : GoH := ⟨2,100000,pick,8⟩; let n : Fin 6 := 1; let t : Fin 16 := 4;
      s.Inv ∧ d.ticking = true ∧ d.go = some g ∧ g.tick ≤ d.beam ∧ d.goTimers g.sel = [(n, t)] ∧ d.LoneTimer n t ∧ d.mayWrite g.req n.val = true ∧
          g.cmd = 2) ∧
    (let s : State := st (goo b0 ⟨1,100000,pick,0⟩); let d : Dev := s.hw; let g : GoH := ⟨1,100000,pick,0⟩; let n : Fin 6 := 1; let t : Fin 16 := 4;
      s.Inv ∧ d.ticking = true ∧ d.go = some g ∧ g.tick ≤ d.beam ∧ d.goTimers g.sel = [(n, t)] ∧ d.LoneTimer n t ∧
          d.mayWrite g.req n.val = false) := by
  refine ⟨?_, ?_, ?_, ?_, ?_⟩ <;> dsimp only <;>
    (repeat' first | decide +kernel | exact inv_st _ (by decide +kernel) (by decide +kernel) | refine And.intro ?_ ?_ | refine Dev.LoneTimer.mk ?_ ?_ ?_ ?_ ?_ ?_ ?_ ?_ ?_ ?_ ?_ ?_)

end Tally

namespace Pwm

def C := PWM_CTL 1 3
def S := PWM_STATUS 1 3
def E := PWM_IRQ_EN 1 3
def run := (on.wf C PWM_CTL_RUN 1).wf C PWM_CTL_EDGE_SEL 15
def free := run.setPair 1 3 { blocked := false, lastB := some 99900 }

theorem test_witness_PwmPairs :
    (let s : State := st (on.wf C PWM_CTL_SYNC 1); let n : Isl := 1; let p : Fin 16 := 3; let q : Req := 8; let d : Dev := s.hw;
      s.Inv ∧ d.accessErr (q.val) (PWM_CTL n.val p.val) 4 true = BErr.none ∧ d.pairRuns n.val p.val = false ∧ d.slave n.val p.val = true) ∧
    (let s : State := st on; let n : Isl := 1; let p : Fin 16 := 3; let q : Req := 8; let d : Dev := s.hw; let h : PairH := d.pair n.val p.val;
      let st : Nat := PWM_STATUS n.val p.val;
      s.Inv ∧ d.accessErr (q.val) (PWM_CTL n.val p.val) 4 true = BErr.none ∧ d.pairRuns n.val p.val = false ∧ d.slave n.val p.val = false ∧
          d.shadow = [] ∧ h.latch = none ∧ d.b st PWM_STATUS_RESUME_PEND = false) ∧
    (let s : State := st free; let n : Isl := 1; let p : Fin 16 := 3; let d : Dev := s.hw; let h : PairH := d.pair n.val p.val;
      let st : Nat := PWM_STATUS n.val p.val;
      s.Inv ∧ d.ticking = true ∧ d.pairRuns n.val p.val = true ∧ d.shadow = [] ∧ h.blocked = false ∧ h.forced = false ∧
          d.b st PWM_STATUS_RESUME_PEND = false) ∧
    (let s : State := st { free with shadow := [⟨PWM_PERIOD 1 3, 0xFFFFFFFF, 77, 10⟩] }; let n : Isl := 1; let p : Fin 16 := 3; let d : Dev := s.hw;
      let h : PairH := d.pair n.val p.val; let x : Shadow := ⟨PWM_PERIOD 1 3, 0xFFFFFFFF, 77, 10⟩;
      s.Inv ∧ d.ticking = true ∧ d.pairRuns n.val p.val = true ∧ d.shadow = [x] ∧ PWM_PERIOD n.val p.val ≤ x.addr ∧ x.addr ≤ PWM_FALL_B n.val p.val ∧
          x.tick < d.beam ∧ h.held = none) ∧
    (let s : State := st ((run.wf S PWM_STATUS_RESUME_PEND 1).w E all1); let n : Isl := 1; let p : Fin 16 := 3; let d : Dev := s.hw;
      let h : PairH := d.pair n.val p.val; let st : Nat := PWM_STATUS n.val p.val;
      s.Inv ∧ d.ticking = true ∧ d.pairRuns n.val p.val = true ∧ d.shadow = [] ∧ d.b st PWM_STATUS_RESUME_PEND = true ∧ h.latch = none ∧
          h.clearAt ≠ some d.beam) ∧
    (let s : State := st ((free.w (PWM_RISE_A 1 3) 0x145).wf S PWM_STATUS_LEVEL_B 1); let n : Isl := 1; let p : Fin 16 := 3; let d : Dev := s.hw;
      let h : PairH := d.pair n.val p.val; let e : Fin 4 := 0;
      s.Inv ∧ d.ticking = true ∧ d.genHeld n.val p.val = false ∧ BitVec.toNat (d.r (PWM_EDGE n.val p.val e.val)) / 64 ≠ 67108863 ∧
          d.independent n.val p.val = false ∧ e = 0 ∧ d.r (PWM_RISE_A n.val p.val) ≠ d.r (PWM_FALL_A n.val p.val) ∧ h.refA = false) ∧
    (let s : State := st (((free.w (PWM_FALL_A 1 3) 0x145).wf S PWM_STATUS_LEVEL_A 1).setPair 1 3 { blocked := false, refA := true });
      let n : Isl := 1; let p : Fin 16 := 3; let d : Dev := s.hw; let h : PairH := d.pair n.val p.val; let e : Fin 4 := 1;
      s.Inv ∧ d.ticking = true ∧ d.genHeld n.val p.val = false ∧ BitVec.toNat (d.r (PWM_EDGE n.val p.val e.val)) / 64 ≠ 67108863 ∧
          d.independent n.val p.val = false ∧ e = 1 ∧ h.refA = true) ∧
    (let s : State := st ((free.wf C PWM_CTL_MODE 1).w (PWM_RISE_B 1 3) 0x145); let n : Isl := 1; let p : Fin 16 := 3; let d : Dev := s.hw;
      let h : PairH := d.pair n.val p.val; let lvl : Bool → Bool := fun (o : Bool) => d.pwmLevel (n.val) (p.val) o; let e : Fin 4 := 2;
      s.Inv ∧ d.ticking = true ∧ d.genHeld n.val p.val = false ∧ BitVec.toNat (d.r (PWM_EDGE n.val p.val e.val)) / 64 ≠ 67108863 ∧
          d.independent n.val p.val = true ∧ e = 2 ∧ d.r (PWM_RISE_B n.val p.val) ≠ d.r (PWM_FALL_B n.val p.val) ∧ h.refB = false ∧
          lvl false = false) ∧
    (let s : State := st ((((free.wf C PWM_CTL_MODE 1).w (PWM_FALL_B 1 3) 0x145).wf S PWM_STATUS_LEVEL_B 1).setPair 1 3 { blocked := false, refB := true }); let n : Isl := 1; let p : Fin 16 := 3; let d : Dev := s.hw; let h : PairH := d.pair n.val p.val; let lvl : Bool → Bool := fun (o : Bool) => d.pwmLevel (n.val) (p.val) o; let e : Fin 4 := 3;
      s.Inv ∧ d.ticking = true ∧ d.genHeld n.val p.val = false ∧ BitVec.toNat (d.r (PWM_EDGE n.val p.val e.val)) / 64 ≠ 67108863 ∧
          d.independent n.val p.val = true ∧ e = 3 ∧ h.refB = true ∧ lvl true = true ∧ lvl false = false) ∧
    (let s : State := st (free.setPair 1 3 {blocked := false, refA := true, onA := some (100000*64+5)}); let n : Isl := 1; let p : Fin 16 := 3;
      let d : Dev := s.hw; let h : PairH := d.pair n.val p.val; let t : Nat := 6400005;
      s.Inv ∧ d.ticking = true ∧ d.genHeld n.val p.val = false ∧ d.independent n.val p.val = false ∧ h.onA = some t ∧ h.refA = true) ∧
    (let s : State := st (free.setPair 1 3 {blocked := false, refA := false, onB := some (100000*64+5)}); let n : Isl := 1; let p : Fin 16 := 3;
      let d : Dev := s.hw; let h : PairH := d.pair n.val p.val; let t : Nat := 6400005;
      s.Inv ∧ d.ticking = true ∧ d.genHeld n.val p.val = false ∧ d.independent n.val p.val = false ∧ h.onB = some t ∧ h.refA = false) ∧
    (let s : State := st ((free.wf C PWM_CTL_MODE 1).setPair 1 3 {blocked := false, refA := true, refB := true, wantA := true, wantB := true, onA := some (100000*64+5), onB := some (100000*64+5)}); let n : Isl := 1; let p : Fin 16 := 3; let d : Dev := s.hw; let h : PairH := d.pair n.val p.val; let lvl : Bool → Bool := fun (o : Bool) => d.pwmLevel (n.val) (p.val) o; let t : Nat := 6400005;
      s.Inv ∧ d.ticking = true ∧ d.genHeld n.val p.val = false ∧ d.independent n.val p.val = true ∧ h.onA = some t ∧ h.onB = some t ∧ h.refA = true ∧
          h.refB = true ∧ h.wantA = true ∧ h.wantB = true ∧ lvl false = false ∧ lvl true = false) ∧
    (let s : State := st ((free.w (PWM_TRG 1 3 2) 100)); let n : Isl := 1; let p : Fin 16 := 3; let d : Dev := s.hw; let k : Fin 4 := 2;
      s.Inv ∧ d.ticking = true ∧ d.pairRuns n.val p.val = true ∧ d.r (PWM_TRG n.val p.val k.val) ≠ 4294967295) ∧
    (let s : State := st { ((free.w E all1).setPair 1 3 { held := some (false, 99000)}) with shadow := [⟨PWM_PERIOD 1 3, 0xFFFFFFFF, 77, 10⟩, ⟨PWM_RISE_A 1 3, 0xFFFFFFFF, 77, 10⟩] }; let n : Isl := 1; let p : Fin 16 := 3; let d : Dev := s.hw; let h : PairH := d.pair n.val p.val; let g : Bool := false; let e : Nat := 99000;
      s.Inv ∧ h.held = some (g, e) ∧ e < d.beam) := by
  refine ⟨?_, ?_, ?_, ?_, ?_, ?_, ?_, ?_, ?_, ?_, ?_, ?_, ?_, ?_⟩ <;> dsimp only <;>
    (repeat' first | decide +kernel | exact inv_st _ (by decide +kernel) (by decide +kernel) | refine And.intro ?_ ?_)

end Pwm

namespace Trips

def C := PWM_CTL 1 3
def run := ((on.wf C PWM_CTL_RUN 1).wf C PWM_CTL_PIN_EN_A 1).wf (PWM_TRIP_MASK 1 3) PWM_TRIP_MASK_MASK 0x20000C
def free := run.setPair 1 3 { blocked := false, lastB := some 99900 }
def bl (d : Dev) (l : Nat) := (d.wf (PWM_TLINE 1 l) PWM_TLINE_BLANK_EN 1).setLine 1 l { since := some 90000 }

theorem test_witness_PwmTrips :
    (let s : State := st on; let n : Isl := 1; let d : Dev := s.hw; let l : Fin 24 := 0;
      s.Inv ∧ d.blanked n.val l.val = false) ∧
    (let s : State := st (bl free 2); let n : Isl := 1; let d : Dev := s.hw; let l : Fin 24 := 2;
      s.Inv ∧ d.blanked n.val l.val = true ∧ l < 20) ∧
    (let s : State := st (bl free 2); let n : Isl := 1; let d : Dev := s.hw; let l : Fin 24 := 2; let t : Nat := 90000;
      s.Inv ∧ (d.line n.val l.val).since = some t ∧ t + 4096 ≤ d.beam ∧ d.blanked n.val l.val = true) ∧
    (let s : State := st (free.setPair 1 3 { latch := some (90000,3), blocked := false }); let n : Isl := 1; let d : Dev := s.hw;
      let p : Fin 16 := 3; let t : Nat := 90000; let l : Fin 24 := 3;
      s.Inv ∧ (d.pair n.val p.val).latch = some (t, l.val) ∧ d.b (PWM_STATUS n.val p.val) PWM_STATUS_TRIP = false) ∧
    (let s : State := st on; let n : Isl := 1; let q : Req := 8; let d : Dev := s.hw;
      s.Inv ∧ d.accessErr (q.val) (PWM_TRIP_CLR n.val) 4 true = BErr.none) ∧
    (let s : State := st on; let n : Isl := 1; let q : Req := 8; let d : Dev := s.hw; let p : Fin 16 := 3;
      s.Inv ∧ d.accessErr (q.val) (PWM_TRIP_TS_LO n.val p.val) 4 false = BErr.none) := by
  refine ⟨?_, ?_, ?_, ?_, ?_, ?_⟩ <;> dsimp only <;>
    (repeat' first | decide +kernel | exact inv_st _ (by decide +kernel) (by decide +kernel) | refine And.intro ?_ ?_)

end Trips

namespace Analog

def adc (d : Dev) (c : Nat) := ((d.wf (ACH_MODE 1 c) ACH_MODE_MODE achAdc).wf (ACH_CFG 1 c) ACH_CFG_GROUP 1).w (ACH_CAL 1 c) 0x80000010
def acq (d : Dev) (c : Nat) (r : Bool) := d.setChan 1 c {acq := some 99000, busyEnd := 99050, retry := r}
def pl (d : Dev) := (d.wf (ACH_PLAUS 1 2) ACH_PLAUS_EN 1).wf (ACH_PLAUS 1 2) ACH_PLAUS_TOL 200
def two := acq (acq (adc (adc on 2) 3) 2 true) 3 true

theorem test_witness_AnalogResults :
    (let s : State := st on; let n : Isl := 1; let q : Req := 8; let d : Dev := s.hw; let c : Fin 16 := 2;
      s.Inv ∧ d.accessErr (q.val) (ACH_MODE n.val c.val) 4 true = BErr.none) ∧
    (let s : State := st on; let d : Dev := s.hw;
      s.Inv ∧ d.ticking = true) ∧
    (let s : State := st on; let n : Isl := 1; let q : Req := 8; let d : Dev := s.hw;
      s.Inv ∧ d.accessErr (q.val) (ACH_SWTRIG n.val) 4 true = BErr.none ∧ ((d.sset n.val).sw = 0 ∨ (d.sset n.val).swAt = d.beam)) ∧
    (let s : State := st (acq (adc on 2) 2 false); let n : Isl := 1; let d : Dev := s.hw; let c : Fin 16 := 2; let t : Nat := 99000;
      s.Inv ∧ d.achMode n.val c.val = achAdc ∧ (d.chan n.val c.val).acq = some t ∧ t + d.acqTicks n.val c.val ≤ d.beam ∧
          d.b (ACH_PLAUS (n.val) (c.val - c.val % 2)) ACH_PLAUS_EN = false ∧ (d.sset n.val).opened = false) ∧
    (let s : State := st (((acq (adc on 2) 2 false).setSset 1 {opened := true, at_ := 3}).wf (ACH_SET_STATUS 1) ACH_SET_STATUS_WAITING 4);
      let n : Isl := 1; let d : Dev := s.hw; let c : Fin 16 := 2; let t : Nat := 99000;
      s.Inv ∧ d.achMode n.val c.val = achAdc ∧ (d.chan n.val c.val).acq = some t ∧ t + d.acqTicks n.val c.val ≤ d.beam ∧
          d.b (ACH_PLAUS (n.val) (c.val - c.val % 2)) ACH_PLAUS_EN = false ∧ (d.sset n.val).opened = true ∧ d.waiting n.val = 2 ^ c.val ∧
          (d.sset n.val).at_ ≤ t + d.acqTicks n.val c.val ∧ d.wrapsNow (n.val) (d.f (ACH_SET_CTL n.val) ACH_SET_CTL_SET_TMR) = false) ∧
    (let s : State := st (pl two); let n : Isl := 1; let d : Dev := s.hw; let c : Fin 16 := 2; let o : Fin 16 := 3; let t : Nat := 99000;
      let ts : Nat := t + d.acqTicks n.val c.val;
      let twin : Bool := decide (d.achMode n.val o.val = achAdc ∧ ∃ (u : Nat), (d.chan n.val o.val).acq = some u ∧ u + d.acqTicks n.val o.val = ts);
      s.Inv ∧ (o.val = if c.val % 2 = 0 then c.val + 1 else c.val - 1) ∧ d.achMode n.val c.val = achAdc ∧ (d.chan n.val c.val).acq = some t ∧
          t + d.acqTicks n.val c.val ≤ d.beam ∧ d.b (ACH_PLAUS (n.val) (c.val - c.val % 2)) ACH_PLAUS_EN = true ∧ (d.chan n.val o.val).first = none ∧
          twin = true) ∧
    (let s : State := st ((pl two).setChan 1 3 {acq := some 99001}); let n : Isl := 1; let d : Dev := s.hw; let c : Fin 16 := 2; let o : Fin 16 := 3;
      let t : Nat := 99000; let ts : Nat := t + d.acqTicks n.val c.val;
      let twin : Bool := decide (d.achMode n.val o.val = achAdc ∧ ∃ (u : Nat), (d.chan n.val o.val).acq = some u ∧ u + d.acqTicks n.val o.val = ts);
      s.Inv ∧ (o.val = if c.val % 2 = 0 then c.val + 1 else c.val - 1) ∧ d.achMode n.val c.val = achAdc ∧ (d.chan n.val c.val).acq = some t ∧
          t + d.acqTicks n.val c.val ≤ d.beam ∧ d.b (ACH_PLAUS (n.val) (c.val - c.val % 2)) ACH_PLAUS_EN = true ∧ (d.chan n.val o.val).first = none ∧
          twin = false ∧ (d.sset n.val).opened = false) ∧
    (let s : State := st ((two.w (ACH_CAL 1 2) 0x70000010).setChan 1 2 { acq := some 99000, settle := some 98999, retry := true}); let n : Isl := 1;
      let d : Dev := s.hw;
      let code : Nat → Nat → Int := fun (c raw : Nat) => roundAway ((↑raw - sext 16 (d.f (ACH_CAL (n.val) c) ACH_CAL_OFS)) * ↑(d.f (ACH_CAL (n.val) c) ACH_CAL_GAIN)) 32768; let m : Fin 8 := 1; let e : Fin 16 := 2; let o : Fin 16 := 3; let a : Fin 65536 := 0; let b : Fin 65536 := 0; let t : Nat := 99000; let x : Int := clampInt 0 65535 (code e.val a.val); let y : Int := clampInt 0 65535 (code o.val b.val); let diff : Int := if d.b (ACH_PLAUS n.val e.val) ACH_PLAUS_PMODE = true then x + y - 65536 else x - y;
      s.Inv ∧ e.val = 2 * m.val ∧ o.val = 2 * m.val + 1 ∧ (d.sset n.val).opened = false ∧ (d.chan n.val e.val).retry = true ∧
          (d.chan n.val o.val).retry = true ∧ (d.chan n.val e.val).acq = some t ∧ t + d.acqTicks n.val e.val ≤ d.beam ∧
          diff.natAbs ≤ d.f (ACH_PLAUS n.val e.val) ACH_PLAUS_TOL) ∧
    (let s : State := st ((two.w (ACH_CAL 1 2) 0x70000010).setChan 1 2 { acq := some 99000, settle := some 98999, retry := true}); let n : Isl := 1;
      let d : Dev := s.hw;
      let code : Nat → Nat → Int := fun (c raw : Nat) => roundAway ((↑raw - sext 16 (d.f (ACH_CAL (n.val) c) ACH_CAL_OFS)) * ↑(d.f (ACH_CAL (n.val) c) ACH_CAL_GAIN)) 32768; let m : Fin 8 := 1; let e : Fin 16 := 2; let o : Fin 16 := 3; let a : Fin 65536 := 0; let b : Fin 65536 := 100; let t : Nat := 99000; let x : Int := clampInt 0 65535 (code e.val a.val); let y : Int := clampInt 0 65535 (code o.val b.val); let diff : Int := if d.b (ACH_PLAUS n.val e.val) ACH_PLAUS_PMODE = true then x + y - 65536 else x - y;
      s.Inv ∧ e.val = 2 * m.val ∧ o.val = 2 * m.val + 1 ∧ (d.sset n.val).opened = false ∧ (d.chan n.val e.val).retry = true ∧
          (d.chan n.val o.val).retry = true ∧ (d.chan n.val e.val).acq = some t ∧ t + d.acqTicks n.val e.val ≤ d.beam ∧
          d.f (ACH_PLAUS n.val e.val) ACH_PLAUS_TOL < diff.natAbs) ∧
    (let s : State := st on; let n : Isl := 1; let q : Req := 8; let d : Dev := s.hw; let e : Fin 28 := 0; let view : Bool := false;
      let a : Nat → Nat := fun (w : Nat) => if view = true then ACH_FRAMEVIEW (n.val) (4 * e.val + w) else ACH_BANK (n.val) (4 * e.val + w);
      s.Inv ∧ d.accessErr (q.val) (a 0) 4 false = BErr.none) := by
  refine ⟨?_, ?_, ?_, ?_, ?_, ?_, ?_, ?_, ?_, ?_⟩ <;> dsimp only <;>
    (repeat' first | decide +kernel | exact inv_st _ (by decide +kernel) (by decide +kernel) | refine And.intro ?_ ?_)

end Analog

namespace Levels

def cp (d : Dev) := d.wf (ACH_MODE 1 2) ACH_MODE_MODE achComp
def cal (k : CalH) := (on.setChan 1 2 {cal := some k}).w (ACH_CAL 1 2) 0x80000000

theorem test_witness_AnalogLevels :
    (let s : State := st (cp (on.setChan 1 2 {settle := some 99000, compHold := true})); let n : Isl := 1; let c : Fin 16 := 2; let d : Dev := s.hw;
      let h : ChanH := d.chan n.val c.val; let t : Nat := 99000; let beyond : Bool := true;
      s.Inv ∧ h.settle = some t ∧ t + 1000 ≤ d.beam ∧ d.achMode n.val c.val = achComp ∧ h.compHold = true ∧ h.cmp = false ∧ beyond = true) ∧
    (let s : State := st (cp (on.setChan 1 2 {settle := some 99000, compHold := true})); let n : Isl := 1; let c : Fin 16 := 2; let d : Dev := s.hw;
      let h : ChanH := d.chan n.val c.val; let t : Nat := 99000; let beyond : Bool := false;
      s.Inv ∧ h.settle = some t ∧ t + 1000 ≤ d.beam ∧ (d.achMode n.val c.val ≠ achComp ∨ beyond = false)) ∧
    (let s : State := st (cp on); let n : Isl := 1; let c : Fin 16 := 2; let d : Dev := s.hw; let h : ChanH := d.chan n.val c.val;
      s.Inv ∧ d.achMode n.val c.val = achComp ∧ h.compHold = false ∧ h.cmp = false) ∧
    (let s : State := st (cp (on.setChan 1 2 {cmp := true})); let n : Isl := 1; let c : Fin 16 := 2; let d : Dev := s.hw;
      let h : ChanH := d.chan n.val c.val;
      s.Inv ∧ d.achMode n.val c.val = achComp ∧ h.compHold = false ∧ h.cmp = true) ∧
    (let s : State := st (cp (on.setChan 1 2 {settle := some 99000, compHold := true})); let n : Isl := 1; let c : Fin 16 := 2; let d : Dev := s.hw;
      let h : ChanH := d.chan n.val c.val;
      s.Inv ∧ d.achMode n.val c.val = achComp ∧ h.compHold = true) ∧
    (let s : State := st (cp (on.setChan 1 2 {cmpPend := true})); let n : Isl := 1; let c : Fin 16 := 2; let d : Dev := s.hw;
      let h : ChanH := d.chan n.val c.val;
      s.Inv ∧ d.ticking = true ∧ h.cmpPend = true) ∧
    (let s : State := st ((cp on).wf (ACH_CAL_CTL 1) ACH_CAL_CTL_EN 1); let n : Isl := 1; let d : Dev := s.hw;
      s.Inv ∧ d.b (ACH_CAL_CTL n.val) ACH_CAL_CTL_EN = true) ∧
    (let s : State := st (cal {}); let n : Isl := 1; let c : Fin 16 := 2; let d : Dev := s.hw; let h : ChanH := d.chan n.val c.val;
      let k : CalH := {};
      s.Inv ∧ h.cal = some k ∧ (d.achMode n.val c.val = achOff ∨ d.achMode n.val c.val = achAdc) ∧ h.busyEnd ≤ d.beam ∧ k.step < 31) ∧
    (let s : State := st (cal {step:=31,sumLo:=65536,sumHi:=61440*15}); let n : Isl := 1; let c : Fin 16 := 2; let d : Dev := s.hw;
      let h : ChanH := d.chan n.val c.val; let k : CalH := {step:=31,sumLo:=65536,sumHi:=61440*15}; let raw : Fin 65536 := 57344;
      let lo : Nat := (k.sumLo + 8) / 16; let hi : Nat := (k.sumHi + raw.val + 8) / 16; let gain : Int := roundAway (57344 * 32768) (↑hi - ↑lo);
      let ofs : Int := ↑lo - roundAway (4096 * 32768) gain;
      let fits : Bool := decide (lo < hi ∧ gain ≤ 65535 ∧ (gain - ↑(d.f (ACH_CAL n.val c.val) ACH_CAL_GAIN)).natAbs ≤ 164 ∧
        (ofs - sext 16 (d.f (ACH_CAL n.val c.val) ACH_CAL_OFS)).natAbs ≤ 64);
      s.Inv ∧ h.cal = some k ∧ (d.achMode n.val c.val = achOff ∨ d.achMode n.val c.val = achAdc) ∧ h.busyEnd ≤ d.beam ∧ k.step = 31 ∧ fits = true ∧
          d.shadow = []) ∧
    (let s : State := st (cal {step:=31,sumLo:=65536,sumHi:=61440*15}); let n : Isl := 1; let c : Fin 16 := 2; let d : Dev := s.hw;
      let h : ChanH := d.chan n.val c.val; let k : CalH := {step:=31,sumLo:=65536,sumHi:=61440*15}; let raw : Fin 65536 := 0;
      let lo : Nat := (k.sumLo + 8) / 16; let hi : Nat := (k.sumHi + raw.val + 8) / 16; let gain : Int := roundAway (57344 * 32768) (↑hi - ↑lo);
      let ofs : Int := ↑lo - roundAway (4096 * 32768) gain;
      let fits : Bool := decide (lo < hi ∧ gain ≤ 65535 ∧ (gain - ↑(d.f (ACH_CAL n.val c.val) ACH_CAL_GAIN)).natAbs ≤ 164 ∧
        (ofs - sext 16 (d.f (ACH_CAL n.val c.val) ACH_CAL_OFS)).natAbs ≤ 64);
      s.Inv ∧ h.cal = some k ∧ (d.achMode n.val c.val = achOff ∨ d.achMode n.val c.val = achAdc) ∧ h.busyEnd ≤ d.beam ∧ k.step = 31 ∧
          fits = false) := by
  refine ⟨?_, ?_, ?_, ?_, ?_, ?_, ?_, ?_, ?_, ?_⟩ <;> dsimp only <;>
    (repeat' first | decide +kernel | exact inv_st _ (by decide +kernel) (by decide +kernel) | refine And.intro ?_ ?_)

end Levels

namespace Sigma

def en (d : Dev) := (d.wf (SDM_CFG 1 2) SDM_CFG_EN 1).wf (SDM_CFG 1 2) SDM_CFG_OSR 16
def oc (d : Dev) := (d.wf (SDM_OC 1 2) SDM_OC_OC_EN 1).w (SDM_IRQ_EN 1 2) all1

theorem test_witness_SigmaDeltaResults :
    (let s : State := st (en on); let n : Isl := 1; let j : Fin 8 := 2; let d : Dev := s.hw;
      s.Inv ∧ d.ticking = true ∧ d.sdmOn n.val j.val = true) ∧
    (let s : State := st ((en on).setSdm 1 2 {closed := some (-70000, 99000)}); let n : Isl := 1; let j : Fin 8 := 2; let d : Dev := s.hw;
      let h : SdmH := d.sdm n.val j.val; let f : Int := -70000; let ts : Nat := 99000;
      s.Inv ∧ h.closed = some (f, ts) ∧ (d.sset n.val).opened = false) ∧
    (let s : State := st (oc (en on)); let n : Isl := 1; let j : Fin 8 := 2; let d : Dev := s.hw;
      s.Inv ∧ d.sdmOn n.val j.val = true ∧ d.b (SDM_OC n.val j.val) SDM_OC_OC_EN = true) ∧
    (let s : State := st (en on); let n : Isl := 1; let j : Fin 8 := 2; let d : Dev := s.hw;
      s.Inv ∧ d.sdmOn n.val j.val = true) ∧
    (let s : State := st (((en on).set1 (SDM_STATUS 1 2) SDM_STATUS_STUCK).setSdm 1 2 {recent:=[true]}); let n : Isl := 1; let j : Fin 8 := 2;
      let d : Dev := s.hw; let st : Nat := SDM_STATUS n.val j.val;
      s.Inv ∧ d.b st SDM_STATUS_STUCK = true) := by
  refine ⟨?_, ?_, ?_, ?_, ?_⟩ <;> dsimp only <;>
    (repeat' first | decide +kernel | exact inv_st _ (by decide +kernel) (by decide +kernel) | refine And.intro ?_ ?_)

end Sigma

namespace Fbk

def en (d : Dev) (src : Nat) := ((d.wf (FBK_CFG 1 1) FBK_CFG_EN 1).wf (FBK_CFG 1 1) FBK_CFG_SRC src).w (FBK_COUNTS_PER_REV 1 1) 100
def kn (d : Dev) (acc : Nat) := d.setFbk 1 1 {known := 63, acc := acc, chg := [(0,5),(1,6),(3,7)], neg := some true, win := [(3,-1)], newest := some 3}

theorem test_witness_FeedbackEdges :
    (let s : State := st (kn (en on 0) 1); let n : Isl := 1; let k : Fin 2 := 1; let d : Dev := s.hw; let h : FbkH := d.fbk n.val k.val;
      let pos : Nat := d.pos n.val k.val; let c : Nat := d.cpr n.val k.val; let lv : BitVec 6 := 0;
      let new : Nat → Bool := fun (i : Nat) => nbit lv.toNat i; let edge : Nat → Bool := fun (i : Nat) => nbit h.acc i != new i;
      s.Inv ∧ d.fbkOn n.val k.val = true ∧ h.known = 63 ∧ pos < c ∧ d.fbkSrc n.val k.val = 0 ∧ edge 2 = false ∧ (edge 0 != edge 1) = true) ∧
    (let s : State := st (kn (en on 0) 1); let n : Isl := 1; let k : Fin 2 := 1; let d : Dev := s.hw; let h : FbkH := d.fbk n.val k.val;
      let pos : Nat := d.pos n.val k.val; let c : Nat := d.cpr n.val k.val; let lv : BitVec 6 := 2;
      let new : Nat → Bool := fun (i : Nat) => nbit lv.toNat i; let edge : Nat → Bool := fun (i : Nat) => nbit h.acc i != new i;
      s.Inv ∧ d.fbkOn n.val k.val = true ∧ h.known = 63 ∧ pos < c ∧ d.fbkSrc n.val k.val = 0 ∧ edge 2 = false ∧ edge 0 = true ∧ edge 1 = true) ∧
    (let s : State := st (kn (en on 1) 0); let n : Isl := 1; let k : Fin 2 := 1; let d : Dev := s.hw; let h : FbkH := d.fbk n.val k.val;
      let pos : Nat := d.pos n.val k.val; let c : Nat := d.cpr n.val k.val; let lv : BitVec 6 := 1;
      let new : Nat → Bool := fun (i : Nat) => nbit lv.toNat i; let edge : Nat → Bool := fun (i : Nat) => nbit h.acc i != new i;
      s.Inv ∧ d.fbkOn n.val k.val = true ∧ h.known = 63 ∧ pos < c ∧ d.fbkSrc n.val k.val = 1 ∧ edge 2 = false ∧ edge 0 = true ∧ new 0 = true) ∧
    (let s : State := st ((kn ((en on 2).w (FBK_POS 1 1) 99) 0).wf (FBK_SPD 1 1) FBK_SPD_SEL 1); let n : Isl := 1; let k : Fin 2 := 1;
      let d : Dev := s.hw; let h : FbkH := d.fbk n.val k.val; let pos : Nat := d.pos n.val k.val; let c : Nat := d.cpr n.val k.val;
      let lv : BitVec 6 := 1; let new : Nat → Bool := fun (i : Nat) => nbit lv.toNat i;
      let edge : Nat → Bool := fun (i : Nat) => nbit h.acc i != new i;
      s.Inv ∧ d.fbkOn n.val k.val = true ∧ h.known = 63 ∧ pos < c ∧ d.fbkSrc n.val k.val = 2 ∧ edge 2 = false ∧ edge 1 = false ∧ edge 0 = true ∧
          new 0 = true) ∧
    (let s : State := st (kn (en on 3) 0x08); let n : Isl := 1; let k : Fin 2 := 1; let d : Dev := s.hw; let h : FbkH := d.fbk n.val k.val;
      let pos : Nat := d.pos n.val k.val; let c : Nat := d.cpr n.val k.val; let lv : BitVec 6 := 0x18;
      let new : Nat → Bool := fun (i : Nat) => nbit lv.toNat i; let edge : Nat → Bool := fun (i : Nat) => nbit h.acc i != new i; let a : Nat := 0;
      let b : Nat := 1;
      s.Inv ∧ d.fbkOn n.val k.val = true ∧ h.known = 63 ∧ pos < c ∧ d.fbkSrc n.val k.val = 3 ∧ edge 2 = false ∧
          hallPlace (nfield h.acc 3 3) = some a ∧ hallPlace (nfield lv.toNat 3 3) = some b ∧ ((b + 6 - a) % 6 = 1 ∨ (b + 6 - a) % 6 = 5)) ∧
    (let s : State := st (kn (en on 0) 1); let n : Isl := 1; let k : Fin 2 := 1; let d : Dev := s.hw; let h : FbkH := d.fbk n.val k.val;
      let st : Nat := FBK_STATUS n.val k.val; let pos : Nat := d.pos n.val k.val; let c : Nat := d.cpr n.val k.val; let lv : BitVec 6 := 5;
      let new : Nat → Bool := fun (i : Nat) => nbit lv.toNat i; let edge : Nat → Bool := fun (i : Nat) => nbit h.acc i != new i;
      s.Inv ∧ d.fbkOn n.val k.val = true ∧ h.known = 63 ∧ pos < c ∧ d.fbkSrc n.val k.val = 0 ∧ edge 0 = false ∧ edge 1 = false ∧ edge 2 = true ∧
          new 2 = true ∧ d.b (FBK_IDX_CTL n.val k.val) FBK_IDX_CTL_QUAL_EN = false ∧ d.b st FBK_STATUS_REF = false) ∧
    (let s : State := st (kn (en on 0) 1); let n : Isl := 1; let k : Fin 2 := 1; let d : Dev := s.hw; let h : FbkH := d.fbk n.val k.val;
      s.Inv ∧ d.fbkOn n.val k.val = true ∧ d.pendOf (inKey (n.val) (80 + k.val)) = [] ∧ (∀ (p : Nat), h.snap = some p → p + 12 ≤ d.beam) ∧
          d.zeroSpeed (n.val) (k.val) d.beam = false ∧ d.fbkSrc n.val k.val ≠ 4) ∧
    (let s : State := st (en on 0); let n : Isl := 1; let k : Fin 2 := 1; let d : Dev := s.hw; let h : FbkH := d.fbk n.val k.val;
      s.Inv ∧ d.fbkOn n.val k.val = true ∧ d.pendOf (inKey (n.val) (80 + k.val)) = [] ∧ (∀ (p : Nat), h.snap = some p → p + 12 ≤ d.beam) ∧
          d.zeroSpeed (n.val) (k.val) d.beam = true) ∧
    (let s : State := st ((en on 0).setFbk 1 1 {snap := some 99995, newest := some 99990}); let n : Isl := 1; let k : Fin 2 := 1;
      let d : Dev := s.hw; let h : FbkH := d.fbk n.val k.val; let p : Nat := 99995;
      s.Inv ∧ d.fbkOn n.val k.val = true ∧ d.pendOf (inKey (n.val) (80 + k.val)) = [] ∧ h.snap = some p ∧ p ≠ d.beam ∧ d.beam < p + 12) ∧
    (let s : State := st (((en on 0).w (FBK_IRQ_EN 1 1) all1).setFbk 1 1 {snap := some 99000, ent := [7,1,2,-3,4,5]}); let n : Isl := 1;
      let k : Fin 2 := 1; let d : Dev := s.hw; let h : FbkH := d.fbk n.val k.val; let pv : Int := 7; let sv : Int := -3; let pc : Nat := 1;
      let pf : Nat := 2; let sc : Nat := 4; let sf : Nat := 5; let t : Nat := 99000;
      s.Inv ∧ h.ent = [pv, ↑pc, ↑pf, sv, ↑sc, ↑sf] ∧ h.snap = some t ∧ (d.sset n.val).opened = false) ∧
    (let s : State := st on; let n : Isl := 1; let k : Fin 2 := 0; let q : Req := 8; let d : Dev := s.hw;
      s.Inv ∧ d.accessErr (q.val) (FBK_POS n.val k.val) 4 false = BErr.none) ∧
    (let s : State := st (kn (en on 4) 0); let n : Isl := 1; let k : Fin 2 := 1; let d : Dev := s.hw; let w : Word := 0x80000001;
      s.Inv ∧ d.fbkOn n.val k.val = true ∧ d.fbkSrc n.val k.val = 4 ∧ BitVec.getLsbD w 31 = true) ∧
    (let s : State := st (kn (en on 4) 0); let n : Isl := 1; let k : Fin 2 := 1; let d : Dev := s.hw; let w : Word := 0;
      s.Inv ∧ d.fbkOn n.val k.val = true ∧ d.fbkSrc n.val k.val = 4 ∧ BitVec.getLsbD w 31 = false) ∧
    (let s : State := st on; let n : Isl := 1; let k : Fin 2 := 0; let q : Req := 8; let d : Dev := s.hw;
      s.Inv ∧ d.accessErr (q.val) (FBK_IDX_CTL n.val k.val) 4 true = BErr.none) ∧
    (let s : State := st on; let n : Isl := 1; let k : Fin 2 := 0; let d : Dev := s.hw; let h : FbkH := d.fbk n.val k.val; let pin : Fin 6 := 1;
      let lv : Bool := true;
      s.Inv ∧ nbit h.rec_ pin.val ≠ lv) ∧
    (let s : State := st (((en on 0).w (FBK_IRQ_EN 1 1) all1).wf (FBK_SPD 1 1) FBK_SPD_ZTO 1); let n : Isl := 1; let k : Fin 2 := 1;
      let d : Dev := s.hw; let h : FbkH := d.fbk n.val k.val;
      s.Inv ∧ d.fbkOn n.val k.val = true ∧ d.f (FBK_SPD n.val k.val) FBK_SPD_ZTO ≠ 0 ∧
          (∀ (e : Nat), h.newest = some e → e + d.f (FBK_SPD n.val k.val) FBK_SPD_ZTO * 65536 ≤ d.beam)) := by
  refine ⟨?_, ?_, ?_, ?_, ?_, ?_, ?_, ?_, ?_, ?_, ?_, ?_, ?_, ?_, ?_, ?_⟩ <;> dsimp only <;>
    (repeat' first | decide +kernel | exact inv_st _ (by decide +kernel) (by decide +kernel) | refine And.intro ?_ ?_)

end Fbk

namespace Filigree

def tr (d : Dev) := { d with transit := [⟨5,99995⟩,⟨260,99995⟩] }
def inp (d : Dev) (ch x : Nat) := ((tr d).wf (FLG_IN_A 1 x) FLG_IN_A_EN0 1).wf (FLG_IN_A 1 x) FLG_IN_A_CH0 ch
def cl (d : Dev) := ((((tr d).wf (FLG_CELL_INA 1 7) FLG_CELL_INA_I0 (1024+260)).wf (FLG_CELL_CFG 1 7) FLG_CELL_CFG_LUT 2).wf (FLG_CELL_CFG 1 7) FLG_CELL_CFG_FF 1).wf (FLG_CELL_CFG 1 7) FLG_CELL_CFG_EDGE 3
def arm (d : Dev) := (d.set1 (ABX_TRC_CTL 1) ABX_TRC_CTL_ARM).wf (ABX_TRC_CTL 1) ABX_TRC_CTL_TSRC 1

theorem test_witness_FiligreeDelivery :
    (let s : State := st ((tr on).wf (chanReg 260) FLG_CH_GATE_EN 1); let ch : Fin 1024 := 260; let unseen : Nat := 0;
      let t : Transit := ⟨260,99995⟩; let d : Dev := s.hw; let o : Nat := t.origin;
      s.Inv ∧ s.hw.transitMin ch.val = some t ∧ s.hw.lost = false ∧ s.hw.b FLG_SPINE_STATUS FLG_SPINE_STATUS_ROOT_FAULT = false ∧
          d.gatePass (ch.val) o unseen = false) ∧
    (let s : State := st {tr on with chLast := [(5,99994),(260,99994)]}; let ch : Fin 1024 := 260; let unseen : Nat := 0;
      let t : Transit := ⟨260,99995⟩; let d : Dev := s.hw; let o : Nat := t.origin;
      s.Inv ∧ s.hw.transitMin ch.val = some t ∧ s.hw.lost = false ∧ s.hw.b FLG_SPINE_STATUS FLG_SPINE_STATUS_ROOT_FAULT = false ∧
          d.gatePass (ch.val) o unseen = true ∧ o + 1 < tabGet 0 d.chLast ch.val + 4) ∧
    (let s : State := st (tr on); let ch : Fin 1024 := 260; let unseen : Nat := 0; let t : Transit := ⟨260,99995⟩; let d : Dev := s.hw;
      let o : Nat := t.origin;
      s.Inv ∧ s.hw.transitMin ch.val = some t ∧ s.hw.lost = false ∧ s.hw.b FLG_SPINE_STATUS FLG_SPINE_STATUS_ROOT_FAULT = false ∧
          d.gatePass (ch.val) o unseen = true ∧ tabGet 0 d.chLast ch.val + 4 ≤ o + 1 ∧ d.islandConsumers ch.val = [] ∧ d.spineConsumers ch.val = [] ∧
          d.cellConsumers ch.val = []) ∧
    (let s : State := st (inp on 260 0xD); let ch : Fin 1024 := 260; let unseen : Nat := 0; let t : Transit := ⟨260,99995⟩; let d : Dev := s.hw;
      let o : Nat := t.origin; let n : Isl := 1; let k : Fin 16 := 3; let m : Fin 3 := 1; let key : Nat := inKey (n.val) (4 * k.val + m.val);
      let ps : List PendEv := d.pendOf key;
      s.Inv ∧ s.hw.transitMin ch.val = some t ∧ s.hw.lost = false ∧ s.hw.b FLG_SPINE_STATUS FLG_SPINE_STATUS_ROOT_FAULT = false ∧
          d.gatePass (ch.val) o unseen = true ∧ tabGet 0 d.chLast ch.val + 4 ≤ o + 1 ∧ d.islandConsumers ch.val = [(n, 4 * k.val + m.val)] ∧
          d.spineConsumers ch.val = [] ∧ d.cellConsumers ch.val = [] ∧ d.unpowered (TLY_CTL (n.val) 0) = false ∧ ps.length < 15) ∧
    (let s : State := st {inp on 260 0xD with pend := [(inKey 1 0xD, List.replicate 15 ⟨0,false,none⟩)]}; let ch : Fin 1024 := 260;
      let unseen : Nat := 0; let t : Transit := ⟨260,99995⟩; let d : Dev := s.hw; let o : Nat := t.origin; let n : Isl := 1; let k : Fin 16 := 3;
      let m : Fin 3 := 1; let key : Nat := inKey (n.val) (4 * k.val + m.val); let ps : List PendEv := d.pendOf key;
      s.Inv ∧ s.hw.transitMin ch.val = some t ∧ s.hw.lost = false ∧ s.hw.b FLG_SPINE_STATUS FLG_SPINE_STATUS_ROOT_FAULT = false ∧
          d.gatePass (ch.val) o unseen = true ∧ tabGet 0 d.chLast ch.val + 4 ≤ o + 1 ∧ d.islandConsumers ch.val = [(n, 4 * k.val + m.val)] ∧
          d.spineConsumers ch.val = [] ∧ d.cellConsumers ch.val = [] ∧ d.unpowered (TLY_CTL (n.val) 0) = false ∧ 15 ≤ ps.length) ∧
    (let s : State := st (inp on 260 0x41); let ch : Fin 1024 := 260; let unseen : Nat := 0; let t : Transit := ⟨260,99995⟩; let d : Dev := s.hw;
      let o : Nat := t.origin; let n : Isl := 1; let f : Fin 4 := 1;
      s.Inv ∧ s.hw.transitMin ch.val = some t ∧ s.hw.lost = false ∧ s.hw.b FLG_SPINE_STATUS FLG_SPINE_STATUS_ROOT_FAULT = false ∧
          d.gatePass (ch.val) o unseen = true ∧ tabGet 0 d.chLast ch.val + 4 ≤ o + 1 ∧ d.islandConsumers ch.val = [(n, 64 + f.val)] ∧
          d.spineConsumers ch.val = [] ∧ d.cellConsumers ch.val = [] ∧ d.unpowered (PWM_TLINE (n.val) 0) = false) ∧
    (let s : State := st (((tr on).wf (FLG_SIN_A 4) FLG_IN_A_EN0 1).wf (FLG_SIN_A 4) FLG_IN_A_CH0 5); let ch : Fin 1024 := 5; let unseen : Nat := 0;
      let t : Transit := ⟨5,99995⟩; let d : Dev := s.hw; let o : Nat := t.origin; let c : Core := 4;
      s.Inv ∧ s.hw.transitMin ch.val = some t ∧ s.hw.lost = false ∧ s.hw.b FLG_SPINE_STATUS FLG_SPINE_STATUS_ROOT_FAULT = false ∧
          d.gatePass (ch.val) o unseen = true ∧ tabGet 0 d.chLast ch.val + 4 ≤ o + 1 ∧ d.islandConsumers ch.val = [] ∧
          d.spineConsumers ch.val = [c.val] ∧ d.cellConsumers ch.val = [] ∧ (d.pendOf (spineKey c.val)).length < 15) ∧
    (let s : State := st (cl on); let ch : Fin 1024 := 260; let unseen : Nat := 0; let t : Transit := ⟨260,99995⟩; let d : Dev := s.hw;
      let o : Nat := t.origin; let n : Isl := 1; let i : Fin 64 := 7;
      s.Inv ∧ s.hw.transitMin ch.val = some t ∧ s.hw.lost = false ∧ s.hw.b FLG_SPINE_STATUS FLG_SPINE_STATUS_ROOT_FAULT = false ∧
          d.gatePass (ch.val) o unseen = true ∧ tabGet 0 d.chLast ch.val + 4 ≤ o + 1 ∧ d.islandConsumers ch.val = [] ∧ d.spineConsumers ch.val = [] ∧
          d.cellConsumers ch.val = [(n, i)] ∧ d.cellLatch n.val i.val = true ∧ d.f (FLG_CELL_CFG n.val i.val) FLG_CELL_CFG_FILT = 0) := by
  refine ⟨?_, ?_, ?_, ?_, ?_, ?_, ?_, ?_⟩ <;> dsimp only <;>
    (repeat' first | decide +kernel | exact inv_st _ (by decide +kernel) (by decide +kernel) | refine And.intro ?_ ?_)

theorem test_witness_FiligreeAndTrace :
    (let s : State := st (((cl on).setCell 1 7 {due := some (99000,true,0)}).wf (FLG_CELL_CTL 1 7) FLG_CELL_CTL_IRQ_EN 1); let n : Isl := 1;
      let d : Dev := s.hw; let i : Fin 64 := 7; let t : Nat := 99000; let v : Bool := true; let o : Nat := 0;
      s.Inv ∧ (d.cell n.val i.val).due = some (t, v, o) ∧ t ≤ d.beam ∧ d.lost = false ∧ d.b (FLG_CELL_CTL n.val i.val) FLG_CELL_CTL_O ≠ v) ∧
    (let s : State := st on; let q : Req := 8; let d : Dev := s.hw; let ch : Fin 1024 := 260;
      s.Inv ∧ d.accessErr (q.val) FLG_FIRE 4 true = BErr.none ∧ d.fireErr q.val ch.val = BErr.none) ∧
    (let s : State := st on; let q : Req := 3; let d : Dev := s.hw; let ch : Fin 1024 := 260;
      s.Inv ∧ d.accessErr (q.val) FLG_FIRE 4 true = BErr.none ∧ d.fireErr q.val ch.val ≠ BErr.none) ∧
    (let s : State := st on; let d : Dev := s.hw;
      s.Inv ∧ d.b FLG_SPINE_STATUS FLG_SPINE_STATUS_ROOT_FAULT = false) ∧
    (let s : State := st on; let n : Isl := 1; let q : Req := 8; let d : Dev := s.hw; let ctl : Nat := ABX_TRC_CTL n.val;
      s.Inv ∧ d.accessErr (q.val) ctl 4 true = BErr.none ∧ d.armed n.val = false) ∧
    (let s : State := st (arm on); let n : Isl := 1; let q : Req := 8; let d : Dev := s.hw; let flags : Nat := ABX_TRC_STATUS n.val;
      s.Inv ∧ d.armed n.val = true ∧ d.b flags ABX_TRC_STATUS_TRIGGERED = false ∧ d.accessErr (q.val) (ABX_TRC_CMD n.val) 4 true = BErr.none) ∧
    (let s : State := st (arm on); let n : Isl := 1; let d : Dev := s.hw; let flags : Nat := ABX_TRC_STATUS n.val;
      s.Inv ∧ d.armed n.val = true ∧ d.b flags ABX_TRC_STATUS_TRIGGERED = false ∧ d.traceSel (n.val) 0 = true) := by
  refine ⟨?_, ?_, ?_, ?_, ?_, ?_, ?_⟩ <;> dsimp only <;>
    (repeat' first | decide +kernel | exact inv_st _ (by decide +kernel) (by decide +kernel) | refine And.intro ?_ ?_)

end Filigree

namespace Pnd

def evs : List RaiseEv := [⟨0x1005,0x1234,99990,0x154⟩,⟨0x31,0,5,0⟩,⟨0x99,0,6,0x1F0+9⟩,⟨0x99,3,4,0x1F8⟩]
def recs : List RecH := [⟨0,0x1005,5,77,false⟩,⟨1,0x1006,9,78,false⟩,⟨2,0x1007,9,79,false⟩]
def ring (d : Dev) := ((d.wf (PND_RING_CFG 4) PND_RING_CFG_EN 1).wf (PND_RING_CFG 4) PND_RING_CFG_LOG2SIZE 6).wf (PND_RING_BASE 4) PND_RING_BASE_BASE (0x10000400/16)
def full (d : Dev) := (ring d).setRing 4 { recs := recs, lap := true }

theorem test_witness_PendantRecords :
    (let s : State := st on; let q : Req := 8; let d : Dev := s.hw; let src : BitVec 16 := 0x8000;
      s.Inv ∧ d.accessErr (q.val) PND_DOORBELL 4 true = BErr.none ∧ 32768 ≤ src.toNat) ∧
    (let s : State := st on; let q : Req := 8; let d : Dev := s.hw; let src : BitVec 16 := 0x7FFF;
      s.Inv ∧ d.accessErr (q.val) PND_DOORBELL 4 true = BErr.none ∧ src.toNat < 32768) ∧
    (let s : State := st {ring on with raised := [evs[0]]}; let c : Core := 4; let d : Dev := s.hw; let g : RingH := d.ring c.val;
      let cfg : Nat := PND_RING_CFG c.val; let head : Nat := d.f (PND_RING_PTR c.val) PND_RING_PTR_HEAD;
      let size : Nat := 2 ^ d.f cfg PND_RING_CFG_LOG2SIZE; let base : Nat := 16 * d.f (PND_RING_BASE c.val) PND_RING_BASE_BASE;
      let e : RaiseEv := ⟨0x1005,0x1234,99990,0x154⟩; let rest : List RaiseEv := [];
      s.Inv ∧ firstRaise d.raised = some (e, rest) ∧ e.route / 256 % 2 = 1 ∧ e.route % 16 = c.val ∧ d.b cfg PND_RING_CFG_EN = true ∧
          g.recs.length < size ∧ placeOf (base + 16 * head) = Place.mem) ∧
    (let s : State := st {on with raised := [evs[0]]}; let c : Core := 4; let d : Dev := s.hw; let g : RingH := d.ring c.val;
      let cfg : Nat := PND_RING_CFG c.val; let size : Nat := 2 ^ d.f cfg PND_RING_CFG_LOG2SIZE; let e : RaiseEv := ⟨0x1005,0x1234,99990,0x154⟩;
      let rest : List RaiseEv := [];
      s.Inv ∧ firstRaise d.raised = some (e, rest) ∧ e.route / 256 % 2 = 1 ∧ e.route % 16 = c.val ∧
          (d.b cfg PND_RING_CFG_EN = false ∨ size ≤ g.recs.length)) ∧
    (let s : State := st {on with raised := [evs[1]]}; let d : Dev := s.hw; let e : RaiseEv := ⟨0x31,0,5,0⟩; let rest : List RaiseEv := [];
      s.Inv ∧ firstRaise d.raised = some (e, rest) ∧ (e.route / 256 % 2 = 0 ∨ 9 ≤ e.route % 16)) ∧
    (let s : State := st (full on); let c : Core := 4; let d : Dev := s.hw; let rs : List RecH := d.claimable c.val;
      let time : Nat := d.f (PND_COAL c.val) PND_COAL_TIME;
      let wanted : Bool := decide (rs ≠ []) && (decide (max 1 (d.f (PND_COAL c.val) PND_COAL_COUNT) ≤ rs.length) || decide (time = 0) || Option.any (fun (r : RecH) => decide (r.ts + 500 * min time 1000 ≤ d.beam)) rs.head? || d.b (PND_COAL c.val) PND_COAL_URG_EN && rs.any fun (r : RecH) => decide (d.f (PND_COAL c.val) PND_COAL_URGENT ≤ r.prio));
      s.Inv ∧ wanted = true) ∧
    (let s : State := st on; let c : Core := 4; let d : Dev := s.hw;
      s.Inv ∧ d.accessErr (c.val) 3758096384 4 false = BErr.none ∧ d.claimable c.val = []) ∧
    (let s : State := st (full on); let c : Core := 4; let d : Dev := s.hw; let r : RecH := ⟨1,0x1006,9,78,false⟩;
      s.Inv ∧ d.accessErr (c.val) 3758096384 4 false = BErr.none ∧ bestRec (d.claimable c.val) = some r) ∧
    (let s : State := st ((ring on).setRing 4 {recs := [recs[0]], stack := [3]}); let c : Core := 4; let d : Dev := s.hw;
      let g : RingH := d.ring c.val; let p : Nat := 3; let st : List Nat := [];
      s.Inv ∧ d.accessErr (c.val) 3758096400 4 true = BErr.none ∧ g.stack = p :: st) ∧
    (let s : State := st on; let c : Core := 4; let d : Dev := s.hw; let g : RingH := d.ring c.val;
      s.Inv ∧ d.accessErr (c.val) 3758096400 4 true = BErr.none ∧ g.stack = []) ∧
    (let s : State := st on; let c : Core := 4; let q : Req := 8; let d : Dev := s.hw; let cfg : Nat := PND_RING_CFG c.val;
      s.Inv ∧ d.accessErr (q.val) cfg 4 true = BErr.none ∧ d.b cfg PND_RING_CFG_EN = false) := by
  refine ⟨?_, ?_, ?_, ?_, ?_, ?_, ?_, ?_, ?_, ?_, ?_⟩ <;> dsimp only <;>
    (repeat' first | decide +kernel | exact inv_st _ (by decide +kernel) (by decide +kernel) | refine And.intro ?_ ?_)

end Pnd

namespace Arrays

def scr (d : Dev) (a x : Nat) := (((d.wf ECC_SCRUB_CTL ECC_SCRUB_CTL_EN 1).wf ECC_SCRUB_STATUS ECC_SCRUB_STATUS_ARRAY a).w ECC_SCRUB_POS (wordOf x))

theorem test_witness_ArraysAndArbiter :
    (let s : State := st on; let d : Dev := s.hw; let a : Fin 15 := 2; let x : Word := 0x20200010; let w : Fin 16 := 3;
      let p : Nat := portOf (a.val) (BitVec.toNat x);
      s.Inv ∧ d.backedOff p w.val = false) ∧
    (let s : State := st on; let d : Dev := s.hw; let a : Fin 15 := 2; let x : Word := 0x20200010; let w : Fin 16 := 3; let l : Fin 16 := 14;
      let p : Nat := portOf (a.val) (BitVec.toNat x);
      s.Inv ∧ w ≠ l ∧ d.backedOff p w.val = false ∧ d.backedOff p l.val = false ∧
          (d.counter p l.val < d.counter p w.val ∨ d.counter p l.val = d.counter p w.val ∧ w < l)) ∧
    (let s : State := st on; let a : Fin 15 := 2;
      s.Inv ∧ (a.val < 6 ∨ a.val = 14)) ∧
    (let s : State := st {on with beam := 128000}; let d : Dev := s.hw;
      s.Inv ∧ d.ticking = true ∧ d.beam % 128 = 0) ∧
    (let s : State := st on; let q : Req := 8; let d : Dev := s.hw; let r : Fin 16 := 3; let v : BitVec 8 := 2;
      let sum : Nat := (List.map (fun (i : Nat) => if i = r.val then v.toNat else d.f (ARB_CREDIT i) ARB_CREDIT_CREDIT) (List.range 16)).sum;
      s.Inv ∧ d.accessErr (q.val) (ARB_CREDIT r.val) 4 true = BErr.none ∧ sum ≤ 64) ∧
    (let s : State := st on; let q : Req := 8; let d : Dev := s.hw; let r : Fin 16 := 3; let v : BitVec 8 := 0x3F;
      let sum : Nat := (List.map (fun (i : Nat) => if i = r.val then v.toNat else d.f (ARB_CREDIT i) ARB_CREDIT_CREDIT) (List.range 16)).sum;
      s.Inv ∧ d.accessErr (q.val) (ARB_CREDIT r.val) 4 true = BErr.none ∧ 64 < sum) ∧
    (let s : State := st (scr on 2 0x20200010); let d : Dev := s.hw; let a : Fin 15 := 2; let x : Word := 0x20200010;
      s.Inv ∧ d.b ECC_SCRUB_CTL ECC_SCRUB_CTL_EN = true ∧ d.scrubPos = some (a.val, BitVec.toNat x) ∧
          d.unpowered (arrayPlace (a.val) (BitVec.toNat x)) = false ∧ BitVec.toNat x + 8 < arrayBase a.val + arraySize a.val) ∧
    (let s : State := st (scr on 14 0x7FFF8); let d : Dev := s.hw; let a : Fin 15 := 14; let x : Word := 0x7FFF8;
      s.Inv ∧ d.b ECC_SCRUB_CTL ECC_SCRUB_CTL_EN = true ∧ d.scrubPos = some (a.val, BitVec.toNat x) ∧
          d.unpowered (arrayPlace (a.val) (BitVec.toNat x)) = false ∧ arrayBase a.val + arraySize a.val ≤ BitVec.toNat x + 8 ∧
          d.scrubNext (a.val + 1) = none) ∧
    (let s : State := st {((on.wf ECC_SCRUB_CTL ECC_SCRUB_CTL_EN 1).wf ECC_SCRUB_CTL ECC_SCRUB_CTL_INT 1) with beam := 500100000};
      let d : Dev := s.hw;
      s.Inv ∧ d.b ECC_SCRUB_CTL ECC_SCRUB_CTL_EN = true ∧
          d.scrubAt + min 604800 (max 1 (d.f ECC_SCRUB_CTL ECC_SCRUB_CTL_INT)) * 500000000 ≤ d.beam) := by
  refine ⟨?_, ?_, ?_, ?_, ?_, ?_, ?_, ?_, ?_⟩ <;> dsimp only <;>
    (repeat' first | decide +kernel | exact inv_st _ (by decide +kernel) (by decide +kernel) | refine And.intro ?_ ?_)

end Arrays

namespace Dmas

def desc (d : Dev) (a s t c n : Nat) := (((d.storeN a s 4).storeN (a+4) t 4).storeN (a+8) c 4).storeN (a+12) n 4
def m0 := desc (on.storeN 0x10000200 0x1122334455667788 8) 0x10000100 0x10000200 0x10000300 (0x0340_0000 + 0x1F0003) 0x10000140
def arm (d : Dev) := (d.wf (DMA_CH_CTL 1 3) DMA_CH_CTL_ARM 1).wf (DMA_CH_CUR 1 3) DMA_CH_CUR_ADDR 0x1000010
def pd (d : Dev) := d.wf (DMA_CH_STATUS 1 3) DMA_CH_STATUS_PENDING 1
def srv (d : Dev) (ctl left : Nat) (trig : Nat) := (((d.wf (DMA_CH_STATUS 1 3) DMA_CH_STATUS_ACTIVE 1).dmaServe 1 (some 3)).setDmach 1 3 ⟨wordOf trig, true, 0x10000200, 0x10000300, ctl, 0x1000010, 1⟩).wf (DMA_CH_REM 1 3) DMA_CH_REM_REM left

theorem test_witness_DmaTransfers :
    (let s : State := st on; let e : Fin 2 := 1; let c : Fin 16 := 3; let q : Req := 8; let d : Dev := s.hw; let ctl : Nat := DMA_CH_CTL e.val c.val;
      let st : Nat := DMA_CH_STATUS e.val c.val; let armed : Bool := d.b ctl DMA_CH_CTL_ARM;
      s.Inv ∧ d.accessErr (q.val) ctl 4 true = BErr.none ∧ armed = false ∧ d.b st DMA_CH_STATUS_ERR = false) ∧
    (let s : State := st on; let e : Fin 2 := 1; let c : Fin 16 := 3; let q : Req := 8; let d : Dev := s.hw;
      let st : Nat := DMA_CH_STATUS e.val c.val;
      s.Inv ∧ d.accessErr (q.val) st 4 true = BErr.none) ∧
    (let s : State := st ((arm m0).setDmach 1 3 {cfg := 1}); let e : Fin 2 := 1; let c : Fin 16 := 3; let d : Dev := s.hw;
      let h : DmaH := d.dmach e.val c.val; let trig : Nat := if fget DMA_CH_CFG_TRIG h.cfg = 3 then 0 else fget DMA_CH_CFG_TRIG h.cfg;
      s.Inv ∧ d.powered (4 + e.val) = true ∧ trig = 1 ∧ d.pendOf (spineKey (16 + 16 * e.val + c.val)) = []) ∧
    (let s : State := st (((arm m0).setDmach 1 3 {cfg := 0x2602}).wf (BEAD_CTL 2 3) BEAD_CTL_TXCAP 12); let e : Fin 2 := 1; let c : Fin 16 := 3;
      let d : Dev := s.hw; let h : DmaH := d.dmach e.val c.val; let ctl : Nat := DMA_CH_CTL e.val c.val; let st : Nat := DMA_CH_STATUS e.val c.val;
      let armed : Bool := d.b ctl DMA_CH_CTL_ARM; let trig : Nat := if fget DMA_CH_CFG_TRIG h.cfg = 3 then 0 else fget DMA_CH_CFG_TRIG h.cfg;
      let idle : Bool := !d.b st DMA_CH_STATUS_PENDING && !d.b st DMA_CH_STATUS_ACTIVE;
      s.Inv ∧ d.powered (4 + e.val) = true ∧ trig = 2 ∧ armed = true ∧ idle = true ∧ d.dmaLine (fget DMA_CH_CFG_LINE h.cfg) = true) ∧
    (let s : State := st (pd (arm m0)); let e : Fin 2 := 1; let c : Fin 16 := 3; let d : Dev := s.hw; let h : DmaH := d.dmach e.val c.val;
      let r : Req := if e = 0 then 9 else 10; let st : Nat := DMA_CH_STATUS e.val c.val; let cur : Nat := DMA_CH_CUR e.val c.val;
      let readable : Nat → Prop := fun (a : Nat) => ∀ (k : Fin 4), d.accessErr (↑r) (a + 4 * ↑k) 4 false = BErr.none ∧
        placeOf (d.xaddr (↑r) (a + 4 * ↑k)) = Place.mem; let a : Nat := 16 * d.f cur DMA_CH_CUR_ADDR;
      s.Inv ∧ d.powered (4 + e.val) = true ∧ d.dmaServed e.val = none ∧ d.b st DMA_CH_STATUS_PENDING = true ∧
          (∀ (k : Fin 16), k < c → d.b (DMA_CH_STATUS e.val ↑k) DMA_CH_STATUS_PENDING = false) ∧ h.loaded = false ∧ readable a) ∧
    (let s : State := st (srv (arm m0) 0x03400000 2 0); let e : Fin 2 := 1; let c : Fin 16 := 3; let d : Dev := s.hw;
      let h : DmaH := d.dmach e.val c.val; let r : Req := if e = 0 then 9 else 10; let n : Nat := 2 ^ (h.ctl / 2 ^ 22 % 4);
      let left : Nat := d.f (DMA_CH_REM e.val c.val) DMA_CH_REM_REM; let sx : Nat := d.xaddr (↑r) h.src; let dx : Nat := d.xaddr (↑r) h.dst;
      s.Inv ∧ d.powered (4 + e.val) = true ∧ d.dmaServed e.val = some c.val ∧ h.loaded = true ∧ left ≠ 0 ∧ h.src % n = 0 ∧
          d.accessErr (↑r) h.src n false = BErr.none ∧ placeOf sx = Place.mem ∧ h.dst % n = 0 ∧ d.accessErr (↑r) h.dst n true = BErr.none ∧
          placeOf dx = Place.mem) ∧
    (let s : State := st ((srv (arm m0) 0x03400000 2 0).setDmach 1 3 ⟨0,true,0x10000200,0x10000302,0x03400000*2,0,1⟩); let e : Fin 2 := 1;
      let c : Fin 16 := 3; let d : Dev := s.hw; let h : DmaH := d.dmach e.val c.val; let r : Req := if e = 0 then 9 else 10;
      let n : Nat := 2 ^ (h.ctl / 2 ^ 22 % 4); let left : Nat := d.f (DMA_CH_REM e.val c.val) DMA_CH_REM_REM; let sx : Nat := d.xaddr (↑r) h.src;
      let x : BErr := .decode;
      s.Inv ∧ d.powered (4 + e.val) = true ∧ d.dmaServed e.val = some c.val ∧ h.loaded = true ∧ left ≠ 0 ∧ h.src % n = 0 ∧
          d.accessErr (↑r) h.src n false = BErr.none ∧ placeOf sx = Place.mem ∧ x ≠ BErr.none ∧
          ((if h.dst % n ≠ 0 then BErr.decode else d.accessErr (↑r) h.dst n true) = x)) ∧
    (let s : State := st (srv (arm m0) 0x18000000 0 0); let e : Fin 2 := 1; let c : Fin 16 := 3; let d : Dev := s.hw;
      let h : DmaH := d.dmach e.val c.val; let left : Nat := d.f (DMA_CH_REM e.val c.val) DMA_CH_REM_REM;
      s.Inv ∧ d.powered (4 + e.val) = true ∧ d.dmaServed e.val = some c.val ∧ h.loaded = true ∧ left = 0 ∧ nbit h.ctl 27 = true) ∧
    (let s : State := st (srv (arm m0) 0x10000000 0 2); let e : Fin 2 := 1; let c : Fin 16 := 3; let d : Dev := s.hw;
      let h : DmaH := d.dmach e.val c.val; let trig : Nat := if fget DMA_CH_CFG_TRIG h.cfg = 3 then 0 else fget DMA_CH_CFG_TRIG h.cfg;
      let left : Nat := d.f (DMA_CH_REM e.val c.val) DMA_CH_REM_REM;
      s.Inv ∧ d.powered (4 + e.val) = true ∧ d.dmaServed e.val = some c.val ∧ h.loaded = true ∧ left = 0 ∧ nbit h.ctl 27 = false ∧ trig = 2) ∧
    (let s : State := st (srv (arm m0) 0x10000000 0 0); let e : Fin 2 := 1; let c : Fin 16 := 3; let d : Dev := s.hw;
      let h : DmaH := d.dmach e.val c.val; let r : Req := if e = 0 then 9 else 10;
      let trig : Nat := if fget DMA_CH_CFG_TRIG h.cfg = 3 then 0 else fget DMA_CH_CFG_TRIG h.cfg;
      let readable : Nat → Prop := fun (a : Nat) => ∀ (k : Fin 4), d.accessErr (↑r) (a + 4 * ↑k) 4 false = BErr.none ∧
        placeOf (d.xaddr (↑r) (a + 4 * ↑k)) = Place.mem; let left : Nat := d.f (DMA_CH_REM e.val c.val) DMA_CH_REM_REM;
      s.Inv ∧ d.powered (4 + e.val) = true ∧ d.dmaServed e.val = some c.val ∧ h.loaded = true ∧ left = 0 ∧ nbit h.ctl 27 = false ∧ trig ≠ 2 ∧
          h.next < 2 ^ 28 ∧ readable (16 * h.next)) := by
  refine ⟨?_, ?_, ?_, ?_, ?_, ?_, ?_, ?_, ?_, ?_⟩ <;> dsimp only <;>
    (repeat' first | decide +kernel | exact inv_st _ (by decide +kernel) (by decide +kernel) | refine And.intro ?_ ?_)

end Dmas

namespace Debug

def op (d : Dev) := { (d.wf (CORE_CTL 4) CORE_CTL_DBG_EN 1).setCore 4 {run := true, pc := 77} with chozer := {debug := true}, dcache := [(latchKey 3 4, 9),(latchKey 3 8, 9)], icache := [(latchKey 3 4, 9),(latchKey 3 8, 9)] }
def hl := (op on).haltCore 4 1 0

theorem test_witness_CoreDebug :
    (let s : State := st (op on); let c : Core := 4; let d : Dev := s.hw;
      s.Inv ∧ d.debugOpen c.val = true ∧ d.coreRuns c.val = true ∧ (d.mode = mRun ∨ d.mode = mSetup ∨ d.mode = mSafe)) ∧
    (let s : State := st hl; let c : Core := 4; let d : Dev := s.hw; let m : Nat := 3;
      s.Inv ∧ d.debugOpen c.val = true ∧ d.halted c.val = true ∧ d.mode = mHalt ∧ d.power.rec_ = some (m, d.safeMask) ∧
          (∀ (k : Core), k ≠ c → d.halted ↑k = false) ∧ m < 5) ∧
    (let s : State := st on; let c : Core := 0; let d : Dev := s.hw;
      s.Inv ∧ d.debugOpen c.val = false) ∧
    (let s : State := st on; let c : Core := 0; let d : Dev := s.hw;
      s.Inv ∧ d.accessErr (c.val) 3758104576 4 true = BErr.none) := by
  refine ⟨?_, ?_, ?_, ?_⟩ <;> dsimp only <;>
    (repeat' first | decide +kernel | exact inv_st _ (by decide +kernel) (by decide +kernel) | refine And.intro ?_ ?_)

end Debug

namespace Regs


/-- spec/01_architecture.md, examples: PWM_PERIOD of pair 5 of island 2, its address; the first PWM source of island 2. -/
theorem test_map_examples : PWM_PERIOD 2 5 = 0x42010140 ∧ islSrc 2 + 0x80 = 0x1880 := by decide

/-- No word spells a command: the opcode table gives no bits. -/
theorem test_no_word_decodes : decodeTableWord 16 0x1234 = none ∧ State.reset.withFetchWord 16 0x1234 = State.reset := by
  exact ⟨rfl, rfl⟩

theorem test_witness_RegisterWrites :
    (let s : State := st on; let q : Req := 8; let d : Dev := s.hw; let a : Nat := 1073807360; let size : Fin 9 := 1; let x : BErr := .decode;
      s.Inv ∧ x ≠ BErr.none ∧ d.accessErr (q.val) a (size.val) true = x) ∧
    (let s : State := st on; let q : Req := 8; let d : Dev := s.hw; let a : Nat := 268435712; let size : Fin 9 := 4;
      s.Inv ∧ d.accessErr (q.val) a (size.val) true = BErr.none ∧ placeOf (d.xaddr (q.val) a) = Place.mem) ∧
    (let s : State := st on; let q : Req := 8; let d : Dev := s.hw; let k : Fin 16 := 3;
      s.Inv ∧ d.accessErr (q.val) (ECC_CE_THR k.val) 4 true = BErr.none) ∧
    (let s : State := st on; let q : Req := 8; let d : Dev := s.hw; let n : Isl := 1; let t : Fin 16 := 3;
      s.Inv ∧ d.accessErr (q.val) (TLY_STATUS n.val t.val) 4 true = BErr.none) ∧
    (let s : State := st on; let q : Req := 8; let d : Dev := s.hw; let n : Isl := 1; let p : Fin 16 := 3; let reg : Fin 6 := 0;
      let w : Nat := d.f (PWM_SPLIT n.val p.val) PWM_SPLIT_WIN;
      s.Inv ∧ d.accessErr (q.val) (groupReg n.val p.val reg.val) 4 true = BErr.none ∧ d.frameOwned (n.val) (groupReg n.val p.val reg.val) = false ∧
          d.shadow = [] ∧ reg.val ≠ 1 ∧ w = 0) ∧
    (let s : State := st ((on.wf (PWM_SPLIT 1 3) PWM_SPLIT_WIN 20).wf (PWM_SPLIT 1 3) PWM_SPLIT_SPLIT_HOLD 1); let q : Req := 8; let d : Dev := s.hw;
      let n : Isl := 1; let p : Fin 16 := 3; let reg : Fin 6 := 0; let h : PairH := d.pair n.val p.val;
      let w : Nat := d.f (PWM_SPLIT n.val p.val) PWM_SPLIT_WIN;
      s.Inv ∧ d.accessErr (q.val) (groupReg n.val p.val reg.val) 4 true = BErr.none ∧ d.frameOwned (n.val) (groupReg n.val p.val reg.val) = false ∧
          d.shadow = [] ∧ reg.val ≠ 1 ∧ w ≠ 0 ∧ d.b (PWM_SPLIT n.val p.val) PWM_SPLIT_SPLIT_HOLD = true ∧ h.held = none) ∧
    (let s : State := st { ((on.wf (PWM_SPLIT 1 3) PWM_SPLIT_WIN 20).wf (PWM_SPLIT 1 3) PWM_SPLIT_SPLIT_HOLD 1).setPair 1 3 {held := some (true, 0)} with agenda := [⟨100001,.holdExpired 1 3⟩]}; let q : Req := 8; let d : Dev := s.hw; let n : Isl := 1; let p : Fin 16 := 3; let reg : Fin 6 := 0; let duty : Bool := decide (2 ≤ reg.val); let h : PairH := d.pair n.val p.val; let w : Nat := d.f (PWM_SPLIT n.val p.val) PWM_SPLIT_WIN; let e : Nat := 0;
      s.Inv ∧ d.accessErr (q.val) (groupReg n.val p.val reg.val) 4 true = BErr.none ∧ d.frameOwned (n.val) (groupReg n.val p.val reg.val) = false ∧
          d.shadow = [] ∧ reg.val ≠ 1 ∧ w ≠ 0 ∧ d.b (PWM_SPLIT n.val p.val) PWM_SPLIT_SPLIT_HOLD = true ∧ h.held = some (!duty, e)) ∧
    (let s : State := st (((on.wf (PWM_SPLIT 1 3) PWM_SPLIT_WIN 20).w (PWM_IRQ_EN 1 3) all1).setPair 1 3 {lastD := some 99990, lastP := some 99990, lastB := some 99995}); let q : Req := 8; let d : Dev := s.hw; let n : Isl := 1; let p : Fin 16 := 3; let reg : Fin 6 := 0; let duty : Bool := decide (2 ≤ reg.val); let h : PairH := d.pair n.val p.val; let w : Nat := d.f (PWM_SPLIT n.val p.val) PWM_SPLIT_WIN; let other : Option Nat := if duty = true then h.lastP else h.lastD; let u : Nat := 99990; let b : Nat := 99995;
      s.Inv ∧ d.accessErr (q.val) (groupReg n.val p.val reg.val) 4 true = BErr.none ∧ d.frameOwned (n.val) (groupReg n.val p.val reg.val) = false ∧
          d.shadow = [] ∧ reg.val ≠ 1 ∧ w ≠ 0 ∧ d.b (PWM_SPLIT n.val p.val) PWM_SPLIT_SPLIT_HOLD = false ∧ other = some u ∧ h.lastB = some b) ∧
    (let s : State := st ((on.wf (PWM_CTL 1 3) PWM_CTL_RUN 1).wf (PWM_OPT 1) PWM_OPT_LOCK_BERR 1); let q : Req := 8; let d : Dev := s.hw;
      let n : Isl := 1; let p : Fin 16 := 3; let reg : Fin 6 := 1; let v : Word := 0x1F7; let a : Nat := groupReg n.val p.val reg.val;
      let w : Nat := d.f (PWM_SPLIT n.val p.val) PWM_SPLIT_WIN;
      s.Inv ∧ d.accessErr (q.val) (groupReg n.val p.val reg.val) 4 true = BErr.none ∧ d.frameOwned (n.val) (groupReg n.val p.val reg.val) = false ∧
          d.shadow = [] ∧ reg.val = 1 ∧ d.pairRuns n.val p.val = true ∧ BitVec.toNat v / 256 ≠ d.f a PWM_PSYNC_PHASE ∧ w = 0 ∧
          d.b (PWM_OPT n.val) PWM_OPT_LOCK_BERR = true) ∧
    (let s : State := st (on.wf (PWM_CTL 1 3) PWM_CTL_RUN 1); let q : Req := 8; let d : Dev := s.hw; let n : Isl := 1; let p : Fin 16 := 3;
      let reg : Fin 6 := 1; let v : Word := 0x1F7; let a : Nat := groupReg n.val p.val reg.val;
      let w : Nat := d.f (PWM_SPLIT n.val p.val) PWM_SPLIT_WIN;
      s.Inv ∧ d.accessErr (q.val) (groupReg n.val p.val reg.val) 4 true = BErr.none ∧ d.frameOwned (n.val) (groupReg n.val p.val reg.val) = false ∧
          d.shadow = [] ∧ reg.val = 1 ∧ d.pairRuns n.val p.val = true ∧ BitVec.toNat v / 256 ≠ d.f a PWM_PSYNC_PHASE ∧ w = 0 ∧
          d.b (PWM_OPT n.val) PWM_OPT_LOCK_BERR = false) := by
  refine ⟨?_, ?_, ?_, ?_, ?_, ?_, ?_, ?_, ?_, ?_⟩ <;> dsimp only <;>
    (repeat' first | decide +kernel | exact inv_st _ (by decide +kernel) (by decide +kernel) | refine And.intro ?_ ?_)

end Regs

namespace Abacus


theorem test_witness_AbacusAndRouteWrites :
    (let s : State := st (on.wf PWR_MODE PWR_MODE_MODE mSetup); let q : Req := 8; let v : Word := 0x1F7; let d : Dev := s.hw; let g : Fin 16 := 3;
      let a : Nat := ABX_GRP_ASSIGN g.val; let old : Nat := d.f a ABX_GRP_ASSIGN_ISLAND; let new : Nat := BitVec.toNat v % 8;
      s.Inv ∧ d.accessErr (q.val) (ABX_GRP_ASSIGN g.val) 4 true = BErr.none ∧ old = new) ∧
    (let s : State := st (on.wf PWR_MODE PWR_MODE_MODE mSetup); let q : Req := 8; let v : Word := 0x705; let d : Dev := s.hw; let g : Fin 16 := 3;
      let a : Nat := ABX_GRP_ASSIGN g.val; let old : Nat := d.f a ABX_GRP_ASSIGN_ISLAND; let new : Nat := BitVec.toNat v % 8;
      s.Inv ∧ d.accessErr (q.val) (ABX_GRP_ASSIGN g.val) 4 true = BErr.none ∧ old ≠ new ∧ d.inRun old = false ∧ d.inRun new = false) ∧
    (let s : State := st (on.wf PWR_MODE PWR_MODE_MODE mSetup); let q : Req := 8; let d : Dev := s.hw; let r : Rod := 13; let k : Fin 32 := 0;
      s.Inv ∧ d.accessErr (q.val) (ABX_ROD_PRESET r.val k.val) 4 true = BErr.none ∧ d.retired r.val = false) ∧
    (let s : State := st ((on.wf PWR_MODE PWR_MODE_MODE mSetup).set1 (ABX_ROD_STATUS 13) ABX_ROD_STATUS_RETIRED); let q : Req := 8;
      let d : Dev := s.hw; let r : Rod := 13; let k : Fin 32 := 0;
      s.Inv ∧ d.accessErr (q.val) (ABX_ROD_PRESET r.val k.val) 4 true = BErr.none ∧ d.retired r.val = true) ∧
    (let s : State := st (on.wf PWR_MODE PWR_MODE_MODE mSetup); let q : Req := 8; let v : Word := 2; let d : Dev := s.hw; let n : Isl := 1;
      let k : Fin 64 := 13; let tgt : Nat := 4 * fget ABX_OUTMAP_TARGET v;
      let bad : Bool := decide (fget ABX_OUTMAP_EN v = 1 ∧ (slotMask tgt = none ∨ ∃ (j : Fin 64), j ≠ k ∧ d.slotTarget n.val ↑j = some tgt));
      s.Inv ∧ d.accessErr (q.val) (ABX_OUTMAP n.val k.val) 4 true = BErr.none ∧ d.abxRuns n.val = false ∧ bad = false) ∧
    (let s : State := st (on.wf PWR_MODE PWR_MODE_MODE mSetup); let q : Req := 8; let v : Word := 0x1F7; let d : Dev := s.hw; let n : Isl := 1;
      let k : Fin 64 := 13; let tgt : Nat := 4 * fget ABX_OUTMAP_TARGET v;
      let bad : Bool := decide (fget ABX_OUTMAP_EN v = 1 ∧ (slotMask tgt = none ∨ ∃ (j : Fin 64), j ≠ k ∧ d.slotTarget n.val ↑j = some tgt));
      s.Inv ∧ d.accessErr (q.val) (ABX_OUTMAP n.val k.val) 4 true = BErr.none ∧ d.abxRuns n.val = false ∧ bad = true) ∧
    (let s : State := st (on.wf PWR_MODE PWR_MODE_MODE mSetup); let q : Req := 8; let d : Dev := s.hw; let n : Isl := 1; let c : Fin 128 := 13;
      s.Inv ∧ d.accessErr (q.val) (FLG_CH n.val c.val) 4 true = BErr.none) ∧
    (let s : State := st (on.wf PWR_MODE PWR_MODE_MODE mSetup); let q : Req := 8; let d : Dev := s.hw; let c : Fin 128 := 13;
      s.Inv ∧ d.accessErr (q.val) (FLG_SCH c.val) 4 true = BErr.none) := by
  refine ⟨?_, ?_, ?_, ?_, ?_, ?_, ?_, ?_⟩ <;> dsimp only <;>
    (repeat' first | decide +kernel | exact inv_st _ (by decide +kernel) (by decide +kernel) | refine And.intro ?_ ?_)

end Abacus

namespace Power


theorem test_witness_PowerAndModes :
    (let s : State := st {}; let d : Dev := s.hw;
      s.Inv ∧ d.power.resetHeld = true) ∧
    (let s : State := st on; let d : Dev := s.hw;
      s.Inv ∧ d.power.resetHeld = false) ∧
    (let s : State := st on; let d : Dev := s.hw; let i : Fin 12 := 0;
      s.Inv ∧ d.power.resetHeld = false ∧ (i ≠ 0 ∨ d.anyRun = true)) ∧
    (let s : State := st on; let d : Dev := s.hw;
      s.Inv ∧ d.power.resetHeld = false ∧ d.power.losing = false) ∧
    (let s : State := st {on with power := {resetHeld := false, losing := true}}; let d : Dev := s.hw;
      s.Inv ∧ d.power.losing = true ∧ d.ledger.active = none) ∧
    (let s : State := st ((on.wf PWR_MODE PWR_MODE_MODE mDormant).set1 PWR_WAKE PWR_WAKE_PIN_EN); let d : Dev := s.hw;
      s.Inv ∧ d.b PWR_WAKE PWR_WAKE_PIN_EN = true ∧ d.mode = mDormant) ∧
    (let s : State := st {(on.wf PWR_MODE PWR_MODE_MODE mSafe).set1 PWR_WAKE PWR_WAKE_PIN_EN with power := {resetHeld := false, dormReq := true}};
      let d : Dev := s.hw;
      s.Inv ∧ d.b PWR_WAKE PWR_WAKE_PIN_EN = true ∧ d.mode ≠ mDormant ∧ d.power.dormReq = true) ∧
    (let s : State := st (on.set1 PWR_WAKE PWR_WAKE_PIN_EN); let d : Dev := s.hw;
      s.Inv ∧ d.b PWR_WAKE PWR_WAKE_PIN_EN = true ∧ d.mode ≠ mDormant ∧ d.power.dormReq = false) ∧
    (let s : State := st ((on.wf PWR_MODE PWR_MODE_MODE mDormant).set1 PWR_WAKE PWR_WAKE_PIN_EN); let d : Dev := s.hw;
      s.Inv ∧ d.pendOf (spineKey 63) = [] ∧ d.mode = mDormant) ∧
    (let s : State := st {(on.wf PWR_MODE PWR_MODE_MODE mSafe).set1 PWR_WAKE PWR_WAKE_PIN_EN with power := {resetHeld := false, dormReq := true}};
      let d : Dev := s.hw;
      s.Inv ∧ d.pendOf (spineKey 63) = [] ∧ d.mode ≠ mDormant ∧ d.power.dormReq = true) ∧
    (let s : State := st {}; let d : Dev := s.hw;
      s.Inv ∧ d.pendOf (spineKey 63) = [] ∧ d.mode ≠ mDormant ∧ d.power.dormReq = false) ∧
    (let s : State := st {(on.wf PWR_MODE PWR_MODE_MODE mSafe).set1 PWR_WAKE PWR_WAKE_PIN_EN with power := {resetHeld := false, dormReq := true}};
      let d : Dev := s.hw;
      s.Inv ∧ d.power.dormReq = true ∧ (d.mode = mSetup ∨ d.mode = mSafe) ∧ d.power.wake = 0) := by
  refine ⟨?_, ?_, ?_, ?_, ?_, ?_, ?_, ?_, ?_, ?_, ?_, ?_⟩ <;> dsimp only <;>
    (repeat' first | decide +kernel | exact inv_st _ (by decide +kernel) (by decide +kernel) | refine And.intro ?_ ?_)

end Power

namespace Gov

def g := (((on.w PWR_GOV_LIMITS 0x03B60320).wf PWR_GOV_STATUS PWR_GOV_STATUS_TARGET 801).wf PWR_GOV_CTL PWR_GOV_CTL_EN 1).wf PWR_GOV_CTL PWR_GOV_CTL_STEP 10
def bz := g.set1 PWR_GOV_STATUS PWR_GOV_STATUS_BUSY
def wd := {on.wf PWR_WDOG_CTL PWR_WDOG_CTL_EN 1 with beam := 60000000}

theorem test_witness_GovernorAndWatchdog :
    (let s : State := st bz; let d : Dev := s.hw; let st : Nat := PWR_GOV_STATUS; let on : Fld → Bool := fun (f : Fld) => d.b st f;
      let t : Nat := d.f st PWR_GOV_STATUS_TARGET; let acked : Bool := true; let pec : Bool := true; let mv : Nat := 800;
      let ok : Bool := acked && pec && decide (mv ≤ t + 15 ∧ t ≤ mv + 15);
      s.Inv ∧ on PWR_GOV_STATUS_BUSY = true ∧ ok = true ∧ d.power.upPend = false) ∧
    (let s : State := st {bz with power := {resetHeld := false, upPend := true}}; let d : Dev := s.hw; let st : Nat := PWR_GOV_STATUS;
      let on : Fld → Bool := fun (f : Fld) => d.b st f; let t : Nat := d.f st PWR_GOV_STATUS_TARGET;
      let ceil : Nat := d.f PWR_GOV_LIMITS PWR_GOV_LIMITS_CEIL; let acked : Bool := true; let pec : Bool := true; let mv : Nat := 800;
      let ok : Bool := acked && pec && decide (mv ≤ t + 15 ∧ t ≤ mv + 15);
      s.Inv ∧ on PWR_GOV_STATUS_BUSY = true ∧ ok = true ∧ d.power.upPend = true ∧ t ≠ ceil) ∧
    (let s : State := st bz; let d : Dev := s.hw; let st : Nat := PWR_GOV_STATUS; let on : Fld → Bool := fun (f : Fld) => d.b st f;
      let t : Nat := d.f st PWR_GOV_STATUS_TARGET; let acked : Bool := false; let pec : Bool := false; let mv : Nat := 0;
      let ok : Bool := acked && pec && decide (mv ≤ t + 15 ∧ t ≤ mv + 15);
      s.Inv ∧ on PWR_GOV_STATUS_BUSY = true ∧ ok = false ∧ d.power.tries = 0) ∧
    (let s : State := st {bz with power := {resetHeld := false, tries := 1}}; let d : Dev := s.hw; let st : Nat := PWR_GOV_STATUS;
      let on : Fld → Bool := fun (f : Fld) => d.b st f; let t : Nat := d.f st PWR_GOV_STATUS_TARGET; let acked : Bool := false;
      let pec : Bool := false; let mv : Nat := 0; let ok : Bool := acked && pec && decide (mv ≤ t + 15 ∧ t ≤ mv + 15);
      s.Inv ∧ on PWR_GOV_STATUS_BUSY = true ∧ ok = false ∧ d.power.tries ≠ 0) ∧
    (let s : State := st { ((g.set1 PWR_GOV_CTL PWR_GOV_CTL_SLACK_DOWN).wf PWR_GOV_CTL PWR_GOV_CTL_QUIET 1).wf PWR_MODE PWR_MODE_MODE mSetup with beam := 60000000}; let d : Dev := s.hw; let st : Nat := PWR_GOV_STATUS; let on : Fld → Bool := fun (f : Fld) => d.b st f; let t : Nat := d.f st PWR_GOV_STATUS_TARGET; let floor : Nat := d.f PWR_GOV_LIMITS PWR_GOV_LIMITS_FLOOR;
      s.Inv ∧ d.b PWR_GOV_CTL PWR_GOV_CTL_EN = true ∧ on PWR_GOV_STATUS_FMT_ERR = false ∧ on PWR_GOV_STATUS_PMB_ERR = false ∧
          on PWR_GOV_STATUS_BUSY = false ∧ d.b PWR_GOV_CTL PWR_GOV_CTL_SLACK_DOWN = true ∧
          d.power.quiet + max 1 (d.f PWR_GOV_CTL PWR_GOV_CTL_QUIET) * 500000 ≤ d.beam ∧
          (∀ (n : Isl), d.inRun ↑n = true → d.periodTicks ↑n ≤ 4 * BitVec.toNat (d.r (ABX_SLACK_MIN ↑n))) ∧ floor < t) ∧
    (let s : State := st wd; let d : Dev := s.hw; let wst : Nat := PWR_WDOG_STATUS;
      let due : Bool := d.b PWR_WDOG_CTL PWR_WDOG_CTL_EN && !d.b wst PWR_WDOG_STATUS_PAUSED && !d.b wst PWR_WDOG_STATUS_EXPIRED && decide (d.power.kick + 50000000 ≤ d.beam);
      s.Inv ∧ due = true) ∧
    (let s : State := st {wd with power := {kick := 20000000}}; let q : Req := 8; let d : Dev := s.hw; let wst : Nat := PWR_WDOG_STATUS;
      let due : Bool := d.b PWR_WDOG_CTL PWR_WDOG_CTL_EN && !d.b wst PWR_WDOG_STATUS_PAUSED && !d.b wst PWR_WDOG_STATUS_EXPIRED && decide (d.power.kick + 50000000 ≤ d.beam);
      s.Inv ∧ due = false ∧ d.accessErr (q.val) PWR_WDOG_KICK 4 true = BErr.none ∧ d.b PWR_WDOG_CTL PWR_WDOG_CTL_EN = true ∧
          d.b wst PWR_WDOG_STATUS_EXPIRED = false) ∧
    (let s : State := st {wd.set1 PWR_WDOG_STATUS PWR_WDOG_STATUS_EXPIRED with power := {kick := 20000000}}; let q : Req := 8; let d : Dev := s.hw;
      let wst : Nat := PWR_WDOG_STATUS;
      let due : Bool := d.b PWR_WDOG_CTL PWR_WDOG_CTL_EN && !d.b wst PWR_WDOG_STATUS_PAUSED && !d.b wst PWR_WDOG_STATUS_EXPIRED && decide (d.power.kick + 50000000 ≤ d.beam);
      s.Inv ∧ due = false ∧ d.accessErr (q.val) PWR_WDOG_KICK 4 true = BErr.none ∧ d.b PWR_WDOG_CTL PWR_WDOG_CTL_EN = true ∧
          d.b wst PWR_WDOG_STATUS_EXPIRED = true) ∧
    (let s : State := st {on.setCore 8 {run := true} with diag := [(dkT 7 9, 7)]}; let d : Dev := s.hw;
      s.Inv ∧ d.managerUp = true) := by
  refine ⟨?_, ?_, ?_, ?_, ?_, ?_, ?_, ?_, ?_⟩ <;> dsimp only <;>
    (repeat' first | decide +kernel | exact inv_st _ (by decide +kernel) (by decide +kernel) | refine And.intro ?_ ?_)

end Gov

namespace Choz

def mk (cmd : Nat) (pl : List Nat) : Request := ⟨3, (((cmd * 2^20 + 0x5A * 2^12 + 4 * pl.length) :: pl) ++ List.replicate (15 - pl.length) 0).map (BitVec.ofNat 32), 0, none⟩
def up (d : Dev) : Dev := { d with cores := tabSet {} d.cores 8 { d.core 8 with run := true } }
def ask (d : Dev) (rq : Request) : Dev := { d with chozer := { d.chozer with reqs := [rq] } }

theorem test_witness_ChozerSystem :
    (let s : State := st (up on); let m : Fin 16 := 0; let d : Dev := s.hw; let q : Req := 0; let hdr : Word := 0x10203004;
      s.Inv ∧ d.accessErr (q.val) (MBX_REQ (m.val) 0) 4 true = BErr.none ∧ d.chozer.reqs = [] ∧ d.b (MBX_STATUS m.val) MBX_STATUS_BUSY = false ∧
          knownCmd (BitVec.toNat hdr / 2 ^ 20) = true) ∧
    (let s : State := st (up on); let m : Fin 16 := 0; let d : Dev := s.hw; let q : Req := 0; let hdr : Word := 0x90003004;
      s.Inv ∧ d.accessErr (q.val) (MBX_REQ (m.val) 0) 4 true = BErr.none ∧ d.chozer.reqs = [] ∧ d.b (MBX_STATUS m.val) MBX_STATUS_BUSY = false ∧
          knownCmd (BitVec.toNat hdr / 2 ^ 20) = false ∧ d.chozUp = true ∧ d.committing = false) ∧
    (let s : State := st ((up on).set1 (MBX_STATUS 3) MBX_STATUS_BUSY); let m : Fin 16 := 3; let d : Dev := s.hw; let q : Req := 0;
      s.Inv ∧ d.accessErr (q.val) (MBX_REQ (m.val) 0) 4 true = BErr.none ∧ d.chozer.reqs = [] ∧ d.b (MBX_STATUS m.val) MBX_STATUS_BUSY = true) ∧
    (let s : State := st (ask (up on) (mk 0x100 [])); let m : Fin 16 := 3; let rq : Request := mk 0x100 []; let d : Dev := s.hw;
      s.Inv ∧ rq.by m ∧ d.Asked rq 256 0) ∧
    (let s : State := st (ask (up on) (mk 0x101 [])); let m : Fin 16 := 3; let rq : Request := mk 0x101 []; let d : Dev := s.hw;
      s.Inv ∧ rq.by m ∧ d.Asked rq 257 0) ∧
    (let s : State := st (ask (up ((on.wf PWR_MODE PWR_MODE_MODE mSafe).set1 SGN_STATUS SGN_STATUS_READY)) (mk 0x102 [3])); let m : Fin 16 := 3;
      let rq : Request := mk 0x102 [3]; let d : Dev := s.hw; let v : Nat := rqw rq 1; let isl : Nat := v / 2 ^ 8 % 2 ^ 6; let all : Nat := d.present;
      let sel : Nat := if isl = 0 then all else isl;
      s.Inv ∧ rq.by m ∧ d.Asked rq 258 4 ∧ onlyBits v 16135 = true ∧ isl &&& all = isl ∧ v % 8 = mRun ∧ d.mode ≠ mHalt ∧ d.mayRun sel = true ∧
          d.applying = false ∧ (∀ (n : Isl), tabGet 0 d.fresh (PWR_SAFE_CAUSE ↑n) = 0)) ∧
    (let s : State := st (ask (up on) (mk 0x102 [3])); let m : Fin 16 := 3; let rq : Request := mk 0x102 [3]; let d : Dev := s.hw;
      let v : Nat := rqw rq 1; let isl : Nat := v / 2 ^ 8 % 2 ^ 6; let all : Nat := d.present; let sel : Nat := if isl = 0 then all else isl;
      s.Inv ∧ rq.by m ∧ d.Asked rq 258 4 ∧ onlyBits v 16135 = true ∧ isl &&& all = isl ∧ v % 8 = mRun ∧ d.mode ≠ mHalt ∧ d.mayRun sel = false) ∧
    (let s : State := st (ask (up on) (mk 0x102 [4])); let m : Fin 16 := 3; let rq : Request := mk 0x102 [4]; let d : Dev := s.hw;
      let v : Nat := rqw rq 1; let isl : Nat := v / 2 ^ 8 % 2 ^ 6; let all : Nat := d.present;
      s.Inv ∧ rq.by m ∧ d.Asked rq 258 4 ∧ onlyBits v 16135 = true ∧ isl &&& all = isl ∧ v % 8 = mSafe ∧ d.mode = mRun) ∧
    (let s : State := st (ask (up on) (mk 0x102 [2])); let m : Fin 16 := 3; let rq : Request := mk 0x102 [2]; let d : Dev := s.hw;
      let v : Nat := rqw rq 1; let isl : Nat := v / 2 ^ 8 % 2 ^ 6; let all : Nat := d.present;
      s.Inv ∧ rq.by m ∧ d.Asked rq 258 4 ∧ onlyBits v 16135 = true ∧ isl &&& all = isl ∧ v % 8 = mSetup ∧ (d.mode = mRun ∨ d.mode = mSafe)) ∧
    (let s : State := st (ask (up (on.wf PWR_MODE PWR_MODE_MODE mHalt)) (mk 0x102 [2])); let m : Fin 16 := 3; let rq : Request := mk 0x102 [2];
      let d : Dev := s.hw; let v : Nat := rqw rq 1; let isl : Nat := v / 2 ^ 8 % 2 ^ 6; let all : Nat := d.present;
      s.Inv ∧ rq.by m ∧ d.Asked rq 258 4 ∧ onlyBits v 16135 = true ∧ isl &&& all = isl ∧ 2 ≤ v % 8 ∧ v % 8 ≤ 4 ∧ d.mode = mHalt) ∧
    (let s : State := st (ask (up (on.wf PWR_MODE PWR_MODE_MODE mSetup)) (mk 0x103 [0x10004])); let m : Fin 16 := 3;
      let rq : Request := mk 0x103 [0x10004]; let d : Dev := s.hw; let v : Nat := rqw rq 1; let n : Isl := 1;
      s.Inv ∧ rq.by m ∧ d.Asked rq 259 4 ∧ onlyBits v 462847 = true ∧ v / 2 ^ 16 = n.val ∧ d.hasIsl n.val = true ∧ d.mode = mSetup) ∧
    (let s : State := st (ask (up on) (mk 0x103 [0x10004])); let m : Fin 16 := 3; let rq : Request := mk 0x103 [0x10004]; let d : Dev := s.hw;
      let v : Nat := rqw rq 1; let n : Isl := 1;
      s.Inv ∧ rq.by m ∧ d.Asked rq 259 4 ∧ onlyBits v 462847 = true ∧ v / 2 ^ 16 = n.val ∧ d.hasIsl n.val = true ∧ d.mode ≠ mSetup) ∧
    (let s : State := st (ask (up (on.wf PWR_MODE PWR_MODE_MODE mSetup)) (mk 0x104 [0x205])); let m : Fin 16 := 3;
      let rq : Request := mk 0x104 [0x205]; let d : Dev := s.hw; let v : Nat := rqw rq 1; let k : Fin 16 := 5;
      s.Inv ∧ rq.by m ∧ d.Asked rq 260 4 ∧ onlyBits v 1807 = true ∧ d.part.hasCore (v / 2 ^ 8) = true ∧ v % 16 = k.val ∧ d.mode = mSetup ∧
          d.b (MBX_STATUS k.val) MBX_STATUS_BUSY = false) ∧
    (let s : State := st (ask (up on) (mk 0x104 [0x205])); let m : Fin 16 := 3; let rq : Request := mk 0x104 [0x205]; let d : Dev := s.hw;
      let v : Nat := rqw rq 1; let k : Fin 16 := 5;
      s.Inv ∧ rq.by m ∧ d.Asked rq 260 4 ∧ onlyBits v 1807 = true ∧ d.part.hasCore (v / 2 ^ 8) = true ∧ v % 16 = k.val ∧ d.mode ≠ mSetup) ∧
    (let s : State := st (ask (up (on.wf PWR_MODE PWR_MODE_MODE mSetup)) (mk 0x105 [0])); let m : Fin 16 := 3; let rq : Request := mk 0x105 [0];
      let d : Dev := s.hw; let v : Nat := rqw rq 1; let c : Core := 0;
      s.Inv ∧ rq.by m ∧ d.Asked rq 261 4 ∧ v = c.val ∧ c ≠ 8 ∧ d.part.hasCore c.val = true ∧ (d.lockedUp c.val = true ∨ d.mode = mSetup) ∧
          d.bit PWR_BOOT (24 + c.val) = false) ∧
    (let s : State := st (ask (up on) (mk 0x105 [0])); let m : Fin 16 := 3; let rq : Request := mk 0x105 [0]; let d : Dev := s.hw;
      let v : Nat := rqw rq 1; let c : Core := 0;
      s.Inv ∧ rq.by m ∧ d.Asked rq 261 4 ∧ v = c.val ∧ c ≠ 8 ∧ d.part.hasCore c.val = true ∧ d.lockedUp c.val = false ∧ d.mode ≠ mSetup ∧
          nbit d.safeMask c.val = false) := by
  refine ⟨?_, ?_, ?_, ?_, ?_, ?_, ?_, ?_, ?_, ?_, ?_, ?_, ?_, ?_, ?_, ?_⟩ <;> dsimp only <;>
    (repeat' first | decide +kernel | exact inv_st _ (by decide +kernel) (by decide +kernel) | refine And.intro ?_ ?_ | refine Dev.Asked.mk ?_ ?_ ?_ ?_ ?_ ?_)

theorem test_witness_ChozerPowerAndDiag :
    (let s : State := st (ask (up on) (mk 0x200 [])); let m : Fin 16 := 3; let rq : Request := mk 0x200 []; let d : Dev := s.hw;
      s.Inv ∧ rq.by m ∧ d.Asked rq 512 0) ∧
    (let s : State := st (ask (up (on.wf PWR_MODE PWR_MODE_MODE mSetup)) (mk 0x201 [3])); let m : Fin 16 := 3; let rq : Request := mk 0x201 [3];
      let d : Dev := s.hw; let v : Nat := rqw rq 1; let k : Fin 124 := 3;
      s.Inv ∧ rq.by m ∧ d.Asked rq 513 4 ∧ onlyBits v 383 = true ∧ v % 128 = k.val ∧ switched k.val = true ∧ d.hasDomain k.val = true ∧
          d.domainServes k.val = false ∧ nbit v 8 = false) ∧
    (let s : State := st (ask (up ((on.wf PWR_MODE PWR_MODE_MODE mSetup).w (PWR_DOM 0) 0xFFFF)) (mk 0x201 [0x114])); let m : Fin 16 := 3;
      let rq : Request := mk 0x201 [0x114]; let d : Dev := s.hw; let v : Nat := rqw rq 1; let k : Fin 124 := 20; let good : Bool := true;
      s.Inv ∧ rq.by m ∧ d.Asked rq 513 4 ∧ onlyBits v 383 = true ∧ v % 128 = k.val ∧ switched k.val = true ∧ d.hasDomain k.val = true ∧
          d.domainServes k.val = false ∧ nbit v 8 = true ∧ d.powered k.val = false ∧ good = true) ∧
    (let s : State := st (ask (up (on.wf PWR_MODE PWR_MODE_MODE mSetup)) (mk 0x201 [0x103])); let m : Fin 16 := 3;
      let rq : Request := mk 0x201 [0x103]; let d : Dev := s.hw; let v : Nat := rqw rq 1; let k : Fin 124 := 3;
      s.Inv ∧ rq.by m ∧ d.Asked rq 513 4 ∧ onlyBits v 383 = true ∧ v % 128 = k.val ∧ switched k.val = true ∧ d.hasDomain k.val = true ∧
          d.domainServes k.val = false ∧ nbit v 8 = true ∧ d.powered k.val = true) ∧
    (let s : State := st (ask (up ((on.wf PWR_MODE PWR_MODE_MODE mSetup).w (PWR_DOM 0) 0xFFFF)) (mk 0x201 [0x114])); let m : Fin 16 := 3;
      let rq : Request := mk 0x201 [0x114]; let d : Dev := s.hw; let v : Nat := rqw rq 1; let k : Fin 124 := 20; let good : Bool := false;
      s.Inv ∧ rq.by m ∧ d.Asked rq 513 4 ∧ onlyBits v 383 = true ∧ v % 128 = k.val ∧ switched k.val = true ∧ d.hasDomain k.val = true ∧
          d.domainServes k.val = false ∧ nbit v 8 = true ∧ d.powered k.val = false ∧ good = false) ∧
    (let s : State := st (ask (up on) (mk 0x201 [3])); let m : Fin 16 := 3; let rq : Request := mk 0x201 [3]; let d : Dev := s.hw;
      let v : Nat := rqw rq 1; let k : Fin 124 := 3;
      s.Inv ∧ rq.by m ∧ d.Asked rq 513 4 ∧ onlyBits v 383 = true ∧ v % 128 = k.val ∧ switched k.val = true ∧ d.hasDomain k.val = true ∧
          d.domainServes k.val = true) ∧
    (let s : State := st (ask (up on) (mk 0x202 [0,0,0])); let m : Fin 16 := 3; let rq : Request := mk 0x202 [0,0,0]; let d : Dev := s.hw;
      let v : Nat := rqw rq 1;
      s.Inv ∧ rq.by m ∧ d.Asked rq 514 12 ∧ v = 0) ∧
    (let s : State := st (ask (up (on.wf PWR_MODE PWR_MODE_MODE mSetup)) (mk 0x202 [1,0x0A100107,0])); let m : Fin 16 := 3;
      let rq : Request := mk 0x202 [1,0x0A100107,0]; let d : Dev := s.hw; let v : Nat := rqw rq 1; let c : Nat := rqw rq 2;
      s.Inv ∧ rq.by m ∧ d.Asked rq 514 12 ∧ v = 1 ∧ onlyBits c 4294934279 = true ∧
          (c / 2 ^ 8 % 2 ^ 7 = d.f PWR_GOV_CTL PWR_GOV_CTL_PMB_ADDR ∨ d.mode = mSetup)) ∧
    (let s : State := st (ask (up on) (mk 0x202 [2,0,0x03000100])); let m : Fin 16 := 3; let rq : Request := mk 0x202 [2,0,0x03000100];
      let d : Dev := s.hw; let v : Nat := rqw rq 1; let l : Nat := rqw rq 3; let ceil : Nat := min (l / 2 ^ 16) 950;
      let floor : Nat := min 950 (max (if d.anyRun = true then 750 else 650) (l % 2 ^ 16));
      s.Inv ∧ rq.by m ∧ d.Asked rq 514 12 ∧ v = 2 ∧ onlyBits l 67044351 = true ∧ floor ≤ ceil) ∧
    (let s : State := st (ask (up on) (mk 0x202 [2,0,0x02000300])); let m : Fin 16 := 3; let rq : Request := mk 0x202 [2,0,0x02000300];
      let d : Dev := s.hw; let v : Nat := rqw rq 1; let l : Nat := rqw rq 3; let ceil : Nat := min (l / 2 ^ 16) 950;
      let floor : Nat := min 950 (max (if d.anyRun = true then 750 else 650) (l % 2 ^ 16));
      s.Inv ∧ rq.by m ∧ d.Asked rq 514 12 ∧ v = 2 ∧ onlyBits l 67044351 = true ∧ ceil < floor) ∧
    (let s : State := st (ask (up (on.wf PWR_MODE PWR_MODE_MODE mSetup)) (mk 0x203 [])); let m : Fin 16 := 3; let rq : Request := mk 0x203 [];
      let d : Dev := s.hw;
      s.Inv ∧ rq.by m ∧ d.Asked rq 515 0 ∧ (d.mode = mSetup ∨ d.mode = mSafe)) ∧
    (let s : State := st (ask (up on) (mk 0x203 [])); let m : Fin 16 := 3; let rq : Request := mk 0x203 []; let d : Dev := s.hw;
      s.Inv ∧ rq.by m ∧ d.Asked rq 515 0 ∧ d.mode ≠ mSetup ∧ d.mode ≠ mSafe) ∧
    (let s : State := st (ask (up on) (mk 0x700 [0x100])); let m : Fin 16 := 3; let rq : Request := mk 0x700 [0x100]; let d : Dev := s.hw;
      let v : Nat := rqw rq 1; let c : Fin 256 := 1; let i : Fin 256 := 0;
      s.Inv ∧ rq.by m ∧ d.Asked rq 1792 4 ∧ v = c.val * 256 + i.val ∧ diagKnown c.val i.val = true ∧ d.diagAbsent c.val i.val = false) ∧
    (let s : State := st { ask (up on) (mk 0x700 [0x105]) with part := .gvz1600 }; let m : Fin 16 := 3; let rq : Request := mk 0x700 [0x105];
      let d : Dev := s.hw; let v : Nat := rqw rq 1; let c : Fin 256 := 1; let i : Fin 256 := 5;
      s.Inv ∧ rq.by m ∧ d.Asked rq 1792 4 ∧ v = c.val * 256 + i.val ∧ diagKnown c.val i.val = true ∧ d.diagAbsent c.val i.val = true) ∧
    (let s : State := st (ask (up on) (mk 0x701 [ECC_CE_THR 0, 2])); let m : Fin 16 := 3; let rq : Request := mk 0x701 [ECC_CE_THR 0, 2];
      let d : Dev := s.hw; let v : Nat := rqw rq 1; let n : Fin 15 := 2;
      s.Inv ∧ rq.by m ∧ d.Asked rq 1793 8 ∧ rqw rq 2 = n.val ∧ 1 ≤ n.val ∧ v % 4 = 0 ∧ diagBlock v ≠ none ∧
          diagBlock v = diagBlock (v + 4 * (n.val - 1)) ∧ regsAt v n.val = true) ∧
    (let s : State := st (ask (up on) (mk 0x702 [ECC_CE_THR 2, 0x5A5A, 0x0FF0])); let m : Fin 16 := 3;
      let rq : Request := mk 0x702 [ECC_CE_THR 2, 0x5A5A, 0x0FF0]; let d : Dev := s.hw; let v : Nat := rqw rq 1; let k : Fin 16 := 2;
      let mask : Nat := rqw rq 3;
      s.Inv ∧ rq.by m ∧ d.Asked rq 1794 12 ∧ v = ECC_CE_THR k.val ∧ mask < 65536) ∧
    (let s : State := st (ask (up on) (mk 0x702 [ECC_CE_THR 2, 0x5A5A, 0x10FF0])); let m : Fin 16 := 3;
      let rq : Request := mk 0x702 [ECC_CE_THR 2, 0x5A5A, 0x10FF0]; let d : Dev := s.hw; let v : Nat := rqw rq 1; let k : Fin 16 := 2;
      let mask : Nat := rqw rq 3;
      s.Inv ∧ rq.by m ∧ d.Asked rq 1794 12 ∧ v = ECC_CE_THR k.val ∧ 65536 ≤ mask ∧ mask < 2 ^ 32) := by
  refine ⟨?_, ?_, ?_, ?_, ?_, ?_, ?_, ?_, ?_, ?_, ?_, ?_, ?_, ?_, ?_, ?_, ?_⟩ <;> dsimp only <;>
    (repeat' first | decide +kernel | exact inv_st _ (by decide +kernel) (by decide +kernel) | refine And.intro ?_ ?_ | refine Dev.Asked.mk ?_ ?_ ?_ ?_ ?_ ?_)

end Choz

namespace Ldg

def mk (cmd : Nat) (pl : List Nat) (len : Nat := 4 * pl.length) : Request := ⟨3, (((cmd * 2^20 + 0x5A * 2^12 + len) :: pl) ++ List.replicate (15 - pl.length) 0).map (BitVec.ofNat 32), 0, none⟩
def top : Nat := 253952
def dat : List Nat := (List.range 12).map fun k => 0x01020304 * (k+1)
def up (d : Dev) : Dev := { d with cores := tabSet {} d.cores 8 { d.core 8 with run := true } }
def L0 : LedgerH := { recs := [(5,{type := 1, data := (List.range 64).map (BitVec.ofNat 8), version := 0x5000000012, slot := some 1, minInt := 100, last := some 7}), (6,{type:=2, minInt := 50}), (7,{type := 3, group := 7, gcount := 2})], slots := [(1,{seq := 0x5000000012, n:=1, kind := 1, record := 5, writes := 3})] }
def base (d : Dev) : Dev := up ((((((d.set1 SGN_STATUS SGN_STATUS_READY).w SGN_HUP_C 3000).wf SGN_HUP_V SGN_HUP_V_V 5000).w SGN_BUCKET 1000).w SGN_SEQ_LO 0x12).w SGN_SEQ_HI 0x50)
def L (d : Dev) (l : LedgerH) : Dev := { d with ledger := l }
def b0 : Dev := { base on with beam := 100000000 }
def low (d : Dev) : Dev := d.w SGN_HUP_C 1
def held : List LedgerH := [L0, {L0 with held := [(0,⟨[],[]⟩)]}, {L0 with held := [(0,⟨[],[{ rec_ := 5, op := 1, k := 3, val := 9 }]⟩)]}, {L0 with held := [(0,⟨[],[{ rec_ := 5, op := 1, k := 3, val := 9 },{rec_ := 7, op := 4, bytes := List.replicate 32 3}]⟩)]}, {L0 with held := [(0,⟨[], List.replicate 256 { rec_ := 5, op := 1, k := 3, val := 9 }⟩)]}, {L0 with log0 := [(0, {rec_ := 7, op := 4, bytes := List.replicate 32 3})]}, {L0 with lg := [5]}, {L0 with lg := [5,6], buf := [(5,List.replicate 64 1)]}, {L0 with cache := [⟨[3],[{ rec_ := 5, op := 1, k := 3, val := 9 }]⟩, ⟨[4],[{rec_ := 6, op := 3, val := 255, bytes := List.replicate 64 9}]⟩]}, {L0 with recs := [], test := 1}]
def ask (d : Dev) (rq : Request) : Dev := { d with chozer := { d.chozer with reqs := [rq] } }

theorem test_witness_LedgerCommands :
    (let s : State := st (ask (L b0 L0) (mk 0x300 [])); let m : Fin 16 := 3; let rq : Request := mk 0x300 []; let d : Dev := s.hw;
      let o : Nat := d.f (MBX_OWNER m.val) MBX_OWNER_OWNER;
      s.Inv ∧ rq.by m ∧ d.Asked rq 768 0 ∧ d.holdsAny o = false) ∧
    (let s : State := st (ask (L b0 {L0 with held := [(0,⟨[],[]⟩)]}) (mk 0x300 [])); let m : Fin 16 := 3; let rq : Request := mk 0x300 [];
      let d : Dev := s.hw; let o : Nat := d.f (MBX_OWNER m.val) MBX_OWNER_OWNER;
      s.Inv ∧ rq.by m ∧ d.Asked rq 768 0 ∧ d.holdsAny o = true) ∧
    (let s : State := st (ask (L b0 {L0 with held := [(0,⟨[],[]⟩)]}) (mk 0x301 [5,1,0xAB,0,0])); let m : Fin 16 := 3;
      let rq : Request := mk 0x301 [5,1,0xAB,0,0]; let d : Dev := s.hw; let r : Nat := rqw rq 1; let v : Nat := rqw rq 2;
      let o : Nat := d.f (MBX_OWNER m.val) MBX_OWNER_OWNER; let top : Nat := d.part.records - 8192; let cl : LClasp := ⟨[],[]⟩;
      s.Inv ∧ rq.by m ∧ d.Asked rq 769 20 ∧ onlyBits v 4294902015 = true ∧ v % 256 ≤ 3 ∧ r < 262144 ∧ rqw rq 4 < 262144 ∧ rqw rq 5 < 8192 ∧
          (v % 256 = 3 → rqw rq 5 ≠ 0 ∧ rqw rq 5 ≤ 4096 ∧ rqw rq 4 + rqw rq 5 ≤ top) ∧ r < top ∧ d.ldgHeld o = some cl ∧ cl.writes.length < 256) ∧
    (let s : State := st (ask (L b0 L0) (mk 0x301 [5,1,0xAB,0,0])); let m : Fin 16 := 3; let rq : Request := mk 0x301 [5,1,0xAB,0,0];
      let d : Dev := s.hw; let r : Nat := rqw rq 1; let v : Nat := rqw rq 2; let o : Nat := d.f (MBX_OWNER m.val) MBX_OWNER_OWNER;
      let top : Nat := d.part.records - 8192;
      let ready : LClasp → Prop := fun (c : LClasp) => d.engineFree = true ∧ d.b SGN_STATUS SGN_STATUS_DEVICE_WORN = false ∧
        (d.ledger.cache.all fun (x : LClasp) => !sharesRec c x) = true;
      let w : LWrite := { rec_ := r, val := v, layout := rqw rq 3, group := rqw rq 4, gcount := rqw rq 5 };
      s.Inv ∧ rq.by m ∧ d.Asked rq 769 20 ∧ onlyBits v 4294902015 = true ∧ v % 256 ≤ 3 ∧ r < 262144 ∧ rqw rq 4 < 262144 ∧ rqw rq 5 < 8192 ∧
          (v % 256 = 3 → rqw rq 5 ≠ 0 ∧ rqw rq 5 ≤ 4096 ∧ rqw rq 4 + rqw rq 5 ≤ top) ∧ r < top ∧ d.ldgHeld o = none ∧
          ready { origins := [m.val], writes := [w] } ∧ d.claspDue { origins := [m.val], writes := [w] } = true ∧ d.hupEnough 1 = true) ∧
    (let s : State := st (ask (L b0 L0) (mk 0x301 [top,1,0,0,0])); let m : Fin 16 := 3; let rq : Request := mk 0x301 [top,1,0,0,0];
      let d : Dev := s.hw; let r : Nat := rqw rq 1; let v : Nat := rqw rq 2; let top : Nat := d.part.records - 8192;
      s.Inv ∧ rq.by m ∧ d.Asked rq 769 20 ∧ onlyBits v 4294902015 = true ∧ v % 256 ≤ 3 ∧ r < 262144 ∧ rqw rq 4 < 262144 ∧ rqw rq 5 < 8192 ∧
          (v % 256 = 3 → rqw rq 5 ≠ 0 ∧ rqw rq 5 ≤ 4096 ∧ rqw rq 4 + rqw rq 5 ≤ top) ∧ top ≤ r ∧ r < d.part.records) ∧
    (let s : State := st { ask b0 (mk 0x301 [0x9000,1,0xAB,0,0]) with part := .gvz1600 }; let m : Fin 16 := 3;
      let rq : Request := mk 0x301 [0x9000,1,0xAB,0,0]; let d : Dev := s.hw; let r : Nat := rqw rq 1; let v : Nat := rqw rq 2;
      let top : Nat := d.part.records - 8192;
      s.Inv ∧ rq.by m ∧ d.Asked rq 769 20 ∧ onlyBits v 4294902015 = true ∧ v % 256 ≤ 3 ∧ r < 262144 ∧ rqw rq 4 < 262144 ∧ rqw rq 5 < 8192 ∧
          (v % 256 = 3 → rqw rq 5 ≠ 0 ∧ rqw rq 5 ≤ 4096 ∧ rqw rq 4 + rqw rq 5 ≤ top) ∧ d.part.records ≤ r) ∧
    (let s : State := st (ask (L b0 {L0 with held := [(0,⟨[],[]⟩)]}) (mk 0x302 [5,0x10030000,77,1])); let m : Fin 16 := 3;
      let rq : Request := mk 0x302 [5,0x10030000,77,1]; let d : Dev := s.hw; let r : Nat := rqw rq 1; let v : Nat := rqw rq 2;
      let o : Nat := d.f (MBX_OWNER m.val) MBX_OWNER_OWNER; let top : Nat := d.part.records - 8192; let k : Fin 8 := 3; let cl : LClasp := ⟨[],[]⟩;
      s.Inv ∧ rq.by m ∧ r < top ∧ d.ldgHeld o = some cl ∧ d.typeIn cl.writes r = 1 ∧ cl.writes.length < 256 ∧ d.Asked rq 770 16 ∧
          v = 268435456 + k.val * 65536) ∧
    (let s : State := st (ask (L b0 {L0 with held := [(0,⟨[],[]⟩)]}) (mk 0x302 [5,0x20030000,0xFFFFFFFF,0xFFFFFFFF])); let m : Fin 16 := 3;
      let rq : Request := mk 0x302 [5,0x20030000,0xFFFFFFFF,0xFFFFFFFF]; let d : Dev := s.hw; let r : Nat := rqw rq 1; let v : Nat := rqw rq 2;
      let o : Nat := d.f (MBX_OWNER m.val) MBX_OWNER_OWNER; let top : Nat := d.part.records - 8192; let k : Fin 8 := 3; let cl : LClasp := ⟨[],[]⟩;
      s.Inv ∧ rq.by m ∧ r < top ∧ d.ldgHeld o = some cl ∧ d.typeIn cl.writes r = 1 ∧ cl.writes.length < 256 ∧ d.Asked rq 770 16 ∧
          v = 536870912 + k.val * 65536) ∧
    (let s : State := st (ask (L b0 {L0 with held := [(0,⟨[],[]⟩)]}) (mk 0x302 ([6,0x30000405] ++ dat) 13)); let m : Fin 16 := 3;
      let rq : Request := mk 0x302 ([6,0x30000405] ++ dat) 13; let d : Dev := s.hw; let r : Nat := rqw rq 1; let v : Nat := rqw rq 2;
      let o : Nat := d.f (MBX_OWNER m.val) MBX_OWNER_OWNER; let top : Nat := d.part.records - 8192; let cl : LClasp := ⟨[],[]⟩; let n : Fin 64 := 5;
      let off : Fin 64 := 4;
      s.Inv ∧ rq.by m ∧ r < top ∧ d.ldgHeld o = some cl ∧ d.typeIn cl.writes r = 2 ∧ cl.writes.length < 256 ∧ 1 ≤ n.val ∧ n ≤ 48 ∧
          off.val + n.val ≤ 64 ∧ d.Asked rq 770 (8 + n.val) ∧ v = 805306368 + off.val * 256 + n.val) ∧
    (let s : State := st (ask (L b0 {L0 with held := [(0,⟨[],[{ rec_ := 5, op := 1, k := 3, val := 9 },{rec_ := 7, op := 4, bytes := List.replicate 32 3}]⟩)]}) (mk 0x302 ([7,0x50000000]++dat) 40)); let m : Fin 16 := 3; let rq : Request := mk 0x302 ([7,0x50000000]++dat) 40; let d : Dev := s.hw; let r : Nat := rqw rq 1; let v : Nat := rqw rq 2; let o : Nat := d.f (MBX_OWNER m.val) MBX_OWNER_OWNER; let top : Nat := d.part.records - 8192; let cl : LClasp := ⟨[],[{ rec_ := 5, op := 1, k := 3, val := 9 },{rec_ := 7, op := 4, bytes := List.replicate 32 3}]⟩; let ws : List LWrite := [{ rec_ := 5, op := 1, k := 3, val := 9, layout := 0, group := 0, gcount := 0, bytes := [] }]; let x : LWrite := {rec_ := 7, op := 4, bytes := List.replicate 32 3};
      s.Inv ∧ rq.by m ∧ r < top ∧ d.ldgHeld o = some cl ∧ d.typeIn cl.writes r = 3 ∧ d.Asked rq 770 40 ∧ v = 1342177280 ∧ cl.writes = ws ++ [x] ∧
          ((ws.all fun (y : LWrite) => y.rec_ != r) = true) ∧ x = { rec_ := r, op := 4, bytes := x.bytes } ∧ cl.writes.length ≤ 256) ∧
    (let s : State := st (ask (L b0 {L0 with held := [(0,⟨[], List.replicate 256 { rec_ := 5, op := 1, k := 3, val := 9 }⟩)]}) (mk 0x302 [5,0x10030000,77,1])); let m : Fin 16 := 3; let rq : Request := mk 0x302 [5,0x10030000,77,1]; let d : Dev := s.hw; let r : Nat := rqw rq 1; let v : Nat := rqw rq 2; let o : Nat := d.f (MBX_OWNER m.val) MBX_OWNER_OWNER; let top : Nat := d.part.records - 8192; let k : Fin 8 := 3; let cl : LClasp := ⟨[], List.replicate 256 { rec_ := 5, op := 1, k := 3, val := 9 }⟩;
      s.Inv ∧ rq.by m ∧ r < top ∧ d.ldgHeld o = some cl ∧ d.typeIn cl.writes r = 1 ∧ cl.writes.length = 256 ∧ d.Asked rq 770 16 ∧
          v = 268435456 + k.val * 65536) ∧
    (let s : State := st (ask (L b0 L0) (mk 0x302 [5,0x10030000,77,1])); let m : Fin 16 := 3; let rq : Request := mk 0x302 [5,0x10030000,77,1];
      let d : Dev := s.hw; let r : Nat := rqw rq 1; let v : Nat := rqw rq 2; let o : Nat := d.f (MBX_OWNER m.val) MBX_OWNER_OWNER;
      let top : Nat := d.part.records - 8192;
      let ready : LClasp → Prop := fun (c : LClasp) => d.engineFree = true ∧ d.b SGN_STATUS SGN_STATUS_DEVICE_WORN = false ∧
        (d.ledger.cache.all fun (x : LClasp) => !sharesRec c x) = true; let k : Fin 8 := 3;
      let c : LClasp := { origins := [m.val], writes := [{ rec_ := r, op := 1, k := k.val, val := rqw rq 3 + rqw rq 4 * 2 ^ 32 }] };
      s.Inv ∧ rq.by m ∧ r < top ∧ d.ldgHeld o = none ∧ d.Asked rq 770 16 ∧ v = 268435456 + k.val * 65536 ∧ (d.lrec r).type = 1 ∧ ready c ∧
          d.claspDue c = true ∧ d.hupEnough 1 = true) ∧
    (let s : State := st (ask (L b0 L0) (mk 0x302 ([7,0x40000000]++dat) 40)); let m : Fin 16 := 3;
      let rq : Request := mk 0x302 ([7,0x40000000]++dat) 40; let d : Dev := s.hw; let r : Nat := rqw rq 1; let v : Nat := rqw rq 2;
      let o : Nat := d.f (MBX_OWNER m.val) MBX_OWNER_OWNER; let top : Nat := d.part.records - 8192;
      s.Inv ∧ rq.by m ∧ r < top ∧ d.ldgHeld o = none ∧ d.Asked rq 770 40 ∧ v = 1073741824 ∧ (d.lrec r).type = 3) ∧
    (let s : State := st (ask (L b0 {L0 with log0 := [(0, {rec_ := 7, op := 4, bytes := List.replicate 32 3})]}) (mk 0x302 ([7,0x50000000]++dat) 40)); let m : Fin 16 := 3; let rq : Request := mk 0x302 ([7,0x50000000]++dat) 40; let d : Dev := s.hw; let r : Nat := rqw rq 1; let v : Nat := rqw rq 2; let o : Nat := d.f (MBX_OWNER m.val) MBX_OWNER_OWNER; let top : Nat := d.part.records - 8192; let ready : LClasp → Prop := fun (c : LClasp) => d.engineFree = true ∧ d.b SGN_STATUS SGN_STATUS_DEVICE_WORN = false ∧ (d.ledger.cache.all fun (x : LClasp) => !sharesRec c x) = true; let x : LWrite := {rec_ := 7, op := 4, bytes := List.replicate 32 3}; let c : LClasp := { origins := [m.val], writes := [{ rec_ := r, op := 6, bytes := x.bytes ++ rqBytes rq 32 }] };
      s.Inv ∧ rq.by m ∧ r < top ∧ d.ldgHeld o = none ∧ d.Asked rq 770 40 ∧ v = 1342177280 ∧ (d.lrec r).type = 3 ∧ tabFind d.ledger.log0 o = some x ∧
          x.rec_ = r ∧ ready c ∧ d.queued r = [] ∧ d.claspDue c = true ∧ d.hupEnough (d.slotWrites c) = true) ∧
    (let s : State := st (ask (L b0 {L0 with held := [(0,⟨[],[]⟩)]}) (mk 0x303 [])); let m : Fin 16 := 3; let rq : Request := mk 0x303 [];
      let d : Dev := s.hw; let o : Nat := d.f (MBX_OWNER m.val) MBX_OWNER_OWNER;
      let ready : LClasp → Prop := fun (c : LClasp) => d.engineFree = true ∧ d.b SGN_STATUS SGN_STATUS_DEVICE_WORN = false ∧
        (d.ledger.cache.all fun (x : LClasp) => !sharesRec c x) = true; let cl : LClasp := ⟨[],[]⟩;
      let c : LClasp := { origins := [m.val], writes := normWrites cl.writes };
      s.Inv ∧ rq.by m ∧ d.Asked rq 771 0 ∧ d.ldgHeld o = some cl ∧ ((cl.writes.all fun (w : LWrite) => decide (w.op < 4)) = true) ∧ ready c ∧
          d.claspDue c = true ∧ d.hupEnough (d.slotWrites c) = true) ∧
    (let s : State := st (ask (L (low b0) {L0 with held := [(0,⟨[],[]⟩)]}) (mk 0x303 [])); let m : Fin 16 := 3; let rq : Request := mk 0x303 [];
      let d : Dev := s.hw; let o : Nat := d.f (MBX_OWNER m.val) MBX_OWNER_OWNER;
      let ready : LClasp → Prop := fun (c : LClasp) => d.engineFree = true ∧ d.b SGN_STATUS SGN_STATUS_DEVICE_WORN = false ∧
        (d.ledger.cache.all fun (x : LClasp) => !sharesRec c x) = true; let cl : LClasp := ⟨[],[]⟩;
      let c : LClasp := { origins := [m.val], writes := normWrites cl.writes };
      s.Inv ∧ rq.by m ∧ d.Asked rq 771 0 ∧ d.ldgHeld o = some cl ∧ ((cl.writes.all fun (w : LWrite) => decide (w.op < 4)) = true) ∧ ready c ∧
          d.claspDue c = true ∧ d.hupEnough (d.slotWrites c) = false) ∧
    (let s : State := st (ask (L {b0 with beam := 500} {L0 with held := [(0,⟨[],[{ rec_ := 5, op := 1, k := 3, val := 9 }]⟩)]}) (mk 0x303 []));
      let m : Fin 16 := 3; let rq : Request := mk 0x303 []; let d : Dev := s.hw; let o : Nat := d.f (MBX_OWNER m.val) MBX_OWNER_OWNER;
      let ready : LClasp → Prop := fun (c : LClasp) => d.engineFree = true ∧ d.b SGN_STATUS SGN_STATUS_DEVICE_WORN = false ∧
        (d.ledger.cache.all fun (x : LClasp) => !sharesRec c x) = true; let cl : LClasp := ⟨[],[{ rec_ := 5, op := 1, k := 3, val := 9 }]⟩;
      let c : LClasp := { origins := [m.val], writes := normWrites cl.writes };
      s.Inv ∧ rq.by m ∧ d.Asked rq 771 0 ∧ d.ldgHeld o = some cl ∧ ((cl.writes.all fun (w : LWrite) => decide (w.op < 4)) = true) ∧ ready c ∧
          d.claspDue c = false ∧ (List.foldl (fun (n : Nat) (x : LClasp) => n + x.writes.length) 0 (d.ledger.cache ++ [c]) ≤ 1024)) ∧
    (let s : State := st (ask (L b0 {L0 with held := [(0,⟨[],[{ rec_ := 5, op := 1, k := 3, val := 9 },{rec_ := 7, op := 4, bytes := List.replicate 32 3}]⟩)]}) (mk 0x303 [])); let m : Fin 16 := 3; let rq : Request := mk 0x303 []; let d : Dev := s.hw; let o : Nat := d.f (MBX_OWNER m.val) MBX_OWNER_OWNER; let cl : LClasp := ⟨[],[{ rec_ := 5, op := 1, k := 3, val := 9 },{rec_ := 7, op := 4, bytes := List.replicate 32 3}]⟩;
      s.Inv ∧ rq.by m ∧ d.Asked rq 771 0 ∧ d.ldgHeld o = some cl ∧ ((cl.writes.any fun (w : LWrite) => decide (w.op = 4)) = true)) ∧
    (let s : State := st (ask (L b0 L0) (mk 0x303 [])); let m : Fin 16 := 3; let rq : Request := mk 0x303 []; let d : Dev := s.hw;
      let o : Nat := d.f (MBX_OWNER m.val) MBX_OWNER_OWNER;
      s.Inv ∧ rq.by m ∧ d.Asked rq 771 0 ∧ d.ldgHeld o = none) ∧
    (let s : State := st (ask (L b0 L0) (mk 0x304 [])); let m : Fin 16 := 3; let rq : Request := mk 0x304 []; let d : Dev := s.hw;
      s.Inv ∧ rq.by m ∧ d.Asked rq 772 0) ∧
    (let s : State := st (ask (L (b0.wf PWR_MODE PWR_MODE_MODE mSetup) L0) (mk 0x305 [0x100,5])); let m : Fin 16 := 3;
      let rq : Request := mk 0x305 [0x100,5]; let d : Dev := s.hw; let r : Nat := rqw rq 1; let top : Nat := d.part.records - 8192;
      let n : Fin 14 := 1; let rs : List Nat := List.map (fun (i : Nat) => rqw rq (2 + i)) (List.range n.val); let act : Fin 3 := 0;
      s.Inv ∧ rq.by m ∧ d.Asked rq 773 (4 + 4 * n.val) ∧ r = act.val + n.val * 256 ∧ ((rs.all fun (k : Nat) => decide (k < top)) = true) ∧
          ((rs.all fun (k : Nat) => (d.lrec k).type != 0) = true) ∧ d.ledger.lg.length + n.val ≤ 128 ∧ d.mode = mSetup) ∧
    (let s : State := st (ask (L b0 L0) (mk 0x305 [0x100,5])); let m : Fin 16 := 3; let rq : Request := mk 0x305 [0x100,5]; let d : Dev := s.hw;
      let r : Nat := rqw rq 1; let top : Nat := d.part.records - 8192; let n : Fin 14 := 1;
      let rs : List Nat := List.map (fun (i : Nat) => rqw rq (2 + i)) (List.range n.val); let act : Fin 3 := 0;
      s.Inv ∧ rq.by m ∧ d.Asked rq 773 (4 + 4 * n.val) ∧ r = act.val + n.val * 256 ∧ ((rs.all fun (k : Nat) => decide (k < top)) = true) ∧
          ((rs.all fun (k : Nat) => (d.lrec k).type != 0) = true) ∧ d.ledger.lg.length + n.val ≤ 128 ∧ d.mode ≠ mSetup) ∧
    (let s : State := st (ask (L b0 L0) (mk 0x306 [5,0x10030000,77,1])); let m : Fin 16 := 3; let rq : Request := mk 0x306 [5,0x10030000,77,1];
      let d : Dev := s.hw; let r : Nat := rqw rq 1; let v : Nat := rqw rq 2; let top : Nat := d.part.records - 8192; let k : Fin 8 := 3;
      s.Inv ∧ rq.by m ∧ d.Asked rq 774 16 ∧ v = 268435456 + k.val * 65536 ∧ r < top ∧ (d.lrec r).type = 1) ∧
    (let s : State := st (ask (L b0 L0) (mk 0x306 [5,0x10030000,77,1])); let m : Fin 16 := 3; let rq : Request := mk 0x306 [5,0x10030000,77,1];
      let d : Dev := s.hw; let r : Nat := rqw rq 1; let v : Nat := rqw rq 2; let top : Nat := d.part.records - 8192; let k : Fin 8 := 3;
      s.Inv ∧ rq.by m ∧ d.Asked rq 774 16 ∧ v = 268435456 + k.val * 65536 ∧ r < top ∧ ¬r ∈ d.ledger.lg) ∧
    (let s : State := st (ask (L b0 L0) (mk 0x307 [5,0])); let m : Fin 16 := 3; let rq : Request := mk 0x307 [5,0]; let d : Dev := s.hw;
      let r : Nat := rqw rq 1; let v : Nat := rqw rq 2; let top : Nat := d.part.records - 8192; let ue : Bool := false;
      s.Inv ∧ rq.by m ∧ d.Asked rq 775 8 ∧ v ≤ 1 ∧ r < top ∧ (ue = false ∨ (d.lrec r).slot = none) ∧ (d.lrec r).damaged = false) ∧
    (let s : State := st (ask (L b0 L0) (mk 0x307 [5,0])); let m : Fin 16 := 3; let rq : Request := mk 0x307 [5,0]; let d : Dev := s.hw;
      let r : Nat := rqw rq 1; let v : Nat := rqw rq 2; let top : Nat := d.part.records - 8192; let k : Nat := 1;
      s.Inv ∧ rq.by m ∧ d.Asked rq 775 8 ∧ v ≤ 1 ∧ r < top ∧ (d.lrec r).slot = some k ∧ d.versions r = [(k, d.slot k)]) ∧
    (let s : State := st (ask (L b0 L0) (mk 0x307 [top,1])); let m : Fin 16 := 3; let rq : Request := mk 0x307 [top,1]; let d : Dev := s.hw;
      let r : Nat := rqw rq 1; let v : Nat := rqw rq 2; let top : Nat := d.part.records - 8192;
      s.Inv ∧ rq.by m ∧ d.Asked rq 775 8 ∧ v ≤ 1 ∧ top ≤ r ∧ r < d.part.records) ∧
    (let s : State := st (ask (L b0 L0) (mk 0x308 [])); let m : Fin 16 := 3; let rq : Request := mk 0x308 []; let d : Dev := s.hw;
      s.Inv ∧ rq.by m ∧ d.Asked rq 776 0) := by
  refine ⟨?_, ?_, ?_, ?_, ?_, ?_, ?_, ?_, ?_, ?_, ?_, ?_, ?_, ?_, ?_, ?_, ?_, ?_, ?_, ?_, ?_, ?_, ?_, ?_, ?_, ?_, ?_, ?_⟩ <;> dsimp only <;>
    (repeat' first | decide +kernel | exact inv_st _ (by decide +kernel) (by decide +kernel) | refine And.intro ?_ ?_ | refine Dev.Asked.mk ?_ ?_ ?_ ?_ ?_ ?_)

end Ldg

namespace LdgEngine

def mk (cmd : Nat) (pl : List Nat) (len : Nat := 4 * pl.length) : Request := ⟨3, (((cmd * 2^20 + 0x5A * 2^12 + len) :: pl) ++ List.replicate (15 - pl.length) 0).map (BitVec.ofNat 32), 0, none⟩
def up (d : Dev) : Dev := { d with cores := tabSet {} d.cores 8 { d.core 8 with run := true } }
def L0 : LedgerH := { recs := [(5,{type := 1, data := (List.range 64).map (BitVec.ofNat 8), version := 0x5000000012, slot := some 1, minInt := 100, last := some 7}), (6,{type:=2, minInt := 50}), (7,{type := 3, group := 7, gcount := 2})], slots := [(1,{seq := 0x5000000012, n:=1, kind := 1, record := 5, writes := 3})] }
def base (d : Dev) : Dev := up ((((((d.set1 SGN_STATUS SGN_STATUS_READY).w SGN_HUP_C 3000).wf SGN_HUP_V SGN_HUP_V_V 5000).w SGN_BUCKET 1000).w SGN_SEQ_LO 0x12).w SGN_SEQ_HI 0x50)
def L (d : Dev) (l : LedgerH) : Dev := { d with ledger := l }
def b0 : Dev := { base on with beam := 100000000 }
def low (d : Dev) : Dev := d.w SGN_HUP_C 1
def ask (d : Dev) (rq : Request) : Dev := { d with chozer := { d.chozer with reqs := [rq] } }

theorem slots_fresh (d : Dev) (x : Nat) (e : d.ledger.slots = L0.slots) (h : 4 < x) : ∀ k : Nat, (d.slot k).writes + 1 < x := by
  intro k; unfold Dev.slot; rw [e]; by_cases hk : k = 1
  · subst hk; simp [L0, tabGet, tabFind]; omega
  · have : (1 : Nat) ≠ k := fun e => hk e.symm
    simp [L0, tabGet, tabFind, this]; omega

theorem test_witness_LedgerEngine :
    (let s : State := st (L (ask b0 (mk 0x302 [5,0x10030000,77,1])) {L0 with active := some (⟨[3],[{ rec_ := 5, op := 1, k := 3, val := 9 }]⟩, false)}); let d : Dev := s.hw; let next : Nat := (d.seq + 1) % 2 ^ 48; let fresh : Prop := (d.leastFree next).isSome = true ∧ d.ledger.moveW < 16 ∧ (∀ (k : Nat), (d.slot k).writes + 1 < BitVec.toNat (d.r SGN_WEAR_LIMIT)) ∧ (List.all d.ledger.slots fun (e : Nat × Slot) => !e.snd.bad) = true; let m : Fin 16 := 3; let rq : Request := mk 0x302 [5,0x10030000,77,1]; let w : LWrite := { rec_ := 5, op := 1, k := 3, val := 9 };
      s.Inv ∧ rq.by m ∧ d.chozer.reqs = [rq] ∧ d.chozUp = true ∧ rqw rq 0 / 2 ^ 20 = 770 ∧
          d.ledger.active = some ({ origins := [m.val], writes := [w] }, false) ∧ 1 ≤ w.op ∧ w.op ≤ 3 ∧ fresh) ∧
    (let s : State := st (L b0 {L0 with cache := [⟨[3],[{ rec_ := 5, op := 1, k := 3, val := 9 }]⟩]}); let d : Dev := s.hw; let i : Nat := 0;
      let c : LClasp := ⟨[3],[{ rec_ := 5, op := 1, k := 3, val := 9 }]⟩;
      s.Inv ∧ d.waitingClasps[i]? = some c ∧ d.engineFree = true ∧ d.ledger.retryAt ≤ d.beam ∧ d.b SGN_STATUS SGN_STATUS_DEVICE_WORN = false ∧
          d.claspDue c = true ∧ d.hupEnough (d.slotWrites c) = true ∧ i = 0) ∧
    (let s : State := st (L (low b0) {L0 with cache := [⟨[3],[{ rec_ := 5, op := 1, k := 3, val := 9 }]⟩]}); let d : Dev := s.hw; let i : Nat := 0;
      let c : LClasp := ⟨[3],[{ rec_ := 5, op := 1, k := 3, val := 9 }]⟩;
      s.Inv ∧ d.waitingClasps[i]? = some c ∧ d.engineFree = true ∧ d.ledger.retryAt ≤ d.beam ∧ d.b SGN_STATUS SGN_STATUS_DEVICE_WORN = false ∧
          d.claspDue c = true ∧ d.hupEnough (d.slotWrites c) = false ∧ i = 0) ∧
    (let s : State := st (L {b0 with beam := 500} {L0 with cache := [⟨[3],[{ rec_ := 5, op := 1, k := 3, val := 9 }]⟩]}); let d : Dev := s.hw;
      let i : Nat := 0; let c : LClasp := ⟨[3],[{ rec_ := 5, op := 1, k := 3, val := 9 }]⟩;
      s.Inv ∧ d.waitingClasps[i]? = some c ∧ d.engineFree = true ∧ d.ledger.retryAt ≤ d.beam ∧ d.b SGN_STATUS SGN_STATUS_DEVICE_WORN = false ∧
          d.claspDue c = false) ∧
    (let s : State := st (L (ask b0 (mk 0x302 [5,0x10030000,77,1])) {L0 with active := some (⟨[3],[{ rec_ := 5, op := 1, k := 3, val := 9 }]⟩, false)}); let d : Dev := s.hw; let next : Nat := (d.seq + 1) % 2 ^ 48; let fresh : Prop := (d.leastFree next).isSome = true ∧ d.ledger.moveW < 16 ∧ (∀ (k : Nat), (d.slot k).writes + 1 < BitVec.toNat (d.r SGN_WEAR_LIMIT)) ∧ (List.all d.ledger.slots fun (e : Nat × Slot) => !e.snd.bad) = true; let r : Fin 262144 := 5;
      s.Inv ∧ (d.lrec r.val).slot.isSome = true ∧ d.b SGN_STATUS SGN_STATUS_READY = true ∧ fresh) ∧
    (let s : State := st (L (ask b0 (mk 0x302 [5,0x10030000,77,1])) {L0 with active := some (⟨[3],[{ rec_ := 5, op := 1, k := 3, val := 9 }]⟩, false)}); let d : Dev := s.hw; let q : Req := 0; let r : Fin 262144 := 5; let i : Fin 16 := 3;
      s.Inv ∧ d.b SGN_STATUS SGN_STATUS_READY = true ∧ d.accessErr (q.val) (1610612736 + r.val * 64 + i.val * 4) 4 false = BErr.none ∧
          (d.lrec r.val).damaged = false) ∧
    (let s : State := st (L (ask b0 (mk 0x302 [5,0x10030000,77,1])) {L0 with active := some (⟨[3],[{ rec_ := 5, op := 1, k := 3, val := 9 }]⟩, false)}); let d : Dev := s.hw; let q : Req := 0; let r : Fin 262144 := 5; let i : Fin 16 := 3;
      s.Inv ∧ d.b SGN_STATUS SGN_STATUS_READY = true ∧ d.accessErr (q.val) (1627389952 + r.val * 64 + i.val * 4) 4 false = BErr.none ∧
          r.val < d.part.records - 8192) ∧
    (let s : State := st (L (b0.clr SGN_STATUS SGN_STATUS_READY) L0); let d : Dev := s.hw; let q : Req := 0; let a : Nat := 1610613056;
      s.Inv ∧ placeOf a = Place.ledger ∧ d.accessErr (q.val) a 4 false = BErr.none ∧ d.b SGN_STATUS SGN_STATUS_READY = false) ∧
    (let s : State := st (L (ask b0 (mk 0x302 [5,0x10030000,77,1])) {L0 with active := some (⟨[3],[{ rec_ := 5, op := 1, k := 3, val := 9 }]⟩, false)});
      s.Inv) ∧
    (let s : State := st (L (ask b0 (mk 0x302 [5,0x10030000,77,1])) {L0 with active := some (⟨[3],[{ rec_ := 5, op := 1, k := 3, val := 9 }]⟩, false)}); let d : Dev := s.hw; let q : Req := 8;
      s.Inv ∧ d.accessErr (q.val) SGN_HUP_TEST 4 true = BErr.none) ∧
    (let s : State := st (L b0 {L0 with test := 1, v1 := 5000}); let d : Dev := s.hw;
      let energy : Nat → Dev → Nat := fun (v : Nat) (x : Dev) => (BitVec.toNat (x.r SGN_HUP_C) * (v * v - x.f SGN_HUP_VMIN SGN_HUP_VMIN_VMIN * x.f SGN_HUP_VMIN SGN_HUP_VMIN_VMIN) + 1999999) / 2000000; let v : BitVec 16 := 0x1388; let drop : Nat := v.toNat - d.f SGN_HUP_TLIM SGN_HUP_TLIM_TEST_DV; let lets : Prop := d.ledger.active = none ∧ (d.r SGN_HUP_C = 0 ∨ d.eReq 257 + d.eLg ≤ energy drop d);
      s.Inv ∧ d.ledger.test = 1 ∧ lets) ∧
    (let s : State := st {L b0 L0 with beam := 86400*1000*100000*800}; let d : Dev := s.hw;
      let energy : Nat → Dev → Nat := fun (v : Nat) (x : Dev) => (BitVec.toNat (x.r SGN_HUP_C) * (v * v - x.f SGN_HUP_VMIN SGN_HUP_VMIN_VMIN * x.f SGN_HUP_VMIN SGN_HUP_VMIN_VMIN) + 1999999) / 2000000; let v : BitVec 16 := 0x1388; let drop : Nat := v.toNat - d.f SGN_HUP_TLIM SGN_HUP_TLIM_TEST_DV; let lets : Prop := d.ledger.active = none ∧ (d.r SGN_HUP_C = 0 ∨ d.eReq 257 + d.eLg ≤ energy drop d);
      s.Inv ∧ d.ledger.test = 0 ∧
          d.ledger.testAt + max 1 (d.f SGN_HUP_TEST SGN_HUP_TEST_TEST_DAYS) * (86400 * 1000 * msTicks) ≤ d.ledger.powered + d.beam ∧ lets) ∧
    (let s : State := st (L {b0 with beam := 100000000000000} {L0 with test := 3, v1 := 5000}); let d : Dev := s.hw;
      let energy : Nat → Dev → Nat := fun (v : Nat) (x : Dev) => (BitVec.toNat (x.r SGN_HUP_C) * (v * v - x.f SGN_HUP_VMIN SGN_HUP_VMIN_VMIN * x.f SGN_HUP_VMIN SGN_HUP_VMIN_VMIN) + 1999999) / 2000000; let v : BitVec 16 := 0x1388; let drop : Nat := v.toNat - d.f SGN_HUP_TLIM SGN_HUP_TLIM_TEST_DV; let lets : Prop := d.ledger.active = none ∧ (d.r SGN_HUP_C = 0 ∨ d.eReq 257 + d.eLg ≤ energy drop d);
      s.Inv ∧ d.ledger.test = 3 ∧ d.ledger.testAt + 10000 * msTicks ≤ d.ledger.powered + d.beam ∧ lets) ∧
    (let s : State := st ((L (b0.w SGN_HUP_C 0) {L0 with test := 2, v1 := 5000}).set1 SGN_STATUS SGN_STATUS_TESTING); let d : Dev := s.hw;
      let v : BitVec 16 := 0; let dt : Nat := 0; let late : Bool := false;
      let c : Nat := d.f SGN_HUP_TEST SGN_HUP_TEST_I_MA * dt / (d.ledger.v1 - v.toNat); let old : Nat := BitVec.toNat (d.r SGN_HUP_C);
      let passes : Prop := late = false ∧ v.toNat < d.ledger.v1 ∧ (old = 0 ∨ 4 * (max c old - min c old) ≤ old);
      s.Inv ∧ d.b SGN_STATUS SGN_STATUS_TESTING = true ∧ (d.ledger.test = 2 ∨ d.ledger.test = 4) ∧ passes) ∧
    (let s : State := st ((L b0 {L0 with test := 2, v1 := 5000}).set1 SGN_STATUS SGN_STATUS_TESTING); let d : Dev := s.hw; let v : BitVec 16 := 0;
      let dt : Nat := 0; let late : Bool := false; let c : Nat := d.f SGN_HUP_TEST SGN_HUP_TEST_I_MA * dt / (d.ledger.v1 - v.toNat);
      let old : Nat := BitVec.toNat (d.r SGN_HUP_C);
      let passes : Prop := late = false ∧ v.toNat < d.ledger.v1 ∧ (old = 0 ∨ 4 * (max c old - min c old) ≤ old);
      s.Inv ∧ d.b SGN_STATUS SGN_STATUS_TESTING = true ∧ (d.ledger.test = 2 ∨ d.ledger.test = 4) ∧ ¬passes ∧ d.ledger.test = 2) ∧
    (let s : State := st ((L b0 {L0 with test := 4, v1 := 5000}).set1 SGN_STATUS SGN_STATUS_TESTING); let d : Dev := s.hw; let v : BitVec 16 := 0;
      let dt : Nat := 0; let late : Bool := false; let c : Nat := d.f SGN_HUP_TEST SGN_HUP_TEST_I_MA * dt / (d.ledger.v1 - v.toNat);
      let old : Nat := BitVec.toNat (d.r SGN_HUP_C);
      let passes : Prop := late = false ∧ v.toNat < d.ledger.v1 ∧ (old = 0 ∨ 4 * (max c old - min c old) ≤ old);
      s.Inv ∧ d.b SGN_STATUS SGN_STATUS_TESTING = true ∧ (d.ledger.test = 2 ∨ d.ledger.test = 4) ∧ ¬passes ∧ d.ledger.test = 4) := by
  refine ⟨?_, ?_, ?_, ?_, ?_, ?_, ?_, ?_, ?_, ?_, ?_, ?_, ?_, ?_, ?_, ?_⟩ <;> dsimp only <;>
    (repeat' first | decide +kernel | exact inv_st _ (by decide +kernel) (by decide +kernel) | refine And.intro ?_ ?_ | exact slots_fresh _ _ rfl (by decide +kernel))

end LdgEngine

namespace Sess

def ex (link : Nat) (cmd : Nat) (sid ctr : Nat) (pl : List Word) : ExtMsg := ⟨⟨link%11, Nat.mod_lt _ (by decide)⟩, 0x1234, BitVec.ofNat 32 (cmd * 2^20 + 0x5A * 2^12 + 4 * pl.length), BitVec.ofNat 32 sid, BitVec.ofNat 32 ctr, pl, 0⟩
def rqx (o : Nat) (x : ExtMsg) : Request := ⟨o, x.hdr :: x.payload, 0, some x⟩
def wl (l : List Nat) : List Word := l.map (BitVec.ofNat 32)
def mk (cmd : Nat) (pl : List Nat) (len : Nat := 4 * pl.length) : Request := ⟨3, (((cmd * 2^20 + 0x5A * 2^12 + len) :: pl) ++ List.replicate (15 - pl.length) 0).map (BitVec.ofNat 32), 0, none⟩
def c0 : Cred := { value := List.replicate 32 7, role := 1, fails := 3, salt := wl [1,2,3,4], iter := 20000 }
def c1 : Cred := { c0 with fails := 6, until_ := 99999999999 }
def chs : Sess := { sid := 0x77, link := 10, src := 0x1234, pass := false, slot := 3, nc := List.replicate 32 1, nd := List.replicate 32 2, used := false, at_ := 100 }
def chp : Sess := { chs with sid := 0x78, pass := true, slot := 2 }
def s0 : Sess := { opened := true, sid := 0x55, link := 10, src := 0x1234, role := 2, token := List.replicate 32 9, ctr := 4, discards := 2, last := 100 }
def s1 : Sess := { s0 with sid := 0x56, link := 3, discards := 4 }
def good (c : Cred) (y : Sess) : List Word := bytesWords 8 (proofC c.value y)
def bad (c : Cred) (y : Sess) : List Word := bytesWords 8 ((proofC c.value y).map (· + 1))
def tagged (x : ExtMsg) (t : List Byte) : ExtMsg := { x with tag := BitVec.ofNat 64 (leNat (sessTag t 0x51 x.sid.toNat x.ctr.toNat x.hdr.toNat x.payload)) }
def up (d : Dev) : Dev := { d with cores := tabSet {} d.cores 8 { d.core 8 with run := true } }
def C0 : ChozerH := { on.chozer with sess := [(1,s0),(2,s1),(8,chs),(9,chp)], creds := [(3,c0),(10,c0)] }
def C1 : ChozerH := { C0 with creds := [(3,c1),(10,c1)] }
def C2 : ChozerH := { C0 with creds := [(3,{c0 with fails := 4}),(10,{c0 with fails:=4})], debug := true, debugSess := 1, sess := [(0,s0),(1,s0),(2,s1),(3,s1),(4,s1),(5,s1),(6,s1),(7,s1),(8,chs),(9,chp)] }
def ask (d : Dev) (rq : Request) : Dev := { d with chozer := { d.chozer with reqs := [rq] } }
def chozer (d : Dev) (c : ChozerH) : Dev :=
  up { ((d.set1 SGN_STATUS SGN_STATUS_READY).w SGN_HUP_C 3000).wf SGN_HUP_V SGN_HUP_V_V 5000 with chozer := c }

theorem leBytes_leNat : ∀ l : List Byte, leBytes (leNat l) l.length = l
  | [] => rfl
  | b :: l => by
    have h : b.toNat < 256 := b.isLt
    have e : BitVec.ofNat 8 (b.toNat + 256 * leNat l) = b := by
      apply BitVec.eq_of_toNat_eq; rw [BitVec.toNat_ofNat]; omega
    have f : (b.toNat + 256 * leNat l) / 256 = leNat l := by omega
    simp only [leNat, List.length_cons, leBytes, e, f, leBytes_leNat l]

theorem leNat_lt : ∀ l : List Byte, leNat l < 256 ^ l.length
  | [] => by decide
  | b :: l => by
    have h : b.toNat < 256 := b.isLt
    have := leNat_lt l
    simp only [leNat, List.length_cons, Nat.pow_succ]; omega

theorem word_bytes (l : List Byte) (h : l.length = 4) : leBytes (wordOf (leNat l)).toNat 4 = l := by
  have a := leNat_lt l
  have b := leBytes_leNat l
  rw [h] at a b
  rw [wordOf, BitVec.toNat_ofNat, Nat.mod_eq_of_lt (by omega), b]

theorem wordBytes_bytesWords : ∀ (n : Nat) (l : List Byte), l.length = 4 * n → wordBytes (bytesWords n l) = l
  | 0, [], _ => rfl
  | n + 1, l, h => by
    rw [bytesWords, wordBytes, word_bytes _ (by simp [List.length_take]; omega),
      wordBytes_bytesWords n _ (by simp [List.length_drop]; omega), List.take_append_drop]

theorem bytesWords_length : ∀ (n : Nat) (l : List Byte), (bytesWords n l).length = n
  | 0, _ => rfl
  | n + 1, l => by rw [bytesWords, List.length_cons, bytesWords_length n]

theorem hash_words (o link cmd sid : Nat) (l : List Byte) (h : l.length = 32) :
    rqHash (rqx o (ex link cmd sid 0 (bytesWords 8 l))) 1 = l := by
  have e : (List.range 8).map (fun k => wordOf (rqw (rqx o (ex link cmd sid 0 (bytesWords 8 l))) (1 + k))) = bytesWords 8 l := by
    generalize hw : bytesWords 8 l = ws
    have hl : ws.length = 8 := hw ▸ bytesWords_length 8 l
    match ws, hl with
    | [a, b, c, d, e, f, g, i], _ => simp [List.range, List.range.loop, rqw, rqx, ex, wordOf]
  rw [rqHash, e, wordBytes_bytesWords 8 l h]

theorem hmac_length (k m : List Byte) : (Config.hmac k m).length = 32 := by simp [Config.hmac]

theorem hash_good (o link cmd sid : Nat) (c : Cred) (y : Sess) : rqHash (rqx o (ex link cmd sid 0 (good c y))) 1 = proofC c.value y :=
  hash_words o link cmd sid _ (hmac_length _ _)

theorem hash_bad (o link cmd sid : Nat) (c : Cred) (y : Sess) : rqHash (rqx o (ex link cmd sid 0 (bad c y))) 1 ≠ proofC c.value y := by
  have hl : (proofC c.value y).length = 32 := hmac_length _ _
  rw [bad, hash_words o link cmd sid _ (by simp [hl])]
  generalize proofC c.value y = p at hl ⊢
  match p, hl with
  | a :: p, _ =>
    intro e
    rw [List.map_cons, List.cons.injEq] at e
    exact (by decide +kernel : ∀ a : Byte, a + 1 ≠ a) a e.1

theorem tag_good (x : ExtMsg) (t : List Byte) :
    leBytes (tagged x t).tag.toNat 8 = sessTag t 0x51 x.sid.toNat x.ctr.toNat x.hdr.toNat x.payload := by
  have hl : (sessTag t 0x51 x.sid.toNat x.ctr.toNat x.hdr.toNat x.payload).length = 8 := by
    rw [sessTag, List.length_take, hmac_length]; rfl
  have a := leNat_lt (sessTag t 0x51 x.sid.toNat x.ctr.toNat x.hdr.toNat x.payload)
  have b := leBytes_leNat (sessTag t 0x51 x.sid.toNat x.ctr.toNat x.hdr.toNat x.payload)
  rw [hl] at a b
  rw [tagged, BitVec.toNat_ofNat, Nat.mod_eq_of_lt (by omega), b]

theorem test_witness_SessionCommands :
    (let s : State := st (ask (chozer on C0) (rqx 24 (ex 10 0x400 0 0 (wl ([3] ++ List.replicate 8 5)))));
      let rq : Request := rqx 24 (ex 10 0x400 0 0 (wl ([3] ++ List.replicate 8 5))); let d : Dev := s.hw; let v : Nat := rqw rq 1;
      let now : Nat := d.ledger.powered + d.beam; let x : ExtMsg := ex 10 0x400 0 0 (wl ([3] ++ List.replicate 8 5));
      let c : Cred := d.cred (v / 256 * 8 + v % 8); let room : Prop := ((List.finRange 8).any fun (i : Fin 8) => !(d.sess ↑i).opened) = true;
      s.Inv ∧ rq.origin = 24 ∧ rq.ext = some x ∧ d.Asked rq 1024 36 ∧ onlyBits v 263 = true ∧ c.until_ ≤ now ∧ room) ∧
    (let s : State := st (ask (chozer on C1) (rqx 24 (ex 10 0x400 0 0 (wl ([3] ++ List.replicate 8 5)))));
      let rq : Request := rqx 24 (ex 10 0x400 0 0 (wl ([3] ++ List.replicate 8 5))); let d : Dev := s.hw; let v : Nat := rqw rq 1;
      let now : Nat := d.ledger.powered + d.beam; let x : ExtMsg := ex 10 0x400 0 0 (wl ([3] ++ List.replicate 8 5));
      let c : Cred := d.cred (v / 256 * 8 + v % 8);
      s.Inv ∧ rq.origin = 24 ∧ rq.ext = some x ∧ d.Asked rq 1024 36 ∧ onlyBits v 263 = true ∧ now < c.until_) ∧
    (let s : State := st (ask (chozer on C2) (rqx 24 (ex 10 0x400 0 0 (wl ([3] ++ List.replicate 8 5)))));
      let rq : Request := rqx 24 (ex 10 0x400 0 0 (wl ([3] ++ List.replicate 8 5))); let d : Dev := s.hw; let v : Nat := rqw rq 1;
      let now : Nat := d.ledger.powered + d.beam; let x : ExtMsg := ex 10 0x400 0 0 (wl ([3] ++ List.replicate 8 5));
      let c : Cred := d.cred (v / 256 * 8 + v % 8); let room : Prop := ((List.finRange 8).any fun (i : Fin 8) => !(d.sess ↑i).opened) = true;
      s.Inv ∧ rq.origin = 24 ∧ rq.ext = some x ∧ d.Asked rq 1024 36 ∧ onlyBits v 263 = true ∧ c.until_ ≤ now ∧ ¬room) ∧
    (let s : State := st (ask (chozer on C0) (rqx 40 (ex 10 0x401 0x77 0 (good c0 chs))));
      let rq : Request := rqx 40 (ex 10 0x401 0x77 0 (good c0 chs)); let d : Dev := s.hw; let sec : Nat := 1000 * msTicks;
      let cr : Sess → Nat := fun (x : Sess) => (if x.pass = true then 8 else 0) + x.slot;
      let answer : Bool → Nat → ExtMsg → Prop := fun (pass : Bool) (k : Nat) (x : ExtMsg) => rq.origin = 32 + k ∧ rq.ext = some x ∧ 8 ≤ k ∧
        (d.sess k).used = false ∧ (d.sess k).pass = pass ∧ (d.sess k).slot < 8;
      let proved : Nat → Fin 8 → Prop := fun (k : Nat) (i : Fin 8) => d.beam ≤ (d.sess k).at_ + 5 * sec ∧ (d.cred (cr (d.sess k))).value ≠ [] ∧
        rqHash rq 1 = proofC (d.cred (cr (d.sess k))).value (d.sess k) ∧ (d.sess i.val).opened = false ∧
        ∀ (j : Fin 8), j < i → (d.sess ↑j).opened = true; let k : Nat := 8; let i : Fin 8 := 0; let x : ExtMsg := ex 10 0x401 0x77 0 (good c0 chs);
      s.Inv ∧ d.Asked rq 1025 32 ∧ answer false k x ∧ proved k i) ∧
    (let s : State := st (ask (chozer on C0) (rqx 40 (ex 10 0x401 0x77 0 (bad c0 chs))));
      let rq : Request := rqx 40 (ex 10 0x401 0x77 0 (bad c0 chs)); let d : Dev := s.hw; let sec : Nat := 1000 * msTicks;
      let cr : Sess → Nat := fun (x : Sess) => (if x.pass = true then 8 else 0) + x.slot;
      let answer : Bool → Nat → ExtMsg → Prop := fun (pass : Bool) (k : Nat) (x : ExtMsg) => rq.origin = 32 + k ∧ rq.ext = some x ∧ 8 ≤ k ∧
        (d.sess k).used = false ∧ (d.sess k).pass = pass ∧ (d.sess k).slot < 8;
      let wrong : Nat → Prop := fun (k : Nat) => d.beam ≤ (d.sess k).at_ + 5 * sec ∧ rqHash rq 1 ≠ proofC (d.cred (cr (d.sess k))).value (d.sess k);
      let k : Nat := 8; let x : ExtMsg := ex 10 0x401 0x77 0 (bad c0 chs);
      s.Inv ∧ d.Asked rq 1025 32 ∧ answer false k x ∧ wrong k) ∧
    (let s : State := st (ask (chozer {on with beam := 99000000000} C0) (rqx 40 (ex 10 0x401 0x77 0 (good c0 chs))));
      let rq : Request := rqx 40 (ex 10 0x401 0x77 0 (good c0 chs)); let d : Dev := s.hw; let sec : Nat := 1000 * msTicks;
      let answer : Bool → Nat → ExtMsg → Prop := fun (pass : Bool) (k : Nat) (x : ExtMsg) => rq.origin = 32 + k ∧ rq.ext = some x ∧ 8 ≤ k ∧
        (d.sess k).used = false ∧ (d.sess k).pass = pass ∧ (d.sess k).slot < 8; let k : Nat := 8; let x : ExtMsg := ex 10 0x401 0x77 0 (good c0 chs);
      s.Inv ∧ d.Asked rq 1025 32 ∧ answer false k x ∧ (d.sess k).at_ + 5 * sec < d.beam) ∧
    (let s : State := st (ask (chozer on C0) (rqx 41 (ex 10 0x402 0x78 0 (good c0 chp))));
      let rq : Request := rqx 41 (ex 10 0x402 0x78 0 (good c0 chp)); let d : Dev := s.hw; let sec : Nat := 1000 * msTicks;
      let cr : Sess → Nat := fun (x : Sess) => (if x.pass = true then 8 else 0) + x.slot;
      let answer : Bool → Nat → ExtMsg → Prop := fun (pass : Bool) (k : Nat) (x : ExtMsg) => rq.origin = 32 + k ∧ rq.ext = some x ∧ 8 ≤ k ∧
        (d.sess k).used = false ∧ (d.sess k).pass = pass ∧ (d.sess k).slot < 8;
      let proved : Nat → Fin 8 → Prop := fun (k : Nat) (i : Fin 8) => d.beam ≤ (d.sess k).at_ + 5 * sec ∧ (d.cred (cr (d.sess k))).value ≠ [] ∧
        rqHash rq 1 = proofC (d.cred (cr (d.sess k))).value (d.sess k) ∧ (d.sess i.val).opened = false ∧
        ∀ (j : Fin 8), j < i → (d.sess ↑j).opened = true; let k : Nat := 9; let i : Fin 8 := 0; let x : ExtMsg := ex 10 0x402 0x78 0 (good c0 chp);
      s.Inv ∧ d.Asked rq 1026 32 ∧ answer true k x ∧ proved k i) ∧
    (let s : State := st (ask (chozer on C0) (rqx 41 (ex 10 0x402 0x78 0 (bad c0 chp))));
      let rq : Request := rqx 41 (ex 10 0x402 0x78 0 (bad c0 chp)); let d : Dev := s.hw; let sec : Nat := 1000 * msTicks;
      let cr : Sess → Nat := fun (x : Sess) => (if x.pass = true then 8 else 0) + x.slot;
      let answer : Bool → Nat → ExtMsg → Prop := fun (pass : Bool) (k : Nat) (x : ExtMsg) => rq.origin = 32 + k ∧ rq.ext = some x ∧ 8 ≤ k ∧
        (d.sess k).used = false ∧ (d.sess k).pass = pass ∧ (d.sess k).slot < 8;
      let wrong : Nat → Prop := fun (k : Nat) => d.beam ≤ (d.sess k).at_ + 5 * sec ∧ rqHash rq 1 ≠ proofC (d.cred (cr (d.sess k))).value (d.sess k);
      let k : Nat := 9; let x : ExtMsg := ex 10 0x402 0x78 0 (bad c0 chp);
      s.Inv ∧ d.Asked rq 1026 32 ∧ answer true k x ∧ wrong k) ∧
    (let s : State := st (ask (chozer {on with beam := 99000000000} C0) (rqx 41 (ex 10 0x402 0x78 0 (good c0 chp))));
      let rq : Request := rqx 41 (ex 10 0x402 0x78 0 (good c0 chp)); let d : Dev := s.hw; let sec : Nat := 1000 * msTicks;
      let answer : Bool → Nat → ExtMsg → Prop := fun (pass : Bool) (k : Nat) (x : ExtMsg) => rq.origin = 32 + k ∧ rq.ext = some x ∧ 8 ≤ k ∧
        (d.sess k).used = false ∧ (d.sess k).pass = pass ∧ (d.sess k).slot < 8; let k : Nat := 9; let x : ExtMsg := ex 10 0x402 0x78 0 (good c0 chp);
      s.Inv ∧ d.Asked rq 1026 32 ∧ answer true k x ∧ (d.sess k).at_ + 5 * sec < d.beam) ∧
    (let s : State := st (ask (chozer on C0) (rqx 17 (ex 10 0x403 0x55 5 []))); let rq : Request := rqx 17 (ex 10 0x403 0x55 5 []);
      let d : Dev := s.hw; let i : Fin 8 := 1; let x : ExtMsg := ex 10 0x403 0x55 5 [];
      s.Inv ∧ rq.origin = 16 + i.val ∧ rq.ext = some x ∧ (d.sess i.val).opened = true ∧ d.Asked rq 1027 0) ∧
    (let s : State := st (ask (chozer on C0) (rqx 17 (ex 10 0x703 0x55 5 (wl [0x10005]))));
      let rq : Request := rqx 17 (ex 10 0x703 0x55 5 (wl [0x10005])); let d : Dev := s.hw; let v : Nat := rqw rq 1; let i : Fin 8 := 1;
      let x : ExtMsg := ex 10 0x703 0x55 5 (wl [0x10005]); let cores : Fin 256 := 5;
      s.Inv ∧ rq.origin = 16 + i.val ∧ rq.ext = some x ∧ (d.sess i.val).opened = true ∧ d.Asked rq 1795 4 ∧ (d.sess i.val).role = 2 ∧
          v = 65536 + cores.val ∧ (∀ (c : Fin 8), nbit cores.val ↑c = true → d.part.hasCore ↑c = true) ∧ (d.sess i.val).link = 10) ∧
    (let s : State := st (ask (chozer on C2) (rqx 17 (ex 10 0x703 0x55 5 (wl [0])))); let rq : Request := rqx 17 (ex 10 0x703 0x55 5 (wl [0]));
      let d : Dev := s.hw; let v : Nat := rqw rq 1; let i : Fin 8 := 1; let x : ExtMsg := ex 10 0x703 0x55 5 (wl [0]);
      s.Inv ∧ rq.origin = 16 + i.val ∧ rq.ext = some x ∧ (d.sess i.val).opened = true ∧ d.Asked rq 1795 4 ∧ (d.sess i.val).role = 2 ∧ v = 0 ∧
          (d.sess i.val).link = 10 ∧ d.chozer.debug = true) ∧
    (let s : State := st (ask (chozer on C0) (rqx 18 (ex 3 0x703 0x56 5 (wl [0x10000]))));
      let rq : Request := rqx 18 (ex 3 0x703 0x56 5 (wl [0x10000])); let d : Dev := s.hw; let v : Nat := rqw rq 1; let i : Fin 8 := 2;
      let x : ExtMsg := ex 3 0x703 0x56 5 (wl [0x10000]);
      s.Inv ∧ rq.origin = 16 + i.val ∧ rq.ext = some x ∧ (d.sess i.val).opened = true ∧ d.Asked rq 1795 4 ∧ (d.sess i.val).role = 2 ∧ v = 65536 ∧
          (d.sess i.val).link ≠ 10) ∧
    (let s : State := st (chozer {on with beam := 99000000000} C0); let d : Dev := s.hw; let sec : Nat := 1000 * msTicks; let i : Fin 8 := 1;
      s.Inv ∧ (d.sess i.val).opened = true ∧ (d.sess i.val).last + 60 * sec ≤ d.beam) ∧
    (let s : State := st (chozer on C0); let d : Dev := s.hw; let sec : Nat := 1000 * msTicks; let i : Fin 8 := 0;
      s.Inv ∧ d.beam < (d.sess i.val).last + 60 * sec) ∧
    (let s : State := st (ask (chozer (on.wf PWR_MODE PWR_MODE_MODE mSetup) C0) (mk 0x404 ([0x10300] ++ List.replicate 8 6)));
      let rq : Request := mk 0x404 ([0x10300] ++ List.replicate 8 6); let d : Dev := s.hw; let v : Nat := rqw rq 1; let m : Fin 16 := 3;
      let k : Fin 8 := 3; let role : Fin 8 := 1;
      s.Inv ∧ rq.by m ∧ role ≤ 2 ∧ d.Asked rq 1028 36 ∧ v = k.val * 256 + role.val * 65536 ∧ d.b SGN_STATUS SGN_STATUS_DEVICE_WORN = false ∧
          d.hupEnough 1 = true ∧ d.mode = mSetup) ∧
    (let s : State := st (ask (chozer on C0) (mk 0x404 ([0x10300] ++ List.replicate 8 6)));
      let rq : Request := mk 0x404 ([0x10300] ++ List.replicate 8 6); let d : Dev := s.hw; let v : Nat := rqw rq 1; let m : Fin 16 := 3;
      let k : Fin 8 := 3; let role : Fin 8 := 1;
      s.Inv ∧ rq.by m ∧ role ≤ 2 ∧ d.Asked rq 1028 36 ∧ v = k.val * 256 + role.val * 65536 ∧ d.b SGN_STATUS SGN_STATUS_DEVICE_WORN = false ∧
          d.hupEnough 1 = true ∧ d.mode ≠ mSetup) ∧
    (let s : State := st (ask (chozer (on.wf PWR_MODE PWR_MODE_MODE mSetup) C0) (mk 0x404 ([0x10301,1,2,3,4,20000] ++ List.replicate 8 6)));
      let rq : Request := mk 0x404 ([0x10301,1,2,3,4,20000] ++ List.replicate 8 6); let d : Dev := s.hw; let v : Nat := rqw rq 1;
      let m : Fin 16 := 3; let k : Fin 8 := 3; let role : Fin 8 := 1;
      s.Inv ∧ rq.by m ∧ role ≤ 1 ∧ d.Asked rq 1028 56 ∧ v = 1 + k.val * 256 + role.val * 65536 ∧ 10000 ≤ rqw rq 6 ∧ rqw rq 6 ≤ 1000000 ∧
          d.b SGN_STATUS SGN_STATUS_DEVICE_WORN = false ∧ d.hupEnough 1 = true ∧ d.mode = mSetup) ∧
    (let s : State := st (chozer on C0); let d : Dev := s.hw; let x : ExtMsg := ex 10 0x400 0 0 (wl ([3] ++ List.replicate 8 5));
      let cmd : Nat := BitVec.toNat x.hdr / 2 ^ 20;
      s.Inv ∧ d.chozUp = true ∧ d.committing = false ∧ d.chozer.reqs = [] ∧ x.sid = 0 ∧ cmd = 1024) ∧
    (let s : State := st (chozer on C0); let d : Dev := s.hw; let x : ExtMsg := ex 2 0x100 0 0 []; let cmd : Nat := BitVec.toNat x.hdr / 2 ^ 20;
      s.Inv ∧ d.chozUp = true ∧ d.committing = false ∧ d.chozer.reqs = [] ∧ x.sid = 0 ∧ cmd ≠ 1024) ∧
    (let s : State := st (chozer on C0); let d : Dev := s.hw; let x : ExtMsg := tagged (ex 10 0x100 0x55 5 []) s0.token;
      let cmd : Nat := BitVec.toNat x.hdr / 2 ^ 20; let i : Fin 8 := 1;
      let tag : List Byte := sessTag (d.sess i.val).token 81 (BitVec.toNat x.sid) (BitVec.toNat x.ctr) (BitVec.toNat x.hdr) x.payload;
      s.Inv ∧ d.chozUp = true ∧ d.committing = false ∧ d.chozer.reqs = [] ∧ x.sid ≠ 0 ∧ d.sidKey (BitVec.toNat x.sid) = some i.val ∧
          (d.sess i.val).opened = true ∧ (d.sess i.val).link = ↑x.link ∧ (d.sess i.val).src = x.src.toNat ∧ leBytes x.tag.toNat 8 = tag ∧
          (d.sess i.val).ctr < BitVec.toNat x.ctr ∧ knownCmd cmd = true) ∧
    (let s : State := st (chozer on C0); let d : Dev := s.hw; let x : ExtMsg := tagged (ex 10 0x100 0x55 4 []) s0.token; let i : Fin 8 := 1;
      let tag : List Byte := sessTag (d.sess i.val).token 81 (BitVec.toNat x.sid) (BitVec.toNat x.ctr) (BitVec.toNat x.hdr) x.payload;
      s.Inv ∧ d.chozUp = true ∧ d.committing = false ∧ d.chozer.reqs = [] ∧ x.sid ≠ 0 ∧ d.sidKey (BitVec.toNat x.sid) = some i.val ∧
          (d.sess i.val).opened = true ∧ (d.sess i.val).link = ↑x.link ∧ (d.sess i.val).src = x.src.toNat ∧
          (leBytes x.tag.toNat 8 ≠ tag ∨ BitVec.toNat x.ctr ≤ (d.sess i.val).ctr)) := by
  refine ⟨?_, ?_, ?_, ?_, ?_, ?_, ?_, ?_, ?_, ?_, ?_, ?_, ?_, ?_, ?_, ?_, ?_, ?_, ?_, ?_, ?_, ?_⟩ <;> dsimp only <;>
    (repeat' first | decide +kernel | exact inv_st _ (by decide +kernel) (by decide +kernel) | refine And.intro ?_ ?_ | refine Dev.Asked.mk ?_ ?_ ?_ ?_ ?_ ?_ | exact rfl | exact hash_good .. | exact hash_bad 40 10 1025 119 c0 chs | exact hash_bad 41 10 1026 120 c0 chp | exact tag_good .. | exact Or.inr (by decide +kernel))

end Sess

namespace Upd

def mk (cmd : Nat) (pl : List Nat) (len : Nat := 4 * pl.length) : Request := ⟨3, (((cmd * 2^20 + 0x5A * 2^12 + len) :: pl) ++ List.replicate (15 - pl.length) 0).map (BitVec.ofNat 32), 0, none⟩
def dat : List Nat := (List.range 12).map fun k => 0x01020304 * (k+1)
def im (i : Nat) : Img := { len := 64, staged := (List.range 64).map fun k => (k, if k = 0 then BitVec.ofNat 8 i else if k = 8 then 64 else if k = 4 then 9 else if k = 12 then 1 else 0), got := (List.range 64).map fun k => (k,true), sigR := [1], sigS := [2], verAct := 7, verOth := 9, floor := 3, raise_ := true, trialEnd := 200000 }
def up (d : Dev) : Dev := { d with cores := tabSet {} d.cores 8 { d.core 8 with run := true } }
def ask (d : Dev) (rq : Request) : Dev := { d with chozer := { d.chozer with reqs := [rq] } }
def chozer (d : Dev) (c : ChozerH) : Dev :=
  up { ((d.set1 SGN_STATUS SGN_STATUS_READY).w SGN_HUP_C 3000).wf SGN_HUP_V SGN_HUP_V_V 5000 with chozer := c }

theorem test_witness_UpdateStates :
    (let s : State := st (ask (chozer on { imgs := [(3, { im 3 with state := 0 })] }) (mk 0x600 [0,64])); let m : Fin 16 := 3;
      let rq : Request := mk 0x600 [0,64]; let d : Dev := s.hw; let v : Nat := rqw rq 1; let i : Fin 8 := 0; let n : Nat := rqw rq 2;
      let idle : Prop := ∀ (j : Fin 8), (d.img ↑j).state = 0 ∨ 4 < (d.img ↑j).state;
      s.Inv ∧ rq.by m ∧ d.Asked rq 1536 8 ∧ v = i.val ∧ 64 ≤ n ∧ n ≤ 491520 ∧ n % 16 = 0 ∧ (d.img i.val).state ∈ [0, 7, 8, 9] ∧ idle) ∧
    (let s : State := st (ask (chozer on { imgs := [(3, { im 3 with state := 0, got := [] }), (5, { im 5 with state := 1 })], updX := [5] }) (mk 0x600 [0,64])); let m : Fin 16 := 3; let rq : Request := mk 0x600 [0,64]; let d : Dev := s.hw; let v : Nat := rqw rq 1; let i : Fin 8 := 0; let n : Nat := rqw rq 2; let idle : Prop := ∀ (j : Fin 8), (d.img ↑j).state = 0 ∨ 4 < (d.img ↑j).state;
      s.Inv ∧ rq.by m ∧ d.Asked rq 1536 8 ∧ v = i.val ∧ 64 ≤ n ∧ n ≤ 491520 ∧ n % 16 = 0 ∧ (d.img i.val).state ∈ [0, 7, 8, 9] ∧ ¬idle) ∧
    (let s : State := st (ask (chozer on { imgs := [(3, { im 3 with state := 0 })] }) (mk 0x600 [3,100])); let m : Fin 16 := 3;
      let rq : Request := mk 0x600 [3,100]; let d : Dev := s.hw; let v : Nat := rqw rq 1; let i : Fin 8 := 3; let n : Nat := rqw rq 2;
      s.Inv ∧ rq.by m ∧ d.Asked rq 1536 8 ∧ v = i.val ∧ (n < 64 ∨ 491520 < n ∨ n % 16 ≠ 0)) ∧
    (let s : State := st (ask (chozer on { imgs := [(3, { im 3 with state := 0, got := [] }), (5, { im 5 with state := 1 })], updX := [5] }) (mk 0x601 ([16,16]++dat.take 4))); let m : Fin 16 := 3; let rq : Request := mk 0x601 ([16,16]++dat.take 4); let d : Dev := s.hw; let v : Nat := rqw rq 1; let only : Fin 8 → Nat → Prop := fun (i : Fin 8) (x : Nat) => (d.img i.val).state = x ∧ ∀ (j : Fin 8), j ≠ i → (d.img ↑j).state ≠ x; let i : Fin 8 := 5; let n : Fin 49 := 16;
      s.Inv ∧ rq.by m ∧ only i 1 ∧ n.val ∈ [16, 32, 48] ∧ d.Asked rq 1537 (8 + n.val) ∧ rqw rq 2 = n.val ∧ v % 16 = 0 ∧
          v + n.val ≤ (d.img i.val).len ∧ d.b SGN_STATUS SGN_STATUS_DEVICE_WORN = false ∧ d.hupEnough 1 = true) ∧
    (let s : State := st (ask (chozer on { imgs := [(3, { im 3 with state := 0, got := [] }), (5, { im 5 with state := 1 })], updX := [5] }) (mk 0x601 ([32,48]++dat))); let m : Fin 16 := 3; let rq : Request := mk 0x601 ([32,48]++dat); let d : Dev := s.hw; let v : Nat := rqw rq 1; let only : Fin 8 → Nat → Prop := fun (i : Fin 8) (x : Nat) => (d.img i.val).state = x ∧ ∀ (j : Fin 8), j ≠ i → (d.img ↑j).state ≠ x; let i : Fin 8 := 5; let n : Fin 49 := 48;
      s.Inv ∧ rq.by m ∧ only i 1 ∧ n.val ∈ [16, 32, 48] ∧ d.Asked rq 1537 (8 + n.val) ∧ rqw rq 2 = n.val ∧ v % 16 = 0 ∧
          (d.img i.val).len < v + n.val) ∧
    (let s : State := st (ask (chozer on { imgs := [(3, { im 3 with state := 0, got := [] }), (5, { im 5 with state := 1 })], updX := [5] }) (mk 0x602 ([0]++dat.take 8))); let m : Fin 16 := 3; let rq : Request := mk 0x602 ([0]++dat.take 8); let d : Dev := s.hw; let v : Nat := rqw rq 1; let only : Fin 8 → Nat → Prop := fun (i : Fin 8) (x : Nat) => (d.img i.val).state = x ∧ ∀ (j : Fin 8), j ≠ i → (d.img ↑j).state ≠ x; let i : Fin 8 := 5;
      s.Inv ∧ rq.by m ∧ only i 1 ∧ d.Asked rq 1538 36 ∧ v = 0) ∧
    (let s : State := st (ask (chozer on { imgs := [(3, { im 3 with state := 0, got := [] }), (5, { im 5 with state := 1 })], updX := [5] }) (mk 0x602 ([1]++dat.take 8))); let m : Fin 16 := 3; let rq : Request := mk 0x602 ([1]++dat.take 8); let d : Dev := s.hw; let v : Nat := rqw rq 1; let only : Fin 8 → Nat → Prop := fun (i : Fin 8) (x : Nat) => (d.img i.val).state = x ∧ ∀ (j : Fin 8), j ≠ i → (d.img ↑j).state ≠ x; let i : Fin 8 := 5;
      s.Inv ∧ rq.by m ∧ only i 1 ∧ d.Asked rq 1538 36 ∧ v = 1) ∧
    (let s : State := st (ask (chozer on { imgs := [(3, { im 3 with state := 0, got := [] }), (5, { im 5 with state := 1 })], updX := [5] }) (mk 0x603 [])); let m : Fin 16 := 3; let rq : Request := mk 0x603 []; let d : Dev := s.hw; let only : Fin 8 → Nat → Prop := fun (i : Fin 8) (x : Nat) => (d.img i.val).state = x ∧ ∀ (j : Fin 8), j ≠ i → (d.img ↑j).state ≠ x; let i : Fin 8 := 5;
      s.Inv ∧ rq.by m ∧ only i 1 ∧ d.Asked rq 1539 0 ∧ (d.img i.val).len ≤ List.length (d.img i.val).got ∧ (d.img i.val).sigR ≠ [] ∧
          (d.img i.val).sigS ≠ []) ∧
    (let s : State := st (ask (chozer on { imgs := [(3, { im 3 with state := 1, got := [] }), (5, { im 5 with state := 2 })], updX := [5] }) (mk 0x603 [])); let m : Fin 16 := 3; let rq : Request := mk 0x603 []; let d : Dev := s.hw; let only : Fin 8 → Nat → Prop := fun (i : Fin 8) (x : Nat) => (d.img i.val).state = x ∧ ∀ (j : Fin 8), j ≠ i → (d.img ↑j).state ≠ x; let i : Fin 8 := 3;
      s.Inv ∧ rq.by m ∧ only i 1 ∧ d.Asked rq 1539 0 ∧ List.length (d.img i.val).got < (d.img i.val).len) ∧
    (let s : State := st (chozer on { imgs := [(3, { im 3 with state := 1, got := [] }), (5, { im 5 with state := 2 })], updX := [5] });
      let m : Fin 16 := 3; let rq : Request := mk 0x600 [0,64]; let d : Dev := s.hw;
      let only : Fin 8 → Nat → Prop := fun (i : Fin 8) (x : Nat) => (d.img i.val).state = x ∧ ∀ (j : Fin 8), j ≠ i → (d.img ↑j).state ≠ x;
      let i : Fin 8 := 5;
      s.Inv ∧ rq.by m ∧ only i 2) ∧
    (let s : State := st (ask (chozer (on.wf PWR_MODE PWR_MODE_MODE mSetup) { imgs := [(3, { im 3 with state := 2, got := [] }), (5, { im 5 with state := 3 })], updX := [5] }) (mk 0x604 [60])); let m : Fin 16 := 3; let rq : Request := mk 0x604 [60]; let d : Dev := s.hw; let v : Nat := rqw rq 1; let only : Fin 8 → Nat → Prop := fun (i : Fin 8) (x : Nat) => (d.img i.val).state = x ∧ ∀ (j : Fin 8), j ≠ i → (d.img ↑j).state ≠ x; let i : Fin 8 := 5;
      s.Inv ∧ rq.by m ∧ only i 3 ∧ d.Asked rq 1540 4 ∧ 10 ≤ v ∧ v ≤ 3600 ∧ (∀ (n : Isl), d.inRun ↑n = false)) ∧
    (let s : State := st (ask (chozer on { imgs := [(3, { im 3 with state := 2, got := [] }), (5, { im 5 with state := 3 })], updX := [5] }) (mk 0x604 [60])); let m : Fin 16 := 3; let rq : Request := mk 0x604 [60]; let d : Dev := s.hw; let v : Nat := rqw rq 1; let only : Fin 8 → Nat → Prop := fun (i : Fin 8) (x : Nat) => (d.img i.val).state = x ∧ ∀ (j : Fin 8), j ≠ i → (d.img ↑j).state ≠ x; let i : Fin 8 := 5;
      s.Inv ∧ rq.by m ∧ only i 3 ∧ d.Asked rq 1540 4 ∧ 10 ≤ v ∧ v ≤ 3600 ∧ (∃ (n : Isl), d.inRun ↑n = true)) ∧
    (let s : State := st (chozer on { imgs := [(3, { im 3 with state := 3, got := [] }), (5, { im 5 with state := 4 })], updX := [5] });
      let m : Fin 16 := 3; let rq : Request := mk 0x600 [0,64]; let d : Dev := s.hw;
      let only : Fin 8 → Nat → Prop := fun (i : Fin 8) (x : Nat) => (d.img i.val).state = x ∧ ∀ (j : Fin 8), j ≠ i → (d.img ↑j).state ≠ x;
      let i : Fin 8 := 5;
      s.Inv ∧ rq.by m ∧ only i 4) ∧
    (let s : State := st (ask (chozer on { imgs := [(3, { im 3 with state := 6 })] }) (mk 0x605 [3])); let m : Fin 16 := 3;
      let rq : Request := mk 0x605 [3]; let d : Dev := s.hw; let v : Nat := rqw rq 1; let i : Fin 8 := 3; let x : Img := d.img i.val;
      s.Inv ∧ rq.by m ∧ d.Asked rq 1541 4 ∧ v = i.val ∧ x.state = 6) ∧
    (let s : State := st (ask (chozer on { imgs := [(3, { im 3 with state := 0 })] }) (mk 0x605 [3])); let m : Fin 16 := 3;
      let rq : Request := mk 0x605 [3]; let d : Dev := s.hw; let v : Nat := rqw rq 1; let i : Fin 8 := 3; let x : Img := d.img i.val;
      s.Inv ∧ rq.by m ∧ d.Asked rq 1541 4 ∧ v = i.val ∧ x.state ≠ 6) ∧
    (let s : State := st (chozer on { imgs := [(0, { im 0 with state := 6, trialEnd := 5 })] }); let m : Fin 16 := 3;
      let rq : Request := mk 0x600 [0,64]; let d : Dev := s.hw; let i : Fin 8 := 0;
      s.Inv ∧ rq.by m ∧ (d.img i.val).state = 6 ∧ (d.img i.val).trialEnd ≤ d.beam) ∧
    (let s : State := st (chozer on { imgs := [(3, { im 3 with state := 5, got := [] }), (5, { im 5 with state := 6 })], updX := [5] });
      let m : Fin 16 := 3; let rq : Request := mk 0x600 [0,64]; let d : Dev := s.hw; let i : Fin 8 := 5;
      s.Inv ∧ rq.by m ∧ (d.img i.val).state = 6 ∧ d.beam < (d.img i.val).trialEnd) ∧
    (let s : State := st (ask (chozer on { imgs := [(3, { im 3 with state := 0 })] }) (mk 0x606 [3])); let m : Fin 16 := 3;
      let rq : Request := mk 0x606 [3]; let d : Dev := s.hw; let v : Nat := rqw rq 1; let i : Fin 8 := 3;
      s.Inv ∧ rq.by m ∧ d.Asked rq 1542 4 ∧ v = i.val) ∧
    (let s : State := st (ask (chozer on { imgs := [(3, { im 3 with state := 0, got := [] }), (5, { im 5 with state := 1 })], updX := [5] }) (mk 0x607 [])); let m : Fin 16 := 3; let rq : Request := mk 0x607 []; let d : Dev := s.hw; let only : Fin 8 → Nat → Prop := fun (i : Fin 8) (x : Nat) => (d.img i.val).state = x ∧ ∀ (j : Fin 8), j ≠ i → (d.img ↑j).state ≠ x; let i : Fin 8 := 5;
      s.Inv ∧ rq.by m ∧ d.Asked rq 1543 0 ∧ (only i 1 ∨ only i 3) ∧ (∀ (j : Fin 8), j ≠ i → (d.img ↑j).state = 0 ∨ 4 < (d.img ↑j).state)) ∧
    (let s : State := st (ask (chozer on { imgs := [(3, { im 3 with state := 1, got := [] }), (5, { im 5 with state := 2 })], updX := [5] }) (mk 0x607 [])); let m : Fin 16 := 3; let rq : Request := mk 0x607 []; let d : Dev := s.hw; let only : Fin 8 → Nat → Prop := fun (i : Fin 8) (x : Nat) => (d.img i.val).state = x ∧ ∀ (j : Fin 8), j ≠ i → (d.img ↑j).state ≠ x; let i : Fin 8 := 5;
      s.Inv ∧ rq.by m ∧ d.Asked rq 1543 0 ∧ (only i 2 ∨ only i 4)) := by
  refine ⟨?_, ?_, ?_, ?_, ?_, ?_, ?_, ?_, ?_, ?_, ?_, ?_, ?_, ?_, ?_, ?_, ?_, ?_, ?_, ?_⟩ <;> dsimp only <;>
    (repeat' first | decide +kernel | exact inv_st _ (by decide +kernel) (by decide +kernel) | refine And.intro ?_ ?_ | refine Dev.Asked.mk ?_ ?_ ?_ ?_ ?_ ?_)

end Upd

namespace Net

def mk (cmd : Nat) (pl : List Nat) (len : Nat := 4 * pl.length) : Request := ⟨3, (((cmd * 2^20 + 0x5A * 2^12 + len) :: pl) ++ List.replicate (15 - pl.length) 0).map (BitVec.ofNat 32), 0, none⟩
def bytes (l : List Nat) : List Byte := l.map (BitVec.ofNat 8)
def frm (dst src : List Nat) (rest : List Nat) : List Byte := bytes (dst ++ src ++ rest) ++ List.replicate (64 - 12 - rest.length) 7
def A : List Nat := [0x02,1,2,3,4,5]
def B : List Nat := [0x02,9,8,7,6,5]
def f0 : NetFrame := ⟨frm A B [8,0,1,2,3], true, true⟩
def up (d : Dev) : Dev := { d with cores := tabSet {} d.cores 8 { d.core 8 with run := true } }
def P (d : Dev) : Dev := (List.range 4).foldl (fun d p => (((((((d.set1 (CHN_CTL p) CHN_CTL_EN).wf (CHN_CTL p) CHN_CTL_PROMISC 1).w (CHN_TXR_BASE p 0) (BitVec.ofNat 32 (0x10100000 + p * 0x1000))).w (CHN_RXR_BASE p) (BitVec.ofNat 32 (0x10110000 + p * 0x1000))).w (CHN_IRQ_EN p) 0xFF).storeN (0x10100000 + p * 0x1000) 0x10120000 4).storeN (0x10100004 + p * 0x1000) (0x80000000 + 0x40) 4 |>.storeN (0x10110000 + p * 0x1000) 0x10130000 4).storeN (0x10110004 + p * 0x1000) (0x80000000 + 0x30 + p * 16) 4) (up ({d with beam := 1000000000}.set1 BEAM_STATUS BEAM_STATUS_TT_VALID))
def b0 : Dev := { P on with net := { on.net with cfg := [(0,⟨true,false,true⟩),(1,⟨true,true,true⟩)], partners := [(0,some { ident := 0x55, port := 1, rear := false, hop := 3, seen := 500 }), (2, some { ident := 0x66, port := 0, rear := true, hop := 0, seen := 999999999 })], scan := [(0,true),(8,true)], macs := [(leNat (bytes A), 1, 1000000000)], err := -77, gm := 0x123456789, servo := 1, good := 7 } }
def hup (d : Dev) : Dev := (d.set1 SGN_STATUS SGN_STATUS_READY |>.w SGN_HUP_C 3000).wf SGN_HUP_V SGN_HUP_V_V 5000
def setup (d : Dev) : Dev := d.wf PWR_MODE PWR_MODE_MODE mSetup
def g (d : Dev) : Dev := { d.wf (CHN_GCL_CTL 0) CHN_GCL_CTL_GATE_EN 1 with net := { d.net with gcl := [(0,{cycle := 1000, base := 500, len := 2, ents := [0xFF000010,0x0F000020, 7]})]} }
def ask (d : Dev) (rq : Request) : Dev := { d with chozer := { d.chozer with reqs := [rq] } }

def other : BitVec 64 := BitVec.ofNat 64 (Config.identity + 1)

theorem other_ne : other.toNat ≠ Config.identity % 2 ^ 64 := by
  rw [other, BitVec.toNat_ofNat]; omega

set_option maxRecDepth 20000 in
theorem test_witness_ChainTraffic :
    (let s : State := st (ask (hup b0) (mk 0x500 [0])); let d : Dev := s.hw; let m : Fin 16 := 3; let rq : Request := mk 0x500 [0];
      let v : Nat := rqw rq 1;
      s.Inv ∧ rq.by m ∧ d.Asked rq 1280 4 ∧ v ≤ 63) ∧
    (let s : State := st (ask (setup (hup b0)) (mk 0x501 [0x701])); let p : Fin 4 := 1; let d : Dev := s.hw; let m : Fin 16 := 3;
      let rq : Request := mk 0x501 [0x701]; let v : Nat := rqw rq 1; let a : Bool := true; let b : Bool := true; let c : Bool := true;
      s.Inv ∧ rq.by m ∧ d.Asked rq 1281 4 ∧
          (v = ((p.val + if a = true then 2 ^ 8 else 0) + if b = true then 2 ^ 9 else 0) + if c = true then 2 ^ 10 else 0) ∧ d.mode = mSetup ∧
          d.b SGN_STATUS SGN_STATUS_DEVICE_WORN = false ∧ d.hupEnough 1 = true) ∧
    (let s : State := st (ask (hup b0) (mk 0x501 [0x701])); let p : Fin 4 := 1; let d : Dev := s.hw; let m : Fin 16 := 3;
      let rq : Request := mk 0x501 [0x701]; let v : Nat := rqw rq 1; let a : Bool := true; let b : Bool := true; let c : Bool := true;
      s.Inv ∧ rq.by m ∧ d.Asked rq 1281 4 ∧
          (v = ((p.val + if a = true then 2 ^ 8 else 0) + if b = true then 2 ^ 9 else 0) + if c = true then 2 ^ 10 else 0) ∧ d.mode ≠ mSetup) ∧
    (let s : State := st (ask (setup (hup b0)) (mk 0x502 [0])); let d : Dev := s.hw; let m : Fin 16 := 3; let rq : Request := mk 0x502 [0];
      let v : Nat := rqw rq 1; let a : Bool := false; let b : Bool := false;
      s.Inv ∧ rq.by m ∧ d.Asked rq 1282 4 ∧ (v = (if a = true then 1 else 0) + if b = true then 2 else 0) ∧ d.part.hasSwitch = true ∧
          d.mode = mSetup ∧ (a = false ∨ d.net.seen0 = []) ∧ d.b SGN_STATUS SGN_STATUS_DEVICE_WORN = false ∧ d.hupEnough 1 = true) ∧
    (let s : State := st (ask (setup (hup {b0 with net := {b0.net with seen0 := [(0x55,1000000000)], seen1 := [(0x55,1000000000)]}})) (mk 0x502 [3])); let d : Dev := s.hw; let m : Fin 16 := 3; let rq : Request := mk 0x502 [3]; let v : Nat := rqw rq 1; let a : Bool := true; let b : Bool := true; let id : Nat := 85; let t : Nat := 1000000000;
      s.Inv ∧ rq.by m ∧ d.Asked rq 1282 4 ∧ (v = (if a = true then 1 else 0) + if b = true then 2 else 0) ∧ d.part.hasSwitch = true ∧
          d.mode = mSetup ∧ a = true ∧ (id, t) ∈ d.net.seen0 ∧ d.seenBoth id = true) ∧
    (let s : State := st (ask (hup b0) (mk 0x502 [0])); let d : Dev := s.hw; let m : Fin 16 := 3; let rq : Request := mk 0x502 [0];
      let v : Nat := rqw rq 1; let a : Bool := false; let b : Bool := false;
      s.Inv ∧ rq.by m ∧ d.Asked rq 1282 4 ∧ (v = (if a = true then 1 else 0) + if b = true then 2 else 0) ∧ d.part.hasSwitch = true ∧
          d.mode ≠ mSetup) ∧
    (let s : State := st (ask (hup b0) (mk 0x503 [])); let d : Dev := s.hw; let m : Fin 16 := 3; let rq : Request := mk 0x503 [];
      s.Inv ∧ rq.by m ∧ d.Asked rq 1283 0) ∧
    (let s : State := st {b0 with beam := 1000000000000}; let p : Fin 4 := 0; let d : Dev := s.hw; let q : Req := 8; let r : Fin 8 := 0;
      let a : Nat := d.txDesc p.val r.val;
      s.Inv ∧ d.accessErr (q.val) (CHN_TXR_KICK p.val r.val) 4 true = BErr.none ∧ d.portUp p.val = true ∧ d.dmaReach a = true ∧
          d.dmaReach (d.loadN a 4) = true) ∧
    (let s : State := st {b0 with beam := 1000000000000}; let p : Fin 4 := 0; let d : Dev := s.hw; let q : Req := 8; let r : Fin 8 := 3;
      let a : Nat := d.txDesc p.val r.val;
      s.Inv ∧ d.accessErr (q.val) (CHN_TXR_KICK p.val r.val) 4 true = BErr.none ∧ d.portUp p.val = true ∧ d.dmaReach a = false) ∧
    (let s : State := st {b0 with beam := 1000000000000}; let p : Fin 4 := 0; s.Inv ∧ let d : Dev := s.hw;
      let port : Prop := d.portUp p.val = true ∧ d.swOn = false; let r : Fin 8 := 0; port ∧ let a : Nat := d.txDesc p.val r.val;
      let w1 : Nat := d.loadN (a + 4) 4; let f : List Byte := d.loadBytes (d.loadN a 4) (w1 % 2 ^ 14);
      let f : List Byte := f ++ List.replicate (60 - f.length) 0;
      tabGet false d.net.scan (p.val * 8 + r.val) = true ∧ d.dmaReach a = true ∧ d.gateAllows (p.val) (r.val) f.length = true) ∧
    (let s : State := st {b0 with beam := 1000000000000}; let p : Fin 4 := 0; let d : Dev := s.hw;
      let port : Prop := d.portUp p.val = true ∧ d.swOn = false; let f : NetFrame := f0; let i : Nat := d.f (CHN_RXR_PTR p.val) CHN_RXR_PTR_PTR;
      let k : Nat := d.f (CHN_RXR_CFG p.val) CHN_RXR_CFG_LOG2; let a : Nat := descAddr (BitVec.toNat (d.r (CHN_RXR_BASE p.val))) k i;
      let buf : Nat := d.loadN a 4; let w1 : Nat := d.loadN (a + 4) 4; let n : Nat := min f.bytes.length (w1 % 2 ^ 14);
      s.Inv ∧ 60 ≤ f.bytes.length ∧ f.bytes.length ≤ 1518 ∧ f.fcsOk = true ∧ port ∧ d.accepts (p.val) f.bytes = true ∧ d.dmaReach a = true ∧
          nbit w1 31 = true ∧ d.dmaReach buf = true ∧ (buf + n ≤ a ∨ a + 16 ≤ buf)) ∧
    (let s : State := st (b0.w (CHN_RXR_BASE 2) 0x10140000); let p : Fin 4 := 2; let d : Dev := s.hw;
      let port : Prop := d.portUp p.val = true ∧ d.swOn = false; let f : NetFrame := f0; let i : Nat := d.f (CHN_RXR_PTR p.val) CHN_RXR_PTR_PTR;
      let k : Nat := d.f (CHN_RXR_CFG p.val) CHN_RXR_CFG_LOG2; let a : Nat := descAddr (BitVec.toNat (d.r (CHN_RXR_BASE p.val))) k i;
      let w1 : Nat := d.loadN (a + 4) 4;
      s.Inv ∧ 60 ≤ f.bytes.length ∧ f.bytes.length ≤ 1518 ∧ f.fcsOk = true ∧ port ∧ d.accepts (p.val) f.bytes = true ∧ d.dmaReach a = true ∧
          nbit w1 31 = false) ∧
    (let s : State := st (b0.w CHN_SW_CTL 1); let p : Fin 4 := 0; let d : Dev := s.hw; let f : NetFrame := f0;
      s.Inv ∧ 60 ≤ f.bytes.length ∧ f.bytes.length ≤ 1518 ∧ f.fcsOk = true ∧ p < 2 ∧ d.portUp p.val = true ∧ d.portUp (1 - p.val) = true ∧
          d.swOn = true ∧ d.chnFwd = true ∧ d.b CHN_SW_CTL CHN_SW_CTL_BLOCK1 = false ∧ nbit (fbyte f.bytes 0) 0 = false ∧
          d.net.macs = [(leNat (List.take 6 f.bytes), 1 - p.val, d.beam)] ∧ nbit (fbyte f.bytes 6) 0 = false ∧
          leNat (slice f.bytes 6 6) ≠ leNat (List.take 6 f.bytes) ∧ d.chozFrame 1 f.bytes = false ∧ etype f.bytes ≠ 35063) ∧
    (let s : State := st {b0 with beam := 1000000000000}; let p : Fin 4 := 0; let d : Dev := s.hw; let q : Req := 8;
      s.Inv ∧ d.accessErr (q.val) (CHN_GCL_CTL p.val) 4 true = BErr.none ∧ d.b (CHN_GCL_CTL p.val) CHN_GCL_CTL_PENDING = false ∧
          d.gating p.val = false) ∧
    (let s : State := st { (g b0).wf (CHN_GCL_CTL 0) CHN_GCL_CTL_PENDING 1 with net := {(g b0).net with gcl := [(0,{cycle := 10, swap := 77, ents := [0xFF000010]})] }}; let p : Fin 4 := 0; let d : Dev := s.hw; let q : Req := 8;
      s.Inv ∧ d.accessErr (q.val) (CHN_GCL_CTL p.val) 4 true = BErr.none ∧ d.b (CHN_GCL_CTL p.val) CHN_GCL_CTL_PENDING = true) ∧
    (let s : State := st { (g b0).wf (CHN_GCL_CTL 0) CHN_GCL_CTL_PENDING 1 with net := {(g b0).net with gcl := [(0,{cycle := 10, swap := 77, ents := [0xFF000010]})] }}; let p : Fin 4 := 0; let d : Dev := s.hw;
      s.Inv ∧ d.ticking = true ∧ d.powered (9 + p.val) = true ∧ d.b (CHN_GCL_CTL p.val) CHN_GCL_CTL_PENDING = true ∧
          (d.gcl p.val).swap ≤ d.trainTime) ∧
    (let s : State := st {g b0 with beam := 1000000250}; let p : Fin 4 := 0; let d : Dev := s.hw;
      let cs : Nat := d.trainTime - (d.trainTime - (d.gcl p.val).base) % max 1 (d.gcl p.val).cycle;
      s.Inv ∧ d.ticking = true ∧ d.powered (9 + p.val) = true ∧ d.b (CHN_GCL_CTL p.val) CHN_GCL_CTL_PENDING = false ∧ d.gating p.val = true ∧
          (d.gcl p.val).base ≤ d.trainTime ∧ d.trainTime < cs + 2 ∧ (d.gcl p.val).start ≠ cs) ∧
    (let s : State := st {b0 with beam := 1000000000000}; let d : Dev := s.hw; let i : Nat := 0;
      let e : Nat × Nat × Nat := (leNat (bytes A), 1, 1000000000);
      s.Inv ∧ d.net.macs[i]? = some e ∧ e.snd.snd + max 1 (d.f CHN_SW_AGE CHN_SW_AGE_S) * (1000 * msTicks) ≤ d.beam) ∧
    (let s : State := st b0; let d : Dev := s.hw; let i : Nat := 0; let e : Nat × Nat × Nat := (leNat (bytes A), 1, 1000000000);
      s.Inv ∧ d.net.macs[i]? = some e ∧ d.beam < e.snd.snd + max 1 (d.f CHN_SW_AGE CHN_SW_AGE_S) * (1000 * msTicks)) ∧
    (let s : State := st {b0 with beam := 1000000000000}; let p : Fin 4 := 0; let d : Dev := s.hw; let up : Bool := true;
      s.Inv ∧ d.powered (9 + p.val) = true ∧ d.b (CHN_STATUS p.val) CHN_STATUS_LINK ≠ up) ∧
    (let s : State := st {b0 with beam := 1000000000000}; let p : Fin 4 := 0; let d : Dev := s.hw;
      s.Inv ∧ d.chozUp = true ∧ (d.portCfg p.val).tsync = true ∧ d.portUp p.val = true ∧ d.lost = false) ∧
    (let s : State := st {b0 with beam := 1000000000000}; let d : Dev := s.hw;
      s.Inv ∧ d.net.lastSync + 3000 * msTicks ≤ d.beam) ∧
    (let s : State := st b0; let d : Dev := s.hw;
      s.Inv ∧ d.beam < d.net.lastSync + 3000 * msTicks) ∧
    (let s : State := st {b0 with beam := 1000000000000}; let p : Fin 4 := 0; let d : Dev := s.hw;
      s.Inv ∧ (d.portCfg p.val).disc = true ∧ d.managerUp = true ∧ d.portUp p.val = true ∧ d.mode ≠ mDormant) ∧
    (let s : State := st {b0 with beam := 1000000000000}; let d : Dev := s.hw; let id : BitVec 64 := BitVec.ofNat 64 Config.identity;
      s.Inv ∧ d.chozUp = true ∧ id.toNat = Config.identity % 2 ^ 64) ∧
    (let s : State := st { b0 with net := { b0.net with partners := [] } }; let d : Dev := s.hw; let id : BitVec 64 := other; let i : Fin 64 := 0;
      s.Inv ∧ d.chozUp = true ∧ id.toNat ≠ Config.identity % 2 ^ 64 ∧
          (∀ (j : Fin 64), Option.map (fun (x : Partner) => x.ident) (d.partner ↑j) ≠ some id.toNat) ∧ d.partner i.val = none ∧
          (∀ (j : Fin 64), j < i → (d.partner ↑j).isSome = true)) ∧
    (let s : State := st { b0 with net := { b0.net with partners := [(0, some { ident := other.toNat, port := 1, rear := false, hop := 3, seen := 500 })] } }; let p : Fin 4 := 1; let d : Dev := s.hw; let id : BitVec 64 := other; let hop : Fin 256 := 0; let i : Fin 64 := 0; let x : Partner := { ident := other.toNat, port := 1, rear := false, hop := 3, seen := 500 };
      s.Inv ∧ d.chozUp = true ∧ id.toNat ≠ Config.identity % 2 ^ 64 ∧ d.partner i.val = some x ∧ x.ident = id.toNat ∧
          (∀ (j : Fin 64), j < i → Option.map (fun (x : Partner) => x.ident) (d.partner ↑j) ≠ some id.toNat) ∧ x.port = p.val ∧ hop.val ≤ x.hop) ∧
    (let s : State := st {b0 with beam := 1000000000000}; let d : Dev := s.hw;
      s.Inv ∧ d.chozUp = true) ∧
    (let s : State := st {b0 with beam := 1000000000000}; let p : Fin 4 := 0; let d : Dev := s.hw;
      s.Inv ∧ d.chozUp = true ∧ (d.portCfg p.val).tsync = true ∧ d.portUp p.val = true) := by
  refine ⟨?_, ?_, ?_, ?_, ?_, ?_, ?_, ?_, ?_, ?_, ?_, ?_, ?_, ?_, ?_, ?_, ?_, ?_, ?_, ?_, ?_, ?_, ?_, ?_, ?_, ?_, ?_, ?_, ?_⟩ <;> dsimp only <;>
    (repeat' first | decide +kernel | exact inv_st _ (by decide +kernel) (by decide +kernel) | refine And.intro ?_ ?_ | refine Dev.Asked.mk ?_ ?_ ?_ ?_ ?_ ?_ | exact BitVec.toNat_ofNat .. | exact other_ne | exact rfl)

end Net

namespace Cans

def C : Nat := 2
def fr (ide fdf : Bool) (id : Nat) (h : Nat) : CanFrame := ⟨ide, fdf, false, BitVec.ofNat 29 id, 2, [BitVec.ofNat 8 h, 7, 8]⟩
def b0 : Dev := (((({on with beam := 100000000}.wf (CAN_CTL C) CAN_CTL_INIT 0).w (CAN_TXB C 0 0) 0x500).w (CAN_TXB C 1 0) 0x40).w (CAN_TXB C 2 0) 0x40).w (CAN_IRQ_EN C) 0xFF
def fl (d : Dev) : Dev := (((d.w (CAN_FLT_ID C 3) (BitVec.ofNat 32 (0x80000000 + 0x123))).w (CAN_FLT_MASK C 3) 0x7FF).w (CAN_FLT_ID C 5) (BitVec.ofNat 32 (0xC0000000 + 0x120))).w (CAN_FLT_MASK C 5) 0xFF0
def mg (d : Dev) : Dev := ((d.wf (CAN_MGMT C) CAN_MGMT_EN 1).wf (CAN_MGMT C) CAN_MGMT_ID 0x777).wf (CAN_CTL C) CAN_CTL_FD_EN 1
def sc (d : Dev) (x : CanH) : Dev := d.setCanc C x

theorem test_witness_CanFrames :
    (let s : State := st b0; let c : Fin 6 := 2; let d : Dev := s.hw; let x : CanH := d.canc c.val;
      let live : Prop := d.canOn c.val = true ∧ d.b (CAN_CTL c.val) CAN_CTL_LISTEN = false; let q : Req := 8;
      s.Inv ∧ d.accessErr (q.val) (CAN_TXREQ c.val) 4 true = BErr.none ∧ live ∧ x.pick = none) ∧
    (let s : State := st b0; let c : Fin 6 := 2; let d : Dev := s.hw;
      let live : Prop := d.canOn c.val = true ∧ d.b (CAN_CTL c.val) CAN_CTL_LISTEN = false; let q : Req := 8;
      s.Inv ∧ d.accessErr (q.val) (CAN_TXABORT c.val) 4 true = BErr.none ∧ live) ∧
    (let s : State := st (sc (b0.w (CAN_TXPEND C) 6) {pick := some 2}); let c : Fin 6 := 2; let d : Dev := s.hw; let x : CanH := d.canc c.val;
      let live : Prop := d.canOn c.val = true ∧ d.b (CAN_CTL c.val) CAN_CTL_LISTEN = false; let b : Fin 16 := 2;
      s.Inv ∧ live ∧ x.pick = some b.val) ∧
    (let s : State := st (fl b0); let c : Fin 6 := 2; let d : Dev := s.hw; let f : CanFrame := fr false false 0x123 0;
      let mgmt : Prop := d.b (CAN_MGMT c.val) CAN_MGMT_EN = true ∧ f.ide = true ∧ f.fdf = true ∧ f.id.toNat = d.f (CAN_MGMT c.val) CAN_MGMT_ID;
      let on : Fin 16 → Bool := fun (k : Fin 16) => d.b (CAN_FLT_ID c.val k.val) CAN_FLT_ID_EN;
      let pass : Fin 16 → Prop := fun (k : Fin 16) => on k = true ∧ d.bit (CAN_FLT_ID c.val k.val) 30 = f.ide ∧
        ∀ (i : Fin 29), nbit (d.f (CAN_FLT_MASK c.val k.val) CAN_FLT_MASK_M) ↑i = true → d.bit (CAN_FLT_ID c.val k.val) ↑i = f.id.getLsb i;
      let k : Fin 16 := 3;
      s.Inv ∧ d.canOn c.val = true ∧ (f.fdf = false ∨ d.b (CAN_CTL c.val) CAN_CTL_FD_EN = true) ∧ ¬mgmt ∧ pass k ∧
          (∀ (j : Fin 16), j < k → ¬pass j)) ∧
    (let s : State := st b0; let c : Fin 6 := 2; let d : Dev := s.hw; let f : CanFrame := fr false false 0x123 0;
      let mgmt : Prop := d.b (CAN_MGMT c.val) CAN_MGMT_EN = true ∧ f.ide = true ∧ f.fdf = true ∧ f.id.toNat = d.f (CAN_MGMT c.val) CAN_MGMT_ID;
      let on : Fin 16 → Bool := fun (k : Fin 16) => d.b (CAN_FLT_ID c.val ↑k) CAN_FLT_ID_EN;
      s.Inv ∧ d.canOn c.val = true ∧ (f.fdf = false ∨ d.b (CAN_CTL c.val) CAN_CTL_FD_EN = true) ∧ ¬mgmt ∧ (∀ (k : Fin 16), on k = false)) ∧
    (let s : State := st (fl (mg b0)); let c : Fin 6 := 2; let d : Dev := s.hw; let f : CanFrame := fr false true 0x1 0;
      let mgmt : Prop := d.b (CAN_MGMT c.val) CAN_MGMT_EN = true ∧ f.ide = true ∧ f.fdf = true ∧ f.id.toNat = d.f (CAN_MGMT c.val) CAN_MGMT_ID;
      let on : Fin 16 → Bool := fun (k : Fin 16) => d.b (CAN_FLT_ID c.val ↑k) CAN_FLT_ID_EN;
      let pass : Fin 16 → Prop := fun (k : Fin 16) => on k = true ∧ d.bit (CAN_FLT_ID c.val ↑k) 30 = f.ide ∧
        ∀ (i : Fin 29), nbit (d.f (CAN_FLT_MASK c.val ↑k) CAN_FLT_MASK_M) ↑i = true → d.bit (CAN_FLT_ID c.val ↑k) ↑i = f.id.getLsb i;
      s.Inv ∧ d.canOn c.val = true ∧ (f.fdf = false ∨ d.b (CAN_CTL c.val) CAN_CTL_FD_EN = true) ∧ ¬mgmt ∧ (∃ (k : Fin 16), on k = true) ∧
          (∀ (k : Fin 16), ¬pass k)) ∧
    (let s : State := st (fl (mg b0)); let c : Fin 6 := 2; let d : Dev := s.hw; let x : CanH := d.canc c.val;
      let f : CanFrame := fr true true 0x777 0;
      let mgmt : Prop := d.b (CAN_MGMT c.val) CAN_MGMT_EN = true ∧ f.ide = true ∧ f.fdf = true ∧ f.id.toNat = d.f (CAN_MGMT c.val) CAN_MGMT_ID;
      s.Inv ∧ d.canOn c.val = true ∧ (f.fdf = false ∨ d.b (CAN_CTL c.val) CAN_CTL_FD_EN = true) ∧ mgmt ∧ x.segNo = fbyte f.data 0 ∧ x.segNo < 128 ∧
          (x.segNo = 0 ∨ d.beam ≤ x.segAt + 50 * msTicks)) ∧
    (let s : State := st (sc (mg b0) {segNo := 1, segAt := 1, seg := [1]}); let c : Fin 6 := 2; let d : Dev := s.hw; let x : CanH := d.canc c.val;
      s.Inv ∧ x.segNo ≠ 0 ∧ x.segAt + 50 * msTicks < d.beam) ∧
    (let s : State := st (sc (mg b0) {segNo := 1, segAt := 90000000, seg := [1]}); let c : Fin 6 := 2; let d : Dev := s.hw;
      let x : CanH := d.canc c.val;
      s.Inv ∧ x.segNo ≠ 0 ∧ d.beam ≤ x.segAt + 50 * msTicks) ∧
    (let s : State := st b0; let c : Fin 6 := 2; let d : Dev := s.hw; let q : Req := 8;
      s.Inv ∧ d.accessErr (q.val) (CAN_RXPOP c.val) 4 true = BErr.none) ∧
    (let s : State := st (sc (b0.w (CAN_TXPEND C) 6) {pick := some 2}); let c : Fin 6 := 2; let d : Dev := s.hw; let x : CanH := d.canc c.val;
      let live : Prop := d.canOn c.val = true ∧ d.b (CAN_CTL c.val) CAN_CTL_LISTEN = false; let b : Fin 16 := 2;
      let again : Prop := d.b (CAN_CTL c.val) CAN_CTL_ONE_SHOT = false;
      s.Inv ∧ live ∧ x.pick = some b.val ∧ again) ∧
    (let s : State := st (sc ((b0.w (CAN_TXPEND C) 6).wf (CAN_CTL C) CAN_CTL_ONE_SHOT 1) {pick := some 2}); let c : Fin 6 := 2; let d : Dev := s.hw;
      let x : CanH := d.canc c.val; let live : Prop := d.canOn c.val = true ∧ d.b (CAN_CTL c.val) CAN_CTL_LISTEN = false; let b : Fin 16 := 2;
      let again : Prop := d.b (CAN_CTL c.val) CAN_CTL_ONE_SHOT = false;
      s.Inv ∧ live ∧ x.pick = some b.val ∧ ¬again) ∧
    (let s : State := st (sc (b0.w (CAN_TXPEND C) 6) {pick := some 2}); let c : Fin 6 := 2; let d : Dev := s.hw; let x : CanH := d.canc c.val;
      let live : Prop := d.canOn c.val = true ∧ d.b (CAN_CTL c.val) CAN_CTL_LISTEN = false; let b : Fin 16 := 2; let tec : Fin 512 := 0;
      s.Inv ∧ live ∧ x.pick = some b.val ∧ tec < 256) ∧
    (let s : State := st (sc (b0.w (CAN_TXPEND C) 6) {pick := some 2}); let c : Fin 6 := 2; let d : Dev := s.hw; let x : CanH := d.canc c.val;
      let live : Prop := d.canOn c.val = true ∧ d.b (CAN_CTL c.val) CAN_CTL_LISTEN = false; let b : Fin 16 := 2; let tec : Fin 512 := 256;
      s.Inv ∧ live ∧ x.pick = some b.val ∧ 256 ≤ tec) ∧
    (let s : State := st ((b0.set1 (CAN_STATUS C) CAN_STATUS_BUS_OFF).set1 (CAN_CTL C) CAN_CTL_AUTO_RECOV); let c : Fin 6 := 2; let d : Dev := s.hw;
      let x : CanH := d.canc c.val;
      s.Inv ∧ d.powered (14 + c.val) = true ∧ d.b (CAN_STATUS c.val) CAN_STATUS_BUS_OFF = true ∧ d.b (CAN_CTL c.val) CAN_CTL_INIT = false ∧
          (d.b (CAN_CTL c.val) CAN_CTL_AUTO_RECOV = true ∨ x.recov = true)) ∧
    (let s : State := st (b0.set1 (CAN_STATUS C) CAN_STATUS_BUS_OFF); let c : Fin 6 := 2; let d : Dev := s.hw; let x : CanH := d.canc c.val;
      s.Inv ∧ d.powered (14 + c.val) = true ∧ d.b (CAN_STATUS c.val) CAN_STATUS_BUS_OFF = true ∧ d.b (CAN_CTL c.val) CAN_CTL_INIT = false ∧
          d.b (CAN_CTL c.val) CAN_CTL_AUTO_RECOV = false ∧ x.recov = false) ∧
    (let s : State := st b0; let c : Fin 6 := 2; let d : Dev := s.hw; let q : Req := 8;
      s.Inv ∧ d.accessErr (q.val) (CAN_CTL c.val) 4 true = BErr.none) ∧
    (let s : State := st b0; let c : Fin 6 := 2; let d : Dev := s.hw;
      s.Inv ∧ d.canOn c.val = true) := by
  refine ⟨?_, ?_, ?_, ?_, ?_, ?_, ?_, ?_, ?_, ?_, ?_, ?_, ?_, ?_, ?_, ?_, ?_, ?_⟩ <;> dsimp only <;>
    (repeat' first | decide +kernel | exact inv_st _ (by decide +kernel) (by decide +kernel) | refine And.intro ?_ ?_)

end Cans

namespace IllFormed

/-- What START finds with image 3 named twice. -/
def twice : BootInfo :=
  let i : ImgInfo := { image := 3, version := 1, flags := 0, load := 0, entry := 0, bytes := [] }
  { (default : BootInfo) with images := [i, i] }

theorem test_illformed_wake_event : (Instr.wakeEvent twice).wellFormed = false := by decide
theorem test_illformed_reset_release : (Instr.resetRelease twice).wellFormed = false := by decide
theorem test_illformed_wake_pin : (Instr.wakePin twice).wellFormed = false := by decide
theorem test_illformed_serial_word : (Instr.serialWord 0 0 0 (2 ^ 64)).wellFormed = false := by decide
theorem test_illformed_shift : (Instr.shift 0 0 0 0 false 0 [true, true]).wellFormed = false := by decide
theorem test_illformed_cmp : (Instr.cmp 0 .al 0 10).wellFormed = false := by decide
theorem test_illformed_cmpi : (Instr.cmpi 0 .al 0 10 0).wellFormed = false := by decide
theorem test_illformed_commit_done : (Instr.ledgerCommitDone [2, 2]).wellFormed = false := by decide
theorem test_illformed_window_read : (Instr.ledgerWindowRead 0 (2 ^ 32) false).wellFormed = false := by decide
theorem test_illformed_external_message :
    (Instr.externalMessage { link := 0, src := 0, hdr := 0, sid := 0, ctr := 0, payload := List.replicate 16 0, tag := 0 }).wellFormed =
      false := by decide
theorem test_illformed_route_unaligned : (Instr.routeDirectWrite 0 2 0).wellFormed = false := by decide
theorem test_illformed_route_far : (Instr.routeDirectWrite 0 (2 ^ 32) 0).wellFormed = false := by decide
theorem test_illformed_array_waiting :
    (Instr.arrayAccess [1, 1] { target := 0, addr := 0, kind := .read, preempt := false, waited := 0, first := .clean, second := .clean }).wellFormed =
      false := by decide
theorem test_illformed_array_target :
    (Instr.arrayAccess [] { target := 32, addr := 0, kind := .read, preempt := false, waited := 0, first := .clean, second := .clean }).wellFormed =
      false := by decide
theorem test_illformed_vout_reading : (Instr.voutSettleExpiry true true (2 ^ 16)).wellFormed = false := by decide
theorem test_illformed_frame :
    (Instr.frameReceived 0 { bytes := List.replicate (2 ^ 16) 0, fcsOk := true, idle := false }).wellFormed = false := by
  rw [Instr.wellFormed, List.length_replicate]; decide
theorem test_illformed_can_length :
    (Instr.canFrameReceived 0 { ide := false, fdf := false, brs := false, id := 1, dlc := 2, data := [1] }).wellFormed = false := by decide
theorem test_illformed_can_identifier :
    (Instr.canFrameReceived 0 { ide := false, fdf := false, brs := false, id := 2048, dlc := 0, data := [] }).wellFormed = false := by decide
theorem test_illformed_can_rate :
    (Instr.canFrameReceived 0 { ide := false, fdf := false, brs := true, id := 1, dlc := 0, data := [] }).wellFormed = false := by decide
theorem test_illformed_write_size : (Instr.registerWrite 0 0x1000 3 0).wellFormed = false := by decide
theorem test_illformed_write_far : (Instr.registerWrite 0 (2 ^ 32) 4 0).wellFormed = false := by decide
theorem test_wellformed_write : (Instr.registerWrite 0 0x1000 4 0).wellFormed = true := by decide

end IllFormed

end Sys2Proof.Tests
end

section
/-! SUPPORT. Latched reads and the offset writes of the Beam (spec/03_beam_and_tally.md R95, R96, R99-R101). -/

namespace Sys2Proof.Machine
open Sys2Proof

/-! ### Accesses that no block refuses -/

/-- A read access that is not refused has its effect and answers its value (R3). -/
theorem Dev.rd_of_accessible {d : Dev} {q a : Nat} (h : d.accessErr q a 4 false = .none) (f : Dev → Dev × Word) :
    d.rd q a f = (f d).1.resp q (f d).2 := by
  simp only [Dev.rd, h]

/-- A write access that is not refused has its effect and answers 0 (R3). -/
theorem Dev.wr_of_accessible {d : Dev} {q a : Nat} (h : d.accessErr q a 4 true = .none) (f : Dev → Dev) :
    d.wr q a f = (f d).resp q 0 := by
  simp only [Dev.wr, h]

/-! ### Latched reads -/

/-- Loading one latch leaves every other one. -/
theorem Dev.latch_setLat_ne (d : Dev) {kind q k : Nat} (v : Nat) (h : k ≠ latchKey kind q) :
    tabGet 0 (d.setLat kind q v).latch k = tabGet 0 d.latch k :=
  tabGet_tabSet_ne _ _ _ _ h

/-- A read that answers bits [31:0] of `v` and loads the reader's latch of `kind` with bits [63:32]. -/
def Dev.latchRead (d : Dev) (kind q v : Nat) : Dev × Word := (d.setLat kind q (nfield v 32 32), wordOf v)

theorem Dev.countRead_eq (d : Dev) (q : Nat) : d.countRead q = d.latchRead latCount q d.beam := rfl

theorem Dev.trainRead_eq (d : Dev) (q : Nat) :
    d.trainRead q = d.latchRead latTT q ((2 * d.beam + d.ttOffset) % 2 ^ 64) := rfl

/-- The two words of the switch tick are its low and its high half. -/
theorem Dev.switchRead_eq (d : Dev) (q : Nat) :
    d.switchRead q = d.latchRead latCount q ((d.r BEAM_SWITCH_LO).toNat + 2 ^ 32 * (d.r BEAM_SWITCH_HI).toNat) := by
  have hlo := (d.r BEAM_SWITCH_LO).isLt
  have hhi := (d.r BEAM_SWITCH_HI).isLt
  have high : nfield ((d.r BEAM_SWITCH_LO).toNat + 2 ^ 32 * (d.r BEAM_SWITCH_HI).toNat) 32 32 =
      (d.r BEAM_SWITCH_HI).toNat := by
    unfold nfield; omega
  have low : wordOf ((d.r BEAM_SWITCH_LO).toNat + 2 ^ 32 * (d.r BEAM_SWITCH_HI).toNat) = d.r BEAM_SWITCH_LO := by
    apply BitVec.eq_of_toNat_eq
    rw [wordOf, BitVec.toNat_ofNat]; omega
  rw [Dev.latchRead, high, low, Dev.switchRead]

/-- A command that is a latched read answers the low half, latches the high half for its requester alone and changes
nothing else (R95, R96). -/
theorem latchRead_runs {s : State} {i : Instr} {q : Req} {a kind v : Nat} {f : Dev → Dev × Word} (hI : s.Inv)
    (he : exec i s = s.done fun d => d.rd q a f) (ha : s.hw.accessErr q a 4 false = .none)
    (hf : f s.hw = s.hw.latchRead kind q v) :
    s.Runs i fun d' => d'.Answers q (BitVec.ofNat 32 v) ∧ d'.lat kind q = v / 2 ^ 32 % 2 ^ 32 ∧
      (∀ k, k ≠ latchKey kind q → tabGet 0 d'.latch k = tabGet 0 s.hw.latch k) ∧
      { s.hw with latch := d'.latch }.Only [] d' := by
  have hd : s.hw.rd q a f = (s.hw.setLat kind q (nfield v 32 32)).resp q (wordOf v) := by
    rw [Dev.rd_of_accessible ha, hf, Dev.latchRead]
  refine runs_of_same hI he (by simp [hd]) (by simp [hd]) ?_
  rw [hd]
  refine ⟨Dev.bus_resp _ _ _ _, ?_, fun k hk => ?_, fun _ _ => rfl, rfl⟩
  · rw [Dev.resp_lat, Dev.lat_setLat, nfield]
  · rw [Dev.resp_latch, Dev.latch_setLat_ne _ _ hk]

/-- A read of BEAM_COUNT_HI returns its reader's count latch and changes nothing (R95). -/
theorem Dev.regRead_countHi (d : Dev) (q : Nat) :
    d.regRead q BEAM_COUNT_HI = (d, BitVec.ofNat 32 (d.lat latCount q)) := rfl

/-! ### The offset of train time -/

/-- The 64-bit offset that a write of `v` to BEAM_TT_OFS_HI puts in force (R100). -/
def Dev.newOffset (d : Dev) (v : Word) : Nat := (d.r BEAM_TT_OFS_LO).toNat + v.toNat * 2 ^ 32

/-- That offset is not the first one and differs by more than 1,000 ns from the one in force (R101). -/
def Dev.offsetSteps (d : Dev) (v : Word) : Bool :=
  d.b BEAM_STATUS BEAM_STATUS_TT_VALID && decide (1000 < (sext 64 (d.newOffset v) - sext 64 d.ttOffset).natAbs)

/-- The block with that offset in force, before a step is noted. -/
def Dev.offsetApplied (d : Dev) (v : Word) : Dev :=
  ((d.w BEAM_TT_OFS_HI v).setLat latOfs 0 (d.newOffset v)).wf BEAM_STATUS BEAM_STATUS_TT_VALID 1

/-- The write applies the offset, and beyond the first one a step above 1,000 ns is noted and raised (R100, R101). -/
theorem Dev.ofsHi_eq (d : Dev) (v : Word) :
    d.ofsHi v = if d.offsetSteps v = true then ((d.offsetApplied v).set1 BEAM_STATUS BEAM_STATUS_TT_STEP).raise 0x0012
      else d.offsetApplied v := by
  have hlo : (d.w BEAM_TT_OFS_HI v).r BEAM_TT_OFS_LO = d.r BEAM_TT_OFS_LO := Dev.r_w_ne _ _ (by decide)
  have hst : (d.w BEAM_TT_OFS_HI v).b BEAM_STATUS BEAM_STATUS_TT_VALID = d.b BEAM_STATUS BEAM_STATUS_TT_VALID := by
    simp only [Dev.b, Dev.f, Dev.r_w_ne d v (show BEAM_STATUS ≠ BEAM_TT_OFS_HI by decide)]
  simp only [Dev.ofsHi, hlo, hst, Bool.not_not]
  rfl

section
variable (d : Dev) (v : Word)

@[simp] theorem Dev.offsetApplied_mem : (d.offsetApplied v).mem = d.mem := rfl
@[simp] theorem Dev.offsetApplied_beam : (d.offsetApplied v).beam = d.beam := rfl
@[simp] theorem Dev.offsetApplied_raised : (d.offsetApplied v).raised = d.raised := rfl

theorem Dev.offsetApplied_ttOffset : (d.offsetApplied v).ttOffset = d.newOffset v := by
  simp [Dev.offsetApplied, Dev.ttOffset]

theorem Dev.offsetApplied_valid : (d.offsetApplied v).b BEAM_STATUS BEAM_STATUS_TT_VALID = true := by
  rw [Dev.offsetApplied, Dev.b, Dev.f_wf_same _ _ _ _ (by decide)]; decide

theorem Dev.offsetApplied_keeps : d.Keeps [BEAM_STATUS, BEAM_TT_OFS_HI] (d.offsetApplied v) := by
  intro a ha
  simp only [List.mem_cons, List.not_mem_nil, or_false, not_or] at ha
  rw [Dev.offsetApplied, Dev.r_wf_ne _ _ _ ha.1, Dev.setLat_r, Dev.r_w_ne _ _ ha.2]

theorem Dev.offsetApplied_step :
    (d.offsetApplied v).b BEAM_STATUS BEAM_STATUS_TT_STEP = d.b BEAM_STATUS BEAM_STATUS_TT_STEP := by
  rw [Dev.offsetApplied, Dev.b_wf_other _ _ _ _ _ (by decide) (by decide), Dev.setLat_b]
  simp only [Dev.b, Dev.f, Dev.r_w_ne d v (show BEAM_STATUS ≠ BEAM_TT_OFS_HI by decide)]

/-- Source 0x0012 is routed as before the write. -/
theorem Dev.offsetApplied_routeOf : (d.offsetApplied v).routeOf 0x0012 = d.routeOf 0x0012 := by
  rw [Dev.offsetApplied, Dev.routeOf_wf _ _ _ (by decide), Dev.setLat_routeOf, Dev.routeOf_w _ _ (by decide)]

end

/-- What a write of `v` to BEAM_TT_OFS_HI leaves (R100, R101). -/
structure Dev.OffsetWritten (d : Dev) (v : Word) (d' : Dev) : Prop where
  offset : d'.ttOffset = d.newOffset v
  valid : d'.b BEAM_STATUS BEAM_STATUS_TT_VALID = true
  step : d'.b BEAM_STATUS BEAM_STATUS_TT_STEP = (d.b BEAM_STATUS BEAM_STATUS_TT_STEP || d.offsetSteps v)
  raised : d'.raised = if d.offsetSteps v then (d.raise 0x0012).raised else d.raised
  regs : d.Keeps [BEAM_STATUS, BEAM_TT_OFS_HI] d'
  mem : d'.mem = d.mem
  beam : d'.beam = d.beam

theorem Dev.ofsHi_written (d : Dev) (v : Word) : d.OffsetWritten v (d.ofsHi v) := by
  by_cases hs : d.offsetSteps v = true
  · rw [Dev.ofsHi_eq, if_pos hs]
    exact {
      offset := d.offsetApplied_ttOffset v
      valid := by rw [Dev.raise_b, Dev.b_set1_other _ _ _ _ (by decide) (by decide), d.offsetApplied_valid v]
      step := by rw [Dev.raise_b, Dev.b_set1_same _ _ _ (by decide) (by decide), hs, Bool.or_true]
      raised := by
        rw [if_pos hs, Dev.raised_raise, Dev.raised_raise, Dev.routeOf_set1 _ _ (by decide), d.offsetApplied_routeOf v]
        simp
      regs := fun a ha => by
        have hst : a ≠ BEAM_STATUS := fun h => ha (by simp [h])
        rw [Dev.raise_r, Dev.r_set1_ne _ _ hst, d.offsetApplied_keeps v a ha]
      mem := by simp
      beam := by simp }
  · rw [Dev.ofsHi_eq, if_neg hs]
    exact {
      offset := d.offsetApplied_ttOffset v
      valid := d.offsetApplied_valid v
      step := by rw [d.offsetApplied_step v, Bool.eq_false_iff.mpr hs, Bool.or_false]
      raised := by rw [if_neg hs, d.offsetApplied_raised v]
      regs := d.offsetApplied_keeps v
      mem := d.offsetApplied_mem v
      beam := d.offsetApplied_beam v }

/-- A write of BEAM_TT_OFS_LO is held and leaves the offset in force (R100). -/
theorem ttOffsetLoWrite_runs {s : State} {q : Req} (hI : s.Inv) (v : Word)
    (ha : s.hw.accessErr q BEAM_TT_OFS_LO 4 true = .none) :
    s.Runs (.ttOffsetLoWrite q v) fun d' =>
      d'.Answers q 0 ∧ d'.r BEAM_TT_OFS_LO = v ∧ d'.ttOffset = s.hw.ttOffset ∧ s.hw.Only [BEAM_TT_OFS_LO] d' := by
  have hd : s.hw.wr q BEAM_TT_OFS_LO (fun d => d.ofsLo v) = (s.hw.w BEAM_TT_OFS_LO v).resp q 0 :=
    Dev.wr_of_accessible ha _
  refine runs_of_same hI rfl (by simp [hd]) (by simp [hd]) ?_
  rw [hd]
  refine ⟨Dev.bus_resp _ _ _ _, ?_, rfl, fun a h => ?_, rfl⟩
  · rw [Dev.resp_r, Dev.r_w_same]
  · rw [Dev.resp_r, Dev.r_w_ne _ _ (by simpa using h)]

/-- A write of BEAM_TT_OFS_HI is answered and applies both halves (R100, R101). -/
theorem ttOffsetHiWrite_runs {s : State} {q : Req} (hI : s.Inv) (v : Word)
    (ha : s.hw.accessErr q BEAM_TT_OFS_HI 4 true = .none) :
    s.Runs (.ttOffsetHiWrite q v) fun d' => d'.Answers q 0 ∧ s.hw.OffsetWritten v d' := by
  have hd : s.hw.wr q BEAM_TT_OFS_HI (fun d => d.ofsHi v) = (s.hw.ofsHi v).resp q 0 := Dev.wr_of_accessible ha _
  have h := s.hw.ofsHi_written v
  refine runs_of_same hI rfl (by rw [hd]; exact h.mem) (by rw [hd]; exact h.beam) ?_
  rw [hd]
  exact ⟨Dev.bus_resp _ _ _ _, ⟨h.offset, h.valid, h.step, h.raised, h.regs, h.mem, h.beam⟩⟩

/-- Settles O30: the three reads are latched reads of one value each, and the offset's halves are held and applied. -/
theorem beamReads : Obligations.BeamReads := by
  intro s q hI
  have countHi := s.hw.regRead_countHi q
  refine ⟨fun ha => latchRead_runs hI rfl ha (s.hw.countRead_eq q), by rw [countHi], by rw [countHi],
    fun ha => latchRead_runs hI rfl ha (s.hw.switchRead_eq q),
    fun ha => latchRead_runs hI rfl ha (s.hw.trainRead_eq q),
    fun v ha => ttOffsetLoWrite_runs hI v ha, fun v ha => ?_⟩
  obtain ⟨t, ht, hp, hans, hw⟩ := ttOffsetHiWrite_runs hI v ha
  exact ⟨t, ht, hp, hans, hw.offset, hw.valid, hw.step, hw.raised, hw.regs⟩

end Sys2Proof.Machine
end

section
/-! SUPPORT. Opening and closing a register clasp (spec/11_clasp_transactions.md R366, R367, R372-R376, R383;
spec/12_instruction_set.md R417, R418). -/

namespace Sys2Proof.Machine
open Sys2Proof

/-! ### Two writes of one key -/

section
variable {α : Type} (t : Tab α) (k : Nat)

theorem tabDel_tabDel : tabDel (tabDel t k) k = tabDel t k := by
  induction t with
  | nil => rfl
  | cons e t ih =>
    by_cases h : e.1 = k <;> simp [tabDel, h, ih]

theorem tabDel_tabIns (v : α) : tabDel (tabIns k v t) k = tabDel t k := by
  induction t with
  | nil => simp [tabIns, tabDel]
  | cons e t ih =>
    by_cases hk : k < e.1
    · simp [tabIns, tabDel, hk]
    · by_cases h : e.1 = k <;> simp [tabIns, tabDel, hk, h, ih]

/-- The later of two writes of one key stands. -/
theorem tabSet_tabSet [DecidableEq α] (dflt u v : α) : tabSet dflt (tabSet dflt t k u) k v = tabSet dflt t k v := by
  have hdel : tabDel (tabSet dflt t k u) k = tabDel t k := by
    unfold tabSet
    split
    · exact tabDel_tabDel t k
    · rw [tabDel_tabIns, tabDel_tabDel]
  rw [tabSet, hdel]
  rfl

end

@[simp] theorem Dev.setClasp_setClasp (d : Dev) (c : Nat) (x y : ClaspH) : (d.setClasp c x).setClasp c y = d.setClasp c y := by
  simp only [Dev.setClasp, tabSet_tabSet]

/-! ### Clasps beside stacks and flags -/

/-- `d` with the clasps, the scheduled steps and the raised sources of `e`. -/
def Dev.takesClasps (d e : Dev) : Dev := { d with clasps := e.clasps, agenda := e.agenda, raised := e.raised }

/-- A step over stacks and flags is the same step beside other clasps. -/
theorem coreStep_takesClasps {d d' : Dev} {c : Core} {pops rpops pc : Nat} {push rpush : List Word} {fl : Fl}
    (h : d.CoreStep c pops push rpops rpush fl pc d') (e : Dev) :
    (d.takesClasps e).CoreStep c pops push rpops rpush fl pc (d'.takesClasps e) where
  depth := h.depth
  top := h.top
  below := h.below
  rdepth := h.rdepth
  rtop := h.rtop
  rbelow := h.rbelow
  flags := h.flags
  status := h.status
  pc_eq := h.pc_eq
  core := h.core
  regs := h.regs
  cores := h.cores
  rest := congrArg (fun x => x.takesClasps e) h.rest

section
variable (d e : Dev) (c : Nat)

@[simp] theorem Dev.takesClasps_f (a : Nat) (g : Fld) : (d.takesClasps e).f a g = d.f a g := rfl
@[simp] theorem Dev.takesClasps_core : (d.takesClasps e).core c = d.core c := rfl
@[simp] theorem Dev.takesClasps_curBank : (d.takesClasps e).curBank c = d.curBank c := rfl
@[simp] theorem Dev.takesClasps_dDepth : (d.takesClasps e).dDepth c = d.dDepth c := rfl
@[simp] theorem Dev.takesClasps_repLeft : (d.takesClasps e).repLeft c = d.repLeft c := rfl
@[simp] theorem Dev.takesClasps_w (a : Nat) (v : Word) : (d.takesClasps e).w a v = (d.w a v).takesClasps e := rfl
@[simp] theorem Dev.takesClasps_wf (a : Nat) (g : Fld) (v : Nat) :
    (d.takesClasps e).wf a g v = (d.wf a g v).takesClasps e := rfl
@[simp] theorem Dev.takesClasps_setPc (a : Nat) : (d.takesClasps e).setPc c a = (d.setPc c a).takesClasps e := rfl

@[simp] theorem Dev.takesClasps_bankSet (a : Nat) (g : Fld) (v : Nat) :
    (d.takesClasps e).bankSet c a g v = (d.bankSet c a g v).takesClasps e := by
  simp only [Dev.bankSet, Dev.dirty, Dev.takesClasps_wf, Dev.takesClasps_curBank]

@[simp] theorem Dev.takesClasps_dPut (w : Word) : (d.takesClasps e).dPut c w = (d.dPut c w).takesClasps e := by
  simp only [Dev.dPut, Dev.dWrite, Dev.setD, Dev.dirty, Dev.dTos, Dev.dDepth, Dev.takesClasps_f, Dev.takesClasps_curBank,
    Dev.takesClasps_w, Dev.takesClasps_wf, Dev.takesClasps_bankSet]

end

/-- A fetch changes the cores, the instruction cache and the free values only. -/
theorem fetchOnly_eq {d d' : Dev} {c : Core} (h : d.FetchOnly c d') :
    d' = { d with cores := d'.cores, icache := d'.icache, free := d'.free } := by
  have hr := h.rest
  rw [← hr]

/-- Stacks and flags of a bank are registers. -/
theorem bankOnly_eq {d d' : Dev} {c : Core} (h : d.BankOnly c d') : d' = { d with regs := d'.regs } := by
  have hr := h.rest
  rw [← hr]

theorem clasp_fetchOnly {d d' : Dev} {c : Core} (h : d.FetchOnly c d') (x : Nat) : d'.clasp x = d.clasp x := by
  rw [fetchOnly_eq h]; rfl

theorem clasp_bankOnly {d d' : Dev} {c : Core} (h : d.BankOnly c d') (x : Nat) : d'.clasp x = d.clasp x := by
  rw [bankOnly_eq h]; rfl

theorem beam_bankOnly {d d' : Dev} {c : Core} (h : d.BankOnly c d') : d'.beam = d.beam := by
  rw [bankOnly_eq h]

theorem curBank_fetchOnly {d d' : Dev} {c : Core} (h : d.FetchOnly c d') : d'.curBank c = d.curBank c := by
  rw [fetchOnly_eq h]; rfl

theorem claspFills_fetchOnly {d d' : Dev} {c : Core} (h : d.FetchOnly c d') : d'.claspFills c = d.claspFills c := by
  rw [fetchOnly_eq h]; rfl

theorem repLeft_bankOnly {d d' : Dev} {c : Core} (h : d.BankOnly c d') : d'.repLeft c = d.repLeft c := by
  rw [Dev.repLeft, Dev.repLeft, h.core, h.bank, h.status _ (by decide) (by decide)]

theorem repLeft_fetchOnly {d d' : Dev} {c : Core} (h : d.FetchOnly c d') : d'.repLeft c = d.repLeft c := by
  have hrep : (d'.core c).rep = (d.core c).rep := (congrArg CoreH.rep h.core :)
  rw [Dev.repLeft, Dev.repLeft, hrep, curBank_fetchOnly h, Dev.f, Dev.f, h.r]

theorem step1_fetchOnly {d d' : Dev} {c : Core} (h : d.FetchOnly c d') : (d'.core c).step1 = (d.core c).step1 :=
  (congrArg CoreH.step1 h.core :)

/-- A source whose routing entry is a register of the block is routed the same beside other stacks and flags. -/
theorem routeOf_bankOnly {d d' : Dev} {c : Core} (h : d.BankOnly c d') (x : Nat) (hx : x < 0x1000) :
    d'.routeOf x = d.routeOf x := by
  have hr : d'.r (PND_ROUTE x) = d.r (PND_ROUTE x) :=
    h.regs _ fun hm => by have := bankWords_ge hm; unfold PND_ROUTE at this; omega
  rw [bankOnly_eq h, Dev.routeOf, Dev.routeOf, ← hr]
  rfl

/-! ### The end of a unit -/

/-- An instruction that is not repeated ends at the next one, where the core does not halt. -/
theorem unitDone_next {d d1 : Dev} {c : Core} (len : Nat) (hrep : d1.repLeft c = 0) (hs : (d1.core c).step1 = false) :
    d.unitDone c len (.ok (d1, none)) = d1.setPc c (d.pc c + len) := by
  simp only [Dev.unitDone, Dev.goOn, hrep, if_true, Dev.unitEnd, Dev.setPc, Dev.core_setCore, hs, Bool.false_and,
    Bool.false_eq_true, if_false]

/-- An instruction that gives its own next address ends there, where the core does not halt. -/
theorem unitDone_at {d d1 : Dev} {c : Core} (len a : Nat) (hs : (d1.core c).step1 = false) :
    d.unitDone c len (.ok (d1, some a)) = d1.setPc c a := by
  simp only [Dev.unitDone, Dev.unitEnd, Dev.setPc, Dev.core_setCore, hs, Bool.false_and, Bool.false_eq_true, if_false]

/-- The top of a single pushed word is that word. -/
theorem top_of_singleton {at_ : Nat → Word} {w : Word} (h : at_ 0 = w) (j : Nat) (v : Word) (hj : [w][j]? = some v) :
    at_ j = v := by
  cases j with
  | zero => exact h.trans (Option.some.inj hj)
  | succ j => simp at hj

/-- A word pushed after `pops` entries were taken, and the core at `pc`. -/
theorem coreStep_push {d dp : Dev} {c : Core} {pops : Nat} {at_ : Nat → Word} (hb : d.BankOnly c dp)
    (hs : dp.Sees c (d.dDepth c - pops) at_ (d.rDepth c) (d.rAt c) (d.flags c)) (hd : d.dDepth c - pops < 16)
    (hat : ∀ k, at_ k = d.dAt c (pops + k)) (w : Word) (pc : Nat) :
    d.CoreStep c pops [w] 0 [] (d.flags c) (pc % 4294967296) ((dp.dPut c w).setPc c pc) := by
  obtain ⟨hput, hsees⟩ := dPut_sees hs hd w
  have hbank := hb.trans hput
  generalize dp.dPut c w = d1 at hsees hbank
  exact {
    depth := hsees.depth
    top := top_of_singleton (hsees.at_eq 0 (Nat.succ_pos _))
    below := fun k hk => by
      have hlt : 1 + k < d.dDepth c - pops + 1 := by omega
      refine (hsees.at_eq _ hlt).trans ?_
      rw [if_neg (by omega), Nat.add_sub_cancel_left, hat]
    rdepth := hsees.rdepth
    rtop := fun k v hk => by simp at hk
    rbelow := fun k hk => hsees.rat_eq _ (by simpa using hk)
    flags := hsees.flags
    status := hbank.status
    pc_eq := by simp [Dev.pc, Dev.setPc]
    core := by simp only [Dev.setPc, Dev.core_setCore, hbank.core]
    regs := hbank.regs
    cores := fun x hx => by simp only [Dev.setPc, Dev.core_setCore_ne _ _ hx, hbank.core]
    rest := congrArg (fun x : Dev => { x with cores := d.cores, icache := d.icache, free := d.free }) hbank.rest }

/-- A command whose effect is a step over stacks and flags of `b`, which has the memory and the count of the state. -/
theorem runs_of_coreStep {s : State} {i : Instr} {f : Dev → Dev} {c : Core} {b : Dev} {pops rpops pc : Nat}
    {push rpush : List Word} {fl : Fl} (hI : s.Inv) (he : exec i s = s.done f)
    (h : b.CoreStep c pops push rpops rpush fl pc (f s.hw)) (hm : b.mem = s.hw.mem) (hb : b.beam = s.hw.beam) :
    s.Runs i (b.CoreStep c pops push rpops rpush fl pc) :=
  runs_of_same hI he ((congrArg Dev.mem h.rest :).trans hm) ((congrArg Dev.beam h.rest :).trans hb) h

/-- Commands with the same effect on the block have the same outcome. -/
theorem done_congr {s : State} {f g : Dev → Dev} (h : f s.hw = g s.hw) : s.done f = s.done g := by
  rw [State.done, State.done, State.upd, State.upd, h]

/-! ### CLOPEN and CLSTAT (R367, R417) -/

/-- An instruction of a live core with an effect in order ends at the next one. -/
theorem instr_ok {d d1 : Dev} {c : Core} {k : Cond} {len : Nat} {f : Dev → Except Stop Dev} (hl : d.CoreLive c k len)
    (hf : f (d.fetched c (d.pc c) len) = .ok d1) (hrep : d1.repLeft c = 0) (hs : (d1.core c).step1 = false) :
    d.instr c k len f = d1.setPc c (d.pc c + len) := by
  have hpc : (d.fetched c (d.pc c) len).pc c = d.pc c := (congrArg CoreH.pc (fetched_only d c (d.pc c) len).core :)
  rw [Dev.instr, unit_live hl, hf]
  simp only
  rw [unitDone_next len hrep hs, hpc]

theorem dPush_ok {d : Dev} {c : Nat} (h : d.dDepth c < 16) (w : Word) : d.dPush c w = .ok (d.dPut c w) := if_pos h

/-- A word pushed after the fetch, and the core at `pc`. -/
theorem coreStep_fetch_push {d : Dev} {c : Core} {len : Nat} (hd : d.dDepth c < 16) (w : Word) (pc : Nat) :
    d.CoreStep c 0 [w] 0 [] (d.flags c) (pc % 4294967296) (((d.fetched c (d.pc c) len).dPut c w).setPc c pc) := by
  obtain ⟨hput, hsees⟩ := dPut_sees (sees_of_r (fetched_only d c (d.pc c) len).r (d.sees_self c)) hd w
  exact coreStep_of (rpush := []) hput hsees rfl (Nat.zero_le _) (top_of_singleton rfl) (fun j _ => by simp [Nat.add_comm])
    rfl (Nat.zero_le _) (by simp) (by simp) pc

/-- An instruction that pushes one word, beside new clasps. -/
theorem instr_push {s : State} {c : Core} {k : Cond} {i : Instr} {f : Dev → Except Stop Dev} (e : Dev) (w : Word)
    (hI : s.Inv) (hd : s.hw.dDepth c ≤ 15) (hl : s.hw.CoreLive c k 2) (he : exec i s = s.done fun d => d.instr c k 2 f)
    (hf : ∀ d0, s.hw.FetchOnly c d0 → f d0 = (d0.takesClasps e).dPush c w) :
    s.Runs i ((s.hw.takesClasps e).CoreStep c 0 [w] 0 [] (s.hw.flags c) ((s.hw.pc c + 2) % 4294967296)) := by
  have hfo := fetched_only s.hw c (s.hw.pc c) 2
  have hdep : s.hw.dDepth c < 16 := Nat.lt_succ_of_le hd
  obtain ⟨hput, hsees⟩ := dPut_sees (sees_of_r hfo.r (s.hw.sees_self c)) hdep w
  have hd0 : (s.hw.fetched c (s.hw.pc c) 2).dDepth c = s.hw.dDepth c := (sees_of_r hfo.r (s.hw.sees_self c)).depth
  have hok : f (s.hw.fetched c (s.hw.pc c) 2) = .ok (((s.hw.fetched c (s.hw.pc c) 2).dPut c w).takesClasps e) := by
    rw [hf _ hfo, dPush_ok (by rw [Dev.takesClasps_dDepth, hd0]; exact hdep), Dev.takesClasps_dPut]
  have hrun := instr_ok hl hok
    (by rw [Dev.takesClasps_repLeft, repLeft_bankOnly hput, repLeft_fetchOnly hfo, hl.once])
    (by rw [Dev.takesClasps_core, hput.core, step1_fetchOnly hfo, hl.step])
  refine runs_of_coreStep hI he ?_ rfl rfl
  rw [hrun, Dev.takesClasps_setPc]
  exact coreStep_takesClasps (coreStep_fetch_push hdep w (s.hw.pc c + 2)) e

theorem clstat_pushes {s : State} {c : Core} {k : Cond} (hI : s.Inv) (hd : s.hw.dDepth c ≤ 15) (hl : s.hw.CoreLive c k 2) :
    s.CoreDoes c (.clstat c k) 2 0 [s.hw.claspWord c] (s.hw.flags c) :=
  instr_push s.hw _ hI hd hl rfl fun d0 h0 => by rw [fetchOnly_eq h0]; rfl

theorem clopen_busy {s : State} {c : Core} {k : Cond} (hI : s.Inv) (hd : s.hw.dDepth c ≤ 15) (hl : s.hw.CoreLive c k 2)
    (hh : (s.hw.clasp c).held = true) : s.CoreDoes c (.clopen c k) 2 0 [s.hw.claspBusy c] (s.hw.flags c) :=
  instr_push s.hw _ hI hd hl rfl fun d0 h0 => by
    rw [clasp_fetchOnly h0, if_pos hh, fetchOnly_eq h0]; rfl

/-- The clasp that CLOPEN opens (R367). -/
def Dev.freshClasp (d : Dev) (c : Nat) : ClaspH := { held := true, bank := d.curBank c, status := csOpen }

theorem clopen_opens {s : State} {c : Core} {k : Cond} (hI : s.Inv) (hd : s.hw.dDepth c ≤ 15) (hl : s.hw.CoreLive c k 2)
    (hh : (s.hw.clasp c).held = false) :
    s.Runs (.clopen c k) ((s.hw.setClasp c (s.hw.freshClasp c)).CoreStep c 0 [wordOf csOpen] 0 [] (s.hw.flags c)
      ((s.hw.pc c + 2) % 4294967296)) :=
  instr_push (s.hw.setClasp c (s.hw.freshClasp c)) _ hI hd hl rfl fun d0 h0 => by
    rw [clasp_fetchOnly h0, hh, if_neg Bool.false_ne_true]
    simp only [Dev.claspWord, Dev.clasp_setClasp]
    rw [fetchOnly_eq h0]; rfl

/-! ### The operands of a close (R417) -/

/-- The operand of every mode but AT_TICK is the mode word. -/
theorem closePops_one {d : Dev} {c : Core} {n rn : Nat} {at_ rat : Nat → Word} {fl : Fl} (h : d.Sees c (n + 1) at_ rn rat fl)
    (hn : n < 31) (hm : cmMode (at_ 0).toNat ≠ 1) :
    ∃ d', d.closePops c = .ok (d', (at_ 0).toNat, 0) ∧ d.BankOnly c d' ∧ d'.Sees c n (fun j => at_ (j + 1)) rn rat fl := by
  obtain ⟨d1, e1, b1, s1⟩ := dPop_held h hn
  exact ⟨d1, by simp only [Dev.closePops, e1, bind, Except.bind, if_neg hm], b1, s1⟩

/-- The operands of AT_TICK are the mode word and the two words of T. -/
theorem closePops_three {d : Dev} {c : Core} {n rn : Nat} {at_ rat : Nat → Word} {fl : Fl}
    (h : d.Sees c (n + 3) at_ rn rat fl) (hn : n < 29) (hm : cmMode (at_ 0).toNat = 1) :
    ∃ d', d.closePops c = .ok (d', (at_ 0).toNat, (at_ 2).toNat + 4294967296 * (at_ 1).toNat) ∧ d.BankOnly c d' ∧
      d'.Sees c n (fun j => at_ (j + 3)) rn rat fl := by
  obtain ⟨d1, e1, b1, s1⟩ := dPop_held h (by omega)
  obtain ⟨d2, e2, b2, s2⟩ := dPop_held s1 (by omega)
  obtain ⟨d3, e3, b3, s3⟩ := dPop_held s2 (by omega)
  exact ⟨d3, by simp only [Dev.closePops, e1, e2, e3, bind, Except.bind, if_pos hm], (b1.trans b2).trans b3, s3⟩

/-! ### CLCLOSE (R372, R418) -/

/-- A close of nothing replaces the mode word by a status word. -/
theorem closeNothing_held {d : Dev} {c : Core} {n rn : Nat} {at_ rat : Nat → Word} {fl : Fl}
    (h : d.Sees c (n + 1) at_ rn rat fl) (hn : n < 16) (hm : cmMode (at_ 0).toNat ≠ 1) (w : Word) :
    ∃ d', d.closeNothing c w = .ok d' ∧ d.BankOnly c d' ∧
      d'.Sees c (n + 1) (fun j => if j = 0 then w else at_ (j - 1 + 1)) rn rat fl := by
  obtain ⟨d1, e1, b1, s1⟩ := closePops_one h (by omega) hm
  obtain ⟨d2, e2, b2, s2⟩ := dPush_held s1 hn w
  exact ⟨d2, by simp only [Dev.closeNothing, e1, e2], b1.trans b2, s2⟩

/-- A CLCLOSE that closes nothing takes its mode word and pushes a status word. -/
theorem clclose_nothing {s : State} {c : Core} {k : Cond} {w : Word} (hI : s.Inv) (hd : s.hw.dDepth c ≤ 15)
    (hl : s.hw.CoreLive c k 2) (hf : s.hw.claspFills c = false) (h1 : 1 ≤ s.hw.dDepth c)
    (hm : cmMode (s.hw.dAt c 0).toNat ≠ 1)
    (hw : w = if (s.hw.clasp c).held then s.hw.claspBusy c else s.hw.claspWord c) :
    s.CoreDoes c (.clclose c k) 2 1 [w] (s.hw.flags c) := by
  have hfo := fetched_only s.hw c (s.hw.pc c) 2
  have he : exec (.clclose c k) s = s.done fun d => d.instr c k 2 fun d => d.closeNothing c w := by
    refine done_congr ?_
    rw [Dev.instr, unit_live hl, unit_live hl, claspFills_fetchOnly hfo, hf, if_neg Bool.false_ne_true, Dev.claspBusy,
      Dev.claspWord, clasp_fetchOnly hfo, hw]
    rfl
  obtain ⟨n, hn⟩ : ∃ n, s.hw.dDepth c = n + 1 := ⟨_, (Nat.sub_add_cancel h1).symm⟩
  exact core_data hI hl he (n + 1) 1 _ (fun d0 h0 => closeNothing_held (hn ▸ h0) (by omega) hm w) (by rw [hn]; rfl) h1
    (top_of_singleton rfl) fun j _ => by simp [Nat.add_comm]

/-- With an open clasp of the current bank CLCLOSE waits at its own address until its recording (log entry 30). -/
theorem clclose_waits {s : State} {c : Core} {k : Cond} (hI : s.Inv) (hl : s.hw.CoreLive c k 2)
    (hf : s.hw.claspFills c = true) : s.Runs (.clclose c k) fun d' =>
      { d'.core c with loop := (s.hw.core c).loop } = { s.hw.core c with close := true, pc := s.hw.pc c % 4294967296 } ∧
      s.hw.Keeps [] d' ∧ { d' with cores := s.hw.cores, icache := s.hw.icache, free := s.hw.free } = s.hw := by
  have hfo := fetched_only s.hw c (s.hw.pc c) 2
  have he : exec (.clclose c k) s = s.done fun d =>
      ((d.fetched c (d.pc c) 2).setCore c { (d.fetched c (d.pc c) 2).core c with close := true }).setPc c
        ((d.fetched c (d.pc c) 2).pc c) := by
    refine done_congr ?_
    rw [unit_live hl, claspFills_fetchOnly hfo, hf, if_pos rfl]
    exact unitDone_at 2 _ (by rw [Dev.core_setCore]; exact (step1_fetchOnly hfo).trans hl.step)
  refine runs_of_same hI he ?_ ?_ ?_ <;> generalize s.hw.fetched c (s.hw.pc c) 2 = d0 at hfo
  · exact (congrArg Dev.mem hfo.rest :)
  · exact (congrArg Dev.beam hfo.rest :)
  · have hpc : d0.pc c = s.hw.pc c := (congrArg CoreH.pc hfo.core :)
    refine ⟨?_, fun a _ => hfo.r a, hfo.rest⟩
    rw [Dev.setPc, Dev.core_setCore, Dev.core_setCore, hpc]
    exact congrArg (fun h : CoreH => { h with close := true, pc := s.hw.pc c % 4294967296 }) hfo.core

/-! ### The close itself (R372, R374, R375) -/

/-- The clasp `h` closed on tick `k` with mode word `m` and tick `t`, ready at once, that commits on tick `a`. -/
def ClaspH.closedAt (h : ClaspH) (m t k a status : Nat) : ClaspH :=
  { h with closed := true, mode := m, t := t, k := k, rd := some k, at_ := some a, status := status }

/-- The clasp of core `c` in its next state, with its commit set down for tick `a`. -/
def Dev.commitsAt (d : Dev) (c : Core) (h : ClaspH) (a : Nat) : Dev := (d.setClasp c h).at_ a (.claspCommit c)

/-- A clasp with a refused write fails at its close (R374). -/
theorem claspClose_refused {d : Dev} {c : Core} (m t : Nat) (h : nbit (d.clasp c).status cREFUSED = true) :
    d.claspClose c m t = d.claspFail c := by
  simp only [Dev.claspClose, h, Bool.true_or, if_true]

/-- A failed clasp keeps its status word and raises the source of its core (R383, R384). -/
theorem claspFail_eq (d : Dev) (c : Nat) : d.claspFail c =
    (d.setClasp c { status := claspState (d.clasp c).status csFailed }).raise (0x40 + c)
      (nfield (claspState (d.clasp c).status csFailed) 24 8 * 256 + nfield (claspState (d.clasp c).status csFailed) 0 8) := by
  simp only [Dev.claspFail, Dev.claspEnd, Dev.claspRaise, Dev.clasp_setClasp, Dev.raise, Dev.setClasp_beam]

/-- Modes IMMEDIATE and AT_TICK name no target (R374). -/
theorem badMode_untargeted {d : Dev} {m : Nat} (h : cmMode m ≤ 1) : d.badMode m = false := by
  have h3 : cmMode m ≠ 3 := by omega
  have h2 : cmMode m ≠ 2 := by omega
  simp [Dev.badMode, atBoundary, h2, h3]

/-- A clasp in order without routing fields is ready on the tick of its close (R375). -/
theorem claspClose_ready {d : Dev} {c : Core} {m : Nat} (t : Nat) (hr : nbit (d.clasp c).status cREFUSED = false)
    (hf : nbit (d.clasp c).status cFULL = false) (hm : cmMode m ≤ 1) (hroutes : d.routes c = false) :
    d.claspClose c m t = (d.setClasp c { d.clasp c with
      closed := true, mode := m, t := t, k := d.beam, status := claspState (d.clasp c).status csPending }).claspReady c d.beam := by
  simp only [Dev.routes] at hroutes
  simp only [Dev.claspClose, hr, hf, badMode_untargeted hm, Dev.routes, Dev.clasp_setClasp, hroutes, Bool.or_self,
    Bool.false_eq_true, if_false, Dev.setClasp_beam]

/-- IMMEDIATE commits on the tick on which the clasp is ready. -/
theorem claspReady_immediate {d : Dev} {c : Core} {rd : Nat} (hm : cmMode (d.clasp c).mode = 0) :
    d.claspReady c rd = d.commitsAt c { d.clasp c with rd := some rd, at_ := some rd } rd := by
  simp only [Dev.claspReady, Dev.clasp_setClasp, hm, Dev.claspAt, Dev.setClasp_setClasp, Dev.commitsAt]

/-- AT_TICK commits on its tick T where that does not lie behind. -/
theorem claspReady_atTick {d : Dev} {c : Core} {rd : Nat} (hm : cmMode (d.clasp c).mode = 1) (ht : rd ≤ (d.clasp c).t) :
    d.claspReady c rd = d.commitsAt c { d.clasp c with rd := some rd, at_ := some (d.clasp c).t } (d.clasp c).t := by
  simp only [Dev.claspReady, Dev.clasp_setClasp, hm, if_neg (Nat.not_lt.mpr ht), Dev.claspAt, Dev.setClasp_setClasp,
    Dev.commitsAt]

/-- AT_TICK with T behind commits at once with LATE, where LATE_ABORT is clear. -/
theorem claspReady_late {d : Dev} {c : Core} {rd : Nat} (hm : cmMode (d.clasp c).mode = 1) (ht : (d.clasp c).t < rd)
    (ha : cmAbort (d.clasp c).mode = false) (hw : d.claspWaits c = true) :
    d.claspReady c rd = d.commitsAt c { d.clasp c with
      rd := some rd, at_ := some rd, status := claspFlag (d.clasp c).status cLATE } rd := by
  simp only [Dev.claspWaits] at hw
  simp only [Dev.claspReady, Dev.clasp_setClasp, hm, if_pos ht, Dev.claspLate, Dev.claspSet, ha, Bool.false_eq_true, if_false,
    Dev.claspWaits, hw, if_true, Dev.claspAt, Dev.setClasp_setClasp, Dev.commitsAt]

section
variable {d : Dev} {c : Core} {h : ClaspH} {k m : Nat} (hclasp : d.clasp c = h) (hbeam : d.beam = k)
  (hr : nbit h.status cREFUSED = false) (hf : nbit h.status cFULL = false)
  (hroutes : (h.entries.any fun e => !e.bit && isRoute e.addr) = false)
include hclasp hbeam hr hf hroutes

theorem claspClose_immediate (t : Nat) (hm : cmMode m = 0) :
    d.claspClose c m t = d.commitsAt c (h.closedAt m t k k (claspState h.status csPending)) k := by
  subst hclasp hbeam
  rw [claspClose_ready t hr hf (by omega) hroutes, claspReady_immediate (by simpa using hm)]
  simp only [Dev.commitsAt, Dev.clasp_setClasp, Dev.setClasp_setClasp, ClaspH.closedAt]

theorem claspClose_atTick {t : Nat} (hm : cmMode m = 1) (ht : k ≤ t) :
    d.claspClose c m t = d.commitsAt c (h.closedAt m t k t (claspState h.status csPending)) t := by
  subst hclasp hbeam
  rw [claspClose_ready t hr hf (by omega) hroutes, claspReady_atTick (by simpa using hm) (by simpa using ht)]
  simp only [Dev.commitsAt, Dev.clasp_setClasp, Dev.setClasp_setClasp, ClaspH.closedAt]

theorem claspClose_late {t : Nat} (hm : cmMode m = 1) (ht : t < k) (ha : cmAbort m = false) (hh : h.held = true)
    (hl : h.ledger = false) :
    d.claspClose c m t = d.commitsAt c (h.closedAt m t k k (claspFlag (claspState h.status csPending) cLATE)) k := by
  subst hclasp hbeam
  rw [claspClose_ready t hr hf (by omega) hroutes, claspReady_late (by simpa using hm) (by simpa using ht)
    (by simpa using ha) (by simp [Dev.claspWaits, hh, hl])]
  simp only [Dev.commitsAt, Dev.clasp_setClasp, Dev.setClasp_setClasp, ClaspH.closedAt]

end

/-! ### The recorded close (R372) -/

/-- The device with core `c` waiting in CLCLOSE no longer. -/
def Dev.wakes (d : Dev) (c : Core) : Dev := d.setCore c { d.core c with close := false }

theorem closeLocked_wakes (d : Dev) (c : Core) : (d.wakes c).closeLocked c = d.closeLocked c := rfl

theorem repLeft_wakes (d : Dev) (c : Core) : (d.wakes c).repLeft c = d.repLeft c := by
  simp only [Dev.repLeft, Dev.wakes, Dev.core_setCore]
  rfl

theorem Dev.sees_wakes (d : Dev) (c : Core) :
    (d.wakes c).Sees c (d.dDepth c) (d.dAt c) (d.rDepth c) (d.rAt c) (d.flags c) :=
  sees_of_r (d := d) (fun _ => rfl) (d.sees_self c)

/-- Where no entry is locked, the recorded close pops its operands, closes the clasp and pushes its status word. `e` holds the
clasps that the close leaves. -/
theorem closeRecorded_step {d dp e : Dev} {c : Core} {pops m t : Nat} {at_ : Nat → Word}
    (hh : (d.clasp c).held = true) (hl : d.closeLocked c = none) (hrep : d.repLeft c = 0) (hs1 : (d.core c).step1 = false)
    (hp : d.closePops c = .ok (dp, m, t)) (hb : d.BankOnly c dp)
    (hs : dp.Sees c (d.dDepth c - pops) at_ (d.rDepth c) (d.rAt c) (d.flags c)) (hd : d.dDepth c - pops < 16)
    (hat : ∀ j, at_ j = d.dAt c (pops + j)) (hc : dp.claspClose c m t = dp.takesClasps e) :
    (d.takesClasps e).CoreStep c pops [e.claspWord c] 0 [] (d.flags c) ((d.pc c + 2) % 4294967296) (d.closeRecorded c) := by
  have hput := (dPut_sees hs hd (e.claspWord c)).1
  have hpush : (dp.takesClasps e).dPush c ((dp.takesClasps e).claspWord c) = .ok ((dp.dPut c (e.claspWord c)).takesClasps e) := by
    rw [dPush_ok (by rw [Dev.takesClasps_dDepth, hs.depth]; exact hd), Dev.takesClasps_dPut]
    rfl
  have hrun : d.closeRecorded c = ((dp.dPut c (e.claspWord c)).setPc c (d.pc c + 2)).takesClasps e := by
    simp only [Dev.closeRecorded, hh, hl, hp, hc, hpush, ite_self, Bool.not_true, Bool.false_eq_true, if_false]
    rw [unitDone_next 2 (by rw [Dev.takesClasps_repLeft, repLeft_bankOnly hput, repLeft_bankOnly hb, hrep])
      (by rw [Dev.takesClasps_core, hput.core, hb.core, hs1]), Dev.takesClasps_setPc]
  rw [hrun]
  exact coreStep_takesClasps (coreStep_push hb hs hd hat _ _) e

/-- Beside other stacks and flags a close leaves the same clasps. -/
theorem commitsAt_bankOnly {d d' : Dev} {c : Core} (h : d.BankOnly c d') (x : ClaspH) (a : Nat) :
    d'.commitsAt c x a = d'.takesClasps (d.commitsAt c x a) := by
  rw [bankOnly_eq h]; rfl

theorem claspFail_bankOnly {d d' : Dev} {c : Core} (h : d.BankOnly c d') : d'.claspFail c = d'.takesClasps (d.claspFail c) := by
  have hroute : d'.routeOf (0x40 + c) = d.routeOf (0x40 + c) := routeOf_bankOnly h _ (by omega)
  rw [claspFail_eq, claspFail_eq, clasp_bankOnly h]
  simp only [Dev.raise, Dev.raiseAt, Dev.setClasp_routeOf, hroute]
  rw [bankOnly_eq h]
  rfl

section
variable {s : State} {c : Core} {e : Dev} (hI : s.Inv) (hd : s.hw.dDepth c ≤ 15) (hruns : s.hw.coreRuns c = true)
  (hclose : (s.hw.core c).close = true) (hrep : s.hw.repLeft c = 0) (hs1 : (s.hw.core c).step1 = false)
  (hh : (s.hw.clasp c).held = true) (hl : s.hw.closeLocked c = none)
include hI hd hruns hclose hrep hs1 hh hl

/-- The recorded close of a waiting core is a step over stacks and flags beside the clasps that `claspClose` leaves. -/
theorem claspCloseRecorded_step {dp : Dev} {pops m t : Nat} {at_ : Nat → Word}
    (hp : (s.hw.wakes c).closePops c = .ok (dp, m, t)) (hb : (s.hw.wakes c).BankOnly c dp)
    (hs : dp.Sees c (s.hw.dDepth c - pops) at_ (s.hw.rDepth c) (s.hw.rAt c) (s.hw.flags c))
    (hat : ∀ j, at_ j = s.hw.dAt c (pops + j)) (hc : dp.claspClose c m t = dp.takesClasps e) :
    s.Runs (.claspCloseRecorded c) (((s.hw.wakes c).takesClasps e).CoreStep c pops [e.claspWord c] 0 [] (s.hw.flags c)
      ((s.hw.pc c + 2) % 4294967296)) := by
  have hstep := closeRecorded_step (d := s.hw.wakes c) hh ((closeLocked_wakes _ _).trans hl)
    ((repLeft_wakes _ _).trans hrep) (by simpa [Dev.wakes] using hs1) hp hb hs
    (Nat.lt_succ_of_le (Nat.le_trans (Nat.sub_le _ _) hd)) hat hc
  have hpc : (s.hw.wakes c).pc c = s.hw.pc c := by simp [Dev.pc, Dev.wakes]
  rw [hpc] at hstep
  refine runs_of_coreStep hI (done_congr (g := fun d => (d.wakes c).closeRecorded c) ?_) hstep rfl rfl
  rw [hclose, hruns]
  rfl

/-- The recorded close of every mode but AT_TICK. -/
theorem claspCloseRecorded_oneOperand (h1 : 1 ≤ s.hw.dDepth c) (hm : cmMode (s.hw.dAt c 0).toNat ≠ 1)
    (hc : ∀ dp, (s.hw.wakes c).BankOnly c dp → dp.claspClose c (s.hw.dAt c 0).toNat 0 = dp.takesClasps e) :
    s.Runs (.claspCloseRecorded c) (((s.hw.wakes c).takesClasps e).CoreStep c 1 [e.claspWord c] 0 [] (s.hw.flags c)
      ((s.hw.pc c + 2) % 4294967296)) := by
  have h0 : (s.hw.wakes c).Sees c (s.hw.dDepth c - 1 + 1) (s.hw.dAt c) (s.hw.rDepth c) (s.hw.rAt c) (s.hw.flags c) := by
    rw [Nat.sub_add_cancel h1]; exact s.hw.sees_wakes c
  obtain ⟨dp, hp, hb, hs⟩ := closePops_one h0 (by omega) hm
  exact claspCloseRecorded_step hI hd hruns hclose hrep hs1 hh hl hp hb hs (fun j => by rw [Nat.add_comm]) (hc dp hb)

/-- The recorded close of AT_TICK. -/
theorem claspCloseRecorded_threeOperands (h3 : 3 ≤ s.hw.dDepth c) (hm : cmMode (s.hw.dAt c 0).toNat = 1)
    (hc : ∀ dp, (s.hw.wakes c).BankOnly c dp → dp.claspClose c (s.hw.dAt c 0).toNat
      ((s.hw.dAt c 2).toNat + 4294967296 * (s.hw.dAt c 1).toNat) = dp.takesClasps e) :
    s.Runs (.claspCloseRecorded c) (((s.hw.wakes c).takesClasps e).CoreStep c 3 [e.claspWord c] 0 [] (s.hw.flags c)
      ((s.hw.pc c + 2) % 4294967296)) := by
  have h0 : (s.hw.wakes c).Sees c (s.hw.dDepth c - 3 + 3) (s.hw.dAt c) (s.hw.rDepth c) (s.hw.rAt c) (s.hw.flags c) := by
    rw [Nat.sub_add_cancel h3]; exact s.hw.sees_wakes c
  obtain ⟨dp, hp, hb, hs⟩ := closePops_three h0 (by omega) hm
  exact claspCloseRecorded_step hI hd hruns hclose hrep hs1 hh hl hp hb hs (fun j => by rw [Nat.add_comm]) (hc dp hb)

/-- A recorded close with a refused write fails the clasp: its status word is pushed and the source of the core raised. -/
theorem recorded_refused (h1 : 1 ≤ s.hw.dDepth c) (hm : cmMode (s.hw.dAt c 0).toNat ≠ 1)
    (hr : nbit (s.hw.clasp c).status cREFUSED = true) : s.Runs (.claspCloseRecorded c) fun d' =>
      d'.clasp c = { status := claspState (s.hw.clasp c).status csFailed } ∧
      d'.raised = ((s.hw.wakes c).raise (0x40 + c) (nfield (claspState (s.hw.clasp c).status csFailed) 24 8 * 256 +
        nfield (claspState (s.hw.clasp c).status csFailed) 0 8)).raised ∧
      d'.dAt c 0 = wordOf (claspState (s.hw.clasp c).status csFailed) ∧ d'.dDepth c = s.hw.dDepth c ∧
      d'.pc c = (s.hw.pc c + 2) % 4294967296 := by
  obtain ⟨t, hx, hq, hstep⟩ := claspCloseRecorded_oneOperand (e := (s.hw.wakes c).claspFail c) hI hd hruns hclose hrep hs1
    hh hl h1 hm fun dp hb => by
      rw [claspClose_refused _ _ (by rw [clasp_bankOnly hb]; exact hr), claspFail_bankOnly hb]
  have hclasp : t.hw.clasp c = ((s.hw.wakes c).claspFail c).clasp c := (congrArg (fun x => Dev.clasp x c) hstep.rest :)
  have hraised : t.hw.raised = ((s.hw.wakes c).claspFail c).raised := (congrArg Dev.raised hstep.rest :)
  refine ⟨t, hx, hq, ?_, ?_, ?_, ?_, hstep.pc_eq⟩
  · rw [hclasp, claspFail_eq, Dev.raise_clasp, Dev.clasp_setClasp]; rfl
  · rw [hraised, claspFail_eq]; rfl
  · rw [hstep.top 0 _ rfl, claspFail_eq, Dev.claspWord, Dev.raise_clasp, Dev.clasp_setClasp]; rfl
  · have hdepth : t.hw.dDepth c = s.hw.dDepth c - 1 + 1 := hstep.depth
    rw [hdepth, Nat.sub_add_cancel h1]

end

/-- A recorded close that sets down its commit leaves the clasp with its new status word pushed. -/
theorem recorded_commitsAt {s : State} {i : Instr} {c : Core} {b : Dev} {x : ClaspH} {a pops pc : Nat} {fl : Fl}
    (h : s.Runs i ((b.takesClasps (b.commitsAt c x a)).CoreStep c pops [(b.commitsAt c x a).claspWord c] 0 [] fl pc)) :
    s.Runs i ((b.commitsAt c x a).CoreStep c pops [wordOf x.status] 0 [] fl pc) := by
  have hw : (b.commitsAt c x a).claspWord c = wordOf x.status := by
    rw [Dev.claspWord, Dev.commitsAt, Dev.at_clasp, Dev.clasp_setClasp]
  rw [hw] at h
  exact h

/-- Settles O24: CLOPEN and CLSTAT push beside the clasps, CLCLOSE waits or closes nothing, and the recorded close leaves
the clasp that `claspClose` gives in each mode. -/
theorem claspOpenClose : Obligations.ClaspOpenClose := by
  intro s c k hI hd
  refine ⟨fun hl => ⟨clopen_opens hI hd hl, clopen_busy hI hd hl, clstat_pushes hI hd hl, clclose_waits hI hl, ?_, ?_⟩, ?_⟩
  · intro hh h1 hm
    exact clclose_nothing hI hd hl (by simp [Dev.claspFills, hh]) h1 hm (by rw [hh]; rfl)
  · intro hh hf h1 hm
    exact clclose_nothing hI hd hl hf h1 hm (by rw [hh]; rfl)
  · intro hruns hclose hrep hs1 hh hledger _ hroutes hl
    refine ⟨fun h1 hm hr => ?_, fun hr hf => ⟨fun h1 hm => ?_, fun h3 hm => ⟨fun ht => ?_, fun ht ha => ?_⟩⟩⟩
    · exact recorded_refused hI hd hruns hclose hrep hs1 hh hl h1 hm hr
    · exact recorded_commitsAt (claspCloseRecorded_oneOperand hI hd hruns hclose hrep hs1 hh hl h1 (by omega) fun dp hb =>
        (claspClose_immediate (clasp_bankOnly hb c) (beam_bankOnly hb) hr hf hroutes _ hm).trans (commitsAt_bankOnly hb _ _))
    · exact recorded_commitsAt (claspCloseRecorded_threeOperands hI hd hruns hclose hrep hs1 hh hl h3 hm fun dp hb =>
        (claspClose_atTick (clasp_bankOnly hb c) (beam_bankOnly hb) hr hf hroutes hm ht).trans (commitsAt_bankOnly hb _ _))
    · exact recorded_commitsAt (claspCloseRecorded_threeOperands hI hd hruns hclose hrep hs1 hh hl h3 hm fun dp hb =>
        (claspClose_late (clasp_bankOnly hb c) (beam_bankOnly hb) hr hf hroutes hm ht ha hh hledger).trans
          (commitsAt_bankOnly hb _ _))

end Sys2Proof.Machine
end

section
/-! SUPPORT. Effects of instructions as pops and pushes over the entries a bank held, and the instructions of the data stack
and of the flags (spec/12_instruction_set.md R387, R389, R396, R401). -/

namespace Sys2Proof.Machine
open Sys2Proof

/-! ### Entries above a rest of the stack -/

/-- The stack with the entries `ws`, top first, above `rest`. -/
def stackOn (ws : List Word) (rest : Nat → Word) (k : Nat) : Word := ws[k]?.getD (rest (k - ws.length))

theorem stackOn_cons (w : Word) (ws : List Word) (rest : Nat → Word) :
    stackOn (w :: ws) rest = fun k => if k = 0 then w else stackOn ws rest (k - 1) := by
  funext k
  cases k with
  | zero => rfl
  | succ k => simp [stackOn]

theorem stackOn_of_getElem? {ws : List Word} {rest : Nat → Word} {k : Nat} {v : Word} (h : ws[k]? = some v) :
    stackOn ws rest k = v := by rw [stackOn, h, Option.getD_some]

theorem stackOn_below (ws : List Word) (rest : Nat → Word) (k : Nat) : stackOn ws rest (ws.length + k) = rest k := by
  rw [stackOn, List.getElem?_eq_none (Nat.le_add_right _ _), Option.getD_none, Nat.add_sub_cancel_left]

/-- A stack is its top `p` entries above what lies `p` further down. -/
theorem stackOn_split (p : Nat) (at_ : Nat → Word) : stackOn ((List.range p).map at_) (fun k => at_ (p + k)) = at_ := by
  funext k
  by_cases hk : k < p
  · exact stackOn_of_getElem? (by simp [hk])
  · have hk : ((List.range p).map at_).length + (k - p) = k := by simp; omega
    rw [← hk, stackOn_below, List.length_map, List.length_range]

/-! ### What an effect has made of a bank -/

/-- Operations on the current bank lead from `d0` to `d1`, where the entries `ws`, top first, stand for the top `p` entries of
`d`, the flags are `fl`, and the return stack is that of `d`. -/
structure Dev.Holds (d : Dev) (c : Core) (d0 : Dev) (p : Nat) (ws : List Word) (fl : Fl) (d1 : Dev) : Prop where
  bank : d0.BankOnly c d1
  sees : d1.Sees c (d.dDepth c - p + ws.length) (stackOn ws fun k => d.dAt c (p + k)) (d.rDepth c) (d.rAt c) fl

section
variable {d d0 d1 : Dev} {c : Core} {p : Nat} {w : Word} {ws : List Word} {fl : Fl}

theorem Dev.Holds.flags_eq (h : d.Holds c d0 p ws fl d1) : d1.flags c = fl := h.sees.flags

theorem Dev.Holds.pop (h : d.Holds c d0 p (w :: ws) fl d1) (hn : d.dDepth c - p + ws.length < 31) :
    ∃ d2, d1.dPop c = .ok (d2, w) ∧ d.Holds c d0 p ws fl d2 := by
  obtain ⟨d2, hpop, hb, hs⟩ := dPop_held h.sees hn
  exact ⟨d2, hpop, h.bank.trans hb, by simpa [stackOn_cons] using hs⟩

/-- A push finds room where the stack does not grow beyond the one entry that is free. -/
theorem Dev.Holds.push (h : d.Holds c d0 p ws fl d1) (hd : d.dDepth c ≤ 15) (hp : p ≤ d.dDepth c) (hws : ws.length ≤ p)
    (v : Word) : ∃ d2, d1.dPush c v = .ok d2 ∧ d.Holds c d0 p (v :: ws) fl d2 := by
  obtain ⟨d2, hpush, hb, hs⟩ := dPush_held h.sees (by omega) v
  exact ⟨d2, hpush, h.bank.trans hb, by rw [stackOn_cons]; exact hs⟩

theorem Dev.Holds.peek (h : d.Holds c d0 p ws fl d1) {j : Nat} (hj : j < d.dDepth c - p + ws.length) :
    d1.dPeek c j = .ok (d1, stackOn ws (fun k => d.dAt c (p + k)) j) := dPeek_held h.sees hj

theorem Dev.Holds.setFlags (h : d.Holds c d0 p ws fl d1) (fl' : Fl) : d.Holds c d0 p ws fl' (d1.setFlags c fl') :=
  ⟨h.bank.trans (bankOnly_flags d1 c fl'), sees_setFlags h.sees fl'⟩

theorem Dev.Holds.setP (h : d.Holds c d0 p ws fl d1) (b : Bool) : d.Holds c d0 p ws { fl with p := b } (d1.setP c b) := by
  rw [Dev.setP, h.flags_eq]
  exact h.setFlags _

end

/-- An instruction whose effect puts `push` in the place of the top `p` entries. -/
theorem core_holds {s : State} {c : Core} {k : Cond} {len : Nat} {i : Instr} {f : Dev → Except Stop Dev} (hI : s.Inv)
    (hl : s.hw.CoreLive c k len) (he : exec i s = s.done fun d => d.instr c k len f) (p : Nat) (hp : p ≤ s.hw.dDepth c)
    {push : List Word} {fl : Fl}
    (hf : ∀ d0, s.hw.Holds c d0 p ((List.range p).map (s.hw.dAt c)) (s.hw.flags c) d0 →
      ∃ d1, f d0 = .ok d1 ∧ s.hw.Holds c d0 p push fl d1) : s.CoreDoes c i len p push fl := by
  refine core_data hI hl he (s.hw.dDepth c - p + push.length) p (stackOn push fun k => s.hw.dAt c (p + k)) (fun d0 h0 => ?_)
    rfl hp (fun _ _ => stackOn_of_getElem?) (fun j _ => stackOn_below _ _ j)
  have hsees : d0.Sees c (s.hw.dDepth c - p + ((List.range p).map (s.hw.dAt c)).length)
      (stackOn ((List.range p).map (s.hw.dAt c)) fun k => s.hw.dAt c (p + k)) (s.hw.rDepth c) (s.hw.rAt c) (s.hw.flags c) := by
    rw [stackOn_split, List.length_map, List.length_range, Nat.sub_add_cancel hp]
    exact h0
  obtain ⟨d1, hok, h1⟩ := hf d0 ⟨.refl d0 c, hsees⟩
  exact ⟨d1, hok, h1.bank, h1.sees⟩

/-! ### Flags as words -/

theorem b2n_eq_toNat (b : Bool) : b2n b = b.toNat := by cases b <;> rfl

theorem wordOf_b2n (b : Bool) : wordOf (b2n b) = if b then 1 else 0 := by cases b <;> rfl

/-- The flags word is P V C N Z from bit 4 down (R389). -/
theorem flWord_eq (f : Fl) : flWord f = f.z.toNat + 2 * f.n.toNat + 4 * f.c.toNat + 8 * f.v.toNat + 16 * f.p.toNat := by
  simp only [flWord, b2n_eq_toNat]

/-- The flags of a word are its low bits. -/
theorem flOf_toNat (x : Word) :
    flOf x.toNat = ⟨x.getLsbD 0, x.getLsbD 1, x.getLsbD 2, x.getLsbD 3, x.getLsbD 4⟩ := by
  simp only [flOf, nbit_eq_testBit, BitVec.getLsbD]

/-! ### The instructions -/

section
variable {s : State} {c : Core} {k : Cond} {len : Nat} {i : Instr} (hI : s.Inv) (hl : s.hw.CoreLive c k len)
include hI hl

/-- An instruction that pushes a word which may depend on the flags. -/
theorem pushing_does (hd : s.hw.dDepth c ≤ 15) (g : Fl → Word)
    (he : exec i s = s.done fun d => d.instr c k len fun d => d.pushing c (g (d.flags c))) :
    s.CoreDoes c i len 0 [g (s.hw.flags c)] (s.hw.flags c) :=
  core_holds hI hl he 0 (Nat.zero_le _) fun d0 h0 => by
    rw [h0.flags_eq]
    exact h0.push hd (Nat.zero_le _) (Nat.le_refl _) _

/-- An instruction that copies the entry `j` places below the top. -/
theorem copying_does (hd : s.hw.dDepth c ≤ 15) {p j : Nat} (hp : p ≤ s.hw.dDepth c) (hj : j < s.hw.dDepth c)
    (he : exec i s = s.done fun d => d.instr c k len fun d => d.copying c j) :
    s.CoreDoes c i len p (s.hw.dAt c j :: (List.range p).map (s.hw.dAt c)) (s.hw.flags c) :=
  core_holds hI hl he p hp fun d0 h0 => by
    have hlen : ((List.range p).map (s.hw.dAt c)).length = p := by rw [List.length_map, List.length_range]
    have hpeek := h0.peek (j := j) (by omega)
    rw [stackOn_split] at hpeek
    obtain ⟨d1, hpush, h1⟩ := h0.push hd hp (Nat.le_of_eq hlen) (s.hw.dAt c j)
    exact ⟨d1, by rw [Dev.copying, hpeek]; exact hpush, h1⟩

/-- An instruction that sets P only. -/
theorem settingP_does (g : Fl → Bool)
    (he : exec i s = s.done fun d => d.instr c k len fun d => .ok (d.setP c (g (d.flags c)))) :
    s.CoreDoes c i len 0 [] { s.hw.flags c with p := g (s.hw.flags c) } :=
  core_holds hI hl he 0 (Nat.zero_le _) fun d0 h0 => by
    rw [h0.flags_eq]
    exact ⟨_, rfl, h0.setP _⟩

end

theorem nop_does {s : State} {c : Core} {k : Cond} (hI : s.Inv) (hl : s.hw.CoreLive c k 2) :
    s.CoreDoes c (.nop c k) 2 0 [] (s.hw.flags c) :=
  core_holds hI hl rfl 0 (Nat.zero_le _) fun d0 h0 => ⟨d0, rfl, h0⟩

section
variable {s : State} {c : Core} {k : Cond} (hI : s.Inv) (hd : s.hw.dDepth c ≤ 15)
include hI hd

theorem ext_does (hl : s.hw.CoreLive c k 4) (h1 : 1 ≤ s.hw.dDepth c) (imm : BitVec 12) :
    s.CoreDoes c (.ext c k imm) 4 1 [s.hw.dAt c 0 <<< 12 ||| imm.zeroExtend 32] (s.hw.flags c) :=
  core_holds hI hl rfl 1 h1 fun d0 h0 => by
    obtain ⟨d1, hpop, hx⟩ := h0.pop (by simp; omega)
    obtain ⟨d2, hpush, h2⟩ := hx.push hd h1 (by simp) (s.hw.dAt c 0 <<< 12 ||| imm.zeroExtend 32)
    exact ⟨d2, by simp only [hpop, hpush], h2⟩

variable (hl : s.hw.CoreLive c k 2)
include hl

theorem drop_does (h1 : 1 ≤ s.hw.dDepth c) : s.CoreDoes c (.drop c k) 2 1 [] (s.hw.flags c) :=
  core_holds hI hl rfl 1 h1 fun d0 h0 => by
    obtain ⟨d1, hpop, hx⟩ := h0.pop (by simp; omega)
    exact ⟨d1, by simp only [hpop], hx⟩

theorem pput_does (h1 : 1 ≤ s.hw.dDepth c) :
    s.CoreDoes c (.pput c k) 2 1 [] { s.hw.flags c with p := decide (s.hw.dAt c 0 ≠ 0) } :=
  core_holds hI hl rfl 1 h1 fun d0 h0 => by
    obtain ⟨d1, hpop, hx⟩ := h0.pop (by simp; omega)
    have hbne : (s.hw.dAt c 0 != 0) = decide (s.hw.dAt c 0 ≠ 0) := by rw [Bool.eq_iff_iff, bne_iff_ne, decide_eq_true_iff]
    exact ⟨_, by simp only [hpop, hbne], hx.setP _⟩

theorem fput_does (h1 : 1 ≤ s.hw.dDepth c) : s.CoreDoes c (.fput c k) 2 1 [] (flOf (s.hw.dAt c 0).toNat) :=
  core_holds hI hl rfl 1 h1 fun d0 h0 => by
    obtain ⟨d1, hpop, hx⟩ := h0.pop (by simp; omega)
    exact ⟨_, by simp only [hpop], hx.setFlags _⟩

theorem swap_does (h2 : 2 ≤ s.hw.dDepth c) :
    s.CoreDoes c (.swap c k) 2 2 [s.hw.dAt c 1, s.hw.dAt c 0] (s.hw.flags c) :=
  core_holds hI hl rfl 2 h2 fun d0 h0 => by
    obtain ⟨d1, hpop0, hx⟩ := h0.pop (by simp; omega)
    obtain ⟨d2, hpop1, hx⟩ := hx.pop (by simp; omega)
    obtain ⟨d3, hpush0, hx⟩ := hx.push hd h2 (by simp) (s.hw.dAt c 0)
    obtain ⟨d4, hpush1, hx⟩ := hx.push hd h2 (by simp) (s.hw.dAt c 1)
    exact ⟨d4, by simp only [bind, Except.bind, hpop0, hpop1, hpush0, hpush1], hx⟩

theorem nip_does (h2 : 2 ≤ s.hw.dDepth c) : s.CoreDoes c (.nip c k) 2 2 [s.hw.dAt c 0] (s.hw.flags c) :=
  core_holds hI hl rfl 2 h2 fun d0 h0 => by
    obtain ⟨d1, hpop0, hx⟩ := h0.pop (by simp; omega)
    obtain ⟨d2, hpop1, hx⟩ := hx.pop (by simp; omega)
    obtain ⟨d3, hpush, hx⟩ := hx.push hd h2 (by simp) (s.hw.dAt c 0)
    exact ⟨d3, by simp only [bind, Except.bind, hpop0, hpop1, hpush], hx⟩

theorem rot_does (h3 : 3 ≤ s.hw.dDepth c) :
    s.CoreDoes c (.rot c k) 2 3 [s.hw.dAt c 2, s.hw.dAt c 0, s.hw.dAt c 1] (s.hw.flags c) :=
  core_holds hI hl rfl 3 h3 fun d0 h0 => by
    obtain ⟨d1, hpop0, hx⟩ := h0.pop (by simp; omega)
    obtain ⟨d2, hpop1, hx⟩ := hx.pop (by simp; omega)
    obtain ⟨d3, hpop2, hx⟩ := hx.pop (by simp; omega)
    obtain ⟨d4, hpush1, hx⟩ := hx.push hd h3 (by simp) (s.hw.dAt c 1)
    obtain ⟨d5, hpush0, hx⟩ := hx.push hd h3 (by simp) (s.hw.dAt c 0)
    obtain ⟨d6, hpush2, hx⟩ := hx.push hd h3 (by simp) (s.hw.dAt c 2)
    exact ⟨d6, by simp only [bind, Except.bind, hpop0, hpop1, hpop2, hpush0, hpush1, hpush2], hx⟩

theorem pget_does : s.CoreDoes c (.pget c k) 2 0 [if (s.hw.flags c).p then 1 else 0] (s.hw.flags c) := by
  rw [← wordOf_b2n]
  exact pushing_does hI hl hd (fun f => wordOf (b2n f.p)) rfl

theorem fget_does : s.CoreDoes c (.fget c k) 2 0 [wordOf (flWord (s.hw.flags c))] (s.hw.flags c) :=
  pushing_does hI hl hd (fun f => wordOf (flWord f)) rfl

end

/-- Settles O13: each instruction is its pops and pushes over the entries held; the flags word is P V C N Z. -/
theorem coreDataStack : Obligations.CoreDataStack := by
  intro s c k hI
  refine ⟨fun hl hd => ⟨?_, ?_, ?_, ?_, ?_, ?_, ?_, ?_, ?_, ?_, ?_⟩, fun hl hd => ⟨?_, ?_⟩⟩
  · exact fun imm => pushing_does hI hl hd (fun _ => sextW imm) rfl
  · exact nop_does hI hl
  · exact settingP_does hI hl (fun _ => true) rfl
  · exact settingP_does hI hl (fun _ => false) rfl
  · exact settingP_does hI hl (fun f => !f.p) rfl
  · exact pget_does hI hd hl
  · rw [← flWord_eq]
    exact fget_does hI hd hl
  · intro h1
    refine ⟨copying_does hI hl hd h1 h1 rfl, drop_does hI hd hl h1, pput_does hI hd hl h1, ?_⟩
    rw [← flOf_toNat]
    exact fput_does hI hd hl h1
  · exact fun h2 => ⟨swap_does hI hd hl h2, copying_does hI hl hd h2 h2 rfl, nip_does hI hd hl h2⟩
  · exact fun h3 => rot_does hI hd hl h3
  · exact fun n hn => copying_does hI hl hd (Nat.zero_le _) hn rfl
  · exact fun imm => pushing_does hI hl hd (fun _ => sextW imm) rfl
  · exact fun h1 imm => ext_does hI hd hl h1 imm

end Sys2Proof.Machine
end

section
/-! SUPPORT. Logic, limits and shifts of the Reckoner (spec/12_instruction_set.md R396, R397, R402). -/

namespace Sys2Proof.Machine
open Sys2Proof

/-! ### Results with their flags in closed form -/

/-- `sat32` changes the values that do not fit a signed word. -/
theorem not_fits32 (x : Int) : (!(fits32 x)) = decide (satInt 32 x ≠ x) := by
  rw [Bool.eq_iff_iff, Bool.not_eq_true', fits32, decide_eq_false_iff_not, decide_eq_true_iff]
  simp only [satInt]
  split
  · omega
  · split <;> omega

theorem satFl_eq (f : Fl) (x : Int) : satFl f x = (BitVec.ofInt 32 (satInt 32 x),
    { f.zn (BitVec.ofInt 32 (satInt 32 x)) with v := decide (satInt 32 x ≠ x) }) := by
  simp only [satFl, flZNV, flZN_eq, wordOfInt_eq, not_fits32]

/-- The absolute value of every word but the least fits. -/
theorem satInt_natAbs {b : Word} (h : b ≠ 0x80000000) : satInt 32 b.toInt.natAbs = b.toInt.natAbs := by
  have hne : b.toInt ≠ -2147483648 := fun e => h (word_eq e)
  have hge := b.le_toInt
  have hlt := b.toInt_lt
  simp only [satInt]
  split
  · omega
  · split <;> omega

theorem ofInt_natAbs (b : Word) : BitVec.ofInt 32 b.toInt.natAbs = if b.toInt < 0 then -b else b := by
  split
  · next hneg => rw [Int.ofNat_natAbs_of_nonpos (Int.le_of_lt hneg), BitVec.ofInt_neg, BitVec.ofInt_toInt]
  · next hpos => rw [Int.natAbs_of_nonneg (Int.not_lt.mp hpos), BitVec.ofInt_toInt]

theorem absFl_fits (f : Fl) {b : Word} (h : b ≠ 0x80000000) : satFl f (sval b).natAbs =
    (if b.toInt < 0 then -b else b, { f.zn (if b.toInt < 0 then -b else b) with v := false }) := by
  rw [satFl_eq, sval_eq_toInt, satInt_natAbs h, ofInt_natAbs, decide_eq_false (fun hne => hne rfl)]

/-- The absolute value of the least word is limited. -/
theorem absFl_limited (f : Fl) : satFl f (sval 0x80000000).natAbs = (0x7FFFFFFF, { f.zn 0x7FFFFFFF with v := true }) := by
  have hsat : satInt 32 (sval 0x80000000).natAbs = 0x7FFFFFFF := by decide
  have hne : satInt 32 (sval 0x80000000).natAbs ≠ (sval 0x80000000).natAbs := by decide
  have hword : BitVec.ofInt 32 0x7FFFFFFF = 0x7FFFFFFF := by decide
  rw [satFl_eq, decide_eq_true hne, hsat, hword]

/-! ### Shifts (R397) -/

section
variable {s : State} {c : Core} {k : Cond} {i : Instr} {len : Nat} (hI : s.Inv) (hd : s.hw.dDepth c ≤ 16)
  (hl : s.hw.CoreLive c k len) (kind : ShiftKind)
include hI hd hl

/-- A short form with count 0 pops its count, then the word. -/
theorem shiftPopped_does (h2 : 2 ≤ s.hw.dDepth c)
    (he : exec i s = s.done fun d => d.instr c k len fun d => d.shifting c kind (.short 0)) :
    s.CoreDoes c i len 2 [(shiftFl kind (s.hw.flags c) (s.hw.dAt c 1) ((s.hw.dAt c 0).toNat % 32)).1]
      (shiftFl kind (s.hw.flags c) (s.hw.dAt c 1) ((s.hw.dAt c 0).toNat % 32)).2 :=
  core_binary (fun f a b => shiftFl kind f a (b.toNat % 32)) hI hl hd h2 he rfl

/-- Every other form has its count in the instruction. -/
theorem shiftBy_does (h1 : 1 ≤ s.hw.dDepth c) (n : Nat) (cnt : ShiftCount)
    (hcnt : ∀ d : Dev, d.shifting c kind cnt = d.unary c fun f a => shiftFl kind f a n)
    (he : exec i s = s.done fun d => d.instr c k len fun d => d.shifting c kind cnt) :
    s.CoreDoes c i len 1 [(shiftFl kind (s.hw.flags c) (s.hw.dAt c 0) n).1]
      (shiftFl kind (s.hw.flags c) (s.hw.dAt c 0) n).2 := by
  simp only [hcnt] at he
  exact core_unary (fun f a => shiftFl kind f a n) hI hl hd h1 he rfl

end

theorem shifting_short {n : Fin 16} (h : n ≠ 0) (c : Nat) (kind : ShiftKind) (d : Dev) :
    d.shifting c kind (.short n) = d.unary c fun f a => shiftFl kind f a n := if_neg h

/-- Settles O11: each instruction is a unary or binary operation on held entries with its flags in closed form. -/
theorem coreLogicAndShifts : Obligations.CoreLogicAndShifts := by
  intro s c k hI
  refine ⟨fun hl hd => ⟨fun h2 => ⟨?_, ?_, ?_, ?_, ?_, ?_, ?_, ?_, ?_⟩, fun h1 => ⟨?_, fun hb => ?_, fun hb => ?_, fun n hn => ?_⟩⟩,
    fun hl hd h1 => ⟨fun imm => ⟨?_, ?_⟩, fun n => ?_⟩⟩
  · exact core_binary (fun f a b => logicFl f (a &&& b)) hI hl hd h2 rfl rfl
  · exact core_binary (fun f a b => logicFl f (a ||| b)) hI hl hd h2 rfl rfl
  · exact core_binary (fun f a b => logicFl f (a ^^^ b)) hI hl hd h2 rfl rfl
  · rw [← sval_eq_toInt, ← sval_eq_toInt]
    exact core_binary (fun f a b => znFl f (if sval a ≤ sval b then a else b)) hI hl hd h2 rfl rfl
  · rw [← sval_eq_toInt, ← sval_eq_toInt]
    exact core_binary (fun f a b => znFl f (if sval a ≤ sval b then b else a)) hI hl hd h2 rfl rfl
  · exact shiftPopped_does hI hd hl .shl h2 rfl
  · exact shiftPopped_does hI hd hl .shr h2 rfl
  · exact shiftPopped_does hI hd hl .asr h2 rfl
  · exact shiftPopped_does hI hd hl .ror h2 rfl
  · exact core_unary (fun f a => logicFl f (~~~a)) hI hl hd h1 rfl rfl
  · exact core_unary (fun f a => satFl f (sval a).natAbs) hI hl hd h1 rfl (absFl_fits _ hb)
  · exact core_unary (fun f a => satFl f (sval a).natAbs) hI hl hd h1 rfl (by rw [hb]; exact absFl_limited _)
  · have hcnt (kind : ShiftKind) := shifting_short hn c kind
    exact ⟨shiftBy_does hI hd hl .shl h1 n _ (hcnt .shl) rfl, shiftBy_does hI hd hl .shr h1 n _ (hcnt .shr) rfl,
      shiftBy_does hI hd hl .asr h1 n _ (hcnt .asr) rfl, shiftBy_does hI hd hl .ror h1 n _ (hcnt .ror) rfl⟩
  · exact core_unary (fun f a => logicFl f (a &&& sextW imm)) hI hl hd h1 rfl rfl
  · exact core_unary (fun f a => logicFl f (a ||| imm.zeroExtend 32)) hI hl hd h1 rfl rfl
  · have hcnt (kind : ShiftKind) (d : Dev) :
        d.shifting c kind (.long n) = d.unary c fun f a => shiftFl kind f a n := rfl
    exact ⟨shiftBy_does hI hd hl .shl h1 n _ (hcnt .shl) rfl, shiftBy_does hI hd hl .shr h1 n _ (hcnt .shr) rfl,
      shiftBy_does hI hd hl .asr h1 n _ (hcnt .asr) rfl, shiftBy_does hI hd hl .ror h1 n _ (hcnt .ror) rfl⟩

end Sys2Proof.Machine
end

section
/-! SUPPORT. Products, divisions, comparisons and bit tests of the Reckoner (spec/12_instruction_set.md R398-R402). -/

namespace Sys2Proof.Machine
open Sys2Proof

/-! ### Products (R398, R402) -/

theorem mulFl_eq (f : Fl) (a b : Word) :
    mulFl f a b = (a * b, { f.zn (a * b) with v := decide ((a * b).toInt ≠ a.toInt * b.toInt) }) := by
  have hr : BitVec.ofInt 32 (a.toInt * b.toInt) = a * b := by
    rw [BitVec.ofInt_mul, BitVec.ofInt_toInt, BitVec.ofInt_toInt]
  simp only [mulFl, flZNV, flZN_eq, wordOfInt_eq, sval_eq_toInt, fits_eq, hr]

theorem mulhFl_eq (f : Fl) (a b : Word) : znFl f (wordOfInt (sval a * sval b / 4294967296)) =
    (BitVec.ofInt 32 (a.toInt * b.toInt / 2 ^ 32), f.zn (BitVec.ofInt 32 (a.toInt * b.toInt / 2 ^ 32))) := by
  rw [znFl, flZN_eq, wordOfInt_eq, sval_eq_toInt, sval_eq_toInt]
  rfl

theorem mulqFl_eq (f : Fl) (a b : Word) (n : Nat) : mulqFl f a b n =
    (BitVec.ofInt 32 (satInt 32 (rs (a.toInt * b.toInt) n)), { f.zn (BitVec.ofInt 32 (satInt 32 (rs (a.toInt * b.toInt) n))) with
      v := decide (satInt 32 (rs (a.toInt * b.toInt) n) ≠ rs (a.toInt * b.toInt) n) }) := by
  rw [mulqFl, satFl_eq, sval_eq_toInt, sval_eq_toInt]

/-! ### Divisions (R399) -/

section
variable (f : Fl) (a : Word) {b : Word}

theorem divFl_of_ne (h : b ≠ 0) : divFl f a b = (BitVec.ofInt 32 (satInt 32 (a.toInt.tdiv b.toInt)),
    { f.zn (BitVec.ofInt 32 (satInt 32 (a.toInt.tdiv b.toInt))) with
      v := decide (satInt 32 (a.toInt.tdiv b.toInt) ≠ a.toInt.tdiv b.toInt) }) := by
  rw [divFl, if_neg h, satFl_eq, sval_eq_toInt, sval_eq_toInt]

theorem divuFl_of_ne (h : b ≠ 0) : divuFl f a b = (a / b, { f.zn (a / b) with v := false }) := by
  have hdiv : wordOf (a.toNat / b.toNat) = a / b := by rw [wordOf, ← BitVec.toNat_udiv, BitVec.ofNat_toNat, BitVec.setWidth_eq]
  simp only [divuFl, if_neg h, beq_false_of_ne h, hdiv, flZNV, flZN_eq]

theorem remFl_of_ne (h : b ≠ 0) : remFl f a b = (BitVec.ofInt 32 (a.toInt.tmod b.toInt),
    { f.zn (BitVec.ofInt 32 (a.toInt.tmod b.toInt)) with
      v := decide (satInt 32 (a.toInt.tdiv b.toInt) ≠ a.toInt.tdiv b.toInt) }) := by
  simp only [remFl, if_neg h, flZNV, flZN_eq, wordOfInt_eq, sval_eq_toInt, not_fits32]

theorem remuFl_of_ne (h : b ≠ 0) : remuFl f a b = (a % b, { f.zn (a % b) with v := false }) := by
  have hmod : wordOf (a.toNat % b.toNat) = a % b := by rw [wordOf, ← BitVec.toNat_umod, BitVec.ofNat_toNat, BitVec.setWidth_eq]
  simp only [remuFl, if_neg h, beq_false_of_ne h, hmod, flZNV, flZN_eq]

theorem divFl_zero : divFl f a 0 = (if a.toInt < 0 then 0x80000000 else 0x7FFFFFFF,
    { f.zn (if a.toInt < 0 then 0x80000000 else 0x7FFFFFFF) with v := true }) := by
  simp only [divFl, if_true, BitVec.msb_eq_toInt, decide_eq_true_iff, flZNV, flZN_eq]

theorem divuFl_zero : divuFl f a 0 = (0xFFFFFFFF, { f.zn 0xFFFFFFFF with v := true }) := by
  simp only [divuFl, if_true, beq_self_eq_true, flZNV, flZN_eq]

theorem remFl_zero : remFl f a 0 = (a, { f.zn a with v := true }) := rfl

theorem remuFl_zero : remuFl f a 0 = (a, { f.zn a with v := true }) := by
  simp only [remuFl, if_true, beq_self_eq_true, flZNV, flZN_eq]

end

/-! ### Instructions with a residue check -/

/-- An instruction whose residue check agrees is one without a check. -/
theorem done_checked_zero (s : State) (c : Core) (k : Cond) (len : Nat) (f : Dev → Except Stop Dev) :
    (s.done fun d => d.checked c k len 0 f) = s.done fun d => d.instr c k len f := by
  simp only [checked_zero]

/-- A command that is a binary operation whose check agrees. -/
theorem core_binary_checked {s : State} {c : Core} {k : Cond} {len : Nat} {i : Instr} (f : Fl → Word → Word → Word × Fl)
    (hI : s.Inv) (hl : s.hw.CoreLive c k len) (hd : s.hw.dDepth c ≤ 16) (h2 : 2 ≤ s.hw.dDepth c)
    (he : exec i s = s.done fun d => d.checked c k len 0 fun d => d.binary c f) {r : Word} {fl : Fl}
    (hr : f (s.hw.flags c) (s.hw.dAt c 1) (s.hw.dAt c 0) = (r, fl)) : s.CoreDoes c i len 2 [r] fl :=
  core_binary f hI hl hd h2 (he.trans (done_checked_zero s c k len _)) hr

/-- `core_holds` of a command whose check agrees. -/
theorem core_holds_checked {s : State} {c : Core} {k : Cond} {len : Nat} {i : Instr} {f : Dev → Except Stop Dev} (hI : s.Inv)
    (hl : s.hw.CoreLive c k len) (he : exec i s = s.done fun d => d.checked c k len 0 f) (p : Nat) (hp : p ≤ s.hw.dDepth c)
    {push : List Word} {fl : Fl}
    (hf : ∀ d0, s.hw.Holds c d0 p ((List.range p).map (s.hw.dAt c)) (s.hw.flags c) d0 →
      ∃ d1, f d0 = .ok d1 ∧ s.hw.Holds c d0 p push fl d1) : s.CoreDoes c i len p push fl :=
  core_holds hI hl (he.trans (done_checked_zero s c k len f)) p hp hf

/-! ### Comparisons and bit tests (R400) -/

theorem compares_illegal (n : Nat) (a b : Word) : compares (n + 10) a b = none := rfl

/-- Codes 10 to 15 compare nothing. -/
theorem compares_code {cc : Nat} {a b : Word} {t : Bool} (h : compares cc a b = some t) : ¬ 10 ≤ cc := by
  intro hcc
  obtain ⟨n, rfl⟩ := Nat.exists_eq_add_of_le' hcc
  rw [compares_illegal] at h
  cases h

theorem cmpFl_eq (f : Fl) (a b : Word) (t : Bool) : cmpFl f a b t = { f.zn (a - b) with
    c := decide (b.toNat ≤ a.toNat), v := decide ((a - b).toInt ≠ a.toInt - b.toInt), p := t } := by
  simp [cmpFl, subFl_eq]

theorem Dev.Holds.comparing {d d0 d1 : Dev} {c : Core} {p : Nat} {ws : List Word} {fl : Fl}
    (h : d.Holds c d0 p ws fl d1) {cc : Nat} {a b : Word} {t : Bool} (ht : compares cc a b = some t) :
    ∃ d2, d1.comparing c cc a b = .ok d2 ∧ d.Holds c d0 p ws (cmpFl fl a b t) d2 :=
  ⟨_, by simp only [Dev.comparing, ht, h.flags_eq], h.setFlags _⟩

section
variable {s : State} {c : Core} {k : Cond} (hI : s.Inv) (hd : s.hw.dDepth c ≤ 16)
include hI hd

theorem cmp_does (hl : s.hw.CoreLive c k 2) (h2 : 2 ≤ s.hw.dDepth c) {cc : Fin 16} {t : Bool}
    (ht : compares cc (s.hw.dAt c 1) (s.hw.dAt c 0) = some t) :
    s.CoreDoes c (.cmp c k 0 cc) 2 2 [] (cmpFl (s.hw.flags c) (s.hw.dAt c 1) (s.hw.dAt c 0) t) :=
  core_holds_checked hI hl rfl 2 h2 fun d0 h0 => by
    obtain ⟨d1, hpop0, hx⟩ := h0.pop (by simp; omega)
    obtain ⟨d2, hpop1, hx⟩ := hx.pop (by simp; omega)
    obtain ⟨d3, hcmp, hx⟩ := hx.comparing ht
    exact ⟨d3, by simp only [if_neg (compares_code ht), bind, Except.bind, hpop0, hpop1, hcmp], hx⟩

theorem cmpi_does (hl : s.hw.CoreLive c k 4) (h1 : 1 ≤ s.hw.dDepth c) {cc : Fin 16} {imm : BitVec 16} {t : Bool}
    (ht : compares cc (s.hw.dAt c 0) (imm.signExtend 32) = some t) :
    s.CoreDoes c (.cmpi c k 0 cc imm) 4 1 [] (cmpFl (s.hw.flags c) (s.hw.dAt c 0) (imm.signExtend 32) t) :=
  core_holds_checked hI hl rfl 1 h1 fun d0 h0 => by
    obtain ⟨d1, hpop, hx⟩ := h0.pop (by simp; omega)
    obtain ⟨d2, hcmp, hx⟩ := hx.comparing ht
    exact ⟨d2, by simp only [if_neg (compares_code ht), hpop, sextW, hcmp], hx⟩

end

theorem btst_does {s : State} {c : Core} {k : Cond} (hI : s.Inv) {form : Form} (hl : s.hw.CoreLive c k (formLen form))
    (h1 : 1 ≤ s.hw.dDepth c) (bit : Fin 32) :
    s.CoreDoes c (.btst c k form bit) (formLen form) 0 [] { s.hw.flags c with p := (s.hw.dAt c 0).getLsbD bit } :=
  core_holds hI hl rfl 0 (Nat.zero_le _) fun d0 h0 => by
    have hpeek := h0.peek (j := 0) h1
    rw [stackOn_split] at hpeek
    exact ⟨_, by simp only [hpeek], h0.setP _⟩

/-- Settles O12: products and divisions are binary operations with their corners in closed form; comparisons pop both
operands, BTST keeps its own. -/
theorem coreProductsAndCompares : Obligations.CoreProductsAndCompares := by
  intro s c k hI
  refine ⟨fun hl hd => ⟨fun h2 => ⟨?_, ?_, ?_, fun sh => ?_, fun hb => ⟨?_, ?_, ?_, ?_⟩, fun hb => ?_, fun cc t ht => ?_⟩,
    fun h1 bit => ?_⟩, fun hl hd => ⟨fun h2 sh => ?_, fun h1 => ⟨fun cc imm t ht => ?_, fun bit => ?_⟩⟩⟩
  · exact core_binary_checked mulFl hI hl hd h2 rfl (mulFl_eq _ _ _)
  · exact core_binary_checked (fun f a b => znFl f (wordOfInt (sval a * sval b / 4294967296))) hI hl hd h2 rfl
      (mulhFl_eq _ _ _)
  · exact core_binary_checked (fun f a b => znFl f (wordOf (a.toNat * b.toNat / 4294967296))) hI hl hd h2 rfl rfl
  · exact core_binary_checked (fun f a b => mulqFl f a b sh) hI hl hd h2 rfl (mulqFl_eq _ _ _ _)
  · exact core_binary_checked divFl hI hl hd h2 rfl (divFl_of_ne _ _ hb)
  · exact core_binary_checked divuFl hI hl hd h2 rfl (divuFl_of_ne _ _ hb)
  · exact core_binary_checked remFl hI hl hd h2 rfl (remFl_of_ne _ _ hb)
  · exact core_binary_checked remuFl hI hl hd h2 rfl (remuFl_of_ne _ _ hb)
  · refine ⟨?_, ?_, ?_, ?_⟩
    · exact core_binary_checked divFl hI hl hd h2 rfl (by rw [hb]; exact divFl_zero _ _)
    · exact core_binary_checked divuFl hI hl hd h2 rfl (by rw [hb]; exact divuFl_zero _ _)
    · exact core_binary_checked remFl hI hl hd h2 rfl (by rw [hb]; exact remFl_zero _ _)
    · exact core_binary_checked remuFl hI hl hd h2 rfl (by rw [hb]; exact remuFl_zero _ _)
  · have hcmp := cmp_does hI hd hl h2 ht
    rw [cmpFl_eq] at hcmp
    exact hcmp
  · exact btst_does hI (form := .short) hl h1 bit
  · exact core_binary_checked (fun f a b => mulqFl f a b sh) hI hl hd h2 rfl (mulqFl_eq _ _ _ _)
  · have hcmp := cmpi_does hI hd hl h1 ht
    rw [cmpFl_eq] at hcmp
    exact hcmp
  · exact btst_does hI (form := .long) hl h1 bit

end Sys2Proof.Machine
end

section
/-! SUPPORT. Records, claims and lines of the Pendant (spec/14_pendant.md R465-R483). -/

namespace Sys2Proof.Machine
open Sys2Proof

/-! ### Words in memory -/

/-- A load depends on the bytes of its range. -/
theorem loadN_congr {d d' : Dev} {a n : Nat} (h : ∀ x, a ≤ x → x < a + n → d'.byte x = d.byte x) :
    d'.loadN a n = d.loadN a n := by
  induction n generalizing a with
  | zero => rfl
  | succ n ih =>
    rw [Dev.loadN, Dev.loadN, h a (by omega) (by omega), ih fun x _ _ => h x (by omega) (by omega)]

/-- A range reads as the number stored there. -/
theorem loadN_storeN_same (d : Dev) (a v n : Nat) : (d.storeN a v n).loadN a n = v % 256 ^ n := by
  induction n generalizing d a v with
  | zero => rw [Dev.loadN, Nat.pow_zero, Nat.mod_one]
  | succ n ih =>
    have hbyte : ((d.putByte a (BitVec.ofNat 8 v)).storeN (a + 1) (v / 256) n).byte a = BitVec.ofNat 8 v := by
      rw [byte_storeN, if_neg (by omega), Dev.byte, Dev.putByte, memGet_memPut_same]
    rw [Dev.loadN, Dev.storeN, ih, hbyte, BitVec.toNat_ofNat, Nat.pow_succ' (m := 256), Nat.mod_mul]

/-- A range apart from the stored one reads as before. -/
theorem loadN_storeN_apart (d : Dev) {a n b m : Nat} (v : Nat) (h : b + m ≤ a ∨ a + n ≤ b) :
    (d.storeN a v n).loadN b m = d.loadN b m :=
  loadN_congr fun x _ _ => by rw [byte_storeN, if_neg (by omega)]

/-- A store changes memory only. -/
theorem storeN_only (d : Dev) (a v n : Nat) : ∃ m, d.storeN a v n = { d with mem := m } := by
  induction n generalizing d a v with
  | zero => exact ⟨d.mem, rfl⟩
  | succ n ih => exact ih _ _ _

/-! ### Registers -/

/-- The registers of core `c` in the Pendant have rising addresses. -/
theorem pendantRegs_rise (c : Nat) : PND_RING_CFG c < PND_RING_PTR c ∧ PND_RING_PTR c < PND_RING_FILL c ∧
    PND_RING_FILL c < PND_CLM_W1 c ∧ PND_CLM_W1 c < PND_CLM_W2 c ∧ PND_CLM_W2 c < PND_CLM_W3 c ∧
    PND_CLM_W3 c < PND_RPRIO c ∧ PND_RPRIO c < PND_COAL c ∧ PND_COAL c < PND_CPU_STATUS c := by
  unfold PND_RING_CFG PND_RING_PTR PND_RING_FILL PND_CLM_W1 PND_CLM_W2 PND_CLM_W3 PND_RPRIO PND_COAL PND_CPU_STATUS
  omega

theorem Dev.Keeps.refl (d : Dev) (l : List Nat) : d.Keeps l d := fun _ _ => rfl

/-- A write of a listed register keeps the others. -/
theorem Dev.Keeps.w {d d' : Dev} {l : List Nat} (h : d.Keeps l d') {a : Nat} (ha : a ∈ l) (v : Word) : d.Keeps l (d'.w a v) :=
  fun x hx => (Dev.r_w_ne _ _ (ne_of_mem_of_not_mem ha hx).symm).trans (h x hx)

theorem Dev.Keeps.wf {d d' : Dev} {l : List Nat} (h : d.Keeps l d') {a : Nat} (ha : a ∈ l) (f : Fld) (v : Nat) :
    d.Keeps l (d'.wf a f v) := h.w ha _

theorem Dev.Keeps.set1 {d d' : Dev} {l : List Nat} (h : d.Keeps l d') {a : Nat} (ha : a ∈ l) (f : Fld) :
    d.Keeps l (d'.set1 a f) := h.wf ha f 1

theorem Dev.Keeps.at_ {d d' : Dev} {l : List Nat} (h : d.Keeps l d') (t : Nat) (i : Instr) : d.Keeps l (d'.at_ t i) :=
  fun x hx => (Dev.at_r _ _ _ _).trans (h x hx)

theorem Dev.Keeps.setRing {d d' : Dev} {l : List Nat} (h : d.Keeps l d') (c : Nat) (x : RingH) : d.Keeps l (d'.setRing c x) :=
  fun y hy => (Dev.setRing_r _ _ _ _).trans (h y hy)

theorem Dev.Keeps.setMem {d d' : Dev} {l : List Nat} (h : d.Keeps l d') (m : List Host.Cell) : d.Keeps l { d' with mem := m } :=
  h

theorem Dev.Keeps.trans {d d1 d2 : Dev} {l : List Nat} (h1 : d.Keeps l d1) (h2 : d1.Keeps l d2) : d.Keeps l d2 :=
  fun x hx => (h2 x hx).trans (h1 x hx)

theorem Dev.Keeps.mono {d d' : Dev} {l l' : List Nat} (h : d.Keeps l d') (hl : l ⊆ l') : d.Keeps l' d' :=
  fun x hx => h x fun hm => hx (hl hm)

section
variable {d d' : Dev} {l : List Nat} (h : d.Only l d') {a : Nat} (ha : a ∈ l)
include h

theorem Dev.Only.resp (q : Nat) (v : Word) (e : BErr) : d.Only l (d'.resp q v e) := ⟨h.1, h.2⟩

include ha

theorem Dev.Only.w (v : Word) : d.Only l (d'.w a v) := ⟨h.1.w ha v, h.2⟩
theorem Dev.Only.wf (f : Fld) (v : Nat) : d.Only l (d'.wf a f v) := ⟨h.1.wf ha f v, h.2⟩
theorem Dev.Only.incSat (f : Fld) (n : Nat) : d.Only l (d'.incSat a f n) := h.wf ha f _
theorem Dev.Only.set1 (f : Fld) : d.Only l (d'.set1 a f) := ⟨h.1.set1 ha f, h.2⟩

end

section
variable {d d' : Dev} {l : List Nat} (h : d.Only l d')
include h

theorem Dev.Only.setRing (c : Nat) (x : RingH) : { d with rings := (d'.setRing c x).rings }.Only l (d'.setRing c x) :=
  ⟨h.1, congrArg (fun e => { e with rings := (d'.setRing c x).rings }) h.2⟩

theorem Dev.Only.raise (k p : Nat) : { d with raised := (d'.raise k p).raised }.Only l (d'.raise k p) :=
  ⟨h.1, congrArg (fun e => { e with raised := (d'.raise k p).raised }) h.2⟩

theorem Dev.Only.raiseIf (b : Bool) (k p : Nat) : { d with raised := (d'.raiseIf b k p).raised }.Only l (d'.raiseIf b k p) := by
  cases b
  · exact ⟨h.1, congrArg (fun e => { e with raised := d'.raised }) h.2⟩
  · exact h.raise k p

end

theorem Dev.Only.refl (d : Dev) (l : List Nat) : d.Only l d := ⟨Dev.Keeps.refl d l, rfl⟩

/-- A field that is the whole word takes the number modulo 2^32. -/
theorem fput_word (x : Word) (v : Nat) : fput ⟨0, 32⟩ x v = BitVec.ofNat 32 v := by
  apply BitVec.eq_of_toNat_eq
  have hx : x.toNat / 4294967296 = 0 := Nat.div_eq_of_lt x.isLt
  rw [fput_toNat _ _ _ (by decide), BitVec.toNat_ofNat]
  simp [Nat.mod_one, hx]

/-- A count that fills its word stays at its greatest value. -/
theorem Dev.r_incSat_word (d : Dev) (a : Nat) :
    (d.incSat a ⟨0, 32⟩).r a = if d.r a = 0xFFFFFFFF then 0xFFFFFFFF else d.r a + 1 := by
  have hlt := (d.r a).isLt
  have hval : d.f a ⟨0, 32⟩ = (d.r a).toNat := by
    rw [Dev.f, fget, Nat.pow_zero, Nat.div_one, Nat.mod_eq_of_lt hlt]
  rw [Dev.incSat, Dev.r_wf_same, fput_word, hval]
  split
  · next hmax => rw [hmax]; decide
  · next hmax =>
    have hne : (d.r a).toNat ≠ 2 ^ 32 - 1 := fun e => hmax (BitVec.eq_of_toNat_eq e)
    rw [Nat.min_eq_left (show (d.r a).toNat + 1 ≤ 2 ^ 32 - 1 by omega), BitVec.ofNat_add, BitVec.ofNat_toNat,
      BitVec.setWidth_eq]
    rfl

/-! ### The line (R482) -/

/-- Which records are claimable depends on the ring alone. -/
theorem claimable_congr {d d' : Dev} {c : Nat} (h : d'.ring c = d.ring c) : d'.claimable c = d.claimable c := by
  simp only [Dev.claimable, Dev.aboveRunning, h]

theorem claimable_of_noRecs {d : Dev} {c : Nat} (h : (d.ring c).recs = []) : d.claimable c = [] := by
  rw [Dev.claimable, h, List.filter_nil]

/-- The conditions of R482 do not depend on the core's status word. -/
theorem Dev.lineWanted_wf_status (d : Dev) (c : Nat) (f : Fld) (v : Nat) :
    (d.wf (PND_CPU_STATUS c) f v).lineWanted c = d.lineWanted c := by
  have hne : PND_COAL c ≠ PND_CPU_STATUS c := by have := pendantRegs_rise c; omega
  simp only [Dev.lineWanted, Dev.coalDue, Dev.f_wf_ne _ _ _ _ hne, Dev.b_wf_ne _ _ _ _ hne, Dev.wf_beam,
    claimable_congr (Dev.wf_ring d _ f v c)]

theorem Dev.lineEval_of_wanted {d : Dev} {c : Core} (h : d.lineWanted c = true) :
    d.lineEval c = (d.wf (PND_CPU_STATUS c) PND_CPU_STATUS_CLAIMABLE (d.claimable c).length).wf
      (PND_CPU_STATUS c) PND_CPU_STATUS_LINE 1 := by
  simp only [Dev.lineEval, Dev.lineWanted_wf_status, h, if_true]

/-- With no claimable record only their number is shown. -/
theorem Dev.lineEval_of_none {d : Dev} {c : Core} (h : d.claimable c = []) :
    d.lineEval c = d.wf (PND_CPU_STATUS c) PND_CPU_STATUS_CLAIMABLE 0 := by
  have hstatus := (claimable_congr (Dev.wf_ring d (PND_CPU_STATUS c) PND_CPU_STATUS_CLAIMABLE 0 c)).trans h
  simp [Dev.lineEval, Dev.lineWanted, Dev.coalDue, h, hstatus]

/-- Beside registers and the schedule nothing differs between `d` and `d'`. -/
def Dev.SameUnits (d d' : Dev) : Prop := { d' with regs := d.regs, agenda := d.agenda } = d

theorem Dev.SameUnits.wf {d d' : Dev} (h : d.SameUnits d') (a : Nat) (f : Fld) (v : Nat) : d.SameUnits (d'.wf a f v) := h
theorem Dev.SameUnits.at_ {d d' : Dev} (h : d.SameUnits d') (t : Nat) (i : Instr) : d.SameUnits (d'.at_ t i) := h

/-- What judging the line of core `c` leaves: the number of claimable records shown, beside the line and a step scheduled
for the time condition nothing else (R482). -/
structure Dev.LineJudged (d : Dev) (c : Core) (d' : Dev) : Prop where
  count : d'.f (PND_CPU_STATUS c) PND_CPU_STATUS_CLAIMABLE = (d.claimable c).length % 2 ^ 17
  regs : d.Keeps [PND_CPU_STATUS c] d'
  rest : d.SameUnits d'

theorem Dev.lineEval_judged (d : Dev) (c : Core) : d.LineJudged c (d.lineEval c) := by
  have hmem : PND_CPU_STATUS c ∈ [PND_CPU_STATUS c] := List.mem_singleton_self _
  have hkeeps := (Dev.Keeps.refl d [PND_CPU_STATUS c]).wf hmem PND_CPU_STATUS_CLAIMABLE (d.claimable c).length
  have hrest := Dev.SameUnits.wf (d := d) rfl (PND_CPU_STATUS c) PND_CPU_STATUS_CLAIMABLE (d.claimable c).length
  have hcount : (d.wf (PND_CPU_STATUS c) PND_CPU_STATUS_CLAIMABLE (d.claimable c).length).f (PND_CPU_STATUS c)
      PND_CPU_STATUS_CLAIMABLE = (d.claimable c).length % 2 ^ 17 := Dev.f_wf_same _ _ _ _ (by decide)
  by_cases hw : d.lineWanted c = true
  · rw [Dev.lineEval_of_wanted hw]
    exact ⟨(Dev.f_wf_other _ _ _ _ _ (by decide) (by decide)).trans hcount, hkeeps.wf hmem _ _, hrest.wf _ _ _⟩
  · simp only [Dev.lineEval, Dev.lineWanted_wf_status, if_neg hw]
    split
    · split
      · exact ⟨hcount, hkeeps, hrest⟩
      · exact ⟨(Dev.at_f _ _ _ _ _).trans hcount, hkeeps.at_ _ _, hrest.at_ _ _⟩
    · exact ⟨hcount, hkeeps, hrest⟩

section
variable {d d' : Dev} {c : Core} (h : d.LineJudged c d')
include h

theorem Dev.LineJudged.ring (x : Nat) : d'.ring x = d.ring x := (congrArg (Dev.ring · x) h.rest :)
theorem Dev.LineJudged.raised : d'.raised = d.raised := (congrArg Dev.raised h.rest :)
theorem Dev.LineJudged.mem : d'.mem = d.mem := (congrArg Dev.mem h.rest :)
theorem Dev.LineJudged.beam : d'.beam = d.beam := (congrArg Dev.beam h.rest :)

theorem Dev.LineJudged.r {a : Nat} (ha : a ≠ PND_CPU_STATUS c) : d'.r a = d.r a := h.regs a (by simpa using ha)

theorem Dev.LineJudged.f {a : Nat} (ha : a ≠ PND_CPU_STATUS c) (g : Fld) : d'.f a g = d.f a g := by
  rw [Dev.f, Dev.f, h.r ha]

end

/-! ### Appending records (R465, R471-R474) -/

/-- Four words from `a` on, the first one stored last. -/
def Dev.storeRecord (d : Dev) (a w0 w1 w2 w3 : Nat) : Dev :=
  (((d.storeN (a + 4) w1 4).storeN (a + 8) w2 4).storeN (a + 12) w3 4).storeN a w0 4

section
variable (d : Dev) (a w0 w1 w2 w3 : Nat)

theorem Dev.storeRecord_word0 : (d.storeRecord a w0 w1 w2 w3).loadN a 4 = w0 % 2 ^ 32 := loadN_storeN_same _ _ _ _

theorem Dev.storeRecord_word1 : (d.storeRecord a w0 w1 w2 w3).loadN (a + 4) 4 = w1 % 2 ^ 32 := by
  rw [Dev.storeRecord, loadN_storeN_apart _ _ (by omega), loadN_storeN_apart _ _ (by omega),
    loadN_storeN_apart _ _ (by omega)]
  exact loadN_storeN_same _ _ _ _

theorem Dev.storeRecord_word2 : (d.storeRecord a w0 w1 w2 w3).loadN (a + 8) 4 = w2 % 2 ^ 32 := by
  rw [Dev.storeRecord, loadN_storeN_apart _ _ (by omega), loadN_storeN_apart _ _ (by omega)]
  exact loadN_storeN_same _ _ _ _

theorem Dev.storeRecord_word3 : (d.storeRecord a w0 w1 w2 w3).loadN (a + 12) 4 = w3 % 2 ^ 32 := by
  rw [Dev.storeRecord, loadN_storeN_apart _ _ (by omega)]
  exact loadN_storeN_same _ _ _ _

theorem Dev.storeRecord_byte {x : Nat} (h : x < a ∨ a + 16 ≤ x) :
    (d.storeRecord a w0 w1 w2 w3).byte x = d.byte x := by
  simp only [Dev.storeRecord, byte_storeN]
  rw [if_neg (by omega), if_neg (by omega), if_neg (by omega), if_neg (by omega)]

theorem Dev.storeRecord_wf (h : Memory.wf d.mem = true) : Memory.wf (d.storeRecord a w0 w1 w2 w3).mem = true :=
  storeN_wf _ _ _ _ (storeN_wf _ _ _ _ (storeN_wf _ _ _ _ (storeN_wf _ _ _ _ h)))

theorem Dev.storeRecord_only : ∃ m, d.storeRecord a w0 w1 w2 w3 = { d with mem := m } := by
  obtain ⟨m1, h1⟩ := storeN_only d (a + 4) w1 4
  obtain ⟨m2, h2⟩ := storeN_only { d with mem := m1 } (a + 8) w2 4
  obtain ⟨m3, h3⟩ := storeN_only { d with mem := m2 } (a + 12) w3 4
  obtain ⟨m, h⟩ := storeN_only { d with mem := m3 } a w0 4
  exact ⟨m, by rw [Dev.storeRecord, h1, h2, h3, h]⟩

end

/-- The index of the record that ring `c` takes next, the one after it, and the record's address (R470, R472). -/
def Dev.ringHead (d : Dev) (c : Nat) : Nat := d.f (PND_RING_PTR c) PND_RING_PTR_HEAD
def Dev.nextHead (d : Dev) (c : Nat) : Nat := (d.ringHead c + 1) % d.ringSize c
def Dev.headAddr (d : Dev) (c : Nat) : Nat := d.ringBase c + 16 * d.ringHead c

/-- The ring with one more record `r`, HEAD moving on to `next`. -/
def RingH.add (g : RingH) (r : RecH) (next : Nat) : RingH :=
  { g with recs := g.recs ++ [r], lap := if next = 0 then !g.lap else g.lap, before := 0, reported := false }

/-- What a raise appended to ring `c` leaves: its record at HEAD in memory and claimable, HEAD moved on (R471-R474). -/
structure Dev.RecordAppended (d : Dev) (c : Core) (e : RaiseEv) (d' : Dev) : Prop where
  word0 : d'.loadN (d.headAddr c) 4 =
    ((if (d.ring c).lap then 0x100000 else 0) + e.route / 16 % 16 * 0x10000 + e.src) % 2 ^ 32
  word1 : d'.loadN (d.headAddr c + 4) 4 = (e.payload * 65536 + e.ts / 2 ^ 32 % 65536) % 2 ^ 32
  word2 : d'.loadN (d.headAddr c + 8) 4 = e.ts % 2 ^ 32
  word3 : d'.loadN (d.headAddr c + 12) 4 = (d.ring c).before % 2 ^ 32
  bytes : ∀ x, x < d.headAddr c ∨ d.headAddr c + 16 ≤ x → d'.byte x = d.byte x
  ring : d'.ring c = (d.ring c).add ⟨d.ringHead c, e.src, e.route / 16 % 16, e.ts, false⟩ (d.nextHead c)
  head : d'.f (PND_RING_PTR c) PND_RING_PTR_HEAD = d.nextHead c % 65536
  fill : d'.f (PND_RING_FILL c) PND_RING_FILL_FILL = ((d.ring c).recs.length + 1) % 2 ^ 17
  count : d'.f (PND_CPU_STATUS c) PND_CPU_STATUS_CLAIMABLE = (d'.claimable c).length % 2 ^ 17
  raised : d'.raised = d.raised
  regs : d.Keeps [PND_RING_PTR c, PND_RING_FILL c, PND_CPU_STATUS c] d'
  memWf : Memory.wf d.mem = true → Memory.wf d'.mem = true
  beam : d'.beam = d.beam

section
variable (d : Dev) (c : Core) (e : RaiseEv)

theorem recWord0_eq (lap : Bool) (prio src : Nat) :
    recWord0 lap prio src = (if lap then 0x100000 else 0) + prio * 0x10000 + src := by
  cases lap <;> simp [recWord0, b2n]

/-- The record of `e` at HEAD of ring `c` in memory (R471). -/
def Dev.recordStored : Dev :=
  d.storeRecord (d.headAddr c) (recWord0 (d.ring c).lap (e.route / 16 % 16) e.src) (e.payload * 65536 + nfield e.ts 32 16)
    (e.ts % 4294967296) (d.ring c).before

theorem Dev.recordStored_only : ∃ m, d.recordStored c e = { d with mem := m } := d.storeRecord_only _ _ _ _ _

/-- With its record in memory, ring and pointers moved on past it, before the line is judged. -/
def Dev.ringFilled : Dev :=
  (((d.recordStored c e).setRing c
    ((d.ring c).add ⟨d.ringHead c, e.src, e.route / 16 % 16, e.ts, false⟩ (d.nextHead c))).wf
      (PND_RING_PTR c) PND_RING_PTR_HEAD (d.nextHead c)).ringShow c

theorem Dev.ringAppend_eq (h : placeOf (d.headAddr c) = .mem) :
    d.ringAppend c e (e.route / 16 % 16) = (d.ringFilled c e).lineEval c := by
  rw [Dev.headAddr, Dev.ringHead] at h
  simp only [Dev.ringAppend, Dev.ringStore, if_pos h]
  rfl

theorem Dev.ringFilled_ring :
    (d.ringFilled c e).ring c = (d.ring c).add ⟨d.ringHead c, e.src, e.route / 16 % 16, e.ts, false⟩ (d.nextHead c) := by
  rw [Dev.ringFilled, Dev.ringShow, Dev.wf_ring, Dev.wf_ring, Dev.ring_setRing]

theorem Dev.ringFilled_mem : (d.ringFilled c e).mem = (d.recordStored c e).mem := by
  rw [Dev.ringFilled, Dev.ringShow, Dev.wf_mem, Dev.wf_mem, Dev.setRing_mem]

theorem Dev.ringFilled_raised : (d.ringFilled c e).raised = d.raised := by
  obtain ⟨m, h⟩ := d.recordStored_only c e
  rw [Dev.ringFilled, Dev.ringShow, Dev.wf_raised, Dev.wf_raised, Dev.setRing_raised, h]

theorem Dev.ringFilled_beam : (d.ringFilled c e).beam = d.beam := by
  obtain ⟨m, h⟩ := d.recordStored_only c e
  rw [Dev.ringFilled, Dev.ringShow, Dev.wf_beam, Dev.wf_beam, Dev.setRing_beam, h]

theorem Dev.ringFilled_keeps : d.Keeps [PND_RING_PTR c, PND_RING_FILL c] (d.ringFilled c e) := by
  obtain ⟨m, h⟩ := d.recordStored_only c e
  rw [Dev.ringFilled, Dev.ringShow, h]
  exact ((((Dev.Keeps.refl d _).setMem m).setRing _ _).wf (by simp) _ _).wf (by simp) _ _

theorem Dev.ringFilled_head : (d.ringFilled c e).f (PND_RING_PTR c) PND_RING_PTR_HEAD = d.nextHead c % 65536 := by
  have hne : PND_RING_PTR c ≠ PND_RING_FILL c := by have := pendantRegs_rise c; omega
  rw [Dev.ringFilled, Dev.ringShow, Dev.f_wf_ne _ _ _ _ hne, Dev.f_wf_same _ _ _ _ (by decide)]
  rfl

theorem Dev.ringFilled_fill :
    (d.ringFilled c e).f (PND_RING_FILL c) PND_RING_FILL_FILL = ((d.ring c).recs.length + 1) % 2 ^ 17 := by
  rw [Dev.ringFilled, Dev.ringShow, Dev.f_wf_same _ _ _ _ (by decide), Dev.wf_ring, Dev.ring_setRing, RingH.add,
    List.length_append]
  rfl

variable {d c e}

theorem Dev.ringAppend_appended (h : placeOf (d.headAddr c) = .mem) :
    d.RecordAppended c e (d.ringAppend c e (e.route / 16 % 16)) := by
  have hregs := pendantRegs_rise c
  have hj := (d.ringFilled c e).lineEval_judged c
  rw [Dev.ringAppend_eq _ _ _ h]
  have hmem := hj.mem.trans (d.ringFilled_mem c e)
  exact {
    word0 := by rw [loadN_mem hmem, Dev.recordStored, Dev.storeRecord_word0, recWord0_eq]
    word1 := by rw [loadN_mem hmem, Dev.recordStored, Dev.storeRecord_word1]; rfl
    word2 := by rw [loadN_mem hmem, Dev.recordStored, Dev.storeRecord_word2]; exact Nat.mod_mod _ _
    word3 := by rw [loadN_mem hmem, Dev.recordStored, Dev.storeRecord_word3]
    bytes := fun x hx => by rw [Dev.byte, hmem]; exact d.storeRecord_byte _ _ _ _ _ hx
    ring := by rw [hj.ring, d.ringFilled_ring]
    head := by rw [hj.f (by omega), d.ringFilled_head]
    fill := by rw [hj.f (by omega), d.ringFilled_fill]
    count := by rw [hj.count, claimable_congr (hj.ring c)]
    raised := by rw [hj.raised, d.ringFilled_raised]
    regs := ((d.ringFilled_keeps c e).mono (by simp)).trans (hj.regs.mono (by simp))
    memWf := fun hwf => by rw [hmem]; exact d.storeRecord_wf _ _ _ _ _ hwf
    beam := by rw [hj.beam, d.ringFilled_beam] }

/-! ### Raises that reach no ring (R465, R474) -/

theorem Dev.ringDrop_drops :
    (d.ringDrop c).r (PND_DROPS c) = if d.r (PND_DROPS c) = 0xFFFFFFFF then 0xFFFFFFFF else d.r (PND_DROPS c) + 1 := by
  rw [Dev.ringDrop, Dev.raiseIf_r, Dev.setRing_r]
  exact d.r_incSat_word _

theorem Dev.ringDrop_ring :
    (d.ringDrop c).ring c = { d.ring c with before := min ((d.ring c).before + 1) 65535, reported := true } := by
  rw [Dev.ringDrop, Dev.raiseIf_ring, Dev.ring_setRing]

/-- The first drop raises source 0x0030 with the ring's number. -/
theorem Dev.ringDrop_raised : (d.ringDrop c).raised =
    if (d.ring c).reported then d.raised else d.raised ++ [⟨0x0030, c, d.beam, d.routeOf 0x0030⟩] := by
  have hroute : PND_ROUTE 0x0030 ≠ PND_DROPS c := by have := c.isLt; unfold PND_ROUTE PND_DROPS; omega
  have hcore : c.val % 65536 = c := Nat.mod_eq_of_lt (by have := c.isLt; omega)
  rw [Dev.ringDrop, Dev.raised_raiseIf, Dev.setRing_routeOf, Dev.routeOf_incSat _ _ _ hroute, hcore,
    Dev.setRing_raised, Dev.setRing_beam, Dev.incSat_raised, Dev.incSat_beam]
  cases (d.ring c).reported <;> rfl

theorem Dev.ringDrop_mem : (d.ringDrop c).mem = d.mem := by
  rw [Dev.ringDrop, Dev.raiseIf_mem, Dev.setRing_mem, Dev.incSat_mem]

theorem Dev.ringDrop_beam : (d.ringDrop c).beam = d.beam := by
  rw [Dev.ringDrop, Dev.raiseIf_beam, Dev.setRing_beam, Dev.incSat_beam]

theorem Dev.ringDrop_only :
    { d with rings := (d.ringDrop c).rings, raised := (d.ringDrop c).raised }.Only [PND_DROPS c] (d.ringDrop c) := by
  have h := ((Dev.Only.refl d _).incSat (List.mem_singleton_self (PND_DROPS c)) PND_DROPS_DROPS 1).setRing c
    { d.ring c with before := min ((d.ring c).before + 1) 65535, reported := true }
  rw [Dev.ringDrop, Dev.raiseIf_rings]
  exact h.raiseIf _ _ _

variable (src : Nat)

theorem Dev.unrouted_count :
    (d.unrouted src).r PND_UNROUTED = if d.r PND_UNROUTED = 0xFFFFFFFF then 0xFFFFFFFF else d.r PND_UNROUTED + 1 := by
  rw [Dev.unrouted, Dev.raiseIf_r, Dev.r_set1_ne _ _ (by decide), Dev.r_wf_ne _ _ _ (by decide)]
  exact d.r_incSat_word _

theorem Dev.unrouted_last : (d.unrouted src).f PND_BLK_STATUS PND_BLK_STATUS_LAST_UNROUTED = src % 65536 := by
  rw [Dev.unrouted, Dev.raiseIf_f, Dev.f_set1_other _ _ _ _ (by decide) (by decide), Dev.f_wf_same _ _ _ _ (by decide)]
  rfl

theorem Dev.unrouted_flag : (d.unrouted src).b PND_BLK_STATUS PND_BLK_STATUS_UNROUTED = true := by
  rw [Dev.unrouted, Dev.raiseIf_b, Dev.b_set1_same _ _ _ (by decide) (by decide)]

/-- Source 0x0031 is raised unless it is the unrouted one. -/
theorem Dev.unrouted_raised : (d.unrouted src).raised =
    if src = 0x0031 then d.raised else d.raised ++ [⟨0x0031, 0, d.beam, d.routeOf 0x0031⟩] := by
  rw [Dev.unrouted, Dev.raised_raiseIf, Dev.routeOf_set1 _ _ (by decide), Dev.routeOf_wf _ _ _ (by decide),
    Dev.routeOf_incSat _ _ _ (by decide), Dev.set1_raised, Dev.set1_beam, Dev.wf_raised, Dev.wf_beam, Dev.incSat_raised,
    Dev.incSat_beam]
  by_cases h : src = 0x0031
  · rw [if_pos h, if_neg (by simp [h])]
  · rw [if_neg h, if_pos (by simp [h])]

theorem Dev.unrouted_mem : (d.unrouted src).mem = d.mem := by
  rw [Dev.unrouted, Dev.raiseIf_mem, Dev.set1_mem, Dev.wf_mem, Dev.incSat_mem]

theorem Dev.unrouted_beam : (d.unrouted src).beam = d.beam := by
  rw [Dev.unrouted, Dev.raiseIf_beam, Dev.set1_beam, Dev.wf_beam, Dev.incSat_beam]

theorem Dev.unrouted_only :
    { d with raised := (d.unrouted src).raised }.Only [PND_UNROUTED, PND_BLK_STATUS] (d.unrouted src) :=
  ((((Dev.Only.refl d _).incSat (by simp) _ _).wf (by simp) _ _).set1 (by simp) _).raiseIf _ _ _

end

/-! ### The next raise in order (R465, R473) -/

section
variable {d : Dev} {e : RaiseEv} {rest : List RaiseEv}

theorem Dev.recordAppend_of_first (h : firstRaise d.raised = some (e, rest)) :
    d.recordAppend = { d with raised := rest }.raiseArrives e := by
  rw [Dev.recordAppend, h]

/-- Bit 8 of a routing entry, its EN. -/
theorem nbit_8 (x : Nat) : nbit x 8 = decide (x / 256 % 2 = 1) := rfl

variable {c : Core} (hen : e.route / 256 % 2 = 1) (hown : e.route % 16 = c)
include hen hown

/-- An enabled entry hands the raise to its owner. -/
theorem Dev.raiseArrives_owned : d.raiseArrives e =
    if d.b (PND_RING_CFG c) PND_RING_CFG_EN && decide ((d.ring c).recs.length < d.ringSize c) then
      d.ringAppend c e (e.route / 16 % 16) else d.ringDrop c := by
  have howner : nbit e.route 8 = true ∧ e.route % 16 < 9 := by
    rw [nbit_8, decide_eq_true_iff, hown]; exact ⟨hen, c.isLt⟩
  rw [Dev.raiseArrives, dif_pos howner]
  simp only [hown, Fin.eta]

theorem Dev.raiseArrives_room (hon : d.b (PND_RING_CFG c) PND_RING_CFG_EN = true)
    (hroom : (d.ring c).recs.length < d.ringSize c) : d.raiseArrives e = d.ringAppend c e (e.route / 16 % 16) := by
  rw [Dev.raiseArrives_owned hen hown, if_pos (by simp [hon, hroom])]

theorem Dev.raiseArrives_full (hno : d.b (PND_RING_CFG c) PND_RING_CFG_EN = false ∨ d.ringSize c ≤ (d.ring c).recs.length) :
    d.raiseArrives e = d.ringDrop c := by
  have hnot : ¬ (d.b (PND_RING_CFG c) PND_RING_CFG_EN && decide ((d.ring c).recs.length < d.ringSize c)) = true := by
    rw [Bool.and_eq_true, decide_eq_true_iff]
    rintro ⟨hon, hroom⟩
    rcases hno with hoff | hfull
    · rw [hoff] at hon; cases hon
    · exact Nat.not_lt_of_le hfull hroom
  rw [Dev.raiseArrives_owned hen hown, if_neg hnot]

end

theorem Dev.raiseArrives_unrouted {d : Dev} {e : RaiseEv} (h : e.route / 256 % 2 = 0 ∨ 9 ≤ e.route % 16) :
    d.raiseArrives e = d.unrouted e.src := by
  have hnot : ¬ (nbit e.route 8 = true ∧ e.route % 16 < 9) := by
    rw [nbit_8, decide_eq_true_iff]; omega
  simp only [Dev.raiseArrives, dif_neg hnot]

/-! ### Claims and ends of interrupt (R477-R480) -/

section
variable (d : Dev) (c : Core)

/-- The running-priority register for a stack. -/
def rprioWord (st : List Nat) : Word :=
  BitVec.ofNat 32 (st.foldl (fun m p => m ||| 2 ^ p) 0 * 65536 + st.length * 256 + st.headD 16)

/-- A new stack is a write of the ring and of PND_RPRIO. -/
theorem Dev.setStack_eq (st : List Nat) :
    d.setStack c st = (d.setRing c { d.ring c with stack := st }).w (PND_RPRIO c) (rprioWord st) := by
  rw [Dev.setStack, Dev.rprioShow, Dev.ring_setRing]
  cases st <;> rfl

theorem Dev.setStack_ring (st : List Nat) : (d.setStack c st).ring c = { d.ring c with stack := st } := by
  rw [Dev.setStack_eq, Dev.w_ring, Dev.ring_setRing]

theorem Dev.setStack_rprio (st : List Nat) : (d.setStack c st).r (PND_RPRIO c) = rprioWord st := by
  rw [Dev.setStack_eq, Dev.r_w_same]

/-- What a new stack `st` leaves: its word in PND_RPRIO, the records as they were (R480). -/
structure Dev.StackSet (st : List Nat) (d' : Dev) : Prop where
  stack : (d'.ring c).stack = st
  rprio : d'.r (PND_RPRIO c) = rprioWord st
  recs : (d'.ring c).recs = (d.ring c).recs
  regs : d.Keeps [PND_RPRIO c, PND_CPU_STATUS c] d'
  mem : d'.mem = d.mem
  beam : d'.beam = d.beam

theorem Dev.setStack_stackSet (st : List Nat) : d.StackSet c st ((d.setStack c st).lineEval c) := by
  have hne : PND_RPRIO c ≠ PND_CPU_STATUS c := by have := pendantRegs_rise c; omega
  have hj := (d.setStack c st).lineEval_judged c
  exact {
    stack := by rw [hj.ring, Dev.setStack_ring]
    rprio := by rw [hj.r hne, Dev.setStack_rprio]
    recs := by rw [hj.ring, Dev.setStack_ring]
    regs := by
      refine Dev.Keeps.trans ?_ (hj.regs.mono (by simp))
      rw [Dev.setStack_eq]
      exact ((Dev.Keeps.refl d _).setRing _ _).w (by simp) _
    mem := by rw [hj.mem, Dev.setStack_eq, Dev.w_mem, Dev.setRing_mem]
    beam := by rw [hj.beam, Dev.setStack_eq, Dev.w_beam, Dev.setRing_beam] }

theorem Dev.eoi_of_stack {p : Nat} {st : List Nat} (h : (d.ring c).stack = p :: st) :
    d.eoi c = (d.setStack c st).lineEval c := by
  rw [Dev.eoi, h]

/-- With the stack empty, EOI_EMPTY is set. -/
theorem Dev.eoi_of_empty (h : (d.ring c).stack = []) : d.eoi c = d.set1 (PND_CPU_STATUS c) PND_CPU_STATUS_EOI_EMPTY := by
  rw [Dev.eoi, h]

/-- The records of ring `c` from TAIL on once the one at index `i` is claimed (R478). -/
def Dev.recsClaimed (i : Nat) : List RecH :=
  dropClaimed ((d.ring c).recs.map fun x => if x.idx = i then { x with claimed := true } else x)

/-- The index of the first of `recs`, HEAD where there is none. -/
def tailIdx (head : Nat) (recs : List RecH) : Nat := (recs.map RecH.idx).headD head

theorem Dev.ringClaim_eq (i : Nat) : d.ringClaim c i =
    ((d.setRing c { d.ring c with recs := d.recsClaimed c i }).wf (PND_RING_PTR c) PND_RING_PTR_TAIL
      (tailIdx (d.ringHead c) (d.recsClaimed c i))).ringShow c := by
  have htail : ∀ head recs, (match recs with | r :: _ => r.idx | [] => head) = tailIdx head recs := by
    rintro head (_ | ⟨r, recs⟩) <;> rfl
  rw [← htail]; rfl

theorem Dev.ringClaim_ring (i : Nat) : (d.ringClaim c i).ring c = { d.ring c with recs := d.recsClaimed c i } := by
  rw [Dev.ringClaim_eq, Dev.ringShow, Dev.wf_ring, Dev.wf_ring, Dev.ring_setRing]

theorem Dev.ringClaim_fill (i : Nat) :
    (d.ringClaim c i).f (PND_RING_FILL c) PND_RING_FILL_FILL = (d.recsClaimed c i).length % 2 ^ 17 := by
  rw [Dev.ringClaim_eq, Dev.ringShow, Dev.f_wf_same _ _ _ _ (by decide), Dev.wf_ring, Dev.ring_setRing]
  rfl

theorem Dev.ringClaim_tail (i : Nat) : (d.ringClaim c i).f (PND_RING_PTR c) PND_RING_PTR_TAIL =
    tailIdx (d.ringHead c) (d.recsClaimed c i) % 65536 := by
  have hne : PND_RING_PTR c ≠ PND_RING_FILL c := by have := pendantRegs_rise c; omega
  rw [Dev.ringClaim_eq, Dev.ringShow, Dev.f_wf_ne _ _ _ _ hne, Dev.f_wf_same _ _ _ _ (by decide)]
  rfl

theorem Dev.ringClaim_keeps (i : Nat) : d.Keeps [PND_RING_PTR c, PND_RING_FILL c] (d.ringClaim c i) := by
  rw [Dev.ringClaim_eq, Dev.ringShow]
  exact (((Dev.Keeps.refl d _).setRing _ _).wf (by simp) _ _).wf (by simp) _ _

/-- Word `k` of the record of `r` as a claim reads it back (R479). -/
def Dev.claimWord (r : RecH) (bad : Bool) (k : Nat) : Word :=
  if bad then 0 else BitVec.ofNat 32 (d.loadN (d.ringBase c + 16 * r.idx + k) 4)

/-- The claimed record's words in the registers that hold them. -/
def Dev.claimShown (r : RecH) (bad : Bool) : Dev :=
  ((d.w (PND_CLM_W1 c) (d.claimWord c r bad 4)).w (PND_CLM_W2 c) (d.claimWord c r bad 8)).w (PND_CLM_W3 c)
    (d.claimWord c r bad 12)

/-- What a claim of record `r` leaves (R477-R479). -/
structure Dev.Claimed (r : RecH) (bad : Bool) (d' : Dev) : Prop where
  word1 : d'.r (PND_CLM_W1 c) = d.claimWord c r bad 4
  word2 : d'.r (PND_CLM_W2 c) = d.claimWord c r bad 8
  word3 : d'.r (PND_CLM_W3 c) = d.claimWord c r bad 12
  stack : (d'.ring c).stack = r.prio :: (d.ring c).stack
  rprio : d'.r (PND_RPRIO c) = rprioWord (r.prio :: (d.ring c).stack)
  recs : (d'.ring c).recs = d.recsClaimed c r.idx
  fill : d'.f (PND_RING_FILL c) PND_RING_FILL_FILL = (d.recsClaimed c r.idx).length % 2 ^ 17
  tail : d'.f (PND_RING_PTR c) PND_RING_PTR_TAIL = tailIdx (d.ringHead c) (d.recsClaimed c r.idx) % 65536
  regs : d.Keeps [PND_CLM_W1 c, PND_CLM_W2 c, PND_CLM_W3 c, PND_RPRIO c, PND_RING_PTR c, PND_RING_FILL c, PND_CPU_STATUS c] d'
  mem : d'.mem = d.mem
  beam : d'.beam = d.beam

/-- A claim shows the record's words, takes it off the ring and pushes its priority. -/
theorem Dev.claim_eq {r : RecH} (h : bestRec (d.claimable c) = some r) (bad : Bool) : d.claim c bad =
    (((((d.claimShown c r bad).ringClaim c r.idx).setStack c (r.prio :: (d.ring c).stack)).lineEval c),
      BitVec.ofNat 32 ((if bad then 0x40000000 else 0) + (if d.recLap c r.idx then 0x100000 else 0) +
        r.prio * 0x10000 + r.src)) := by
  have hword : recWord0 (d.recLap c r.idx) r.prio r.src + (if bad then 0x40000000 else 0) =
      (if bad then 0x40000000 else 0) + (if d.recLap c r.idx then 0x100000 else 0) + r.prio * 0x10000 + r.src := by
    rw [recWord0_eq]; omega
  rw [← hword, Dev.claim, h]
  rfl

theorem Dev.claim_claimed {r : RecH} (h : bestRec (d.claimable c) = some r) (bad : Bool) :
    d.Claimed c r bad (d.claim c bad).1 := by
  have hregs := pendantRegs_rise c
  rw [Dev.claim_eq d c h]
  dsimp only
  generalize hd1 : d.claimShown c r bad = d1
  have hring : d1.ring c = d.ring c := by
    rw [← hd1, Dev.claimShown, Dev.w_ring, Dev.w_ring, Dev.w_ring]
  have hother {x : Nat} (h1 : x ≠ PND_CLM_W1 c) (h2 : x ≠ PND_CLM_W2 c) (h3 : x ≠ PND_CLM_W3 c) : d1.r x = d.r x := by
    rw [← hd1, Dev.claimShown, Dev.r_w_ne _ _ h3, Dev.r_w_ne _ _ h2, Dev.r_w_ne _ _ h1]
  have hrecs : d1.recsClaimed c r.idx = d.recsClaimed c r.idx := by rw [Dev.recsClaimed, hring, Dev.recsClaimed]
  have hhead : d1.ringHead c = d.ringHead c := by
    rw [Dev.ringHead, Dev.f, hother (by omega) (by omega) (by omega)]; rfl
  have hkeeps := d1.ringClaim_keeps c r.idx
  have hs := (d1.ringClaim c r.idx).setStack_stackSet c (r.prio :: (d.ring c).stack)
  have hclaim {x : Nat} (hx : x ≠ PND_RPRIO c ∧ x ≠ PND_CPU_STATUS c ∧ x ≠ PND_RING_PTR c ∧ x ≠ PND_RING_FILL c) :
      (((d1.ringClaim c r.idx).setStack c (r.prio :: (d.ring c).stack)).lineEval c).r x = d1.r x := by
    obtain ⟨hrprio, hcpu, hptr, hfill⟩ := hx
    rw [hs.regs x (by simp [hrprio, hcpu]), hkeeps x (by simp [hptr, hfill])]
  exact {
    word1 := by
      rw [hclaim (by omega), ← hd1, Dev.claimShown, Dev.r_w_ne _ _ (by omega), Dev.r_w_ne _ _ (by omega), Dev.r_w_same]
    word2 := by rw [hclaim (by omega), ← hd1, Dev.claimShown, Dev.r_w_ne _ _ (by omega), Dev.r_w_same]
    word3 := by rw [hclaim (by omega), ← hd1, Dev.claimShown, Dev.r_w_same]
    stack := hs.stack
    rprio := hs.rprio
    recs := by rw [hs.recs, Dev.ringClaim_ring, hrecs]
    fill := by
      have hsame := hs.regs (PND_RING_FILL c) (by simp; omega)
      rw [Dev.f, hsame, ← hrecs]; exact d1.ringClaim_fill c _
    tail := by
      have hsame := hs.regs (PND_RING_PTR c) (by simp; omega)
      rw [Dev.f, hsame, ← hrecs, ← hhead]; exact d1.ringClaim_tail c _
    regs := by
      intro x hx
      simp only [List.mem_cons, List.not_mem_nil, or_false, not_or] at hx
      obtain ⟨h1, h2, h3, hrprio, hptr, hfill, hcpu⟩ := hx
      rw [hclaim ⟨hrprio, hcpu, hptr, hfill⟩, hother h1 h2 h3]
    mem := by rw [hs.mem, Dev.ringClaim_eq, ← hd1]; simp [Dev.ringShow, Dev.claimShown]
    beam := by rw [hs.beam, Dev.ringClaim_eq, ← hd1]; simp [Dev.ringShow, Dev.claimShown] }

/-- With no claimable record a claim answers NONE and changes nothing. -/
theorem Dev.claim_of_none (h : d.claimable c = []) (bad : Bool) : d.claim c bad = (d, 0x80000000) := by
  rw [Dev.claim, h, bestRec]

end

/-! ### Rings switched on and off (R475) -/

section
variable {d : Dev} {c : Core} {g : RingH} (hg : g.recs = [])
include hg

/-- A ring that loses its records shows FILL 0 and no claimable record. -/
theorem Dev.lineEval_emptied : ((d.setRing c g).ringShow c).lineEval c =
    ((d.setRing c g).wf (PND_RING_FILL c) PND_RING_FILL_FILL 0).wf (PND_CPU_STATUS c) PND_CPU_STATUS_CLAIMABLE 0 := by
  rw [Dev.ringShow, Dev.ring_setRing, hg, List.length_nil, Dev.lineEval_of_none]
  exact claimable_of_noRecs (by rw [Dev.wf_ring, Dev.ring_setRing, hg])

theorem Dev.emptied_ring : (((d.setRing c g).ringShow c).lineEval c).ring c = g := by
  rw [Dev.lineEval_emptied hg, Dev.wf_ring, Dev.wf_ring, Dev.ring_setRing]

theorem Dev.emptied_fill : (((d.setRing c g).ringShow c).lineEval c).f (PND_RING_FILL c) PND_RING_FILL_FILL = 0 := by
  have hne : PND_RING_FILL c ≠ PND_CPU_STATUS c := by have := pendantRegs_rise c; omega
  rw [Dev.lineEval_emptied hg, Dev.f_wf_ne _ _ _ _ hne, Dev.f_wf_same _ _ _ _ (by decide), Nat.zero_mod]

theorem Dev.emptied_r {x : Nat} (hx : x ≠ PND_RING_FILL c ∧ x ≠ PND_CPU_STATUS c) :
    (((d.setRing c g).ringShow c).lineEval c).r x = d.r x := by
  rw [Dev.lineEval_emptied hg, Dev.r_wf_ne _ _ _ hx.2, Dev.r_wf_ne _ _ _ hx.1, Dev.setRing_r]

theorem Dev.emptied_mem : (((d.setRing c g).ringShow c).lineEval c).mem = d.mem := by
  rw [Dev.lineEval_emptied hg, Dev.wf_mem, Dev.wf_mem, Dev.setRing_mem]

theorem Dev.emptied_beam : (((d.setRing c g).ringShow c).lineEval c).beam = d.beam := by
  rw [Dev.lineEval_emptied hg, Dev.wf_beam, Dev.wf_beam, Dev.setRing_beam]

theorem Dev.emptied_only {d0 : Dev} {l : List Nat} (h : d0.Only l d) (hfill : PND_RING_FILL c ∈ l)
    (hcpu : PND_CPU_STATUS c ∈ l) :
    { d0 with rings := (((d.setRing c g).ringShow c).lineEval c).rings }.Only l (((d.setRing c g).ringShow c).lineEval c) := by
  rw [Dev.lineEval_emptied hg, Dev.wf_rings, Dev.wf_rings]
  exact ((h.setRing c g).wf hfill _ _).wf hcpu _ _

end

section
variable (d : Dev) (c : Core)

/-- What switching ring `c` leaves: EN, PND_RING_PTR and the ring's records, stack and LAP as in `g` (R475). -/
structure Dev.Switched (en : Bool) (ptr : Word) (g : RingH) (d' : Dev) : Prop where
  en : d'.b (PND_RING_CFG c) PND_RING_CFG_EN = en
  ptr : d'.r (PND_RING_PTR c) = ptr
  ring : d'.ring c = g
  fill : d'.f (PND_RING_FILL c) PND_RING_FILL_FILL = 0
  only : { d with rings := d'.rings }.Only [PND_RING_CFG c, PND_RING_PTR c, PND_RING_FILL c, PND_CPU_STATUS c] d'
  mem : d'.mem = d.mem
  beam : d'.beam = d.beam

/-- Switching a ring writes EN and PND_RING_PTR and empties it. -/
theorem Dev.switched (en : Nat) (ptr : Word) {g : RingH} (hg : g.recs = []) :
    d.Switched c (en % 2 != 0) ptr g
      (((((d.wf (PND_RING_CFG c) PND_RING_CFG_EN en).w (PND_RING_PTR c) ptr).setRing c g).ringShow c).lineEval c) := by
  have hregs := pendantRegs_rise c
  exact {
    en := by
      rw [Dev.b, Dev.f, Dev.emptied_r hg (by omega), Dev.r_w_ne _ _ (by omega), Dev.r_wf_same,
        fget_fput_same _ _ _ (by decide)]
      rfl
    ptr := by rw [Dev.emptied_r hg (by omega), Dev.r_w_same]
    ring := Dev.emptied_ring hg
    fill := Dev.emptied_fill hg
    only := Dev.emptied_only hg (((Dev.Only.refl d _).wf (by simp) _ _).w (by simp) _) (by simp) (by simp)
    mem := by rw [Dev.emptied_mem hg, Dev.w_mem, Dev.wf_mem]
    beam := by rw [Dev.emptied_beam hg, Dev.w_beam, Dev.wf_beam] }

theorem Dev.ringEnable_switched (h : d.b (PND_RING_CFG c) PND_RING_CFG_EN = false) :
    d.Switched c true 0 { d.ring c with recs := [], lap := true } ((d.ringEnable c).lineEval c) := by
  simp only [Dev.ringEnable, h, Bool.false_eq_true, if_false, Dev.w_ring, Dev.wf_ring]
  exact d.switched c 1 0 rfl

theorem Dev.ringDisable_switched :
    d.Switched c false (fput PND_RING_PTR_TAIL (d.r (PND_RING_PTR c)) (d.ringHead c)) { d.ring c with recs := [] }
      ((d.ringDisable c).lineEval c) := by
  have hptr : (d.clr (PND_RING_CFG c) PND_RING_CFG_EN).r (PND_RING_PTR c) = d.r (PND_RING_PTR c) :=
    Dev.r_clr_ne _ _ (by have := pendantRegs_rise c; omega)
  rw [Dev.ringDisable, Dev.wf_ring, Dev.clr_ring, Dev.wf, Dev.f, hptr, Dev.clr]
  exact d.switched c 0 _ rfl

end

/-! ### The commands -/

theorem State.Runs.imp {s : State} {i : Instr} {P Q : Dev → Prop} (h : s.Runs i P) (hpq : ∀ d', P d' → Q d') :
    s.Runs i Q := by
  obtain ⟨t, ht, hp, hP⟩ := h
  exact ⟨t, ht, hp, hpq _ hP⟩

section
variable {s : State} (hI : s.Inv)
include hI

/-- A command that is a write access which no block refuses answers 0 beside its effect. -/
theorem write_runs {i : Instr} {q : Req} {a : Nat} {f : Dev → Dev} {P : Dev → Prop}
    (he : exec i s = s.done fun d => d.wr q a f) (ha : s.hw.accessErr q a 4 true = .none)
    (hm : (f s.hw).mem = s.hw.mem) (hb : (f s.hw).beam = s.hw.beam) (hp : P ((f s.hw).resp q 0)) :
    s.Runs i fun d' => d'.Answers q 0 ∧ P d' := by
  have hd := Dev.wr_of_accessible ha f
  refine runs_of_same hI he (by rw [hd]; exact hm) (by rw [hd]; exact hb) ?_
  rw [hd]
  exact ⟨Dev.bus_resp _ _ _ _, hp⟩

/-- A command that is a read access which no block refuses answers its value beside its effect. -/
theorem read_runs {i : Instr} {q : Req} {a : Nat} {f : Dev → Dev × Word} {P : Dev → Prop}
    (he : exec i s = s.done fun d => d.rd q a f) (ha : s.hw.accessErr q a 4 false = .none)
    (hm : (f s.hw).1.mem = s.hw.mem) (hb : (f s.hw).1.beam = s.hw.beam) (hp : P ((f s.hw).1.resp q (f s.hw).2)) :
    s.Runs i fun d' => d'.Answers q (f s.hw).2 ∧ P d' := by
  have hd := Dev.rd_of_accessible ha f
  refine runs_of_same hI he (by rw [hd]; exact hm) (by rw [hd]; exact hb) ?_
  rw [hd]
  exact ⟨Dev.bus_resp _ _ _ _, hp⟩

section
variable {q : Req} {pay src : BitVec 16} (ha : s.hw.accessErr q PND_DOORBELL 4 true = .none)
include ha

omit hI in
theorem exec_pndDoorbell : exec (.pndDoorbell q pay src) s = s.done fun d => d.doorbell q pay.toNat src.toNat := by
  rw [show exec (.pndDoorbell q pay src) s = execPndDoorbell q pay src s from rfl, execPndDoorbell]
  exact done_congr (by simp only [ha])

theorem pndDoorbell_raises (hsrc : 0x8000 ≤ src.toNat) : s.Runs (.pndDoorbell q pay src) fun d' => d'.Answers q 0 ∧
    d'.raised = s.hw.raised ++ [⟨src.toNat, pay.toNat, s.hw.beam, s.hw.routeOf src.toNat⟩] ∧
    { s.hw with raised := d'.raised }.Only [] d' := by
  have hd : s.hw.doorbell q pay.toNat src.toNat = (s.hw.raise src.toNat pay.toNat).resp q 0 := if_neg (by omega)
  refine runs_of_same hI (exec_pndDoorbell ha) (by rw [hd]; rfl) (by rw [hd]; rfl) ?_
  rw [hd]
  refine ⟨Dev.bus_resp _ _ _ _, ?_, ((Dev.Only.refl s.hw []).raise _ _).resp _ _ _⟩
  rw [Dev.resp_raised, Dev.raised_raise, Nat.mod_eq_of_lt pay.isLt]

theorem pndDoorbell_priv (hsrc : src.toNat < 0x8000) :
    s.Runs (.pndDoorbell q pay src) fun d' => d'.Answers q 0 .priv ∧ s.hw.Only [] d' := by
  have hd : s.hw.doorbell q pay.toNat src.toNat = s.hw.resp q 0 .priv := if_pos hsrc
  refine runs_of_same hI (exec_pndDoorbell ha) (by rw [hd]; rfl) (by rw [hd]; rfl) ?_
  rw [hd]
  exact ⟨Dev.bus_resp _ _ _ _, (Dev.Only.refl s.hw []).resp _ _ _⟩

end

section
variable {c : Core} {e : RaiseEv} {rest : List RaiseEv} (hf : firstRaise s.hw.raised = some (e, rest))
include hf

theorem recordAppend_room (hen : e.route / 256 % 2 = 1) (hown : e.route % 16 = c)
    (hon : s.hw.b (PND_RING_CFG c) PND_RING_CFG_EN = true) (hroom : (s.hw.ring c).recs.length < s.hw.ringSize c)
    (hplace : placeOf (s.hw.headAddr c) = .mem) :
    s.Runs .recordAppend fun d' => { s.hw with raised := rest }.RecordAppended c e d' := by
  have hd := (Dev.recordAppend_of_first hf).trans (Dev.raiseArrives_room (d := { s.hw with raised := rest }) hen hown hon hroom)
  have h := Dev.ringAppend_appended (d := { s.hw with raised := rest }) (e := e) hplace
  rw [← hd] at h
  exact runs_of rfl (h.memWf hI.1) (h.beam ▸ hI.2) h

theorem recordAppend_full (hen : e.route / 256 % 2 = 1) (hown : e.route % 16 = c)
    (hno : s.hw.b (PND_RING_CFG c) PND_RING_CFG_EN = false ∨ s.hw.ringSize c ≤ (s.hw.ring c).recs.length) :
    s.Runs .recordAppend fun d' =>
      d'.r (PND_DROPS c) = (if s.hw.r (PND_DROPS c) = 0xFFFFFFFF then 0xFFFFFFFF else s.hw.r (PND_DROPS c) + 1) ∧
      d'.ring c = { s.hw.ring c with before := min ((s.hw.ring c).before + 1) 65535, reported := true } ∧
      d'.raised = (if (s.hw.ring c).reported then rest else rest ++ [⟨0x0030, c, s.hw.beam, s.hw.routeOf 0x0030⟩]) ∧
      { s.hw with rings := d'.rings, raised := d'.raised }.Only [PND_DROPS c] d' := by
  have hd := (Dev.recordAppend_of_first hf).trans (Dev.raiseArrives_full (d := { s.hw with raised := rest }) hen hown hno)
  refine runs_of_same hI rfl (by rw [hd, Dev.ringDrop_mem]) (by rw [hd, Dev.ringDrop_beam]) ?_
  rw [hd]
  exact ⟨Dev.ringDrop_drops, Dev.ringDrop_ring, Dev.ringDrop_raised, Dev.ringDrop_only⟩

theorem recordAppend_unrouted (h : e.route / 256 % 2 = 0 ∨ 9 ≤ e.route % 16) : s.Runs .recordAppend fun d' =>
    d'.r PND_UNROUTED = (if s.hw.r PND_UNROUTED = 0xFFFFFFFF then 0xFFFFFFFF else s.hw.r PND_UNROUTED + 1) ∧
    d'.f PND_BLK_STATUS PND_BLK_STATUS_LAST_UNROUTED = e.src % 65536 ∧ d'.b PND_BLK_STATUS PND_BLK_STATUS_UNROUTED = true ∧
    d'.raised = (if e.src = 0x0031 then rest else rest ++ [⟨0x0031, 0, s.hw.beam, s.hw.routeOf 0x0031⟩]) ∧
    { s.hw with raised := d'.raised }.Only [PND_UNROUTED, PND_BLK_STATUS] d' := by
  have hd := (Dev.recordAppend_of_first hf).trans (Dev.raiseArrives_unrouted (d := { s.hw with raised := rest }) h)
  refine runs_of_same hI rfl (by rw [hd, Dev.unrouted_mem]) (by rw [hd, Dev.unrouted_beam]) ?_
  rw [hd]
  exact ⟨Dev.unrouted_count _, Dev.unrouted_last _, Dev.unrouted_flag _, Dev.unrouted_raised _, Dev.unrouted_only _⟩

end

section
variable {c : Core}

theorem coalesceTimeExpiry_asserts (hw : s.hw.lineWanted c = true) : s.Runs (.coalesceTimeExpiry c) fun d' =>
    d'.b (PND_CPU_STATUS c) PND_CPU_STATUS_LINE = true ∧
    d'.f (PND_CPU_STATUS c) PND_CPU_STATUS_CLAIMABLE = (s.hw.claimable c).length % 2 ^ 17 ∧
    s.hw.Only [PND_CPU_STATUS c] d' := by
  have hd := Dev.lineEval_of_wanted hw
  have hj := s.hw.lineEval_judged c
  have hmem : PND_CPU_STATUS c ∈ [PND_CPU_STATUS c] := List.mem_singleton_self _
  refine runs_of_same hI rfl hj.mem hj.beam ⟨?_, hj.count, ?_⟩
  · rw [hd, Dev.b, Dev.f_wf_same _ _ _ _ (by decide)]; decide
  · rw [hd]; exact ((Dev.Only.refl _ _).wf hmem _ _).wf hmem _ _

theorem pndClaim_none (ha : s.hw.accessErr c 0xE0000000 4 false = .none) (h : s.hw.claimable c = []) (bad : Bool) :
    s.Runs (.pndClaim c bad) fun d' => d'.Answers (c.castLE (by decide)) 0x80000000 ∧ s.hw.Only [] d' := by
  have hc := s.hw.claim_of_none c h bad
  have hr := read_runs hI (i := .pndClaim c bad) (q := c.castLE (by decide)) (P := fun d' => s.hw.Only [] d') rfl ha
    (by rw [hc]) (by rw [hc]) (by rw [hc]; exact (Dev.Only.refl _ _).resp _ _ _)
  rw [hc] at hr
  exact hr

theorem pndClaim_runs (ha : s.hw.accessErr c 0xE0000000 4 false = .none) {r : RecH}
    (h : bestRec (s.hw.claimable c) = some r) (bad : Bool) : s.Runs (.pndClaim c bad) fun d' =>
      d'.Answers (c.castLE (by decide)) (BitVec.ofNat 32 ((if bad then 0x40000000 else 0) +
        (if s.hw.recLap c r.idx then 0x100000 else 0) + r.prio * 0x10000 + r.src)) ∧ s.hw.Claimed c r bad d' := by
  have hc := s.hw.claim_claimed c h bad
  have hr := read_runs hI (i := .pndClaim c bad) (q := c.castLE (by decide)) (P := fun d' => s.hw.Claimed c r bad d') rfl ha
    hc.mem hc.beam
    ⟨hc.word1, hc.word2, hc.word3, hc.stack, hc.rprio, hc.recs, hc.fill, hc.tail, hc.regs, hc.mem, hc.beam⟩
  rw [s.hw.claim_eq c h] at hr
  exact hr

variable (ha : s.hw.accessErr c 0xE0000010 4 true = .none)
include ha

theorem pndEoi_pops {p : Nat} {st : List Nat} (h : (s.hw.ring c).stack = p :: st) :
    s.Runs (.pndEoi c) fun d' => d'.Answers (c.castLE (by decide)) 0 ∧ s.hw.StackSet c st d' := by
  have hs := s.hw.setStack_stackSet c st
  rw [← Dev.eoi_of_stack _ _ h] at hs
  exact write_runs hI rfl ha hs.mem hs.beam ⟨hs.stack, hs.rprio, hs.recs, hs.regs, hs.mem, hs.beam⟩

theorem pndEoi_empty (h : (s.hw.ring c).stack = []) :
    s.Runs (.pndEoi c) fun d' => d'.Answers (c.castLE (by decide)) 0 ∧
      d'.r (PND_CPU_STATUS c) = fput PND_CPU_STATUS_EOI_EMPTY (s.hw.r (PND_CPU_STATUS c)) 1 ∧
      s.hw.Only [PND_CPU_STATUS c] d' := by
  have hd := s.hw.eoi_of_empty c h
  refine write_runs hI rfl ha (by rw [hd, Dev.set1_mem]) (by rw [hd, Dev.set1_beam]) ?_
  rw [hd]
  exact ⟨by rw [Dev.resp_r, Dev.r_set1_same], ((Dev.Only.refl _ _).set1 (List.mem_singleton_self _) _).resp _ _ _⟩

end

section
variable {q : Req} {c : Core} (ha : s.hw.accessErr q (PND_RING_CFG c) 4 true = .none)
include ha

/-- A command that switches ring `c`. -/
theorem switch_runs {i : Instr} {f : Dev → Dev} {en : Bool} {ptr : Word} {g : RingH}
    (he : exec i s = s.done fun d => d.wr q (PND_RING_CFG c) f) (h : s.hw.Switched c en ptr g (f s.hw)) :
    s.Runs i fun d' => d'.Answers q 0 ∧ s.hw.Switched c en ptr g d' :=
  write_runs hI he ha h.mem h.beam ⟨h.en, h.ptr, h.ring, h.fill, h.only.resp _ _ _, h.mem, h.beam⟩

end

end

/-- The conditions of R482, the oldest claimable record's time written out. -/
theorem Dev.lineWanted_eq (d : Dev) (c : Nat) : d.lineWanted c = (decide (d.claimable c ≠ []) &&
    (decide (max 1 (d.f (PND_COAL c) PND_COAL_COUNT) ≤ (d.claimable c).length) ||
      decide (d.f (PND_COAL c) PND_COAL_TIME = 0) ||
      (d.claimable c).head?.any (fun r => decide (r.ts + 500 * min (d.f (PND_COAL c) PND_COAL_TIME) 1000 ≤ d.beam)) ||
      (d.b (PND_COAL c) PND_COAL_URG_EN &&
        (d.claimable c).any fun r => decide (d.f (PND_COAL c) PND_COAL_URGENT ≤ r.prio)))) := by
  rw [Dev.lineWanted, Dev.coalDue]
  cases d.claimable c with
  | nil => rfl
  | cons r rs => rfl

/-- Settles O41: each command is its operation on ring, stack, registers and line, answered where it is an access. -/
theorem pendantRecords : Obligations.PendantRecords := by
  intro s c q hI
  refine ⟨fun pay src ha => ⟨fun h => pndDoorbell_raises hI ha h, fun h => pndDoorbell_priv hI ha h⟩,
    fun e rest hf => ⟨fun hen hown hon hroom hplace => ?_, fun hen hown hno => recordAppend_full hI hf hen hown hno,
      fun h => recordAppend_unrouted hI hf h⟩,
    fun hw => coalesceTimeExpiry_asserts hI ((s.hw.lineWanted_eq c).trans hw),
    fun ha => ⟨fun h bad => pndClaim_none hI ha h bad, fun r bad h => ?_⟩,
    fun ha => ⟨fun p st h => ?_, fun h => pndEoi_empty hI ha h⟩,
    fun ha => ⟨fun hoff => ?_, ?_⟩⟩
  · refine (recordAppend_room hI hf hen hown hon hroom hplace).imp fun d' h => ?_
    exact ⟨h.word0, h.word1, h.word2, h.word3, h.bytes, h.ring, h.head, h.fill, h.count, h.raised, h.regs⟩
  · refine (pndClaim_runs hI ha h bad).imp fun d' ⟨hans, h⟩ => ?_
    refine ⟨hans, h.word1, h.word2, h.word3, ⟨h.stack, h.rprio⟩, h.recs, h.recs ▸ h.fill, ?_, h.regs⟩
    rw [h.recs, h.tail, tailIdx]
    cases s.hw.recsClaimed c r.idx <;> rfl
  · refine (pndEoi_pops hI ha h).imp fun d' ⟨hans, h⟩ => ?_
    exact ⟨hans, ⟨h.stack, h.rprio⟩, h.recs, h.regs⟩
  · refine (switch_runs hI ha rfl (s.hw.ringEnable_switched c hoff)).imp fun d' ⟨hans, h⟩ => ?_
    exact ⟨hans, h.en, h.ring, h.ptr, h.fill, h.only⟩
  · refine (switch_runs hI ha rfl (s.hw.ringDisable_switched c)).imp fun d' ⟨hans, h⟩ => ?_
    have htail : d'.f (PND_RING_PTR c) PND_RING_PTR_TAIL = s.hw.ringHead c := by
      rw [Dev.f, h.ptr, fget_fput_same _ _ _ (by decide)]
      exact Nat.mod_eq_of_lt (fget_lt PND_RING_PTR_HEAD _)
    exact ⟨hans, h.en, h.ring, htail, h.fill, h.only⟩

end Sys2Proof.Machine
end

section
/-! SUPPORT. Reads of arrays, slots of the arbiter and the scrubber (spec/15_memory_ecc_arbitration.md R486-R507). -/

namespace Sys2Proof.Machine
open Sys2Proof

/-! ### What a frame says of raising -/

section
variable {d d' : Dev} {l : List Nat} (h : d.Only l d')
include h

theorem Dev.Only.raised_eq : d'.raised = d.raised := (congrArg Dev.raised h.2 :)
theorem Dev.Only.mem_eq : d'.mem = d.mem := (congrArg Dev.mem h.2 :)
theorem Dev.Only.beam_eq : d'.beam = d.beam := (congrArg Dev.beam h.2 :)
theorem Dev.Only.credits_eq : d'.credits = d.credits := (congrArg Dev.credits h.2 :)
theorem Dev.Only.backoff_eq : d'.backoff = d.backoff := (congrArg Dev.backoff h.2 :)
theorem Dev.Only.routeWas_eq : d'.routeWas = d.routeWas := (congrArg Dev.routeWas h.2 :)

theorem Dev.Only.mono {l' : List Nat} (hl : l ⊆ l') : d.Only l' d' := ⟨h.1.mono hl, h.2⟩

theorem Dev.Only.diagT (c i n : Nat) : { d with diag := (d'.diagT c i n).diag }.Only l (d'.diagT c i n) :=
  ⟨h.1, congrArg (fun e => { e with diag := (d'.diagT c i n).diag }) h.2⟩

theorem Dev.Only.diagL (c i : Nat) : { d with diag := (d'.diagL c i).diag }.Only l (d'.diagL c i) :=
  ⟨h.1, congrArg (fun e => { e with diag := (d'.diagL c i).diag }) h.2⟩

end

theorem Dev.Only.trans {d d1 d2 : Dev} {l : List Nat} (h1 : d.Only l d1) (h2 : d1.Only l d2) : d.Only l d2 :=
  ⟨h1.1.trans h2.1, (congrArg (fun e => { e with regs := d.regs, fresh := d.fresh, bus := d.bus }) h2.2).trans h1.2⟩

/-- Two states that agree on a source's routing, on the tick and on what is raised raise it alike. -/
theorem raised_raise_congr {d d' : Dev} {k : Nat} (hroute : d'.r (PND_ROUTE k) = d.r (PND_ROUTE k))
    (hwas : d'.routeWas = d.routeWas) (hbeam : d'.beam = d.beam) (hraised : d'.raised = d.raised) (p : Nat) :
    (d'.raise k p).raised = (d.raise k p).raised := by
  simp only [Dev.raised_raise, Dev.routeOf, hroute, hwas, hbeam, hraised]

theorem raised_raise_diagL (d : Dev) (c i k p : Nat) : ((d.diagL c i).raise k p).raised = (d.raise k p).raised := rfl

theorem Dev.Only.raise_raised {d d' : Dev} {l : List Nat} (h : d.Only l d') {k : Nat} (hk : PND_ROUTE k ∉ l) (p : Nat) :
    (d'.raise k p).raised = (d.raise k p).raised :=
  raised_raise_congr (h.1 _ hk) h.routeWas_eq h.beam_eq h.raised_eq p

/-! ### Registers of the arrays -/

/-- The registers in which array `a` logs errors: ECC_STATUS and the two words of each entry. -/
def logRegs (a : Nat) : List Nat :=
  ECC_STATUS :: ((List.range 16).map (ECC_LOG_ADDR a) ++ (List.range 16).map (ECC_LOG_INFO a))

/-- The registers that a read of array `a` may write. -/
def arrayRegs (a : Nat) : List Nat := ECC_CE_CNT a :: ECC_UE_CNT a :: ECC_UE_ADDR a :: logRegs a

theorem status_mem_logRegs (a : Nat) : ECC_STATUS ∈ logRegs a := List.mem_cons_self

theorem logAddr_mem_logRegs (a : Nat) {e : Nat} (he : e < 16) : ECC_LOG_ADDR a e ∈ logRegs a := by
  simp only [logRegs, List.mem_cons, List.mem_append, List.mem_map, List.mem_range]
  exact .inr (.inl ⟨e, he, rfl⟩)

theorem logInfo_mem_logRegs (a : Nat) {e : Nat} (he : e < 16) : ECC_LOG_INFO a e ∈ logRegs a := by
  simp only [logRegs, List.mem_cons, List.mem_append, List.mem_map, List.mem_range]
  exact .inr (.inr ⟨e, he, rfl⟩)

theorem logRegs_subset_arrayRegs (a : Nat) : logRegs a ⊆ arrayRegs a :=
  fun _ h => .tail _ (.tail _ (.tail _ h))

/-- The log lies from ECC_STATUS on. -/
theorem le_of_mem_logRegs {a y : Nat} (h : y ∈ logRegs a) : ECC_STATUS ≤ y := by
  simp only [logRegs, List.mem_cons, List.mem_append, List.mem_map] at h
  unfold ECC_STATUS ECC_LOG_ADDR ECC_LOG_INFO at *
  rcases h with rfl | ⟨_, _, rfl⟩ | ⟨_, _, rfl⟩ <;> omega

theorem notMem_logRegs {a y : Nat} (h : y < ECC_STATUS) : y ∉ logRegs a := fun hm => by
  have := le_of_mem_logRegs hm; omega

/-- An array's counters lie below the log, in the order CE_CNT, CE_THR, UE_CNT, UE_ADDR, and above the routing table's
first entries. -/
theorem arrayCounters_rise {a : Nat} (ha : a < 15) : PND_ROUTE 15 < ECC_CE_CNT a ∧ ECC_CE_CNT a < ECC_CE_THR a ∧
    ECC_CE_THR a < ECC_UE_CNT a ∧ ECC_UE_CNT a < ECC_UE_ADDR a ∧ ECC_UE_ADDR a < ECC_STATUS := by
  unfold PND_ROUTE ECC_CE_CNT ECC_CE_THR ECC_UE_CNT ECC_UE_ADDR ECC_STATUS
  omega

/-! ### The log (R493) -/

/-- Entry `e` of array `a`'s log holds one error of `bits` bits at the word `x`, found by requester `req`. -/
def Dev.LogEntry (d : Dev) (a e x req bits : Nat) : Prop :=
  d.b (ECC_LOG_ADDR a e) ECC_LOG_ADDR_VALID = true ∧ d.f (ECC_LOG_ADDR a e) ECC_LOG_ADDR_ADDR = x / 8 ∧
  d.f (ECC_LOG_INFO a e) ECC_LOG_INFO_HITS = 1 ∧ d.f (ECC_LOG_INFO a e) ECC_LOG_INFO_REQ = req ∧
  d.f (ECC_LOG_INFO a e) ECC_LOG_INFO_BITS = bits

theorem logEntry_congr {d d' : Dev} {a e : Nat} (haddr : d'.r (ECC_LOG_ADDR a e) = d.r (ECC_LOG_ADDR a e))
    (hinfo : d'.r (ECC_LOG_INFO a e) = d.r (ECC_LOG_INFO a e)) (x req bits : Nat) :
    d'.LogEntry a e x req bits = d.LogEntry a e x req bits := by
  simp only [Dev.LogEntry, Dev.b, Dev.f, haddr, hinfo]

/-- A search depends on what holds of the list's members. -/
theorem find?_congr_of_mem {p q : Nat → Bool} {l : List Nat} (h : ∀ x, x ∈ l → p x = q x) : l.find? p = l.find? q := by
  induction l with
  | nil => rfl
  | cons x l ih =>
    have hx := h x List.mem_cons_self
    have hl := ih fun y hy => h y (List.mem_cons_of_mem x hy)
    cases hq : q x with
    | true => rw [List.find?_cons_of_pos (hx.trans hq), List.find?_cons_of_pos hq]
    | false =>
      rw [List.find?_cons_of_neg (Bool.eq_false_iff.mp (hx.trans hq)), List.find?_cons_of_neg (Bool.eq_false_iff.mp hq), hl]

section
variable {d d' : Dev} {a : Nat} (h : ∀ e, e < 16 → d'.r (ECC_LOG_ADDR a e) = d.r (ECC_LOG_ADDR a e))
include h

/-- Which entry logs a word depends on the ADDR words alone. -/
theorem eccEntry_congr (x : Nat) : d'.eccEntry a x = d.eccEntry a x :=
  find?_congr_of_mem fun e he => by simp only [Dev.b, Dev.f, h e (List.mem_range.mp he)]

theorem eccFree_congr : d'.eccFree a = d.eccFree a :=
  find?_congr_of_mem fun e he => by simp only [Dev.b, Dev.f, h e (List.mem_range.mp he)]

end

theorem eccEntry_lt {d : Dev} {a x e : Nat} (h : d.eccEntry a x = some e) : e < 16 :=
  List.mem_range.mp (List.mem_of_find?_eq_some h)

theorem eccFree_lt {d : Dev} {a e : Nat} (h : d.eccFree a = some e) : e < 16 :=
  List.mem_range.mp (List.mem_of_find?_eq_some h)

/-- Logging writes the log's registers and nothing else. -/
theorem Dev.eccLog_only (d : Dev) (a x req bits : Nat) : d.Only (logRegs a) (d.eccLog a x req bits) := by
  have hd := Dev.Only.refl d (logRegs a)
  unfold Dev.eccLog
  split
  next e he =>
    have hinfo := logInfo_mem_logRegs a (eccEntry_lt he)
    exact ((hd.incSat hinfo _ _).wf hinfo _ _).wf hinfo _ _
  next =>
    split
    next e he =>
      have haddr := logAddr_mem_logRegs a (eccFree_lt he)
      have hinfo := logInfo_mem_logRegs a (eccFree_lt he)
      exact ((((hd.wf haddr _ _).set1 haddr _).wf hinfo _ _).wf hinfo _ _).wf hinfo _ _
    next => exact hd.set1 (status_mem_logRegs a) _

section
variable {d : Dev} {a x req bits : Nat} (hn : d.eccEntry a x = none)
include hn

/-- A word that no entry logs takes the lowest free entry. -/
theorem Dev.eccLog_logEntry {e : Nat} (hf : d.eccFree a = some e) (hx : x < 2 ^ 32) (hreq : req < 16) (hbits : bits < 4) :
    (d.eccLog a x req bits).LogEntry a e x req bits := by
  have hne : ECC_LOG_ADDR a e ≠ ECC_LOG_INFO a e := by unfold ECC_LOG_ADDR ECC_LOG_INFO; omega
  simp only [Dev.eccLog, hn, hf]
  refine ⟨?_, ?_, ?_, ?_, ?_⟩
  · rw [Dev.b_wf_ne _ _ _ _ hne, Dev.b_wf_ne _ _ _ _ hne, Dev.b_wf_ne _ _ _ _ hne,
      Dev.b_set1_same _ _ _ (by decide) (by decide)]
  · rw [Dev.f_wf_ne _ _ _ _ hne, Dev.f_wf_ne _ _ _ _ hne, Dev.f_wf_ne _ _ _ _ hne,
      Dev.f_set1_other _ _ _ _ (by decide) (by decide), Dev.f_wf_same _ _ _ _ (by decide)]
    exact Nat.mod_eq_of_lt (show x / 8 < 2 ^ 29 by omega)
  · rw [Dev.f_wf_other _ _ _ _ _ (by decide) (by decide), Dev.f_wf_other _ _ _ _ _ (by decide) (by decide),
      Dev.f_wf_same _ _ _ _ (by decide)]
    rfl
  · rw [Dev.f_wf_other _ _ _ _ _ (by decide) (by decide), Dev.f_wf_same _ _ _ _ (by decide)]
    exact Nat.mod_eq_of_lt hreq
  · rw [Dev.f_wf_same _ _ _ _ (by decide)]
    exact Nat.mod_eq_of_lt hbits

/-- With every entry taken the overflow is noted in ECC_STATUS. -/
theorem Dev.eccLog_overflow (hf : d.eccFree a = none) (ha : a < 15) : (d.eccLog a x req bits).bit ECC_STATUS a = true := by
  simp only [Dev.eccLog, hn, hf]
  exact Dev.b_set1_same _ _ _ (show a + 1 ≤ 32 by omega) Nat.one_pos

end

/-! ### Counting errors (R492, R494, R496) -/

/-- A saturating count goes up by one, at most to its field's greatest value. -/
theorem Dev.f_incSat_same (d : Dev) (a : Nat) (f : Fld) (hf : f.lo + f.w ≤ 32) :
    (d.incSat a f).f a f = min (d.f a f + 1) (2 ^ f.w - 1) := by
  rw [Dev.incSat, Dev.f_wf_same _ _ _ _ hf, Nat.mod_eq_of_lt]
  have := Nat.two_pow_pos f.w
  omega

section
variable (d : Dev) (a : Nat)

theorem Dev.eccCount_only : { d with raised := (d.eccCount a).raised }.Only [ECC_CE_CNT a] (d.eccCount a) :=
  ((Dev.Only.refl d _).incSat (List.mem_singleton_self _) _ _).raiseIf _ _ _

theorem Dev.eccCount_ce :
    (d.eccCount a).f (ECC_CE_CNT a) ECC_CE_CNT_CE = min (d.f (ECC_CE_CNT a) ECC_CE_CNT_CE + 1) 4294967295 := by
  rw [Dev.eccCount, Dev.raiseIf_f]
  exact d.f_incSat_same _ _ (by decide)

variable {a} (ha : a < 15)
include ha

/-- Counting raises source 0x0008 when the count has changed to a multiple of the threshold (R494). -/
theorem Dev.eccCount_eq : d.eccCount a = (d.incSat (ECC_CE_CNT a) ECC_CE_CNT_CE).raiseIf
    (d.f (ECC_CE_CNT a) ECC_CE_CNT_CE != min (d.f (ECC_CE_CNT a) ECC_CE_CNT_CE + 1) 4294967295 &&
      d.f (ECC_CE_THR a) ECC_CE_THR_THR != 0 &&
      min (d.f (ECC_CE_CNT a) ECC_CE_CNT_CE + 1) 4294967295 % d.f (ECC_CE_THR a) ECC_CE_THR_THR == 0) 0x0008 a := by
  have hthr : (d.incSat (ECC_CE_CNT a) ECC_CE_CNT_CE).f (ECC_CE_THR a) ECC_CE_THR_THR =
      d.f (ECC_CE_THR a) ECC_CE_THR_THR :=
    Dev.f_wf_ne _ _ _ _ (by have := arrayCounters_rise ha; omega)
  rw [Dev.eccCount, hthr, d.f_incSat_same _ _ (by decide)]
  rfl

theorem Dev.eccCount_quiet (hthr : d.f (ECC_CE_THR a) ECC_CE_THR_THR = 0) : (d.eccCount a).raised = d.raised := by
  rw [d.eccCount_eq ha, Dev.raised_raiseIf, hthr]
  simp

theorem Dev.eccCount_threshold (hce : d.f (ECC_CE_CNT a) ECC_CE_CNT_CE < 4294967295)
    (hthr : d.f (ECC_CE_THR a) ECC_CE_THR_THR ≠ 0)
    (hmul : (d.f (ECC_CE_CNT a) ECC_CE_CNT_CE + 1) % d.f (ECC_CE_THR a) ECC_CE_THR_THR = 0) :
    (d.eccCount a).raised = (d.raise 0x0008 a).raised := by
  have hroute : PND_ROUTE 0x0008 ∉ [ECC_CE_CNT a] := by
    have := arrayCounters_rise ha
    unfold PND_ROUTE at *
    simp only [List.mem_singleton]; omega
  have hcount : (d.f (ECC_CE_CNT a) ECC_CE_CNT_CE != d.f (ECC_CE_CNT a) ECC_CE_CNT_CE + 1) = true := by simp
  rw [d.eccCount_eq ha, Nat.min_eq_left (by omega), hmul, hcount, bne_iff_ne.mpr hthr]
  exact ((Dev.Only.refl d _).incSat (List.mem_singleton_self _) _ _).raise_raised hroute a

end

/-! ### What a read finds (R492-R497) -/

/-- The code of BITS for an error in the log. -/
def eccBits (e1 : Ecc) : Nat := if e1 = .bits1 then 1 else if e1 = .bits2 then 2 else 3

/-- What a read of the word `x` of array `a` by requester `req` leaves in counters, log and raised sources, where the read
finds `e1` and, on an uncorrectable error, the second read `e2`. -/
def Dev.ReadFinds (d : Dev) (a x req : Nat) (e1 e2 : Ecc) (d' : Dev) : Prop :=
  let ce := d.f (ECC_CE_CNT a) ECC_CE_CNT_CE
  (e1 = .clean → d'.r (ECC_CE_CNT a) = d.r (ECC_CE_CNT a) ∧ d'.r (ECC_UE_CNT a) = d.r (ECC_UE_CNT a) ∧
    d'.raised = d.raised) ∧
  (e1 = .bits1 ∨ e1 = .bits2 → d'.f (ECC_CE_CNT a) ECC_CE_CNT_CE = min (ce + 1) 4294967295 ∧
    (d.f (ECC_CE_THR a) ECC_CE_THR_THR = 0 → d'.raised = d.raised) ∧
    (ce < 4294967295 → d.f (ECC_CE_THR a) ECC_CE_THR_THR ≠ 0 → (ce + 1) % d.f (ECC_CE_THR a) ECC_CE_THR_THR = 0 →
      d'.raised = (d.raise 0x0008 a).raised)) ∧
  (e1 = .uncorrectable → e2 = .uncorrectable →
    d'.f (ECC_UE_CNT a) ECC_UE_CNT_LASTING = min (d.f (ECC_UE_CNT a) ECC_UE_CNT_LASTING + 1) 65535 ∧
    d'.f (ECC_UE_ADDR a) ECC_UE_ADDR_ADDR = x / 8 ∧ d'.bit ECC_STATUS (16 + a) = true ∧
    d'.raised = (d.raise 0x000A (req * 256 + a)).raised) ∧
  (e1 = .uncorrectable → e2 ≠ .uncorrectable →
    d'.f (ECC_UE_CNT a) ECC_UE_CNT_TRANSIENT = min (d.f (ECC_UE_CNT a) ECC_UE_CNT_TRANSIENT + 1) 65535 ∧
    d'.raised = (d.raise 0x0009 (req * 256 + a)).raised) ∧
  (∀ e, (e1 = .bits1 ∨ e1 = .bits2 ∨ e1 = .uncorrectable ∧ e2 ≠ .uncorrectable) → d.eccEntry a x = none →
    d.eccFree a = some e → d'.LogEntry a e x req (eccBits e1)) ∧
  ((e1 = .bits1 ∨ e1 = .bits2) → d.eccEntry a x = none → d.eccFree a = none → d'.bit ECC_STATUS a = true)

/-- `d'` has the arrays' registers and the routing table of `d`, its tick and what it raised; the scrubber's place may differ. -/
structure Dev.ArraysAlike (d d' : Dev) : Prop where
  regs : ∀ y, y < ARB_CREDIT 0 → y ≠ ECC_SCRUB_STATUS → y ≠ ECC_SCRUB_POS → d'.r y = d.r y
  raised : d'.raised = d.raised
  beam : d'.beam = d.beam
  routeWas : d'.routeWas = d.routeWas

theorem Dev.ArraysAlike.refl (d : Dev) : d.ArraysAlike d := ⟨fun _ _ _ _ => rfl, rfl, rfl, rfl⟩

section
variable {d d' : Dev} (h : d.ArraysAlike d')
include h

theorem Dev.ArraysAlike.raise_raised {k : Nat} (hk : k < 16) (p : Nat) : (d'.raise k p).raised = (d.raise k p).raised := by
  refine raised_raise_congr (h.regs _ ?_ ?_ ?_) h.routeWas h.beam h.raised p <;>
    · unfold PND_ROUTE; simp only [ARB_CREDIT, ECC_SCRUB_STATUS, ECC_SCRUB_POS]; omega

theorem Dev.ArraysAlike.status : d'.r ECC_STATUS = d.r ECC_STATUS := h.regs _ (by decide) (by decide) (by decide)

variable {a : Nat} (ha : a < 15)
include ha

/-- The array's counters read alike. -/
theorem Dev.ArraysAlike.counter {y : Nat} (hy : y ≤ ECC_UE_ADDR a) : d'.r y = d.r y := by
  have := arrayCounters_rise ha
  refine h.regs y ?_ ?_ ?_ <;>
    · simp only [ECC_STATUS, ARB_CREDIT, ECC_SCRUB_STATUS, ECC_SCRUB_POS] at *; omega

variable {e : Nat} (he : e < 16)
include he

theorem Dev.ArraysAlike.logAddr : d'.r (ECC_LOG_ADDR a e) = d.r (ECC_LOG_ADDR a e) := by
  refine h.regs _ ?_ ?_ ?_ <;> · simp only [ECC_LOG_ADDR, ARB_CREDIT, ECC_SCRUB_STATUS, ECC_SCRUB_POS]; omega

theorem Dev.ArraysAlike.logInfo : d'.r (ECC_LOG_INFO a e) = d.r (ECC_LOG_INFO a e) := by
  refine h.regs _ ?_ ?_ ?_ <;> · simp only [ECC_LOG_INFO, ARB_CREDIT, ECC_SCRUB_STATUS, ECC_SCRUB_POS]; omega

end

/-- What a read finds says nothing but of the arrays' registers, before and after. -/
theorem Dev.ReadFinds.congr {d d' d1 d1' : Dev} {a x req : Nat} {e1 e2 : Ecc} (h : d1.ReadFinds a x req e1 e2 d1')
    (hl : d.ArraysAlike d1) (hr : d1'.ArraysAlike d') (ha : a < 15) : d.ReadFinds a x req e1 e2 d' := by
  have hrise := arrayCounters_rise ha
  have hce := hl.counter ha (y := ECC_CE_CNT a) (by omega)
  have hthr := hl.counter ha (y := ECC_CE_THR a) (by omega)
  have hue := hl.counter ha (y := ECC_UE_CNT a) (by omega)
  have hce' := hr.counter ha (y := ECC_CE_CNT a) (by omega)
  have hue' := hr.counter ha (y := ECC_UE_CNT a) (by omega)
  have hadr' := hr.counter ha (y := ECC_UE_ADDR a) (by omega)
  obtain ⟨hclean, hcorr, hlast, htrans, hlog, hovf⟩ := h
  simp only [Dev.bit, Dev.f, hce, hthr, hue, hl.raised, hl.raise_raised (show 8 < 16 by decide),
    hl.raise_raised (show 9 < 16 by decide), hl.raise_raised (show 10 < 16 by decide),
    eccEntry_congr fun e he => hl.logAddr ha he, eccFree_congr fun e he => hl.logAddr ha he] at hclean hcorr hlast htrans hlog hovf
  simp only [Dev.ReadFinds, Dev.bit, Dev.f, hce', hue', hadr', hr.raised, hr.status]
  refine ⟨hclean, hcorr, hlast, htrans, fun e he hn hf => ?_, hovf⟩
  have hlt := eccFree_lt hf
  rw [logEntry_congr (hr.logAddr ha hlt) (hr.logInfo ha hlt)]
  exact hlog e he hn hf

section
variable (d : Dev) {a : Nat} (x req : Nat) (ha : a < 15)

/-- Beside the array's registers, raised sources and diagnostic counts nothing differs between `d` and `d'`. -/
def Dev.OnlyArray (d : Dev) (a : Nat) (d' : Dev) : Prop := ∃ rs ds, { d with raised := rs, diag := ds }.Only (arrayRegs a) d'

theorem Dev.eccCorrect_only (bits : Nat) : d.OnlyArray a (d.eccCorrect a x req bits) := by
  have hlog := (d.eccCount a).eccLog_only a x req bits
  have hcount := (d.eccCount_only a).mono (l' := arrayRegs a) (by simp [arrayRegs])
  exact ⟨_, d.diag, hcount.trans (hlog.mono (logRegs_subset_arrayRegs a))⟩

theorem Dev.eccTransient_only : d.OnlyArray a (d.eccTransient a x req) := by
  have hcount := (Dev.Only.refl d (arrayRegs a)).incSat (a := ECC_UE_CNT a) (by simp [arrayRegs]) ECC_UE_CNT_TRANSIENT 1
  have hlog := (d.incSat (ECC_UE_CNT a) ECC_UE_CNT_TRANSIENT).eccLog_only a x req 3
  exact ⟨_, _, ((hcount.trans (hlog.mono (logRegs_subset_arrayRegs a))).diagT 1 a 1).raise 0x0009 (req * 256 + a)⟩

theorem Dev.eccLasting_only : d.OnlyArray a (d.eccLasting a x req) := by
  have hcount := (Dev.Only.refl d (arrayRegs a)).incSat (a := ECC_UE_CNT a) (by simp [arrayRegs]) ECC_UE_CNT_LASTING 1
  have haddr := hcount.wf (a := ECC_UE_ADDR a) (by simp [arrayRegs]) ECC_UE_ADDR_ADDR (x / 8)
  have hstatus := haddr.set1 (logRegs_subset_arrayRegs a (status_mem_logRegs a)) ⟨16 + a, 1⟩
  exact ⟨_, _, (hstatus.diagL 1 a).raise 0x000A (req * 256 + a)⟩

theorem Dev.eccRead_only (e1 e2 : Ecc) : d.OnlyArray a (d.eccRead a x req e1 e2) := by
  cases e1 with
  | clean => exact ⟨d.raised, d.diag, Dev.Only.refl d _⟩
  | bits1 => exact d.eccCorrect_only x req 1
  | bits2 => exact d.eccCorrect_only x req 2
  | uncorrectable =>
    rw [Dev.eccRead]
    split
    · exact d.eccLasting_only x req
    · exact d.eccTransient_only x req

variable {x req}
include ha

/-- A correctable error of the BITS code `bits`: counted, then logged. -/
theorem Dev.eccCorrect_finds (hx : x < 2 ^ 32) (hreq : req < 16) {e1 : Ecc} (e2 : Ecc) (he : e1 = .bits1 ∨ e1 = .bits2) :
    d.ReadFinds a x req e1 e2 (d.eccCorrect a x req (eccBits e1)) := by
  have hrise := arrayCounters_rise ha
  have hcount := d.eccCount_only a
  have hlog := (d.eccCount a).eccLog_only a x req (eccBits e1)
  have hraised : (d.eccCorrect a x req (eccBits e1)).raised = (d.eccCount a).raised := hlog.raised_eq
  have haddr : ∀ e, e < 16 → (d.eccCount a).r (ECC_LOG_ADDR a e) = d.r (ECC_LOG_ADDR a e) := fun e h =>
    hcount.1 _ fun hm => by
      have := le_of_mem_logRegs (logAddr_mem_logRegs a h)
      have := List.mem_singleton.mp hm
      omega
  refine ⟨?_, fun _ => ⟨?_, fun hthr => ?_, fun hce hthr hmul => ?_⟩, ?_, ?_, fun e _ hn hf => ?_, fun _ hn hf => ?_⟩
  · rintro rfl; simp at he
  · rw [Dev.f, show (d.eccCorrect a x req (eccBits e1)).r (ECC_CE_CNT a) = (d.eccCount a).r (ECC_CE_CNT a) from
      hlog.1 _ (notMem_logRegs (by omega))]
    exact d.eccCount_ce a
  · rw [hraised, d.eccCount_quiet ha hthr]
  · rw [hraised, d.eccCount_threshold ha hce hthr hmul]
  · rintro rfl; simp at he
  · rintro rfl; simp at he
  · refine Dev.eccLog_logEntry ?_ ?_ hx hreq ?_
    · rw [eccEntry_congr haddr, hn]
    · rw [eccFree_congr haddr, hf]
    · rcases he with rfl | rfl <;> decide
  · refine Dev.eccLog_overflow ?_ ?_ ha
    · rw [eccEntry_congr haddr, hn]
    · rw [eccFree_congr haddr, hf]

/-- An error that the second read does not find: counted as transient, logged and raised. -/
theorem Dev.eccTransient_finds (hx : x < 2 ^ 32) (hreq : req < 16) {e2 : Ecc} (h2 : e2 ≠ .uncorrectable) :
    d.ReadFinds a x req .uncorrectable e2 (d.eccTransient a x req) := by
  have hrise := arrayCounters_rise ha
  have hcount : d.Only [ECC_UE_CNT a] (d.incSat (ECC_UE_CNT a) ECC_UE_CNT_TRANSIENT) :=
    (Dev.Only.refl d _).incSat (List.mem_singleton_self _) _ _
  have hlog := (d.incSat (ECC_UE_CNT a) ECC_UE_CNT_TRANSIENT).eccLog_only a x req 3
  have haddr : ∀ e, e < 16 →
      (d.incSat (ECC_UE_CNT a) ECC_UE_CNT_TRANSIENT).r (ECC_LOG_ADDR a e) = d.r (ECC_LOG_ADDR a e) := fun e h =>
    hcount.1 _ fun hm => by
      have := le_of_mem_logRegs (logAddr_mem_logRegs a h)
      have := List.mem_singleton.mp hm
      omega
  have hroute : PND_ROUTE 9 < ECC_CE_CNT a := by unfold PND_ROUTE at *; omega
  refine ⟨nofun, by simp, fun _ he => absurd he h2, fun _ _ => ⟨?_, ?_⟩, fun e _ hn hf => ?_, by simp⟩
  · rw [Dev.eccTransient, Dev.raise_f, Dev.diagT_f, Dev.f, hlog.1 _ (notMem_logRegs (by omega))]
    exact d.f_incSat_same _ _ (by decide)
  · refine Eq.trans ?_ ((hcount.raise_raised (k := 9) ?_ _))
    · exact hlog.raise_raised (notMem_logRegs (by omega)) _
    · simp only [List.mem_singleton]; omega
  · have hentry := Dev.eccLog_logEntry (bits := 3) ((eccEntry_congr haddr x).trans hn) ((eccFree_congr haddr).trans hf) hx hreq
      (by decide)
    exact hentry

/-- An error that the second read finds again: counted as lasting with its address, noted and raised. -/
theorem Dev.eccLasting_finds (hx : x < 2 ^ 32) : d.ReadFinds a x req .uncorrectable .uncorrectable (d.eccLasting a x req) := by
  have hrise := arrayCounters_rise ha
  refine ⟨nofun, by simp, fun _ _ => ⟨?_, ?_, ?_, ?_⟩, by simp, by simp, by simp⟩
  · rw [Dev.eccLasting, Dev.raise_f, Dev.diagL_f, Dev.f_set1_ne _ _ _ (by omega), Dev.f_wf_ne _ _ _ _ (by omega)]
    exact d.f_incSat_same _ _ (by decide)
  · rw [Dev.eccLasting, Dev.raise_f, Dev.diagL_f, Dev.f_set1_ne _ _ _ (by omega), Dev.f_wf_same _ _ _ _ (by decide)]
    exact Nat.mod_eq_of_lt (show x / 8 < 2 ^ 29 by omega)
  · rw [Dev.eccLasting, Dev.bit, Dev.raise_f, Dev.diagL_f]
    exact Dev.b_set1_same _ ECC_STATUS ⟨16 + a, 1⟩ (show 16 + a + 1 ≤ 32 by omega) Nat.one_pos
  · have honly : d.Only [ECC_UE_CNT a, ECC_UE_ADDR a, ECC_STATUS] _ :=
      (((Dev.Only.refl d _).incSat (a := ECC_UE_CNT a) (by simp) ECC_UE_CNT_LASTING 1).wf
        (a := ECC_UE_ADDR a) (by simp) ECC_UE_ADDR_ADDR (x / 8)).set1 (a := ECC_STATUS) (by simp) ⟨16 + a, 1⟩
    rw [Dev.eccLasting, raised_raise_diagL]
    refine honly.raise_raised ?_ _
    unfold PND_ROUTE at *
    simp only [List.mem_cons, List.not_mem_nil, or_false]
    omega

/-- A read by the four outcomes of its first and second look. -/
theorem Dev.eccRead_finds (hx : x < 2 ^ 32) (hreq : req < 16) (e1 e2 : Ecc) :
    d.ReadFinds a x req e1 e2 (d.eccRead a x req e1 e2) := by
  cases e1 with
  | clean => exact ⟨fun _ => ⟨rfl, rfl, rfl⟩, by simp, nofun, nofun, by simp, by simp⟩
  | bits1 => exact d.eccCorrect_finds ha hx hreq e2 (.inl rfl)
  | bits2 => exact d.eccCorrect_finds ha hx hreq e2 (.inr rfl)
  | uncorrectable =>
    by_cases h2 : e2 = .uncorrectable
    · simp only [Dev.eccRead, h2]
      exact d.eccLasting_finds ha hx
    · simp only [Dev.eccRead, if_neg h2]
      exact d.eccTransient_finds ha hx hreq h2

end

/-! ### Back-offs (R505) -/

section
variable {t : Tab Nat} {k : Nat} (g : Nat → Nat → Nat)

/-- A key that is not listed stays so when values change and zeros are dropped. -/
theorem tabFind_updated_none (h : tabFind t k = none) :
    tabFind ((t.map fun x => (x.1, g x.1 x.2)).filter fun x => decide (x.2 ≠ 0)) k = none := by
  induction t with
  | nil => rfl
  | cons e t ih =>
    obtain ⟨j, v⟩ := e
    by_cases hj : j = k
    · simp [tabFind, hj] at h
    · have ht := ih (by simpa [tabFind, hj] using h)
      by_cases hv : g j v = 0
      · simpa [hv] using ht
      · simpa [hv, tabFind, hj] using ht

/-- A key whose value changes to another than zero stays listed with it. -/
theorem tabFind_updated_some {v : Nat} (h : tabFind t k = some v) (hv : g k v ≠ 0) :
    tabFind ((t.map fun x => (x.1, g x.1 x.2)).filter fun x => decide (x.2 ≠ 0)) k = some (g k v) := by
  induction t with
  | nil => cases h
  | cons e t ih =>
    obtain ⟨j, w⟩ := e
    by_cases hj : j = k
    · obtain rfl : w = v := by simpa [tabFind, hj] using h
      simp [hj, hv, tabFind]
    · have ht := ih (by simpa [tabFind, hj] using h)
      by_cases hw : g j w = 0
      · simpa [hw] using ht
      · simpa [hw, tabFind, hj] using ht

theorem tabFind_tabSet_same {dflt v : Nat} (hv : v ≠ dflt) : tabFind (tabSet dflt t k v) k = some v := by
  rw [tabSet, if_neg hv, tabFind_tabIns_same _ _ _ (tabFind_tabDel_same _ _)]

theorem tabFind_tabSet_dflt (dflt : Nat) : tabFind (tabSet dflt t k dflt) k = none := by
  rw [tabSet, if_pos rfl, tabFind_tabDel_same]

theorem tabFind_tabSet_dflt_ne (dflt : Nat) {j : Nat} (h : j ≠ k) : tabFind (tabSet dflt t k dflt) j = tabFind t j := by
  rw [tabSet, if_pos rfl, tabFind_tabDel_ne _ h]

end

/-- Passing slots alone backs no one off. -/
theorem Dev.slotsPass_none {d : Dev} (p n : Nat) {k : Nat} (h : tabFind d.backoff k = none) :
    tabFind (d.slotsPass p n).backoff k = none :=
  tabFind_updated_none (fun j v => if p * 16 ≤ j ∧ j < p * 16 + 16 then v - n else v) h

/-- Where no slot passes, a back-off stays. -/
theorem Dev.slotsPass_zero {d : Dev} (p : Nat) {k v : Nat} (h : tabFind d.backoff k = some v) (hv : v ≠ 0) :
    tabFind (d.slotsPass p 0).backoff k = some v := by
  have hg : (if p * 16 ≤ k ∧ k < p * 16 + 16 then v - 0 else v) = v := ite_self v
  have := tabFind_updated_some (fun j v => if p * 16 ≤ j ∧ j < p * 16 + 16 then v - 0 else v) h (by rw [hg]; exact hv)
  rwa [hg] at this

/-! ### Slots of a port (R487, R503-R505) -/

/-- Every port has a number above 0, so that the keys of its requesters lie beside those of the credits. -/
theorem portOf_pos (t x : Nat) : 1 ≤ portOf t x := by unfold portOf; omega

theorem portKey_inj {p r r' : Nat} (h : portKey p r = portKey p r') : r = r' := Nat.add_left_cancel h

/-- A port gives `w` its slots, the requesters of `losers` lose, and `after` slots more pass. -/
def Dev.slotTo (d : Dev) (p w : Nat) (losers : List Nat) (slots waited after : Nat) : Dev :=
  (((d.slotsPass p 1).each losers fun d r => d.loseSlot p r).granted p w slots waited).slotsPass p after

/-- Losing a slot changes losses and back-offs alone. -/
theorem Dev.losers_eq (d : Dev) (p : Nat) (losers : List Nat) : ∃ ls bs,
    d.each losers (fun d r => d.loseSlot p r) = { d with losses := ls, backoff := bs } := by
  induction losers generalizing d with
  | nil => exact ⟨_, _, rfl⟩
  | cons r rs ih => exact ih (d.loseSlot p r)

/-- One more grant of requester `w` in ARB_GRANTS, and its longest wait in ARB_MAXWAIT. -/
def Dev.slotCounted (d : Dev) (w waited : Nat) : Dev :=
  (d.incSat (ARB_GRANTS w) ARB_GRANTS_CNT).wf (ARB_MAXWAIT w) ARB_MAXWAIT_CNT (max waited (d.f (ARB_MAXWAIT w) ARB_MAXWAIT_CNT))

section
variable (d : Dev) (w waited : Nat)

theorem arbCounters_ne : ARB_GRANTS w ≠ ARB_MAXWAIT w := by unfold ARB_MAXWAIT ARB_GRANTS; omega

theorem Dev.slotCounted_grants :
    (d.slotCounted w waited).f (ARB_GRANTS w) ARB_GRANTS_CNT = min (d.f (ARB_GRANTS w) ARB_GRANTS_CNT + 1) 4294967295 := by
  rw [Dev.slotCounted, Dev.f_wf_ne _ _ _ _ (arbCounters_ne w), Dev.f_incSat_same _ _ _ (by decide)]
  rfl

theorem Dev.slotCounted_maxWait : (d.slotCounted w waited).f (ARB_MAXWAIT w) ARB_MAXWAIT_CNT =
    max waited (d.f (ARB_MAXWAIT w) ARB_MAXWAIT_CNT) % 4294967296 := by
  rw [Dev.slotCounted, Dev.f_wf_same _ _ _ _ (by decide)]
  rfl

theorem Dev.slotCounted_only : d.Only [ARB_GRANTS w, ARB_MAXWAIT w] (d.slotCounted w waited) :=
  ((Dev.Only.refl d _).incSat (by simp) _ _).wf (by simp) _ _

/-- A slot given to `w` is counted, and writes credit counters, losses and back-offs. -/
theorem Dev.slotTo_eq (p : Nat) (losers : List Nat) (slots after : Nat) : ∃ ls bs,
    d.slotTo p w losers slots waited after = { d.slotCounted w waited with
      credits := tabSet 0 d.credits (portKey p w) (d.counter p w - slots + 1), losses := ls, backoff := bs } := by
  obtain ⟨ls, bs, h⟩ := (d.slotsPass p 1).losers_eq p losers
  have hwait : (d.incSat (ARB_GRANTS w) ARB_GRANTS_CNT).f (ARB_MAXWAIT w) ARB_MAXWAIT_CNT =
      d.f (ARB_MAXWAIT w) ARB_MAXWAIT_CNT := Dev.f_wf_ne _ _ _ _ (arbCounters_ne w).symm
  rw [Dev.slotTo, h, Dev.slotCounted, ← hwait]
  exact ⟨_, _, rfl⟩

end

/-- What the winner `w` of a slot at port `p` is left with; the block beside its registers, the credits, losses and
back-offs is as before. -/
structure Dev.SlotGiven (d : Dev) (p w slots waited : Nat) (d' : Dev) : Prop where
  counter : d'.counter p w = d.counter p w - slots
  others : ∀ l, l < 16 → l ≠ w → d'.counter p l = d.counter p l
  grants : d'.f (ARB_GRANTS w) ARB_GRANTS_CNT = min (d.f (ARB_GRANTS w) ARB_GRANTS_CNT + 1) 4294967295
  maxWait : d'.f (ARB_MAXWAIT w) ARB_MAXWAIT_CNT = max waited (d.f (ARB_MAXWAIT w) ARB_MAXWAIT_CNT) % 4294967296
  only : { d with credits := d'.credits, losses := d'.losses, backoff := d'.backoff }.Only [ARB_GRANTS w, ARB_MAXWAIT w] d'

theorem Dev.Only.setCredits {d d' : Dev} {l : List Nat} (h : d.Only l d') (cs ls bs : Tab Nat) :
    { d with credits := cs, losses := ls, backoff := bs }.Only l { d' with credits := cs, losses := ls, backoff := bs } :=
  ⟨h.1, congrArg (fun e => { e with credits := cs, losses := ls, backoff := bs }) h.2⟩

theorem Dev.counter_of_credits {d : Dev} {p r n : Nat} (h : tabGet 0 d.credits (portKey p r) = n + 1) : d.counter p r = n := by
  simp only [Dev.counter, h]

theorem counter_congr {d d' : Dev} {p r : Nat} (hport : tabGet 0 d'.credits (portKey p r) = tabGet 0 d.credits (portKey p r))
    (hcredit : tabGet 0 d'.credits r = tabGet 0 d.credits r) : d'.counter p r = d.counter p r := by
  simp only [Dev.counter, Dev.creditIn, hport, hcredit]

theorem Dev.slotTo_given (d : Dev) {p : Nat} (hp : 1 ≤ p) (w : Nat) (losers : List Nat) (slots waited after : Nat) :
    d.SlotGiven p w slots waited (d.slotTo p w losers slots waited after) := by
  obtain ⟨ls, bs, h⟩ := d.slotTo_eq w waited p losers slots after
  have hregs : (d.slotTo p w losers slots waited after).regs = (d.slotCounted w waited).regs := by rw [h]
  have hcounted (y : Nat) : (d.slotTo p w losers slots waited after).r y = (d.slotCounted w waited).r y := by
    rw [Dev.r, hregs, Dev.r]
  have hcredits : (d.slotTo p w losers slots waited after).credits =
      tabSet 0 d.credits (portKey p w) (d.counter p w - slots + 1) := by rw [h]
  refine ⟨Dev.counter_of_credits ?_, fun l hl hlw => counter_congr ?_ ?_, ?_, ?_, ?_⟩
  · rw [hcredits, tabGet_tabSet_same]
  · rw [hcredits, tabGet_tabSet_ne _ _ _ _ fun hk => hlw (portKey_inj hk)]
  · rw [hcredits, tabGet_tabSet_ne _ _ _ _ (by unfold portKey; omega)]
  · rw [Dev.f, hcounted]
    exact d.slotCounted_grants w waited
  · rw [Dev.f, hcounted]
    exact d.slotCounted_maxWait w waited
  · rw [h]
    exact (d.slotCounted_only w waited).setCredits _ ls bs

/-- The winner is not backed off. -/
theorem Dev.slotTo_backedOff (d : Dev) (p w : Nat) (losers : List Nat) (slots waited after : Nat) :
    (d.slotTo p w losers slots waited after).backedOff p w = false := by
  have hwon : tabFind (((d.slotsPass p 1).each losers fun d r => d.loseSlot p r).granted p w slots waited).backoff
      (portKey p w) = none := tabFind_tabSet_dflt 0
  simp only [Dev.backedOff, Dev.slotTo, tabGet, Dev.slotsPass_none p after hwon]
  rfl

/-- A loser is backed off for the slots of its losses in a row. -/
theorem Dev.slotTo_loser (d : Dev) {p w l : Nat} (hne : l ≠ w) (slots waited : Nat) :
    tabGet 0 (d.slotTo p w [l] slots waited 0).backoff (portKey p l) = backoffSlots (tabGet 0 d.losses (portKey p l) + 1) := by
  have hpos : backoffSlots (tabGet 0 d.losses (portKey p l) + 1) ≠ 0 := by
    have := Nat.two_pow_pos (tabGet 0 d.losses (portKey p l) + 1 - 1)
    unfold backoffSlots; omega
  have hlost : tabFind ((d.slotsPass p 1).loseSlot p l).backoff (portKey p l) =
      some (backoffSlots (tabGet 0 d.losses (portKey p l) + 1)) := tabFind_tabSet_same hpos
  have hgranted : tabFind (((d.slotsPass p 1).loseSlot p l).granted p w slots waited).backoff (portKey p l) =
      some (backoffSlots (tabGet 0 d.losses (portKey p l) + 1)) :=
    (tabFind_tabSet_dflt_ne 0 fun hk => hne (portKey_inj hk)).trans hlost
  simp only [Dev.slotTo, Dev.each, List.foldl_cons, List.foldl_nil, tabGet, Dev.slotsPass_zero p hgranted hpos]
  rfl

/-- Arrays, routing and raised sources are as before a slot. -/
theorem Dev.SlotGiven.alike {d d' : Dev} {p w slots waited : Nat} (h : d.SlotGiven p w slots waited d') : d.ArraysAlike d' where
  regs y hy _ _ := h.only.1 y fun hm => by
    simp only [List.mem_cons, List.not_mem_nil, or_false, ARB_CREDIT, ARB_GRANTS, ARB_MAXWAIT] at *; omega
  raised := h.only.raised_eq
  beam := h.only.beam_eq
  routeWas := h.only.routeWas_eq

/-! ### Accesses (R487, R496, R504) -/

/-- Without preemption the access of the winner among the requesters that are not backed off has the slot. -/
theorem Dev.arrayAccess_eq {d : Dev} {waiting : List Nat} {a : ArrayAcc} {w : Nat} (hpre : a.preempt = false) (hne : waiting ≠ [])
    (hw : d.winner (portOf a.target a.addr.toNat)
      (waiting.filter fun r => !(d.backedOff (portOf a.target a.addr.toNat) r)) = some w) :
    d.arrayAccess waiting a = (d.slotTo (portOf a.target a.addr.toNat) w
      ((waiting.filter fun r => !(d.backedOff (portOf a.target a.addr.toNat) r)).filter fun r => r != w) (accSlots a) a.waited
      (accSlots a + b2n (accWriteBack a) - 1)).accessRead w a := by
  simp only [Dev.arrayAccess, if_neg hne, hpre, Bool.false_eq_true, if_false, hw]
  rfl

/-- A read of an array: beside what the read finds only the requester's answer changes, UE where the error lasts. -/
theorem Dev.accessRead_eq (d : Dev) {a : Nat} (ha : a < 15) (x : Word) (w waited : Nat) (e1 e2 : Ecc) : ∃ bs cs,
    d.accessRead w ⟨a, x, .read, false, waited, e1, e2⟩ = { d.eccRead a x.toNat w e1 e2 with bus := bs, cores := cs } ∧
    (e1 = .uncorrectable → e2 = .uncorrectable → w < 12 → tabGet {} bs w = ⟨0, .ue⟩) := by
  simp only [Dev.accessRead, reduceCtorEq, false_or, if_neg (show ¬ 16 ≤ a by omega), if_neg (show a ≠ 15 by omega)]
  split
  · split
    · exact ⟨_, _, rfl, fun _ _ _ => Dev.bus_resp _ _ _ _⟩
    · exact ⟨_, _, rfl, fun _ _ _ => tabGet_tabSet_same _ _ _ _⟩
  next hno => exact ⟨_, _, rfl, fun h1 h2 hw => absurd ⟨h1, h2, hw⟩ hno⟩

theorem Dev.accessRead_clean (d : Dev) {a : Nat} (ha : a < 15) (x : Word) (w waited : Nat) :
    d.accessRead w ⟨a, x, .read, false, waited, .clean, .clean⟩ = d := by
  simp [Dev.accessRead, Dev.eccRead, show ¬ 16 ≤ a by omega, show a ≠ 15 by omega]

/-- What a read of array `a` by requester `w` leaves. -/
structure Dev.ArrayRead (d : Dev) (a x w : Nat) (e1 e2 : Ecc) (d' : Dev) : Prop where
  finds : d.ReadFinds a x w e1 e2 d'
  answer : e1 = .uncorrectable → e2 = .uncorrectable → w < 12 → tabGet {} d'.bus w = ⟨0, .ue⟩
  regs : d.Keeps (arrayRegs a) d'
  credits : d'.credits = d.credits
  mem : d'.mem = d.mem
  beam : d'.beam = d.beam

theorem Dev.accessRead_reads (d : Dev) {a : Nat} (ha : a < 15) (x : Word) {w : Nat} (hw : w < 16) (waited : Nat) (e1 e2 : Ecc) :
    d.ArrayRead a x.toNat w e1 e2 (d.accessRead w ⟨a, x, .read, false, waited, e1, e2⟩) := by
  obtain ⟨bs, cs, h, hans⟩ := d.accessRead_eq ha x w waited e1 e2
  obtain ⟨rs, ds, honly⟩ := d.eccRead_only x.toNat w e1 e2 (a := a)
  rw [h]
  exact ⟨d.eccRead_finds ha x.isLt hw e1 e2, hans, honly.1, honly.credits_eq, honly.mem_eq, honly.beam_eq⟩

/-- Of two requesters the one with the higher counter wins, with equal counters the lower number (R504). -/
theorem winner_of_two {d : Dev} {p w l : Nat} {waiting : List Nat}
    (h : d.counter p l < d.counter p w ∨ d.counter p l = d.counter p w ∧ w < l) (hm : waiting = [w, l] ∨ waiting = [l, w]) :
    d.winner p waiting = some w := by
  rcases hm with rfl | rfl
  · simp only [Dev.winner]
    rw [if_pos (by omega)]
  · simp only [Dev.winner]
    rw [if_neg (by omega)]

/-- What a read in a slot leaves: the winner charged, and what its read finds. -/
structure Dev.SlotRead (d : Dev) (a x w waited : Nat) (e1 e2 : Ecc) (d' : Dev) : Prop where
  finds : d.ReadFinds a x w e1 e2 d'
  counter : d'.counter (portOf a x) w = d.counter (portOf a x) w - (if e1 = .uncorrectable then 2 else 1)
  grants : d'.f (ARB_GRANTS w) ARB_GRANTS_CNT = min (d.f (ARB_GRANTS w) ARB_GRANTS_CNT + 1) 4294967295
  maxWait : d'.f (ARB_MAXWAIT w) ARB_MAXWAIT_CNT = max waited (d.f (ARB_MAXWAIT w) ARB_MAXWAIT_CNT) % 4294967296
  answer : e1 = .uncorrectable → e2 = .uncorrectable → w < 12 → tabGet {} d'.bus w = ⟨0, .ue⟩
  regs : d.Keeps (ARB_GRANTS w :: ARB_MAXWAIT w :: arrayRegs a) d'

/-- The arrays' registers lie below the arbiter's. -/
theorem notMem_arrayRegs {a y : Nat} (ha : a < 15) (hy : ARB_CREDIT 0 ≤ y) : y ∉ arrayRegs a := by
  simp only [arrayRegs, logRegs, List.mem_cons, List.mem_append, List.mem_map, List.mem_range, not_or, not_exists, not_and]
  simp only [ECC_CE_CNT, ECC_UE_CNT, ECC_UE_ADDR, ECC_STATUS, ECC_LOG_ADDR, ECC_LOG_INFO, ARB_CREDIT] at *
  refine ⟨by omega, by omega, by omega, by omega, fun e he => by omega, fun e he => by omega⟩

theorem Dev.ArrayRead.afterSlot {d d1 d' : Dev} {a x w waited : Nat} {e1 e2 : Ecc} (h : d1.ArrayRead a x w e1 e2 d') (ha : a < 15)
    (hg : d.SlotGiven (portOf a x) w (if e1 = .uncorrectable then 2 else 1) waited d1) :
    d.SlotRead a x w waited e1 e2 d' where
  finds := h.finds.congr hg.alike (Dev.ArraysAlike.refl d') ha
  counter := (counter_congr (congrArg (tabGet 0 · _) h.credits) (congrArg (tabGet 0 · _) h.credits)).trans hg.counter
  grants := by
    rw [Dev.f, h.regs _ (notMem_arrayRegs ha (by unfold ARB_CREDIT ARB_GRANTS; omega))]
    exact hg.grants
  maxWait := by
    rw [Dev.f, h.regs _ (notMem_arrayRegs ha (by unfold ARB_CREDIT ARB_MAXWAIT; omega))]
    exact hg.maxWait
  answer := h.answer
  regs := (hg.only.1.mono (by simp)).trans (h.regs.mono (by simp))

section
variable {s : State} (hI : s.Inv)
include hI

/-- With no requester at the spine port the core of the array reads it (R489). -/
theorem arrayAccess_noRequester (a : Fin 15) (x : Word) (e1 e2 : Ecc) (h : a.val < 6 ∨ a.val = 14) :
    s.Runs (.arrayAccess [] ⟨a, x, .read, false, 0, e1, e2⟩)
      (s.hw.ArrayRead a x.toNat (if a.val < 6 then a else 8) e1 e2) := by
  have hreq : s.hw.privateReq a = ((if a.val < 6 then a else 8 : Nat), s.hw) := by
    unfold Dev.privateReq
    rcases h with h | h
    · simp only [if_pos h]
    · simp [h]
  have hd : s.hw.arrayAccess [] ⟨a, x, .read, false, 0, e1, e2⟩ =
      s.hw.accessRead (if a.val < 6 then a else 8 : Nat) ⟨a, x, .read, false, 0, e1, e2⟩ := by
    simp only [Dev.arrayAccess, if_true, hreq]
  have hread := s.hw.accessRead_reads a.isLt x (w := if a.val < 6 then a else 8) (by split <;> omega) 0 e1 e2
  refine runs_of_same (f := fun d => d.arrayAccess [] _) hI rfl ?_ ?_ ?_ <;> rw [hd]
  · exact hread.mem
  · exact hread.beam
  · exact hread

/-- A requester that waits alone and is not backed off has the slot (R503, R504). -/
theorem arrayAccess_alone (a : Fin 15) (x : Word) (w : Fin 16) (waited : Nat) (e1 e2 : Ecc)
    (hback : s.hw.backedOff (portOf a x.toNat) w = false) :
    s.Runs (.arrayAccess [w] ⟨a, x, .read, false, waited, e1, e2⟩) (s.hw.SlotRead a x.toNat w waited e1 e2) := by
  have hslots : accSlots ⟨a, x, .read, false, waited, e1, e2⟩ = if e1 = .uncorrectable then 2 else 1 := by
    cases e1 <;> rfl
  have hready : ([w].map Fin.val).filter (fun r => !(s.hw.backedOff (portOf a x.toNat) r)) = [w.val] := by simp [hback]
  have hlosers : [w.val].filter (fun r => r != w.val) = [] := by simp
  have hd := Dev.arrayAccess_eq (d := s.hw) (waiting := [w].map Fin.val) (a := ⟨a, x, .read, false, waited, e1, e2⟩) (w := w)
    rfl (by simp) (by rw [hready]; rfl)
  rw [hready, hlosers, hslots] at hd
  have hgiven (slots after : Nat) := s.hw.slotTo_given (portOf_pos a x.toNat) w [] slots waited after
  have hread (slots after : Nat) :=
    (s.hw.slotTo (portOf a x.toNat) w [] slots waited after).accessRead_reads a.isLt x w.isLt waited e1 e2
  refine runs_of_same (f := fun d => d.arrayAccess ([w].map Fin.val) _) hI rfl ?_ ?_ ?_ <;> rw [hd]
  · exact (hread _ _).mem.trans (hgiven _ _).only.mem_eq
  · exact (hread _ _).beam.trans (hgiven _ _).only.beam_eq
  · exact (hread _ _).afterSlot a.isLt (hgiven _ _)

/-- The other one loses the slot and is backed off (R505). -/
theorem arrayAccess_contended (a : Fin 15) (x : Word) (w l : Fin 16) (waited : Nat) (hne : w ≠ l)
    (hw : s.hw.backedOff (portOf a x.toNat) w = false) (hl : s.hw.backedOff (portOf a x.toNat) l = false)
    (hwins : s.hw.counter (portOf a x.toNat) l < s.hw.counter (portOf a x.toNat) w ∨
      s.hw.counter (portOf a x.toNat) l = s.hw.counter (portOf a x.toNat) w ∧ w < l)
    (waiting : List (Fin 16)) (hm : waiting = [w, l] ∨ waiting = [l, w]) :
    s.Runs (.arrayAccess waiting ⟨a, x, .read, false, waited, .clean, .clean⟩) fun d' =>
      s.hw.SlotGiven (portOf a x.toNat) w 1 waited d' ∧
      tabGet 0 d'.backoff (portKey (portOf a x.toNat) l) = min 64 (2 ^ tabGet 0 s.hw.losses (portKey (portOf a x.toNat) l)) ∧
      d'.backedOff (portOf a x.toNat) w = false := by
  have hval : l.val ≠ w := fun h => hne (Fin.ext h.symm)
  have hvals : waiting.map Fin.val = [w.val, l.val] ∨ waiting.map Fin.val = [l.val, w.val] := by
    rcases hm with rfl | rfl <;> simp
  have hready : (waiting.map Fin.val).filter (fun r => !(s.hw.backedOff (portOf a x.toNat) r)) = waiting.map Fin.val := by
    rcases hvals with h | h <;> simp [h, hw, hl]
  have hlosers : (waiting.map Fin.val).filter (fun r => r != w.val) = [l.val] := by
    rcases hvals with h | h <;> simp [h, hval]
  have hd : s.hw.arrayAccess (waiting.map Fin.val) ⟨a, x, .read, false, waited, .clean, .clean⟩ =
      s.hw.slotTo (portOf a x.toNat) w [l.val] 1 waited 0 := by
    refine (Dev.arrayAccess_eq (w := w) rfl ?_ ?_).trans ?_
    · rcases hm with rfl | rfl <;> simp
    · rw [hready]; exact winner_of_two hwins hvals
    · rw [hready, hlosers, Dev.accessRead_clean _ a.isLt]
      rfl
  have hgiven := s.hw.slotTo_given (portOf_pos a x.toNat) w [l.val] 1 waited 0
  refine runs_of_same (f := fun d => d.arrayAccess (waiting.map Fin.val) _) hI rfl ?_ ?_ ?_ <;> rw [hd]
  · exact hgiven.only.mem_eq
  · exact hgiven.only.beam_eq
  · exact ⟨hgiven, s.hw.slotTo_loser hval 1 waited, s.hw.slotTo_backedOff _ _ _ _ _ _⟩

end

/-! ### Windows and credits (R503, R507) -/

/-- A list of writes to rising keys reads as what was written. -/
theorem tabGet_foldl_range (g : Nat → Nat) (n k : Nat) :
    tabGet 0 ((List.range n).foldl (fun t r => tabSet 0 t r (g r)) []) k = if k < n then g k else 0 := by
  induction n with
  | zero => rfl
  | succ n ih =>
    rw [List.range_succ, List.foldl_append, List.foldl_cons, List.foldl_nil, tabGet_tabSet _ _ _ _ _ _ fun _ => rfl, ih]
    by_cases hk : k = n
    · simp [hk]
    · rw [if_neg hk]
      by_cases hlt : k < n
      · rw [if_pos hlt, if_pos (by omega)]
      · rw [if_neg hlt, if_neg (by omega)]

/-- In a new window every counter holds its requester's credit. -/
theorem Dev.windowStart_counter (d : Dev) {p r : Nat} (hp : 1 ≤ p) (hr : r < 16) :
    d.windowStart.counter p r = d.f (ARB_CREDIT r) ARB_CREDIT_CREDIT := by
  have hcredits (k : Nat) : tabGet 0 d.windowStart.credits k =
      if k < 16 then d.f (ARB_CREDIT k) ARB_CREDIT_CREDIT + 1 else 0 := by
    rw [Dev.windowStart, tabGet_foldl_range fun r => d.f (ARB_CREDIT r) ARB_CREDIT_CREDIT + 1]
  have hport : ¬ portKey p r < 16 := by unfold portKey; omega
  simp only [Dev.counter, Dev.creditIn, hcredits, if_neg hport, if_pos hr]

theorem Dev.windowStart_eq (d : Dev) : ∃ cs, d.windowStart = { d with credits := cs, losses := [], backoff := [] } := ⟨_, rfl⟩

theorem foldl_add_eq_sum (g : Nat → Nat) (l : List Nat) (n : Nat) : l.foldl (fun n i => n + g i) n = n + (l.map g).sum := by
  induction l generalizing n with
  | nil => rfl
  | cons i l ih => rw [List.foldl_cons, ih, List.map_cons, List.sum_cons, Nat.add_assoc]

/-- The sum that a write of `v` to the credit of `r` would make. -/
theorem Dev.creditSum_eq (d : Dev) (r v : Nat) : d.creditSum r v =
    ((List.range 16).map fun i => if i = r then v else d.f (ARB_CREDIT i) ARB_CREDIT_CREDIT).sum := by
  rw [Dev.creditSum, foldl_add_eq_sum, Nat.zero_add]

section
variable {s : State} (hI : s.Inv)
include hI

theorem arbWindowStart_runs (ht : s.hw.ticking = true) (hb : s.hw.beam % 128 = 0) : s.Runs .arbWindowStart fun d' =>
    (∀ (p : Nat) (r : Fin 16), 1 ≤ p → d'.counter p r = s.hw.f (ARB_CREDIT r) ARB_CREDIT_CREDIT ∧ d'.backedOff p r = false) ∧
    { s.hw with credits := d'.credits, losses := d'.losses, backoff := d'.backoff }.Only [] d' := by
  have hd : (if s.hw.ticking && s.hw.beam % 128 == 0 then s.hw.windowStart else s.hw) = s.hw.windowStart :=
    if_pos (by simp [ht, hb])
  have hcounter (p : Nat) (r : Fin 16) (hp : 1 ≤ p) := s.hw.windowStart_counter hp r.isLt
  obtain ⟨cs, hw⟩ := s.hw.windowStart_eq
  rw [hw] at hd hcounter
  refine runs_of_same (f := fun d => if d.ticking && d.beam % 128 == 0 then d.windowStart else d) hI rfl ?_ ?_ ?_ <;>
    simp only [hw, hd]
  exact ⟨fun p r hp => ⟨hcounter p r hp, rfl⟩, fun _ _ => rfl, rfl⟩

section
variable {q : Req} {r : Fin 16} {v : BitVec 8} (ha : s.hw.accessErr q (ARB_CREDIT r) 4 true = .none)
include ha

/-- A credit within the sum of 64 is taken, and the sum shown. -/
theorem arbCreditWrite_takes (h : s.hw.creditSum r v.toNat ≤ 64) : s.Runs (.arbCreditWrite q r v) fun d' => d'.Answers q 0 ∧
    d'.f (ARB_CREDIT r) ARB_CREDIT_CREDIT = v.toNat ∧ d'.f ARB_STATUS ARB_STATUS_SUM = s.hw.creditSum r v.toNat ∧
    s.hw.Only [ARB_CREDIT r, ARB_STATUS] d' := by
  have hne : ARB_CREDIT r ≠ ARB_STATUS := by have := r.isLt; unfold ARB_CREDIT ARB_STATUS; omega
  have hd : s.hw.creditWrite r v.toNat = (s.hw.wf (ARB_CREDIT r) ARB_CREDIT_CREDIT v.toNat).wf ARB_STATUS ARB_STATUS_SUM
      (s.hw.creditSum r v.toNat) := if_neg (by omega)
  refine write_runs hI (f := fun d => d.creditWrite r v.toNat) rfl ha ?_ ?_ ⟨?_, ?_, ?_⟩ <;> simp only [hd]
  · rfl
  · rfl
  · rw [Dev.resp_f, Dev.f_wf_ne _ _ _ _ hne, Dev.f_wf_same _ _ _ _ (by decide)]
    exact Nat.mod_eq_of_lt v.isLt
  · rw [Dev.resp_f, Dev.f_wf_same _ _ _ _ (by decide)]
    exact Nat.mod_eq_of_lt (show s.hw.creditSum r v.toNat < 2 ^ 8 by omega)
  · exact (((Dev.Only.refl s.hw _).wf (by simp) _ _).wf (by simp) _ _).resp _ _ _

/-- A credit beyond the sum of 64 is refused and noted. -/
theorem arbCreditWrite_refused (h : 64 < s.hw.creditSum r v.toNat) : s.Runs (.arbCreditWrite q r v) fun d' =>
    d'.Answers q 0 ∧ d'.r ARB_STATUS = fput ARB_STATUS_BAD_SUM (s.hw.r ARB_STATUS) 1 ∧ s.hw.Only [ARB_STATUS] d' := by
  have hd : s.hw.creditWrite r v.toNat = s.hw.set1 ARB_STATUS ARB_STATUS_BAD_SUM := if_pos h
  refine write_runs hI (f := fun d => d.creditWrite r v.toNat) rfl ha ?_ ?_ ⟨?_, ?_⟩ <;> simp only [hd]
  · rfl
  · rfl
  · rw [Dev.resp_r, Dev.r_set1_same]
  · exact ((Dev.Only.refl s.hw _).set1 (by simp) _).resp _ _ _

end
end

/-! ### The scrubber (R499, R500) -/

/-- The scrubber stands at the word `x` of array `a`. -/
def Dev.scrubTo (d : Dev) (a : Nat) (x : Word) : Dev :=
  (d.wf ECC_SCRUB_STATUS ECC_SCRUB_STATUS_ARRAY a).w ECC_SCRUB_POS x

section
variable (d : Dev) (a : Nat) (x : Word)

theorem Dev.scrubTo_array (ha : a < 15) : (d.scrubTo a x).f ECC_SCRUB_STATUS ECC_SCRUB_STATUS_ARRAY = a := by
  rw [Dev.scrubTo, Dev.f, Dev.r_w_ne _ _ (by decide)]
  exact (Dev.f_wf_same _ _ _ _ (by decide)).trans (Nat.mod_eq_of_lt (show a < 2 ^ 4 by omega))

theorem Dev.scrubTo_pos : (d.scrubTo a x).r ECC_SCRUB_POS = x := Dev.r_w_same _ _ _

theorem Dev.scrubTo_passes : (d.scrubTo a x).f ECC_SCRUB_STATUS ECC_SCRUB_STATUS_PASSES =
    d.f ECC_SCRUB_STATUS ECC_SCRUB_STATUS_PASSES := by
  rw [Dev.scrubTo, Dev.f, Dev.r_w_ne _ _ (by decide)]
  exact Dev.f_wf_other _ _ _ _ _ (by decide) (by decide)

theorem Dev.scrubTo_only : d.Only [ECC_SCRUB_STATUS, ECC_SCRUB_POS] (d.scrubTo a x) :=
  ((Dev.Only.refl d _).wf (by simp) _ _).w (by simp) _

/-- Where the scrubber stands touches no array, route or source. -/
theorem Dev.scrubTo_alike : d.ArraysAlike (d.scrubTo a x) where
  regs y _ h1 h2 := (d.scrubTo_only a x).1 y (by simp [h1, h2])
  raised := rfl
  beam := rfl
  routeWas := rfl

end

section
variable {d : Dev} {a x : Nat} (hen : d.b ECC_SCRUB_CTL ECC_SCRUB_CTL_EN = true) (hpos : d.scrubPos = some (a, x))
include hen hpos

/-- With a word of its array left the scrubber goes on to it. -/
theorem Dev.scrubRead_within (hpow : d.unpowered (arrayPlace a x) = false) (h : x + 8 < arrayBase a + arraySize a)
    (e1 e2 : Ecc) : d.scrubRead e1 e2 = (d.eccRead a x 15 e1 e2).scrubTo a (wordOf (x + 8)) := by
  simp only [Dev.scrubRead, hen, hpos, hpow, if_true, Bool.false_eq_true, if_false, Dev.scrubStep, if_pos h]
  rfl

/-- After the last word of the last array the pass ends. -/
theorem Dev.scrubRead_last (h : arrayBase a + arraySize a ≤ x + 8) (hnext : d.scrubNext (a + 1) = none) :
    d.scrubRead .clean .clean = d.passEnd := by
  simp only [Dev.scrubRead, hen, hpos, if_true, Dev.eccRead, ite_self, Dev.scrubStep, if_neg (Nat.not_lt.mpr h), hnext]

end

/-- A pass that ends is counted, and raised with its number (R500). -/
structure Dev.PassEnded (d d' : Dev) : Prop where
  passes : d'.f ECC_SCRUB_STATUS ECC_SCRUB_STATUS_PASSES = min (d.f ECC_SCRUB_STATUS ECC_SCRUB_STATUS_PASSES + 1) 65535
  raised : d'.raised = (d.raise 0x000B (min (d.f ECC_SCRUB_STATUS ECC_SCRUB_STATUS_PASSES + 1) 65535)).raised
  regs : d.Keeps [ECC_SCRUB_STATUS, ECC_SCRUB_POS] d'
  mem : d'.mem = d.mem
  beam : d'.beam = d.beam

section
variable {d e : Dev} (h : d.PassEnded e)
include h

theorem Dev.PassEnded.scrubTo (b : Nat) (x : Word) : d.PassEnded (e.scrubTo b x) where
  passes := (e.scrubTo_passes b x).trans h.passes
  raised := (e.scrubTo_only b x).raised_eq.trans h.raised
  regs := h.regs.trans (e.scrubTo_only b x).1
  mem := (e.scrubTo_only b x).mem_eq.trans h.mem
  beam := (e.scrubTo_only b x).beam_eq.trans h.beam

theorem Dev.PassEnded.setScrubAt (t : Nat) : d.PassEnded { e with scrubAt := t } := ⟨h.passes, h.raised, h.regs, h.mem, h.beam⟩

end

section
variable (d : Dev)

theorem Dev.passCounted_passes : (d.incSat ECC_SCRUB_STATUS ECC_SCRUB_STATUS_PASSES).f ECC_SCRUB_STATUS ECC_SCRUB_STATUS_PASSES =
    min (d.f ECC_SCRUB_STATUS ECC_SCRUB_STATUS_PASSES + 1) 65535 := d.f_incSat_same _ _ (by decide)

theorem Dev.passCounted_only :
    d.Only [ECC_SCRUB_STATUS, ECC_SCRUB_POS] (d.incSat ECC_SCRUB_STATUS ECC_SCRUB_STATUS_PASSES) :=
  (Dev.Only.refl d _).incSat (by simp) _ _

/-- The block with the pass counted and raised, before the scrubber moves. -/
def Dev.passNoted : Dev :=
  (d.incSat ECC_SCRUB_STATUS ECC_SCRUB_STATUS_PASSES).raise 0x000B
    ((d.incSat ECC_SCRUB_STATUS ECC_SCRUB_STATUS_PASSES).f ECC_SCRUB_STATUS ECC_SCRUB_STATUS_PASSES)

theorem Dev.passNoted_ended : d.PassEnded d.passNoted := by
  rw [Dev.passNoted, d.passCounted_passes]
  exact {
    passes := (Dev.raise_f _ _ _ _ _).trans d.passCounted_passes
    raised := d.passCounted_only.raise_raised (by decide) _
    regs := fun y hy => (Dev.raise_r _ _ _ _).trans (d.passCounted_only.1 y hy)
    mem := (Dev.raise_mem _ _ _).trans d.passCounted_only.mem_eq
    beam := (Dev.raise_beam _ _ _).trans d.passCounted_only.beam_eq }

theorem Dev.passEnd_eq : ∃ b x,
    d.passEnd = { d.passNoted.scrubTo b x with scrubAt := (d.passNoted.scrubTo b x).beam } := ⟨_, _, rfl⟩

theorem Dev.passEnd_ended : d.PassEnded d.passEnd := by
  obtain ⟨b, x, h⟩ := d.passEnd_eq
  rw [h]
  exact (d.passNoted_ended.scrubTo b x).setScrubAt _

/-- The next pass begins on the tick on which one ends. -/
theorem Dev.passEnd_scrubAt : d.passEnd.scrubAt = d.beam := by
  obtain ⟨b, x, h⟩ := d.passEnd_eq
  rw [h]
  exact (d.passNoted_ended.scrubTo b x).beam

end

/-- What a read of the scrubber within an array leaves. -/
structure Dev.Scrubbed (d : Dev) (a : Nat) (x : Word) (e1 e2 : Ecc) (d' : Dev) : Prop where
  finds : d.ReadFinds a x.toNat 15 e1 e2 d'
  array : d'.f ECC_SCRUB_STATUS ECC_SCRUB_STATUS_ARRAY = a
  pos : d'.r ECC_SCRUB_POS = x + 8
  regs : d.Keeps (ECC_SCRUB_STATUS :: ECC_SCRUB_POS :: arrayRegs a) d'

section
variable {s : State} (hI : s.Inv)
include hI

section
variable {a : Fin 15} {x : Word} (hen : s.hw.b ECC_SCRUB_CTL ECC_SCRUB_CTL_EN = true)
  (hpos : s.hw.scrubPos = some (a.val, x.toNat))
include hen hpos

theorem scrubRead_reads (hpow : s.hw.unpowered (arrayPlace a x.toNat) = false) (h : x.toNat + 8 < arrayBase a + arraySize a)
    (e1 e2 : Ecc) : s.Runs (.scrubRead e1 e2) (s.hw.Scrubbed a x e1 e2) := by
  have hd := Dev.scrubRead_within hen hpos hpow h e1 e2
  have hfinds := s.hw.eccRead_finds a.isLt x.isLt (show 15 < 16 by decide) e1 e2
  have halike := Dev.scrubTo_alike (s.hw.eccRead a x.toNat 15 e1 e2) a (wordOf (x.toNat + 8))
  have hto := Dev.scrubTo_only (s.hw.eccRead a x.toNat 15 e1 e2) a (wordOf (x.toNat + 8))
  obtain ⟨rs, ds, honly⟩ := s.hw.eccRead_only x.toNat 15 e1 e2 (a := a)
  have hnext : wordOf (x.toNat + 8) = x + 8 := by
    rw [wordOf, BitVec.ofNat_add, BitVec.ofNat_toNat, BitVec.setWidth_eq]
    rfl
  refine runs_of_same (f := fun d => d.scrubRead e1 e2) hI rfl ?_ ?_ ?_ <;> simp only [hd]
  · exact hto.mem_eq.trans honly.mem_eq
  · exact hto.beam_eq.trans honly.beam_eq
  · exact ⟨hfinds.congr (Dev.ArraysAlike.refl _) halike a.isLt, Dev.scrubTo_array _ _ _ a.isLt,
      (Dev.scrubTo_pos _ _ _).trans hnext, Dev.Keeps.trans (honly.1.mono (by simp)) (hto.1.mono (by simp))⟩

theorem scrubRead_endsPass (h : arrayBase a + arraySize a ≤ x.toNat + 8) (hnext : s.hw.scrubNext (a + 1) = none) :
    s.Runs (.scrubRead .clean .clean) fun d' => s.hw.PassEnded d' ∧ d'.scrubAt = s.hw.beam := by
  have hd := Dev.scrubRead_last hen hpos h hnext
  have hend := s.hw.passEnd_ended
  refine runs_of_same (f := fun d => d.scrubRead .clean .clean) hI rfl ?_ ?_ ?_ <;> simp only [hd]
  · exact hend.mem
  · exact hend.beam
  · exact ⟨hend, s.hw.passEnd_scrubAt⟩

end

/-- A pass that has not ended in INT seconds is noted (R500). -/
theorem scrubLate_runs (hen : s.hw.b ECC_SCRUB_CTL ECC_SCRUB_CTL_EN = true)
    (hlate : s.hw.scrubAt + min 604800 (max 1 (s.hw.f ECC_SCRUB_CTL ECC_SCRUB_CTL_INT)) * 500000000 ≤ s.hw.beam) :
    s.Runs .scrubLate fun d' => d'.b ECC_SCRUB_STATUS ECC_SCRUB_STATUS_SCRUB_LATE = true ∧ s.hw.Only [ECC_SCRUB_STATUS] d' := by
  have hnow : s.hw.scrubLateNow = true := by
    rw [Dev.scrubLateNow, hen, Bool.true_and, decide_eq_true_iff]
    exact hlate
  have hd : s.hw.setIf s.hw.scrubLateNow ECC_SCRUB_STATUS ECC_SCRUB_STATUS_SCRUB_LATE =
      s.hw.set1 ECC_SCRUB_STATUS ECC_SCRUB_STATUS_SCRUB_LATE := by rw [hnow]; rfl
  refine runs_of_same (f := fun d => d.setIf d.scrubLateNow ECC_SCRUB_STATUS ECC_SCRUB_STATUS_SCRUB_LATE) hI rfl ?_ ?_ ?_ <;>
    simp only [hd]
  · rfl
  · rfl
  · exact ⟨Dev.b_set1_same _ _ _ (by decide) (by decide), (Dev.Only.refl _ _).set1 (by simp) _⟩

end

/-- Settles O42: a slot is the winner's charge and its read, a read is its count, log entry and raise; windows, credits and
the scrubber write their own registers. -/
theorem arraysAndArbiter : Obligations.ArraysAndArbiter := by
  intro s q hI
  refine ⟨fun a x w waited e1 e2 hback => ?_, fun a x w l waited hne hw hl hwins waiting hm => ?_,
    fun a x e1 e2 h => ?_, fun ht hb => arbWindowStart_runs hI ht hb, fun r v ha => ?_,
    fun a x e1 e2 hen hpos hpow => ⟨fun h => ?_, fun h hnext => ?_⟩, fun hen hlate => scrubLate_runs hI hen hlate⟩
  · refine (arrayAccess_alone hI a x w waited e1 e2 hback).imp fun d' h => ?_
    exact ⟨h.finds, h.counter, h.grants, h.maxWait, h.answer, h.regs⟩
  · refine (arrayAccess_contended hI a x w l waited hne hw hl hwins waiting (by simpa using hm)).imp fun d' ⟨h, hlost, hwon⟩ => ?_
    exact ⟨h.counter, h.others l l.isLt fun e => hne (Fin.ext e.symm), hlost, hwon, h.only.1⟩
  · refine (arrayAccess_noRequester hI a x e1 e2 h).imp fun d' h => ?_
    exact ⟨h.finds, h.regs⟩
  · have hsum := s.hw.creditSum_eq r v.toNat
    exact ⟨fun h => hsum ▸ arbCreditWrite_takes hI ha (hsum ▸ h), fun h => arbCreditWrite_refused hI ha (hsum ▸ h)⟩
  · refine (scrubRead_reads hI hen hpos hpow h e1 e2).imp fun d' h => ?_
    exact ⟨h.finds, h.array, h.pos, h.regs⟩
  · refine (scrubRead_endsPass hI hen hpos h hnext).imp fun d' ⟨h, hat⟩ => ?_
    exact ⟨h.passes, h.raised, hat, h.regs⟩

end Sys2Proof.Machine
end
